-- ==== Sys2Proof/Word.lean ====
section
/-! DEFINITION. The word types of the machine and their plainest arithmetic. -/

namespace Sys2Proof

/-- A byte of memory. -/
abbrev Byte := BitVec 8

/-- A 32-bit quantity: one slot of a bundle, an FP32 pattern, an engine lane. -/
abbrev Half := BitVec 32

/-- A 64-bit `x` register, special register or doubleword of memory (R180, R296). -/
abbrev Word := BitVec 64

/-- A 256-bit short vector register (R180). -/
abbrev Vec := BitVec 256

end Sys2Proof
end

