-- ==== Sys2Proof/Config.lean ====
section
/-! DEFINITION. What an implementation fixes, and the values that the spec leaves open. An opaque constant has no body: no
proof can see its value. -/

namespace Sys2Proof

/-- L: the least common multiple of the clock multipliers 10 to 25 (R18; log 2). -/
def Config.clockLcm : Nat := 26771144400

/-- Units of model time in one nanosecond (log 2). -/
def Config.unitsPerNs : Nat := 47 * Config.clockLcm

/-- Units of model time in one arithmetic cycle at multiplier N: 1 / (47 N) microseconds (R18; log 2). -/
def Config.cycleUnits (n : Nat) : Nat := 1000 * Config.clockLcm / n

/-- A doubleword that the spec leaves open: what a read of an occupied context image returns (R107), and the bytes of the
hardware message buffer (R174). The argument is the count of open values drawn before (log 4). -/
opaque Config.freeWord : Nat → BitVec 64

/-- The order in which merged contributions of a float reduction apply (R225): whether a merge record takes this pair (log 5). -/
opaque Config.freeBool : Nat → Bool

/-- Both signatures of a configuration image verify against the maker's public keys, which the spec does not print (R27; log 50). -/
opaque Config.imageSigned : List Nat → Bool

/-- A byte of a quote's signatures: the bytes signed, which hub signs, and the place among the 64 of Ed25519 and the 3,309 of ML-DSA-65 (R90; log 50). -/
opaque Config.signature : List Nat → Nat → Nat → BitVec 8

/-- A byte that another device returns: the time of the read in model units, and the byte's GPA (log 22). -/
opaque Config.remoteByte : Nat → Nat → BitVec 8

/-- Messages of one core that the network holds on one virtual network before its send queue waits: back-pressure without a stated depth (log 61). -/
def Config.netHold : Nat := 4

/-- The flits of a packet that carries a number of bytes: the spec gives no flit size of the mesh (R101; log 114). -/
opaque Config.flits : Nat → Nat

end Sys2Proof
end

