-- ==== Sys2Proof/Machine/Maps.lean ====
section
/-! DEFINITION. The two containers of the state: a finite map from numbers with a default for absent keys, and memory, a
list of cells in one canonical form. -/

namespace Sys2Proof.Machine

/-- A finite map as a list of keys and values, keys rising. -/
abbrev KMap (α : Type) := List (Nat × α)

/-- The value at a key, or `d` where the key is absent. -/
def KMap.get {α : Type} (d : α) : KMap α → Nat → α
  | [], _ => d
  | (j, a) :: m, k => if j = k then a else KMap.get d m k

/-- Whether a key is present. -/
def KMap.has {α : Type} (m : KMap α) (k : Nat) : Bool := m.any (fun e => e.1 = k)

/-- The value at a key, if present. -/
def KMap.find? {α : Type} : KMap α → Nat → Option α
  | [], _ => none
  | (j, a) :: m, k => if j = k then some a else KMap.find? m k

/-- The map with the value at one key replaced. -/
def KMap.put {α : Type} : KMap α → Nat → α → KMap α
  | [], k, a => [(k, a)]
  | (j, b) :: m, k, a =>
    if k < j then (k, a) :: (j, b) :: m else if k = j then (k, a) :: m else (j, b) :: KMap.put m k a

/-- The map without one key. -/
def KMap.drop {α : Type} (m : KMap α) (k : Nat) : KMap α := m.filter (fun e => e.1 ≠ k)

/-- Memory: the bytes that differ from zero, by rising address. An address that is not listed reads as zero (log 3). -/
abbrev Memory := List Host.Cell

/-- One byte of memory. -/
def Memory.read : Memory → Nat → Byte
  | [], _ => 0
  | (j, b) :: m, a => if j = a then b else Memory.read m a

/-- Memory with one byte set to a value that is not zero. -/
def Memory.insert : Memory → Nat → Byte → Memory
  | [], a, b => [(a, b)]
  | (j, c) :: m, a, b =>
    if a < j then (a, b) :: (j, c) :: m else if a = j then (a, b) :: m else (j, c) :: Memory.insert m a b

/-- Memory with one byte written: writing what an unlisted address reads as removes the entry. -/
def Memory.write (m : Memory) (a : Nat) (b : Byte) : Memory :=
  if b = 0 then m.filter (fun e => e.1 ≠ a) else Memory.insert m a b

/-- The canonical form from a lower bound on: addresses strictly rising, no zero byte listed. -/
def Memory.wfFrom : Nat → Memory → Bool
  | _, [] => true
  | n, (j, b) :: m => n ≤ j && b ≠ 0 && Memory.wfFrom (j + 1) m

/-- The canonical form of memory. -/
def Memory.wf (m : Memory) : Bool := Memory.wfFrom 0 m

/-- `n` bytes from an address, as a little-endian number. -/
def Memory.readLE (m : Memory) (a : Nat) : Nat → Nat
  | 0 => 0
  | n + 1 => (m.read a).toNat + 256 * Memory.readLE m (a + 1) n

/-- The low `n` bytes of a number written from an address, least significant first. -/
def Memory.writeLE (m : Memory) (a : Nat) : Nat → Nat → Memory
  | 0, _ => m
  | n + 1, v => Memory.writeLE (m.write a (BitVec.ofNat 8 v)) (a + 1) n (v / 256)

end Sys2Proof.Machine
end

