-- ==== Sys2Proof/Machine/Keccak.lean ====
section
/-! DEFINITION. The hash functions that the spec names: Keccak-f[1600], KMAC128 of NIST SP 800-185 for capability seals
(R168), and SHA3-384 of FIPS 202 for quotes (R90). A state is 25 lanes of 64 bits, lane x + 5 y; bytes are numbers. -/

namespace Sys2Proof.Machine

/-- Rotate a 64-bit lane left. -/
def rotl64 (n v : Nat) : Nat := (v * 2 ^ (n % 64) + v / 2 ^ (64 - n % 64)) % 2 ^ 64

/-- Lane i of a state. -/
def lane (a : List Nat) (i : Nat) : Nat := a.getD i 0

/-- The rotation of rho at a lane, six bits a lane: the triangular numbers (t + 1)(t + 2)/2 modulo 64 along FIPS 202's
walk of the lanes from (1, 0) by (x, y) to (y, 2 x + 3 y) (Laws/Keccak shows it). -/
def rhoTurn (i : Nat) : Nat := 0xEE3D0922153EDA6766B2835371AC91B73E040 / 64 ^ i % 64

/-- The bits of FIPS 202's register rc, the one of round r and place j at bit 7 r + j (Laws/Keccak shows it). -/
def iotaBits : Nat := 0xE886C79CC5A452A7767BF4CD460EABE509FE178D01

/-- The constant of round r: place j of its seven bits stands at bit 2^j - 1. -/
def iotaOf (r : Nat) : Nat :=
  (List.range 7).foldl (fun v j => v + iotaBits / 2 ^ (7 * r + j) % 2 * 2 ^ (2 ^ j - 1)) 0

/-- theta: each lane takes in the parity of the column before it and of the turned column after it. -/
def theta (a : List Nat) : List Nat :=
  let parity := (List.range 5).map fun x => (List.range 5).foldl (fun p y => p ^^^ lane a (5 * y + x)) 0
  (List.range 25).map fun i =>
    lane a i ^^^ lane parity ((i + 4) % 5) ^^^ rotl64 1 (lane parity ((i + 1) % 5))

/-- rho and pi: the lane that comes to (x, y) is the turned one of (x + 3 y, x). -/
def rhoPi (a : List Nat) : List Nat :=
  (List.range 25).map fun i =>
    let j := (i + 3 * (i / 5)) % 5 + 5 * (i % 5)
    rotl64 (rhoTurn j) (lane a j)

/-- chi: a lane of a row with the two after it in that row. -/
def chi (a : List Nat) : List Nat :=
  (List.range 25).map fun i =>
    let next := fun k => lane a (i - i % 5 + (i + k) % 5)
    lane a i ^^^ next 2 ^^^ (next 1 &&& next 2)

/-- Keccak-f[1600]: round r for each r below 24, iota last. -/
def keccakF (a : List Nat) : List Nat :=
  (List.range 24).foldl (fun b r => (chi (rhoPi (theta b))).modifyHead (· ^^^ iotaOf r)) a

/-- A number from bytes, least significant first. -/
def leNat : List Nat → Nat
  | [] => 0
  | b :: bs => b + 256 * leNat bs

/-- The low `n` bytes of a number, least significant first. -/
def leBytes : Nat → Nat → List Nat
  | 0, _ => []
  | n + 1, v => v % 256 :: leBytes n (v / 256)

/-- Bytes as `n` lanes. -/
def toLanes : Nat → List Nat → List Nat
  | 0, _ => []
  | n + 1, bs => leNat (bs.take 8) :: toLanes n (bs.drop 8)

/-- Absorb whole blocks of `rate` bytes. -/
def absorb (rate : Nat) : Nat → List Nat → List Nat → List Nat
  | 0, a, _ => a
  | n + 1, a, bs =>
    absorb rate n (keccakF (List.zipWith (· ^^^ ·) a (toLanes 25 (bs.take rate)))) (bs.drop rate)

/-- The padded message: a domain suffix byte, zeros, and the final bit. -/
def padBlocks (rate suffix : Nat) (bs : List Nat) : List Nat :=
  let z := rate - 1 - bs.length % rate
  if z = 0 then bs ++ [suffix + 0x80] else bs ++ [suffix] ++ List.replicate (z - 1) 0 ++ [0x80]

/-- A sponge with output of at most one block. -/
def sponge (rate suffix out : Nat) (bs : List Nat) : List Nat :=
  let p := padBlocks rate suffix bs
  let a := absorb rate (p.length / rate) (List.replicate 25 0) p
  ((a.map (leBytes 8)).flatten).take out

/-- SHA3-384. -/
def sha3_384 (bs : List Nat) : List Nat := sponge 104 0x06 48 bs

/-- `left_encode` and `right_encode` of a number below 2^16. -/
def encodeBytes (n : Nat) : List Nat := if n < 256 then [n] else [n / 256, n % 256]
def leftEncode (n : Nat) : List Nat := (encodeBytes n).length :: encodeBytes n
def rightEncode (n : Nat) : List Nat := encodeBytes n ++ [(encodeBytes n).length]

/-- `encode_string`. -/
def encodeString (bs : List Nat) : List Nat := leftEncode (8 * bs.length) ++ bs

/-- `bytepad`. -/
def bytepad (w : Nat) (bs : List Nat) : List Nat :=
  let p := leftEncode w ++ bs
  p ++ List.replicate ((w - p.length % w) % w) 0

/-- KMAC128 with an output of 32 bytes. -/
def kmac128 (key input custom : List Nat) : List Nat :=
  sponge 168 0x04 32
    (bytepad 168 (encodeString [0x4B, 0x4D, 0x41, 0x43] ++ encodeString custom) ++
      bytepad 168 (encodeString key) ++ input ++ rightEncode 256)

/-- SEAL of a capability's bits [63:0] under a seal key of 32 bytes (R168). -/
def sealOf (key : List Nat) (low : Nat) : Nat :=
  leNat ((kmac128 key (leBytes 8 low) [0x56, 0x4B, 0x43, 0x41, 0x50]).take 8)

end Sys2Proof.Machine
end

