-- ==== Sys2Proof/Syntax/Causes.lean ====
section
/-! DEFINITION. The cause codes of R253 (with R54, R126, R177 and R234), under the names the spec gives them. A cause is an
8-bit number that software reads in packets, images and status words, so it is kept as its number. -/

namespace Sys2Proof

/-- A cause code of R253. -/
abbrev Cause := Nat

namespace Cause

/-- `ILLEGAL_OPCODE` (R253). -/
abbrev illegalOpcode : Cause := 0x00
/-- `ILLEGAL_BUNDLE` (R253). -/
abbrev illegalBundle : Cause := 0x01
/-- `RESERVED_FIELD` (R253). -/
abbrev reservedField : Cause := 0x02
/-- `BAD_REGISTER` (R253). -/
abbrev badRegister : Cause := 0x03
/-- `SPR_UNDEF` (R253). -/
abbrev sprUndef : Cause := 0x04
/-- `SPR_READONLY` (R253). -/
abbrev sprReadonly : Cause := 0x05
/-- `TARGET_ALIGN` (R253). -/
abbrev targetAlign : Cause := 0x06
/-- `CODE_BOUNDS` (R253). -/
abbrev codeBounds : Cause := 0x07
/-- `LOOP_NEST` (R253). -/
abbrev loopNest : Cause := 0x08
/-- `LOOP_BODY` (R253). -/
abbrev loopBody : Cause := 0x09
/-- `IMM_RANGE` (R253). -/
abbrev immRange : Cause := 0x0A
/-- `MODE_FORM` (R253). -/
abbrev modeForm : Cause := 0x0B
/-- `TYPE_FORM` (R253). -/
abbrev typeForm : Cause := 0x0C
/-- `PRIV_INSTR` (R253). -/
abbrev privInstr : Cause := 0x0D
/-- `BREAKPOINT` (R253). -/
abbrev breakpoint : Cause := 0x0E
/-- `TRAP` (R253). -/
abbrev trap : Cause := 0x0F
/-- `VA_RANGE` (R253). -/
abbrev vaRange : Cause := 0x10
/-- `PAGE_ABSENT` (R253). -/
abbrev pageAbsent : Cause := 0x11
/-- `PTE_BAD` (R253). -/
abbrev pteBad : Cause := 0x12
/-- `PERM_R` (R253). -/
abbrev permR : Cause := 0x13
/-- `PERM_W` (R253). -/
abbrev permW : Cause := 0x14
/-- `PERM_X` (R253). -/
abbrev permX : Cause := 0x15
/-- `PERM_ATOMIC` (R253). -/
abbrev permAtomic : Cause := 0x16
/-- `PAGE_POISON` (R253). -/
abbrev pagePoison : Cause := 0x17
/-- `OWNER_MISMATCH` (R253). -/
abbrev ownerMismatch : Cause := 0x18
/-- `MISALIGNED` (R253). -/
abbrev misaligned : Cause := 0x19
/-- `GPA_RANGE` (R253). -/
abbrev gpaRange : Cause := 0x1A
/-- `KIND_MISMATCH` (R253). -/
abbrev kindMismatch : Cause := 0x1B
/-- `CTL_ACCESS` (R253). -/
abbrev ctlAccess : Cause := 0x1C
/-- `MCAST_RANGE` (R253). -/
abbrev mcastRange : Cause := 0x1D
/-- `LINE_POISON` (R253). -/
abbrev linePoison : Cause := 0x1E
/-- `WALK_ERROR` (R253). -/
abbrev walkError : Cause := 0x1F
/-- `LS_RANGE` (R253). -/
abbrev lsRange : Cause := 0x20
/-- `DESC_BAD` (R253). -/
abbrev descBad : Cause := 0x21
/-- `DESC_ALIGN` (R253). -/
abbrev descAlign : Cause := 0x22
/-- `COPY_OVERLAP` (R253). -/
abbrev copyOverlap : Cause := 0x23
/-- `CAP_TABLE_BAD` (R253). -/
abbrev capTableBad : Cause := 0x24
/-- `WL_BAD` (R253). -/
abbrev wlBad : Cause := 0x25
/-- `WL_SPILL` (R253). -/
abbrev wlSpill : Cause := 0x26
/-- `INDEX_RANGE` (R253). -/
abbrev indexRange : Cause := 0x27
/-- `STREAM_BAD` (R253). -/
abbrev streamBad : Cause := 0x28
/-- `STREAM_END` (R253). -/
abbrev streamEnd : Cause := 0x29
/-- `STREAM_BUSY` (R253). -/
abbrev streamBusy : Cause := 0x2A
/-- `STREAM_DIR` (R253). -/
abbrev streamDir : Cause := 0x2B
/-- `CODE_POISON` (R253). -/
abbrev codePoison : Cause := 0x2C
/-- `SAVE_FAULT` (R253). -/
abbrev saveFault : Cause := 0x2D
/-- `RESP_TIMEOUT` (R253). -/
abbrev respTimeout : Cause := 0x2E
/-- `VA_WRAP` (R253). -/
abbrev vaWrap : Cause := 0x2F
/-- `CAP_FORGED` (R253). -/
abbrev capForged : Cause := 0x30
/-- `BAD_HANDLER` (R253). -/
abbrev badHandler : Cause := 0x31
/-- `CAP_RIGHTS` (R253). -/
abbrev capRights : Cause := 0x32
/-- `SENDQ_FULL` (R253). -/
abbrev sendqFull : Cause := 0x33
/-- `MSG_SIZE` (R253). -/
abbrev msgSize : Cause := 0x34
/-- `PORT_KIND` (R253). -/
abbrev portKind : Cause := 0x35
/-- `MSG_CLASS` (R253). -/
abbrev msgClass : Cause := 0x36
/-- `ACT_BAD` (R253). -/
abbrev actBad : Cause := 0x37
/-- `REPLY_NOSLOT` (R253). -/
abbrev replyNoslot : Cause := 0x38
/-- `DEST_GONE` (R253). -/
abbrev destGone : Cause := 0x39
/-- `DEST_OWNER` (R253). -/
abbrev destOwner : Cause := 0x3A
/-- `PORT_FULL` (R253). -/
abbrev portFull : Cause := 0x3B
/-- `LINK_DEAD` (R253). -/
abbrev linkDead : Cause := 0x3C
/-- `ROUTE_LOOP` (R253). -/
abbrev routeLoop : Cause := 0x3D
/-- `DEST_DARK` (R253). -/
abbrev destDark : Cause := 0x3E
/-- `PARK_EXPLICIT` (R253). -/
abbrev parkExplicit : Cause := 0x3F
/-- `ACT_BUSY` (R253). -/
abbrev actBusy : Cause := 0x40
/-- `ACT_FULL` (R253). -/
abbrev actFull : Cause := 0x41
/-- `CAP_TARGET` (R253). -/
abbrev capTarget : Cause := 0x42
/-- `REPLY_BAD` (R253). -/
abbrev replyBad : Cause := 0x43
/-- `LAUNCH_DEPTH` (R253). -/
abbrev launchDepth : Cause := 0x44
/-- `DEQUE_FULL` (R253). -/
abbrev dequeFull : Cause := 0x45
/-- `LAUNCH_BAD` (R253). -/
abbrev launchBad : Cause := 0x46
/-- `FIRING_KILLED` (R253). -/
abbrev firingKilled : Cause := 0x47
/-- `NO_SUPERVISOR` (R253). -/
abbrev noSupervisor : Cause := 0x48
/-- `DEBUG_BUSY` (R253). -/
abbrev debugBusy : Cause := 0x49
/-- `DEBUG_BAD` (R253). -/
abbrev debugBad : Cause := 0x4A
/-- `DEBUG_STOP` (R253). -/
abbrev debugStop : Cause := 0x4B
/-- `MIGRATE_FAIL` (R253). -/
abbrev migrateFail : Cause := 0x4C
/-- `SWITCH_KILLED` (R253). -/
abbrev switchKilled : Cause := 0x4D
/-- `SENDER_NONE` (R253). -/
abbrev senderNone : Cause := 0x4E
/-- `LAUNCH_QFULL` (R253). -/
abbrev launchQfull : Cause := 0x4F
/-- `SCOPE_MISMATCH` (R253). -/
abbrev scopeMismatch : Cause := 0x50
/-- `BAR_BAD` (R253). -/
abbrev barBad : Cause := 0x51
/-- `BAR_RANGE` (R253). -/
abbrev barRange : Cause := 0x52
/-- `BAR_PLY` (R253). -/
abbrev barPly : Cause := 0x53
/-- `STORE_FAILED` (R253). -/
abbrev storeFailed : Cause := 0x54
/-- `SEM_AMOUNT` (R253). -/
abbrev semAmount : Cause := 0x55
/-- `WAIT_SEM` (R253). -/
abbrev waitSem : Cause := 0x56
/-- `WAIT_BAR` (R253). -/
abbrev waitBar : Cause := 0x57
/-- `WAIT_FENCE` (R253). -/
abbrev waitFence : Cause := 0x58
/-- `WAIT_LONG` (R253). -/
abbrev waitLong : Cause := 0x59
/-- `WAIT_SENDQ` (R253). -/
abbrev waitSendq : Cause := 0x5A
/-- `WAIT_STREAM` (R253). -/
abbrev waitStream : Cause := 0x5B
/-- `SEM_OVERFLOW` (R253). -/
abbrev semOverflow : Cause := 0x5C
/-- `WAIT_PIP` (R253). -/
abbrev waitPip : Cause := 0x5D
/-- `NP_TOO_LONG` (R253). -/
abbrev npTooLong : Cause := 0x5E
/-- `NP_STATE` (R253). -/
abbrev npState : Cause := 0x5F
/-- `ENGINE_KIND` (R253). -/
abbrev engineKind : Cause := 0x60
/-- `ENGINE_FEED` (R253). -/
abbrev engineFeed : Cause := 0x61
/-- `ENGINE_CLAIM` (R253). -/
abbrev engineClaim : Cause := 0x62
/-- `ACC_SAT` (R253). -/
abbrev accSat : Cause := 0x63
/-- `SPARSE_ROWPTR` (R253). -/
abbrev sparseRowptr : Cause := 0x64
/-- `SPARSE_INDEX` (R253). -/
abbrev sparseIndex : Cause := 0x65
/-- `SPARSE_META` (R253). -/
abbrev sparseMeta : Cause := 0x66
/-- `ATT_HEAD` (R253). -/
abbrev attHead : Cause := 0x67
/-- `ATT_ORDER` (R253). -/
abbrev attOrder : Cause := 0x68
/-- `ATT_LEN` (R253). -/
abbrev attLen : Cause := 0x69
/-- `MMA_FMT` (R253). -/
abbrev mmaFmt : Cause := 0x6A
/-- `MMA_GEO` (R253). -/
abbrev mmaGeo : Cause := 0x6B
/-- `RING_DARK` (R253). -/
abbrev ringDark : Cause := 0x6C
/-- `EMB_DESC` (R253). -/
abbrev embDesc : Cause := 0x6D
/-- `EMB_OFFSETS` (R253). -/
abbrev embOffsets : Cause := 0x6E
/-- `GATH_DESC` (R253). -/
abbrev gathDesc : Cause := 0x6F
/-- `WL_EMPTY` (R253). -/
abbrev wlEmpty : Cause := 0x70
/-- `WL_FULL` (R253). -/
abbrev wlFull : Cause := 0x71
/-- `CP_SHAPE` (R253). -/
abbrev cpShape : Cause := 0x72
/-- `CP_DORMANT` (R253). -/
abbrev cpDormant : Cause := 0x73
/-- `SP_K_RANGE` (R253). -/
abbrev spKRange : Cause := 0x74
/-- `LATCH_FMT` (R253). -/
abbrev latchFmt : Cause := 0x75
/-- `ENG_KILLED` (R253). -/
abbrev engKilled : Cause := 0x76
/-- `OPCMD_BAD` (R253). -/
abbrev opcmdBad : Cause := 0x77
/-- `ACC_FMT` (R253). -/
abbrev accFmt : Cause := 0x78
/-- `WL_OWNER` (R253). -/
abbrev wlOwner : Cause := 0x79
/-- `OFFLOAD_REJECT` (R253). -/
abbrev offloadReject : Cause := 0x7A
/-- `OFFLOAD_TIMEOUT` (R253). -/
abbrev offloadTimeout : Cause := 0x7B
/-- `CP_WINDOW` (R253). -/
abbrev cpWindow : Cause := 0x7C
/-- `CP_DEVICE` (R253). -/
abbrev cpDevice : Cause := 0x7D
/-- `ENG_RESET` (R253). -/
abbrev engReset : Cause := 0x7E
/-- `ENG_INTERNAL` (R253). -/
abbrev engInternal : Cause := 0x7F
/-- `PIP_NOT_ISSUE` (R253). -/
abbrev pipNotIssue : Cause := 0x80
/-- `PIP_RANGE` (R253). -/
abbrev pipRange : Cause := 0x81
/-- `PIP_CLASS` (R253). -/
abbrev pipClass : Cause := 0x82
/-- `PIP_LEASE` (R253). -/
abbrev pipLease : Cause := 0x83
/-- `PIP_PRIV` (R253). -/
abbrev pipPriv : Cause := 0x84
/-- `CLK_REFUSED` (R253). -/
abbrev clkRefused : Cause := 0x85
/-- `RAIL_REFUSED` (R253). -/
abbrev railRefused : Cause := 0x86
/-- `WAKE_REFUSED` (R253). -/
abbrev wakeRefused : Cause := 0x87
/-- `NOTICE_LATE` (R253). -/
abbrev noticeLate : Cause := 0x88
/-- `RAMP_LIMITED` (R253). -/
abbrev rampLimited : Cause := 0x89
/-- `LEASE_DENIED` (R253). -/
abbrev leaseDenied : Cause := 0x8A
/-- `SHUFFLE_SKIP` (R253). -/
abbrev shuffleSkip : Cause := 0x8B
/-- `PACER_CLAMP` (R253). -/
abbrev pacerClamp : Cause := 0x8C
/-- `BANK_TAKEOVER` (R253). -/
abbrev bankTakeover : Cause := 0x8D
/-- `LEASE_TABLE_FULL` (R253). -/
abbrev leaseTableFull : Cause := 0x8E
/-- `RAIL_OVERCURRENT` (R253). -/
abbrev railOvercurrent : Cause := 0x8F
/-- `FMT_RESERVED` (R253). -/
abbrev fmtReserved : Cause := 0x90
/-- `GEO_RESERVED` (R253). -/
abbrev geoReserved : Cause := 0x91
/-- `INT_DIVZERO` (R253). -/
abbrev intDivzero : Cause := 0x92
/-- `FMT_UNSUPPORTED` (R253). -/
abbrev fmtUnsupported : Cause := 0x93
/-- `CVT_OVERFLOW` (R253). -/
abbrev cvtOverflow : Cause := 0x94
/-- `MX_SCALE_NAN` (R253). -/
abbrev mxScaleNan : Cause := 0x95
/-- `RM_UNSUPPORTED` (R253). -/
abbrev rmUnsupported : Cause := 0x96
/-- `FMT_PACKING` (R253). -/
abbrev fmtPacking : Cause := 0x97
/-- `GEO_PATH` (R253). -/
abbrev geoPath : Cause := 0x98
/-- `PROMO_OVERFLOW` (R253). -/
abbrev promoOverflow : Cause := 0x99
/-- `SPFN_DOMAIN` (R253). -/
abbrev spfnDomain : Cause := 0x9A
/-- `VEC_SAT` (R253). -/
abbrev vecSat : Cause := 0x9B
/-- `NAN_OPERAND` (R253). -/
abbrev nanOperand : Cause := 0x9C
/-- `BLOCK_PARTIAL` (R253). -/
abbrev blockPartial : Cause := 0x9D
/-- `ACC_NONFINITE` (R253). -/
abbrev accNonfinite : Cause := 0x9E
/-- `SR_SEED` (R253). -/
abbrev srSeed : Cause := 0x9F
/-- `UE_OPERAND` (R253). -/
abbrev ueOperand : Cause := 0xA0
/-- `UE_LOCAL` (R253). -/
abbrev ueLocal : Cause := 0xA1
/-- `UE_REGCACHE` (R253). -/
abbrev ueRegcache : Cause := 0xA2
/-- `UE_ACC` (R253). -/
abbrev ueAcc : Cause := 0xA3
/-- `UE_SLICE` (R253). -/
abbrev ueSlice : Cause := 0xA4
/-- `UE_HBM` (R253). -/
abbrev ueHbm : Cause := 0xA5
/-- `UE_CAPACITY` (R253). -/
abbrev ueCapacity : Cause := 0xA6
/-- `UE_CODE` (R253). -/
abbrev ueCode : Cause := 0xA7
/-- `DOUBLES_MISMATCH` (R253). -/
abbrev doublesMismatch : Cause := 0xA8
/-- `UE_PORT` (R253). -/
abbrev uePort : Cause := 0xA9
/-- `UE_HUB` (R253). -/
abbrev ueHub : Cause := 0xAA
/-- `CORE_HANG` (R253). -/
abbrev coreHang : Cause := 0xAB
/-- `ROUTER_ERROR` (R253). -/
abbrev routerError : Cause := 0xAC
/-- `LINK_DEGRADED` (R253). -/
abbrev linkDegraded : Cause := 0xAD
/-- `CLOCK_FAULT` (R253). -/
abbrev clockFault : Cause := 0xAE
/-- `THERMAL` (R253). -/
abbrev thermal : Cause := 0xAF
/-- `PART_SWITCHED_IN` (R253). -/
abbrev partSwitchedIn : Cause := 0xB0
/-- `QUIESCE_PREEMPT` (R253). -/
abbrev quiescePreempt : Cause := 0xB1
/-- `SELFTEST_DEFERRED` (R253). -/
abbrev selftestDeferred : Cause := 0xB2
/-- `ATLAS_CHANGE` (R253). -/
abbrev atlasChange : Cause := 0xB3
/-- `PKG_POWER_LIMIT` (R253). -/
abbrev pkgPowerLimit : Cause := 0xB4
/-- `FLOOR_UNMET` (R253). -/
abbrev floorUnmet : Cause := 0xB5
/-- `RTIME_SYNC_LOST` (R253). -/
abbrev rtimeSyncLost : Cause := 0xB6
/-- `BRIDGE_CHANGE` (R253). -/
abbrev bridgeChange : Cause := 0xB7
/-- `FIELD_RESET_DONE` (R253). -/
abbrev fieldResetDone : Cause := 0xB8
/-- `RETIRE_DONE` (R253). -/
abbrev retireDone : Cause := 0xB9
/-- `ROUTE_FLIPPED` (R253). -/
abbrev routeFlipped : Cause := 0xBA
/-- `IMAGE_SLOT_BAD` (R253). -/
abbrev imageSlotBad : Cause := 0xBB
/-- `FAULTQ_OVERFLOW` (R253). -/
abbrev faultqOverflow : Cause := 0xBC
/-- `SUP_FROZEN` (R253). -/
abbrev supFrozen : Cause := 0xBD
/-- `HUB_DEGRADED` (R253). -/
abbrev hubDegraded : Cause := 0xBE
/-- `TIME_EPOCH` (R253). -/
abbrev timeEpoch : Cause := 0xBF

end Cause

end Sys2Proof
end

