-- ==== Sys2Proof/Syntax.lean ====
section
/-! DEFINITION. The instruction set as syntax: the slot formats of R278 to R280, the causes of R253, and `Instr`, with one
constructor for each row of the opcode table. Slot instructions carry the fields of their format. A row that is an
event of the device has no fields: what it brings, and the unit that it concerns, stand in the state. -/

namespace Sys2Proof

/-- C-slot format CU: a 24-bit unsigned immediate (R278). -/
structure FmtCU where
  imm : BitVec 24
  deriving DecidableEq, Repr

/-- C-slot format CJ: a 24-bit signed offset in bundles (R278). -/
structure FmtCJ where
  off : BitVec 24
  deriving DecidableEq, Repr

/-- C-slot format CZ (R278). -/
structure FmtCZ where
  xa : BitVec 5
  off : BitVec 19
  deriving DecidableEq, Repr

/-- C-slot format CB (R278). -/
structure FmtCB where
  xa : BitVec 5
  xb : BitVec 5
  off : BitVec 14
  deriving DecidableEq, Repr

/-- C-slot format CR (R278, R324). -/
structure FmtCR where
  xd : BitVec 5
  xa : BitVec 5
  xb : BitVec 5
  opt : BitVec 9
  deriving DecidableEq, Repr

/-- C-slot format CM; `ld.vt` and `st.vt` take `disp` bits 13 to 12 as T and bits 11 to 0 as DISP12 (R278). -/
structure FmtCM where
  rt : BitVec 5
  base : BitVec 5
  disp : BitVec 14
  deriving DecidableEq, Repr

/-- C-slot format CX (R278). -/
structure FmtCX where
  rt : BitVec 5
  base : BitVec 5
  idx : BitVec 5
  sh : BitVec 2
  t : BitVec 2
  deriving DecidableEq, Repr

/-- C-slot format CMS (R278). -/
structure FmtCMS where
  rt : BitVec 5
  base : BitVec 5
  sc : BitVec 3
  sz : BitVec 1
  disp : BitVec 10
  deriving DecidableEq, Repr

/-- C-slot format CA (R278, R334). -/
structure FmtCA where
  xd : BitVec 5
  base : BitVec 5
  xb : BitVec 5
  xc : BitVec 5
  sz : BitVec 1
  deriving DecidableEq, Repr

/-- C-slot format CF (R278). -/
structure FmtCF where
  xd : BitVec 5
  sc : BitVec 3
  deriving DecidableEq, Repr

/-- C-slot format CS (R278). -/
structure FmtCS where
  x : BitVec 5
  spr : BitVec 6
  deriving DecidableEq, Repr

/-- C-slot format CL (R278). -/
structure FmtCL where
  xa : BitVec 5
  lenm1 : BitVec 8
  deriving DecidableEq, Repr

/-- C-slot format CLI (R278). -/
structure FmtCLI where
  count : BitVec 16
  lenm1 : BitVec 8
  deriving DecidableEq, Repr

/-- A-slot format AR (R279). -/
structure FmtAR where
  xd : BitVec 5
  xa : BitVec 5
  xb : BitVec 5
  xc : BitVec 5
  rm : BitVec 3
  tr : BitVec 1
  deriving DecidableEq, Repr

/-- A-slot format AI (R279). -/
structure FmtAI where
  xd : BitVec 5
  xa : BitVec 5
  imm : BitVec 14
  deriving DecidableEq, Repr

/-- A-slot format AL (R279). -/
structure FmtAL where
  xd : BitVec 5
  imm : BitVec 19
  deriving DecidableEq, Repr

/-- A-slot format AV (R279, R349). -/
structure FmtAV where
  vd : BitVec 4
  va : BitVec 4
  vb : BitVec 4
  me : BitVec 1
  km : BitVec 3
  t : BitVec 2
  mod : BitVec 3
  sub : BitVec 3
  deriving DecidableEq, Repr

/-- A-slot format AVX (R279, R349). -/
structure FmtAVX where
  vd : BitVec 4
  va : BitVec 4
  xb : BitVec 5
  me : BitVec 1
  km : BitVec 3
  t : BitVec 2
  mod : BitVec 3
  sub : BitVec 2
  deriving DecidableEq, Repr

/-- A-slot format AVI (R279). -/
structure FmtAVI where
  vd : BitVec 4
  va : BitVec 4
  xb : BitVec 5
  imm : BitVec 6
  t : BitVec 2
  deriving DecidableEq, Repr

/-- A-slot format AVS (R279). -/
structure FmtAVS where
  xd : BitVec 5
  va : BitVec 4
  me : BitVec 1
  km : BitVec 3
  t : BitVec 2
  mod : BitVec 3
  imm : BitVec 6
  deriving DecidableEq, Repr

/-- Wide format WL; the HI bit selects the constructor (R280, R281). -/
structure FmtWL where
  xd : BitVec 5
  immh : BitVec 16
  imml : BitVec 32
  deriving DecidableEq, Repr

/-- Wide format WB; the COND field selects the constructor (R280, R282). -/
structure FmtWB where
  xa : BitVec 5
  xb : BitVec 5
  off : BitVec 32
  deriving DecidableEq, Repr

/-- Wide format WE (R280). -/
structure FmtWE where
  xa : BitVec 5
  xb : BitVec 5
  xc : BitVec 5
  opt : BitVec 9
  ext : BitVec 32
  deriving DecidableEq, Repr


/-- The instructions and events of the machine: one constructor for each row of the opcode table. -/
inductive Instr where
  /-- Unconditional near branch (R304). -/
  | br (f : FmtCJ)
  /-- Branch if the registers are equal (R304). -/
  | beq (f : FmtCB)
  /-- Branch if the registers are not equal (R304). -/
  | bne (f : FmtCB)
  /-- Branch if signed less than (R304). -/
  | blt (f : FmtCB)
  /-- Branch if signed greater or equal (R304). -/
  | bge (f : FmtCB)
  /-- Branch if unsigned less than (R304). -/
  | bltu (f : FmtCB)
  /-- Branch if unsigned greater or equal (R304). -/
  | bgeu (f : FmtCB)
  /-- Branch if the register is zero (R304). -/
  | bz (f : FmtCZ)
  /-- Branch if the register is not zero (R304). -/
  | bnz (f : FmtCZ)
  /-- Call with the link in x31 (R305). -/
  | call (f : FmtCJ)
  /-- Indirect call that writes the link to XD (R305). -/
  | callr (f : FmtCR)
  /-- Indirect jump (R305). -/
  | jr (f : FmtCR)
  /-- Start a zero-overhead loop with its count taken from a register (R306). -/
  | loop (f : FmtCL)
  /-- Start a zero-overhead loop with an immediate count (R306). -/
  | loopi (f : FmtCLI)
  /-- Stall until the selected count of outstanding work is at most the limit in XA (R308). -/
  | wait (f : FmtCR)
  /-- Load a sign-extended byte (R314). -/
  | ldB (f : FmtCM)
  /-- Load a zero-extended byte (R314). -/
  | ldBu (f : FmtCM)
  /-- Load a sign-extended 16-bit value (R314). -/
  | ldH (f : FmtCM)
  /-- Load a zero-extended 16-bit value (R314). -/
  | ldHu (f : FmtCM)
  /-- Load a sign-extended 32-bit value (R314). -/
  | ldW (f : FmtCM)
  /-- Load a zero-extended 32-bit value (R314). -/
  | ldWu (f : FmtCM)
  /-- Load a doubleword (R314). -/
  | ldD (f : FmtCM)
  /-- Store a byte (R314). -/
  | stB (f : FmtCM)
  /-- Store 16 bits (R314). -/
  | stH (f : FmtCM)
  /-- Store 32 bits (R314). -/
  | stW (f : FmtCM)
  /-- Store a doubleword (R314). -/
  | stD (f : FmtCM)
  /-- Acquire load at a scope (R317). -/
  | ldAcq (f : FmtCMS)
  /-- Release store at a scope (R317). -/
  | stRel (f : FmtCMS)
  /-- Load a vector register as raw bytes (R315). -/
  | ldV (f : FmtCM)
  /-- Store a vector register as raw bytes (R315). -/
  | stV (f : FmtCM)
  /-- Typed vector load that decodes by the page format (R367). -/
  | ldVt (f : FmtCM)
  /-- Typed vector store that encodes into the page format (R368). -/
  | stVt (f : FmtCM)
  /-- Prefetch a line to its home slice (R318). -/
  | pf (f : FmtCM)
  /-- Wait for stores within a scope and return and clear FSTAT (R319). -/
  | fence (f : FmtCF)
  /-- Read a special register (R321). -/
  | mfs (f : FmtCS)
  /-- Write a special register (R322). -/
  | mts (f : FmtCS)
  /-- Indexed sign-extended byte load (R314). -/
  | ldBIndexed (f : FmtCX)
  /-- Indexed zero-extended byte load (R314). -/
  | ldBuIndexed (f : FmtCX)
  /-- Indexed sign-extended 16-bit load (R314). -/
  | ldHIndexed (f : FmtCX)
  /-- Indexed zero-extended 16-bit load (R314). -/
  | ldHuIndexed (f : FmtCX)
  /-- Indexed sign-extended 32-bit load (R314). -/
  | ldWIndexed (f : FmtCX)
  /-- Indexed zero-extended 32-bit load (R314). -/
  | ldWuIndexed (f : FmtCX)
  /-- Indexed doubleword load (R314). -/
  | ldDIndexed (f : FmtCX)
  /-- Indexed byte store (R314). -/
  | stBIndexed (f : FmtCX)
  /-- Indexed 16-bit store (R314). -/
  | stHIndexed (f : FmtCX)
  /-- Indexed 32-bit store (R314). -/
  | stWIndexed (f : FmtCX)
  /-- Indexed doubleword store (R314). -/
  | stDIndexed (f : FmtCX)
  /-- Indexed raw vector load (R315). -/
  | ldVIndexed (f : FmtCX)
  /-- Indexed raw vector store (R315). -/
  | stVIndexed (f : FmtCX)
  /-- Indexed typed vector load (R367). -/
  | ldVtIndexed (f : FmtCX)
  /-- Indexed typed vector store (R368). -/
  | stVtIndexed (f : FmtCX)
  /-- Barrier arrival with no expected byte count (R336). -/
  | barArr (f : FmtCR)
  /-- Barrier arrival that posts an expected byte count (R336). -/
  | barArrx (f : FmtCR)
  /-- Wait for a ply and return its status (R336). -/
  | barWt (f : FmtCR)
  /-- Test a ply's status without waiting (R336). -/
  | barTst (f : FmtCR)
  /-- Add to a tile semaphore with a release at tile scope (R338). -/
  | semPost (f : FmtCR)
  /-- Wait on a tile semaphore and subtract the amount (R338). -/
  | semWt (f : FmtCR)
  /-- Atomic add at the home, returning the old value (R334). -/
  | amoAdd (f : FmtCA)
  /-- Atomic AND at the home (R334). -/
  | amoAnd (f : FmtCA)
  /-- Atomic OR at the home (R334). -/
  | amoOr (f : FmtCA)
  /-- Atomic XOR at the home (R334). -/
  | amoXor (f : FmtCA)
  /-- Atomic signed minimum (R334). -/
  | amoMin (f : FmtCA)
  /-- Atomic signed maximum (R334). -/
  | amoMax (f : FmtCA)
  /-- Atomic unsigned minimum (R334). -/
  | amoMinu (f : FmtCA)
  /-- Atomic unsigned maximum (R334). -/
  | amoMaxu (f : FmtCA)
  /-- Atomic swap (R334). -/
  | amoSwap (f : FmtCA)
  /-- Atomic compare and swap (R334). -/
  | amoCas (f : FmtCA)
  /-- Atomic FP32 add, rounded RNE (R334). -/
  | amoFaddS (f : FmtCA)
  /-- Integer reduction add, which routers may merge (R334). -/
  | redAdd (f : FmtCA)
  /-- FP32 reduction add (R334). -/
  | redFaddS (f : FmtCA)
  /-- FP16 reduction add (R334). -/
  | redFaddH (f : FmtCA)
  /-- Send a message on REQ or BULK through a capability (R326). -/
  | send (f : FmtCR)
  /-- Send a reply on RSP to a request's reservation (R326). -/
  | sendr (f : FmtCR)
  /-- Send a message on SYS through a capability (R326). -/
  | sendSys (f : FmtCR)
  /-- Read a doubleword of a port's head message without taking it (R328). -/
  | peek (f : FmtCR)
  /-- Take a port's head message, waiting unless .nb is given (R328). -/
  | mtake (f : FmtCR)
  /-- Read a port's message and reservation counts (R328). -/
  | mcnt (f : FmtCR)
  /-- Discard up to a limit of head messages (R328). -/
  | mdrop (f : FmtCR)
  /-- Mint a sealed capability at supervisor level (R329). -/
  | capMint (f : FmtCR)
  /-- Narrow a capability's rights and ports and reseal it (R329). -/
  | capNarrow (f : FmtCR)
  /-- Yield the executing actor's own capability (R329). -/
  | capSelf (f : FmtCR)
  /-- Send a wake request through a capability (R330). -/
  | wake (f : FmtCR)
  /-- Send a halt request through a capability (R330). -/
  | halt (f : FmtCR)
  /-- Register an actor descriptor and return its capability (R331). -/
  | actNew (f : FmtCR)
  /-- Delete an idle actor and bounce its messages (R332). -/
  | actDel (f : FmtCR)
  /-- Push a task record onto the core's deque (R333). -/
  | spawn (f : FmtCR)
  /-- Bind a stream to its register from a descriptor (R339). -/
  | strBind (f : FmtCR)
  /-- Free a stream, draining an output stream first (R339). -/
  | strFree (f : FmtCR)
  /-- Read a stream's state (R339). -/
  | strStat (f : FmtCR)
  /-- Request a target holding of pips at a class (R340). -/
  | pipReq (f : FmtCR)
  /-- Release pips down to a target holding (R340). -/
  | pipRel (f : FmtCR)
  /-- Supervisor lends pips to another field as a lease (R340). -/
  | pipLend (f : FmtCR)
  /-- Read the field banker's BKSTAT (R340). -/
  | pipStat (f : FmtCR)
  /-- Freeze the context with TRAP and the immediate as syndrome (R341). -/
  | trap (f : FmtCU)
  /-- Freeze the context with BREAKPOINT (R341). -/
  | brk (f : FmtCU)
  /-- Write a dirty line back from its home slice (R342). -/
  | cln (f : FmtCR)
  /-- Drop a line from the core's fetch buffer, and with .h evict it at its home (R342). -/
  | inv (f : FmtCR)
  /-- Load the core's LUT4 table from 16 bytes (R343). -/
  | lutLd (f : FmtCR)
  /-- Read a work-list object's status (R345). -/
  | wlStat (f : FmtCR)
  /-- Load a sign-extended 48-bit immediate (R281). -/
  | liD (f : FmtWL)
  /-- Set bits 63:48 of XD and keep its low 48 bits (R281). -/
  | liDHi (f : FmtWL)
  /-- Far branch if equal (R282). -/
  | farBeq (f : FmtWB)
  /-- Far branch if not equal (R282). -/
  | farBne (f : FmtWB)
  /-- Far branch if signed less than (R282). -/
  | farBlt (f : FmtWB)
  /-- Far branch if signed greater or equal (R282). -/
  | farBge (f : FmtWB)
  /-- Far branch if unsigned less than (R282). -/
  | farBltu (f : FmtWB)
  /-- Far branch if unsigned greater or equal (R282). -/
  | farBgeu (f : FmtWB)
  /-- Far branch if zero (R282). -/
  | farBz (f : FmtWB)
  /-- Far branch if not zero (R282). -/
  | farBnz (f : FmtWB)
  /-- Dense block multiply of A rows by a latched B block into an accumulator (R378). -/
  | mma (f : FmtWE)
  /-- Dense multiply that then passes the latch to the next live ring stage (R381). -/
  | mmaRing (f : FmtWE)
  /-- Load a B block into a latch (R380). -/
  | mxLdb (f : FmtWE)
  /-- Zero an accumulator and its inner state (R382). -/
  | accZero (f : FmtWE)
  /-- Load an accumulator from memory (R382). -/
  | accLd (f : FmtWE)
  /-- Promote and store an accumulator to memory (R382). -/
  | accSt (f : FmtWE)
  /-- Promote an accumulator's inner integer lanes (R382). -/
  | accProm (f : FmtWE)
  /-- Read keys, optionally load queries, and form the score block (R386). -/
  | attQk (f : FmtWE)
  /-- Scale, mask and exponentiate the scores with the online-softmax update (R387). -/
  | attSm (f : FmtWE)
  /-- Add P times V into the output buffer (R388). -/
  | attPv (f : FmtWE)
  /-- Write the normalised attention output and end the sequence (R389). -/
  | attFin (f : FmtWE)
  /-- Sparse CSR rows times dense B into SACC (R409). -/
  | spMm (f : FmtWE)
  /-- 2:4 structured-sparse A times B into SACC (R410). -/
  | spBm (f : FmtWE)
  /-- Drop the k smallest live weights of each row (R411). -/
  | spDrop (f : FmtWE)
  /-- Grow the k largest-gradient dead positions of each row (R411). -/
  | spGrow (f : FmtWE)
  /-- Read and optionally clear a sparse counter (R412). -/
  | spCnt (f : FmtWE)
  /-- Gather indexed table rows into a destination (R397). -/
  | gath (f : FmtWE)
  /-- Gather rows through a block table (R397). -/
  | gathIx (f : FmtWE)
  /-- Scatter rows to indexed destinations (R397). -/
  | scat (f : FmtWE)
  /-- Pool embedding bags, with offload to Fjoval chips (R401). -/
  | embBag (f : FmtWE)
  /-- Strided copy operation (R403). -/
  | cp (f : FmtWE)
  /-- Multicast block copy to a rectangle of tile windows (R404). -/
  | cpMc (f : FmtWE)
  /-- Append a value to a work-list (R407). -/
  | wlPush (f : FmtWE)
  /-- Pop up to a count of oldest entries into a buffer (R407). -/
  | wlPopb (f : FmtWE)
  /-- Insert a value into a work-list unless it is already in the set (R407). -/
  | wlInsd (f : FmtWE)
  /-- Issue a nested launch from a firing, parking on a full queue with .w (R405). -/
  | launch (f : FmtWE)
  /-- Initialise a barrier object (R337). -/
  | barInit (f : FmtWE)
  /-- Integer add (R297). -/
  | add (f : FmtAR)
  /-- Integer subtract (R297). -/
  | sub (f : FmtAR)
  /-- Low 64 bits of the product (R297). -/
  | mul (f : FmtAR)
  /-- High 64 bits of the signed product (R297). -/
  | mulh (f : FmtAR)
  /-- High 64 bits of the unsigned product (R297). -/
  | mulhu (f : FmtAR)
  /-- Signed division (R298). -/
  | div (f : FmtAR)
  /-- Unsigned division (R298). -/
  | divu (f : FmtAR)
  /-- Signed remainder (R298). -/
  | rem (f : FmtAR)
  /-- Unsigned remainder (R298). -/
  | remu (f : FmtAR)
  /-- Bitwise AND (R297). -/
  | and (f : FmtAR)
  /-- Bitwise OR (R297). -/
  | or (f : FmtAR)
  /-- Bitwise XOR (R297). -/
  | xor (f : FmtAR)
  /-- AND with the complement of b (R297). -/
  | andn (f : FmtAR)
  /-- OR with the complement of b (R297). -/
  | orn (f : FmtAR)
  /-- Shift left (R297). -/
  | shl (f : FmtAR)
  /-- Logical shift right (R297). -/
  | shr (f : FmtAR)
  /-- Arithmetic shift right (R297). -/
  | sra (f : FmtAR)
  /-- Rotate left (R297). -/
  | rol (f : FmtAR)
  /-- Signed minimum (R297). -/
  | min (f : FmtAR)
  /-- Signed maximum (R297). -/
  | max (f : FmtAR)
  /-- Unsigned minimum (R297). -/
  | minu (f : FmtAR)
  /-- Unsigned maximum (R297). -/
  | maxu (f : FmtAR)
  /-- Select a or b by XC (R297). -/
  | sel (f : FmtAR)
  /-- Count leading zero bits (R297). -/
  | clz (f : FmtAR)
  /-- Count trailing zero bits (R297). -/
  | ctz (f : FmtAR)
  /-- Count set bits (R297). -/
  | popc (f : FmtAR)
  /-- Reverse the byte order (R297). -/
  | bswap (f : FmtAR)
  /-- Sign-extend a byte (R297). -/
  | sextB (f : FmtAR)
  /-- Sign-extend 16 bits (R297). -/
  | sextH (f : FmtAR)
  /-- Sign-extend 32 bits (R297). -/
  | sextW (f : FmtAR)
  /-- Zero-extend a byte (R297). -/
  | zextB (f : FmtAR)
  /-- Zero-extend 16 bits (R297). -/
  | zextH (f : FmtAR)
  /-- Zero-extend 32 bits (R297). -/
  | zextW (f : FmtAR)
  /-- Add a sign-extended immediate (R299). -/
  | addi (f : FmtAI)
  /-- AND with a zero-extended immediate (R299). -/
  | andi (f : FmtAI)
  /-- OR with a zero-extended immediate (R299). -/
  | ori (f : FmtAI)
  /-- XOR with a zero-extended immediate (R299). -/
  | xori (f : FmtAI)
  /-- Shift left by an immediate (R299). -/
  | shli (f : FmtAI)
  /-- Logical shift right by an immediate (R299). -/
  | shri (f : FmtAI)
  /-- Arithmetic shift right by an immediate (R299). -/
  | srai (f : FmtAI)
  /-- Load a sign-extended 19-bit immediate (R279). -/
  | li (f : FmtAL)
  /-- Load the upper immediate and keep the low 13 bits (R279). -/
  | lih (f : FmtAL)
  /-- FP32 add (R301). -/
  | faddS (f : FmtAR)
  /-- FP32 subtract (R301). -/
  | fsubS (f : FmtAR)
  /-- FP32 multiply (R301). -/
  | fmulS (f : FmtAR)
  /-- FP32 fused multiply-add (R301). -/
  | fmaS (f : FmtAR)
  /-- FP32 minimumNumber (R301). -/
  | fminS (f : FmtAR)
  /-- FP32 maximumNumber (R301). -/
  | fmaxS (f : FmtAR)
  /-- FP32 equality compare (R301). -/
  | feqS (f : FmtAR)
  /-- FP32 less-than compare (R301). -/
  | fltS (f : FmtAR)
  /-- FP32 less-or-equal compare (R301). -/
  | fleS (f : FmtAR)
  /-- FP32 sign injection (R301). -/
  | fsgnjS (f : FmtAR)
  /-- Classify an FP32 value (R302). -/
  | fclassS (f : FmtAR)
  /-- Convert a 32-bit integer to FP32 (R301). -/
  | fcvtSW (f : FmtAR)
  /-- Convert FP32 to a 32-bit integer, trapping with .t (R301). -/
  | fcvtWS (f : FmtAR)
  /-- Convert BF16 to FP32 exactly (R301). -/
  | fcvtSH (f : FmtAR)
  /-- Round FP32 to BF16 (R301). -/
  | fcvtHS (f : FmtAR)
  /-- BF16 add (R301). -/
  | faddH (f : FmtAR)
  /-- BF16 subtract (R301). -/
  | fsubH (f : FmtAR)
  /-- BF16 multiply (R301). -/
  | fmulH (f : FmtAR)
  /-- BF16 fused multiply-add (R301). -/
  | fmaH (f : FmtAR)
  /-- Classify a BF16 value (R302). -/
  | fclassH (f : FmtAR)
  /-- Lane-wise add of vector registers (R353). -/
  | vadd (f : FmtAV)
  /-- Lane-wise subtract (R353). -/
  | vsub (f : FmtAV)
  /-- Lane-wise multiply (R353). -/
  | vmul (f : FmtAV)
  /-- Lane-wise fused multiply-add into VD (R353). -/
  | vfma (f : FmtAV)
  /-- Lane-wise minimum (R353). -/
  | vmin (f : FmtAV)
  /-- Lane-wise maximum (R353). -/
  | vmax (f : FmtAV)
  /-- Lane-wise absolute value (R354). -/
  | vabs (f : FmtAV)
  /-- Lane-wise negation (R354). -/
  | vneg (f : FmtAV)
  /-- Lane-wise AND (R356). -/
  | vand (f : FmtAV)
  /-- Lane-wise OR (R356). -/
  | vor (f : FmtAV)
  /-- Lane-wise XOR (R356). -/
  | vxor (f : FmtAV)
  /-- Lane-wise shift left (R356). -/
  | vshl (f : FmtAV)
  /-- Lane-wise logical shift right (R356). -/
  | vshr (f : FmtAV)
  /-- Lane-wise arithmetic shift right (R356). -/
  | vsra (f : FmtAV)
  /-- Lane-wise compare into a mask register (R358). -/
  | vcmp (f : FmtAV)
  /-- Select lanes of VA or VB by a mask (R359). -/
  | vsel (f : FmtAV)
  /-- Convert lanes between types (R360). -/
  | vcvt (f : FmtAV)
  /-- Reduce lanes into a scalar register by the pairwise tree (R362). -/
  | vred (f : FmtAVS)
  /-- Inclusive prefix over lanes (R363). -/
  | vscan (f : FmtAV)
  /-- Broadcast a scalar into lanes (R364). -/
  | vbcast (f : FmtAVX)
  /-- Permute lanes by the indices in VB (R364). -/
  | vperm (f : FmtAV)
  /-- Insert a scalar into one lane (R364). -/
  | vins (f : FmtAVI)
  /-- Extract one lane into a scalar register (R364). -/
  | vext (f : FmtAVS)
  /-- Four-byte integer dot product accumulated per lane (R357). -/
  | vdot4 (f : FmtAV)
  /-- Lane-wise correctly rounded exp2 (R361). -/
  | vexp2 (f : FmtAV)
  /-- Lane-wise correctly rounded log2 (R361). -/
  | vlog2 (f : FmtAV)
  /-- Lane-wise reciprocal (R361). -/
  | vrcp (f : FmtAV)
  /-- Lane-wise reciprocal square root (R361). -/
  | vrsqrt (f : FmtAV)
  /-- Lane-wise square root (R361). -/
  | vsqrt (f : FmtAV)
  /-- Lane-wise hyperbolic tangent (R361). -/
  | vtanh (f : FmtAV)
  /-- Copy enabled lanes bit for bit (R355). -/
  | vmov (f : FmtAV)
  /-- Count the set bits of each lane (R355). -/
  | vpopc (f : FmtAV)
  /-- Lane-wise add with a broadcast scalar (R353). -/
  | vaddScalar (f : FmtAVX)
  /-- Lane-wise subtract of a broadcast scalar (R353). -/
  | vsubScalar (f : FmtAVX)
  /-- Lane-wise multiply by a broadcast scalar (R353). -/
  | vmulScalar (f : FmtAVX)
  /-- Lane-wise fused multiply-add with a broadcast scalar (R353). -/
  | vfmaScalar (f : FmtAVX)
  /-- Lane-wise minimum with a broadcast scalar (R353). -/
  | vminScalar (f : FmtAVX)
  /-- Lane-wise maximum with a broadcast scalar (R353). -/
  | vmaxScalar (f : FmtAVX)
  /-- Lane-wise AND with a broadcast scalar (R356). -/
  | vandScalar (f : FmtAVX)
  /-- Lane-wise OR with a broadcast scalar (R356). -/
  | vorScalar (f : FmtAVX)
  /-- Lane-wise XOR with a broadcast scalar (R356). -/
  | vxorScalar (f : FmtAVX)
  /-- Shift lanes left by a scalar amount (R356). -/
  | vshlScalar (f : FmtAVX)
  /-- Logical shift of lanes right by a scalar amount (R356). -/
  | vshrScalar (f : FmtAVX)
  /-- Arithmetic shift of lanes right by a scalar amount (R356). -/
  | vsraScalar (f : FmtAVX)
  /-- Compare lanes with a broadcast scalar into a mask register (R358). -/
  | vcmpScalar (f : FmtAVX)
  /-- Select lanes of VA or the broadcast scalar by a mask (R359). -/
  | vselScalar (f : FmtAVX)
  /-- Four-byte dot product with the broadcast bytes of a scalar (R357). -/
  | vdot4Scalar (f : FmtAVX)
  /-- Set if signed less than (R297). -/
  | slt (f : FmtAR)
  /-- Set if unsigned less than (R297). -/
  | sltu (f : FmtAR)
  /-- Set if equal (R297). -/
  | seq (f : FmtAR)
  /-- BF16 minimumNumber (R301). -/
  | fminH (f : FmtAR)
  /-- BF16 maximumNumber (R301). -/
  | fmaxH (f : FmtAR)
  /-- BF16 equality compare (R301). -/
  | feqH (f : FmtAR)
  /-- BF16 less-than compare (R301). -/
  | fltH (f : FmtAR)
  /-- BF16 less-or-equal compare (R301). -/
  | fleH (f : FmtAR)
  /-- BF16 sign injection (R301). -/
  | fsgnjH (f : FmtAR)
  /-- C-slot no operation (R311). -/
  | nopC
  /-- Return to the address in x31 (R305). -/
  | ret
  /-- End the innermost active loop (R307). -/
  | lbrk
  /-- End the firing once UNACK is zero, or freeze on a non-zero FSTAT (R309). -/
  | done
  /-- Park the firing unless its wake-pending bit is set (R310). -/
  | park
  /-- Open a non-pre-emptible section (R202). -/
  | npOn
  /-- Close a non-pre-emptible section (R202). -/
  | npOff
  /-- Enter long mode and take the long-vector unit (R344). -/
  | modeL
  /-- Return to short mode and free the long-vector unit (R344). -/
  | modeS
  /-- A-slot no operation (R297). -/
  | nopA
  /-- Power-on reset starts device start-up: rails come up with all tiles gated, field clocks start at N = 20, and RTIME, CYC and NCYC are reset to zero (R29). -/
  | powerOnReset
  /-- Once the rails are stable, start-up step 1 ends in a field and each field hub starts reading and verifying the configuration image (R29). -/
  | startupRailsStable
  /-- A field hub tries both image slots, up to three reads each, uses the valid image of the higher version, or marks its field dark (R27). -/
  | imageVerify
  /-- A hub applies rail trims and lane maps, derives the device identity and builds its field's atlas from the image seed (start-up step 3) (R29). -/
  | startupIdentityAtlas
  /-- The rook tests every unit of the field once, marks failing units dark and applies routing generation 1 (start-up step 4) (R29). -/
  | rookStartupPass
  /-- The fabric interfaces finish training their links and RTIME is synchronised across the domain (start-up step 5) (R29). -/
  | startupLinksUp
  /-- The bank grants the initial shares and the command actor of hub 0 begins accepting commands (start-up step 6) (R29). -/
  | deviceReady
  /-- A write of NEWN is refused with BADN set, ignored, starts a relock, or is held pending with PEND set (R21). -/
  | fclkctlWrite
  /-- After 3,000 ns the field clock relock ends, the field resumes at CURN, and a pending N different from CURN starts one more relock (R19). -/
  | relockEnd
  /-- A write of a rail target voltage is refused if it would break a field ceiling, and otherwise starts slewing at 10 mV per µs (R70). -/
  | railvWrite
  /-- A rail reaches its target voltage and RAILV.BUSY clears (R70). -/
  | railSlewEnd
  /-- A write of RAILSW with GO = 1 moves a held or gated tile to another rail, or is refused (R71). -/
  | railswMove
  /-- Package power above 32 kW for 20 µs sets LIMIT, stops all ballast and revokes the excess pips with reason 3 (R25). -/
  | pkgPowerLimit
  /-- After package power has stayed at or below 32 kW for 1 ms, LIMIT clears and grants resume under the ramp (R25). -/
  | powerLimitClear
  /-- Platform firmware retires or restores an atlas node; a restore triggers a retest (R34). -/
  | atlasStatusWrite
  /-- A link that needs more than 64 retries in 1 µs drops its failing lane groups and becomes degraded or dark (R39). -/
  | linkRetryLimit
  /-- A router forwards an arriving packet by its override table or dimension order, counts its hop, and bounces it on a loop, a dead link or a bounce port (R36). -/
  | routePacket
  /-- The masked networks have drained, so the fields swap their override banks, RGEN advances and injection resumes with held RSP packets re-sent (R40). -/
  | routeDrainComplete
  /-- The drain limit expires before the networks drain, so injection resumes under the old generation with RESULT = 1 (R40). -/
  | routeDrainTimeout
  /-- PERIOD after the previous pass began, the rook starts a new pass over the field's cores and engines (R43). -/
  | rookPassStart
  /-- After 2 ms without a gap, the rook pre-empts the core due for test, or defers it while a section is open (R43). -/
  | rookPreempt
  /-- A 40 µs unit test ends, and status, fail count and capability bits change under R34 and R422 (R43). -/
  | rookTestDone
  /-- A firing that became ready during a test has waited 1 µs, so the rook abandons the test for the next pass (R43). -/
  | rookTestAbandon
  /-- The first differing flit of a doubles pair stops both flits and freezes both firings with DOUBLES_MISMATCH (R47). -/
  | doublesMismatch
  /-- The banker grants available pips to the request at the head of its queue, ordered by class and then age, within FREE and the ramp (R55). -/
  | bankerGrant
  /-- When FREE cannot meet the head request, the banker covers the shortfall by recall, then borrowing, then reason-0 revocation (R423). -/
  | shortfallCover
  /-- At the notice's effect time the tile's holding falls to its new value and HELD falls (R62). -/
  | revocationEffect
  /-- A lender receives a borrower's ask and answers from FREE with min(FREE, asked) pips for its LEASE time (R60). -/
  | leaseRequest
  /-- A borrower receives a lease answer and creates its borrowed lease entry (R60). -/
  | leaseAnswer
  /-- At START + DUR − 2,000 ns the borrower asks for renewal, and the lease is replaced or ends with revocation (R60). -/
  | leaseRenewal
  /-- A recall or end notice expires, the lease entry is freed and the pips return to the lender's FREE (R60). -/
  | leaseEnd
  /-- A write of a partition share is refused with REFUSED set if the valid shares would sum above 20,000 (R58). -/
  | pshareWrite
  /-- A write of a field share is accepted, and any excess above the new share is revoked with reason 2 (R58). -/
  | bkshareWrite
  /-- A write of a sharing-group member's share also writes BKSHARE when that member is running (R59). -/
  | bkgshareWrite
  /-- A write of the ramp rate is accepted or refused with BADV set (R69). -/
  | rampwWrite
  /-- A write of the floor power is accepted or refused with BADV set (R69). -/
  | floorwWrite
  /-- Every microsecond the banker sets fill and added ballast against the floor and the ramp allowance (R69). -/
  | ballastUpdate
  /-- After IDLE µs of idleness a tile power-gates its engine and cores and returns its holding to FREE (R66). -/
  | tileIdleGate
  /-- 20 µs after gating the break-even hold ends and the tile becomes gated (R67). -/
  | gatingHoldEnd
  /-- A supervisor write of TILEPWR.WAKE queues an E1 wake request (R67). -/
  | tilepwrWakeWrite
  /-- A wake request that has waited 200 µs is promoted to class E3 (R67). -/
  | wakePromotion
  /-- The head wake request takes a free in-rush slot, or its wake is refused under the clock ceiling (R67). -/
  | wakeStart
  /-- After 5 µs in an in-rush slot the tile is on, and its recorded holding is requeued (R67). -/
  | wakeComplete
  /-- The pacer receives a ply report, sets new field multipliers and lends the early fields' freed pips to the stragglers (R72). -/
  | pacerReport
  /-- Every PERIOD µs the partition's shuffle step advances and logical tiles are remapped, or the step is skipped (R73). -/
  | shuffleStep
  /-- Once the current firing has ended, the stub is set up, the state is copied to the new tile and the capability entry is rebound with HOLD set (R175). -/
  | migrationCopy
  /-- A marker from an interface reaches the old tile's forwarding stub, which forwards the messages that precede it (R175). -/
  | migrationMarker
  /-- The last forwarded message is acknowledged, so HOLD and the held flag clear and the old tile's resources are freed (R175). -/
  | migrationRelease
  /-- Each millisecond a device exchanges a time message with its parent and corrects RTIME by rate (R88). -/
  | timeExchange
  /-- After 100 ms without a successful exchange the device posts RTIME_SYNC_LOST (R88). -/
  | rtimeSyncLost
  /-- Hub 0 goes dark, and within 50 µs hub 89 takes over the bank and every function that hub 0 alone holds (R91). -/
  | hub0Takeover
  /-- When the bridge loses its last Ultra Ethernet port, the next device of the group takes over within 1 ms and sends a BRIDGE event frame (R79). -/
  | bridgeTakeover
  /-- The LAUNCH command validates a launch header, queues it in its home field and replies with the launch identifier (R83). -/
  | loithLaunch
  /-- The COPY command copies bytes within the domain or to an Ultra Ethernet endpoint and replies with the bytes done (R83). -/
  | copy
  /-- The QUERY command returns the part number, identity, image status, RGEN, RTIME and each field's start-up step (R84). -/
  | query
  /-- The RESYNC command returns a consistent snapshot of fields, frozen and parked firings, launches and recent fault packets (R87). -/
  | resync
  /-- The ATLAS.READ command returns up to 125 atlas records with the ATLCNT of their field (R84). -/
  | atlasRead
  /-- The ROUTE.STAGE command writes override entries into the routers' staged banks (R37). -/
  | routeStage
  /-- The ROUTE.FLIP command checks the staged banks and stops injection on the masked networks to drain them (R40). -/
  | routeFlip
  /-- The PART.CREATE command validates and creates a partition, writing its table entries, shares and capability bindings and minting its supervisor capability (R93). -/
  | partCreate
  /-- The PART.SWITCH command ends the current quantum and switches the sharing group to the named member (R425). -/
  | partSwitch
  /-- The PIP.POLICY command applies up to 250 register writes in order and reports each one as written or refused (R84). -/
  | pipPolicy
  /-- The FIELD.RESET command kills the field's work and reruns start-up steps 3 and 4 for the field (R85). -/
  | fieldReset
  /-- The ATTEST command returns a quote that the identity hub signs with both of its keys (R90). -/
  | attest
  /-- A frame with an unknown opcode, a bad length or a non-zero reserved byte draws a BAD_COMMAND reply (R80). -/
  | loithBadCommand
  /-- When a gap below a held command stays open for 100 ms, the device sends a kind-5 event frame naming the missing sequence (R82). -/
  | sequenceGapTimeout
  /-- A member's quantum expires and the world switch begins with the quiesce step (R97). -/
  | quantumEnd
  /-- At QLIM µs of quiesce the remaining firings are pre-empted and QUIESCE_PREEMPT is posted (R97). -/
  | qlimExpiry
  /-- Every context of the outgoing partition is at rest, so the field is evicted, counters are saved, the tag is swapped and restore begins (R97). -/
  | quiesceEnd
  /-- The incoming partition's state is loaded, its pip requests are queued, its actors become eligible and PART_SWITCHED_IN is posted (R97). -/
  | switchRestoreEnd
  /-- The message at the head of a send queue leaves for the network (R158). -/
  | messageInject
  /-- An arriving message passes the delivery checks and is admitted to its port, saved or held for a switched-out member, waits, or bounces (R172). -/
  | messageArrival
  /-- A queued bounce, or a summary bounce, moves to the sender's system port when that port has room (R173). -/
  | bounceQueueDeliver
  /-- A held hardware message, such as a notice or a completion, is delivered when its SYS port gains room (R154). -/
  | hwMessageDeferred
  /-- A context slot frees and the first candidate starts: the trigger message is taken and the registers are set (R161). -/
  | firingStart
  /-- A parked firing whose wait has ended resumes at the parked instruction in a free context (R163). -/
  | parkResume
  /-- An item of a launch starts a pool firing on the issue core, and on the feed core as well when PAIR is set (R135). -/
  | poolFiringStart
  /-- A task record from a deque starts a firing with the record in v0 (R143). -/
  | taskStart
  /-- A completion starts a dormant context directly, or returns as a CP_DORMANT bounce when that context is occupied (R396). -/
  | dormantStart
  /-- A core takes a chunk from the low end of its own field's item range at the home hub (R136). -/
  | ticketPull
  /-- A core takes a chunk from the high end of the next non-empty member field's range (R136). -/
  | ticketSteal
  /-- A thief takes the oldest task from the deque of the victim that its hub names (R143). -/
  | taskSteal
  /-- A footprint copy into local store completes and the pool firing becomes a candidate, or its item fails (R139). -/
  | footprintCopy
  /-- The last item and task of a launch have ended, so its completion is sent and its queue entry is freed (R147). -/
  | launchComplete
  /-- After 65,536 cycles in a non-pre-emptible section the context faults with NP_TOO_LONG (R203). -/
  | npTooLong
  /-- A context stalled on one bundle for LIMIT µs sends one kind-1 wait report (R250). -/
  | wdogReport
  /-- A counter wraps, sets OVF and, with OMSG, sends a class 0xFF88 message to the supervisor's counter port (R103). -/
  | counterOverflow
  /-- An input step's data, or its fault, arrives in the stream FIFO (R191). -/
  | streamInputFill
  /-- The transfer unit stores an output-stream entry in step order (R191). -/
  | streamOutputStore
  /-- A paced instruction's engine occupancy ends, its arithmetic is complete, and ACCST.BUSY clears (R370). -/
  | engineOccupancyEnd
  /-- A latch's contents arrive at the next live ring stage, which sets VALID and RING there (R381). -/
  | ringTransfer
  /-- An owner's piece of an operation arrives and its items are written in item order, or the operation suspends or fails the item (R398). -/
  | operationPiece
  /-- An operation's writes are performed, its status record is written, and its completion or dormant start is sent (R394). -/
  | operationComplete
  /-- A Fjoval chip returns DATA, ACK, PARTIAL or REJECT for an offload piece (R400). -/
  | offloadReply
  /-- A piece with no answer within 10 ms fails its items with OFFLOAD_TIMEOUT (R400). -/
  | offloadTimeout
  /-- The hub accepts or refuses a member's arrival, updates its ply and tries to complete plies (R228). -/
  | barrierArrival
  /-- A performed write of an operation lowers its ply's byte balance, or its accounting is refused (R229). -/
  | barrierDelivery
  /-- The per-microsecond check finds a full ply under-delivered for TMO µs and completes it UNDER (R231). -/
  | barrierTimeout
  /-- A load, store, atomic or reduction takes effect at its home, or is refused there (R205). -/
  | accessPerformed
  /-- The reply of a load or atomic reaches its context, which then writes its register or faults (R313). -/
  | accessReply
  /-- A load or atomic to another device with no reply in 10 ms faults with RESP_TIMEOUT (R313). -/
  | respTimeout
  /-- A remote store's acknowledgement arrives, UNACK falls and any failure is counted in FSTAT (R211). -/
  | storeAck
  /-- A line fill arrives at the home slice and the merged requesters are answered in groups (R113). -/
  | sliceFill
  /-- A walker finishes a page-table walk and fills the TLB entry, or raises a translation fault (R119). -/
  | pageWalk
  /-- A releaser's clear reaches the home and removes its sync record (R216). -/
  | syncRecordClear
  /-- The first detection of an uncorrectable error poisons the line or marks the state (R247). -/
  | ueDetect
  /-- A packet leaves the hub's fault queue for the fault port, or FAULTQ_OVERFLOW is queued (R240). -/
  | faultQueueDrain
  /-- A wake request at its destination clears halted flags and sets wake-pending bits (R330). -/
  | wakeDelivery
  /-- A halt request at its destination sets the halted flag of the actor or of the core's actors (R330). -/
  | haltDelivery
  /-- A core that has retired no bundle in 1 ms with a context ready sends a CORE_HANG report (R253). -/
  | coreHang
  /-- A store to a control or tile register without behaviour of its own is applied with its access checks, and RSV and W1C bits are honoured (R110). -/
  | registerWrite
  /-- A supervisor write of the deque spill ring configuration is applied, or discarded and counted as refused (R143). -/
  | dqcfgWrite
  /-- A write of the actor table base is discarded while any actor of the core is valid or when it is misplaced (R149). -/
  | actcfgWrite
  /-- A write of the park area is discarded while PARKN is non-zero or when it lies beyond 3 MiB (R183). -/
  | parkcfgWrite
  /-- A write of a counter configuration stores an invalid event as 0x00 and a partition's own tag in TAG (R101). -/
  | cntcfgWrite
  /-- A write of a stripe entry is applied, or refused with REFUSED set (R399). -/
  | capstripeWrite
  /-- A store of the low half of TLBINV is latched for the writer's partition (R122). -/
  | tlbinvLowWrite
  /-- A store of the VA half of TLBINV starts an invalidation request and advances ISSUED (R122). -/
  | tlbinvHighWrite
  /-- An invalidation completes in every field of the partition and DONE advances (R122). -/
  | tlbinvDone
  /-- OPCMD = 1 resumes a suspended operation from its cursor (R244). -/
  | opcmdResume
  /-- OPCMD = 2 ends a suspended operation, which completes PARTIAL or FAILED (R244). -/
  | opcmdFail
  /-- An OPCMD of 0 or 3, or one for a slot that is not suspended, sets CMDERR and does nothing (R244). -/
  | opcmdBad
  /-- A store of the high half of DBGCAP checks the capability and attaches the writer to the debug page (R241). -/
  | dbgAttach
  /-- DBGCMD STOP freezes a running, parked or pre-empted firing with DEBUG_STOP (R242). -/
  | dbgStop
  /-- DBGCMD RESUME continues a frozen firing at its image PC (R242). -/
  | dbgResume
  /-- DBGCMD RESTART re-executes the frozen bundle from its start (R242). -/
  | dbgRestart
  /-- DBGCMD SKIP advances the PC by 8 and resumes the firing (R242). -/
  | dbgSkip
  /-- DBGCMD STEP runs exactly one bundle and freezes again with DEBUG_STOP (R242). -/
  | dbgStep
  /-- DBGCMD KILL ends a frozen, parked or pre-empted firing, discarding its taken messages and ending its suspended operations (R243). -/
  | dbgKill
  /-- A debug command in a disallowed state, or with a bad code or reserved bit, sets RESULT and has no effect (R242). -/
  | dbgCmdBad
  /-- A bundle whose slot holds an unassigned opcode faults with ILLEGAL_OPCODE and takes no effect (R276). -/
  | illegalOpcode
  /-- A bundle fetch outside the code bounds, or one that meets a translation fault, a poisoned line or an uncorrectable error, faults before the bundle issues (R303). -/
  | codeFetchFault
  /-- A tile above its temperature limit is throttled and a THERMAL report is sent (R253). -/
  | thermalLimit
  /-- A rail whose current rises above its rated current sends a RAIL_OVERCURRENT report (R253). -/
  | railOvercurrent
  /-- A UALink port goes dark in service, so it bounces REQ, SYS and BULK packets with LINK_DEAD and holds RSP packets (R76). -/
  | ualinkPortDark
  /-- A fabric interface or Fjoval chip goes dark in service, so its ports and chips leave the atlas and their pieces fail with DEST_DARK (R17). -/
  | fabricInterfaceDark
  /-- A cache slice goes dark, writes back the dirty lines it can read, poisons the rest, and serves its homes uncached until the next flip (R112). -/
  | sliceGoesDark
  /-- Field hub 89 goes dark in service; with hub 0 also dark, the device stops answering on every link (R91). -/
  | hub89Dark
  deriving DecidableEq, Repr

end Sys2Proof
end

