-- ==== Sys2Proof/Machine/State.lean ====
section
/-! DEFINITION. The state of the machine as plain data, the reasons a step can stop, and the state right after power-on
reset. Numbering: field f is 0 to 89; tile t of column x and row y is 120 y + x; core 2 t + k, with k = 0 feed and 1 issue;
context 8 core + c (R6, R178, R180). Fields of a record that have a default hold it at reset. -/

namespace Sys2Proof.Machine

/-- Why the machine stops. -/
inductive Fault where
  /-- Raised by `step` when its agenda names a core, tile, field or context that the device does not have. Safe: the
  hardware has no such unit, so no behaviour of the hardware is left out. -/
  | noSuchUnit (n : Nat)
  deriving DecidableEq, Repr

/-- Why an instruction has no meaning in the model. -/
inductive Refusal where
  /-- Raised by an arm of `exec` whose instruction has no meaning yet. Safe: nothing is claimed of it. -/
  | notModelled (mnemonic : String)
  deriving DecidableEq, Repr

/-- What an event brings: the unit that it concerns, and what comes from outside the machine. -/
structure EvArg where
  unit : Nat := 0
  other : Nat := 0
  value : Nat := 0
  addr : Nat := 0
  level : Nat := 0
  tag : Nat := 0
  flag : Bool := false
  list : List Nat := []
  deriving DecidableEq, Repr

/-- One move of the machine that the agenda can name: an event, a core issuing a bundle, or time passing. -/
inductive Move where
  | event (i : Instr) (a : EvArg)
  | issue (core : Nat)
  | advance (units : Nat)
  /-- A rail controller has measured the power in W and the current in 10 mA of a rail (R25, R70). -/
  | measure (rail power current : Nat)
  deriving DecidableEq, Repr

/-! ### Memory accesses in flight (R204 to R207) -/

/-- The operation of an atomic or a reduction (R334). -/
inductive AmoOp where
  | add | and | or | xor | min | max | minu | maxu | swap | cas | faddS | faddH
  deriving DecidableEq, Repr

/-- The kinds of access (R204, R213). -/
inductive AccKind where
  | load
  | acquire (scope : Nat)
  | store
  | release (scope : Nat)
  | atomic (op : AmoOp)
  | reduce (op : AmoOp)
  | arrival
  deriving DecidableEq, Repr

/-- How a performed access ended: the value it returns, or the cause of its failure with the FSTAT field that counts a
store's failure (R211): 0 none, 1 PERM, 2 DEAD, 3 POIS. -/
inductive AccResult where
  | value (v : Nat)
  | failed (cause : Cause) (count : Nat)
  deriving DecidableEq, Repr

/-- An access between its issue and its reply or acknowledgement. -/
structure Access where
  id : Nat := 0
  kind : AccKind := .load
  /-- The issuing context, and the number of its firing. -/
  ctx : Nat := 0
  firing : Nat := 0
  va : Nat := 0
  gpa : Nat := 0
  size : Nat := 0
  data : Nat := 0
  data2 : Nat := 0
  tag : Nat := 0
  level : Nat := 0
  /-- Where the home is: 0 the issuing tile, 1 the field, 2 the device, 3 another device (R209). -/
  reach : Nat := 0
  /-- CYC of retirement, for the 64 cycles of R207; RTIME of issue, for the 10 ms of R313. -/
  cyc : Nat := 0
  since : Nat := 0
  /-- Further pieces of a load that is not one run of bytes: address and size. -/
  more : List (Nat × Nat) := []
  result : Option AccResult := none
  /-- The follower's copy of a doubles pair: it never enters the mesh; the number of the partner's firing (R46). -/
  shadow : Bool := false
  pairOf : Option Nat := none
  /-- Counted once in FSTAT.SCOPE (R215). -/
  counted : Bool := false
  /-- The reduction that a router merged this one into, and the router that keeps the record (R224). -/
  into : Option Nat := none
  mergeAt : Option Nat := none
  /-- Not of a page of memory kind 0; lines of the reply that the slice still fetches (R113, R117). -/
  uncached : Bool := false
  fills : List Nat := []
  /-- The stream that the access is a step of: 4 times the core + its number (R193). -/
  stream : Option Nat := none
  /-- What a load of a counter of the issuing core returns: the count before the cycle of its issue (R420). -/
  snap : Option Nat := none
  deriving DecidableEq, Repr

/-- A sync record of a home (R216): its line, and the scope and place of the releaser. -/
structure SyncRec where
  line : Nat := 0
  scope : Nat := 0
  ctx : Nat := 0
  device : Nat := 0
  firing : Nat := 0
  /-- The releaser's accesses that were outstanding when it released. -/
  waits : List Nat := []
  deriving DecidableEq, Repr

/-! ### Messages (R155, R156) -/

/-- A message with its header. -/
structure Msg where
  words : List Word := []
  dev : Nat := 0
  core : Nat := 0
  act : Nat := 0
  port : Nat := 0
  scapLo : Word := 0
  scapHi : Word := 0
  vn : Nat := 0
  chan : Nat := 0
  rtag : Nat := 0
  hops : Nat := 0
  itime : Nat := 0
  /-- The owner tag and the bits [63:0] of the capability used. -/
  tag : Nat := 0
  capLo : Word := 0
  /-- Generated by the hardware (R155). -/
  hw : Bool := false
  /-- Fault packets and other messages for the platform firmware of a hub (R239). -/
  platform : Bool := false
  /-- A bounce that answers a request, and fills its reservation (R173). -/
  ofRequest : Bool := false
  /-- Forwarded by the stub of a migration (R175). -/
  fwd : Bool := false
  /-- The turn in which it reached the local port of its destination's tile, 0 before (R417). -/
  reached : Nat := 0
  /-- The router that the packet has reached, while it is in the mesh (R36); the generation that it was injected under (R40). -/
  router : Option Nat := none
  gen : Nat := 0
  /-- It leaves for another device: the UALink port, at whose interface the route ends (R15, R36, R76). -/
  exit : Option Nat := none
  /-- Its entry of the port's overflow queue, while it waits there (R153). -/
  slot : Option Nat := none
  /-- The order in which a hub held hardware messages back (R165). -/
  made : Nat := 0
  /-- A send of a doubles pair: 0 none, 1 the leader's, 2 the follower's copy (R46). -/
  pair : Nat := 0
  /-- The sending core, sending agent (context or actor key) and firing; for a hardware message a core of the field it comes from. -/
  srcCore : Nat := 0
  srcAct : Option Nat := none
  firing : Nat := 0
  /-- The logical core and agent that sent it, as a capability without rights: a bounce goes back to it, wherever it is then (R164, R173, R175). -/
  home : Word := 0
  deriving DecidableEq, Repr

/-- A control packet of `wake` or `halt` on SYS (R330). -/
structure CtlPkt where
  wake : Bool := false
  capLo : Word := 0
  capHi : Word := 0
  srcCore : Nat := 0
  srcAct : Option Nat := none
  home : Word := 0
  deriving DecidableEq, Repr

/-! ### Contexts (R180 to R187) -/

/-- What a typed load that holds has of its page and of LUTLO and LUTHI as they stood at its issue (R258, R316, R322). -/
structure TypedHold where
  fmt : Nat := 0
  geo : Nat := 0
  dataLen : Nat := 0
  nscales : Nat := 0
  lutlo : Word := 0
  luthi : Word := 0
  deriving DecidableEq, Repr

/-- The registers and status of a context: its image (R181), and what the hardware keeps of its firing. -/
structure Ctx where
  /-- A firing occupies the context. -/
  occ : Bool := false
  x : KMap Word := []
  v : KMap Vec := []
  k : KMap Word := []
  lc : KMap Word := []
  pc : Word := 0
  wid : Word := 0
  widf : Word := 0
  /-- ORGX, ORGY, ORGK, SUBX, SUBY, SUBK under keys 0 to 5 (R137). -/
  grid : KMap Word := []
  senderLo : Word := 0
  senderHi : Word := 0
  port : Word := 0
  codelo : Word := 0
  codehi : Word := 0
  lbase : Word := 0
  /-- MODE.RM and MODE.L (R187). -/
  rm : Nat := 0
  long : Bool := false
  /-- FSTAT: PERM, DEAD, POIS, SCOPE (R187, R211). -/
  perm : Nat := 0
  dead : Nat := 0
  pois : Nat := 0
  scope : Nat := 0
  /-- UNACK: FLD, WAF, DOM (R187, R209). -/
  unFld : Nat := 0
  unWaf : Nat := 0
  unDom : Nat := 0
  /-- CTXST (R181): last fault cause, park reason, actor index, class, state 0 running, 1 frozen, 2 parked, 3 pre-empted. -/
  cause : Nat := 0
  reason : Nat := 0
  /-- The virtual network of the send that the firing is parked at (R159). -/
  parkVn : Nat := 0
  act : Nat := 0
  cls : Nat := 0
  st : Nat := 0
  np : Bool := false
  npstart : Nat := 0
  pool : Bool := false
  task : Bool := false
  /-- Owner tag and level (R96) of the firing. -/
  tag : Nat := 0
  level : Nat := 0
  /-- The launch of a pool firing or task: its identifier, depth, and item number (R133, R136). -/
  launch : Option Nat := none
  depth : Nat := 0
  item : Nat := 0
  feedPair : Bool := false
  /-- A number that no other firing has. -/
  firing : Nat := 0
  /-- The wake-pending bit (R310). -/
  wakeBit : Bool := false
  /-- Declared sends made, those of them on BULK, and PROD (R158). -/
  sends : Nat := 0
  sendsBulk : Nat := 0
  prod : Nat := 0
  /-- The access that the context holds for (R313, R323), or its reply. -/
  hold : Option Nat := none
  reply : Option AccResult := none
  typed : TypedHold := {}
  /-- The ply of an accepted arrival, and whether an arrival was refused (R228). -/
  refusedArr : Bool := false
  /-- The stall that WDOG times (R250): RTIME of its start and its cause; whether it was reported. -/
  stall : Option (Nat × Nat) := none
  reported : Bool := false
  /-- Lines of the image found uncorrectable (R247). -/
  ueLines : List Nat := []
  /-- CYC before which the firing issues nothing: the end of its `.ts` or `.strict` engine instruction (R370). -/
  ready : Nat := 0
  /-- Lines of active loop bodies that an `inv` has dropped from the fetch buffer: key, VA and bytes, as the loop buffer keeps them (R195). -/
  loopBuf : List (Nat × Nat × List Byte) := []
  /-- The A slot of the `done` bundle that the context waits at has taken effect (R309). -/
  aDone : Bool := false
  /-- The frozen bundle's address, for RESTART (R242); STEP in progress. -/
  frozenPc : Word := 0
  stepping : Bool := false
  /-- Doubles: the partner context, and the number of the partner's firing (R46). -/
  pairCtx : Option Nat := none
  pairFiring : Option Nat := none
  /-- Reads of streams, engines and operations, and writes of operations, that the partner has not made yet: a channel, a GPA, a length and a value; and the
  number of operations that the firing has issued (R46, R47). -/
  pairReads : List (Nat × Nat × Nat × Nat) := []
  opOrd : Nat := 0
  /-- A pre-emption or STOP that waits for a reply or for `np.off` (R323, R97): 0 none, 1 rook, 2 switch, 3 STOP. -/
  preempt : Nat := 0
  /-- The context slot that a parked firing last held; one more than the cause with which a killed firing ends once UNACK is zero (R243), else 0. -/
  slot : Nat := 0
  killed : Nat := 0
  /-- RTIME of the freeze or park (R87). -/
  haltAt : Nat := 0
  deriving DecidableEq, Repr

/-- The debug page of a context (R241). -/
structure Dbg where
  capLow : Word := 0
  /-- The attached context and firing, and whether its capability carries the halt right. -/
  att : Option (Nat × Nat) := none
  halt : Bool := false
  result : Nat := 0
  lastcmd : Nat := 0
  pend : Option Nat := none
  ncmd : Nat := 0
  fst : Word := 0
  fpkt : List Word := []
  deriving DecidableEq, Repr

/-! ### Actors and ports (R149 to R163) -/

/-- A port of an actor: its latched word, both parts, its reservations, and its status (R151, R153, R174). -/
structure Port where
  word : Word := 0
  hwPart : List Msg := []
  oq : List Msg := []
  resv : List Nat := []
  spill : Bool := false
  arr : Nat := 0
  deriving DecidableEq, Repr

/-- An actor of a core's table (R152, R163). -/
structure Actor where
  valid : Bool := false
  sup : Bool := false
  owner : Nat := 0
  claim : Nat := 0
  cls : Nat := 0
  prod : Nat := 0
  ports : KMap Port := []
  halted : Bool := false
  held : Bool := false
  /-- A firing of the actor exists: firing, parked or frozen. -/
  busy : Bool := false
  /-- RTIME at which the trigger first held (R140). -/
  readyAt : Option Nat := none
  deriving DecidableEq, Repr

/-- A task record with what the task inherits (R143). -/
structure TaskRec where
  words : List Word := []
  launch : Option Nat := none
  depth : Nat := 0
  cls : Nat := 0
  codelo : Word := 0
  codehi : Word := 0
  widf : Word := 0
  tag : Nat := 0
  pushed : Nat := 0
  /-- The place in the spill ring of a record that stands there (R143). -/
  slot : Nat := 0
  deriving DecidableEq, Repr

/-- A stream of a core (R189 to R194). -/
structure Stream where
  bound : Bool := false
  /-- Context and firing that bound it. -/
  ctx : Nat := 0
  firing : Nat := 0
  desc : List Word := []
  /-- Steps fetched or stored, and steps delivered to or taken from the register. -/
  fetched : Nat := 0
  taken : Nat := 0
  fifo : List Vec := []
  /-- Of an output stream, what each entry stores: its runs of bytes by VA, GPA and length, as they translated when it was appended, and their bytes as one
  number (R192). -/
  outs : List (List (Nat × Nat × Nat) × Nat) := []
  /-- The number of the next access when the stream was bound: every access before it precedes the stream's (R193). -/
  since : Nat := 0
  /-- A held fault of an input step: cause and address (R192). -/
  fault : Option (Nat × Nat) := none
  /-- The syndrome of the held fault (R238). -/
  faultSynd : Nat := 0
  tag : Nat := 0
  level : Nat := 0
  /-- The number of the partner's firing, in a doubles pair (R46). -/
  pairOf : Option Nat := none
  deriving DecidableEq, Repr

/-- A performance counter (R100). -/
structure Counter where
  en : Bool := false
  ovf : Bool := false
  omsg : Bool := false
  tag : Nat := 0
  ctxm : Nat := 255
  event : Nat := 0
  value : Nat := 0
  /-- RTIME of a wrap that lies before now (R103). -/
  wrapAt : Option Nat := none
  deriving DecidableEq, Repr

/-- A translation held in a micro-TLB or field TLB (R121). -/
structure TlbEntry where
  tag : Nat := 0
  va : Nat := 0
  level : Nat := 0
  pte : Nat := 0
  /-- KIND 4: the physical tile that the entry resolved to (R124). -/
  tile : Nat := 0
  deriving DecidableEq, Repr

/-- What one core holds (R143, R149, R153, R158, R173, R183, R185, R250). -/
structure Core where
  actBase : Nat := 0
  spillCap : Nat := 0
  spillBase : Nat := 0
  parkCap : Nat := 0
  parkBase : Nat := 0
  wdogEn : Bool := false
  wdogLimit : Nat := 0
  lutlo : Word := 0
  luthi : Word := 0
  seed : Word := 0
  actors : KMap Actor := []
  /-- Send queues by virtual network: 0 REQ, 1 RSP, 2 SYS, 3 BULK (R158). -/
  sendq : KMap (List Msg) := []
  reqRsv : Nat := 0
  bulkRsv : Nat := 0
  bounceq : List Msg := []
  bsum : Nat := 0
  bsumFirst : Option Msg := none
  stray : Nat := 0
  rsplost : Nat := 0
  /-- Deque, newest first, and its spill ring, newest first (R143). -/
  deque : List TaskRec := []
  spill : List TaskRec := []
  /-- Items of launches that the core holds: launch identifier and item, with the RTIME of the take (R136, R140). -/
  held : List (Nat × Nat × Nat) := []
  streams : KMap Stream := []
  /-- The context that issued last (R142). -/
  last : Nat := 7
  /-- The arithmetic cycle in which the core last issued a bundle (R142). -/
  issued : Option Nat := none
  /-- The tile's special registers that the core's bundle of that cycle changed, by number, as they stood before it (R321). -/
  before : List (Nat × Word) := []
  utlb : List TlbEntry := []
  /-- Lines kept by the instruction fetch buffer (R342): address and bytes. -/
  ibuf : KMap (List Byte) := []
  /-- Firings held outside a context slot: the park area (R183). -/
  parked : KMap Ctx := []
  counters : KMap Counter := []
  /-- RTIME at which the core last retired a bundle (R253, CORE_HANG). -/
  retired : Nat := 0
  /-- Rook: deferrals since the last test, RTIME of the last test (R44). -/
  deferrals : Nat := 0
  tested : Nat := 0
  hung : Bool := false
  deriving DecidableEq, Repr

/-! ### Engines (R178, R187, R271, R371 to R373, R384, R408) -/

/-- A latch of a D-tile: data bytes and scale bytes by window offset (R371, R373). -/
structure Latch where
  valid : Bool := false
  ring : Bool := false
  pend : Bool := false
  send : Bool := false
  fmt : Nat := 0
  geo : Nat := 0
  k : Nat := 0
  rseq : Nat := 0
  data : KMap Byte := []
  scales : KMap Byte := []
  /-- CYC at which a load of the latch completes (R370). -/
  ready : Nat := 0
  deriving DecidableEq, Repr

/-- An inner lane of an accumulator (R271): I, X and NANP. -/
structure Inner where
  i : Int := 0
  x : Int := 0
  nanp : Bool := false
  deriving DecidableEq, Repr

/-- The engine of a tile. -/
structure Engine where
  /-- Words of engine state by window offset / 4: accumulators, buffers, SACC, long registers. -/
  mem : KMap Half := []
  /-- CYC at which the occupancy ends (R370). -/
  busyUntil : Nat := 0
  latchUntil : Nat := 0
  inFlight : Bool := false
  sat : BitVec 4 := 0
  err : BitVec 4 := 0
  inner : BitVec 4 := 0
  satp : BitVec 4 := 0
  pois : BitVec 4 := 0
  /-- Words of each accumulator or buffer that window writes have replaced since it was poisoned, as a bit set (R247, R384). -/
  wrote : KMap Nat := []
  sprow : Bool := false
  blk : KMap Nat := []
  blkShown : Nat := 0
  promo : Nat := 64
  lanes : KMap Inner := []
  latches : KMap Latch := []
  /-- Attention (R384). -/
  attState : Nat := 0
  attNk : Nat := 0
  attQn : Nat := 0
  attD : Nat := 0
  attPois : BitVec 4 := 0
  attBlocks : Nat := 0
  pmask : KMap Word := []
  spcnt : KMap Nat := []
  /-- The long-vector unit (R201): owning firing and its context number. -/
  lown : Option Nat := none
  lctx : Nat := 0
  deriving DecidableEq, Repr

/-- A contents transfer on the operand ring (R381): the sending tile and latch, the receiving tile and latch, the contents. Its
phase is 0 while it waits at the sender, 1 while its beats leave, 2 until the last has arrived; then the times of the last beat. -/
structure RingXfer where
  src : Nat := 0
  srcLatch : Nat := 0
  dst : Nat := 0
  latch : Nat := 0
  contents : Latch := {}
  phase : Nat := 0
  leaves : Nat := 0
  arrives : Nat := 0
  deriving DecidableEq, Repr

/-- An operation in a slot (R244, R245, R393 to R395). -/
structure Op where
  state : Nat := 0
  kind : Nat := 0
  core : Nat := 0
  ctx : Nat := 0
  act : Nat := 0
  firing : Nat := 0
  pc : Word := 0
  cause : Nat := 0
  cursor : Nat := 0
  addr : Nat := 0
  cmderr : Bool := false
  desc : List Word := []
  tag : Nat := 0
  level : Nat := 0
  /-- Word 0 of the completion, its capability, port and dormant context (R392). -/
  word : Option Word := none
  capLo : Word := 0
  capHi : Word := 0
  dport : Nat := 0
  dorm : Bool := false
  dctx : Nat := 0
  pool : Bool := false
  task : Bool := false
  /-- The completion that has not left the tile yet (R395). -/
  sending : Option Msg := none
  /-- Failed items so far, the first failing cause, the error records kept: item and cause, and the items that succeeded. -/
  failed : Nat := 0
  firstCause : Nat := 0
  errs : List (Nat × Nat) := []
  okItems : Nat := 0
  stlost : Bool := false
  /-- The cause with which a command or an end of the firing stopped it (R243, R244). -/
  stop : Nat := 0
  /-- Saved state at a world switch: what the slot returns to (R244). -/
  saved : Nat := 0
  /-- Pieces sent to Fjoval chips: first item, items, RTIME of sending (R400). -/
  offload : List (Nat × Nat × Nat) := []
  /-- The destinations of a multicast copy that have been cleared at the source, by mask bit (R41, R404). -/
  gone : List Nat := []
  /-- It runs at the follower of a doubles pair, whose copy of what goes to other tiles does not enter the mesh (R46). -/
  shadow : Bool := false
  /-- The place of the operation among those of its firing (R46). -/
  ord : Nat := 0
  /-- The order of issue (R403). -/
  seq : Nat := 0
  /-- The item whose write goes to another device, and its bytes: its delivery and the cursor wait until it is performed there (R229, R245). -/
  deliv : List (Nat × Nat) := []
  /-- A write of the item at the cursor goes to another device (R229). -/
  away : Bool := false
  deriving DecidableEq, Repr

/-! ### The power economy of a tile (R48 to R67) -/

/-- A pending revocation notice (R61, R62). -/
structure Notice where
  oldh : Nat := 0
  newh : Nat := 0
  effect : Nat := 0
  reason : Nat := 0
  /-- The tile whose request a notice of reason 0 was made for (R423). -/
  forReq : Option Nat := none
  deriving DecidableEq, Repr

/-- The outstanding request of a tile (R54, R55, R66). -/
structure PipReq where
  target : Nat := 0
  cls : Nat := 0
  notify : Bool := false
  age : Nat := 0
  deriving DecidableEq, Repr

/-- What one tile holds. -/
structure Tile where
  h : Nat := 0
  hclass : Nat := 0
  nextok : Nat := 0
  req : Option PipReq := none
  notices : List Notice := []
  pwrseq : Nat := 0
  stalls : Nat := 0
  /-- The arithmetic cycle that STALLS counted last (R64). -/
  stallCyc : Option Nat := none
  raised : Nat := 0
  /-- The actor that last executed `pip.req` (R62). -/
  pipOwner : Option Nat := none
  /-- TILEPWR.STATE: 0 on, 1 hold, 2 gated, 3 waking; the rail 0 to 3 (R67). -/
  pwr : Nat := 2
  rail : Nat := 0
  /-- A queued wake: class, RTIME of entry, RTIME of promotion (R67). -/
  wake : Option (Nat × Nat) := none
  promoted : Option Nat := none
  /-- The wake was refused under the clock ceiling and waits for it (R71). -/
  wakeRefused : Bool := false
  gatedAt : Nat := 0
  wakingTo : Nat := 0
  recH : Nat := 0
  recClass : Nat := 0
  /-- The request that was outstanding at gating (R66; log 108). -/
  recReq : Option PipReq := none
  idleSince : Option Nat := none
  lastPaced : Nat := 0
  sems : KMap Nat := []
  /-- Waiters of each semaphore, oldest first: context, firing, amount (R198). -/
  semq : KMap (List (Nat × Nat × Nat)) := []
  ops : KMap Op := []
  eng : Engine := {}
  /-- The engine as the last completed instruction left it, while a later one is in flight (R370). -/
  engShown : Option Engine := none
  /-- Footprints held: launch, footprint region, local-store page range, pinned (R139). -/
  foot : List (Nat × Nat × Nat × Nat × Bool) := []
  sliceCounters : KMap Counter := []
  throttled : Bool := false
  deriving DecidableEq, Repr

/-! ### What one field hub holds -/

/-- A lease entry of a banker (R60): direction 0 lent, 1 borrowed; state 0 free, 1 active, 2 recalling, 3 ending. -/
structure Lease where
  valid : Bool := false
  dir : Nat := 0
  st : Nat := 0
  src : Nat := 0
  peer : Nat := 0
  count : Nat := 0
  dur : Nat := 0
  start : Nat := 0
  /-- RTIME at which the notice of a recall or an end expires. -/
  until_ : Nat := 0
  /-- The logical tile that a lease of the shuffle follows: tag, kind and index as one number (R73). -/
  forTile : Option Nat := none
  /-- The tile whose request a recall was made for (R423). -/
  forReq : Option Nat := none
  deriving DecidableEq, Repr

/-- The share of an early field's freed pips that is still to reach a straggler, with the length of its lease and, once it is made, its START (R72). -/
structure PaceShare where
  to_ : Nat := 0
  pips : Nat := 0
  dur : Nat := 0
  start : Option Nat := none
  deriving DecidableEq, Repr

/-- The report of a completed ply of a paced barrier (R72, R89, R232): the device and barrier, its owner tag, the ply, when the ply before completed, the
last arrival from each member field here, and the latest arrival at other devices. -/
structure PlyReport where
  device : Nat := 0
  barrier : Nat := 0
  owner : Nat := 0
  ply : Nat := 0
  since : Nat := 0
  arrivals : List (Nat × Nat) := []
  others : Nat := 0
  /-- The barrier spans devices (R89). -/
  spans : Bool := false
  deriving DecidableEq, Repr

/-- An atlas record (R30 to R34). -/
structure AtlasRec where
  kind : Nat := 0
  id : Nat := 0
  status : Nat := 0
  src : Nat := 0
  fails : Nat := 0
  caps : Nat := 0
  gen : Nat := 0
  test : Nat := 0
  deriving DecidableEq, Repr

/-- A barrier object (R226). -/
structure Barrier where
  valid : Bool := false
  pace : Bool := false
  scope : Nat := 0
  owner : Nat := 0
  mm1 : Nat := 0
  tmo : Nat := 0
  oldest : Nat := 0
  hist : Nat := 0
  /-- Slots 0 to 3: LAST, BAL, ARR, POVF, PARR; a PARR by its valid entries, each a field and a time. -/
  last : KMap Nat := []
  bal : KMap Int := []
  arr : KMap Nat := []
  povf : KMap Bool := []
  parr : KMap (KMap (Nat × Nat)) := []
  /-- Firings that wait, each with its ply (R231, R233). -/
  waiters : List (Nat × Nat) := []
  lead : KMap Nat := []
  /-- RTIME at which the last ply completed (R72). -/
  done : Nat := 0
  deriving DecidableEq, Repr

/-- An item of a launch that runs again (R145): how often its pairs mismatched, their leaders, and whether it has been taken again. -/
structure Requeue where
  item : Nat := 0
  count : Nat := 0
  leads : List Nat := []
  taken : Bool := false
  deriving DecidableEq, Repr

/-- An entry of a launch queue (R132 to R147). -/
structure Launch where
  id : Nat := 0
  depth : Nat := 0
  /-- Took one of the 48 shared places (R133). -/
  shared : Bool := true
  header : List Word := []
  tag : Nat := 0
  level : Nat := 0
  mask : List Nat := []
  /-- The tiles that may run the launch, in the order of R137, at its acceptance. -/
  runners : List Nat := []
  /-- The followers of those tiles in a doubles launch (R46, R86). -/
  followers : List Nat := []
  /-- Ranges of the member fields: field, low, high (R136). -/
  ranges : List (Nat × Nat × Nat) := []
  /-- Next cell of each core in grid mode (R137). -/
  cells : KMap Nat := []
  requeue : List Requeue := []
  /-- Items and tasks not yet ended, of those started or still to start. -/
  open_ : Nat := 0
  ended : Nat := 0
  failures : Nat := 0
  oks : Nat := 0
  host : Bool := false
  session : Nat := 0
  parentCore : Nat := 0
  parentAct : Option Nat := none
  parentLo : Word := 0
  parentHi : Word := 0
  records : List (Nat × Nat) := []
  /-- Firings of an item that have ended while another of it runs: the item and its cause, 0 for OK (R135, R144, R146). -/
  halves : List (Nat × Option Nat) := []
  launchCause : Nat := 0
  accepted : Nat := 0
  /-- Completion sent or waiting at its source. -/
  completing : Bool := false
  /-- Placed by the device for a rack scheduler; runners that have moved since, and whether the second residency report has gone (R86). -/
  rack : Bool := false
  moved : List Nat := []
  second : Bool := false
  deriving DecidableEq, Repr

/-- The progress of a world switch in a field (R97): step 0 none, 1 quiesce, 2 evict and save, 3 swap and restore. -/
structure Switch where
  step : Nat := 0
  start : Nat := 0
  incoming : Nat := 0
  expired : Bool := false
  deriving DecidableEq, Repr

/-- A partition's saved state of one field: its field image (R95). -/
structure FieldImage where
  ctxs : KMap Ctx := []
  cores : KMap Core := []
  tiles : KMap Tile := []
  barriers : KMap Barrier := []
  launches : KMap Launch := []
  leases : KMap Lease := []
  lwaiters : List Nat := []
  valid : Bool := false
  deriving DecidableEq, Repr

/-- A routing flip in progress (R40). -/
structure Flip where
  gen : Nat := 0
  mask : Nat := 0
  deadline : Nat := 0
  session : Nat := 0
  seq : Nat := 0
  /-- DEVPORT as the flip will leave it (R76). -/
  devport : Option (KMap Nat) := none
  deriving DecidableEq, Repr

/-- What one field hub holds: clock, banker, gating, partition, routing, atlas, rook, translation, barriers, launches,
faults. -/
structure Hub where
  /-- Start-up step 1 to 6, 7 ready; dark with the step it stopped at (R29). -/
  startup : Nat := 1
  dark : Bool := false
  image : Option Nat := none
  /-- FCLKCTL (R20) and the relock in progress: RTIME of its end (R19). -/
  curn : Nat := 20
  newn : Nat := 20
  badn : Bool := false
  pendn : Option Nat := none
  locking : Option Nat := none
  /-- RTIME at which the last relock ended (R19). -/
  relocked : Nat := 0
  /-- Arithmetic cycles and nominal cycles counted up to `anchor`, in the units of `State.now` (R188). -/
  cyc0 : Nat := 0
  ncyc0 : Nat := 0
  anchor : Nat := 0
  /-- BKCTL, BKSHARE, BKGSHARE (R59). -/
  lend : Bool := true
  borrow : Bool := true
  ballastEn : Bool := true
  pace : Bool := false
  lease : Nat := 200
  share : Nat := 0
  gshares : KMap Nat := []
  leases : KMap Lease := []
  ball : Nat := 0
  fill : Nat := 0
  floorUnmet : Bool := false
  /-- The last microsecond of RTIME that the banker metered, and held pips plus added ballast in 1 / 24,000,000 pip (R68, R69). -/
  tick : Nat := 0
  level : Nat := 0
  /-- Shares of pacer leases that revoked pips still have to fill, and revoked pips that wait for the bank's takeover to fill them (R57, R72). -/
  paceOwed : List PaceShare := []
  paceDebt : Nat := 0
  /-- Ramp allowance: RTIME of each metered microsecond and what is left of it, in 1 / 24,000,000 pip, and since
when a grant waits for it (R68). -/
  ramp : List (Nat × Nat) := []
  rampSince : Option Nat := none
  /-- The head request that a shortfall was computed for: tile, target and age; the part still to cover, the fields still to ask, and an
  answer under way: field, count, DUR, START (R60, R423). -/
  coverFor : Option (Nat × Nat × Nat) := none
  coverLeft : Nat := 0
  coverAsked : Nat := 0
  asks : List Nat := []
  answer : Option (Nat × Nat × Nat × Nat) := none
  idle : Nat := 50
  /-- PACESTAT (R72). -/
  slack : Nat := 0
  plydur : Nat := 0
  lentp : Nat := 0
  pacen : Nat := 20
  plies : Nat := 0
  railRefused : Bool := false
  railTarget : Nat := 0
  railTile : Nat := 0
  /-- FLDPART, FLDSWT and the switch in progress (R97 to R99). -/
  group : List Nat := []
  run : Option Nat := none
  runTag : Nat := 0
  quantumFrom : Nat := 0
  sw : Switch := {}
  swCount : Nat := 0
  swLast : Nat := 0
  saved : KMap FieldImage := []
  /-- ROUTESTAT, RGEN, override banks by 16 router + entry (R37, R40). -/
  rstate : Nat := 0
  rresult : Nat := 0
  rerrEnt : Nat := 0
  rerrTile : Nat := 0
  rgen : Nat := 0
  active : KMap Nat := []
  staged : KMap Nat := []
  /-- Packets in the hold buffers of the field's routers (R39). -/
  heldRsp : List Msg := []
  /-- The atlas of the field by index, with the status of a node that it does not list: untested until the seed is read, then dark, being absent from
  it (R30, R33); ATLCNT (R34). -/
  atlas : KMap AtlasRec := []
  unlisted : Nat := 4
  atlcnt : Nat := 0
  /-- Slice status recorded when the generation was applied, dark slices served uncached (R112). -/
  liveSlices : KMap Bool := []
  /-- Local indices of D-tiles whose ring stage runs in bypass (R11), and of retired routers, as recorded with the generation (R42). -/
  bypass : List Nat := []
  deadRouters : List Nat := []
  /-- Retired links, 4 times local index + direction, as recorded with the generation (R42). -/
  deadLinks : List Nat := []
  /-- Banks of earlier generations that packets in flight still follow (R40): the count of flips up to which each was in force, and its entries. -/
  past : List (Nat × KMap Nat) := []
  /-- The rook (R43, R44). -/
  rookEn : Bool := true
  rookBusy : Bool := false
  rookTile : Nat := 0
  rookUnit : Nat := 0
  rookEnd : Nat := 0
  rookPass : Nat := 0
  rookPeriod : Nat := 1000
  /-- The unit of the pass that is due, 3 times local index + unit, 360 when no pass runs, and since when it waits for a gap; units to
  test ahead of the pass: tile, unit, source of the status (R31), since when (R34, R422); the source of the test that runs. -/
  rookPos : Nat := 360
  rookSince : Nat := 0
  rookFirst : List (Nat × Nat × Nat × Nat) := []
  rookFrom : Nat := 1
  /-- The node under test that is neither a tile nor a unit of one: `rookUnit` is 12 then (R34). -/
  rookNode : Nat := 0
  /-- The source with which the running test stood in the list ahead of the pass, if it did. -/
  rookAgain : Option Nat := none
  rookRan : Bool := false
  /-- Translation: roots, TLBINV latches by partition, requests in progress, ISSUED, DONE, the field TLB (R118, R122). -/
  troots : KMap Nat := []
  tlbLow : KMap Nat := []
  tlbq : List (Nat × Nat × Nat × Nat) := []
  tlbIssued : Nat := 0
  tlbDone : Nat := 0
  tlb : List TlbEntry := []
  barriers : KMap Barrier := []
  /-- The launch queue by entry, its sequence, and firings parked in `launch.w` oldest first (R132 to R135). -/
  launches : KMap Launch := []
  lseq : Nat := 0
  lwaiters : List Nat := []
  /-- The fault queue, the tags of the packets not kept, the sequence number (R237, R240). -/
  faultq : List Msg := []
  dropped : List Nat := []
  fseq : Nat := 0
  /-- The capability translation table by member, kind and index (R171). -/
  ctt : KMap Word := []
  /-- The tiles whose interfaces have looked an entry up since it last changed (R171). -/
  looked : KMap (List Nat) := []
  counters : KMap Counter := []
  /-- Hardware messages of the hub waiting for room at a SYS port (R62, R154). -/
  waiting : List Msg := []
  deriving DecidableEq, Repr

/-! ### The device -/

/-- A partition table entry (R94). -/
structure Partition where
  valid : Bool := false
  state : Nat := 0
  tag : Nat := 0
  quant : Nat := 0
  cntport : Nat := 0
  qlim : Nat := 100
  fields : List Nat := []
  supLo : Word := 0
  supHi : Word := 0
  save : Nat := 0
  deriving DecidableEq, Repr

/-- A frame to a host: session, sequence, opcode, status, body as bytes, RTIME, and fragment of how many (R80, R81). -/
structure Frame where
  session : Nat := 0
  seq : Nat := 0
  opcode : Nat := 0
  status : Nat := 0
  /-- The replying device (R80). -/
  device : Nat := 0
  body : List Nat := []
  rtime : Nat := 0
  frag : Nat := 0
  frags : Nat := 1
  deriving DecidableEq, Repr

/-- A Loith session (R82): the endpoint bound to it, its tag, next sequence, held commands as frames, replies kept, commands that still run. -/
structure Session where
  valid : Bool := false
  endpoint : Nat := 0
  tag : Nat := 0
  next : Nat := 1
  held : List (Nat × List Nat) := []
  replies : List (Nat × List Frame) := []
  outstanding : List Nat := []
  gapSince : Option Nat := none
  /-- The missing number that the last gap event named (R82). -/
  gapTold : Nat := 0
  deriving DecidableEq, Repr

/-- A power rail (R23, R70). -/
structure Rail where
  cur : Nat := 740
  set : Nat := 740
  busy : Option Nat := none
  refused : Bool := false
  power : Nat := 0
  current : Nat := 0
  deriving DecidableEq, Repr

/-- What moves with a logical tile, between the old tile and the new one (R73, R175): the moved part of each core, contexts by slot, the moved part
of the tile, and local store by window offset. -/
structure Moved where
  cores : KMap Core := []
  ctxs : KMap Ctx := []
  tile : Tile := {}
  /-- Arithmetic cycles that its pacing had still to wait (R50, R73). -/
  wait : Nat := 0
  store : Memory := []
  dbgs : KMap Dbg := []
  deriving DecidableEq, Repr

/-- A migration in progress (R175): the logical tile, the old and new tiles, the step 1 to 7, the stub, networks whose markers are still to come,
what has left the old tile and is not yet on the new one. -/
structure Migration where
  lkind : Nat := 0
  lidx : Nat := 0
  tag : Nat := 0
  oldTile : Nat := 0
  newTile : Nat := 0
  step : Nat := 1
  stub : List Msg := []
  /-- The markers not yet arrived: source tile and virtual network (R175). -/
  markers : List (Nat × Nat) := []
  image : Option Moved := none
  /-- It is a migration of a shuffle step (R73). -/
  shuffle : Bool := false
  deriving DecidableEq, Repr

/-- The bank block and the other functions of hub 0 (R57 to R73, R91). -/
structure Bank where
  mirrok : Bool := false
  onmirror : Bool := false
  limit : Bool := false
  /-- Since when the package has drawn more than 32 kW, or at most that; RTIME before which no further limit revocation comes (R25). -/
  overSince : Option Nat := none
  underSince : Option Nat := none
  limitNext : Nat := 0
  takeoverAt : Option Nat := none
  pvalid : KMap Bool := []
  prefused : KMap Bool := []
  pshare : KMap Nat := []
  rampBad : Bool := false
  ramp : Nat := 1500
  floorBad : Bool := false
  floor : Nat := 12000
  paceEn : Bool := false
  nmin : Nat := 15
  nmax : Nat := 20
  minskew : Nat := 10
  /-- Ply reports on their way to the pacer (R72, R232). -/
  plyReports : List PlyReport := []
  /-- The last report of each barrier of another device: device and barrier, ply, latest arrival (R89). -/
  lastPlies : List (Nat × Nat × Nat × Nat) := []
  shufEn : KMap Bool := []
  shufSkips : KMap Nat := []
  shufStride : KMap Nat := []
  shufPeriod : KMap Nat := []
  shufStep : KMap Nat := []
  shufLast : KMap Nat := []
  deriving DecidableEq, Repr

/-- The links, the command actor, and the domain's time (R74 to R91). -/
structure Loith where
  ready : Bool := false
  device : Nat := 0
  /-- Hubs that hold identity keys, and hubs whose derivation of them failed (R28). -/
  identity : List Nat := []
  idBad : List Nat := []
  devport : KMap Nat := []
  endpoints : KMap Nat := []
  sessions : KMap Session := []
  /-- Frames sent to hosts, newest last, and events sent (R86). -/
  out : List Frame := []
  events : Nat := 0
  /-- Commands that end later: switches with the fields still to switch, resets with their field, copies of owners switched out (R85). -/
  switching : List (Nat × Nat × List Nat) := []
  resetting : List (Nat × Nat × Nat) := []
  copies : List (Nat × Nat × List Nat) := []
  /-- No hub has found a valid image (R27). -/
  imageBad : Bool := false
  /-- Time (R88): RTIME of the last exchange, whether there was one, offset still to be slewed in units of `State.now`. -/
  synced : Nat := 0
  parent : Bool := false
  /-- A ready device of a lower number is in the domain, so that this one is not the time root (R88). -/
  lower : Bool := false
  offset : Int := 0
  lost : Bool := false
  epoch : Bool := false
  /-- The bridge of the group, where one is known; frames that this device as the bridge has passed on: to a device, or under 0xFFFF to the hosts (R79). -/
  bridge : Option Nat := none
  passed : List (Nat × List Nat) := []
  /-- Frames that wait at their fabric interfaces during a takeover: endpoint and bytes (R91). -/
  atDoor : List (Nat × List Nat) := []
  /-- Flips completed: the generation count by which packets in flight find their banks (R40). -/
  flips : Nat := 0
  /-- Status of UALink ports, fabric interfaces, Fjoval chips: keys of what is dark. -/
  darkPorts : List Nat := []
  darkIfs : List Nat := []
  darkChips : List Nat := []
  hub0Dark : Bool := false
  hub89Dark : Bool := false
  deriving DecidableEq, Repr

/-- A miss register: the owner tag of the request that took it, and the requests that it holds (R113). -/
structure Miss where
  tag : Nat := 0
  count : Nat := 0
  deriving DecidableEq, Repr

/-- A capacity stripe entry (R399). -/
structure Stripe where
  valid : Bool := false
  refused : Bool := false
  log2u : Nat := 0
  len : Nat := 0
  base : Nat := 0
  deriving DecidableEq, Repr

/-- The machine. -/
structure State where
  /-- Moves to come, the unit that issues when there are none, and the issuing context (the model's own; log 1). -/
  agenda : List Move
  focus : Nat
  cur : Nat
  arg : EvArg
  /-- The number of the next free value, of the next access and of the next firing (the model's own; log 1). -/
  fresh : Nat
  nextAcc : Nat
  nextFiring : Nat
  /-- Time in units of 1 / (47 L) ns with L = 26771144400, the least common multiple of 10 to 25 (log 2). -/
  now : Nat
  /-- RTIME in ns and whether it counts (R22). -/
  rtime : Nat
  rfrac : Nat
  ctxs : KMap Ctx
  dbgs : KMap Dbg
  cores : KMap Core
  tiles : KMap Tile
  hubs : KMap Hub
  /-- Memory by GPA with the device bits cleared (R105). -/
  mem : Memory
  /-- Poisoned lines by address (R125), and the one of them whose error no access has detected yet, with whether a slice holds it (R247). -/
  poison : List Nat
  latent : Option (Nat × Bool)
  /-- Lines dirty in their home slice; lines present there, with the owner tag of the access that brought them (R92, R112, R342). -/
  dirty : List Nat
  cached : KMap Nat
  /-- Miss registers of the slices by line: the line's fill is on its way (R113). -/
  misses : KMap Miss
  /-- Accesses in flight, sync records, messages in the network, control packets in it, ring transfers. -/
  net : List Access
  syncs : List SyncRec
  flying : List Msg
  ctls : List CtlPkt
  rings : List RingXfer
  bank : Bank
  parts : KMap Partition
  rails : KMap Rail
  loith : Loith
  stripes : KMap Stripe
  /-- Seal keys by owner tag: 32 bytes each (R168). -/
  keys : KMap (List Nat)
  /-- The image slots of the flash, by slot: the bytes of an image (R26). -/
  images : KMap (List Nat)
  migrations : List Migration
  flip : Option Flip
  /-- Packets to platform firmware, newest last, and the 32 most recent packets of the device (R239, R240). -/
  plat : List Msg
  recent : List Msg
  deriving DecidableEq, Repr

/-- The machine right after power-on reset (R22, R29): start-up step 1 in every field, all tiles gated, N = 20, RTIME, CYC
and NCYC zero. -/
def State.reset : State where
  agenda := []
  focus := 1
  cur := 8
  arg := {}
  fresh := 0
  nextAcc := 0
  nextFiring := 1
  now := 0
  rtime := 0
  rfrac := 0
  ctxs := []
  dbgs := []
  cores := []
  tiles := []
  hubs := []
  mem := []
  poison := []
  latent := none
  dirty := []
  cached := []
  misses := []
  net := []
  syncs := []
  flying := []
  ctls := []
  rings := []
  bank := {}
  parts := []
  rails := []
  loith := {}
  stripes := []
  keys := []
  images := []
  migrations := []
  flip := none
  plat := []
  recent := []

end Sys2Proof.Machine
end

