-- ==== Sys2Proof/Machine/Ops.lean ====
section
/-! DEFINITION. The named operations over the state: units and their parts, time, registers, the retirement of a bundle with
its loop control (R197), stalls, fault packets (R237), freezing (R235) and its return (R242). -/

namespace Sys2Proof.Machine

/-- The outcome of an instruction, an event or a step. -/
abbrev Out := Host.Outcome State Fault Refusal

/-! ### Bits -/

/-- Bits [hi:lo] of a number. -/
def bitsAt (v hi lo : Nat) : Nat := v / 2 ^ lo % 2 ^ (hi + 1 - lo)

/-- Bit i of a number. -/
def bitAt (v i : Nat) : Bool := v / 2 ^ i % 2 = 1

/-- Bits [hi:lo] of a word. -/
def bitsOf (w : Word) (hi lo : Nat) : Nat := bitsAt w.toNat hi lo

/-- A word from a signed number, modulo 2^64. -/
def wordOf (v : Int) : Word := BitVec.ofInt 64 v

/-- A Bool as a word, 0 or 1. -/
def wordOfBool (b : Bool) : Word := if b then 1 else 0

/-- A Bool as a number. -/
def natOfBool (b : Bool) : Nat := if b then 1 else 0

/-- The sign extension of the low n bits of a number to a word. -/
def sextWord (n v : Nat) : Word :=
  let w := v % 2 ^ n
  if w < 2 ^ (n - 1) then BitVec.ofNat 64 w else BitVec.ofNat 64 (2 ^ 64 - 2 ^ n + w)

/-! ### Units (R6, R8, R178) -/

/-- The tile at column x and row y. -/
def tileAt (x y : Nat) : Nat := 120 * y + x

def tileX (t : Nat) : Nat := t % 120
def tileY (t : Nat) : Nat := t / 120

/-- The field of a tile (R6). -/
def fieldOfTile (t : Nat) : Nat := 10 * (tileY t / 10) + tileX t / 12

/-- The index of a tile in its field: 12 ly + lx (R6). -/
def localOfTile (t : Nat) : Nat := 12 * (tileY t % 10) + tileX t % 12

/-- The tile of a local index of a field. -/
def tileOfLocal (f i : Nat) : Nat := tileAt (12 * (f % 10) + i % 12) (10 * (f / 10) + i / 12)

/-- The kind of a tile site (R8): 0 D, 1 S, 2 A, 3 V. -/
def tileKind (t : Nat) : Nat :=
  if tileY t % 10 < 5 then 0 else 1 + tileX t % 12 / 4

/-- The atlas index of a tile's node, and of unit u of a tile (R30): unit 0 feed core, 1 issue core, 2 engine. -/
def nodeOfTile (t : Nat) : Nat := 256 + 1442 * fieldOfTile t + 2 + 12 * localOfTile t
def nodeOfUnit (t u : Nat) : Nat := nodeOfTile t + 1 + u

def coreOfCtx (c : Nat) : Nat := c / 8
def tileOfCtx (c : Nat) : Nat := c / 16
def tileOfCore (k : Nat) : Nat := k / 2
def fieldOfCtx (c : Nat) : Nat := fieldOfTile (tileOfCtx c)

/-- Whether a core is the issue core of its tile. -/
def isIssueCore (k : Nat) : Bool := k % 2 = 1

/-! ### Parts of the state -/

def State.ctxOf (s : State) (i : Nat) : Ctx := s.ctxs.get {} i
def State.dbgOf (s : State) (i : Nat) : Dbg := s.dbgs.get {} i
def State.coreOf (s : State) (i : Nat) : Core := s.cores.get {} i
def State.tileOf (s : State) (i : Nat) : Tile := s.tiles.get {} i
def State.hubOf (s : State) (i : Nat) : Hub := s.hubs.get {} i
def State.partOf (s : State) (i : Nat) : Partition := s.parts.get {} i
def State.railOf (s : State) (i : Nat) : Rail := s.rails.get {} i

def State.updCtx (s : State) (i : Nat) (f : Ctx → Ctx) : State := { s with ctxs := s.ctxs.put i (f (s.ctxOf i)) }
def State.updDbg (s : State) (i : Nat) (f : Dbg → Dbg) : State := { s with dbgs := s.dbgs.put i (f (s.dbgOf i)) }
def State.updCore (s : State) (i : Nat) (f : Core → Core) : State := { s with cores := s.cores.put i (f (s.coreOf i)) }
def State.updTile (s : State) (i : Nat) (f : Tile → Tile) : State := { s with tiles := s.tiles.put i (f (s.tileOf i)) }
def State.updHub (s : State) (i : Nat) (f : Hub → Hub) : State := { s with hubs := s.hubs.put i (f (s.hubOf i)) }
def State.updPart (s : State) (i : Nat) (f : Partition → Partition) : State :=
  { s with parts := s.parts.put i (f (s.partOf i)) }
def State.updRail (s : State) (i : Nat) (f : Rail → Rail) : State := { s with rails := s.rails.put i (f (s.railOf i)) }

/-- The issuing context, its core, tile and field hub. -/
def State.cx (s : State) : Ctx := s.ctxOf s.cur
def State.core (s : State) : Core := s.coreOf (coreOfCtx s.cur)
def State.tile (s : State) : Tile := s.tileOf (tileOfCtx s.cur)
def State.hub (s : State) : Hub := s.hubOf (fieldOfCtx s.cur)
def State.eng (s : State) : Engine := s.tile.eng

def State.upd (s : State) (f : Ctx → Ctx) : State := s.updCtx s.cur f
def State.updCurCore (s : State) (f : Core → Core) : State := s.updCore (coreOfCtx s.cur) f
def State.updCurTile (s : State) (f : Tile → Tile) : State := s.updTile (tileOfCtx s.cur) f
def State.updCurHub (s : State) (f : Hub → Hub) : State := s.updHub (fieldOfCtx s.cur) f
def State.updEng (s : State) (f : Engine → Engine) : State :=
  s.updCurTile (fun t => { t with eng := f t.eng, engShown := t.engShown.map f })

/-- Change the context of a firing, in its slot or in a park area (R182). -/
def State.updFiring (s : State) (n : Nat) (f : Ctx → Ctx) : State :=
  { s with
    ctxs := s.ctxs.map (fun e => (e.1, if e.2.occ && e.2.firing = n then f e.2 else e.2)),
    cores := s.cores.map (fun e => (e.1, { e.2 with parked := e.2.parked.map (fun q => (q.1, if q.2.firing = n then f q.2 else q.2)) })) }

/-! ### Time (R18, R22, R188) -/

/-- Arithmetic cycles since the anchor of a field hub; none during a relock. -/
def State.cyclesSince (s : State) (h : Hub) : Nat :=
  if h.locking.isSome then 0 else (s.now - h.anchor) / Config.cycleUnits h.curn

/-- CYC of a field (R188). -/
def State.cycOf (s : State) (f : Nat) : Nat :=
  let h := s.hubOf f
  (h.cyc0 + s.cyclesSince h) % 2 ^ 64

/-- NCYC of a field: 48.16 fixed point (R188). -/
def State.ncycOf (s : State) (f : Nat) : Nat :=
  let h := s.hubOf f
  (h.ncyc0 + s.cyclesSince h * (20 * 65536 / h.curn)) % 2 ^ 64

def State.cyc (s : State) : Nat := s.cycOf (fieldOfCtx s.cur)

/-- RTIME as software reads it (R22). -/
def State.rtimeWord (s : State) : Word := BitVec.ofNat 64 s.rtime

/-! ### Registers (R180) -/

/-- An `x` register: `x0` reads zero. -/
def State.x (s : State) (r : BitVec 5) : Word := if r = 0 then 0 else s.cx.x.get 0 r.toNat

/-- Write an `x` register: writes to `x0` are discarded. -/
def State.setX (s : State) (r : BitVec 5) (v : Word) : State :=
  if r = 0 then s else s.upd (fun c => { c with x := c.x.put r.toNat v })

/-- A mask register. -/
def State.k (s : State) (r : BitVec 3) : Word := s.cx.k.get 0 r.toNat

def State.setK (s : State) (r : Nat) (v : Word) : State := s.upd (fun c => { c with k := c.k.put r v })

/-- The owner tag and level of the issuing firing (R96). -/
def State.tag (s : State) : Nat := s.cx.tag
def State.level (s : State) : Nat := s.cx.level

/-- The CTXID of a context (R187). -/
def State.ctxidOf (s : State) (i : Nat) : Nat :=
  let c := s.ctxOf i
  let t := tileOfCtx i
  fieldOfTile t * 2 ^ 33 + tileY t * 2 ^ 26 + tileX t * 2 ^ 19 + i / 8 % 2 * 2 ^ 18 + i % 8 * 2 ^ 15 + tileKind t * 2 ^ 13 +
    natOfBool c.pool * 2 ^ 12 + natOfBool c.task * 2 ^ 11 + (if c.pool || c.task then 0 else c.act)

/-! ### Loops (R196, R197) -/

def lcActive (w : Word) : Bool := bitAt w.toNat 63
def lcLen (w : Word) : Nat := bitsOf w 62 55
def lcStart (w : Word) : Nat := bitsOf w 54 34
def lcCount (w : Word) : Nat := bitsOf w 31 0

/-- A loop counter from its fields. -/
def lcMake (lenm1 start count : Nat) : Word :=
  BitVec.ofNat 64 (2 ^ 63 + lenm1 % 256 * 2 ^ 55 + start % 2 ^ 21 * 2 ^ 34 + count % 2 ^ 32)

def Ctx.lcAt (c : Ctx) (d : Nat) : Word := c.lc.get 0 d

/-- The number of active loops. -/
def Ctx.depthOf (c : Ctx) : Nat :=
  if !lcActive (c.lcAt 0) then 0 else if !lcActive (c.lcAt 1) then 1 else if !lcActive (c.lcAt 2) then 2 else 3

/-- The address of the first and of the last bundle of a loop body. -/
def Ctx.bodyFirst (c : Ctx) (d : Nat) : Nat := c.codelo.toNat + 8 * lcStart (c.lcAt d)
def Ctx.bodyLast (c : Ctx) (d : Nat) : Nat := c.codelo.toNat + 8 * (lcStart (c.lcAt d) + lcLen (c.lcAt d))

/-- A valid nest under R196: active counters come first, and each body ends at or before the end of the one around it. -/
def Ctx.nestOk (c : Ctx) : Bool :=
  (lcActive (c.lcAt 0) || !lcActive (c.lcAt 1)) && (lcActive (c.lcAt 1) || !lcActive (c.lcAt 2)) &&
    (!lcActive (c.lcAt 1) || c.bodyLast 1 ≤ c.bodyLast 0) && (!lcActive (c.lcAt 2) || c.bodyLast 2 ≤ c.bodyLast 1)

/-- The context after a bundle at its PC retires with next address `npc`: the end test of the innermost loop (R197). -/
def Ctx.retireTo (c : Ctx) (npc : Word) : Ctx :=
  let d := c.depthOf
  if d = 0 then { c with pc := npc }
  else
    let w := c.lcAt (d - 1)
    if c.pc.toNat = c.bodyLast (d - 1) ∧ npc = c.pc + 8 then
      if lcCount w > 1 then
        { c with lc := c.lc.put (d - 1) (w - 1), pc := BitVec.ofNat 64 (c.bodyFirst (d - 1)) }
      else { c with lc := c.lc.put (d - 1) 0, pc := npc }
    else { c with pc := npc }

/-- End the innermost loop if its body does not hold an address. -/
def Ctx.leaveInner (target : Nat) (c : Ctx) : Ctx :=
  let d := c.depthOf
  if d = 0 then c
  else if c.bodyFirst (d - 1) ≤ target ∧ target ≤ c.bodyLast (d - 1) then c
  else { c with lc := c.lc.put (d - 1) 0 }

/-- The loops that a taken branch ends (R197): at most three are active. -/
def Ctx.leaveLoops (target : Nat) (c : Ctx) : Ctx :=
  (c.leaveInner target |>.leaveInner target |>.leaveInner target)

/-! ### Retirement and stalls (R184) -/

/-- The issuing bundle retires and the next address is `npc`. -/
def State.retire (s : State) (npc : Word) : State :=
  (s.upd (fun c => { c.retireTo npc with stall := none, reported := false, hold := none, reply := none, refusedArr := false, aDone := false })).updCurCore
    (fun k => { k with retired := s.rtime, hung := false })

/-- The issuing bundle retires and falls through. -/
def State.fall (s : State) : State := s.retire (s.cx.pc + 8)

/-- Write XD and fall through: the effect of an instruction that gives one result. -/
def State.result (s : State) (xd : BitVec 5) (v : Word) : Out := .next (s.setX xd v).fall

/-- A taken branch (R197, R304). -/
def State.branch (s : State) (target : Word) : State :=
  (s.upd (Ctx.leaveLoops target.toNat)).retire target

/-- The bundle stalls: it has no effect. The time since which the context stalls on this bundle and the wait that WDOG reports it as (0 for none) are
recorded (R184, R250). -/
def State.stallOn (s : State) (wait : Cause) : State :=
  s.upd (fun c => { c with stall := some ((c.stall.map (fun p => p.1)).getD s.rtime, wait) })

/-! ### Capabilities (R168, R169) -/

/-- The seal key of an owner tag; without one loaded, 32 zero bytes (log 6). -/
def State.keyOf (s : State) (tag : Nat) : List Nat := s.keys.get (List.replicate 32 0) tag

/-- The owner tag of a capability's low doubleword. -/
def capOwner (lo : Word) : Nat := bitsOf lo 53 46
def capDev (lo : Word) : Nat := bitsOf lo 63 54
def capKind (lo : Word) : Nat := bitsOf lo 45 44
def capIdx (lo : Word) : Nat := bitsOf lo 43 30
def capCore (lo : Word) : Nat := bitsOf lo 29 29
def capWhole (lo : Word) : Bool := bitAt lo.toNat 28
def capAct (lo : Word) : Nat := bitsOf lo 27 22
def capPorts (lo : Word) : Nat := bitsOf lo 21 18
def capRights (lo : Word) : Nat := bitsOf lo 17 14

/-- Right bits of a capability: send, wake, halt, inspect. -/
def rightSend : Nat := 0
def rightWake : Nat := 1
def rightHalt : Nat := 2
def rightInspect : Nat := 3

def capHas (lo : Word) (right : Nat) : Bool := bitAt (capRights lo) right

/-- The seal of a capability's low doubleword under the key of its OWNER (R168). -/
def State.sealWord (s : State) (lo : Word) : Word := BitVec.ofNat 64 (sealOf (s.keyOf (capOwner lo)) lo.toNat)

/-- The seal matches and no reserved bit is set (R169). -/
def State.capGenuine (s : State) (lo hi : Word) : Bool := bitsOf lo 13 0 = 0 && hi = s.sealWord lo

/-- A capability's low doubleword from its fields (R168). -/
def capMake (dev owner kind idx core : Nat) (whole : Bool) (act ports rights : Nat) : Word :=
  BitVec.ofNat 64 (dev * 2 ^ 54 + owner * 2 ^ 46 + kind * 2 ^ 44 + idx * 2 ^ 30 + core * 2 ^ 29 +
    natOfBool whole * 2 ^ 28 + act * 2 ^ 22 + ports * 2 ^ 18 + rights * 2 ^ 14)

/-! ### Partitions and the translation of logical tiles (R94, R171) -/

/-- The partition whose owner tag is `tag`, by its table index. -/
def State.partOfTag (s : State) (tag : Nat) : Option Nat :=
  (List.find? (fun e => e.2.valid && e.2.tag = tag) s.parts).map (fun e => e.1)

/-- The member index of partition p in the sharing group of field f (FLDPART.GROUP). -/
def State.memberIndex (s : State) (f p : Nat) : Nat := (s.hubOf f).group.findIdx (· = p)

/-- The field and the key of a capability translation entry of partition p (R171): 65,536 keys per member. -/
def State.cttPlace (s : State) (p kind idx : Nat) : Nat × Nat :=
  let fs := (s.partOf p).fields
  let m := max 1 fs.length
  let f := fs.getD (idx % m) 0
  (f, 16384 * s.memberIndex f p + 4096 * kind + idx / m)

/-- The capability translation entry of a logical tile under an owner tag; zero where there is none. -/
def State.cttEntry (s : State) (tag kind idx : Nat) : Word :=
  match s.partOfTag tag with
  | none => 0
  | some p =>
    let (f, k) := s.cttPlace p kind idx
    (s.hubOf f).ctt.get 0 k

def cttValid (w : Word) : Bool := bitAt w.toNat 63
def cttHold (w : Word) : Bool := bitAt w.toNat 62
def cttOwner (w : Word) : Nat := bitsOf w 61 54
def cttTile (w : Word) : Nat := tileAt (bitsOf w 30 24) (bitsOf w 37 31)

/-- The logical tile of a physical tile under a tag: kind and index, if a binding names it (R171). -/
def State.logicalOf (s : State) (tag tile : Nat) : Option (Nat × Nat) :=
  match s.partOfTag tag with
  | none => none
  | some p =>
    let fs := (s.partOf p).fields
    fs.findSome? (fun f =>
      (s.hubOf f).ctt.findSome? (fun e =>
        if cttValid e.2 && cttOwner e.2 = tag && cttTile e.2 = tile then some (bitsOf e.2 53 52, bitsOf e.2 51 38) else none))

/-- The core that a capability of this device names, by its binding (R171). -/
def State.capCoreId (s : State) (lo : Word) : Option Nat :=
  let e := s.cttEntry (capOwner lo) (capKind lo) (capIdx lo)
  if cttValid e && cttOwner e = capOwner lo then some (2 * cttTile e + capCore lo) else none

/-! ### Ports (R151, R165) -/

def portEnabled (w : Word) : Bool := bitAt w.toNat 63
/-- Port kinds: 0 REQ, 1 RSP, 2 SYS, 3 DATA. -/
def portKind (w : Word) : Nat := bitsOf w 62 61
def portSize (w : Word) : Nat := bitsOf w 60 58
def portDepth (w : Word) : Nat := bitsOf w 57 52 + 1
def portCount (w : Word) : Nat := bitsOf w 51 48
def portOqBase (w : Word) : Nat := 64 * bitsOf w 47 32
def portOqCap (w : Word) : Nat := bitsOf w 31 22
def portAlone (w : Word) : Bool := bitAt w.toNat 21
def portHoff (w : Word) : Nat := bitsOf w 20 0

def Actor.portAt (a : Actor) (p : Nat) : Port := a.ports.get {} p
def Core.actorAt (k : Core) (a : Nat) : Actor := k.actors.get {} a

/-- Messages present in a port (R153). -/
def Port.present (p : Port) : Nat := p.hwPart.length + p.oq.length

/-- The enabled ports of an actor whose kind is `kind`, ascending. -/
def Actor.portsOfKind (a : Actor) (kind : Nat) : List Nat :=
  (List.range 4).filter (fun p => portEnabled (a.portAt p).word && portKind (a.portAt p).word = kind)

/-- PORTM of the enabled ports. -/
def Actor.portMask (a : Actor) : Nat :=
  ((List.range 4).map (fun p => if portEnabled (a.portAt p).word then 2 ^ p else 0)).sum

/-- The system port of an actor: its lowest enabled SYS port (R165). -/
def Actor.systemPort (a : Actor) : Option Nat := (a.portsOfKind 2).head?

/-- Change one actor of a core. -/
def State.updActor (s : State) (core a : Nat) (f : Actor → Actor) : State :=
  s.updCore core (fun k => { k with actors := k.actors.put a (f (k.actorAt a)) })

/-- Change one port of an actor. -/
def State.updPort (s : State) (core a p : Nat) (f : Port → Port) : State :=
  s.updActor core a (fun x => { x with ports := x.ports.put p (f (x.portAt p)) })

/-! ### Messages that the hardware generates (R155, R165) -/

/-- The supervisor capability of a tag's partition, when it verifies (R94, R239). -/
def State.supervisorCap (s : State) (tag : Nat) : Option Word :=
  match s.partOfTag tag with
  | none => none
  | some p =>
    let q := s.partOf p
    if s.capGenuine q.supLo q.supHi && !capWhole q.supLo then some q.supLo else none

/-- Whether a firing of context data `c` at core k is the supervisor actor of its partition (R239). -/
def State.supervises (s : State) (k : Nat) (c : Ctx) : Bool :=
  !c.pool && !c.task &&
    match s.supervisorCap c.tag with
    | none => false
    | some lo => s.capCoreId lo = some k && capAct lo = c.act

/-- The same for the firing of a slot. -/
def State.isSupervisor (s : State) (i : Nat) : Bool := s.supervises (coreOfCtx i) (s.ctxOf i)

/-- The key of a byte of memory: its GPA with the device bits cleared. -/
def gpaKey (g : Nat) : Nat := g % 2 ^ 54

/-- The GPA of a window offset of a tile of this device. -/
def tileGpa (t off : Nat) : Nat := 0x3FF * 2 ^ 54 + tileY t * 2 ^ 45 + tileX t * 2 ^ 38 + off

/-- The handler address of a port of actor a of core k, from the descriptor in the actor table (R155). -/
def Core.handlerIn (c : Core) (mem : Memory) (k a p : Nat) : Nat :=
  bitsAt (mem.readLE (gpaKey (tileGpa (tileOfCore k) (c.actBase + 64 * a))) 8) 59 3 * 8 + 8 * portHoff ((c.actorAt a).portAt p).word

/-- Word 0 of a packet or message with a handler address in its bits 47 to 3 (R155, R237). -/
def withHandlerWord (w : Word) (handler n : Nat) : Word := BitVec.ofNat 64 (w.toNat / 2 ^ 48 * 2 ^ 48 + handler % 2 ^ 48 / 8 * 8 + n % 8)

/-- The handler address of the system port of an actor that a capability names; 0 where it names none. -/
def State.handlerOf (s : State) (lo : Word) : Nat :=
  match s.capCoreId lo with
  | none => 0
  | some k => match ((s.coreOf k).actorAt (capAct lo)).systemPort with
    | some p => (s.coreOf k).handlerIn s.mem k (capAct lo) p
    | none => 0

/-- A hardware message to a port of an actor that a capability names; word 0 takes the handler address at admission (R155). -/
def hwMessage (cls : Nat) (target : Word) (port tag : Nat) (words : List Word) : Msg :=
  { words := BitVec.ofNat 64 (cls * 2 ^ 48 + words.length % 8) :: words, capLo := target, port := port, vn := 2, tag := tag, hw := true }

/-- A hardware message of a field's hub or tiles sets out (R155). -/
def State.postHw (s : State) (f : Nat) (m : Msg) : State := { s with flying := s.flying ++ [{ m with srcCore := 2 * tileOfLocal f 0 }] }

/-- Keep a packet in the 32 most recent of the device (R240). -/
def State.keepRecent (s : State) (m : Msg) : State := { s with recent := (s.recent ++ [m]).drop (s.recent.length - 31) }

/-- The next fault sequence number of a field hub (R237). -/
def State.takeSeq (s : State) (f : Nat) : Nat × State :=
  ((s.hubOf f).fseq, s.updHub f (fun h => { h with fseq := (h.fseq + 1) % 2 ^ 32 }))

/-- A message that platform firmware takes (R165, R239). -/
def State.toFirmware (s : State) (m : Msg) : State := { s with plat := s.plat ++ [{ m with platform := true }] }

/-- Send a new fault packet to platform firmware (R239). -/
def State.toPlatform (s : State) (m : Msg) : State := (s.toFirmware m).keepRecent m

/-- Word 1 of a fault packet (R237). -/
def packetWord1 (cause kind : Nat) (slotA gpa : Bool) (op tag seq : Nat) : Word :=
  BitVec.ofNat 64 (cause * 2 ^ 56 + kind * 2 ^ 48 + natOfBool slotA * 2 ^ 47 + natOfBool gpa * 2 ^ 46 + op * 2 ^ 42 + tag * 2 ^ 32 + seq)

/-- Word 2 of a packet about a firing of context data `c` that holds or last held context i (R237). -/
def State.firingWord2 (s : State) (i : Nat) (c : Ctx) : Word :=
  let t := tileOfCtx i
  let (kind, idx) := if c.tag = 0 then (0, 0) else (s.logicalOf c.tag t).getD (0, 0)
  BitVec.ofNat 64 (kind * 2 ^ 62 + idx * 2 ^ 48 + i / 8 % 2 * 2 ^ 47 + i % 8 * 2 ^ 44 +
    (if c.pool || c.task then 0 else c.act) * 2 ^ 38 + natOfBool c.pool * 2 ^ 37 + natOfBool c.task * 2 ^ 36 + tileY t * 2 ^ 29 + tileX t * 2 ^ 22)

/-- The same for the firing of a slot. -/
def State.packetWord2 (s : State) (i : Nat) : Word := s.firingWord2 i (s.ctxOf i)

/-- An event frame to session 0 and to the sessions of the tags concerned; the event count advances once (R86). -/
def State.eventFrame (s : State) (tags : List Nat) (body : List Nat) : State :=
  let to_ := s.loith.sessions.filter (fun e => e.2.valid && (e.1 = 0 || tags.contains e.2.tag))
  let frames : List Frame := to_.map (fun e => { session := e.1, seq := s.loith.events + 1, opcode := 0xC000, device := s.loith.device, body := body, rtime := s.rtime })
  { s with loith := { s.loith with events := s.loith.events + 1, out := s.loith.out ++ frames } }

/-- A platform event: a packet of kind 2 from a field hub with the items its rule names (R237). Causes 0xB0 to 0xBF are event frames as well (R86). -/
def State.report (s0 : State) (f : Nat) (cause : Cause) (tag : Nat) (items : List Nat) (tags : List Nat := [tag]) : State :=
  let (seq, s1) := s0.takeSeq f
  let s := if 0xB0 ≤ cause ∧ cause ≤ 0xBF then s1.eventFrame tags ((([3, cause] ++ items).map (leBytes 8)).flatten) else s1
  let items := (items ++ List.replicate 5 0).take 5
  let words : List Word := BitVec.ofNat 64 ((0xFE00 + cause) * 2 ^ 48 + 7) :: packetWord1 cause 2 false false 0 tag seq ::
    (items.map (BitVec.ofNat 64) ++ [s.rtimeWord])
  s.toPlatform { words := words, tag := tag, hw := true, vn := 2 }

/-- The same event to the supervisor of a partition, where the rule names it (R239, R253). -/
def State.reportTo (s : State) (f : Nat) (cause : Cause) (tag : Nat) (items : List Nat) : State :=
  match s.supervisorCap tag with
  | none => s
  | some lo =>
    let (seq, s) := s.takeSeq f
    let items := (items ++ List.replicate 5 0).take 5
    let m := hwMessage (0xFE00 + cause) lo 4 tag (packetWord1 cause 2 false false 0 tag seq :: items.map (BitVec.ofNat 64) ++ [s.rtimeWord])
    (s.postHw f m).keepRecent { m with words := withHandlerWord (m.words.getD 0 0) (s.handlerOf lo) 7 :: m.words.drop 1 }

/-- The packet of kind 0, 1 or 3 about a firing of context data `c` goes to the fault port of its partition, or to the platform (R239); the page of
context i keeps one of kind 0 (R241). The port number 4 stands for the system port. `gpa`: word 4 holds a GPA. -/
def State.postFor (s : State) (i : Nat) (c : Ctx) (kind : Nat) (cause : Cause) (slotA gpa : Bool) (op : Nat) (pc : Word) (addr synd cursor : Nat) : State :=
  let f := fieldOfCtx i
  let (seq, s1) := s.takeSeq f
  let words : List Word := [packetWord1 cause kind slotA gpa op c.tag seq, s.firingWord2 i c, pc, BitVec.ofNat 64 addr,
    BitVec.ofNat 64 synd, BitVec.ofNat 64 cursor, s.rtimeWord]
  let first : Word := BitVec.ofNat 64 ((0xFE00 + cause) * 2 ^ 48 + 7)
  let plat : Msg := { words := first :: words, tag := c.tag, hw := true, vn := 2 }
  let keep := fun (s : State) (w : Word) => if kind = 0 then s.updDbg i (fun d => { d with fpkt := w :: words }) else s
  if c.tag = 0 || s.supervises (coreOfCtx i) c then (keep s1 first).toPlatform plat
  else match s.supervisorCap c.tag with
    | none => ((keep s1 first).toPlatform plat).report f .noSupervisor c.tag []
    | some lo =>
      let w := withHandlerWord first (s.handlerOf lo) 7
      ((keep s1 w).postHw f (hwMessage (0xFE00 + cause) lo 4 c.tag words)).keepRecent { plat with words := w :: words }

/-- The packet about the firing of a slot. -/
def State.postPacket (s : State) (i kind : Nat) (cause : Cause) (slotA : Bool) (op : Nat) (pc : Word) (addr synd cursor : Nat) (gpa : Bool := false) : State :=
  s.postFor i (s.ctxOf i) kind cause slotA gpa op pc addr synd cursor

/-- The packet of a freeze; when the supervisor itself freezes, the platform also receives `SUP_FROZEN`, which has no data items (R237, R239). -/
def State.postFreeze (s : State) (i : Nat) (c : Ctx) (cause : Cause) (slotA gpa : Bool) (addr synd : Nat) : State :=
  let s1 := s.postFor i c 0 cause slotA gpa 0 c.pc addr synd 0
  if s.supervises (coreOfCtx i) c then s1.report (fieldOfCtx i) .supFrozen c.tag [] else s1

/-! ### Taking a fault (R235) and its return (R242) -/

/-- Where and why a fault is raised: the cause, its slot, the fault address and the syndrome (R237, R238). -/
structure FaultAt where
  cause : Cause
  slotA : Bool := false
  addr : Nat := 0
  synd : Nat := 0
  /-- The fault address is a GPA. -/
  gpa : Bool := false
  deriving DecidableEq, Repr

/-- The context's own part of a freeze (R235): the PC stays at the faulting bundle, the state becomes frozen with the cause,
and an open section ends. A stalled arrival releases again (R228). What the A slot of a waiting `done` did stands (R309). -/
def Ctx.frozen (c : Ctx) (cause : Cause) : Ctx :=
  { c with st := 1, cause := cause, np := false, frozenPc := c.pc, hold := none, reply := none, stall := none, reported := false,
           stepping := false, refusedArr := false }

/-- A firing waits in no barrier object any more (R233). -/
def State.leaveBarriers (s : State) (n : Nat) : State :=
  if s.hubs.any (fun e => e.2.barriers.any (fun b => b.2.waiters.any (fun w => w.1 = n))) then
    { s with hubs := s.hubs.map (fun e => (e.1, { e.2 with barriers := e.2.barriers.map (fun b => (b.1, { b.2 with waiters := b.2.waiters.filter (fun w => w.1 ≠ n) })) })) }
  else s

/-- A firing leaves the semaphore queues of its tile and the barriers that it waits at (R198, R233). -/
def State.leaveSemQueues (s : State) (i : Nat) : State :=
  let n := (s.ctxOf i).firing
  (s.updTile (tileOfCtx i) (fun t => { t with semq := t.semq.map (fun e => (e.1, e.2.filter (fun w => w.2.1 ≠ n))) })).leaveBarriers n

/-- Take a fault: the context freezes where it stands, and a packet of kind 0 goes to the supervisor (R235, R237, R239). -/
def State.freeze (s0 : State) (i : Nat) (e : FaultAt) : State :=
  let s := if 0xA0 ≤ e.cause ∧ e.cause ≤ 0xA7 then { s0 with latent := none } else s0
  ((s.leaveSemQueues i).updCtx i (fun c => { c.frozen e.cause with haltAt := s.rtime })).postFreeze i (s.ctxOf i) e.cause e.slotA e.gpa e.addr e.synd

/-- A fault of the issuing bundle's C slot, or of a wide instruction. -/
def State.faultC (s : State) (cause : Cause) (addr synd : Nat := 0) : Out :=
  .next (s.freeze s.cur { cause := cause, slotA := false, addr := addr, synd := synd })

/-- A fault of the issuing bundle's A slot. -/
def State.faultA (s : State) (cause : Cause) (addr synd : Nat := 0) : Out :=
  .next (s.freeze s.cur { cause := cause, slotA := true, addr := addr, synd := synd })

/-- Return from a freeze (R242): the context runs again from its PC. -/
def State.unfreeze (s : State) (i : Nat) (pc : Word) (step : Bool) : State :=
  s.updCtx i (fun c => { c with st := 0, pc := pc, stepping := step, stall := none, hold := none, reply := none })

end Sys2Proof.Machine
end

