-- ==== Sys2Proof/Machine/Count.lean ====
section
/-! DEFINITION. Performance counters: R100 to R103. -/

namespace Sys2Proof.Machine

/-- A counter after n occurrences of an event; past its last value it wraps at `COUNTER_OVERFLOW`, in the same step. -/
def Counter.count (c : Counter) (ev n : Nat) : Counter := if c.en && c.event = ev then { c with value := c.value + n } else c

/-- A core's counters after an event of context number `c`, or of no context (R100). They stand still during a relock. -/
def State.countCore (s : State) (core : Nat) (c : Option Nat) (ev n : Nat) : State :=
  if n = 0 || (s.hubOf (fieldOfTile (tileOfCore core))).locking.isSome || (s.coreOf core).counters.isEmpty then s
  else s.updCore core (fun k => { k with counters := k.counters.map (fun e => (e.1,
    if (match c with | some i => bitAt e.2.ctxm i | none => decide (e.2.ctxm ≠ 0)) then e.2.count ev n else e.2)) })

/-- A slice's counters after accesses of an owner tag (R101). -/
def State.countSlice (s : State) (tile tag ev n : Nat) : State :=
  if (s.hubOf (fieldOfTile tile)).locking.isSome || (s.tileOf tile).sliceCounters.isEmpty then s
  else s.updTile tile (fun t => { t with sliceCounters := t.sliceCounters.map (fun e => (e.1, if e.2.tag = tag then e.2.count ev n else e.2)) })

/-- A field's fabric counters (R101). -/
def State.countFabric (s : State) (f ev n : Nat) : State :=
  if (s.hubOf f).locking.isSome || (s.hubOf f).counters.isEmpty then s
  else s.updHub f (fun h => { h with counters := h.counters.map (fun e => (e.1, e.2.count ev n)) })

/-- The counters of a source: 0 a core, 1 a tile's slice, 2 a field. -/
def State.countersOf (s : State) (kind unit : Nat) : KMap Counter :=
  match kind with
  | 0 => (s.coreOf unit).counters
  | 1 => (s.tileOf unit).sliceCounters
  | _ => (s.hubOf unit).counters

/-- Change a counter of a source. -/
def State.updCounter (s : State) (kind unit n : Nat) (g : Counter → Counter) : State :=
  match kind with
  | 0 => s.updCore unit (fun k => { k with counters := k.counters.put n (g (k.counters.get {} n)) })
  | 1 => s.updTile unit (fun t => { t with sliceCounters := t.sliceCounters.put n (g (t.sliceCounters.get {} n)) })
  | _ => s.updHub unit (fun h => { h with counters := h.counters.put n (g (h.counters.get {} n)) })

/-- The message of a wrap to the supervisor of the running partition (R103); where its capability does not verify, to platform firmware (R165). -/
def State.wrapMessage (s : State) (kind unit n : Nat) (c : Counter) : State :=
  let t := if kind = 0 then tileOfCore unit else unit
  let tag := (s.hubOf (fieldOfTile t)).runTag
  let src := if kind = 0 then unit % 2 else 2
  let words : List Word := [BitVec.ofNat 64 (src * 2 ^ 56 + n * 2 ^ 48 + c.event * 2 ^ 40 + tileY t * 2 ^ 8 + tileX t), BitVec.ofNat 64 (c.wrapAt.getD s.rtime)]
  match s.partOfTag tag with
  | none => s.toFirmware (hwMessage 0xFF88 0 0 tag words)
  | some p => match s.supervisorCap tag with
    | some lo => s.postHw (fieldOfTile t) (hwMessage 0xFF88 lo (s.partOf p).cntport tag words)
    | none => (s.toFirmware (hwMessage 0xFF88 0 (s.partOf p).cntport tag words)).report (fieldOfTile t) .noSupervisor tag []

/-- Counters of a source that have passed their last value. -/
def wrapped (m : KMap Counter) : List Nat := (m.filter (fun e => 2 ^ 48 ≤ e.2.value)).map (fun e => e.1)

/-- A counter that has passed its last value wraps, sets OVF, and sends its message (R100, R103). -/
def State.wrapCounter (kind unit : Nat) (s : State) (n : Nat) : State :=
  let c := (s.countersOf kind unit).get {} n
  let s1 := s.updCounter kind unit n (fun c => { c with value := c.value - 2 ^ 48, ovf := true, wrapAt := none })
  if c.omsg && kind < 2 then s1.wrapMessage kind unit n c else s1

/-- Every counter that has passed its last value in a step wraps in that step. -/
def State.wrapAll (s : State) : State :=
  let s1 := s.cores.foldl (fun s e => (wrapped e.2.counters).foldl (State.wrapCounter 0 e.1) s) s
  let s2 := s.tiles.foldl (fun s e => (wrapped e.2.sliceCounters).foldl (State.wrapCounter 1 e.1) s) s1
  s.hubs.foldl (fun s e => (wrapped e.2.counters).foldl (State.wrapCounter 2 e.1) s) s2

/-- `COUNTER_OVERFLOW` of counter `other` of unit `unit`; `level` 0 names a core, 1 a tile's slice, 2 a field (R100, R103). -/
def execCounterOverflow (s : State) : Out :=
  let kind := s.arg.level
  let c := (s.countersOf kind s.arg.unit).get {} s.arg.other
  if c.value < 2 ^ 48 then .next s
  else .next (State.wrapCounter kind s.arg.unit s s.arg.other)

end Sys2Proof.Machine
end

