-- ==== Sys2Proof/WellFormed.lean ====
section
/-! DEFINITION. Well-formed instructions: steps 2 to 4 of R276. A failed step gives its cause. -/

namespace Sys2Proof

/-- A scope code of R208: 6 and 7 are reserved (R277). -/
def scopeCode (sc : BitVec 3) : Bool := sc.toNat < 6

/-- A rounding-mode code: 5 and 6 are reserved (R277). -/
def roundCode (rm : BitVec 3) : Bool := rm.toNat ≠ 5 && rm.toNat ≠ 6

/-- A register field that names a `v` register (R277). -/
def vectorReg (r : BitVec 5) : Bool := r.toNat < 16

/-- A register field that names a capability pair: even, and 2 to 30 (R323). -/
def pairReg (r : BitVec 5) : Bool := r.toNat % 2 = 0 && r.toNat ≠ 0

/-- A register field that names a pair, or 0 for none (R324, R392, R405). -/
def pairOrNone (r : BitVec 5) : Bool := r.toNat % 2 = 0

/-- REL 7 is reserved (R324). -/
def relCode (opt : BitVec 9) : Bool := opt.toNat / 64 ≠ 7

/-- FORM 3 is reserved (R324). -/
def formCode (opt : BitVec 9) : Bool := opt.toNat % 4 ≠ 3

/-- A float lane type, FP32 or BF16 (R277). -/
def floatLane (t : BitVec 2) : Bool := t.toNat < 2

/-- KM must be zero when ME is (R277). -/
def maskField (me : BitVec 1) (km : BitVec 3) : Bool := me = 1 || km = 0

/-- The MOD values of lane arithmetic that some reading of R349 and R354 defines for the type. -/
def arithMod (t : BitVec 2) (mod : BitVec 3) : Bool :=
  if floatLane t then roundCode mod else mod.toNat % 2 = 1 || mod.toNat = 0

/-- The MOD values that R362 does not reserve, for an operation number `op`. -/
def reduceMod (op : Nat) (t : BitVec 2) (mod : BitVec 3) : Bool :=
  if op = 0 then !floatLane t || roundCode mod else mod = 0

/-- A two-operand AR form that does not round. -/
def arBinary (f : FmtAR) : Bool := f.xc = 0 && f.rm = 0 && f.tr = 0

/-- A one-operand AR form that does not round. -/
def arUnary (f : FmtAR) : Bool := f.xb = 0 && arBinary f

/-- A two-operand AR form that rounds. -/
def arRound (f : FmtAR) : Bool := f.xc = 0 && roundCode f.rm && f.tr = 0

/-- An AV form whose MOD and SUB are unused. -/
def avPlain (f : FmtAV) : Bool := maskField f.me f.km && f.mod = 0 && f.sub = 0

/-- An AVX form whose MOD and SUB are unused. -/
def avxPlain (f : FmtAVX) : Bool := maskField f.me f.km && f.mod = 0 && f.sub = 0

/-- The special functions of R361. -/
def avFunction (f : FmtAV) : Bool :=
  maskField f.me f.km && f.vb = 0 && roundCode f.mod && f.sub.toNat < 2

/-- The completion fields of an operation: the four combinations of R392. -/
def completionFields (f : FmtWE) : Bool :=
  f.opt = 0 && f.ext.toNat < 64 &&
    (if f.xc = 0 then f.xb = 0 && f.ext = 0
     else if f.xb = 0 then f.ext = 0
     else if f.ext.toNat / 4 % 2 = 1 then f.ext.toNat % 4 = 0
     else f.ext.toNat / 8 = 0)

/-- R276 step 2: zero fields, unused fields and reserved values. -/
def reservedOk : Instr → Bool
  | .callr f => f.xb = 0 && f.opt = 0
  | .jr f => f.xd = 0 && f.xb = 0 && f.opt = 0
  | .wait f => f.xb = 0 && f.opt.toNat < 3
  | .pf f => f.rt = 0
  | .ldAcq f | .stRel f => scopeCode f.sc
  | .fence f => scopeCode f.sc
  | .ldBIndexed f | .ldBuIndexed f | .ldHIndexed f | .ldHuIndexed f | .ldWIndexed f | .ldWuIndexed f | .ldDIndexed f
  | .stBIndexed f | .stHIndexed f | .stWIndexed f | .stDIndexed f | .ldVIndexed f | .stVIndexed f => f.t = 0
  | .barArr f | .barArrx f | .barWt f | .barTst f | .capNarrow f | .pipLend f => f.opt = 0
  | .semPost f | .semWt f => f.xd = 0 && f.xb = 0 && f.opt.toNat < 8
  | .amoAdd f | .amoAnd f | .amoOr f | .amoXor f | .amoMin f | .amoMax f | .amoMinu f | .amoMaxu f | .amoSwap f => f.xc = 0
  | .amoFaddS f => f.xc = 0 && f.sz = 0
  | .redAdd f => f.xd = 0 && f.xc = 0
  | .redFaddS f | .redFaddH f => f.xd = 0 && f.xc = 0 && f.sz = 0
  | .send f => relCode f.opt && formCode f.opt
  | .sendr f => relCode f.opt && formCode f.opt && f.opt.toNat / 4 % 16 = 0
  | .sendSys f => relCode f.opt && formCode f.opt && f.opt.toNat / 16 % 4 = 0
  | .peek f | .mdrop f => f.xb = 0 && f.opt.toNat < 4
  | .mtake f => f.xb = 0 && f.opt.toNat < 8
  | .mcnt f | .strStat f => f.xa = 0 && f.xb = 0 && f.opt.toNat < 4
  | .capMint f | .wlStat f => f.xb = 0 && f.opt = 0
  | .capSelf f | .pipStat f => f.xa = 0 && f.xb = 0 && f.opt = 0
  | .wake f | .halt f | .actDel f => f.xd = 0 && f.xa = 0 && f.opt = 0
  | .actNew f => f.opt.toNat < 2 && (f.opt = 0 || f.xb = 0)
  | .spawn f => f.xd = 0 && f.xb = 0 && relCode f.opt && f.opt.toNat % 64 = 0
  | .strBind f => f.xd = 0 && f.xb = 0 && f.opt.toNat < 4
  | .strFree f => f.xd = 0 && f.xa = 0 && f.xb = 0 && f.opt.toNat < 4
  | .pipReq f => f.xd = 0 && f.xb = 0 && f.opt.toNat < 8
  | .pipRel f | .cln f | .lutLd f => f.xd = 0 && f.xb = 0 && f.opt = 0
  | .inv f => f.xd = 0 && f.xb = 0 && f.opt.toNat < 2
  | .add f | .sub f | .mul f | .mulh f | .mulhu f | .and f | .or f | .xor f | .andn f | .orn f | .shl f | .shr f | .sra f
  | .rol f | .min f | .max f | .minu f | .maxu f | .slt f | .sltu f | .seq f
  | .fminS f | .fmaxS f | .feqS f | .fltS f | .fleS f | .fsgnjS f
  | .fminH f | .fmaxH f | .feqH f | .fltH f | .fleH f | .fsgnjH f => arBinary f
  | .div f | .divu f | .rem f | .remu f => f.xc = 0 && f.rm = 0
  | .sel f => f.rm = 0 && f.tr = 0
  | .clz f | .ctz f | .popc f | .bswap f | .sextB f | .sextH f | .sextW f | .zextB f | .zextH f | .zextW f
  | .fclassS f | .fclassH f | .fcvtSH f => arUnary f
  | .faddS f | .fsubS f | .fmulS f | .faddH f | .fsubH f | .fmulH f => arRound f
  | .fmaS f | .fmaH f => roundCode f.rm && f.tr = 0
  | .fcvtSW f | .fcvtHS f => f.xb = 0 && arRound f
  | .fcvtWS f => f.xb = 0 && f.xc = 0 && roundCode f.rm
  | .vadd f | .vsub f | .vmul f | .vfma f => maskField f.me f.km && arithMod f.t f.mod && f.sub.toNat < 2
  | .vaddScalar f | .vsubScalar f | .vmulScalar f | .vfmaScalar f =>
      maskField f.me f.km && arithMod f.t f.mod && f.sub.toNat < 2
  | .vmin f | .vmax f => maskField f.me f.km && f.sub = 0 && (f.mod = 0 || f.mod = 2)
  | .vminScalar f | .vmaxScalar f => maskField f.me f.km && f.sub = 0 && (f.mod = 0 || f.mod = 2)
  | .vabs f | .vneg f =>
      maskField f.me f.km && f.vb = 0 && f.sub = 0 && (f.mod = 0 || f.mod = 1 || f.mod = 5)
  | .vand f | .vor f | .vxor f | .vshl f | .vshr f | .vsra f | .vperm f => avPlain f
  | .vandScalar f | .vorScalar f | .vxorScalar f | .vshlScalar f | .vshrScalar f | .vsraScalar f => avxPlain f
  | .vcmp f => maskField f.me f.km && f.sub = 0
  | .vcmpScalar f => maskField f.me f.km && f.sub = 0
  | .vsel f => f.me = 1 && f.mod = 0 && f.sub = 0
  | .vselScalar f => f.me = 1 && f.mod = 0 && f.sub = 0
  | .vcvt f => maskField f.me f.km && roundCode f.mod
  | .vred f => maskField f.me f.km && f.imm.toNat < 8 && reduceMod f.imm.toNat f.t f.mod
  | .vscan f => maskField f.me f.km && f.vb = 0 && f.sub.toNat < 5 && reduceMod f.sub.toNat f.t f.mod
  | .vbcast f => avxPlain f && f.va = 0
  | .vext f => f.me = 0 && f.km = 0 && f.mod = 0
  | .vdot4 f => maskField f.me f.km && f.sub = 0
  | .vdot4Scalar f => maskField f.me f.km && f.sub = 0
  | .vexp2 f | .vlog2 f | .vrcp f | .vrsqrt f | .vsqrt f | .vtanh f => avFunction f
  | .vmov f | .vpopc f => avPlain f && f.vb = 0
  | .liDHi f => f.immh = 0 && f.imml.toNat < 2 ^ 16
  | .farBz f | .farBnz f => f.xb = 0
  | .mma f | .mmaRing f => f.opt.toNat < 32 && f.ext.toNat < 128
  | .mxLdb f => f.xc = 0 && (f.opt = 0 || f.opt = 4) && f.ext = 0
  | .accZero f => f.xa = 0 && f.xb = 0 && f.xc = 0 && f.opt.toNat < 4 && f.ext = 0
  | .accLd f => f.xc = 0 && f.opt.toNat < 4 && f.ext = 0
  | .accSt f =>
      f.xc = 0 && f.opt.toNat < 128 && f.opt.toNat / 4 % 2 = 0 && f.ext = 0 &&
        f.opt.toNat / 16 ≠ 5 && f.opt.toNat / 16 ≠ 6
  | .accProm f => f.xa = 0 && f.xb = 0 && f.xc = 0 && f.opt.toNat < 16 && f.opt.toNat / 4 % 2 = 0 && f.ext = 0
  | .attQk f =>
      f.opt.toNat < 2 && f.ext.toNat / 2 ^ 13 % 8 = 0 && f.ext.toNat < 2 ^ 23 &&
        (f.opt = 1 || (f.xc = 0 && f.ext.toNat % 2 ^ 13 = 0))
  | .attSm f | .attFin f => f.opt.toNat < 2 && f.ext = 0 && (f.opt = 1 || f.xc = 0)
  | .attPv f => f.xc = 0 && f.opt = 0 && f.ext = 0
  | .spMm f => f.opt.toNat < 4 && f.ext.toNat < 2 ^ 12
  | .spBm f => f.xb = 0 && f.xc = 0 && (f.opt = 0 || f.opt = 2) && f.ext.toNat < 2
  | .spDrop f | .spGrow f => f.opt = 0 && f.ext.toNat < 2 ^ 13
  | .spCnt f => f.xb = 0 && f.xc = 0 && f.opt.toNat < 8 && f.ext = 0
  | .gath f | .gathIx f | .scat f | .embBag f | .cp f | .cpMc f => completionFields f
  | .wlPush f | .wlInsd f | .launch f => f.opt.toNat < 2 && f.ext = 0
  | .wlPopb f => f.opt = 0 && f.ext = 0
  | .barInit f =>
      f.xc = 0 && f.opt.toNat < 16 && f.opt.toNat % 8 < 6 && f.ext.toNat < 2 ^ 16
  | _ => true

/-- R276 step 3: register fields. -/
def registersOk : Instr → Bool
  | .ldV f | .stV f | .ldVt f | .stVt f => vectorReg f.rt
  | .ldVIndexed f | .stVIndexed f | .ldVtIndexed f | .stVtIndexed f => vectorReg f.rt
  | .send f | .sendSys f => vectorReg f.xa && pairReg f.xb
  | .sendr f => vectorReg f.xa && pairOrNone f.xb
  | .mtake f => f.xd.toNat < 15
  | .capMint f | .capSelf f => pairReg f.xd
  | .capNarrow f => pairReg f.xd && pairReg f.xa
  | .wake f | .halt f | .actDel f => pairReg f.xb
  | .actNew f => pairReg f.xd && pairOrNone f.xb
  | .spawn f => vectorReg f.xa
  | .vcmp f => f.vd.toNat < 8
  | .vcmpScalar f => f.vd.toNat < 8
  | .vadd f | .vsub f | .vmul f | .vfma f =>
      f.sub.toNat % 2 = 0 || (f.vd.toNat % 2 = 0 && f.va.toNat % 2 = 0 && f.vb.toNat % 2 = 0)
  | .vaddScalar f | .vsubScalar f | .vmulScalar f | .vfmaScalar f =>
      f.sub.toNat % 2 = 0 || (f.vd.toNat % 2 = 0 && f.va.toNat % 2 = 0)
  | .gath f | .gathIx f | .scat f | .embBag f | .cp f | .cpMc f | .launch f => pairOrNone f.xb
  | _ => true

/-- The lanes of a type in short mode (R347). -/
def lanesShort (t : BitVec 2) : Nat :=
  match t with
  | 0 => 8
  | 1 => 16
  | 2 => 32
  | 3 => 8

/-- The ratio r of R360; long mode has eight times the lanes of both types, so it is the same in both modes. -/
def convertParts (t d : BitVec 2) : Nat :=
  max (lanesShort t) (lanesShort d) / min (lanesShort t) (lanesShort d)

/-- R276 step 4: immediates whose range does not depend on the mode. -/
def immediatesOk : Instr → Bool
  | .shli f | .shri f | .srai f => f.imm.toNat < 64
  | .vcvt f => f.vb.toNat < convertParts f.t (f.sub.extractLsb' 0 2)
  | .mma f | .mmaRing f => f.ext.toNat ≤ 64
  | _ => true

/-- Steps 2 to 4 of R276 in order: the cause of the first that fails. -/
def check (i : Instr) : Option Cause :=
  if !reservedOk i then some .reservedField
  else if !registersOk i then some .badRegister
  else if !immediatesOk i then some .immRange
  else none

/-- A well-formed instruction passes steps 2 to 4 of R276. -/
def wf (i : Instr) : Bool := check i = none

end Sys2Proof
end

