-- ==== Sys2Proof/Decode.lean ====
section
/-! DEFINITION. The decoder and the encoder of bundles (R275 to R285). A word is a natural number below 2^32. -/

namespace Sys2Proof

/-- The words of one instruction: a C-slot word, an A-slot word, or the two words of a wide bundle (R275). -/
inductive Words where
  | c (w : Nat)
  | a (w : Nat)
  | wide (w0 w1 : Nat)
  deriving DecidableEq, Repr

/-- Bits `lo + n - 1` to `lo` of a word, as an `n`-bit field. -/
def bitField (n lo w : Nat) : BitVec n := BitVec.ofNat n (w / 2 ^ lo)

/-- A slot word from its opcode and bits 23 to 0. -/
def slotWord (op body : Nat) : Option Nat := some (op * 2 ^ 24 + body)

/-- The words of a wide bundle from W and its opcode, bits 23 to 0 of word 0, and word 1. -/
def wideWords (op body w1 : Nat) : Option (Nat × Nat) := some (op * 2 ^ 24 + body, w1)

/-- Bits 23 to 0 of a word in format CU. -/
def FmtCU.enc (f : FmtCU) : Nat := f.imm.toNat

/-- The fields of a word in format CU. -/
def FmtCU.dec (w : Nat) : FmtCU := ⟨bitField 24 0 w⟩

/-- Bits 23 to 0 of a word in format CJ. -/
def FmtCJ.enc (f : FmtCJ) : Nat := f.off.toNat

/-- The fields of a word in format CJ. -/
def FmtCJ.dec (w : Nat) : FmtCJ := ⟨bitField 24 0 w⟩

/-- Bits 23 to 0 of a word in format CZ. -/
def FmtCZ.enc (f : FmtCZ) : Nat := f.xa.toNat * 2 ^ 19 + f.off.toNat

/-- The fields of a word in format CZ. -/
def FmtCZ.dec (w : Nat) : FmtCZ := ⟨bitField 5 19 w, bitField 19 0 w⟩

/-- Bits 23 to 0 of a word in format CB. -/
def FmtCB.enc (f : FmtCB) : Nat := f.xa.toNat * 2 ^ 19 + f.xb.toNat * 2 ^ 14 + f.off.toNat

/-- The fields of a word in format CB. -/
def FmtCB.dec (w : Nat) : FmtCB := ⟨bitField 5 19 w, bitField 5 14 w, bitField 14 0 w⟩

/-- Bits 23 to 0 of a word in format CR. -/
def FmtCR.enc (f : FmtCR) : Nat := f.xd.toNat * 2 ^ 19 + f.xa.toNat * 2 ^ 14 + f.xb.toNat * 2 ^ 9 + f.opt.toNat

/-- The fields of a word in format CR. -/
def FmtCR.dec (w : Nat) : FmtCR := ⟨bitField 5 19 w, bitField 5 14 w, bitField 5 9 w, bitField 9 0 w⟩

/-- Bits 23 to 0 of a word in format CM. -/
def FmtCM.enc (f : FmtCM) : Nat := f.rt.toNat * 2 ^ 19 + f.base.toNat * 2 ^ 14 + f.disp.toNat

/-- The fields of a word in format CM. -/
def FmtCM.dec (w : Nat) : FmtCM := ⟨bitField 5 19 w, bitField 5 14 w, bitField 14 0 w⟩

/-- Bits 23 to 0 of a word in format CX. -/
def FmtCX.enc (f : FmtCX) : Nat := f.rt.toNat * 2 ^ 19 + f.base.toNat * 2 ^ 14 + f.idx.toNat * 2 ^ 9 + f.sh.toNat * 2 ^ 7 + f.t.toNat * 2 ^ 5

/-- The fields of a word in format CX. -/
def FmtCX.dec (w : Nat) : FmtCX := ⟨bitField 5 19 w, bitField 5 14 w, bitField 5 9 w, bitField 2 7 w, bitField 2 5 w⟩

/-- Bits 23 to 0 of a word in format CMS. -/
def FmtCMS.enc (f : FmtCMS) : Nat := f.rt.toNat * 2 ^ 19 + f.base.toNat * 2 ^ 14 + f.sc.toNat * 2 ^ 11 + f.sz.toNat * 2 ^ 10 + f.disp.toNat

/-- The fields of a word in format CMS. -/
def FmtCMS.dec (w : Nat) : FmtCMS := ⟨bitField 5 19 w, bitField 5 14 w, bitField 3 11 w, bitField 1 10 w, bitField 10 0 w⟩

/-- Bits 23 to 0 of a word in format CA. -/
def FmtCA.enc (f : FmtCA) : Nat := f.xd.toNat * 2 ^ 19 + f.base.toNat * 2 ^ 14 + f.xb.toNat * 2 ^ 9 + f.xc.toNat * 2 ^ 4 + f.sz.toNat * 2 ^ 3

/-- The fields of a word in format CA. -/
def FmtCA.dec (w : Nat) : FmtCA := ⟨bitField 5 19 w, bitField 5 14 w, bitField 5 9 w, bitField 5 4 w, bitField 1 3 w⟩

/-- Bits 23 to 0 of a word in format CF. -/
def FmtCF.enc (f : FmtCF) : Nat := f.xd.toNat * 2 ^ 19 + f.sc.toNat * 2 ^ 16

/-- The fields of a word in format CF. -/
def FmtCF.dec (w : Nat) : FmtCF := ⟨bitField 5 19 w, bitField 3 16 w⟩

/-- Bits 23 to 0 of a word in format CS. -/
def FmtCS.enc (f : FmtCS) : Nat := f.x.toNat * 2 ^ 19 + f.spr.toNat * 2 ^ 13

/-- The fields of a word in format CS. -/
def FmtCS.dec (w : Nat) : FmtCS := ⟨bitField 5 19 w, bitField 6 13 w⟩

/-- Bits 23 to 0 of a word in format CL. -/
def FmtCL.enc (f : FmtCL) : Nat := f.xa.toNat * 2 ^ 19 + f.lenm1.toNat * 2 ^ 11

/-- The fields of a word in format CL. -/
def FmtCL.dec (w : Nat) : FmtCL := ⟨bitField 5 19 w, bitField 8 11 w⟩

/-- Bits 23 to 0 of a word in format CLI. -/
def FmtCLI.enc (f : FmtCLI) : Nat := f.count.toNat * 2 ^ 8 + f.lenm1.toNat

/-- The fields of a word in format CLI. -/
def FmtCLI.dec (w : Nat) : FmtCLI := ⟨bitField 16 8 w, bitField 8 0 w⟩

/-- Bits 23 to 0 of a word in format AR. -/
def FmtAR.enc (f : FmtAR) : Nat := f.xd.toNat * 2 ^ 19 + f.xa.toNat * 2 ^ 14 + f.xb.toNat * 2 ^ 9 + f.xc.toNat * 2 ^ 4 + f.rm.toNat * 2 ^ 1 + f.tr.toNat

/-- The fields of a word in format AR. -/
def FmtAR.dec (w : Nat) : FmtAR := ⟨bitField 5 19 w, bitField 5 14 w, bitField 5 9 w, bitField 5 4 w, bitField 3 1 w, bitField 1 0 w⟩

/-- Bits 23 to 0 of a word in format AI. -/
def FmtAI.enc (f : FmtAI) : Nat := f.xd.toNat * 2 ^ 19 + f.xa.toNat * 2 ^ 14 + f.imm.toNat

/-- The fields of a word in format AI. -/
def FmtAI.dec (w : Nat) : FmtAI := ⟨bitField 5 19 w, bitField 5 14 w, bitField 14 0 w⟩

/-- Bits 23 to 0 of a word in format AL. -/
def FmtAL.enc (f : FmtAL) : Nat := f.xd.toNat * 2 ^ 19 + f.imm.toNat

/-- The fields of a word in format AL. -/
def FmtAL.dec (w : Nat) : FmtAL := ⟨bitField 5 19 w, bitField 19 0 w⟩

/-- Bits 23 to 0 of a word in format AV. -/
def FmtAV.enc (f : FmtAV) : Nat := f.vd.toNat * 2 ^ 20 + f.va.toNat * 2 ^ 16 + f.vb.toNat * 2 ^ 12 + f.me.toNat * 2 ^ 11 + f.km.toNat * 2 ^ 8 + f.t.toNat * 2 ^ 6 + f.mod.toNat * 2 ^ 3 + f.sub.toNat

/-- The fields of a word in format AV. -/
def FmtAV.dec (w : Nat) : FmtAV := ⟨bitField 4 20 w, bitField 4 16 w, bitField 4 12 w, bitField 1 11 w, bitField 3 8 w, bitField 2 6 w, bitField 3 3 w, bitField 3 0 w⟩

/-- Bits 23 to 0 of a word in format AVX. -/
def FmtAVX.enc (f : FmtAVX) : Nat := f.vd.toNat * 2 ^ 20 + f.va.toNat * 2 ^ 16 + f.xb.toNat * 2 ^ 11 + f.me.toNat * 2 ^ 10 + f.km.toNat * 2 ^ 7 + f.t.toNat * 2 ^ 5 + f.mod.toNat * 2 ^ 2 + f.sub.toNat

/-- The fields of a word in format AVX. -/
def FmtAVX.dec (w : Nat) : FmtAVX := ⟨bitField 4 20 w, bitField 4 16 w, bitField 5 11 w, bitField 1 10 w, bitField 3 7 w, bitField 2 5 w, bitField 3 2 w, bitField 2 0 w⟩

/-- Bits 23 to 0 of a word in format AVI. -/
def FmtAVI.enc (f : FmtAVI) : Nat := f.vd.toNat * 2 ^ 20 + f.va.toNat * 2 ^ 16 + f.xb.toNat * 2 ^ 11 + f.imm.toNat * 2 ^ 5 + f.t.toNat * 2 ^ 3

/-- The fields of a word in format AVI. -/
def FmtAVI.dec (w : Nat) : FmtAVI := ⟨bitField 4 20 w, bitField 4 16 w, bitField 5 11 w, bitField 6 5 w, bitField 2 3 w⟩

/-- Bits 23 to 0 of a word in format AVS. -/
def FmtAVS.enc (f : FmtAVS) : Nat := f.xd.toNat * 2 ^ 19 + f.va.toNat * 2 ^ 15 + f.me.toNat * 2 ^ 14 + f.km.toNat * 2 ^ 11 + f.t.toNat * 2 ^ 9 + f.mod.toNat * 2 ^ 6 + f.imm.toNat

/-- The fields of a word in format AVS. -/
def FmtAVS.dec (w : Nat) : FmtAVS := ⟨bitField 5 19 w, bitField 4 15 w, bitField 1 14 w, bitField 3 11 w, bitField 2 9 w, bitField 3 6 w, bitField 6 0 w⟩

/-- Bits 23 to 0 of word 0 in format WL, but for HI. -/
def FmtWL.enc0 (f : FmtWL) : Nat := f.xd.toNat * 2 ^ 19 + f.immh.toNat

/-- The fields of the two words in format WL. -/
def FmtWL.dec (w0 w1 : Nat) : FmtWL := ⟨bitField 5 19 w0, bitField 16 0 w0, bitField 32 0 w1⟩

/-- Bits 23 to 0 of word 0 in format WB, but for COND. -/
def FmtWB.enc0 (f : FmtWB) : Nat := f.xa.toNat * 2 ^ 19 + f.xb.toNat * 2 ^ 14

/-- The fields of the two words in format WB. -/
def FmtWB.dec (w0 w1 : Nat) : FmtWB := ⟨bitField 5 19 w0, bitField 5 14 w0, bitField 32 0 w1⟩

/-- Bits 23 to 0 of word 0 in format WE. -/
def FmtWE.enc0 (f : FmtWE) : Nat :=
  f.xa.toNat * 2 ^ 19 + f.xb.toNat * 2 ^ 14 + f.xc.toNat * 2 ^ 9 + f.opt.toNat

/-- The fields of the two words in format WE. -/
def FmtWE.dec (w0 w1 : Nat) : FmtWE :=
  ⟨bitField 5 19 w0, bitField 5 14 w0, bitField 5 9 w0, bitField 9 0 w0, bitField 32 0 w1⟩


/-- The C-slot instruction whose opcode a word holds, with the fields of its format (R278, R283); `none` where the
opcode is unassigned. -/
def rawC (w : Nat) : Option Instr :=
  match w / 2 ^ 24 % 128 with
  | 0x01 => some (.br (.dec w))
  | 0x02 => some (.beq (.dec w))
  | 0x03 => some (.bne (.dec w))
  | 0x04 => some (.blt (.dec w))
  | 0x05 => some (.bge (.dec w))
  | 0x06 => some (.bltu (.dec w))
  | 0x07 => some (.bgeu (.dec w))
  | 0x08 => some (.bz (.dec w))
  | 0x09 => some (.bnz (.dec w))
  | 0x0A => some (.call (.dec w))
  | 0x0B => some (.callr (.dec w))
  | 0x0C => some (.jr (.dec w))
  | 0x0E => some (.loop (.dec w))
  | 0x0F => some (.loopi (.dec w))
  | 0x11 => some (.wait (.dec w))
  | 0x18 => some (.ldB (.dec w))
  | 0x19 => some (.ldBu (.dec w))
  | 0x1A => some (.ldH (.dec w))
  | 0x1B => some (.ldHu (.dec w))
  | 0x1C => some (.ldW (.dec w))
  | 0x1D => some (.ldWu (.dec w))
  | 0x1E => some (.ldD (.dec w))
  | 0x20 => some (.stB (.dec w))
  | 0x21 => some (.stH (.dec w))
  | 0x22 => some (.stW (.dec w))
  | 0x23 => some (.stD (.dec w))
  | 0x24 => some (.ldAcq (.dec w))
  | 0x25 => some (.stRel (.dec w))
  | 0x26 => some (.ldV (.dec w))
  | 0x27 => some (.stV (.dec w))
  | 0x28 => some (.ldVt (.dec w))
  | 0x29 => some (.stVt (.dec w))
  | 0x2A => some (.pf (.dec w))
  | 0x2B => some (.fence (.dec w))
  | 0x2C => some (.mfs (.dec w))
  | 0x2D => some (.mts (.dec w))
  | 0x38 => some (.ldBIndexed (.dec w))
  | 0x39 => some (.ldBuIndexed (.dec w))
  | 0x3A => some (.ldHIndexed (.dec w))
  | 0x3B => some (.ldHuIndexed (.dec w))
  | 0x3C => some (.ldWIndexed (.dec w))
  | 0x3D => some (.ldWuIndexed (.dec w))
  | 0x3E => some (.ldDIndexed (.dec w))
  | 0x40 => some (.stBIndexed (.dec w))
  | 0x41 => some (.stHIndexed (.dec w))
  | 0x42 => some (.stWIndexed (.dec w))
  | 0x43 => some (.stDIndexed (.dec w))
  | 0x46 => some (.ldVIndexed (.dec w))
  | 0x47 => some (.stVIndexed (.dec w))
  | 0x48 => some (.ldVtIndexed (.dec w))
  | 0x49 => some (.stVtIndexed (.dec w))
  | 0x4A => some (.barArr (.dec w))
  | 0x4B => some (.barArrx (.dec w))
  | 0x4C => some (.barWt (.dec w))
  | 0x4D => some (.barTst (.dec w))
  | 0x4E => some (.semPost (.dec w))
  | 0x4F => some (.semWt (.dec w))
  | 0x50 => some (.amoAdd (.dec w))
  | 0x51 => some (.amoAnd (.dec w))
  | 0x52 => some (.amoOr (.dec w))
  | 0x53 => some (.amoXor (.dec w))
  | 0x54 => some (.amoMin (.dec w))
  | 0x55 => some (.amoMax (.dec w))
  | 0x56 => some (.amoMinu (.dec w))
  | 0x57 => some (.amoMaxu (.dec w))
  | 0x58 => some (.amoSwap (.dec w))
  | 0x59 => some (.amoCas (.dec w))
  | 0x5A => some (.amoFaddS (.dec w))
  | 0x5B => some (.redAdd (.dec w))
  | 0x5C => some (.redFaddS (.dec w))
  | 0x5D => some (.redFaddH (.dec w))
  | 0x60 => some (.send (.dec w))
  | 0x61 => some (.sendr (.dec w))
  | 0x62 => some (.sendSys (.dec w))
  | 0x63 => some (.peek (.dec w))
  | 0x64 => some (.mtake (.dec w))
  | 0x65 => some (.mcnt (.dec w))
  | 0x66 => some (.mdrop (.dec w))
  | 0x67 => some (.capMint (.dec w))
  | 0x68 => some (.capNarrow (.dec w))
  | 0x69 => some (.capSelf (.dec w))
  | 0x6A => some (.wake (.dec w))
  | 0x6B => some (.halt (.dec w))
  | 0x6C => some (.actNew (.dec w))
  | 0x6D => some (.actDel (.dec w))
  | 0x6E => some (.spawn (.dec w))
  | 0x70 => some (.strBind (.dec w))
  | 0x71 => some (.strFree (.dec w))
  | 0x72 => some (.strStat (.dec w))
  | 0x73 => some (.pipReq (.dec w))
  | 0x74 => some (.pipRel (.dec w))
  | 0x75 => some (.pipLend (.dec w))
  | 0x76 => some (.pipStat (.dec w))
  | 0x77 => some (.trap (.dec w))
  | 0x78 => some (.brk (.dec w))
  | 0x79 => some (.cln (.dec w))
  | 0x7A => some (.inv (.dec w))
  | 0x7B => some (.lutLd (.dec w))
  | 0x7E => some (.wlStat (.dec w))
  | 0x00 => some .nopC
  | 0x0D => some .ret
  | 0x10 => some .lbrk
  | 0x12 => some .done
  | 0x13 => some .park
  | 0x14 => some .npOn
  | 0x15 => some .npOff
  | 0x7C => some .modeL
  | 0x7D => some .modeS
  | _ => none

/-- The A-slot instruction whose opcode a word holds (R279, R284), for the opcodes of `rawALate` left out. -/
def rawAMost (w : Nat) : Option Instr :=
  match w / 2 ^ 24 % 256 with
  | 0x01 => some (.add (.dec w))
  | 0x02 => some (.sub (.dec w))
  | 0x03 => some (.mul (.dec w))
  | 0x04 => some (.mulh (.dec w))
  | 0x05 => some (.mulhu (.dec w))
  | 0x06 => some (.div (.dec w))
  | 0x07 => some (.divu (.dec w))
  | 0x08 => some (.rem (.dec w))
  | 0x09 => some (.remu (.dec w))
  | 0x0A => some (.and (.dec w))
  | 0x0B => some (.or (.dec w))
  | 0x0C => some (.xor (.dec w))
  | 0x0D => some (.andn (.dec w))
  | 0x0E => some (.orn (.dec w))
  | 0x0F => some (.shl (.dec w))
  | 0x10 => some (.shr (.dec w))
  | 0x11 => some (.sra (.dec w))
  | 0x12 => some (.rol (.dec w))
  | 0x13 => some (.min (.dec w))
  | 0x14 => some (.max (.dec w))
  | 0x15 => some (.minu (.dec w))
  | 0x16 => some (.maxu (.dec w))
  | 0x1A => some (.sel (.dec w))
  | 0x1B => some (.clz (.dec w))
  | 0x1C => some (.ctz (.dec w))
  | 0x1D => some (.popc (.dec w))
  | 0x1E => some (.bswap (.dec w))
  | 0x20 => some (.sextB (.dec w))
  | 0x21 => some (.sextH (.dec w))
  | 0x22 => some (.sextW (.dec w))
  | 0x23 => some (.zextB (.dec w))
  | 0x24 => some (.zextH (.dec w))
  | 0x25 => some (.zextW (.dec w))
  | 0x28 => some (.addi (.dec w))
  | 0x29 => some (.andi (.dec w))
  | 0x2A => some (.ori (.dec w))
  | 0x2B => some (.xori (.dec w))
  | 0x2C => some (.shli (.dec w))
  | 0x2D => some (.shri (.dec w))
  | 0x2E => some (.srai (.dec w))
  | 0x30 => some (.li (.dec w))
  | 0x31 => some (.lih (.dec w))
  | 0x40 => some (.faddS (.dec w))
  | 0x41 => some (.fsubS (.dec w))
  | 0x42 => some (.fmulS (.dec w))
  | 0x43 => some (.fmaS (.dec w))
  | 0x44 => some (.fminS (.dec w))
  | 0x45 => some (.fmaxS (.dec w))
  | 0x46 => some (.feqS (.dec w))
  | 0x47 => some (.fltS (.dec w))
  | 0x48 => some (.fleS (.dec w))
  | 0x49 => some (.fsgnjS (.dec w))
  | 0x4A => some (.fclassS (.dec w))
  | 0x4B => some (.fcvtSW (.dec w))
  | 0x4C => some (.fcvtWS (.dec w))
  | 0x4D => some (.fcvtSH (.dec w))
  | 0x4E => some (.fcvtHS (.dec w))
  | 0x50 => some (.faddH (.dec w))
  | 0x51 => some (.fsubH (.dec w))
  | 0x52 => some (.fmulH (.dec w))
  | 0x53 => some (.fmaH (.dec w))
  | 0x5A => some (.fclassH (.dec w))
  | 0x80 => some (.vadd (.dec w))
  | 0x81 => some (.vsub (.dec w))
  | 0x82 => some (.vmul (.dec w))
  | 0x83 => some (.vfma (.dec w))
  | 0x84 => some (.vmin (.dec w))
  | 0x85 => some (.vmax (.dec w))
  | 0x86 => some (.vabs (.dec w))
  | 0x87 => some (.vneg (.dec w))
  | 0x88 => some (.vand (.dec w))
  | 0x89 => some (.vor (.dec w))
  | 0x8A => some (.vxor (.dec w))
  | 0x8B => some (.vshl (.dec w))
  | 0x8C => some (.vshr (.dec w))
  | 0x8D => some (.vsra (.dec w))
  | 0x8E => some (.vcmp (.dec w))
  | 0x8F => some (.vsel (.dec w))
  | 0x90 => some (.vcvt (.dec w))
  | 0x91 => some (.vred (.dec w))
  | 0x92 => some (.vscan (.dec w))
  | 0x93 => some (.vbcast (.dec w))
  | 0x94 => some (.vperm (.dec w))
  | 0x95 => some (.vins (.dec w))
  | 0x96 => some (.vext (.dec w))
  | 0x97 => some (.vdot4 (.dec w))
  | 0x98 => some (.vexp2 (.dec w))
  | 0x99 => some (.vlog2 (.dec w))
  | 0x9A => some (.vrcp (.dec w))
  | 0x9B => some (.vrsqrt (.dec w))
  | 0x9C => some (.vsqrt (.dec w))
  | 0x9D => some (.vtanh (.dec w))
  | 0x9E => some (.vmov (.dec w))
  | 0x9F => some (.vpopc (.dec w))
  | 0xA0 => some (.vaddScalar (.dec w))
  | 0xA1 => some (.vsubScalar (.dec w))
  | 0xA2 => some (.vmulScalar (.dec w))
  | 0xA3 => some (.vfmaScalar (.dec w))
  | 0xA4 => some (.vminScalar (.dec w))
  | 0xA5 => some (.vmaxScalar (.dec w))
  | 0xA8 => some (.vandScalar (.dec w))
  | 0xA9 => some (.vorScalar (.dec w))
  | 0xAA => some (.vxorScalar (.dec w))
  | 0xAB => some (.vshlScalar (.dec w))
  | 0xAC => some (.vshrScalar (.dec w))
  | 0xAD => some (.vsraScalar (.dec w))
  | 0xAE => some (.vcmpScalar (.dec w))
  | 0xAF => some (.vselScalar (.dec w))
  | 0x00 => some .nopA
  | _ => none

/-- The ten opcodes whose constructors come last: Lean's compiler builds no value of them. -/
noncomputable def rawALate (w : Nat) : Option Instr :=
  match w / 2 ^ 24 % 256 with
  | 0x17 => some (.slt (.dec w))
  | 0x18 => some (.sltu (.dec w))
  | 0x19 => some (.seq (.dec w))
  | 0x54 => some (.fminH (.dec w))
  | 0x55 => some (.fmaxH (.dec w))
  | 0x56 => some (.feqH (.dec w))
  | 0x57 => some (.fltH (.dec w))
  | 0x58 => some (.fleH (.dec w))
  | 0x59 => some (.fsgnjH (.dec w))
  | 0xB7 => some (.vdot4Scalar (.dec w))
  | _ => none

/-- The A-slot instruction whose opcode a word holds (R279, R284). -/
noncomputable def rawA (w : Nat) : Option Instr :=
  match rawALate w with
  | some i => some i
  | none => rawAMost w

/-- The wide instruction of two words (R280 to R282, R285). -/
def rawWide (w0 w1 : Nat) : Option Instr :=
  match w0 / 2 ^ 24 % 128 with
  | 0x00 => if w0 / 2 ^ 18 % 2 = 0 then some (.liD (.dec w0 w1)) else some (.liDHi (.dec w0 w1))
  | 0x01 =>
    match w0 / 2 ^ 11 % 8 with
    | 0 => some (.farBeq (.dec w0 w1))
    | 1 => some (.farBne (.dec w0 w1))
    | 2 => some (.farBlt (.dec w0 w1))
    | 3 => some (.farBge (.dec w0 w1))
    | 4 => some (.farBltu (.dec w0 w1))
    | 5 => some (.farBgeu (.dec w0 w1))
    | 6 => some (.farBz (.dec w0 w1))
    | _ => some (.farBnz (.dec w0 w1))
  | 0x10 => some (.mma (.dec w0 w1))
  | 0x11 => some (.mmaRing (.dec w0 w1))
  | 0x12 => some (.mxLdb (.dec w0 w1))
  | 0x13 => some (.accZero (.dec w0 w1))
  | 0x14 => some (.accLd (.dec w0 w1))
  | 0x15 => some (.accSt (.dec w0 w1))
  | 0x16 => some (.accProm (.dec w0 w1))
  | 0x18 => some (.attQk (.dec w0 w1))
  | 0x19 => some (.attSm (.dec w0 w1))
  | 0x1A => some (.attPv (.dec w0 w1))
  | 0x1B => some (.attFin (.dec w0 w1))
  | 0x20 => some (.spMm (.dec w0 w1))
  | 0x21 => some (.spBm (.dec w0 w1))
  | 0x22 => some (.spDrop (.dec w0 w1))
  | 0x23 => some (.spGrow (.dec w0 w1))
  | 0x24 => some (.spCnt (.dec w0 w1))
  | 0x28 => some (.gath (.dec w0 w1))
  | 0x29 => some (.gathIx (.dec w0 w1))
  | 0x2A => some (.scat (.dec w0 w1))
  | 0x2B => some (.embBag (.dec w0 w1))
  | 0x30 => some (.cp (.dec w0 w1))
  | 0x31 => some (.cpMc (.dec w0 w1))
  | 0x38 => some (.wlPush (.dec w0 w1))
  | 0x39 => some (.wlPopb (.dec w0 w1))
  | 0x3A => some (.wlInsd (.dec w0 w1))
  | 0x40 => some (.launch (.dec w0 w1))
  | 0x41 => some (.barInit (.dec w0 w1))
  | _ => none

/-- The C-slot word of an instruction of that slot (R278, R279, R283, R284). -/
def encodeC : Instr → Option Nat
  | .nopC => slotWord 0x00 0
  | .br f => slotWord 0x01 f.enc
  | .beq f => slotWord 0x02 f.enc
  | .bne f => slotWord 0x03 f.enc
  | .blt f => slotWord 0x04 f.enc
  | .bge f => slotWord 0x05 f.enc
  | .bltu f => slotWord 0x06 f.enc
  | .bgeu f => slotWord 0x07 f.enc
  | .bz f => slotWord 0x08 f.enc
  | .bnz f => slotWord 0x09 f.enc
  | .call f => slotWord 0x0A f.enc
  | .callr f => slotWord 0x0B f.enc
  | .jr f => slotWord 0x0C f.enc
  | .ret => slotWord 0x0D 0
  | .loop f => slotWord 0x0E f.enc
  | .loopi f => slotWord 0x0F f.enc
  | .lbrk => slotWord 0x10 0
  | .wait f => slotWord 0x11 f.enc
  | .done => slotWord 0x12 0
  | .park => slotWord 0x13 0
  | .npOn => slotWord 0x14 0
  | .npOff => slotWord 0x15 0
  | .ldB f => slotWord 0x18 f.enc
  | .ldBu f => slotWord 0x19 f.enc
  | .ldH f => slotWord 0x1A f.enc
  | .ldHu f => slotWord 0x1B f.enc
  | .ldW f => slotWord 0x1C f.enc
  | .ldWu f => slotWord 0x1D f.enc
  | .ldD f => slotWord 0x1E f.enc
  | .stB f => slotWord 0x20 f.enc
  | .stH f => slotWord 0x21 f.enc
  | .stW f => slotWord 0x22 f.enc
  | .stD f => slotWord 0x23 f.enc
  | .ldAcq f => slotWord 0x24 f.enc
  | .stRel f => slotWord 0x25 f.enc
  | .ldV f => slotWord 0x26 f.enc
  | .stV f => slotWord 0x27 f.enc
  | .ldVt f => slotWord 0x28 f.enc
  | .stVt f => slotWord 0x29 f.enc
  | .pf f => slotWord 0x2A f.enc
  | .fence f => slotWord 0x2B f.enc
  | .mfs f => slotWord 0x2C f.enc
  | .mts f => slotWord 0x2D f.enc
  | .ldBIndexed f => slotWord 0x38 f.enc
  | .ldBuIndexed f => slotWord 0x39 f.enc
  | .ldHIndexed f => slotWord 0x3A f.enc
  | .ldHuIndexed f => slotWord 0x3B f.enc
  | .ldWIndexed f => slotWord 0x3C f.enc
  | .ldWuIndexed f => slotWord 0x3D f.enc
  | .ldDIndexed f => slotWord 0x3E f.enc
  | .stBIndexed f => slotWord 0x40 f.enc
  | .stHIndexed f => slotWord 0x41 f.enc
  | .stWIndexed f => slotWord 0x42 f.enc
  | .stDIndexed f => slotWord 0x43 f.enc
  | .ldVIndexed f => slotWord 0x46 f.enc
  | .stVIndexed f => slotWord 0x47 f.enc
  | .ldVtIndexed f => slotWord 0x48 f.enc
  | .stVtIndexed f => slotWord 0x49 f.enc
  | .barArr f => slotWord 0x4A f.enc
  | .barArrx f => slotWord 0x4B f.enc
  | .barWt f => slotWord 0x4C f.enc
  | .barTst f => slotWord 0x4D f.enc
  | .semPost f => slotWord 0x4E f.enc
  | .semWt f => slotWord 0x4F f.enc
  | .amoAdd f => slotWord 0x50 f.enc
  | .amoAnd f => slotWord 0x51 f.enc
  | .amoOr f => slotWord 0x52 f.enc
  | .amoXor f => slotWord 0x53 f.enc
  | .amoMin f => slotWord 0x54 f.enc
  | .amoMax f => slotWord 0x55 f.enc
  | .amoMinu f => slotWord 0x56 f.enc
  | .amoMaxu f => slotWord 0x57 f.enc
  | .amoSwap f => slotWord 0x58 f.enc
  | .amoCas f => slotWord 0x59 f.enc
  | .amoFaddS f => slotWord 0x5A f.enc
  | .redAdd f => slotWord 0x5B f.enc
  | .redFaddS f => slotWord 0x5C f.enc
  | .redFaddH f => slotWord 0x5D f.enc
  | .send f => slotWord 0x60 f.enc
  | .sendr f => slotWord 0x61 f.enc
  | .sendSys f => slotWord 0x62 f.enc
  | .peek f => slotWord 0x63 f.enc
  | .mtake f => slotWord 0x64 f.enc
  | .mcnt f => slotWord 0x65 f.enc
  | .mdrop f => slotWord 0x66 f.enc
  | .capMint f => slotWord 0x67 f.enc
  | .capNarrow f => slotWord 0x68 f.enc
  | .capSelf f => slotWord 0x69 f.enc
  | .wake f => slotWord 0x6A f.enc
  | .halt f => slotWord 0x6B f.enc
  | .actNew f => slotWord 0x6C f.enc
  | .actDel f => slotWord 0x6D f.enc
  | .spawn f => slotWord 0x6E f.enc
  | .strBind f => slotWord 0x70 f.enc
  | .strFree f => slotWord 0x71 f.enc
  | .strStat f => slotWord 0x72 f.enc
  | .pipReq f => slotWord 0x73 f.enc
  | .pipRel f => slotWord 0x74 f.enc
  | .pipLend f => slotWord 0x75 f.enc
  | .pipStat f => slotWord 0x76 f.enc
  | .trap f => slotWord 0x77 f.enc
  | .brk f => slotWord 0x78 f.enc
  | .cln f => slotWord 0x79 f.enc
  | .inv f => slotWord 0x7A f.enc
  | .lutLd f => slotWord 0x7B f.enc
  | .modeL => slotWord 0x7C 0
  | .modeS => slotWord 0x7D 0
  | .wlStat f => slotWord 0x7E f.enc
  | _ => none

/-- The A-slot word of an instruction of that slot (R278, R279, R283, R284). -/
def encodeA : Instr → Option Nat
  | .nopA => slotWord 0x00 0
  | .add f => slotWord 0x01 f.enc
  | .sub f => slotWord 0x02 f.enc
  | .mul f => slotWord 0x03 f.enc
  | .mulh f => slotWord 0x04 f.enc
  | .mulhu f => slotWord 0x05 f.enc
  | .div f => slotWord 0x06 f.enc
  | .divu f => slotWord 0x07 f.enc
  | .rem f => slotWord 0x08 f.enc
  | .remu f => slotWord 0x09 f.enc
  | .and f => slotWord 0x0A f.enc
  | .or f => slotWord 0x0B f.enc
  | .xor f => slotWord 0x0C f.enc
  | .andn f => slotWord 0x0D f.enc
  | .orn f => slotWord 0x0E f.enc
  | .shl f => slotWord 0x0F f.enc
  | .shr f => slotWord 0x10 f.enc
  | .sra f => slotWord 0x11 f.enc
  | .rol f => slotWord 0x12 f.enc
  | .min f => slotWord 0x13 f.enc
  | .max f => slotWord 0x14 f.enc
  | .minu f => slotWord 0x15 f.enc
  | .maxu f => slotWord 0x16 f.enc
  | .slt f => slotWord 0x17 f.enc
  | .sltu f => slotWord 0x18 f.enc
  | .seq f => slotWord 0x19 f.enc
  | .sel f => slotWord 0x1A f.enc
  | .clz f => slotWord 0x1B f.enc
  | .ctz f => slotWord 0x1C f.enc
  | .popc f => slotWord 0x1D f.enc
  | .bswap f => slotWord 0x1E f.enc
  | .sextB f => slotWord 0x20 f.enc
  | .sextH f => slotWord 0x21 f.enc
  | .sextW f => slotWord 0x22 f.enc
  | .zextB f => slotWord 0x23 f.enc
  | .zextH f => slotWord 0x24 f.enc
  | .zextW f => slotWord 0x25 f.enc
  | .addi f => slotWord 0x28 f.enc
  | .andi f => slotWord 0x29 f.enc
  | .ori f => slotWord 0x2A f.enc
  | .xori f => slotWord 0x2B f.enc
  | .shli f => slotWord 0x2C f.enc
  | .shri f => slotWord 0x2D f.enc
  | .srai f => slotWord 0x2E f.enc
  | .li f => slotWord 0x30 f.enc
  | .lih f => slotWord 0x31 f.enc
  | .faddS f => slotWord 0x40 f.enc
  | .fsubS f => slotWord 0x41 f.enc
  | .fmulS f => slotWord 0x42 f.enc
  | .fmaS f => slotWord 0x43 f.enc
  | .fminS f => slotWord 0x44 f.enc
  | .fmaxS f => slotWord 0x45 f.enc
  | .feqS f => slotWord 0x46 f.enc
  | .fltS f => slotWord 0x47 f.enc
  | .fleS f => slotWord 0x48 f.enc
  | .fsgnjS f => slotWord 0x49 f.enc
  | .fclassS f => slotWord 0x4A f.enc
  | .fcvtSW f => slotWord 0x4B f.enc
  | .fcvtWS f => slotWord 0x4C f.enc
  | .fcvtSH f => slotWord 0x4D f.enc
  | .fcvtHS f => slotWord 0x4E f.enc
  | .faddH f => slotWord 0x50 f.enc
  | .fsubH f => slotWord 0x51 f.enc
  | .fmulH f => slotWord 0x52 f.enc
  | .fmaH f => slotWord 0x53 f.enc
  | .fminH f => slotWord 0x54 f.enc
  | .fmaxH f => slotWord 0x55 f.enc
  | .feqH f => slotWord 0x56 f.enc
  | .fltH f => slotWord 0x57 f.enc
  | .fleH f => slotWord 0x58 f.enc
  | .fsgnjH f => slotWord 0x59 f.enc
  | .fclassH f => slotWord 0x5A f.enc
  | .vadd f => slotWord 0x80 f.enc
  | .vsub f => slotWord 0x81 f.enc
  | .vmul f => slotWord 0x82 f.enc
  | .vfma f => slotWord 0x83 f.enc
  | .vmin f => slotWord 0x84 f.enc
  | .vmax f => slotWord 0x85 f.enc
  | .vabs f => slotWord 0x86 f.enc
  | .vneg f => slotWord 0x87 f.enc
  | .vand f => slotWord 0x88 f.enc
  | .vor f => slotWord 0x89 f.enc
  | .vxor f => slotWord 0x8A f.enc
  | .vshl f => slotWord 0x8B f.enc
  | .vshr f => slotWord 0x8C f.enc
  | .vsra f => slotWord 0x8D f.enc
  | .vcmp f => slotWord 0x8E f.enc
  | .vsel f => slotWord 0x8F f.enc
  | .vcvt f => slotWord 0x90 f.enc
  | .vred f => slotWord 0x91 f.enc
  | .vscan f => slotWord 0x92 f.enc
  | .vbcast f => slotWord 0x93 f.enc
  | .vperm f => slotWord 0x94 f.enc
  | .vins f => slotWord 0x95 f.enc
  | .vext f => slotWord 0x96 f.enc
  | .vdot4 f => slotWord 0x97 f.enc
  | .vexp2 f => slotWord 0x98 f.enc
  | .vlog2 f => slotWord 0x99 f.enc
  | .vrcp f => slotWord 0x9A f.enc
  | .vrsqrt f => slotWord 0x9B f.enc
  | .vsqrt f => slotWord 0x9C f.enc
  | .vtanh f => slotWord 0x9D f.enc
  | .vmov f => slotWord 0x9E f.enc
  | .vpopc f => slotWord 0x9F f.enc
  | .vaddScalar f => slotWord 0xA0 f.enc
  | .vsubScalar f => slotWord 0xA1 f.enc
  | .vmulScalar f => slotWord 0xA2 f.enc
  | .vfmaScalar f => slotWord 0xA3 f.enc
  | .vminScalar f => slotWord 0xA4 f.enc
  | .vmaxScalar f => slotWord 0xA5 f.enc
  | .vandScalar f => slotWord 0xA8 f.enc
  | .vorScalar f => slotWord 0xA9 f.enc
  | .vxorScalar f => slotWord 0xAA f.enc
  | .vshlScalar f => slotWord 0xAB f.enc
  | .vshrScalar f => slotWord 0xAC f.enc
  | .vsraScalar f => slotWord 0xAD f.enc
  | .vcmpScalar f => slotWord 0xAE f.enc
  | .vselScalar f => slotWord 0xAF f.enc
  | .vdot4Scalar f => slotWord 0xB7 f.enc
  | _ => none

/-- The two words of a wide instruction (R280 to R282, R285). -/
def encodeWide : Instr → Option (Nat × Nat)
  | .liD f => wideWords 0x80 (f.enc0) f.imml.toNat
  | .liDHi f => wideWords 0x80 (2 ^ 18 + f.enc0) f.imml.toNat
  | .farBeq f => wideWords 0x81 (0 * 2 ^ 11 + f.enc0) f.off.toNat
  | .farBne f => wideWords 0x81 (1 * 2 ^ 11 + f.enc0) f.off.toNat
  | .farBlt f => wideWords 0x81 (2 * 2 ^ 11 + f.enc0) f.off.toNat
  | .farBge f => wideWords 0x81 (3 * 2 ^ 11 + f.enc0) f.off.toNat
  | .farBltu f => wideWords 0x81 (4 * 2 ^ 11 + f.enc0) f.off.toNat
  | .farBgeu f => wideWords 0x81 (5 * 2 ^ 11 + f.enc0) f.off.toNat
  | .farBz f => wideWords 0x81 (6 * 2 ^ 11 + f.enc0) f.off.toNat
  | .farBnz f => wideWords 0x81 (7 * 2 ^ 11 + f.enc0) f.off.toNat
  | .mma f => wideWords 0x90 f.enc0 f.ext.toNat
  | .mmaRing f => wideWords 0x91 f.enc0 f.ext.toNat
  | .mxLdb f => wideWords 0x92 f.enc0 f.ext.toNat
  | .accZero f => wideWords 0x93 f.enc0 f.ext.toNat
  | .accLd f => wideWords 0x94 f.enc0 f.ext.toNat
  | .accSt f => wideWords 0x95 f.enc0 f.ext.toNat
  | .accProm f => wideWords 0x96 f.enc0 f.ext.toNat
  | .attQk f => wideWords 0x98 f.enc0 f.ext.toNat
  | .attSm f => wideWords 0x99 f.enc0 f.ext.toNat
  | .attPv f => wideWords 0x9A f.enc0 f.ext.toNat
  | .attFin f => wideWords 0x9B f.enc0 f.ext.toNat
  | .spMm f => wideWords 0xA0 f.enc0 f.ext.toNat
  | .spBm f => wideWords 0xA1 f.enc0 f.ext.toNat
  | .spDrop f => wideWords 0xA2 f.enc0 f.ext.toNat
  | .spGrow f => wideWords 0xA3 f.enc0 f.ext.toNat
  | .spCnt f => wideWords 0xA4 f.enc0 f.ext.toNat
  | .gath f => wideWords 0xA8 f.enc0 f.ext.toNat
  | .gathIx f => wideWords 0xA9 f.enc0 f.ext.toNat
  | .scat f => wideWords 0xAA f.enc0 f.ext.toNat
  | .embBag f => wideWords 0xAB f.enc0 f.ext.toNat
  | .cp f => wideWords 0xB0 f.enc0 f.ext.toNat
  | .cpMc f => wideWords 0xB1 f.enc0 f.ext.toNat
  | .wlPush f => wideWords 0xB8 f.enc0 f.ext.toNat
  | .wlPopb f => wideWords 0xB9 f.enc0 f.ext.toNat
  | .wlInsd f => wideWords 0xBA f.enc0 f.ext.toNat
  | .launch f => wideWords 0xC0 f.enc0 f.ext.toNat
  | .barInit f => wideWords 0xC1 f.enc0 f.ext.toNat
  | _ => none

/-- The words of an instruction, by R275 to R285; an event of the device has none. -/
def encode (i : Instr) : Option Words :=
  match encodeC i, encodeA i, encodeWide i with
  | some w, _, _ => some (.c w)
  | none, some w, _ => some (.a w)
  | none, none, some (w0, w1) => some (.wide w0 w1)
  | none, none, none => none

/-- The instruction in the C slot of word 0: R276 step 1, and the format's zero bits of step 2. -/
def decodeC (w : Nat) : Except Cause Instr :=
  match rawC w with
  | none => .error .illegalOpcode
  | some i => if encodeC i = some w then .ok i else .error .reservedField

/-- The instruction in the A slot of word 1. -/
noncomputable def decodeA (w : Nat) : Except Cause Instr :=
  match rawA w with
  | none => .error .illegalOpcode
  | some i => if encodeA i = some w then .ok i else .error .reservedField

/-- The wide instruction of a bundle with W = 1. -/
def decodeWide (w0 w1 : Nat) : Except Cause Instr :=
  match rawWide w0 w1 with
  | none => .error .illegalOpcode
  | some i => if encodeWide i = some (w0, w1) then .ok i else .error .reservedField

/-- The instruction that words stand for, or the cause of R276 steps 1 and 2. -/
noncomputable def decode : Words → Except Cause Instr
  | .c w => decodeC w
  | .a w => decodeA w
  | .wide w0 w1 => decodeWide w0 w1

/-- A decoded bundle: a pair of slots, each decoded or with its cause, or one wide instruction (R275). -/
inductive Bundle where
  | pair (c a : Except Cause Instr)
  | wide (i : Except Cause Instr)
  deriving Repr

/-- The bundle of two words: bit 31 of word 0 is W (R275). -/
noncomputable def decodeBundle (w0 w1 : Nat) : Bundle :=
  if w0 / 2 ^ 31 % 2 = 1 then .wide (decodeWide w0 w1) else .pair (decodeC w0) (decodeA w1)

/-- The two words of a bundle from its doubleword (R275). -/
noncomputable def decodeDoubleword (d : Nat) : Bundle := decodeBundle (d % 2 ^ 32) (d / 2 ^ 32 % 2 ^ 32)

/-- The doubleword that holds one instruction alone, with a no-operation in the other slot (R275, R287). -/
def Words.doubleword : Words → Nat
  | .c w => w
  | .a w => w * 2 ^ 32
  | .wide w0 w1 => w0 + w1 * 2 ^ 32

/-- The words that an opcode-table word of `nbits` bits stands for. A word with bit 31 set in 32 bits, or one that no
C-slot instruction has, is an A-slot word; any other first word is a C-slot word or the first word of a wide bundle. The
table numbers A-slot and C-slot words alike, so a word that both slots know is read as the C slot's. -/
def tableWords (nbits w : Nat) : Words :=
  if nbits ≤ 32 then
    if w / 2 ^ 31 % 2 = 1 then .a w
    else match decodeC w with
      | .ok _ => .c w
      | .error _ => .a w
  else if w / 2 ^ 31 % 2 = 1 then .wide (w % 2 ^ 32) (w / 2 ^ 32 % 2 ^ 32)
  else if w % 2 ^ 32 = 0 then .a (w / 2 ^ 32)
  else .c (w % 2 ^ 32)

/-- The instruction that the decoder reads from an opcode-table word. -/
noncomputable def decodeTableWord (nbits w : Nat) : Option Instr :=
  match decode (tableWords nbits w) with
  | .ok i => some i
  | .error _ => none

end Sys2Proof
end

