-- ==== Sys2Proof/Machine/Flags.lean ====
section
/-! DEFINITION. The status words that instructions compute. The machine has no arithmetic flags (R266, R296); its sticky and
counting status are FSTAT and UNACK (R187, R209, R211), ACCST (R187), PIPS and PIPIV (R64). -/

namespace Sys2Proof.Machine

/-- A 16-bit count that saturates (R187). -/
def satIncr (n : Nat) : Nat := min 65535 (n + 1)

/-- FSTAT of a context (R187). -/
def Ctx.fstat (c : Ctx) : Nat := c.perm * 2 ^ 48 + c.dead * 2 ^ 32 + c.pois * 2 ^ 16 + c.scope

/-- FSTAT cleared. -/
def Ctx.clearFstat (c : Ctx) : Ctx := { c with perm := 0, dead := 0, pois := 0, scope := 0 }

/-- Count one failed store (R211): 1 PERM, 2 DEAD, 3 POIS, and nothing for 0. -/
def Ctx.countFailure (c : Ctx) (which : Nat) : Ctx :=
  match which with
  | 1 => { c with perm := satIncr c.perm }
  | 2 => { c with dead := satIncr c.dead }
  | 3 => { c with pois := satIncr c.pois }
  | _ => c

/-- Count stores whose scope was exceeded (R215). -/
def Ctx.countScope (c : Ctx) (n : Nat) : Ctx := { c with scope := min 65535 (c.scope + n) }

/-- UNACK of a context (R187). -/
def Ctx.unack (c : Ctx) : Nat := c.unDom * 2 ^ 32 + c.unWaf * 2 ^ 16 + c.unFld

/-- The UNACK count of a reach: 1 FLD, 2 WAF, 3 DOM (R209). -/
def Ctx.unackAt (c : Ctx) (reach : Nat) : Nat :=
  match reach with
  | 1 => c.unFld
  | 2 => c.unWaf
  | 3 => c.unDom
  | _ => 0

/-- One more, or one fewer, remote store outstanding (R187). -/
def Ctx.unackUp (c : Ctx) (reach : Nat) : Ctx :=
  match reach with
  | 1 => { c with unFld := c.unFld + 1 }
  | 2 => { c with unWaf := c.unWaf + 1 }
  | 3 => { c with unDom := c.unDom + 1 }
  | _ => c
def Ctx.unackDown (c : Ctx) (reach : Nat) : Ctx :=
  match reach with
  | 1 => { c with unFld := c.unFld - 1 }
  | 2 => { c with unWaf := c.unWaf - 1 }
  | 3 => { c with unDom := c.unDom - 1 }
  | _ => c

/-- Whether the remote stores homed within a scope are all acknowledged (R209). -/
def Ctx.unackClear (c : Ctx) (scope : Nat) : Bool :=
  (scope < 3 || c.unFld = 0) && (scope < 4 || c.unWaf = 0) && (scope < 5 || c.unDom = 0)

/-- WIDF, MODE, PORT and CTXST as words (R161, R181, R187). -/
def Ctx.mode (c : Ctx) : Nat := 2 * c.rm + natOfBool c.long
def Ctx.ctxst (c : Ctx) (own : Bool) : Nat :=
  c.cause % 256 * 2 ^ 56 + c.reason % 256 * 2 ^ 48 + c.act % 256 * 2 ^ 40 + c.cls % 4 * 2 ^ 38 + c.depthOf * 2 ^ 36 + natOfBool c.np * 2 ^ 35 +
    natOfBool own * 2 ^ 34 + c.st % 4 * 2 ^ 32

/-- The full-rate holding F of a tile kind (R48). -/
def fullRate (kind : Nat) : Nat := match kind with
  | 0 => 4
  | 3 => 2
  | _ => 3

/-- `issue_interval(h, F)` (R50, R51). -/
def issueInterval (h f : Nat) : Nat :=
  if h = 0 then 0 else (4 * f + h - 1) / h

/-- The interval between consecutive paced instructions of a tile kind at a holding (R51). -/
def pacedInterval (h kind : Nat) : Nat :=
  if kind = 3 then issueInterval h (fullRate kind) / 4 else issueInterval h (fullRate kind)

/-- ACCST of a tile (R187). -/
def Engine.accst (e : Engine) (busy : Bool) : Nat :=
  natOfBool e.lown.isSome * 2 ^ 27 + (if e.lown.isSome then e.lctx else 0) * 2 ^ 24 + natOfBool e.sprow * 2 ^ 20 + natOfBool busy * 2 ^ 19 +
    e.blkShown * 2 ^ 12 + e.inner.toNat * 2 ^ 8 + e.err.toNat * 2 ^ 4 + e.sat.toNat

/-- Whether a paced instruction or an engine operation of a tile is in flight (R187, R370). -/
def State.engBusy (s : State) (t : Nat) : Bool :=
  let e := (s.tileOf t).eng
  let c := s.cycOf (fieldOfTile t)
  e.inFlight || c < e.busyUntil || c < e.latchUntil

/-- The engine as its window and ACCST show it: while an instruction is in flight, as the last completed one left it (R370). -/
def Tile.shown (t : Tile) : Engine := t.engShown.getD t.eng

/-- The holding after the last pending notice (R64, R65): the lowest pending value. -/
def Tile.target (t : Tile) : Nat := t.notices.foldl (fun a n => min a n.newh) t.h

/-- PIPS, PIPIV and NOTICE of a tile (R64). -/
def State.pips (s : State) (t : Nat) : Nat :=
  let x := s.tileOf t
  x.h * 2 ^ 28 + fullRate (tileKind t) * 2 ^ 24 + x.target * 2 ^ 20 + (match x.req with | some r => r.target | none => 0) * 2 ^ 16 + x.hclass * 2 ^ 14 +
    (match x.req with | some r => r.cls | none => 0) * 2 ^ 12 + natOfBool (!x.notices.isEmpty) * 2 ^ 11
def State.pipiv (s : State) (t : Nat) : Nat :=
  let x := s.tileOf t
  x.stalls % 2 ^ 32 * 2 ^ 32 + min 255 (x.nextok - s.cycOf (fieldOfTile t)) * 2 ^ 8 + pacedInterval x.h (tileKind t)
def State.noticeWord (s : State) (t : Nat) : Nat :=
  match (s.tileOf t).notices.map (fun n => n.effect) with
  | [] => 0
  | n :: ns => ns.foldl min n

/-- SEMV of a tile (R199). -/
def State.semv (s : State) (t : Nat) : Nat :=
  ((List.range 8).map (fun n => (s.tileOf t).sems.get 0 n * 2 ^ (8 * n))).sum

end Sys2Proof.Machine
end

