-- ==== Sys2Proof/Machine/Num.lean ====
section
/-! DEFINITION. Exact numbers and their rounding: the element formats of R254 to R261, the helpers of R264, and the special
functions of R269. A finite number is a dyadic rational, so every sum and product of codes is exact. -/

namespace Sys2Proof.Machine

/-- What a code or an exact computation stands for: NaN, an infinity, or (-1)^neg * m * 2^e. -/
inductive XNum where
  | nan
  | inf (neg : Bool)
  | fin (neg : Bool) (m : Nat) (e : Int)
  deriving DecidableEq, Repr

/-- Zero of a sign. -/
def XNum.zero (neg : Bool) : XNum := .fin neg 0 0

/-- An integer as an exact number; zero is +0. -/
def XNum.ofInt (i : Int) : XNum := .fin (decide (i < 0)) i.natAbs 0

/-- Whether a number is zero of either sign. -/
def XNum.isZero : XNum → Bool
  | .fin _ 0 _ => true
  | _ => false

def XNum.isNan : XNum → Bool
  | .nan => true
  | _ => false

def XNum.isInf : XNum → Bool
  | .inf _ => true
  | _ => false

/-- The sign: true for numbers below zero and for -0. -/
def XNum.sign : XNum → Bool
  | .nan => false
  | .inf n => n
  | .fin n _ _ => n

def XNum.neg : XNum → XNum
  | .nan => .nan
  | .inf n => .inf (!n)
  | .fin n m e => .fin (!n) m e

def XNum.abs : XNum → XNum
  | .nan => .nan
  | .inf _ => .inf false
  | .fin _ m e => .fin false m e

/-- The signed mantissa of a finite number in units of 2^e, for e at or below its exponent. -/
def signedAt (neg : Bool) (m : Nat) (e0 e : Int) : Int :=
  let v : Int := (m * 2 ^ (e0 - e).toNat : Nat)
  if neg then -v else v

/-- The exact sum. `down` says that an exact sum of zero from unlike signs is -0: rounding is RDN (R268). -/
def XNum.add (down : Bool) : XNum → XNum → XNum
  | .nan, _ => .nan
  | _, .nan => .nan
  | .inf a, .inf b => if a = b then .inf a else .nan
  | .inf a, _ => .inf a
  | _, .inf b => .inf b
  | .fin a m e, .fin b n f =>
    let g := min e f
    let v := signedAt a m e g + signedAt b n f g
    if v = 0 then .fin (if a = b then a else down) 0 0 else .fin (decide (v < 0)) v.natAbs g

/-- The exact product. -/
def XNum.mul : XNum → XNum → XNum
  | .nan, _ => .nan
  | _, .nan => .nan
  | .inf a, .inf b => .inf (a != b)
  | .inf a, .fin b n _ => if n = 0 then .nan else .inf (a != b)
  | .fin a m _, .inf b => if m = 0 then .nan else .inf (a != b)
  | .fin a m e, .fin b n f => .fin (a != b) (m * n) (e + f)

/-- A number times 2^k. -/
def XNum.scale (k : Int) : XNum → XNum
  | .fin n m e => .fin n m (e + k)
  | x => x

/-- The sign of a - b as -1, 0 or 1 for numbers that are not NaN. -/
def XNum.cmp : XNum → XNum → Int
  | .inf a, .inf b => if a = b then 0 else if a then -1 else 1
  | .inf a, _ => if a then -1 else 1
  | _, .inf b => if b then 1 else -1
  | .fin a m e, .fin b n f =>
    let g := min e f
    (signedAt a m e g - signedAt b n f g).sign
  | _, _ => 0

/-- a < b, false with a NaN operand (R268). -/
def XNum.lt (a b : XNum) : Bool := !a.isNan && !b.isNan && XNum.cmp a b = -1

/-- a = b; both zeros are equal (R268). -/
def XNum.eq (a b : XNum) : Bool := !a.isNan && !b.isNan && XNum.cmp a b = 0

/-- minimumNumber (R268): a NaN operand yields the other; -0 orders below +0. -/
def XNum.minNum (a b : XNum) : XNum :=
  if a.isNan then b else if b.isNan then a
  else if XNum.lt a b then a else if XNum.lt b a then b else if a.sign then a else b

/-- maximumNumber (R268). -/
def XNum.maxNum (a b : XNum) : XNum :=
  if a.isNan then b else if b.isNan then a
  else if XNum.lt a b then b else if XNum.lt b a then a else if a.sign then b else a

/-- A floating-point element format (R256): exponent and mantissa widths, bias, whether it has infinities and NaN, the
largest mantissa count at the largest exponent, in units of 2^(top - m), and that exponent. -/
structure FloatFmt where
  e : Nat
  m : Nat
  bias : Int
  hasInf : Bool
  hasNan : Bool
  topM : Nat
  topE : Int
  qnan : Nat
  deriving DecidableEq, Repr

def fp32 : FloatFmt := ⟨8, 23, 127, true, true, 2 ^ 24 - 1, 127, 0x7FC00000⟩
def bf16 : FloatFmt := ⟨8, 7, 127, true, true, 2 ^ 8 - 1, 127, 0x7FC0⟩
def fp16 : FloatFmt := ⟨5, 10, 15, true, true, 2 ^ 11 - 1, 15, 0x7E00⟩
def e5m2 : FloatFmt := ⟨5, 2, 15, true, true, 7, 15, 0x7E⟩
def e4m3 : FloatFmt := ⟨4, 3, 7, false, true, 14, 8, 0x7F⟩
def e3m2 : FloatFmt := ⟨3, 2, 3, false, false, 7, 4, 0⟩
def e2m3 : FloatFmt := ⟨2, 3, 1, false, false, 15, 2, 0⟩
def e2m1 : FloatFmt := ⟨2, 1, 1, false, false, 3, 2, 0⟩

/-- `decode(c, F)` of a float format (R256). -/
def FloatFmt.decode (F : FloatFmt) (c : Nat) : XNum :=
  let neg := decide (c / 2 ^ (F.e + F.m) % 2 = 1)
  let E := c / 2 ^ F.m % 2 ^ F.e
  let M := c % 2 ^ F.m
  let ones := 2 ^ F.e - 1
  if F.hasInf && E = ones then (if M = 0 then .inf neg else .nan)
  else if F.hasNan && !F.hasInf && E = ones && M = 2 ^ F.m - 1 then .nan
  else if E = 0 then .fin neg M (1 - F.bias - F.m)
  else .fin neg (2 ^ F.m + M) ((E : Int) - F.bias - F.m)

/-- Rounding modes of R277. -/
inductive RoundMode where
  | rne | rtz | rdn | rup | sr
  deriving DecidableEq, Repr

/-- The rounding mode of a code; 7 means MODE.RM, given as `dflt` (R277). -/
def RoundMode.ofCode (dflt : Nat) (c : Nat) : RoundMode :=
  match (if c = 7 then dflt else c) with
  | 0 => .rne
  | 1 => .rtz
  | 2 => .rdn
  | 3 => .rup
  | _ => .sr

/-- One rounding step of R264: the count of units of 2^u that the magnitude m * 2^e becomes. `r` is the draw under SR. -/
def roundUnits (neg : Bool) (m : Nat) (e u : Int) (rm : RoundMode) (r : Nat) : Nat :=
  if u ≤ e then m * 2 ^ (e - u).toNat
  else
    let k := (u - e).toNat
    let lo := m / 2 ^ k
    let rest := m % 2 ^ k
    if rest = 0 then lo
    else match rm with
      | .rne => if 2 * rest < 2 ^ k then lo else if 2 * rest > 2 ^ k then lo + 1 else lo + lo % 2
      | .rtz => lo
      | .rdn => if neg then lo + 1 else lo
      | .rup => if neg then lo else lo + 1
      | .sr => if r < rest * 65536 / 2 ^ k then lo + 1 else lo

/-- The exponent of the unit of F around m * 2^e: max(floor(log2 |x|), EMIN) - M. -/
def FloatFmt.unit (F : FloatFmt) (m : Nat) (e : Int) : Int :=
  max ((Nat.log2 m : Int) + e) (1 - F.bias) - F.m

/-- Whether `round` finds a magnitude above MAXF(F), or an infinity (R264, R265). -/
def FloatFmt.overflows (F : FloatFmt) (x : XNum) (rm : RoundMode) (r : Nat) : Bool :=
  match x with
  | .nan => false
  | .inf _ => true
  | .fin neg m e =>
    if m = 0 then false
    else
      let u := F.unit m e
      let n := roundUnits neg m e u rm r
      let t := F.topE - F.m
      decide (XNum.cmp (.fin false n u) (.fin false F.topM t) = 1)

/-- `round(x, F, rm)` as a code of F (R264). `r` is the draw made on entry under SR. -/
def FloatFmt.round (F : FloatFmt) (x : XNum) (rm : RoundMode) (r : Nat := 0) : Nat :=
  let signBit (neg : Bool) : Nat := if neg then 2 ^ (F.e + F.m) else 0
  let maxCode : Nat := ((F.topE + F.bias - 1).toNat) * 2 ^ F.m + F.topM
  let infCode : Nat := (2 ^ F.e - 1) * 2 ^ F.m
  match x with
  | .nan => if F.hasNan then F.qnan else 0
  | .inf neg => signBit neg + (if F.hasInf then infCode else maxCode)
  | .fin neg m e =>
    if m = 0 then signBit neg
    else if F.overflows x rm r then
      signBit neg +
        (if !F.hasInf then maxCode
         else match rm with
          | .rne => infCode
          | .sr => infCode
          | .rtz => maxCode
          | .rdn => if neg then infCode else maxCode
          | .rup => if neg then maxCode else infCode)
    else
      let u := F.unit m e
      let n := roundUnits neg m e u rm r
      signBit neg + (((u + F.m + F.bias - 1).toNat) * 2 ^ F.m + n)

/-- The rounded value as a number. -/
def FloatFmt.roundX (F : FloatFmt) (x : XNum) (rm : RoundMode) (r : Nat := 0) : XNum := F.decode (F.round x rm r)

/-- `round_int(x, n, rm)` (R264). -/
def roundInt (x : XNum) (n : Nat) (rm : RoundMode) (r : Nat := 0) : Int :=
  let hi : Int := 2 ^ (n - 1) - 1
  let lo : Int := -2 ^ (n - 1)
  match x with
  | .nan => 0
  | .inf neg => if neg then lo else hi
  | .fin neg m e =>
    let k := roundUnits neg m e 0 rm r
    let v : Int := if neg then -(k : Int) else k
    min hi (max lo v)

/-- Whether `round_int` meets NaN, an infinity or a value outside its range (R265, R301). -/
def intOverflows (x : XNum) (n : Nat) (rm : RoundMode) (r : Nat := 0) : Bool :=
  match x with
  | .nan => true
  | .inf _ => true
  | .fin neg m e =>
    let k := roundUnits neg m e 0 rm r
    if neg then decide (k > 2 ^ (n - 1)) else decide (k > 2 ^ (n - 1) - 1)

/-- A two's complement number of n bits. -/
def sextNat (n v : Nat) : Int :=
  let w := v % 2 ^ n
  if w < 2 ^ (n - 1) then w else (w : Int) - 2 ^ n

/-- A signed number as n bits. -/
def wrapInt (n : Nat) (v : Int) : Nat := (v % (2 ^ n : Int)).toNat

/-! ### Element formats by code (R254) -/

/-- The float format of a format code, if it is one. -/
def floatOfFmt : Nat → Option FloatFmt
  | 0x05 => some fp32
  | 0x06 => some bf16
  | 0x07 => some fp16
  | 0x08 => some e4m3
  | 0x09 => some e5m2
  | 0x0A => some e3m2
  | 0x0B => some e2m3
  | 0x0C => some e2m1
  | _ => none

/-- Bits per element (R254). -/
def fmtBits : Nat → Nat
  | 0x02 => 16
  | 0x03 => 32
  | 0x04 => 64
  | 0x05 => 32
  | 0x06 => 16
  | 0x07 => 16
  | 0x0A => 6
  | 0x0B => 6
  | 0x0C => 4
  | 0x0D => 4
  | _ => 8

/-- Bytes of a packing unit (R254). -/
def fmtUnit : Nat → Nat
  | 0x02 => 2
  | 0x03 => 4
  | 0x04 => 8
  | 0x05 => 4
  | 0x06 => 2
  | 0x07 => 2
  | 0x0A => 3
  | 0x0B => 3
  | _ => 1

/-- Elements of a packing unit (R254). -/
def fmtUnitElems : Nat → Nat
  | 0x0A => 4
  | 0x0B => 4
  | 0x0C => 2
  | 0x0D => 2
  | _ => 1

/-- `decode(c, FMT)` of any element format (R256, R258); `lut` is the table of R187. -/
def decodeElem (fmt : Nat) (lut : Nat → Int) (c : Nat) : XNum :=
  match floatOfFmt fmt with
  | some F => F.decode c
  | none =>
    if fmt = 0x0D then .ofInt (lut (c % 16))
    else if fmt = 0x0E then (XNum.ofInt (sextNat 8 c)).scale (-6)
    else .ofInt (sextNat (fmtBits fmt) c)

/-- EMAXE of `mx_scale` (R264). -/
def emaxE : Nat → Int
  | 0x08 => 8
  | 0x09 => 15
  | 0x0A => 4
  | 0x0B => 2
  | 0x0C => 2
  | _ => 0

/-- The floor of log2 of a finite non-zero magnitude. -/
def floorLog2 (m : Nat) (e : Int) : Int := (Nat.log2 m : Int) + e

/-- `mx_scale(v, F)` (R264). -/
def mxScale (fmt : Nat) (v : List XNum) : Nat :=
  if v.any (fun x => x.isNan || x.isInf) then 0xFF
  else
    let tops := v.filterMap (fun x => match x with
      | .fin _ m e => if m = 0 then none else some (floorLog2 m e)
      | _ => none)
    match tops with
    | [] => 0x7F
    | t :: ts => (min 254 (max 0 (ts.foldl max t - emaxE fmt + 127))).toNat

/-! ### Division, roots and special functions (R269) -/

/-- The integer square root by binary search over `fuel` bits. -/
def isqrtGo (n : Nat) : Nat → Nat → Nat
  | 0, r => r
  | k + 1, r =>
    let r' := r + 2 ^ k
    isqrtGo n k (if r' * r' ≤ n then r' else r)

/-- The integer square root. -/
def isqrt (n : Nat) : Nat := isqrtGo n (Nat.log2 n / 2 + 1) 0

/-- A quotient to 64 bits below its leading bit, with a last bit that stands for the remainder. A format of R256 rounds it
as it rounds the exact quotient. -/
def divSticky (neg : Bool) (m : Nat) (e : Int) (n : Nat) (f : Int) : XNum :=
  let k := 64 + Nat.log2 n
  let q := m * 2 ^ k / n
  let s := if m * 2 ^ k % n = 0 then 0 else 1
  .fin neg (2 * q + s) (e - f - k - 1)

/-- The square root of m * 2^e in the same form. -/
def sqrtSticky (m : Nat) (e : Int) : XNum :=
  let odd := (e % 2).toNat
  let n := m * 2 ^ odd * 2 ^ 128
  let r := isqrt n
  let s := if r * r = n then 0 else 1
  .fin false (2 * r + s) ((e - odd) / 2 - 64 - 1)

/-- ln 2 times 2^p, bounded below: the sum of 1 / (k 2^k). The error is less than p + 4 units. -/
def ln2Terms (p : Nat) : Nat → Nat
  | 0 => 0
  | k + 1 => 2 ^ p / ((k + 1) * 2 ^ (k + 1)) + ln2Terms p k

/-- Bounds of ln 2 in units of 2^-p. -/
def ln2Bounds (p : Nat) : Nat × Nat :=
  let s := ln2Terms p (p + 2)
  (s, s + p + 4)

/-- The sum of y^k / k! for y in units of 2^-p, from term t at index k; every division rounds down. -/
def expTerms (p y : Nat) : Nat → Nat → Nat → Nat
  | 0, _, t => t
  | fuel + 1, k, t => t + expTerms p y fuel (k + 1) (t * y / 2 ^ p / (k + 1))

/-- Bounds of exp of a number in [ylo, yhi] units of 2^-p, 0 to 1. -/
def expBounds (p ylo yhi : Nat) : Nat × Nat :=
  (expTerms p ylo (p + 4) 0 (2 ^ p), expTerms p yhi (p + 4) 0 (2 ^ p) + 3 * p + 16)

/-- Bounds of 2^f for a fraction f in [flo, fhi] units of 2^-p, 0 to 1. -/
def exp2Bounds (p flo fhi : Nat) : Nat × Nat :=
  let (llo, lhi) := ln2Bounds p
  expBounds p (flo * llo / 2 ^ p) (fhi * lhi / 2 ^ p + 1)

/-- The binary digits of log2 of x in [1, 2), by squaring: `n` digits of a lower and an upper bound in units of 2^-w. -/
def log2Digits (w : Nat) : Nat → Nat → Nat → Nat
  | 0, _, acc => acc
  | n + 1, x, acc =>
    let y := x * x / 2 ^ w
    if y ≥ 2 ^ (w + 1) then log2Digits w n (y / 2) (2 * acc + 1) else log2Digits w n y (2 * acc)

/-- The same with every squaring rounded up. -/
def log2DigitsUp (w : Nat) : Nat → Nat → Nat → Nat
  | 0, _, acc => acc
  | n + 1, x, acc =>
    let y := x * x / 2 ^ w + 1
    if y ≥ 2 ^ (w + 1) then log2DigitsUp w n (y / 2 + 1) (2 * acc + 1) else log2DigitsUp w n y (2 * acc)

/-- Round a value between two bounds if both round alike, else try the next precision. -/
def ziv (F : FloatFmt) (rm : RoundMode) (bounds : Nat → XNum × XNum) : List Nat → Nat
  | [] => 0
  | p :: ps =>
    let (lo, hi) := bounds p
    if F.round lo rm = F.round hi rm then F.round lo rm else ziv F rm bounds ps

/-- The precisions that the special functions try, in bits (log 12). -/
def zivPrecisions : List Nat := [96, 192, 384, 768, 1536]

/-- 2^x for a finite x that is not zero: exact for integers, else between bounds. -/
def exp2Round (F : FloatFmt) (rm : RoundMode) (neg : Bool) (m : Nat) (e : Int) : Nat :=
  let top := floorLog2 m e
  if top ≥ 10 then
    F.round (if neg then .fin false 1 (-2000) else .fin false 1 2000) rm
  else if e ≥ 0 then
    let k : Int := (m * 2 ^ e.toNat : Nat)
    F.round (.fin false 1 (if neg then -k else k)) rm
  else
    let d := (-e).toNat
    let v : Int := if neg then -(m : Int) else m
    let k := v / (2 ^ d : Int)
    let f := (v % (2 ^ d : Int)).toNat
    if f = 0 then F.round (.fin false 1 k) rm
    else
      ziv F rm (fun p =>
        let flo := f * 2 ^ p / 2 ^ d
        let fhi := flo + 1
        let (lo, hi) := exp2Bounds p flo fhi
        (.fin false lo (k - p), .fin false hi (k - p))) zivPrecisions

/-- log2 of a finite positive number. -/
def log2Round (F : FloatFmt) (rm : RoundMode) (m : Nat) (e : Int) : Nat :=
  let l := Nat.log2 m
  let k : Int := e + l
  if m = 2 ^ l then F.round (.ofInt k) rm
  else
    ziv F rm (fun p =>
      let w := 2 * p + 32
      let x := m * 2 ^ w / 2 ^ l
      let lo := log2Digits w p x 0
      let hi := log2DigitsUp w p (if m * 2 ^ w % 2 ^ l = 0 then x else x + 1) 0 + 1
      let a : Int := k * 2 ^ p + lo
      let b : Int := k * 2 ^ p + hi
      (.fin (decide (a < 0)) a.natAbs (-(p : Int)), .fin (decide (b < 0)) b.natAbs (-(p : Int)))) zivPrecisions

/-- The hyperbolic tangent of a finite x that is not zero, from exp of -2|x|: (1 - t) / (1 + t). Below 2^-40 it lies
between x - x^3 / 3 and x, and every rounding of R264 gives both the same result. -/
def tanhRound (F : FloatFmt) (rm : RoundMode) (neg : Bool) (m : Nat) (e : Int) : Nat :=
  let top := floorLog2 m e
  if top < -40 then
    F.round (divSticky neg (3 * m * 2 ^ (-2 * e).toNat - m * m * m) (3 * e) 3 0) rm
  else if top ≥ 6 then
    F.round (.fin neg (2 ^ 512 - 1) (-512)) rm
  else
    ziv F rm (fun p =>
      let w := p + 64
      -- 2|x| in units of 2^-w, rounded down and up, then split into a whole part and a fraction of ln 2
      let sh := (e + 1 + w).toNat
      let ylo := if e + 1 + w ≥ 0 then m * 2 ^ sh else m / 2 ^ (-(e + 1 + w)).toNat
      let yhi := if e + 1 + w ≥ 0 then ylo else ylo + 1
      let (llo, lhi) := ln2Bounds w
      let k := ylo / lhi
      let rlo := ylo - k * lhi
      let rhi := yhi - k * llo
      let (elo, ehi) := (expTerms w rlo (w + 4) 0 (2 ^ w), expTerms w rhi (w + 4) 0 (2 ^ w) + 8 * w + 64)
      -- exp(2|x|) lies between elo * 2^k and ehi * 2^k in units of 2^-w; tanh = (E - 1) / (E + 1)
      let one := 2 ^ w
      let a := elo * 2 ^ k
      let b := ehi * 2 ^ k
      (divSticky neg (a - one) 0 (a + one) 0, divSticky neg (b - one) 0 (b + one) 0)) zivPrecisions

end Sys2Proof.Machine
end

