-- ==== Sys2Proof/Machine/Layout.lean ====
section
/-! DEFINITION. The layout of elements in memory: packing units, blocks, scale bytes and scale planes (R255, R259, R260, R366). -/

namespace Sys2Proof.Machine

/-- The size U of a packing unit or block of a format and geometry (R259). -/
def blockSize (fmt geo : Nat) : Nat :=
  match geo with
  | 1 => 1 + 4 * fmtBits fmt
  | 2 => 4 * fmtBits fmt
  | _ => fmtUnit fmt

/-- The offset in its 64 KiB span, the units of a span, and whether a VA starts a unit or block (R255). -/
def spanOff (va : Nat) : Nat := va % 65536
def startsUnit (u va : Nat) : Bool := spanOff va % u = 0 && spanOff va / u < 65536 / u

/-- A run of bytes touches bytes of a span that hold no element (R255). -/
def touchesHole (u va n : Nat) : Bool := n ≠ 0 && 65536 % u ≠ 0 && spanOff va + n > 65536 / u * u

/-- The VA of the scale byte of the block that starts at c, in the plane of GEO 2 (R260). -/
def planeAddr (u soff c : Nat) : Nat :=
  let b := c / 2 ^ soff * 2 ^ soff
  b + 2 ^ soff + (c - b) / 65536 * (65536 / u) + spanOff c / u

/-- The ranges of an operand: data bytes, whose bits are the elements one after another, and the VA of each scale byte. -/
structure Ranges where
  data : List (Nat × Nat)
  scales : List Nat
  deriving DecidableEq, Repr

/-- The ranges of n elements that start a unit or block at va (R259, R260). -/
def runRanges (fmt geo soff va n : Nat) : Ranges :=
  let w := fmtBits fmt
  let u := blockSize fmt geo
  let blocks := (List.range (n / 32)).map (fun b => va + b * u)
  match geo with
  | 1 => { data := blocks.map (fun c => (c + 1, 4 * w)), scales := blocks }
  | 2 => { data := [(va, n / 32 * u)], scales := blocks.map (planeAddr u soff) }
  | _ => { data := [(va, (n * w + 7) / 8)], scales := [] }

/-- The ranges of a typed access of n elements (R366): with GEO 1 or 2 and at most 32 elements, part of one block. -/
def typedRanges (fmt geo soff va n : Nat) : Ranges :=
  if geo = 0 ∨ n > 32 then runRanges fmt geo soff va n
  else
    let u := blockSize fmt geo
    let c := va - spanOff va % u
    { data := [(va, n * fmtBits fmt / 8)], scales := [if geo = 1 then c else planeAddr u soff c] }

end Sys2Proof.Machine
end

