-- ==== Sys2Proof/Machine/Translate.lean ====
section
/-! DEFINITION. Global physical addresses, homes, and translation: R105 to R112, R114, R116 to R121, R124, R399. -/

namespace Sys2Proof.Machine

/-- The kind of an access, coded as in the syndrome of R238. -/
inductive Acc where
  | read | write | fetch | atomic
  deriving DecidableEq, Repr

def Acc.code : Acc → Nat
  | .read => 0
  | .write => 1
  | .fetch => 2
  | .atomic => 3

/-! ### Global physical addresses (R105) -/

def gpaDev (g : Nat) : Nat := bitsAt g 63 54
def gpaSpace (g : Nat) : Nat := bitsAt g 53 52
def gpaRow (g : Nat) : Nat := bitsAt g 51 45
def gpaCol (g : Nat) : Nat := bitsAt g 44 38
def gpaWindow (g : Nat) : Nat := bitsAt g 25 0
def gpaOffset (g : Nat) : Nat := bitsAt g 51 0
def gpaHub (g : Nat) : Nat := bitsAt g 51 45
def gpaHubOff (g : Nat) : Nat := bitsAt g 23 0

/-- Whether a GPA names this device (R74). -/
def State.gpaLocal (s : State) (g : Nat) : Bool := gpaDev g = 0x3FF || gpaDev g = s.loith.device

/-- HBMSIZE and CAPSIZE (R111, R114). -/
def hbmSize : Nat := 48 * 30517 * 2 ^ 21
def capSize : Nat := 32 * 953 * 2 ^ 30

/-- The line of an address: the address divided by 128. -/
def lineOf (a : Nat) : Nat := a / 128

/-- The GPA of a line of this device. -/
def lineGpa (l : Nat) : Nat := 0x3FF * 2 ^ 54 + 128 * l

/-- The key of a line for the fetch buffer: of this device by its address here, of another by its whole GPA (R342). -/
def State.fetchKey (s : State) (g : Nat) : Nat := if s.gpaLocal g then lineOf (gpaKey g) else lineOf g

/-! ### Homes (R112, R114, R399) -/

/-- The HBM stack of an offset, and the offset in the stack (R111). -/
def hbmStack (o : Nat) : Nat := o / 2 ^ 21 % 48
def hbmStackOffset (o : Nat) : Nat := o / (96 * 2 ^ 20) * 2 ^ 21 + o % 2 ^ 21

/-- Whether the slice of a local index of a field takes homes (R112). -/
def State.sliceLive (s : State) (f i : Nat) : Bool := (s.hubOf f).liveSlices.get true i

/-- The hash of a line (R112). -/
def lineHash (l : Nat) : Nat := bitsAt l 15 0 ^^^ bitsAt l 31 16 ^^^ bitsAt l 44 32

/-- The first candidate slice at or after j that is live, among n slices 120 to a field. -/
def State.probeSlice (s : State) (fields : Nat → Nat) (n : Nat) : Nat → Nat → Nat
  | 0, j => j
  | k + 1, j => if s.sliceLive (fields (j / 120)) (j % 120) then j else s.probeSlice fields n k ((j + 1) % n)

/-- `home_slice(gpa)` of an HBM offset: the home tile (R112). -/
def State.homeHbm (s : State) (o : Nat) : Nat :=
  let st := hbmStack o
  let fy := if st < 24 then 0 else 8
  let a := min 8 (5 * (st % 24) / 12)
  let fields := fun q => 10 * fy + a + q
  let j := s.probeSlice fields 240 240 (lineHash (lineOf o) % 240)
  tileOfLocal (fields (j / 120)) (j % 120)

/-- The stripe entry that covers a capacity offset (R399). -/
def State.stripeOf (s : State) (o : Nat) : Option Stripe :=
  (List.find? (fun e => e.2.valid && e.2.base * 2 ^ 35 ≤ o && o < (e.2.base + e.2.len) * 2 ^ 35) s.stripes).map (fun e => e.2)

/-- The chip of a capacity offset and the offset in the chip (R114, R399). -/
def State.chipOf (s : State) (o : Nat) : Nat × Nat :=
  match s.stripeOf o with
  | some e =>
    let p := o - e.base * 2 ^ 35
    let q := p / 2 ^ e.log2u
    (q % 32, e.base * 2 ^ 30 + q / 32 * 2 ^ e.log2u + p % 2 ^ e.log2u)
  | none => (o / 2 ^ 30 % 32, o / 2 ^ 35 * 2 ^ 30 + o % 2 ^ 30)

/-- The fabric interface of a chip and the fields of its span, ascending (R15, R16). -/
def chipInterface (c : Nat) : Nat := c / 4
def interfaceFields (i : Nat) : List Nat :=
  let col := if i < 4 then 0 else 9
  let rows := match i % 4 with
    | 0 => [0, 1]
    | 1 => [2, 3, 4]
    | 2 => [5, 6]
    | _ => [7, 8]
  rows.map (fun r => 10 * r + col)

/-- The home tile of a capacity offset (R114). -/
def State.homeCap (s : State) (o : Nat) : Nat :=
  let fs := interfaceFields (chipInterface (s.chipOf o).1)
  let fields := fun q => fs.getD q 0
  let n := 120 * fs.length
  let j := s.probeSlice fields n n (lineHash (lineOf o) % n)
  tileOfLocal (fields (j / 120)) (j % 120)

/-- Where an access takes effect (R204): a tile, a field hub, or another device. -/
inductive Home where
  | tile (t : Nat)
  | hub (f : Nat)
  | device (d : Nat)
  deriving DecidableEq, Repr

/-- The home of a GPA. -/
def State.homeOf (s : State) (g : Nat) : Home :=
  if !s.gpaLocal g then .device (gpaDev g)
  else match gpaSpace g with
    | 0 => .tile (tileAt (gpaCol g) (gpaRow g))
    | 1 => .tile (s.homeHbm (gpaOffset g))
    | 2 => .tile (s.homeCap (gpaOffset g))
    | _ => .hub (gpaHub g)

/-- The tiles of a field stand still during a relock, and packets for them wait in the clock-crossing FIFOs (R19). -/
def State.tileStill (s : State) (t : Nat) : Bool := (s.hubOf (fieldOfTile t)).locking.isSome
def State.homeStill (s : State) (g : Nat) : Bool := match s.homeOf g with
  | .tile t => s.tileStill t
  | _ => false

/-- The state of an operation that starts or goes on at a tile: running, or saved while the field quiesces (R97, R244). -/
def State.opGoing (s : State) (t : Nat) : Nat := if (s.hubOf (fieldOfTile t)).sw.step = 1 then 4 else 1

/-- A window of a tile in a field that runs another partition than the issuing tile's: no level reaches its state, and the access waits (R96; log 115). -/
def State.foreign (s : State) (src g : Nat) : Bool :=
  let tag := fun (t : Nat) => (s.hubOf (fieldOfTile t)).runTag
  match s.homeOf g with
  | .tile t => gpaSpace g = 0 && tag src ≠ 0 && tag t ≠ 0 && tag t ≠ tag src
  | _ => false

/-- How far a home is from a tile: 0 the tile itself, 1 its field, 2 the device, 3 another device (R209). -/
def State.reachOf (t : Nat) : Home → Nat
  | .tile u => if u = t then 0 else if fieldOfTile u = fieldOfTile t then 1 else 2
  | .hub f => if f = fieldOfTile t then 1 else 2
  | .device _ => 3

/-! ### Page-table entries (R117) -/

structure Pte where
  raw : Nat
  deriving DecidableEq, Repr

def Pte.v (e : Pte) : Bool := bitAt e.raw 0
def Pte.t (e : Pte) : Bool := bitAt e.raw 1
def Pte.rd (e : Pte) : Bool := bitAt e.raw 2
def Pte.w (e : Pte) : Bool := bitAt e.raw 3
def Pte.x (e : Pte) : Bool := bitAt e.raw 4
def Pte.a (e : Pte) : Bool := bitAt e.raw 5
def Pte.kind (e : Pte) : Nat := bitsAt e.raw 8 6
def Pte.p (e : Pte) : Bool := bitAt e.raw 9
def Pte.frame (e : Pte) : Nat := bitsAt e.raw 63 16
def Pte.lt (e : Pte) : Nat := bitsAt e.raw 105 90
def Pte.soff (e : Pte) : Nat := bitsAt e.raw 111 106
def Pte.geo (e : Pte) : Nat := bitsAt e.raw 114 112
def Pte.fmt (e : Pte) : Nat := bitsAt e.raw 119 115
def Pte.owner (e : Pte) : Nat := bitsAt e.raw 127 120

/-- Log2 of the page size of a leaf at a level (R116). -/
def levelShift (lvl : Nat) : Nat := 16 + 12 * lvl

/-- KIND matches the frame's space (R117). -/
def Pte.kindFits (e : Pte) : Bool :=
  let sp := gpaSpace (e.frame * 2 ^ 16)
  match e.kind with
  | 0 => sp = 1 || sp = 2
  | 1 => sp = 1 || sp = 2
  | 2 => sp = 3
  | 3 => sp = 0
  | 4 => e.frame = 0
  | _ => false

/-- A malformed entry (R117); `own` says that a frame names the device itself. -/
def Pte.malformed (e : Pte) (lvl : Nat) (own : Bool) : Bool :=
  if e.t then
    e.raw ≠ 3 + e.frame * 2 ^ 16 || !own || gpaSpace (e.frame * 2 ^ 16) ≠ 1 || hbmSize ≤ gpaOffset (e.frame * 2 ^ 16) || lvl = 0
  else
    lvl = 3 || bitsAt e.raw 15 10 ≠ 0 || bitsAt e.raw 89 64 ≠ 0 || e.kind > 4 ||
      e.frame % 2 ^ (levelShift lvl - 16) ≠ 0 ||
      (if e.geo = 2 then e.soff < 16 || 52 < e.soff else e.soff ≠ 0) ||
      (e.lt ≠ 0 && e.kind ≠ 4) || !e.kindFits

/-- Whether an entry allows an access, and the cause if not (R119, R126). -/
def Pte.refuses (e : Pte) (acc : Acc) : Option Cause :=
  match acc with
  | .read => if e.rd then none else some .permR
  | .write => if e.w then none else some .permW
  | .fetch => if e.x then none else some .permX
  | .atomic => if e.a then none else some .permAtomic

/-- How a translation ends: a GPA with its leaf, a fault with the level that failed, or a wait (R124). -/
inductive Tr where
  | ok (gpa : Nat) (pte : Pte)
  | bad (cause : Cause) (level : Nat)
  | wait
  deriving DecidableEq, Repr

/-- The index of a VA at a level (R116). -/
def levelIndex (va lvl : Nat) : Nat := va / 2 ^ levelShift lvl % (if lvl = 3 then 256 else 4096)

/-- Read an entry of a table; a poisoned line cannot be read (cause 0x1F). -/
def State.readPte (s : State) (frame idx : Nat) : Option Pte :=
  let a := gpaKey (frame * 2 ^ 16) + 16 * idx
  if s.poison.contains (lineOf a) then none else some { raw := s.mem.readLE a 16 }

/-- The walk of R119 from a table at a level; `fuel` counts levels. -/
def State.walk (s : State) (va tag : Nat) (acc : Acc) : Nat → Nat → Nat → Except (Cause × Nat) (Pte × Nat)
  | 0, _, lvl => .error (.pteBad, lvl)
  | fuel + 1, frame, lvl =>
    match s.readPte frame (levelIndex va lvl) with
    | none => .error (.walkError, lvl)
    | some e =>
      if !e.v then .error (.pageAbsent, lvl)
      else if e.malformed lvl (s.gpaLocal (e.frame * 2 ^ 16)) then .error (.pteBad, lvl)
      else if e.t then s.walk va tag acc fuel e.frame (lvl - 1)
      else if e.owner ≠ tag then .error (.ownerMismatch, lvl)
      else if e.p then .error (.pagePoison, lvl)
      else match e.refuses acc with
        | some c => .error (c, lvl)
        | none => .ok (e, lvl)

/-- A held translation of a VA (R121). -/
def TlbEntry.covers (e : TlbEntry) (tag va : Nat) : Bool :=
  e.tag = tag && va / 2 ^ levelShift e.level = e.va / 2 ^ levelShift e.level

/-- The logical tile of a tag is in migration: its actors are held (R175). -/
def State.migrating (s : State) (tag kind idx : Nat) : Bool :=
  s.migrations.any (fun g => g.tag = tag && g.lkind = kind && g.lidx = idx && 1 ≤ g.step)

/-- The tile that a KIND 4 leaf resolves to: none while the entry or the actors of the logical tile are held (R124). -/
def State.resolveLogical (s : State) (tag : Nat) (e : Pte) : Except Cause (Option Nat) :=
  let w := s.cttEntry tag (e.lt / 2 ^ 14) (e.lt % 2 ^ 14)
  if !cttValid w || cttOwner w ≠ tag then .error .destDark
  else if cttHold w || s.migrating tag (e.lt / 2 ^ 14) (e.lt % 2 ^ 14) then .ok none
  else .ok (some (cttTile w))

/-- The GPA of a VA by a leaf; `tile` is what KIND 4 resolved to. -/
def leafGpa (e : Pte) (va lvl tile : Nat) : Nat :=
  let low := va % 2 ^ levelShift lvl
  if e.kind = 4 then (if low < 2 ^ 26 then tileGpa tile low else 0x3FF * 2 ^ 54 + 2 ^ 26)
  else e.frame * 2 ^ 16 + low

/-- What the field translation unit of a core holds, without the core's micro-TLB: engines, copies and gathers translate there (R121). -/
def State.fieldView (s : State) (core : Nat) : State :=
  if (s.coreOf core).utlb.isEmpty then s else s.updCore core (fun k => { k with utlb := [] })

/-- `translate(va, acc)` for a tag at a core (R119, R121, R124): a held entry is used where there is one, else a walk. -/
def State.translate (s : State) (core tag va : Nat) (acc : Acc) : Tr :=
  if va / 2 ^ 60 ≠ 0 then .bad .vaRange 0
  else
    let f := fieldOfTile (tileOfCore core)
    let h := s.hubOf f
    let finish (e : Pte) (lvl : Nat) (tile : Option Nat) : Tr :=
      if e.kind = 4 then
        match tile with
        | some t => if s.migrating tag (e.lt / 2 ^ 14) (e.lt % 2 ^ 14) then .wait else .ok (leafGpa e va lvl t) e
        | none => match s.resolveLogical tag e with
          | .error c => .bad c lvl
          | .ok none => .wait
          | .ok (some t) => .ok (leafGpa e va lvl t) e
      else .ok (leafGpa e va lvl 0) e
    match List.find? (fun e => e.covers tag va) ((s.coreOf core).utlb ++ h.tlb) with
    | some e =>
      let p : Pte := { raw := e.pte }
      if p.p then .bad .pagePoison e.level
      else match p.refuses acc with
        | some c => .bad c e.level
        | none => finish p e.level (some e.tile)
    | none =>
      match s.partOfTag tag with
      | none => .bad .pageAbsent 3
      | some i =>
        let root := h.troots.get 0 i
        if !bitAt root 0 then .bad .pageAbsent 3
        else match s.walk va tag acc 4 (bitsAt root 63 16) 3 with
          | .error (c, lvl) => .bad c lvl
          | .ok (e, lvl) => finish e lvl none

/-! ### Checks at the source (R105, R106, R108, R110, R241, R335) -/

/-- The least level that may make an access of a kind to a window offset (R106), and whether the offset is defined. -/
inductive Region where
  | localStore | slice | image | engine | mailbox | stream | control | debug | hole
  deriving DecidableEq, Repr

/-- The region of a window offset (R106). -/
def regionOf (o : Nat) : Region :=
  if o < 0x300000 then .localStore
  else if 0x400000 ≤ o && o < 0x700000 then .slice
  else if 0x800000 ≤ o && o < 0x804000 then .image
  else if 0x900000 ≤ o && o < 0x910000 then .engine
  else if 0xA00000 ≤ o && o < 0xA08000 then .mailbox
  else if 0xB00000 ≤ o && o < 0xB04000 then .stream
  else if 0xC00000 ≤ o && o < 0xC10000 then .control
  else if 0xD00000 ≤ o && o < 0xD10000 then .debug
  else .hole

/-- An access to a tile window by software of a level (R106, R241, R335). `att` says that the writer is attached to the debug
page, with the halt right if `halt`. -/
def windowRefuses (o size : Nat) (acc : Acc) (level : Nat) (att halt : Bool) : Option Cause :=
  let r := regionOf o
  if r = .hole || regionOf (o + size - 1) ≠ r then some .gpaRange
  else if level ≥ 2 then none
  else match r with
    | .localStore => none
    | .hole => some .gpaRange
    | .slice => some .kindMismatch
    | .image => if acc = .atomic then some .kindMismatch else none
    | .engine => if acc = .atomic then some .kindMismatch else none
    | .mailbox => if acc = .read || acc = .fetch then none else some .kindMismatch
    | .stream => if acc = .read || acc = .fetch then none else some .kindMismatch
    | .control =>
      if acc = .atomic || (acc = .write && level = 0) then some .kindMismatch else none
    | .debug =>
      if acc = .atomic || level = 0 then some .kindMismatch
      else if o % 0x1000 + size ≤ 0x10 then none
      else if !att then some .capRights
      else if o % 0x1000 < 0x18 && !halt then some .capRights
      else none

/-- Whether a hub offset lies in a block of R108 that hub f holds. -/
def hubDefined (f o : Nat) : Bool :=
  let two := f = 0 || f = 89
  if o < 0x58 then true
  else if o < 0x100 then false
  else if o < 0x180 then true
  else if o < 0x10000 then false
  else if o < 0x10028 then true
  else if o < 0x10040 then false
  else if o < 0x10060 then true
  else if o < 0x10100 then false
  else if o < 0x10200 then true
  else if o < 0x20000 then false
  else if o < 0x20028 then two
  else if o < 0x20040 then false
  else if o < 0x20080 then two
  else if o < 0x20100 then false
  else if o < 0x20600 then two
  else if o < 0x30000 then false
  else if o < 0x33C00 then true
  else if o < 0x40000 then false
  else if o < 0x43C00 then true
  else if o < 0x50000 then false
  else if o < 0x50080 then true
  else if o < 0x60000 then false
  else if o < 0xE0000 then true
  else if o < 0xE2000 then two
  else if o < 0x100000 then false
  else if o < 0x100000 + 1442 * 32 then true
  else if o < 0x200000 then false
  else if o < 0x200400 then two
  else if o < 0x201000 then false
  else if o < 0x211000 then two
  else if o < 0x220000 then false
  else if o < 0x280080 then two
  else if o < 0x300000 then false
  else if o < 0x340000 then true
  else if o < 0x400000 then false
  else if o < 0x400080 then true
  else if o < 0x400100 then false
  else if o < 0x400118 then true
  else if o < 0x600000 then false
  else if o < 0x6000F0 then true
  else if o < 0x600100 then false
  else if o < 0x6001F0 then true
  else false

/-- The partition that a table entry in control space belongs to, for entries that one partition owns (R94, R118, R171). -/
def State.entryOwner (s : State) (f o : Nat) : Option Nat :=
  if 0x20100 ≤ o && o < 0x20180 then some ((o - 0x20100) / 8)
  else if 0x20180 ≤ o && o < 0x20200 then some ((o - 0x20180) / 8)
  else if 0x20200 ≤ o && o < 0x20600 then some ((o - 0x20200) / 64)
  else if 0x10040 ≤ o && o < 0x10060 then (s.hubOf f).group[(o - 0x10040) / 8]?
  else if 0x60000 ≤ o && o < 0xE0000 then (s.hubOf f).group[(o - 0x60000) / 0x20000]?
  else if 0x400000 ≤ o && o < 0x400080 then some ((o - 0x400000) / 8)
  else none

/-- An access to control space by software of a tag and level (R108, R110): supervisors read every record of the atlas (R35), and the banker and bank
registers and LQSTAT of their partition, which users do not (R96, R134). A partition reads zero in a fabric counter of any hub (R102; DESIGN CHOICE; log 128). -/
def State.controlRefuses (s : State) (f o size : Nat) (acc : Acc) (vector : Bool) (tag level : Nat) : Option Cause :=
  if acc = .atomic || vector then some .kindMismatch
  else if (size ≠ 1 && size ≠ 4 && size ≠ 8) || o % size ≠ 0 then some .misaligned
  else if !hubDefined f o then some .gpaRange
  else if level ≥ 2 || (0x50000 ≤ o && o < 0x50080) then none
  else
    let own := match s.partOfTag tag with
      | none => false
      | some p => (s.partOf p).fields.contains f && (match s.entryOwner f o with | some q => q = p | none => true)
    let atlas := level ≥ 1 && ((0xE0000 ≤ o && o < 0xE2000) || (0x100000 ≤ o && o < 0x100000 + 1442 * 32))
    let economy := (0x10000 ≤ o && o < 0x10200) || (0x20000 ≤ o && o < 0x20200) || (0x48 ≤ o && o < 0x50)
    let bank := level ≥ 1 && 0x20100 ≤ o && o < 0x20200 && (s.entryOwner f o).any (fun q => s.partOfTag tag = some q)
    let pub := atlas || bank || (0x20200 ≤ o && o < 0x20600 && s.partOfTag tag = some ((o - 0x20200) / 64))
    if acc = .write then
      if own && level ≥ 1 && ((0x100 ≤ o && o < 0x178) || (0x400100 ≤ o && o < 0x400110)) then none else some .ctlAccess
    else if (own && (level ≥ 1 || !economy)) || pub then none
    else some .ctlAccess

/-- The debug page that a GPA in a tile's debug region lies in: its context (R241). -/
def dbgPageOf (g : Nat) : Nat := 16 * tileAt (gpaCol g) (gpaRow g) + (gpaWindow g - 0xD00000) / 0x1000

/-- The checks at the source of an access of this device or of another (R105, R106, R110). -/
def State.gpaRefuses (s : State) (g size : Nat) (acc : Acc) (vector : Bool) (ctx tag level : Nat) : Option Cause :=
  match gpaSpace g with
  | 0 =>
    if gpaRow g > 89 || gpaCol g > 119 || bitsAt g 37 26 ≠ 0 then some .gpaRange
    else
      let o := gpaWindow g
      let d := s.dbgOf (dbgPageOf g)
      let att := d.att = some (ctx, (s.ctxOf ctx).firing)
      windowRefuses o size acc level att (att && d.halt)
  | 1 => if gpaOffset g + size > hbmSize then some .gpaRange else none
  | 2 => if gpaOffset g + size > capSize then some .gpaRange else none
  | _ =>
    if gpaHub g > 89 || bitsAt g 44 24 ≠ 0 then some .gpaRange
    else s.controlRefuses (gpaHub g) (gpaHubOff g) size acc vector tag level

/-- Log2 of a size, for the syndrome of R238. -/
def log2Size (n : Nat) : Nat := Nat.log2 n

/-- The syndrome of a cause met by an access of a kind and size (R238). -/
def accSyndrome (cause : Cause) (acc : Acc) (size level : Nat) : Nat :=
  if (0x10 ≤ cause && cause ≤ 0x18) || cause = 0x1F then acc.code + 16 * level
  else if (0x19 ≤ cause && cause ≤ 0x1E) || cause = 0x2C || (0xA0 ≤ cause && cause ≤ 0xA7) || cause = 0xA9 then
    acc.code + 16 * log2Size size
  else 0

/-- The syndrome of a cause met by a part of an access of a size: the walk level of the part, the size of the whole (R238). -/
def partSyndrome (cause : Cause) (acc : Acc) (size synd : Nat) : Nat :=
  if (0x10 ≤ cause && cause ≤ 0x18) || cause = 0x1F then synd else accSyndrome cause acc size 0

/-- One translated and checked access of at most one page: its GPA and leaf, a cause with its syndrome, or a wait. -/
inductive Checked where
  | ok (gpa : Nat) (pte : Pte)
  | bad (cause : Cause) (synd : Nat)
  | wait
  deriving DecidableEq, Repr

/-- Translation, then the window, control-space and poison rules (R312 step 4). Poison at the home of a load or atomic is
met when the access is performed. -/
def State.checkPage (s : State) (ctx va size : Nat) (acc : Acc) (vector : Bool) : Checked :=
  let c := s.ctxOf ctx
  match s.translate (coreOfCtx ctx) c.tag va acc with
  | .wait => .wait
  | .bad cause lvl => .bad cause (accSyndrome cause acc size lvl)
  | .ok g e =>
    match s.gpaRefuses g size acc vector ctx c.tag c.level with
    | some cause => .bad cause (accSyndrome cause acc size 0)
    | none => .ok g e

/-- A whole access by R312 steps 1, 2 and 4. Step 3, alignment, is the caller's: `align` is the multiple that the VA must be
of. An access that spans two pages translates both first. -/
def State.checkAccess (s : State) (ctx va size align : Nat) (acc : Acc) (vector : Bool) : Checked :=
  if va / 2 ^ 60 ≠ 0 then .bad .vaRange acc.code
  else if va + size > 2 ^ 60 then .bad .vaWrap 0
  else if va % align ≠ 0 then .bad .misaligned (accSyndrome .misaligned acc size 0)
  else
    let first := min size (0x10000 - va % 0x10000)
    match s.checkPage ctx va first acc vector with
    | .ok g e =>
      if first = size then .ok g e
      else match s.checkPage ctx (va + first) (size - first) acc vector with
        | .ok _ _ => .ok g e
        | r => r
    | r => r

end Sys2Proof.Machine
end

