-- ==== Sys2Proof/Machine/Typed.lean ====
section
/-! DEFINITION. Lanes, runs of bytes at a VA, and what a typed access reads and writes by the page's format: R120, R255, R258, R259, R263, R267, R312,
R347, R365 to R369. -/

namespace Sys2Proof.Machine

/-! ### Lanes (R347, R267) -/

/-- The lanes of a type (R347). -/
def lanesOf (long : Bool) (t : BitVec 2) : Nat := if long then 8 * lanesShort t else lanesShort t

/-- The width of a lane in bits (R347). -/
def laneBits (t : BitVec 2) : Nat :=
  match t with
  | 0 => 32
  | 1 => 16
  | 2 => 8
  | 3 => 32

/-- Lane i of a register of lanes of b bits. -/
def laneAt (b v i : Nat) : Nat := v / 2 ^ (b * i) % 2 ^ b

/-- A register from its lanes, lane 0 first. -/
def packLanes (b : Nat) : List Nat → Nat
  | [] => 0
  | v :: vs => v % 2 ^ b + 2 ^ b * packLanes b vs

/-- The lanes of a register. -/
def unpackLanes (b n v : Nat) : List Nat := (List.range n).map (laneAt b v)

/-- One step of the generator of R267. -/
def srNext (seed : Nat) : Nat :=
  let a := (seed ^^^ (seed * 2 ^ 13 % 2 ^ 64)) % 2 ^ 64
  let b := a ^^^ (a / 2 ^ 7)
  (b ^^^ (b * 2 ^ 17 % 2 ^ 64)) % 2 ^ 64

/-- The draw that a state of the generator gives: bits [63:48] of the product (R267). -/
def srValue (seed : Nat) : Nat := seed * 0x2545F4914F6CDD1D % 2 ^ 64 / 2 ^ 48

/-- The float format of a lane type (R347). -/
def laneFmt (t : BitVec 2) : FloatFmt := if t = 0 then fp32 else bf16

/-! ### Runs of bytes at a VA (R312) -/

/-- Why an access does not go on: a fault with its address and syndrome, or a wait without fault. -/
inductive Halt where
  | bad (cause : Cause) (addr synd : Nat)
  | wait
  deriving DecidableEq, Repr

/-- A run of bytes of one page: its GPA, its length, the page's entry, and its VA. -/
structure Piece where
  gpa : Nat
  len : Nat
  pte : Pte
  va : Nat
  deriving DecidableEq, Repr

/-- Translate and check a run of bytes for a context: at most two pages of 64 KiB (R312). -/
def State.mapRange (s : State) (ctx va n : Nat) (acc : Acc) (size : Nat) : Except Halt (List Piece) :=
  if va / 2 ^ 60 ≠ 0 then .error (.bad .vaRange va acc.code)
  else if va + n > 2 ^ 60 then .error (.bad .vaWrap va 0)
  else if n = 0 then .ok []
  else
    let first := min n (65536 - spanOff va)
    match s.checkPage ctx va first acc true with
    | .wait => .error .wait
    | .bad c y => .error (.bad c va (partSyndrome c acc size y))
    | .ok g e =>
      if first = n then .ok [⟨g, n, e, va⟩]
      else match s.checkPage ctx (va + first) (n - first) acc true with
        | .wait => .error .wait
        | .bad c y => .error (.bad c (va + first) (partSyndrome c acc size y))
        | .ok g2 e2 => .ok [⟨g, first, e, va⟩, ⟨g2, n - first, e2, va + first⟩]

/-- All ranges, in order. -/
def State.mapRanges (s : State) (ctx : Nat) (acc : Acc) (size : Nat) : List (Nat × Nat) → Except Halt (List Piece)
  | [] => .ok []
  | (va, n) :: rs =>
    match s.mapRange ctx va n acc size with
    | .error e => .error e
    | .ok ps =>
      match s.mapRanges ctx acc size rs with
      | .error e => .error e
      | .ok qs => .ok (ps ++ qs)

/-! ### What a page's codes allow (R120, R255, R259, R263) -/

/-- R120 for the elements and scales of an access: reserved codes, blocks of pages that differ, and a scale plane whose page is not
raw. `data` holds the pieces with elements, `plane` those of a GEO 2 scale plane. -/
def decodeCause (e : Pte) (data plane : List Piece) : Option Cause :=
  if e.fmt ≥ 0x0F then some .fmtReserved
  else if e.geo ≥ 4 then some .geoReserved
  else if data.any (fun p => p.pte.fmt ≠ e.fmt || p.pte.geo ≠ e.geo) then some .fmtReserved
  else if plane.any (fun p => p.pte.fmt ≠ 0) then some .fmtReserved
  else none

/-- The formats of a good engine of a tile kind, as a mask (R32). -/
def goodMask (kind : Nat) : Nat :=
  match kind with
  | 0 => 0x7F42
  | 3 => 0x7FFE
  | _ => 0x0340

/-- The format mask of a tile's engine: that of its atlas record, or of a good engine (R32, R422). -/
def State.engineMask (s : State) (t : Nat) : Nat :=
  match (s.hubOf (fieldOfTile t)).atlas.find? (nodeOfUnit t 2) with
  | some r => r.caps
  | none => goodMask (tileKind t)

/-- A pairing of FMT with GEO 1, 2 or 3 that does not exist (R259). -/
def geoPairBad (fmt geo : Nat) : Bool :=
  ((geo = 1 || geo = 2) && (fmt < 0x08 || fmt > 0x0E)) || (geo = 3 && fmt ≠ 0x06 && fmt ≠ 0x08 && fmt ≠ 0x09)

/-- The LUT4 table that two doublewords hold (R187, R258), and that of a core. -/
def lutOf (lo hi : Word) (i : Nat) : Int := sextNat 8 (if i < 8 then bitsOf lo (8 * i + 7) (8 * i) else bitsOf hi (8 * i - 57) (8 * i - 64))
def Core.lut (k : Core) (i : Nat) : Int := lutOf k.lutlo k.luthi i

/-- Elements of a decoded operand, before scaling, and the scale byte of each block of 32 (R259). -/
structure Elems where
  codes : List Nat
  scales : List Nat
  deriving DecidableEq, Repr

/-- The elements and scales of n elements of width w whose data bytes and scale bytes are one number. -/
def splitElems (w n dataLen nscales v : Nat) : Elems :=
  { codes := unpackLanes w n v, scales := (List.range nscales).map (fun i => v / 2 ^ (8 * (dataLen + i)) % 256) }

/-- The exact value of a code under a scale byte (R257, R259). -/
def scaledValue (fmt : Nat) (lut : Nat → Int) (scale code : Nat) : XNum :=
  if scale = 0xFF then .nan else (decodeElem fmt lut code).scale ((scale : Int) - 127)

/-! ### Typed accesses (R365 to R369) -/

/-- What R365 says of a page for a lane type and direction. -/
def laneAccepts (t : BitVec 2) (store : Bool) (fmt geo : Nat) : Option Cause :=
  let floats := floatLane t
  let fmtOk : Bool :=
    if floats then (if store then (0x05 ≤ fmt && fmt ≤ 0x0C) || fmt = 0x0E else 0x01 ≤ fmt && fmt ≤ 0x0E)
    else if t = 2 then fmt = 0x01 || fmt = 0x0E || (fmt = 0x0D && !store)
    else (0x01 ≤ fmt && fmt ≤ 0x04) || fmt = 0x0E || (fmt = 0x0D && !store)
  if !fmtOk then some .fmtUnsupported
  else if (!floats && geo ≠ 0) || geo = 3 || geoPairBad fmt geo then some .geoPath
  else none

/-- The placement that R366 requires. -/
def typedPlacement (fmt geo va n : Nat) (store : Bool) : Option Cause :=
  let w := fmtBits fmt
  let u := blockSize fmt geo
  let part := n * w / 8
  let o := spanOff va % u
  if geo = 0 then
    if w ≥ 8 then (if va % (w / 8) ≠ 0 then some .misaligned else none)
    else if !startsUnit u va || touchesHole u va part then some .fmtPacking else none
  else if n > 32 then
    (if !startsUnit u va || touchesHole u va (n / 32 * u) then some .fmtPacking else none)
  else
    let lead := if geo = 1 then 1 else 0
    if spanOff va / u ≥ 65536 / u || o < lead || (o - lead) % part ≠ 0 then some .fmtPacking
    else if store then some .blockPartial else none

/-- A typed access that has passed its checks: the page, its ranges and its pieces, data before scales. -/
structure TypedPlan where
  fmt : Nat
  geo : Nat
  dataLen : Nat
  nscales : Nat
  pieces : List Piece
  deriving DecidableEq, Repr

/-- The checks of R369 for a typed access of n elements at a VA by a context. FMT 0 moves raw bytes. -/
def State.typedPlan (s : State) (ctx va n : Nat) (t : BitVec 2) (raw : Nat) (store : Bool) : Except Halt TypedPlan :=
  let acc := if store then Acc.write else Acc.read
  match s.mapRange ctx va 1 acc 1 with
  | .error e => .error e
  | .ok [] => .error .wait
  | .ok (p :: _) =>
    let e := p.pte
    let fail := fun (c : Cause) => (Except.error (Halt.bad c va (accSyndrome c acc 1 0)) : Except Halt TypedPlan)
    if e.fmt = 0 then
      match s.mapRange ctx va raw acc 1 with
      | .error h => .error h
      | .ok ps => if va % 32 ≠ 0 then fail .misaligned else .ok ⟨0, 0, raw, 0, ps⟩
    else if e.fmt ≥ 0x0F then fail .fmtReserved
    else if e.geo ≥ 4 then fail .geoReserved
    else if e.geo = 3 ∨ geoPairBad e.fmt e.geo then fail ((laneAccepts t store e.fmt e.geo).getD .geoPath)
    else
      let r := typedRanges e.fmt e.geo e.soff va n
      match s.mapRanges ctx acc 1 r.data, s.mapRanges ctx acc 1 (r.scales.map (fun a => (a, 1))) with
      | .error h, _ => .error h
      | _, .error h => .error h
      | .ok ds, .ok ss =>
        let c := match decodeCause e (if e.geo = 2 then ds else ds ++ ss) (if e.geo = 2 then ss else []) with
          | some c => some c
          | none => match laneAccepts t store e.fmt e.geo with
            | some c => some c
            | none => if (s.ctxOf ctx).long && !bitAt (s.engineMask (tileOfCtx ctx)) e.fmt then some Cause.fmtUnsupported
              else typedPlacement e.fmt e.geo va n store
        match c with
        | some c => fail c
        | none => .ok ⟨e.fmt, e.geo, ((r.data.map (fun x => x.2)).sum), r.scales.length, ds ++ ss⟩

/-- Lane values of a typed load (R367), from the bytes of the plan as one number. -/
def typedLanes (p : TypedPlan) (lut : Nat → Int) (t : BitVec 2) (n v : Nat) : List Nat :=
  let es := splitElems (fmtBits p.fmt) n p.dataLen p.nscales v
  (List.range n).map (fun i =>
    let c := es.codes.getD i 0
    if floatLane t then
      let scale := if p.geo = 0 then 127 else es.scales.getD (i / 32) 127
      (laneFmt t).round (scaledValue p.fmt lut scale c) .rne
    else
      let w := laneBits t
      let k : Int := if p.fmt = 0x0D then lut (c % 16) else sextNat (fmtBits p.fmt) c
      wrapInt w (min (2 ^ (w - 1) - 1) (max (-2 ^ (w - 1)) k)))

/-- The codes and scale bytes that a typed store writes (R368). `draw i` is the draw of lane i under SR. -/
def typedCodes (p : TypedPlan) (t : BitVec 2) (rm : RoundMode) (draw : Nat → Nat) (lanes : List Nat) : List Nat × List Nat :=
  if floatLane t then
    let xs := lanes.map (laneFmt t).decode
    let scales := if p.geo = 0 then [] else (List.range p.nscales).map (fun b => mxScale p.fmt ((xs.drop (32 * b)).take 32))
    let code := fun (i : Nat) (x : XNum) =>
      let sc : Int := if p.geo = 0 then 0 else (scales.getD (i / 32) 127 : Int) - 127
      match floatOfFmt p.fmt with
      | some F => F.round (x.scale (-sc)) rm (draw i)
      | none => wrapInt 8 (roundInt (x.scale (6 - sc)) 8 rm (draw i))
    (xs.mapIdx code, scales)
  else
    let w := fmtBits p.fmt
    (lanes.map (fun l => wrapInt w (min (2 ^ (w - 1) - 1) (max (-2 ^ (w - 1)) (sextNat (laneBits t) l)))), [])

/-- The generator after n draws, and the draw of each lane (R267). -/
def drawSeeds : Nat → Nat → List Nat
  | 0, _ => []
  | n + 1, seed => srNext seed :: drawSeeds n (srNext seed)

/-- Whether a typed store draws: it rounds a lane under SR. -/
def typedDraws (p : TypedPlan) (t : BitVec 2) (rm : RoundMode) : Bool := floatLane t && p.fmt ≠ 0 && rm = .sr

/-- The bytes of a typed store as one number, and the generator after it (R368); none with a generator of zero under SR. -/
def typedBytes (p : TypedPlan) (t : BitVec 2) (rm : RoundMode) (n seed v : Nat) : Option (Nat × Nat) :=
  if p.fmt = 0 then some (v, seed)
  else if typedDraws p t rm ∧ seed = 0 then none
  else
    let seeds := if typedDraws p t rm then drawSeeds n seed else []
    let draw := fun i => srValue (seeds.getD i 0)
    let (codes, scales) := typedCodes p t rm draw (unpackLanes (laneBits t) n v)
    some (packLanes (fmtBits p.fmt) codes + 2 ^ (8 * p.dataLen) * packLanes 8 scales, seeds.getLastD seed)

end Sys2Proof.Machine
end

