-- ==== Sys2Proof/Machine/Operands.lean ====
section
/-! DEFINITION. Operand forms: R276 step 5, branch targets, memory addresses (R312), vector registers with streams and the
long registers (R184, R191, R201), masks (R348), special registers (R185), rounding modes and draws (R267). -/

namespace Sys2Proof.Machine

/-! ### R276 step 5 -/

/-- The form check of `vred` and `vscan` for an operation number (R362, R363). -/
def reduceForm (op : Nat) (t : BitVec 2) (mod : BitVec 3) : Option Cause :=
  if floatLane t then (if op ≥ 3 then some .typeForm else none) else if op = 0 && mod ≠ 0 then some .typeForm else none

/-- P = 1 outside long mode (R352). -/
def pairedForm (long : Bool) (p : Bool) : Option Cause := if p && !long then some .modeForm else none

/-- R276 step 5: the forms that the type, the mode or the level do not allow, and the immediate ranges that depend on the
mode. -/
def formCause (i : Instr) (long : Bool) (level : Nat) : Option Cause :=
  match i with
  | .send _ | .sendr _ | .sendSys _ | .mtake _ | .spawn _ => if long then some .modeForm else none
  | .capMint _ => if level = 0 then some .privInstr else none
  | .vadd f | .vsub f | .vmul f | .vfma f => pairedForm long (f.sub.toNat % 2 = 1)
  | .vaddScalar f | .vsubScalar f | .vmulScalar f | .vfmaScalar f => pairedForm long (f.sub.toNat % 2 = 1)
  | .vmin f | .vmax f => if floatLane f.t && f.mod ≠ 0 then some .typeForm else none
  | .vminScalar f | .vmaxScalar f => if floatLane f.t && f.mod ≠ 0 then some .typeForm else none
  | .vabs f | .vneg f => if floatLane f.t && f.mod ≠ 0 then some .typeForm else none
  | .vshl f | .vshr f | .vsra f | .vpopc f => if floatLane f.t then some .typeForm else none
  | .vshlScalar f | .vshrScalar f | .vsraScalar f => if floatLane f.t then some .typeForm else none
  | .vcmp f => if (floatLane f.t && f.mod.toNat > 5) || lanesOf long f.t > 64 then some .typeForm else none
  | .vcmpScalar f => if (floatLane f.t && f.mod.toNat > 5) || lanesOf long f.t > 64 then some .typeForm else none
  | .vcvt f =>
    let d : BitVec 2 := f.sub.extractLsb' 0 2
    if d = f.t || (f.sub.toNat ≥ 4 && floatLane d) then some .typeForm else none
  | .vred f => reduceForm f.imm.toNat f.t f.mod
  | .vscan f => reduceForm f.sub.toNat f.t f.mod
  | .vins f => if f.imm.toNat ≥ lanesOf long f.t then some .immRange else none
  | .vext f => if f.imm.toNat ≥ lanesOf long f.t then some .immRange else none
  | .vdot4 f => if f.t = 3 then none else some .typeForm
  | .vdot4Scalar f => if f.t = 3 then none else some .typeForm
  | .vexp2 f | .vlog2 f | .vrcp f | .vrsqrt f | .vsqrt f | .vtanh f => if floatLane f.t then none else some .typeForm
  | _ => none

/-- The first failed check of R276 steps 2 to 5. -/
def slotCause (i : Instr) (long : Bool) (level : Nat) : Option Cause :=
  match check i with
  | some c => some c
  | none => formCause i long level

/-- A slot instruction issues in the A slot. -/
def isASlot (i : Instr) : Bool := (encodeA i).isSome

/-- Run an instruction's effect if it passes R276 steps 2 to 5 for the issuing context, else take the fault of its slot. -/
def State.slotC (s : State) (i : Instr) (k : State → Out) : Out :=
  match slotCause i s.cx.long s.level with
  | some c => s.faultC c
  | none => k s
def State.slotA (s : State) (i : Instr) (k : State → Out) : Out :=
  match slotCause i s.cx.long s.level with
  | some c => s.faultA c
  | none => k s

/-! ### Targets and addresses -/

/-- The target A + 8 sext(OFF) of a branch (R278, R304). -/
def State.target (s : State) {n : Nat} (off : BitVec n) : Word := s.cx.pc + 8 * off.signExtend 64

/-- The effective VA of CM with a unit of `size` bytes (R312). -/
def State.addrCM (s : State) (f : FmtCM) (size : Nat) : Nat :=
  (s.x f.base + BitVec.ofNat 64 size * f.disp.signExtend 64).toNat
/-- The same for `ld.vt` and `st.vt`, whose displacement is bits [11:0] (R278). -/
def State.addrCMT (s : State) (f : FmtCM) : Nat :=
  (s.x f.base + 32 * (f.disp.extractLsb' 0 12).signExtend 64).toNat
/-- The effective VA of CX (R312). -/
def State.addrCX (s : State) (f : FmtCX) : Nat := (s.x f.base + s.x f.idx <<< f.sh.toNat).toNat
/-- The effective VA of CMS (R312). -/
def State.addrCMS (s : State) (f : FmtCMS) : Nat :=
  (s.x f.base + (if f.sz = 1 then 8 else 4) * f.disp.signExtend 64).toNat

/-- A capability pair (R323). -/
def State.pairAt (s : State) (r : BitVec 5) : Word × Word := (s.x r, s.x (r + 1))

/-! ### Streams (R189 to R192) -/

def Stream.output (t : Stream) : Bool := bitAt (t.desc.getD 1 0).toNat 0
def Stream.typed (t : Stream) : Bool := bitAt (t.desc.getD 1 0).toNat 1
def Stream.lane (t : Stream) : BitVec 2 := BitVec.ofNat 2 (bitsOf (t.desc.getD 1 0) 3 2)

/-- The count of dimension k (R189). -/
def Stream.count (t : Stream) (k : Nat) : Nat := bitsOf (t.desc.getD 2 0) (16 * k + 15) (16 * k) + 1

/-- The signed stride of dimension k (R189). -/
def Stream.stride (t : Stream) (k : Nat) : Int := sextNat 32 (bitsOf (t.desc.getD (3 + k / 2) 0) (32 * (k % 2) + 31) (32 * (k % 2)))

/-- Steps of a stream. -/
def Stream.total (t : Stream) : Nat := t.count 0 * t.count 1 * t.count 2 * t.count 3

/-- Index k of a step, i0 fastest (R189). -/
def Stream.index (t : Stream) (step k : Nat) : Nat :=
  match k with
  | 0 => step % t.count 0
  | 1 => step / t.count 0 % t.count 1
  | 2 => step / (t.count 0 * t.count 1) % t.count 2
  | _ => step / (t.count 0 * t.count 1 * t.count 2)

/-- The address of a step (R189). -/
def Stream.addr (t : Stream) (step : Nat) : Nat :=
  ((((t.desc.getD 0 0).toNat : Int) + (t.index step 0 : Int) * t.stride 0 + (t.index step 1 : Int) * t.stride 1 +
    (t.index step 2 : Int) * t.stride 2 + (t.index step 3 : Int) * t.stride 3) % 2 ^ 64).toNat

def Core.streamAt (k : Core) (n : Nat) : Stream := k.streams.get {} n

/-- The stream bound to a vector register of the issuing firing, with its number (R189). None in long mode (R190). -/
def State.streamOf (s : State) (r : Nat) : Option (Nat × Stream) :=
  if r < 12 || s.cx.long then none
  else
    let t := s.core.streamAt (r - 12)
    if t.bound && t.firing = s.cx.firing then some (r - 12, t) else none

/-! ### Vector registers (R180, R201) -/

/-- A long register as one number, lane 0 lowest: 64 words of engine state (R201). -/
def Engine.longReg (e : Engine) (r : Nat) : Nat :=
  ((List.range 64).map (fun i => (e.mem.get 0 (64 * r + i)).toNat * 2 ^ (32 * i))).sum

/-- Write a long register. -/
def Engine.setLong (e : Engine) (r v : Nat) : Engine :=
  { e with mem := (List.range 64).foldl (fun m i => m.put (64 * r + i) (BitVec.ofNat 32 (v / 2 ^ (32 * i)))) e.mem }

/-- What a vector operand gives: a value, a stall, or a fault with its address and syndrome. -/
inductive VRead where
  | ok (v : Nat)
  | stall
  | bad (cause : Cause) (addr synd : Nat)
  deriving DecidableEq, Repr

/-- Read a vector register as it stands before the bundle: a bound input stream gives its oldest entry (R184, R191, R192). -/
def State.vecIn (s : State) (r : Nat) : VRead :=
  if s.cx.long then .ok (s.eng.longReg r)
  else match s.streamOf r with
    | none => .ok (s.cx.v.get 0 r).toNat
    | some (_, t) =>
      if t.output then .bad .streamDir 0 0
      else match t.fifo with
        | v :: _ => .ok v.toNat
        | [] =>
          match t.fault with
          | some (c, a) => .bad c a t.faultSynd
          | none => if t.taken ≥ t.total then .bad .streamEnd 0 0 else .stall

/-- The generator's state, shared by the core (R267). -/
def State.seed (s : State) : Nat := s.core.seed.toNat

/-- What the next entry of an output stream stores: its runs of bytes by VA, GPA and length, their bytes as one number, and the generator after it. A typed step
is checked and encoded as `st.vt` would, with the rounding mode and the generator of the bundle that appends it (R189, R192, R267, R368). -/
def State.outStep (s : State) (t : Stream) (v : Nat) : Except Halt (List (Nat × Nat × Nat) × Nat × Nat) :=
  let a := t.addr t.taken
  if t.typed then
    match s.typedPlan s.cur a (lanesOf false t.lane) t.lane 32 true with
    | .error e => .error e
    | .ok p => match typedBytes p t.lane (RoundMode.ofCode s.cx.rm s.cx.rm) (lanesOf false t.lane) s.seed v with
      | none => .error (.bad .srSeed a 0)
      | some (b, seed) => .ok (p.pieces.map (fun q => (q.va, q.gpa, q.len)), b, seed)
  else match s.checkAccess s.cur a 32 32 .write true with
    | .wait => .error .wait
    | .bad c y => .error (.bad c a y)
    | .ok g _ => .ok ([(a, g, 32)], v, s.seed)

/-- Whether a vector register can take a value: a bound output stream needs room and a step that passes its checks (R191, R192). -/
def State.vecOut (s : State) (r : Nat) : VRead :=
  match s.streamOf r with
  | none => .ok 0
  | some (_, t) =>
    if !t.output then .bad .streamDir 0 0
    else if t.taken ≥ t.total then .bad .streamEnd 0 0
    else if t.fifo.length ≥ 8 then .stall
    else match s.outStep t 0 with
      | .ok _ => .ok 0
      | .error .wait => .stall
      | .error (.bad c a y) => .bad c a y

/-- Take one entry of each distinct bound input stream among registers (R184 point 5). -/
def State.popStreams (s : State) (rs : List Nat) : State :=
  rs.eraseDups.foldl (fun s r =>
    match s.streamOf r with
    | none => s
    | some (n, t) =>
      if t.output then s
      else s.updCurCore (fun k => { k with streams := k.streams.put n { t with fifo := t.fifo.drop 1, taken := t.taken + 1 } })) s

/-- Write a vector register: a long register in long mode, an entry of a bound output stream, or the context's own. -/
def State.setVec (s : State) (r v : Nat) : State :=
  if s.cx.long then s.updEng (fun e => e.setLong r v)
  else match s.streamOf r with
    | some (n, t) => match s.outStep t v with
      | .ok (ps, b, seed) =>
        let t' := { t with fifo := t.fifo ++ [BitVec.ofNat 256 v], outs := t.outs ++ [(ps, b)], taken := t.taken + 1 }
        s.updCurCore (fun k => { k with seed := BitVec.ofNat 64 seed, streams := k.streams.put n t' })
      | .error _ => s
    | none => s.upd (fun c => { c with v := c.v.put r (BitVec.ofNat 256 v) })

/-- The first fault among operands, else a stall, else all values. -/
def gatherReads : List VRead → Except (Option (Cause × Nat × Nat)) (List Nat)
  | [] => .ok []
  | .bad c a y :: _ => .error (some (c, a, y))
  | .stall :: rs =>
    match gatherReads rs with
    | .error (some e) => .error (some e)
    | _ => .error none
  | .ok v :: rs =>
    match gatherReads rs with
    | .error e => .error e
    | .ok vs => .ok (v :: vs)

/-- Read vector operands and check the vector destinations, then continue with the values. Streams advance once, after the
continuation's own checks, when it calls `popStreams`. -/
def State.withVecs (s : State) (slotA : Bool) (ins outs : List Nat) (k : List Nat → Out) : Out :=
  match gatherReads (ins.map s.vecIn ++ outs.map s.vecOut) with
  | .error (some (c, a, y)) => if slotA then s.faultA c a y else s.faultC c a y
  | .error none => .next (s.stallOn .waitStream)
  | .ok vs => k vs

/-! ### Lanes and masks (R347, R348) -/

/-- Whether lane i takes part (R348): in long mode a mask bit governs L / 64 lanes. -/
def State.laneOn (s : State) (me : BitVec 1) (km : BitVec 3) (lanes i : Nat) : Bool :=
  me = 0 || bitAt (s.k km).toNat (if s.cx.long then i / (lanes / 64) else i)

/-! ### Rounding (R264, R267) -/

/-- The rounding mode that an RM field selects (R277). -/
def State.roundMode (s : State) (rm : BitVec 3) : RoundMode := RoundMode.ofCode s.cx.rm rm.toNat

/-- Load the generator's state. -/
def State.setSeed (s : State) (v : Nat) : State := s.updCurCore (fun k => { k with seed := BitVec.ofNat 64 v })

/-! ### Special registers (R185 to R187) -/

/-- SELF (R185): bits [63:0] of the actor's capability, or the core's without rights for a pool firing or task. -/
def State.selfWord (s : State) (rights : Nat) : Word :=
  let c := s.cx
  let t := tileOfCtx s.cur
  let (kind, idx) := (s.logicalOf c.tag t).getD (0, 0)
  let core := s.cur / 8 % 2
  if c.pool || c.task then capMake s.loith.device c.tag kind idx core true 0 0 rights
  else capMake s.loith.device c.tag kind idx core false c.act ((s.core.actorAt c.act).portMask) 15

/-- A special register that is held per tile (R185). -/
def State.tileSpr (s : State) (t n : Nat) : Word := BitVec.ofNat 64 (match n with
  | 0x18 => s.pips t
  | 0x19 => s.pipiv t
  | 0x1A => s.noticeWord t
  | 0x28 => (s.tileOf t).shown.accst (s.engBusy t)
  | 0x29 => (s.tileOf t).eng.promo
  | _ => s.semv t)

/-- The special registers of a tile that a bundle has changed, as they stood before it (R321). -/
def State.changedSprs (s s' : State) (t : Nat) : List (Nat × Word) :=
  ([0x18, 0x19, 0x1A, 0x28, 0x29, 0x38].filter (fun n => s.tileSpr t n ≠ s'.tileSpr t n)).map (fun n => (n, s.tileSpr t n))

/-- A special register of the issuing tile, as the issuing core reads it: what a bundle of the other core writes in the same arithmetic cycle is not yet
seen (R321). -/
def State.tileSprSeen (s : State) (n : Nat) : Word :=
  let t := tileOfCtx s.cur
  let own := coreOfCtx s.cur
  let k := s.coreOf (4 * t + 1 - own)
  match k.before.lookup n with
  | some v => if k.issued = some (s.cycOf (fieldOfTile t)) then v else s.tileSpr t n
  | none => s.tileSpr t n

/-- The value of a special register by number, or none for a number that is not listed (R185). -/
def State.spr (s : State) (n : Nat) : Option Word :=
  let c := s.cx
  let f := fieldOfCtx s.cur
  match n with
  | 0x00 => some c.wid
  | 0x01 => some c.widf
  | 0x02 => some (c.grid.get 0 0)
  | 0x03 => some (c.grid.get 0 1)
  | 0x04 => some (c.grid.get 0 2)
  | 0x05 => some (c.grid.get 0 3)
  | 0x06 => some (c.grid.get 0 4)
  | 0x07 => some (c.grid.get 0 5)
  | 0x08 => some (s.selfWord 0)
  | 0x09 => some c.senderLo
  | 0x0A => some c.senderHi
  | 0x0B => some c.port
  | 0x0C => some (BitVec.ofNat 64 (s.ctxidOf s.cur))
  | 0x10 => some s.rtimeWord
  | 0x11 => some (BitVec.ofNat 64 (s.cycOf f))
  | 0x12 => some (BitVec.ofNat 64 (s.ncycOf f))
  | 0x18 => some (s.tileSprSeen 0x18)
  | 0x19 => some (s.tileSprSeen 0x19)
  | 0x1A => some (s.tileSprSeen 0x1A)
  | 0x20 => some (BitVec.ofNat 64 c.unack)
  | 0x21 => some (BitVec.ofNat 64 c.fstat)
  | 0x28 => some (s.tileSprSeen 0x28)
  | 0x29 => some (s.tileSprSeen 0x29)
  | 0x2A => some s.core.lutlo
  | 0x2B => some s.core.luthi
  | 0x2C => some (BitVec.ofNat 64 c.mode)
  | 0x2D => some s.core.seed
  | 0x30 => some c.codelo
  | 0x31 => some c.codehi
  | 0x32 => some c.lbase
  | 0x33 => some (c.lcAt 0)
  | 0x34 => some (c.lcAt 1)
  | 0x35 => some (c.lcAt 2)
  | 0x38 => some (s.tileSprSeen 0x38)
  | _ => none

end Sys2Proof.Machine
end

