-- ==== Sys2Proof/Machine/Pace.lean ====
section
/-! DEFINITION. Engine roles, claims and pacing: R49 to R52, R178, R179. -/

namespace Sys2Proof.Machine

/-- The weight of a paced instruction decides the interval that follows it (R50). -/
inductive Weight where
  | one | four
  deriving DecidableEq, Repr

/-- The issuing firing is the one of actor `a` of core `core`. -/
def State.isActor (s : State) (core a : Nat) : Bool :=
  coreOfCtx s.cur = core && s.cx.act = a && !s.cx.pool && !s.cx.task

/-- An actor of the issuing tile other than the issuing one claims engine resource bits `mask` (R150, R179). Outside a D-tile
any claim is of the whole engine. -/
def State.claimedByOther (s : State) (mask : Nat) : Bool :=
  let t := tileOfCtx s.cur
  [2 * t, 2 * t + 1].any (fun core =>
    (s.coreOf core).actors.any (fun e =>
      e.2.valid && (if tileKind t = 0 then (e.2.claim &&& mask) ≠ 0 else e.2.claim ≠ 0) && !s.isActor core e.1))

/-- The role checks of an engine instruction of tile kind `kind` that uses resource bits `mask` (R178, R179). A resource of
zero bits is never claimed. -/
def State.engineRole (s : State) (kind mask : Nat) : Option Cause :=
  if tileKind (tileOfCtx s.cur) ≠ kind then some .engineKind
  else if !isIssueCore (coreOfCtx s.cur) then some .engineFeed
  else if mask ≠ 0 && s.claimedByOther mask then some .engineClaim
  else none

/-- A paced instruction is held (R50): its context stalls, and STALLS counts the cycle, once for all contexts (R64). -/
def Tile.countStall (t : Tile) (cyc : Nat) : Tile :=
  if t.stallCyc = some cyc then t else { t with stalls := (t.stalls + 1) % 2 ^ 32, stallCyc := some cyc }
def State.heldByPace (s : State) (wait : Cause) : State := (s.updCurTile (fun t => t.countStall s.cyc)).stallOn wait

/-- What follows a paced instruction that did not issue after all: NEXTOK stands as it was (R50). One that faults has issued (R246, R383). -/
def State.unpaced (s : State) (o : Out) : Out := match o with
  | .next s' =>
    if (s'.ctxOf s.cur).stall.isSome then
      .next (s'.updCurTile (fun t => { t with nextok := s.tile.nextok, lastPaced := s.tile.lastPaced }))
    else .next s'
  | o => o

/-- Issue of a paced instruction (R50, R52): it waits at h = 0 and before NEXTOK, and otherwise sets NEXTOK. -/
def State.pace (s : State) (w : Weight) (k : State → Out) : Out :=
  let t := s.tile
  if t.h = 0 then .next (s.heldByPace .waitPip)
  else if s.cyc < t.nextok then .next (s.heldByPace 0)
  else
    let iv := issueInterval t.h (fullRate (tileKind (tileOfCtx s.cur)))
    let next := s.cyc + (match w with | .four => iv | .one => iv / 4)
    s.unpaced (k (s.updCurTile (fun t => { t with nextok := next, lastPaced := s.rtime })))

/-- An A-slot vector instruction is paced in long mode with weight 1, after its claim check; in short mode it is not (R351). -/
def State.vecIssue (s : State) (k : State → Out) : Out :=
  if s.cx.long then
    (if s.claimedByOther 15 then s.faultA .engineClaim else s.pace .one k)
  else k s

end Sys2Proof.Machine
end

