-- ==== Sys2Proof/Machine/Way.lean ====
section
/-! DEFINITION. The status of nodes, where the rim attaches, routes, and the way to a home: R9, R12, R14, R15, R17, R30, R33, R36 to R40, R42, R76. -/

namespace Sys2Proof.Machine

/-! ### The status of nodes (R30, R33) -/

/-- The status of a node of a field (R33): what its record says; one without a record is untested until the seed is read, and dark from then on. -/
def State.nodeStatus (s : State) (f n : Nat) : Nat :=
  match (s.hubOf f).atlas.find? n with
  | some r => r.status
  | none => if (s.hubOf f).dark then 2 else (s.hubOf f).unlisted

def State.unitStatus (s : State) (t u : Nat) : Nat := s.nodeStatus (fieldOfTile t) (nodeOfUnit t u)

/-- Work may be placed on a unit that is good or degraded (R33). -/
def State.unitWorks (s : State) (t u : Nat) : Bool := s.unitStatus t u ≤ 1

/-- The status of a tile's own record (R30). -/
def State.tileStatus (s : State) (t : Nat) : Nat := s.nodeStatus (fieldOfTile t) (nodeOfTile t)

/-- A tile in service: its record and both cores and the engine are good or degraded, so that work may be placed on any of them (R33). -/
def State.tileServes (s : State) (t : Nat) : Bool := s.tileStatus t ≤ 1 && s.unitWorks t 0 && s.unitWorks t 1 && s.unitWorks t 2

/-- The hub whose copy of the wafer and rim records is in use: hub 89 has the other one (R30). -/
def State.rimHub (s : State) : Nat := if (s.hubOf 0).dark then 89 else 0

/-- The status of a rim node. -/
def State.rimStatus (s : State) (n : Nat) : Nat := s.nodeStatus s.rimHub n

/-- A fabric interface is dark, and with it its ports and Fjoval chips; a port; a chip (R17, R76). -/
def State.ifDark (s : State) (i : Nat) : Bool := s.loith.darkIfs.contains i || s.rimStatus (49 + i) = 2
def State.portDark (s : State) (p : Nat) : Bool := s.loith.darkPorts.contains p || s.ifDark (p / 9) || s.rimStatus (57 + p) = 2
def State.chipGone (s : State) (c : Nat) : Bool := s.loith.darkChips.contains c || s.ifDark (c / 4) || s.rimStatus (177 + c) = 2

/-! ### Where the rim attaches (R9, R14, R15) -/

/-- The router at which an HBM stack's controller attaches: stacks stand five columns apart along their crescent (DESIGN CHOICE; log 100). -/
def stackRouter (st : Nat) : Nat := tileAt (5 * (st % 24) + 2) (if st < 24 then 0 else 89)

/-- The rows of a fabric interface's span (R15). -/
def interfaceRows (i : Nat) : Nat × Nat := match i % 4 with
  | 0 => (0, 19)
  | 1 => (20, 49)
  | 2 => (50, 69)
  | _ => (70, 89)

/-- The edge router by which a tile's traffic reaches a fabric interface: of those it attaches to, the one in the tile's row or nearest to it
(DESIGN CHOICE; log 100). -/
def interfaceRouter (src i : Nat) : Nat :=
  tileAt (if i < 4 then 0 else 119) (min (interfaceRows i).2 (max (interfaceRows i).1 (tileY src)))

/-- The port toward another device, when there is one that is up (R76); an entry that nothing has written says unreachable (DESIGN CHOICE; log 7). -/
def State.devicePort (s : State) (dev : Nat) : Except Cause Nat :=
  let p := s.loith.devport.get 0xFF dev
  if p ≥ 72 then .error .destDark else if s.portDark p then .error .linkDead else .ok p

/-- The edge router from which a tile's traffic leaves for another device (R15, R36, R76). -/
def State.edgeTo (s : State) (src dev : Nat) : Option Nat := match s.devicePort dev with
  | .ok p => some (interfaceRouter src (p / 9))
  | .error _ => none

/-- A mesh link of a router exists: it leads to a neighbour, or to a rim controller that attaches there (R9, R31). -/
def linkThere (t dir : Nat) : Bool := match dir with
  | 0 => tileY t ≠ 0 || tileX t % 5 = 2
  | 2 => tileY t ≠ 89 || tileX t % 5 = 2
  | _ => true

/-! ### Routing (R36, R37) -/

/-- An override entry matches a destination tile on a virtual network. -/
def overrideHits (e dest vn : Nat) : Bool :=
  bitAt e 63 && bitAt e (59 + vn) && bitsAt e 6 0 ≤ tileX dest && tileX dest ≤ bitsAt e 20 14 && bitsAt e 13 7 ≤ tileY dest &&
    tileY dest ≤ bitsAt e 27 21

/-- Default routing: along the row to the destination's column, then along the column (R36). -/
def defaultPort (t dest : Nat) : Nat :=
  if tileX t < tileX dest then 1 else if tileX dest < tileX t then 3
  else if tileY t < tileY dest then 2 else if tileY dest < tileY t then 0 else 4

/-- The bank of a field's routers that a packet follows (R40): the active one, or, for a packet injected under an earlier generation, the bank of then. -/
def Hub.bankFor (h : Hub) (gen : Nat) : KMap Nat := ((h.past.find? (fun p => gen ≤ p.1)).map (fun p => p.2)).getD h.active

/-- The output port of a router for a destination tile, or with `hub` for the hub whose port that tile is: 0 N, 1 E, 2 S, 3 W, 4 local, 5 hub, 6 bounce (R36, R37). -/
def State.portBy (bank : KMap Nat) (t dest vn : Nat) (hub : Bool := false) : Nat :=
  let entries := (List.range 16).map (fun e => bank.get 0 (16 * localOfTile t + e))
  match entries.find? (fun e => overrideHits e dest vn) with
  | some e => bitsAt e 58 56
  | none => if hub && t = dest then 5 else defaultPort t dest

/-- The output port for a packet injected now, and for a packet in the mesh. -/
def State.routePort (s : State) (t dest vn : Nat) (hub : Bool := false) : Nat := State.portBy (s.hubOf (fieldOfTile t)).active t dest vn hub
def State.packetPort (s : State) (t : Nat) (m : Msg) : Nat :=
  State.portBy ((s.hubOf (fieldOfTile t)).bankFor m.gen) t (tileOfCore m.core) m.vn

/-- The tile that a link of a router leads to. -/
def stepTile (t dir : Nat) : Nat :=
  match dir with
  | 0 => t - 120
  | 1 => t + 1
  | 2 => t + 120
  | _ => t - 1

/-- A router forwards: it is not dark, and not retired in the generation in force (R42). -/
def State.routerUp (s : State) (t : Nat) : Bool := s.unitStatus t 5 ≠ 2 && !(s.hubOf (fieldOfTile t)).deadRouters.contains (localOfTile t)

/-- A link of a router can carry a packet: it leads to a neighbour, it is not dark, nor retired in the generation in force, and both routers forward
(R39, R42). A packet whose next or own router does not forward bounces as one at a dead link (DESIGN CHOICE; log 106). -/
def State.linkUp (s : State) (t dir : Nat) : Bool :=
  let edge := match dir with
    | 0 => tileY t = 0
    | 1 => tileX t = 119
    | 2 => tileY t = 89
    | _ => tileX t = 0
  !edge && s.unitStatus t (6 + dir) ≠ 2 && !(s.hubOf (fieldOfTile t)).deadLinks.contains (4 * localOfTile t + dir) && s.routerUp t && s.routerUp (stepTile t dir)

/-- Follow a packet's whole path, to a tile or with `hub` to the hub whose port the tile is: none when it arrives, else the cause of its bounce; a router
that it reaches after 255 hops bounces it (R36 to R39). An output port that does not lead to the destination gives `DEST_DARK` (log 105). -/
def State.pathGo (s : State) (dest vn : Nat) (hub : Bool) : Nat → Nat → Option Cause
  | 0, _ => some .routeLoop
  | n + 1, t =>
    match s.routePort t dest vn hub with
    | 4 => if t = dest ∧ !hub then none else some .destDark
    | 5 => if t = dest ∧ hub then none else some .destDark
    | 6 => some .destDark
    | 7 => some .destDark
    | d => if s.linkUp t d then s.pathGo dest vn hub n (stepTile t d) else some .linkDead
def State.pathCause (s : State) (src dest vn : Nat) (hub : Bool := false) : Option Cause := s.pathGo dest vn hub 255 src

/-- The router at which a packet meets a dead link, if it does (R39). -/
def State.stopGo (s : State) (dest vn : Nat) (hub : Bool) : Nat → Nat → Option Nat
  | 0, _ => none
  | n + 1, t =>
    let p := s.routePort t dest vn hub
    if p ≥ 4 then none else if s.linkUp t p then s.stopGo dest vn hub n (stepTile t p) else some t
def State.pathStop (s : State) (src dest vn : Nat) (hub : Bool := false) : Option Nat := s.stopGo dest vn hub 255 src

/-! ### The way to a home (R12, R17, R38, R39) -/

/-- The sender's networks that a drain stops (R40). -/
def State.masked (s : State) (vn : Nat) : Bool := match s.flip with
  | some f => bitAt f.mask vn
  | none => false

/-- The tile whose router serves a home, for traffic from a tile: of a field hub the port nearer the source's column, or the other one when
its router is dark (R12, R36); of another device the edge router of the port that leads there. -/
def State.doorOf (s : State) (src : Nat) : Home → Option Nat
  | .tile t => some t
  | .hub f =>
    let a := tileOfLocal f 53
    let b := tileOfLocal f 54
    let (p, q) := if tileX src ≤ tileX a then (a, b) else (b, a)
    some (if s.unitStatus p 5 = 2 then q else p)
  | .device d => s.edgeTo src d

/-- A tile that is dark or retired as a destination: its own record, or its router (R38, R42). -/
def State.tileDark (s : State) (t : Nat) : Bool := s.tileStatus t = 2 || s.tileStatus t = 3 || !s.routerUp t

/-- A field hub that is dark or retired (R38). -/
def State.hubOut (s : State) (f : Nat) : Bool :=
  let st := s.nodeStatus f (256 + 1442 * f + 1)
  (s.hubOf f).dark || st = 2 || st = 3

/-- The Fjoval chip of a capacity offset is absent: its interface or it is dark (R17). -/
def State.chipDark (s : State) (o : Nat) : Bool := s.chipGone (s.chipOf o).1

/-- The cause that a packet from a tile to a home bounces with, on REQ or another network (R38, R39, R75, R76). A tile that is home by its slice serves on while it is retired, until
a flip takes its slice out (R112). -/
def State.homeCause (s : State) (src : Nat) (slice : Bool) (h : Home) (vn : Nat := 0) : Option Cause :=
  let go := match s.doorOf src h with
    | some d => if d = src then none else s.pathCause src d vn (match h with
      | .hub _ => true
      | _ => false)
    | none => none
  match h with
  | .tile t => if !slice && s.tileDark t then some .destDark else go
  | .hub f => if s.hubOut f then some .destDark else go
  | .device d => match s.devicePort d with
    | .error c => some c
    | .ok _ => go

/-- The cause that an access from a tile to a GPA bounces with. -/
def State.wayCause (s : State) (src g : Nat) (vn : Nat := 0) : Option Cause :=
  if s.gpaLocal g ∧ gpaSpace g = 2 ∧ s.chipDark (gpaOffset g) then some .destDark else s.homeCause src (gpaSpace g ≠ 0) (s.homeOf g) vn

/-- The same for runs of bytes, each home asked once. -/
def State.runsCause (s : State) (src : Nat) (gs : List Nat) (vn : Nat := 0) : Option Cause :=
  if gs.any (fun g => s.gpaLocal g && gpaSpace g = 2 && s.chipDark (gpaOffset g)) then some .destDark
  else ((gs.map (fun g => (decide (gpaSpace g ≠ 0), s.homeOf g))).eraseDups.filter (fun e => e.2 ≠ .tile src)).findSome? (fun e => s.homeCause src e.1 e.2 vn)

/-- The edge router where the controller of a place's stack or chip attaches (R14, R15). -/
def State.rimDoor (s : State) (src g : Nat) : Nat :=
  if gpaSpace g = 1 then stackRouter (hbmStack (gpaOffset g)) else interfaceRouter src (chipInterface (s.chipOf (gpaOffset g)).1)

/-- A home slice reaches the controller behind a line, and is reached from there: without a way its fill waits (R36 to R40; log 127). -/
def State.fillWay (s : State) (g : Nat) : Bool :=
  match s.homeOf g with
  | .tile t =>
    let d := s.rimDoor t g
    !s.masked 0 && !s.masked 1 && (d = t || ((s.pathCause t d 0).isNone && (s.pathCause d t 1).isNone))
  | _ => true

end Sys2Proof.Machine
end

