-- ==== Sys2Proof/Machine/Access.lean ====
section
/-! DEFINITION. Accesses at their source: what a load, store, atomic or reduction puts in flight, how its context holds for a
reply (R313, R323), and the conditions that fences and releases wait for (R207 to R215). -/

namespace Sys2Proof.Machine

/-- Whether homes of a reach lie within a scope of the issuing context (R208, R209). -/
def reachWithin (reach scope : Nat) : Bool := reach = 0 || (reach = 1 && scope ≥ 3) || (reach = 2 && scope ≥ 4) || scope ≥ 5

/-! ### Lines at their slices (R112, R113) -/

/-- The lines that a run of bytes touches. -/
def linesOf (g n : Nat) : List Nat :=
  (List.range (lineOf (gpaKey g + n - 1) + 1 - lineOf (gpaKey g))).map (fun i => lineOf (gpaKey g) + i)

/-- A memory that slices cache: HBM or the capacity tier. -/
def inSlice (g : Nat) : Bool := gpaSpace g = 1 || gpaSpace g = 2

/-- The slice that is home of a line keeps lines: one that is dark serves its lines without caching (R112). -/
def State.lineCaches (s : State) (l : Nat) : Bool := match s.homeOf (lineGpa l) with
  | .tile t => s.unitStatus t 3 ≠ 2
  | _ => false

/-- The lines of runs of bytes that their home slices are to fetch. -/
def State.missesOf (s : State) (runs : List (Nat × Nat)) : List Nat :=
  (runs.filter (fun p => s.gpaLocal p.1 && inSlice p.1)).flatMap (fun p => (linesOf p.1 p.2).filter (fun l => !s.cached.has l && s.lineCaches l))

/-- Miss registers have room for lines: 64 lines at a slice, 64 requesters of a line (R113). -/
def State.missRoom (s : State) (ls : List Nat) : Bool :=
  ls.all (fun l => match s.misses.find? l with
    | some m => m.count < 64
    | none => (s.misses.filter (fun m => s.homeOf (lineGpa m.1) = s.homeOf (lineGpa l))).length < 64)

/-- A request takes or joins the miss register of each line (R113). -/
def State.startMisses (s : State) (tag : Nat) (ls : List Nat) : State :=
  { s with misses := ls.foldl (fun m l =>
      let e := m.get {} l
      m.put l { tag := if e.count = 0 then tag else e.tag, count := e.count + 1 }) s.misses }

/-- An access of a tag at the slice that is home of a place, with the lines that it misses (R101). -/
def State.countHome (s : State) (tag g : Nat) (ms : List Nat) : State :=
  match inSlice g, s.homeOf g with
  | true, .tile t =>
    let merged := ms.filter s.misses.has
    ((s.countSlice t tag 0x20 1).countSlice t tag 0x21 (ms.length - merged.length)).countSlice t tag 0x22 merged.length
  | _, _ => s

/-- The miss register of a line is free again, and the replies that waited for its fill may leave. -/
def State.endMiss (s : State) (l : Nat) : State :=
  { s with misses := s.misses.drop l, net := s.net.map (fun a => if a.fills.contains l then { a with fills := a.fills.filter (· ≠ l) } else a) }

/-- A run of bytes cut where its lines have other homes: the parts by VA, GPA and length (R112; log 120). -/
def State.cutGo (s : State) : Nat → Nat → Nat → Nat → List (Nat × Nat × Nat)
  | 0, va, g, n => [(va, g, n)]
  | fuel + 1, va, g, n =>
    let k := 128 - gpaKey g % 128
    if n ≤ k then [(va, g, n)]
    else match s.cutGo fuel (va + k) (g + k) (n - k) with
      | (v, h, m) :: r => if s.homeOf h = s.homeOf g then (va, g, k + m) :: r else (va, g, k) :: (v, h, m) :: r
      | [] => [(va, g, k)]
def State.homeCuts (s : State) (ps : List (Nat × Nat × Nat)) : List (Nat × Nat × Nat) :=
  ps.flatMap (fun p => if s.gpaLocal p.2.1 && inSlice p.2.1 then s.cutGo (p.2.2 / 128 + 1) p.1 p.2.1 p.2.2 else [p])
def State.homeRuns (s : State) (ps : List (Nat × Nat)) : List (Nat × Nat) := (s.homeCuts (ps.map (fun p => (0, p)))).map (fun p => p.2)

/-- The owner tag with which a slice holds or fetches a line (R92). -/
def State.lineTag (s : State) (l : Nat) : Nat := match s.cached.find? l with
  | some t => t
  | none => (s.misses.get {} l).tag

/-! ### Sending -/

/-- The reach of a GPA from the issuing tile. -/
def State.reachGpa (s : State) (g : Nat) : Nat := State.reachOf (tileOfCtx s.cur) (s.homeOf g)

/-- The kind of access that the page of an access in flight has been checked for. -/
def AccKind.acc : AccKind → Acc
  | .load => .read
  | .acquire _ => .read
  | .store => .write
  | .release _ => .write
  | .atomic _ => .atomic
  | .reduce _ => .atomic
  | .arrival => .write

/-- The page of a VA is of another kind than 0 (R117). -/
def State.uncachedAt (s : State) (core tag va : Nat) (acc : Acc) : Bool :=
  match s.translate core tag va acc with
  | .ok _ e => decide (e.kind ≠ 0)
  | _ => true

/-- The runs of bytes of an access. -/
def Access.runs (a : Access) : List (Nat × Nat) := (a.gpa, a.size) :: a.more

/-- The counter of the issuing core that an access reads, and the first of its CNTVAL's bytes (R100). -/
def Access.counterOf (a : Access) (core : Nat) : Option (Nat × Nat) :=
  let o := gpaWindow a.gpa - 0xC01000 - 0x100 * (core % 2)
  if gpaSpace a.gpa = 0 ∧ tileAt (gpaCol a.gpa) (gpaRow a.gpa) = tileOfCore core ∧ 0xC01000 + 0x100 * (core % 2) ≤ gpaWindow a.gpa ∧ o < 0x40 ∧ 8 ≤ o % 16 ∧ o % 8 + a.size ≤ 8 ∧ a.more = []
  then some (o / 16, o % 8) else none

/-- Put an access of the issuing context in flight. Its reach is that of its furthest home. -/
def State.launchAccess (s : State) (a : Access) : State :=
  let a := { a with id := s.nextAcc, ctx := s.cur, firing := s.cx.firing, tag := s.tag, level := s.level,
                    reach := (a.runs.map (fun p => s.reachGpa p.1)).foldl max 0, cyc := s.cyc, since := s.rtime,
                    uncached := s.uncachedAt (coreOfCtx s.cur) s.tag a.va a.kind.acc,
                    shadow := s.cx.pairCtx.isSome && tileX (tileOfCtx s.cur) % 2 = 1 && s.reachGpa a.gpa ≠ 0, pairOf := s.cx.pairFiring }
  { s with net := s.net ++ [a], nextAcc := s.nextAcc + 1 }

/-- Put an access in flight and hold the context for its reply (R313, R323). -/
def State.holdFor (s : State) (a : Access) : State :=
  let id := s.nextAcc
  ((s.launchAccess a).upd (fun c => { c with hold := some id })).stallOn 0

/-- Put a store or reduction in flight: a remote one counts in UNACK from its retirement (R187, R207). -/
def State.issueStore (s : State) (a : Access) : State := (s.launchAccess a).upd (fun c => c.unackUp (s.reachGpa a.gpa))

/-- A store cannot leave now: the UNACK field of its reach stands at its limit (R187), or a drain stops remote stores at injection (R320). -/
def State.unackFull (s : State) (g : Nat) : Bool :=
  let r := s.reachGpa g
  r ≠ 0 && (s.cx.unackAt r ≥ 65535 || s.masked 0)

/-- The pieces of a run of bytes that has been checked, by VA, GPA and length: it may span two 64 KiB pages (R312), and lines of several homes (R112). -/
def State.vaPieces (s : State) (va size g : Nat) (acc : Acc) : List (Nat × Nat × Nat) :=
  let first := min size (0x10000 - va % 0x10000)
  s.homeCuts (if first = size then [(va, g, size)]
  else match s.translate (coreOfCtx s.cur) s.tag (va + first) acc with
    | .ok g2 _ => [(va, g, first), (va + first, g2, size - first)]
    | _ => [(va, g, size)])

/-- The same, by GPA and length. -/
def State.piecesOf (s : State) (va size g : Nat) (acc : Acc) : List (Nat × Nat) := (s.vaPieces va size g acc).map (fun p => p.2)

/-- The issuing context's reply, wait or neither: what a holding instruction finds when its bundle is due (R313). -/
def State.holding (s : State) (va : Nat) (synd : Cause → Nat) (start : State → Out) (k : Nat → Out) : Out :=
  match s.cx.reply with
  | some (.value v) => k v
  | some (.failed c _) => s.faultC c va (synd c)
  | none => match s.cx.hold with
    | some _ => .next (s.stallOn 0)
    | none => start s

/-- A load with the count that it returns, where it is of a counter of the issuing core and follows no store of the context to it (R206, R420). -/
def State.withCount (s : State) (a : Access) : Access :=
  match a.counterOf (coreOfCtx s.cur) with
  | none => a
  | some (n, b) => if !s.gpaLocal a.gpa || s.net.any (fun x => x.ctx = s.cur && x.result.isNone && x.gpa / 8 = a.gpa / 8) then a
      else { a with snap := some ((s.core.counters.get {} n).value % 2 ^ 48 / 2 ^ (8 * b) % 2 ^ (8 * a.size)) }

/-- A load of `size` bytes at a VA: check, send, hold; with the value back, continue (R312, R313). -/
def State.loadBytes (s : State) (va size align : Nat) (vector : Bool) (kind : AccKind) (k : Nat → Out) : Out :=
  s.holding va (fun c => accSyndrome c .read size 0)
    (fun s => match s.checkAccess s.cur va size align .read vector with
      | .bad c synd => s.faultC c va synd
      | .wait => .next (s.stallOn 0)
      | .ok g _ =>
        match s.piecesOf va size g .read with
        | [] => .next (s.stallOn 0)
        | (g0, n0) :: more => .next (s.holdFor (s.withCount { kind := kind, va := va, gpa := g0, size := n0, more := more })))
    k

/-- The store of DBGCAP's high half holds its context until the target tile has checked it (R241). -/
def isDbgAttach (g : Nat) : Bool := gpaSpace g = 0 && regionOf (gpaWindow g) = .debug && gpaWindow g % 0x1000 = 8

/-- The low half of the capability that a store to DBGCAP presents (R238, R241). -/
def State.attachLow (s : State) (va : Nat) : Nat := match s.translate (coreOfCtx s.cur) s.tag va .write with
  | .ok g _ => (s.dbgOf (dbgPageOf g)).capLow.toNat
  | _ => 0

/-- Put the pieces of a store in flight, least significant bytes first (R314). -/
def State.issuePieces (s : State) (kind : AccKind) : List (Nat × Nat × Nat) → Nat → State
  | [], _ => s
  | (va, g, n) :: ps, data =>
    (s.issueStore { kind := kind, va := va, gpa := g, size := n, data := data % 2 ^ (8 * n) }).issuePieces kind ps (data / 2 ^ (8 * n))

/-- A store of `size` bytes at a VA (R312, R314): its source checks are precise, and it retires before it is performed. -/
def State.storeBytes (s : State) (va size align data : Nat) (vector : Bool) (kind : AccKind) (k : State → Out) : Out :=
  match s.cx.reply with
  | some (.value _) => k s
  | some (.failed c _) => s.faultC c va (if 0x30 ≤ c ∧ c ≤ 0x4F then s.attachLow va else accSyndrome c .write size 0)
  | none =>
    if s.cx.hold.isSome then .next (s.stallOn 0)
    else match s.checkAccess s.cur va size align .write vector with
      | .bad c synd => s.faultC c va synd
      | .wait => .next (s.stallOn 0)
      | .ok g _ =>
        if isDbgAttach g then .next (s.holdFor { kind := kind, va := va, gpa := g, size := size, data := data })
        else
          let ps := s.vaPieces va size g .write
          if ps.any (fun p => s.unackFull p.2.1) then .next (s.stallOn 0)
          else k (s.issuePieces kind ps data)

/-! ### What fences and releases wait for (R210, R213) -/

/-- The issuing context has an own-tile store or reduction not yet performed, of its firing or of an earlier one (R207, R209). -/
def State.ownPending (s : State) : Bool :=
  s.net.any (fun a => (a.firing = s.cx.firing || a.ctx = s.cur) && a.reach = 0 && a.result.isNone &&
    (match a.kind with
     | .store => true
     | .release _ => true
     | .reduce _ => true
     | _ => false))

/-- The firing has an output-stream entry not yet stored of which some byte's home lies in a scope (R193, R210). -/
def State.streamPending (s : State) (scope : Nat) : Bool :=
  s.core.streams.any (fun e => e.2.bound && e.2.firing = s.cx.firing && e.2.output &&
    e.2.outs.any (fun o => (s.homeCuts o.1).any (fun p => reachWithin (s.reachGpa p.2.1) scope)))

/-- Every earlier load of the context has been performed (it holds at each), and so have the stores within a scope
(R209, R210, R213). -/
def State.storesDone (s : State) (scope : Nat) : Bool := !s.ownPending && s.cx.unackClear scope && !s.streamPending scope

/-- Earlier remote stores of the context that are homed outside a scope, not yet acknowledged, and not yet counted (R215). -/
def State.outsideScope (s : State) (scope : Nat) (a : Access) : Bool :=
  a.firing = s.cx.firing && !a.counted && a.reach ≠ 0 && !reachWithin a.reach scope &&
    (match a.kind with
     | .store => true
     | .release _ => true
     | .reduce _ => true
     | _ => false)

/-- A release at a scope is performed: each such store adds 1 to FSTAT.SCOPE, once (R215). -/
def State.countScope (s : State) (scope : Nat) : State :=
  let n := (s.net.filter (s.outsideScope scope)).length
  ({ s with net := s.net.map (fun a => if s.outsideScope scope a then { a with counted := true } else a) }).upd (fun c => c.countScope n)

/-- The narrowest scope that holds a home of a reach (R208, R215). -/
def homeScope (reach : Nat) : Nat :=
  match reach with
  | 0 => 0
  | 1 => 3
  | 2 => 4
  | _ => 5

/-- A release at a scope toward a place that scope `need` holds: it waits, then acts at the wider of the two, which adds 1 to
FSTAT.SCOPE if the scope named is narrower (R213, R215, R218). A stall is reported as `wait`. -/
def State.releaseThen (s : State) (scope need : Nat) (wait : Cause) (k : State → Out) : Out :=
  let sc := max scope need
  if s.storesDone sc then
    k ((if need ≤ scope then s else s.upd (fun c => c.countScope 1)).countScope sc)
  else .next (s.stallOn wait)

/-! ### Reads that an instruction makes at once, in its context's order (R206) -/

/-- The key of a byte for comparing places: of this device without its device bits. -/
def State.placeOf (s : State) (g : Nat) : Nat := if s.gpaLocal g then gpaKey g else g

/-- Runs of bytes overlap. -/
def State.runsOverlap (s : State) (ps qs : List (Nat × Nat)) : Bool :=
  ps.any (fun p => qs.any (fun q => s.placeOf p.1 < s.placeOf q.1 + q.2 && s.placeOf q.1 < s.placeOf p.1 + p.2))

/-- A store or reduction: it returns nothing, and its failure counts in FSTAT. -/
def Access.silent (a : Access) : Bool := match a.kind with
  | .store => true
  | .release _ => true
  | .reduce _ => true
  | _ => false

/-- The lines that an access is to have fetched. -/
def State.missing (s : State) (a : Access) : List Nat := if a.uncached then [] else s.missesOf a.runs

/-- A store or reduction of the issuing context to one of the places is not yet performed: a read of them comes after it (R206). -/
def State.ownBlocks (s : State) (runs : List (Nat × Nat)) : Bool :=
  s.net.any (fun a => (a.firing = s.cx.firing || a.ctx = s.cur) && a.silent && a.result.isNone && a.stream.isNone && s.runsOverlap a.runs runs)

/-- The places whose homes a run of bytes asks: each of its lines where slices are home, else its first byte. -/
def State.placesOf (s : State) (p : Nat × Nat) : List Nat :=
  if s.gpaLocal p.1 && inSlice p.1 then (linesOf p.1 p.2).map lineGpa else [p.1]

/-- Whether a tile can reach runs of bytes now: no wait for a field in relock (R19), for the turn of a partition (R96), for a drain (R40) or for a miss register (R113), and no
bounce on the way (R38, R39). -/
def State.runsWay (s : State) (src : Nat) (runs : List (Nat × Nat)) (vn : Nat := 0) : Except (Option Cause) Unit :=
  let far := (runs.flatMap s.placesOf).filter (fun g => s.homeOf g ≠ .tile src)
  if runs.any (fun p => s.homeStill p.1 || s.foreign src p.1) || (!far.isEmpty && s.masked vn) || !s.missRoom (s.missesOf runs) then .error none
  else match s.runsCause src far vn with
    | some c => .error (some c)
    | none => .ok ()

/-- A read of a run of bytes reaches its home from tile `src`: it is counted (R101), and a line that its slice was to fetch is fetched at once, since the time of a
fill is open (R113, R424). With `raw` the page is not cached (R117). -/
def State.noteRead (src tag : Nat) (raw : Bool) (s : State) (p : Nat × Nat) : State :=
  let far := decide (s.homeOf p.1 ≠ .tile src)
  let ms := if raw then [] else s.missesOf [p]
  let s1 := (if far then s.countFabric (fieldOfTile src) 0x40 (Config.flits 0) else s).countHome tag p.1 ms
  let s2 : State := { s1 with cached := (ms.filter (fun l => !s.misses.has l)).foldl (fun m l => m.put l tag) s.cached }
  match s.homeOf p.1 with
  | .tile t => if far then s2.countFabric (fieldOfTile t) 0x41 (Config.flits p.2) else s2
  | .hub f => s2.countFabric f 0x41 (Config.flits p.2)
  | .device _ => s2
def State.noteReads (s : State) (src tag : Nat) (runs : List (Nat × Nat)) (raw : Bool := false) : State :=
  (s.homeRuns runs).foldl (State.noteRead src tag raw) s

/-- The same for a read of the issuing context, which comes after its own stores (R206). -/
def State.readWay (s : State) (runs : List (Nat × Nat)) : Except (Option Cause) Unit :=
  if s.ownBlocks runs then .error none else s.runsWay (tileOfCtx s.cur) runs

/-- Bytes of another device, as a little-endian number (log 22). -/
def remoteLE (now g : Nat) : Nat → Nat
  | 0 => 0
  | n + 1 => (Config.remoteByte now g).toNat + 256 * remoteLE now (g + 1) n

/-- Bytes at a GPA as a number: memory of this device as its homes have it (R205), or bytes of another device (R75). -/
def State.viewLE (s : State) (g n : Nat) : Nat := if s.gpaLocal g then s.mem.readLE (gpaKey g) n else remoteLE s.now g n

/-! ### What a doubles pair reads (R46, R47; log 142) -/

/-- A firing's context and its partner's, while both of a pair are in slots. -/
def State.mates (s : State) (n : Nat) : Option (Nat × Nat) :=
  match List.find? (fun e => e.2.occ && e.2.firing = n && e.2.pairFiring.isSome) s.ctxs with
  | none => none
  | some (i, c) => (List.find? (fun e => e.2.occ && some e.2.firing = c.pairFiring) s.ctxs).map (fun e => (i, e.1))

/-- The packets of a channel that the partner of a firing has made and the firing has not, oldest first: GPA, length, value. -/
def State.mateReads (s : State) (n ch : Nat) : List (Nat × Nat × Nat) := match s.mates n with
  | none => []
  | some (_, j) => ((s.ctxOf j).pairReads.filter (fun e => e.1 = ch)).map (fun e => e.2)

/-- The value that a firing's read of a run takes: the one that its partner's equal request was answered with, else the home's. -/
def State.pairView (s : State) (n ch g len : Nat) : Nat := match (s.mateReads n ch).find? (fun e => e.1 = g && e.2.1 = len) with
  | some e => e.2.2
  | none => s.viewLE g len

/-- Two packets of a channel are equal: of writes, which have the odd channels, also in their data. -/
def samePair (ch : Nat) (a b : Nat × Nat × Nat) : Bool := a.1 = b.1 && a.2.1 = b.2.1 && (ch % 2 = 0 || a.2.2 = b.2.2)

/-- A packet of a firing on a channel is compared: with the partner's oldest, which leaves with it if they are equal; else it stays to be compared. -/
def State.pairPost (n ch : Nat) (s : State) (r : Nat × Nat × Nat) : State :=
  match s.mates n with
  | none => s
  | some (i, j) =>
    let theirs := (s.ctxOf j).pairReads
    match theirs.findIdx? (fun e => e.1 = ch) with
    | some k =>
      if (theirs[k]?).any (fun e => samePair ch e.2 r) then s.updCtx j (fun c => { c with pairReads := theirs.take k ++ theirs.drop (k + 1) })
      else s.updCtx i (fun c => { c with pairReads := c.pairReads ++ [(ch, r)] })
    | none => s.updCtx i (fun c => { c with pairReads := c.pairReads ++ [(ch, r)] })

/-- A run lies in another tile than `src`, so that a packet of it is injected. -/
def State.leavesTile (s : State) (src g : Nat) : Bool := s.homeOf g ≠ .tile src

/-- The runs that a firing reads on a channel, with the value read at the homes: what it takes, and the machine after the comparison. -/
def State.pairRuns (s : State) (n ch src : Nat) (runs : List (Nat × Nat)) (v : Nat) : Nat × State :=
  if (s.mates n).isNone then (v, s)
  else
    let r := runs.foldl (fun (p : Nat × Nat × State) (g : Nat × Nat) =>
      let own := v / 2 ^ (8 * p.1) % 2 ^ (8 * g.2)
      if s.leavesTile src g.1 then
        let x := ((s.mateReads n ch).find? (fun e => e.1 = g.1 && e.2.1 = g.2)).elim own (fun e => e.2.2)
        (p.1 + g.2, p.2.1 + x * 2 ^ (8 * p.1), p.2.2.pairPost n ch (g.1, g.2, x))
      else (p.1 + g.2, p.2.1 + own * 2 ^ (8 * p.1), p.2.2)) (0, 0, s)
    (r.2.1, r.2.2)

/-- What the issuing firing reads of a run at once. -/
def State.ownView (s : State) (g n : Nat) : Nat :=
  if s.cx.pairFiring.isSome && s.leavesTile (tileOfCtx s.cur) g then s.pairView s.cx.firing 0 g n else s.viewLE g n

/-- The comparison of runs that the issuing firing has read. -/
def State.ownPosts (s : State) (runs : List (Nat × Nat)) : State :=
  if s.cx.pairFiring.isNone then s
  else (runs.filter (fun p => s.leavesTile (tileOfCtx s.cur) p.1)).foldl (fun s p => s.pairPost s.cx.firing 0 (p.1, p.2, s.ownView p.1 p.2)) s

/-- The line of a GPA of this device is poisoned (R125). -/
def State.poisoned (s : State) (g : Nat) : Bool := s.gpaLocal g && s.poison.contains (lineOf (gpaKey g))

/-- The cause of a detected error in the line of a GPA, by location: local store, slice, HBM or capacity tier (R247, R253). -/
def lineErrorCause (g : Nat) (slice : Bool) : Cause :=
  match gpaSpace g with
  | 0 => .ueLocal
  | 2 => if slice then .ueSlice else .ueCapacity
  | _ => if slice then .ueSlice else .ueHbm

/-- A run of bytes of this device touches a line. -/
def State.touches (s : State) (l g n : Nat) : Bool := s.gpaLocal g && lineOf (gpaKey g) ≤ l && l ≤ lineOf (gpaKey g + n - 1)

/-- The cause of a read that meets poison in runs of bytes: of the first detection, or of a line marked before (R125, R247). -/
def State.poisonCause (s : State) (runs : List (Nat × Nat)) : Cause :=
  match s.latent with
  | some (l, slice) => if runs.any (fun p => s.touches l p.1 p.2) then lineErrorCause (lineGpa l) slice else .linePoison
  | none => .linePoison

/-- Why a read at once does not give its value: a fault, or a wait without fault (R124). -/
abbrev ReadStop := Option (Cause × Nat)

/-- Read a run of bytes of the issuing context as a number: its address translated and checked as one access (R331, R339,
R343, R394). -/
def State.readNow (s : State) (va size align : Nat) : Except ReadStop Nat :=
  match s.checkAccess s.cur va size align .read true with
  | .bad c synd => .error (some (c, synd))
  | .wait => .error none
  | .ok g _ =>
    match s.readWay [(g, size)] with
    | .error e => .error (e.map (fun c => (c, accSyndrome c .read size 0)))
    | .ok _ =>
      if s.poisoned g then .error (some (s.poisonCause [(g, size)], accSyndrome .linePoison .read size 0))
      else .ok (s.ownView g size)

/-- The machine after that read has reached its home (R101, R113); a context that holds has made it before. -/
def State.afterRead (s : State) (va size : Nat) : State :=
  match s.checkAccess s.cur va size 1 .read true with
  | .ok g e => (if s.cx.hold.isSome || s.cx.reply.isSome then s else s.ownPosts [(g, size)]).noteReads (tileOfCtx s.cur) s.tag [(g, size)] (decide (e.kind ≠ 0))
  | _ => s

/-- Doublewords of a number, lowest first. -/
def doublewords (n v : Nat) : List Word := (List.range n).map (fun i => BitVec.ofNat 64 (v / 2 ^ (64 * i)))

/-- A descriptor of `n` doublewords at a VA that must be a multiple of 64 (R331, R339, R394). -/
def State.readDesc (s : State) (va n : Nat) : Except ReadStop (List Word) :=
  if va % 64 ≠ 0 then .error (some (.descAlign, 0))
  else match s.readNow va (8 * n) 1 with
    | .error e => .error e
    | .ok v => .ok (doublewords n v)

/-- Continue with what a read at once gives; else fault at the VA, or stall. -/
def State.reading {α : Type} (s : State) (va : Nat) (r : Except ReadStop α) (k : α → Out) : Out :=
  match r with
  | .error (some (c, synd)) => s.faultC c va synd
  | .error none => .next (s.stallOn 0)
  | .ok v => k v

/-- The access in flight with a number, and the machine without it. -/
def State.accOf (s : State) (id : Nat) : Option Access := List.find? (fun a => a.id = id) s.net
def State.dropAcc (s : State) (id : Nat) : State := { s with net := s.net.filter (fun a => a.id ≠ id) }

/-- Continue with a descriptor of `n` doublewords at a VA, and with the machine after its read. -/
def State.readingDesc (s : State) (va n : Nat) (k : State → List Word → Out) : Out :=
  s.reading va (s.readDesc va n) (k (s.afterRead va (8 * n)))

end Sys2Proof.Machine
end

