-- ==== Sys2Proof/Machine/Cap.lean ====
section
/-! DEFINITION. Capability instructions: R168 to R170, R329, R330. -/

namespace Sys2Proof.Machine

/-- Write a sealed capability to a pair and fall through (R323). -/
def State.resultCap (s : State) (xd : BitVec 5) (lo : Word) : Out :=
  .next ((s.setX xd lo).setX (xd + 1) (s.sealWord lo)).fall

/-- A capability's low doubleword with other fields of its own. -/
def capWithOwner (lo : Word) (owner : Nat) : Word :=
  BitVec.ofNat 64 (lo.toNat - capOwner lo * 2 ^ 46 + owner % 256 * 2 ^ 46)
def capWithRights (lo : Word) (rights ports : Nat) : Word :=
  BitVec.ofNat 64 (lo.toNat - capRights lo * 2 ^ 14 - capPorts lo * 2 ^ 18 + rights % 16 * 2 ^ 14 + ports % 16 * 2 ^ 18)

/-- The logical core and agent of the issuing firing, as a capability without rights; zero where its tile is bound to none (R171). -/
def State.homeWord (s : State) : Word := if (s.logicalOf s.tag (tileOfCtx s.cur)).isSome then capWithRights (s.selfWord 0) 0 0 else 0

/-- `cap.mint` (R170, R329): below platform level the owner is the caller's own tag. -/
def execCapMint (f : FmtCR) (s : State) : Out :=
  s.slotC (.capMint f) fun s =>
    let a := s.x f.xa
    if bitsOf a 13 0 ≠ 0 ∨ (capWhole a ∧ capAct a ≠ 0) then s.faultC .capTarget 0 a.toNat
    else s.resultCap f.xd (if s.level ≥ 2 then a else capWithOwner a s.tag)

/-- `cap.narrow` (R170, R329). -/
def execCapNarrow (f : FmtCR) (s : State) : Out :=
  s.slotC (.capNarrow f) fun s =>
    let (lo, hi) := s.pairAt f.xa
    let b := s.x f.xb
    let rights := bitsOf b 3 0
    let ports := bitsOf b 7 4
    if !s.capGenuine lo hi then s.faultC .capForged 0 lo.toNat
    else if bitsOf b 63 8 ≠ 0 || (rights &&& capRights lo) ≠ rights || (ports &&& capPorts lo) ≠ ports then
      s.faultC .capRights 0 lo.toNat
    else s.resultCap f.xd (capWithRights lo rights ports)

/-- `cap.self` (R170, R329): for a pool firing or task, the core's capability with the wake right. -/
def execCapSelf (f : FmtCR) (s : State) : Out := s.slotC (.capSelf f) fun s => s.resultCap f.xd (s.selfWord 2)

/-- The source check of a capability for a right (R169): the seal and reserved bits, then the right. -/
def State.capCheck (s : State) (lo hi : Word) (right : Nat) : Option Cause :=
  if !s.capGenuine lo hi then some .capForged else if !capHas lo right then some .capRights else none

/-- The sending agent of the issuing firing: an actor, or the context of a pool firing or task (R164). -/
def State.agentKey (s : State) : Nat := if s.cx.pool || s.cx.task then 64 + s.cur % 8 else s.cx.act

/-- `wake` and `halt` leave as a control packet on SYS once the capability passes (R330). -/
def State.control (s : State) (xb : BitVec 5) (wake : Bool) : Out :=
  let (lo, hi) := s.pairAt xb
  match s.capCheck lo hi (if wake then rightWake else rightHalt) with
  | some c => s.faultC c 0 lo.toNat
  | none =>
    .next ({ s with ctls := s.ctls ++ [{ wake := wake, capLo := lo, capHi := hi, srcCore := coreOfCtx s.cur, srcAct := some s.agentKey, home := s.homeWord }] } : State).fall

/-- `wake` (R330). -/
def execWake (f : FmtCR) (s : State) : Out := s.slotC (.wake f) fun s => s.control f.xb true

/-- `halt` (R330). -/
def execHalt (f : FmtCR) (s : State) : Out := s.slotC (.halt f) fun s => s.control f.xb false

end Sys2Proof.Machine
end

