-- ==== Sys2Proof/Machine/Message.lean ====
section
/-! DEFINITION. Parking, the send family and the port instructions: R153 to R159, R166, R182, R183, R248, R249, R324 to R328. -/

namespace Sys2Proof.Machine

/-! ### Parking (R182, R183, R248, R249) -/

/-- PARKCAP acts as 64 above 64 (R183). -/
def Core.parkRoom (k : Core) : Bool := k.parked.length < min 64 k.parkCap

/-- The lowest key that a map does not hold. -/
def lowestFree {α : Type} (m : KMap α) : Nat → Nat → Nat
  | 0, n => n
  | fuel + 1, n => if m.has n then lowestFree m fuel (n + 1) else n

/-- The firing of a context leaves its slot for the park area, or stays in place where there is no entry (R183). -/
def State.toParkArea (s : State) (i : Nat) : State :=
  let core := coreOfCtx i
  let k := s.coreOf core
  if k.parkRoom then
    ({ s with ctxs := s.ctxs.put i {} } : State).updCore core (fun k => { k with parked := k.parked.put (lowestFree k.parked 64 0) { s.ctxOf i with slot := i } })
  else s

/-- The issuing firing parks with a reason (R249). The reason is never a fault, and no packet is sent. -/
def State.parkFiring (s : State) (reason : Cause) : State :=
  ((s.upd (fun c => { c with st := 2, reason := reason, haltAt := s.rtime, stall := none, reported := false, hold := none, reply := none })).toParkArea s.cur)

/-! ### Ports -/

/-- The oldest overflow messages move into the hardware part while it has room (R153). -/
def Port.refillGo : Nat → Port → Port
  | 0, p => p
  | n + 1, p =>
    match p.oq with
    | [] => p
    | m :: r => if p.hwPart.length < portDepth p.word then Port.refillGo n { p with hwPart := p.hwPart ++ [m], oq := r } else p
def Port.refill (p : Port) : Port := Port.refillGo p.oq.length p

/-- A message joins the overflow part, in the entry after the newest one's (R153). -/
def Port.pushOq (q : Port) (m : Msg) : Port :=
  { q with oq := q.oq ++ [{ m with slot := some (match q.oq.getLast? with
      | some l => (l.slot.getD 0 + 1) % max 1 (portOqCap q.word)
      | none => 0) }] }

/-- Where an entry of a port's overflow queue stands in local store: 64 bytes an entry from OQBASE (R150, R153). -/
def oqKey (k : Nat) (w : Word) (slot : Nat) : Nat := gpaKey (tileGpa (tileOfCore k) (portOqBase w + 64 * slot))

/-- Local store after the newest message of a port's overflow part has been written there (R153). -/
def Core.keepOq (c : Core) (mem : Memory) (k a p : Nat) (spilt : Bool) : Memory :=
  let q := (c.actorAt a).portAt p
  match spilt, q.oq.getLast? with
  | true, some m => mem.writeLE (oqKey k q.word (m.slot.getD 0)) (8 * m.words.length) (packLanes 64 (m.words.map BitVec.toNat))
  | _, _ => mem

/-- A port whose hardware part has the words of what came from the overflow queue, as local store holds them (R153). -/
def Port.settled (q : Port) (mem : Memory) (k : Nat) : Port :=
  if q.hwPart.all (fun m => m.slot.isNone) then q
  else { q with hwPart := q.hwPart.map (fun m => match m.slot with
    | some n => { m with slot := none, words := doublewords m.words.length (mem.readLE (oqKey k q.word n) (8 * m.words.length)) }
    | none => m) }

/-- The head message of a port (R153). -/
def Port.head (p : Port) : Option Msg := p.hwPart.head?

/-- The port without its oldest `n` messages. -/
def Port.dropHead (p : Port) (n : Nat) : Port :=
  { p with hwPart := p.hwPart.drop n, oq := p.oq.drop (n - p.hwPart.length) }.refill

/-- The port operand of an instruction: the port of the executing firing's actor, when enabled (R323). -/
def State.ownPort (s : State) (p : Nat) : Option Port :=
  if s.cx.pool || s.cx.task then none
  else
    let q := (s.core.actorAt s.cx.act).portAt p
    if portEnabled q.word then some q else none

/-- Change a port of the executing actor. -/
def State.updOwnPort (s : State) (p : Nat) (f : Port → Port) : State :=
  s.updPort (coreOfCtx s.cur) s.cx.act p (fun q => (f q).settled s.mem (coreOfCtx s.cur))

/-- An instruction that names a port faults when it is not enabled or the firing has none (R323). -/
def State.withPort (s : State) (p : Nat) (k : Port → Out) : Out :=
  match s.ownPort p with
  | none => s.faultC .badRegister
  | some q => k q

/-- Word n of a message, zero past its end. -/
def Msg.word (m : Msg) (n : Nat) : Word := m.words.getD n 0

/-- Four doublewords as a vector register, doubleword 0 lowest (R323). -/
def vecOfWords (m : Msg) (first : Nat) : Nat :=
  ((List.range 4).map (fun i => (m.word (first + i)).toNat * 2 ^ (64 * i))).sum

/-- PORT as a message sets it (R161). -/
def portWord (m : Msg) (p : Nat) : Word := BitVec.ofNat 64 (m.rtag * 2 ^ 8 + m.chan * 2 ^ 6 + m.vn * 2 ^ 4 + p)

/-- `peek` (R328). -/
def execPeek (f : FmtCR) (s : State) : Out :=
  s.slotC (.peek f) fun s => s.withPort f.opt.toNat fun q =>
    let i := (s.x f.xa).toNat
    s.result f.xd (match q.head with
      | some m => if i < 8 then m.word i else 0
      | none => 0)

/-- `mcnt` (R328). -/
def execMcnt (f : FmtCR) (s : State) : Out :=
  s.slotC (.mcnt f) fun s => s.withPort f.opt.toNat fun q =>
    s.result f.xd (BitVec.ofNat 64 (q.present + (if portKind q.word = 1 then q.resv.length else 0) * 2 ^ 16 + natOfBool q.spill * 2 ^ 32))

/-- `mdrop` (R328). -/
def execMdrop (f : FmtCR) (s : State) : Out :=
  s.slotC (.mdrop f) fun s => s.withPort f.opt.toNat fun q =>
    let n := min (s.x f.xa).toNat q.present
    (s.updOwnPort f.opt.toNat (fun q => q.dropHead n)).result f.xd (BitVec.ofNat 64 n)

/-- `mtake` (R328): VD and VD + 1 take the words, XS the length, SENDER and PORT the header. -/
def execMtake (f : FmtCR) (s : State) : Out :=
  s.slotC (.mtake f) fun s =>
    let p := f.opt.toNat % 4
    let vd := f.xd.toNat
    s.withPort p fun q => s.withVecs false [] [vd, vd + 1] fun _ =>
      match q.head with
      | none =>
        if f.opt.toNat ≥ 4 then .next ((((s.setVec vd 0).setVec (vd + 1) 0).setX f.xa 0)).fall
        else .next (s.stallOn 0)
      | some m =>
        let s1 := s.updOwnPort p (fun q => q.dropHead 1)
        let s2 := ((s1.setVec vd (vecOfWords m 0)).setVec (vd + 1) (vecOfWords m 4)).setX f.xa (BitVec.ofNat 64 m.words.length)
        .next (s2.upd (fun c => { c with senderLo := m.scapLo, senderHi := m.scapHi, port := portWord m p })).fall

/-! ### Sending (R158, R159, R166, R325, R326) -/

/-- Entries of a send queue by virtual network (R158). -/
def queueSize (vn : Nat) : Nat :=
  match vn with
  | 0 => 32
  | 1 => 16
  | 2 => 8
  | _ => 32

/-- Entries reserved for declared sends (R158). -/
def Core.reserved (k : Core) (vn : Nat) : Nat :=
  match vn with
  | 0 => k.reqRsv
  | 3 => k.bulkRsv
  | _ => 0

def Core.queue (k : Core) (vn : Nat) : List Msg := k.sendq.get [] vn

/-- A send queue has an entry that is neither used nor reserved (R158). -/
def Core.queueRoom (k : Core) (vn : Nat) : Bool := (k.queue vn).length + k.reserved vn < queueSize vn

/-- The reservation that a reply or the bounce of a request names: a bounce has the request's RTAG in its word 1, and none in its header (R156, R166,
R173). -/
def Msg.resTag (m : Msg) : Nat := if m.chan = 3 then bitsOf (m.words.getD 1 0) 31 16 else m.rtag

/-- A message present in a port fills a reservation that lives until it is taken (R166, R328). -/
def Msg.fills (m : Msg) : Bool := m.chan = 2 || (m.chan = 3 && m.ofRequest)

/-- Reply tags of the live reservations of a port: those not yet filled, and those of the replies that are present. -/
def Port.liveTags (q : Port) : List Nat :=
  q.resv ++ (if portKind q.word = 1 then ((q.hwPart ++ q.oq).filter Msg.fills).map Msg.resTag else [])

/-- Reply tags of the live reservations of a core (R166). -/
def Core.liveTags (k : Core) : List Nat := k.actors.flatMap (fun a => a.2.ports.flatMap (fun p => p.2.liveTags))

/-- The lowest reply tag that no live reservation holds. -/
def freeTagGo (live : List Nat) : Nat → Nat → Nat
  | 0, n => n
  | fuel + 1, n => if live.contains n then freeTagGo live fuel (n + 1) else n
def Core.freeTag (k : Core) : Nat := freeTagGo k.liveTags 4096 0

/-- The reply port of the issuing actor: its lowest enabled RSP port (R325). -/
def State.replyPort (s : State) : Option Nat :=
  if s.cx.pool || s.cx.task then none else ((s.core.actorAt s.cx.act).portsOfKind 1).head?

/-- A request can reserve a place in the reply port (R166). -/
def State.replyRoom (s : State) : Option Nat :=
  match s.replyPort with
  | none => none
  | some r =>
    let q := (s.core.actorAt s.cx.act).portAt r
    if q.present + q.resv.length < portDepth q.word + portOqCap q.word && s.core.liveTags.length < 4096 then some r else none

/-- SCAP of a message (R156): the sending actor with the send right; zero for a pool firing or task. -/
def State.senderCap (s : State) (ports : Nat) : Word × Word :=
  if s.cx.pool || s.cx.task then (0, 0)
  else
    let lo := capWithRights (s.selfWord 0) 1 ports
    (lo, s.sealWord lo)

/-- The narrowest scope that holds the agent that a capability names (R208, R218). -/
def State.destScope (s : State) (lo : Word) : Nat :=
  if capDev lo ≠ s.loith.device && capDev lo ≠ 0x3FF then 5
  else match s.capCoreId lo with
    | none => 0
    | some k =>
      if k = coreOfCtx s.cur then 1
      else if tileOfCore k = tileOfCtx s.cur then 2
      else if fieldOfTile (tileOfCore k) = fieldOfCtx s.cur then 3 else 4

/-- A send of the first PROD of a firing on REQ and BULK together (R158, R326). -/
def State.declaredSend (s : State) (vn : Nat) : Bool := (vn = 0 || vn = 3) && s.cx.sends < s.cx.prod

/-- Put a message in its queue; a declared send uses up a reserved entry (R158). -/
def State.enqueue (s : State) (vn : Nat) (declared : Bool) (m : Msg) : State :=
  let s1 := s.updCurCore (fun k => { k with sendq := k.sendq.put vn (k.queue vn ++ [m]) })
  if declared then
    (s1.updCurCore (fun k => if vn = 0 then { k with reqRsv := k.reqRsv - 1 } else { k with bulkRsv := k.bulkRsv - 1 })).upd
      (fun c => { c with sends := c.sends + 1, sendsBulk := c.sendsBulk + (if vn = 3 then 1 else 0) })
  else s1

/-- REQ ports of the issuing actor enter spill mode (R159). -/
def State.spillPorts (s : State) : State :=
  if s.cx.pool || s.cx.task then s
  else ((s.core.actorAt s.cx.act).portsOfKind 0).foldl (fun s p => s.updOwnPort p (fun q => { q with spill := true })) s

/-- The three send forms. -/
inductive SendForm where
  | plain | sys | reply
  deriving DecidableEq, Repr

/-- The virtual network of a send (R325). -/
def sendNet (form : SendForm) (bulk : Bool) : Nat :=
  match form with
  | .plain => if bulk then 3 else 0
  | .sys => 2
  | .reply => 1

/-- The lowest port of a PORTM field. -/
def firstPort (m : Nat) : Nat := if m % 2 = 1 then 0 else if m / 2 % 2 = 1 then 1 else if m / 4 % 2 = 1 then 2 else 3

/-- `check_cap(cap, send, port)` (R169, R326). -/
def State.sendCheck (s : State) (lo hi : Word) (port : Nat) : Option Cause :=
  if !s.capGenuine lo hi then some .capForged
  else if !capHas lo rightSend || capWhole lo || !bitAt (capPorts lo) port then some .capRights
  else none

/-- Classes that software below platform level may not send (R155, R239). -/
def reservedClass (c : Nat) : Bool := c ≥ 0xFF80 || (0xFE00 ≤ c && c ≤ 0xFEFF)

/-- The last part of `send_any` (R326): the queue, the reservation, and the append. A send that stalls or parks leaves `s0`, the
state before the bundle. -/
def State.sendQueue (s0 s : State) (f : FmtCR) (form : SendForm) (vn port rtag : Nat) (lo : Word) (rq : Bool) (words : List Word) : Out :=
  let declared := s.declaredSend vn
  if !declared && !s.core.queueRoom vn then
    match f.opt.toNat % 4 with
    | 0 => .next (s0.stallOn .waitSendq)
    | 1 => s.result f.xd (BitVec.ofNat 64 (2 ^ 63))
    | _ => if s.cx.np then s0.faultC .npState else .next ((s0.upd (fun c => { c with parkVn := vn })).spillPorts.parkFiring .sendqFull)
  else
    let tag := if rq then s.core.freeTag else if form = .reply then rtag else 0
    let r := s.replyPort.getD 0
    let scap := s.senderCap (if rq then 2 ^ r else (s.core.actorAt s.cx.act).portMask)
    let chan := match form with
      | .reply => 2
      | _ => if rq then 1 else 0
    let m : Msg := { words := words, capLo := lo, port := port, scapLo := scap.1, scapHi := scap.2, vn := vn, chan := chan,
                     rtag := tag, tag := s.tag, srcCore := coreOfCtx s.cur, srcAct := some s.agentKey, firing := s.cx.firing, home := s.homeWord,
                     pair := if s.cx.pairCtx.isNone then 0 else if tileX (tileOfCtx s.cur) % 2 = 0 then 1 else 2 }
    let s1 := if rq then s.updOwnPort r (fun q => { q with resv := q.resv ++ [tag] }) else s
    let s2 := s1.enqueue vn declared m
    let s3 := s2.setX f.xd (if rq then BitVec.ofNat 64 tag else 0)
    let s4 := if form = .reply ∧ f.xb = 0 then s3.upd (fun c => { c with port := c.port &&& ~~~(0xC0 : Word) }) else s3
    .next s4.fall

/-- `send_any` (R326). -/
def State.sendAny (s : State) (f : FmtCR) (form : SendForm) : Out :=
  let vm := f.xa.toNat
  s.withVecs false [vm] [] fun v0 =>
    let w0 := (v0.getD 0 0) % 2 ^ 64
    let len := w0 % 8 + 1
    if len > 4 ∧ vm = 15 then s.faultC .badRegister
    else s.withVecs false (if len > 4 then [vm, vm + 1] else [vm]) [] fun vals =>
      let words := (doublewords 4 (vals.getD 0 0) ++ doublewords 4 (vals.getD 1 0)).take len
      let cls := w0 / 2 ^ 48
      let bulk := decide (form = .plain) && bitAt f.opt.toNat 4
      let rq := decide (form = .plain) && bitAt f.opt.toNat 5
      let rel := f.opt.toNat / 64
      let vn := sendNet form bulk
      let (lo, hi) := if form = .reply ∧ f.xb = 0 then (s.cx.senderLo, s.cx.senderHi) else s.pairAt f.xb
      let pw := if f.xb = 0 then s.cx.port else s.x f.xd
      let port := if form = .reply then firstPort (capPorts lo) else bitsAt f.opt.toNat 3 2
      if s.level < 2 ∧ reservedClass cls then s.faultC .msgClass 0 w0
      else if form = .reply ∧ lo = 0 ∧ hi = 0 then s.faultC .senderNone
      else if form = .reply ∧ bitsOf pw 7 6 ≠ 1 then s.faultC .replyBad 0 lo.toNat
      else match s.sendCheck lo hi port with
        | some c => s.faultC c 0 lo.toNat
        | none =>
          if rq ∧ s.replyRoom.isNone then s.faultC .replyNoslot 0 lo.toNat
          else
            let go := fun (s' : State) => s.sendQueue (s'.popStreams (if len > 4 then [vm, vm + 1] else [vm])) f form vn port (bitsOf pw 23 8) lo rq words
            if rel = 0 then go s else s.releaseThen (rel - 1) (s.destScope lo) .waitFence go

/-- `send` (R325, R326). -/
def execSend (f : FmtCR) (s : State) : Out := s.slotC (.send f) fun s => s.sendAny f .plain
/-- `sendr` (R325, R326). -/
def execSendr (f : FmtCR) (s : State) : Out := s.slotC (.sendr f) fun s => s.sendAny f .reply
/-- `send.sys` (R325, R326). -/
def execSendSys (f : FmtCR) (s : State) : Out := s.slotC (.sendSys f) fun s => s.sendAny f .sys

end Sys2Proof.Machine
end

