-- ==== Sys2Proof/Machine/Header.lean ====
section
/-! DEFINITION. Launch headers and launch-queue entries: R127 to R133, R135 to R138, R146, R147. -/

namespace Sys2Proof.Machine

/-! ### The header (R127) -/

/-- A launch header: its eight doublewords. -/
abbrev Header := List Word

def Header.w (h : Header) (i : Nat) : Word := h.getD i 0
def Header.codelo (h : Header) : Nat := bitsOf (h.w 0) 59 3 * 8
def Header.owner (h : Header) : Nat := bitsOf (h.w 1) 63 56
def Header.chunk (h : Header) : Nat := bitsOf (h.w 1) 55 48 + 1
def Header.codelen (h : Header) : Nat := bitsOf (h.w 1) 47 24
def Header.entry (h : Header) : Nat := bitsOf (h.w 1) 23 0
def Header.cport (h : Header) : Nat := bitsOf (h.w 2) 56 55
def Header.cen (h : Header) : Bool := bitAt (h.w 2).toNat 54
def Header.pair (h : Header) : Bool := bitAt (h.w 2).toNat 53
def Header.dbl (h : Header) : Bool := bitAt (h.w 2).toNat 52
def Header.cls (h : Header) : Nat := bitsOf (h.w 2) 51 50
def Header.kind (h : Header) : Nat := bitsOf (h.w 2) 49 48
def Header.mode (h : Header) : Nat := bitsOf (h.w 2) 47 46
def Header.fpls (h : Header) : Nat := bitsOf (h.w 2) 45 36 * 4096
def Header.widf (h : Header) : Nat := bitsOf (h.w 2) 35 0

/-- The width, first bit and extent of a level (R128). Bits of EXTM1 above the widths are ignored (R130; DESIGN CHOICE; log 139). -/
def Header.width (h : Header) (k : Nat) : Nat := bitsAt h.widf (6 * k + 5) (6 * k)
def Header.pos (h : Header) (k : Nat) : Nat := ((List.range k).map h.width).sum
def Header.extent (h : Header) (k : Nat) : Nat := (h.w 3).toNat / 2 ^ h.pos k % 2 ^ h.width k + 1

/-- The items of the launch (R128). -/
def Header.items (h : Header) : Nat := ((List.range 6).map h.extent).prod

/-- `wid_of(n)` (R129). -/
def Header.widOf (h : Header) (n : Nat) : Nat :=
  ((List.range 6).foldl (fun (p : Nat × Nat) k => (p.1 + p.2 % h.extent k * 2 ^ h.pos k, p.2 / h.extent k)) (0, n)).1

/-- A footprint region: its first byte, length in bytes, PIN (R138). -/
structure FootRegion where
  va : Nat
  len : Nat
  pin : Bool
  deriving DecidableEq, Repr

def Header.region (h : Header) (i : Nat) : FootRegion :=
  let w := h.w (4 + i)
  { va := bitsOf w 51 0 * 256, len := bitsOf w 62 53 * 4096, pin := bitAt w.toNat 63 }

/-- The local-store offset at which a region is placed (R138). -/
def Header.regionAt (h : Header) (i : Nat) : Nat := h.fpls + ((List.range i).map (fun k => (h.region k).len)).sum

/-- The cells of a launch in grid mode (R137). -/
def Header.cells (h : Header) : Nat := h.extent 3 * h.extent 4 * h.extent 5

/-- The sub-tile size of dimension d and the cells of it that are not empty (R137). -/
def Header.subSize (h : Header) (d : Nat) : Nat := (h.extent d + h.extent (3 + d) - 1) / h.extent (3 + d)
def Header.liveCells (h : Header) : Nat :=
  ((List.range 3).map (fun d => min (h.extent (3 + d)) ((h.extent d + h.subSize d - 1) / h.subSize d))).prod

/-- Cell index d of cell number c (R137). -/
def Header.cellIndex (h : Header) (c d : Nat) : Nat :=
  match d with
  | 0 => c % h.extent 3
  | 1 => c / h.extent 3 % h.extent 4
  | _ => c / (h.extent 3 * h.extent 4)
/-- ORG and SUB of a cell (R137). -/
def Header.org (h : Header) (c d : Nat) : Nat := h.cellIndex c d * h.subSize d
def Header.sub (h : Header) (c d : Nat) : Nat := min (h.subSize d) (h.extent d - h.org c d)
def Header.cellLive (h : Header) (c : Nat) : Bool := (List.range 3).all (fun d => h.sub c d ≠ 0)

/-- The WID of item n: in grid mode, of cell n (R129, R137). -/
def Header.itemWid (h : Header) (n : Nat) : Nat :=
  if h.mode = 1 then ((List.range 3).map (fun d => h.cellIndex n d * 2 ^ h.pos (3 + d))).sum else h.widOf n

/-- A malformed header (R130). An ENTRY that is not a multiple of 8 breaks R127 and counts as malformed (log 20). -/
def Header.malformed (h : Header) : Bool :=
  bitsOf (h.w 0) 63 60 ≠ 0 || bitsOf (h.w 0) 2 0 ≠ 0 || bitsOf (h.w 2) 63 57 ≠ 0 || (List.range 4).any (fun i => bitAt (h.w (4 + i)).toNat 52) ||
    h.mode ≥ 2 || h.pos 6 > 64 || h.items > 2 ^ 48 || h.codelen = 0 || h.codelen % 8 ≠ 0 || h.entry ≥ h.codelen || h.entry % 8 ≠ 0 ||
    h.codelo + h.codelen > 2 ^ 60 || h.regionAt 4 > 0x300000 || (List.range 4).any (fun i => (h.region i).len ≠ 0 && (h.region i).va + (h.region i).len > 2 ^ 60) ||
    (h.mode = 1 && h.cells > 65536)

/-! ### What may run a launch (R33, R131) -/

/-- The pair of a tile for doubles: its leader (R46). -/
def leaderOf (t : Nat) : Nat := tileAt (tileX t / 2 * 2) (tileY t)

/-- A tile may take items of a launch (R33, R46, R131): its issue core and engine work, its feed core too with PAIR = 1; for DBL
it leads a pair of which no unit is dark, retired or untested. -/
def State.tileMayRun (s : State) (h : Header) (t : Nat) : Bool :=
  let ok := fun u => s.tileStatus u ≤ 1 && s.unitWorks u 1 && s.unitWorks u 2 && (!h.pair || s.unitWorks u 0)
  tileKind t = h.kind && ok t && (!h.dbl || (t = leaderOf t && ok (t + 1)))

/-- The tiles of a field mask that may run a launch, by field and local index (R131, R137). -/
def State.runTiles (s : State) (h : Header) (mask : List Nat) : List Nat :=
  mask.flatMap (fun f => ((List.range 120).map (tileOfLocal f)).filter (s.tileMayRun h))

/-! ### Entries of the launch queue (R132, R133, R135) -/

def launchField (id : Nat) : Nat := bitsAt id 53 47
def launchPlace (id : Nat) : Nat := bitsAt id 46 41

/-- The entry of a launch identifier in a launch queue. -/
def launchIn (m : KMap Launch) (id : Nat) : Option Launch := (m.find? (launchPlace id)).filter (fun e => e.id = id)

/-- The entry of a launch identifier, while its launch is queued: in its home field's hub, or in the field image of a member that is switched out
there (R95, R148). -/
def State.launchOf (s : State) (id : Nat) : Option Launch :=
  let h := s.hubOf (launchField id)
  match launchIn h.launches id with
  | some e => some e
  | none => h.saved.findSome? (fun p => launchIn p.2.launches id)

/-- The queue of a hub, or that of a saved image, with the entry of a launch changed or freed. -/
def Hub.mapLaunch (h : Hub) (id : Nat) (g : Launch → Option Launch) : Hub :=
  let upd : KMap Launch → KMap Launch := fun m => m.filterMap (fun e => if e.1 = launchPlace id ∧ e.2.id = id then (g e.2).map (fun x => (e.1, x)) else some e)
  if (launchIn h.launches id).isSome then { h with launches := upd h.launches }
  else { h with saved := h.saved.map (fun p => (p.1, { p.2 with launches := upd p.2.launches })) }

/-- Change an entry. -/
def State.updLaunch (s : State) (id : Nat) (g : Launch → Launch) : State :=
  match s.launchOf id with
  | none => s
  | some _ => s.updHub (launchField id) (fun h => h.mapLaunch id (fun e => some (g e)))

/-- Free an entry, and the footprint areas that its launch holds pinned (R133, R139). -/
def State.freeLaunch (s : State) (id : Nat) : State :=
  let s1 := s.updHub (launchField id) (fun h => h.mapLaunch id (fun _ => none))
  { s1 with tiles := s1.tiles.map (fun e => (e.1, { e.2 with foot := e.2.foot.filter (fun r => r.1 ≠ id) })) }

/-- The place that a launch of depth d takes: shared if one is free, else one reserved for its depth; none when full (R133). -/
def Hub.launchRoom (h : Hub) (d : Nat) : Option Bool :=
  if (h.launches.filter (fun e => e.2.shared)).length < 48 then some true
  else if (h.launches.filter (fun e => !e.2.shared && e.2.depth = d)).length < 4 then some false
  else none

/-- The item ranges of the member fields in ticket mode (R136). -/
def ticketRanges (mask : List Nat) (n : Nat) : List (Nat × Nat × Nat) :=
  let m := mask.length
  (List.range m).map (fun k => (mask.getD k 0, k * n / m, (k + 1) * n / m))

/-- Who issued a launch: the host's session, or a firing. -/
structure Issuer where
  host : Bool := false
  session : Nat := 0
  core : Nat := 0
  act : Option Nat := none
  lo : Word := 0
  hi : Word := 0
  deriving DecidableEq, Repr

/-- Accept a launch in home field f (R132, R135 to R137): the identifier and the state with the entry. A launch that no core may
run is complete at once (R131). -/
def State.acceptLaunch (s : State) (f : Nat) (h : Header) (mask : List Nat) (depth level : Nat) (by_ : Issuer) (shared : Bool) : Nat × State :=
  let hub := s.hubOf f
  let place := lowestFree hub.launches 64 0
  let id := s.loith.device * 2 ^ 54 + f * 2 ^ 47 + place * 2 ^ 41 + hub.lseq % 2 ^ 41
  let tiles := s.runTiles h mask
  let runs := !tiles.isEmpty
  let n := if h.mode = 1 then h.liveCells else h.items
  let e : Launch :=
    { id := id, depth := depth, shared := shared, header := h, tag := h.owner, level := level, mask := mask, runners := tiles, followers := if h.dbl then tiles.map (· + 1) else [],
      ranges := if h.mode = 1 then [] else ticketRanges mask h.items,
      open_ := if runs then n else 0, oks := if runs && h.mode = 1 then h.cells - h.liveCells else 0,
      failures := if runs then 0 else min (2 ^ 48 - 1) h.items, launchCause := if runs then 0 else Cause.destDark,
      host := by_.host, session := by_.session, parentCore := by_.core, parentAct := by_.act, parentLo := by_.lo, parentHi := by_.hi,
      accepted := s.rtime }
  (id, s.updHub f (fun k => { k with launches := k.launches.put place e, lseq := k.lseq + 1 }))

/-! ### The end of an item (R146, R147) -/

/-- A message of the launch to its parent, if there is to be one: to port CPORT of the launching actor, or to the supervisor's fault
port when a pool firing or task launched it (R147). A completion that the platform takes is delivered at once. -/
def State.tellParent (s : State) (e : Launch) (cls : Nat) (words : List Word) : State :=
  let h : Header := e.header
  if e.host || !h.cen then s
  else if e.parentAct.isSome then s.postHw (launchField e.id) (hwMessage cls e.parentLo h.cport e.tag words)
  else match s.supervisorCap e.tag with
    | some lo => s.postHw (launchField e.id) (hwMessage cls lo 4 e.tag words)
    | none =>
      let s1 := (s.toFirmware (hwMessage cls 0 4 e.tag words)).report (launchField e.id) .noSupervisor e.tag []
      if cls = 0xFF85 then s1.freeLaunch e.id else s1

/-- Firings that an item has (R135, R144). -/
def Header.firings (h : Header) : Nat := (if h.pair then 2 else 1) * (if h.dbl then 2 else 1)

/-- An item or task of a launch ends, OK or FAILED with a cause (R146, R147). -/
def State.endItem (s : State) (id wid : Nat) (fail : Option Nat) : State :=
  match s.launchOf id with
  | none => s
  | some e =>
    let s1 := s.updLaunch id (fun e => { e with
      open_ := e.open_ - 1, ended := e.ended + 1, failures := e.failures + (if fail.isNone then 0 else 1),
      oks := e.oks + (if fail.isNone then 1 else 0), records := e.records ++ (fail.map (fun c => (wid, c))).toList })
    match fail with
    | none => s1
    | some cause => s1.tellParent e 0xFF84 [BitVec.ofNat 64 id, BitVec.ofNat 64 wid, BitVec.ofNat 64 (cause * 2 ^ 56), s.rtimeWord]

/-- One firing of a pool item ends: the item ends with its last firing, and fails if any of them failed. -/
def State.endHalf (s : State) (id item wid : Nat) (fail : Option Nat) : State :=
  match s.launchOf id with
  | none => s
  | some e =>
    let others := e.halves.filter (fun p => p.1 = item)
    if others.length + 1 < Header.firings e.header then s.updLaunch id (fun e => { e with halves := e.halves ++ [(item, fail)] })
    else
      let first := others.findSome? (fun p => p.2)
      (s.updLaunch id (fun e => { e with halves := e.halves.filter (fun p => p.1 ≠ item) })).endItem id wid (first.or fail)

/-- The items of a launch that no core has taken (R136, R137, R145). -/
def Launch.untaken (e : Launch) : List Nat :=
  let h : Header := e.header
  let n := e.runners.length
  (e.requeue.filter (fun r => !r.taken)).map (fun r => r.item) ++
    (if h.mode = 1 then (List.range h.cells).filter (fun c => h.cellLive c && n ≠ 0 && e.cells.get (c % n) (c % n) ≤ c)
     else e.ranges.flatMap (fun r => (List.range (r.2.2 - r.2.1)).map (r.2.1 + ·)))

/-- The items of a launch that no core has taken end FAILED with a cause. -/
def State.failLaunch (s : State) (id cause : Nat) : State :=
  match s.launchOf id with
  | none => s
  | some e =>
    let h : Header := e.header
    e.untaken.foldl (fun s n => s.endItem id (h.itemWid n) (some cause)) (s.updLaunch id (fun e => { e with
      ranges := [], requeue := e.requeue.filter (fun r => r.taken), cells := (List.range e.runners.length).map (fun i => (i, h.cells + i)) }))

end Sys2Proof.Machine
end

