-- ==== Sys2Proof/Machine/System.lean ====
section
/-! DEFINITION. Traps, line maintenance, the LUT4 table and long-vector mode: R200, R201, R341 to R344. -/

namespace Sys2Proof.Machine

/-- `trap`: the context freezes with `TRAP`, the immediate as syndrome (R341). -/
def execTrap (f : FmtCU) (s : State) : Out := s.slotC (.trap f) fun s => s.faultC .trap 0 f.imm.toNat

/-- `brk`: the context freezes with `BREAKPOINT` (R341). -/
def execBrk (f : FmtCU) (s : State) : Out := s.slotC (.brk f) fun s => s.faultC .breakpoint 0 f.imm.toNat

/-- The translation of line maintenance: read, or fetch where the page lacks RD and carries X (R342). -/
def State.translateLine (s : State) (va : Nat) : Tr :=
  match s.translate (coreOfCtx s.cur) s.tag va .read with
  | .bad c lvl =>
    if c = .permR then
      match s.translate (coreOfCtx s.cur) s.tag va .fetch with
      | .ok g e => .ok g e
      | _ => .bad c lvl
    else .bad c lvl
  | r => r

/-- Line maintenance on the line that holds u(a) (R342). -/
def State.lineOp (s : State) (va : Nat) (k : Nat → Pte → State → Out) : Out :=
  match s.translateLine va with
  | .bad c lvl => s.faultC c va (accSyndrome c .read 128 lvl)
  | .wait => .next (s.stallOn 0)
  | .ok g e => k g e s

/-- A line is no longer dirty at its home. -/
def State.cleanLine (s : State) (l : Nat) : State :=
  let s1 := match s.dirty.contains l, s.homeOf (lineGpa l) with
    | true, .tile t => s.countSlice t (s.lineTag l) 0x23 1
    | _, _ => s
  { s1 with dirty := s1.dirty.filter (· ≠ l) }

/-- `cln`: a dirty line of a cached page is written back and kept (R342); a page on another device is not cached here (R117). -/
def execCln (f : FmtCR) (s : State) : Out :=
  s.slotC (.cln f) fun s => s.lineOp (s.x f.xa).toNat fun g e s =>
    .next (if e.kind = 0 && s.gpaLocal g then s.cleanLine (lineOf (gpaKey g)) else s).fall

/-- An address lies in an active loop body of a context. -/
def Ctx.inBody (c : Ctx) (va : Nat) : Bool :=
  (List.range 3).any (fun d => lcActive (c.lcAt d) && c.bodyFirst d ≤ va && va < c.bodyLast d + 8)

/-- Some bundle of the line at `va` lies in an active loop body of a context. -/
def Ctx.lineInBody (c : Ctx) (va : Nat) : Bool := (List.range 16).any (fun i => c.inBody (va / 128 * 128 + 8 * i))

/-- The loop buffer keeps a line that a context has in an active body (R195). -/
def Ctx.keepLine (c : Ctx) (l va : Nat) (bytes : List Byte) : Ctx :=
  if c.lineInBody va && !c.loopBuf.any (fun e => e.1 = l) then { c with loopBuf := c.loopBuf ++ [(l, va / 128 * 128, bytes)] } else c

/-- The lines that the loop buffer still keeps: those of bodies that are active (R195). -/
def Ctx.loopLines (c : Ctx) : List (Nat × Nat × List Byte) := c.loopBuf.filter (fun e => c.lineInBody e.2.1)

/-- Drop a line from the issuing core's instruction fetch buffer (R342); the loop buffer keeps the bundles of an active body (R195). -/
def State.dropFetchLine (s : State) (l va : Nat) : State :=
  let s1 := match s.core.ibuf.find? l with
    | some bytes => { s with ctxs := s.ctxs.map (fun (e : Nat × Ctx) => (e.1, if coreOfCtx e.1 = coreOfCtx s.cur && e.2.occ then e.2.keepLine l va bytes else e.2)) }
    | none => s
  s1.updCurCore (fun k => { k with ibuf := k.ibuf.drop l })

/-- `inv` and `inv.h` (R342): `.h` also writes the line back and evicts it, unless it has a sync record. -/
def execInv (f : FmtCR) (s : State) : Out :=
  s.slotC (.inv f) fun s => s.lineOp (s.x f.xa).toNat fun g _ s =>
    let l := lineOf (gpaKey g)
    let s1 := s.dropFetchLine (s.fetchKey g) (s.x f.xa).toNat
    if f.opt = 1 ∧ s.gpaLocal g then
      let s2 := s1.cleanLine l
      .next (if s.syncs.any (fun r => r.line = l) then s2 else { s2 with cached := s2.cached.drop l }).fall
    else .next s1.fall

/-- `lut.ld`: 16 bytes into LUTLO and LUTHI (R343). -/
def execLutLd (f : FmtCR) (s : State) : Out :=
  s.slotC (.lutLd f) fun s =>
    s.loadBytes (s.x f.xa).toNat 16 16 true .load fun v =>
      .next (s.updCurCore (fun k => { k with lutlo := BitVec.ofNat 64 v, luthi := BitVec.ofNat 64 (v / 2 ^ 64) })).fall

/-- A stream is bound by the issuing firing. -/
def State.hasStream (s : State) : Bool := s.core.streams.any (fun e => e.2.bound && e.2.firing = s.cx.firing)

/-- `mode.l` (R200, R201, R344). -/
def execModeL (s : State) : Out :=
  s.slotC .modeL fun s =>
    match s.engineRole 3 15 with
    | some c => s.faultC c
    | none =>
      if s.hasStream then s.faultC .streamBusy
      else if s.cx.long then .next s.fall
      else match s.eng.lown with
        | some n =>
          if n ≠ s.cx.firing then .next (s.stallOn .waitLong)
          else .next (s.upd (fun c => { c with long := true })).fall
        | none =>
          .next ((s.updEng (fun e => { e with lown := some s.cx.firing, lctx := s.cur % 8, mem := e.mem.filter (fun w => w.1 ≥ 1024) })).upd
            (fun c => { c with long := true })).fall

/-- The long-vector unit is freed if a firing owns it (R201). -/
def State.freeLong (s : State) (tile firing : Nat) : State :=
  s.updTile tile (fun t => { t with eng := if t.eng.lown = some firing then { t.eng with lown := none, lctx := 0 } else t.eng })

/-- `mode.s` never faults (R200, R201). -/
def execModeS (s : State) : Out :=
  s.slotC .modeS fun s =>
    if s.cx.long then .next ((s.freeLong (tileOfCtx s.cur) s.cx.firing).upd (fun c => { c with long := false })).fall
    else .next s.fall

end Sys2Proof.Machine
end

