-- ==== Sys2Proof/Machine/Firing.lean ====
section
/-! DEFINITION. The end of a firing and the instructions that end, park or bracket one: `done`, `park`, `np.on`, `np.off`: R139,
R146, R158, R159, R162, R163, R190, R197, R201, R202, R212, R241, R309 to R311. -/

namespace Sys2Proof.Machine

/-- A firing has output-stream entries that are not yet stored (R191). -/
def Core.outputsOf (k : Core) (n : Nat) : Bool := k.streams.any (fun e => e.2.bound && e.2.firing = n && e.2.output && !e.2.fifo.isEmpty)

/-- What a core gives back when a firing of it ends: its streams, and the reservations of declared sends not made (R158, R190). -/
def Core.endOf (k : Core) (c : Ctx) : Core :=
  { k with
    streams := k.streams.map (fun e => (e.1, if e.2.bound && e.2.firing = c.firing then {} else e.2)),
    reqRsv := k.reqRsv - (c.prod - (c.sends - c.sendsBulk)), bulkRsv := k.bulkRsv - (c.prod - c.sendsBulk) }

/-- The actor of an ended firing: Idle, its REQ ports out of spill mode (R159, R163). -/
def Actor.endOf (a : Actor) : Actor :=
  { a with busy := false, readyAt := none,
           ports := a.ports.map (fun e => (e.1, if portKind e.2.word = 0 then Port.refill { e.2 with spill := false } else e.2)) }

/-- The words of what an ended firing's ports took from their overflow queues, as local store holds them (R153). -/
def Actor.settled (a : Actor) (mem : Memory) (k : Nat) : Actor := { a with ports := a.ports.map (fun e => (e.1, e.2.settled mem k)) }

/-- A context slot after its firing ended: free, with the loop counters, the section and long mode cleared (R197, R201, R202). -/
def Ctx.endOf (c : Ctx) : Ctx :=
  { c with occ := false, lc := [], np := false, long := false, st := 0, reason := 0, pool := false, task := false, launch := none,
           feedPair := false, firing := 0, wakeBit := false, sends := 0, sendsBulk := 0, prod := 0, hold := none, reply := none,
           refusedArr := false, stall := none, reported := false, stepping := false, pairCtx := none, pairFiring := none, pairReads := [], opOrd := 0, loopBuf := [], preempt := 0, killed := 0, aDone := false }

/-- Footprint areas that a launch holds on a tile without PIN are released when its last firing there retires (R139). -/
def State.releaseFoot (s : State) (tile id : Nat) : State :=
  let running := (s.ctxs.any (fun e => tileOfCtx e.1 = tile && e.2.occ && e.2.launch = some id)) ||
    [2 * tile, 2 * tile + 1].any (fun k => (s.coreOf k).parked.any (fun e => e.2.launch = some id))
  if running then s else s.updTile tile (fun t => { t with foot := t.foot.filter (fun r => r.1 ≠ id || r.2.2.2.2) })

/-- A firing that ends no longer waits in `launch.w` (R133). -/
def State.leaveWaiters (s : State) (f n : Nat) : State :=
  if (s.hubOf f).lwaiters.contains n then s.updHub f (fun h => { h with lwaiters := h.lwaiters.filter (· ≠ n) }) else s

/-- What ends with the firing of context data `c` at core `core`, wherever that data is held: all but the slot (R243, R309). -/
def State.endCommon (s : State) (core : Nat) (c : Ctx) : State :=
  let s1 := ((s.updCore core (fun k => k.endOf c)).freeLong (tileOfCore core) c.firing).leaveWaiters (fieldOfTile (tileOfCore core)) c.firing
  let s2 := { s1 with dbgs := s1.dbgs.map (fun e => (e.1, if e.2.att.any (fun a => a.2 = c.firing) then { e.2 with att := none, halt := false } else e.2)) }
  if c.pool || c.task then s2 else s2.updActor core c.act (fun a => a.endOf.settled s.mem core)

/-- The firing of a slot ends; its item or task ends OK, or FAILED with a cause (R146, R309). -/
def State.endFiring (s : State) (i : Nat) (fail : Option Nat) : State :=
  let c := s.ctxOf i
  let s1 := (s.endCommon (coreOfCtx i) c).updCtx i Ctx.endOf
  match c.launch with
  | none => s1
  | some id =>
    let s2 := s1.releaseFoot (tileOfCtx i) id
    if c.task then s2.endItem id c.wid.toNat fail else s2.endHalf id c.item c.wid.toNat fail

/-- The firing of a park-area entry ends (R183, R243). -/
def State.endParked (s : State) (core key : Nat) (fail : Option Nat) : State :=
  let c := (s.coreOf core).parked.get {} key
  let s1 := (s.endCommon core c).updCore core (fun k => { k with parked := k.parked.drop key })
  match c.launch with
  | none => s1
  | some id =>
    let s2 := s1.releaseFoot (tileOfCore core) id
    if c.task then s2.endItem id c.wid.toNat fail else s2.endHalf id c.item c.wid.toNat fail

/-- Output streams of the issuing firing hold entries not yet stored (R190, R191). -/
def State.outputLeft (s : State) : Bool := s.core.outputsOf s.cx.firing

/-- `done` (R212, R309). -/
def execDone (s : State) : Out :=
  s.slotC .done fun s =>
    if !s.cx.unackClear 5 || s.outputLeft then .next (s.stallOn .waitFence)
    else if s.cx.fstat ≠ 0 then s.faultC .storeFailed 0 s.cx.fstat
    else .next ((s.updCurCore (fun k => { k with retired := s.rtime, hung := false })).endFiring s.cur none)

/-- `park` (R310). -/
def execPark (s : State) : Out :=
  s.slotC .park fun s =>
    if s.cx.np then s.faultC .npState
    else if s.cx.wakeBit then .next (s.upd (fun c => { c with wakeBit := false })).fall
    else .next (s.fall.parkFiring .parkExplicit)

/-- `np.on` (R202). -/
def execNpOn (s : State) : Out :=
  s.slotC .npOn fun s =>
    if s.cx.np then s.faultC .npState
    else .next (s.upd (fun c => { c with np := true, npstart := s.cyc })).fall

/-- `np.off` (R202, R311). -/
def execNpOff (s : State) : Out :=
  s.slotC .npOff fun s =>
    if s.cx.np then .next (s.upd (fun c => { c with np := false })).fall else s.faultC .npState

end Sys2Proof.Machine
end

