-- ==== Sys2Proof/Machine/Actor.lean ====
section
/-! DEFINITION. Actors, tasks and launches made by instructions: `act.new`, `act.del`, `spawn`, `launch`, and the bounce of a message:
R98, R131, R133, R143, R149 to R153, R163, R172, R173, R331 to R333, R405. -/

namespace Sys2Proof.Machine

/-! ### Bounces (R167, R173) -/

/-- The words of a bounce of a message, or of `count` of them summarised (R173). -/
def bounceWords (m : Msg) (cause count : Nat) (sum : Bool) (rtime : Nat) : List Word :=
  [BitVec.ofNat 64 (0xFF8C * 2 ^ 48 + 6),
   BitVec.ofNat 64 (cause * 2 ^ 56 + natOfBool sum * 2 ^ 55 + m.vn * 2 ^ 53 + m.port % 4 * 2 ^ 51 + (m.words.length - 1) % 8 * 2 ^ 48 +
     count * 2 ^ 32 + m.rtag * 2 ^ 16),
   m.capLo, m.words.getD 0 0, m.words.getD 1 0, BitVec.ofNat 64 m.itime, BitVec.ofNat 64 rtime]

/-- The core where the sender of a message is now: its logical tile may have moved since. While that tile migrates its old core is meant, whose stub sends on (R173, R175). -/
def State.senderCore (s : State) (m : Msg) : Nat :=
  if m.home = 0 then m.srcCore
  else match s.migrations.find? (fun g => 3 ≤ g.step && g.tag = capOwner m.home && g.lkind = capKind m.home && g.lidx = capIdx m.home) with
    | some g => 2 * g.oldTile + capCore m.home
    | none => (s.capCoreId m.home).getD m.srcCore

/-- A bounce that arises at a core sets out from its tile (R173). A reply or bounce that cannot go on is discarded, and counted at the core that sent it
(R167). Hardware messages have no sending core and do not bounce (R165); the bounce of a message from another device leaves for that device. -/
def State.bounceAt (s : State) (m : Msg) (cause core : Nat) : State :=
  if m.hw || m.srcCore ≥ 21600 then s
  else if m.vn = 1 then s.updCore m.srcCore (fun k => { k with rsplost := (k.rsplost + 1) % 65536 })
  else
    let k := s.senderCore m
    let b : Msg := { words := bounceWords m cause 1 false s.rtime, vn := 1, chan := 3, tag := m.tag, capLo := m.capLo,
                     core := k, srcCore := core, srcAct := m.srcAct, port := firstPort (capPorts m.scapLo), ofRequest := m.chan = 1, home := m.home,
                     router := if k = core then none else some (tileOfCore core), gen := s.loith.flips }
    ({ s with flying := s.flying ++ [b] } : State).countFabric (fieldOfTile (tileOfCore core)) 0x45 1

/-! ### Where a capability leads (R98, R171, R172) -/

/-- The core that a capability names, why it cannot be reached, a wait, or another device. -/
inductive Dest where
  | core (k : Nat)
  | other (dev : Nat)
  | refused (cause : Cause)
  | wait
  deriving DecidableEq, Repr

/-- A unit that no packet is sent to (R33, R38). -/
def State.coreDark (s : State) (k : Nat) : Bool :=
  s.unitStatus (tileOfCore k) (k % 2) = 2 || s.unitStatus (tileOfCore k) (k % 2) = 3 || s.tileDark (tileOfCore k)

/-- A tag is that of a member of a field's sharing group (R98). -/
def State.inGroup (s : State) (f tag : Nat) : Bool := (s.hubOf f).group.any (fun p => (s.partOf p).tag = tag)

/-- The first two checks of R172 for a capability, with the hold of its binding (R171). -/
def State.destOf (s : State) (lo : Word) : Dest :=
  if capDev lo ≠ s.loith.device then .other (capDev lo)
  else
    let e := s.cttEntry (capOwner lo) (capKind lo) (capIdx lo)
    match s.capCoreId lo with
    | none => .refused .destDark
    | some k =>
      if cttHold e then .wait
      else if s.coreDark k then .refused .destDark
      else
        let f := fieldOfTile (tileOfCore k)
        if (s.hubOf f).runTag = capOwner lo then .core k else if s.inGroup f (capOwner lo) then .wait else .refused .destOwner

/-! ### Registration (R150 to R153) -/

/-- The fields of an actor descriptor (R150). -/
def descV (d : List Word) : Bool := bitAt (d.getD 0 0).toNat 63
def descSup (d : List Word) : Bool := bitAt (d.getD 0 0).toNat 62
def descClass (d : List Word) : Nat := bitsOf (d.getD 0 0) 61 60
def descCodelo (d : List Word) : Nat := bitsOf (d.getD 0 0) 59 3 * 8
def descOwner (d : List Word) : Nat := bitsOf (d.getD 1 0) 63 56
def descProd (d : List Word) : Nat := bitsOf (d.getD 1 0) 55 52
def descClaim (d : List Word) : Nat := bitsOf (d.getD 1 0) 51 48
def descCodelen (d : List Word) : Nat := bitsOf (d.getD 1 0) 47 24
def descStbase (d : List Word) : Nat := bitsOf (d.getD 2 0) 59 3 * 8
def descPort (d : List Word) (p : Nat) : Word := d.getD (4 + p) 0

/-- Words 0 to 2 by themselves malformed (R150, R152). -/
def descBad (d : List Word) : Bool :=
  !descV d || bitsOf (d.getD 0 0) 2 0 ≠ 0 || bitsOf (d.getD 1 0) 23 0 ≠ 0 || bitsOf (d.getD 2 0) 63 60 ≠ 0 || bitsOf (d.getD 2 0) 2 0 ≠ 0 ||
    descCodelen d = 0 || descCodelen d % 8 ≠ 0 || descCodelo d + descCodelen d > 2 ^ 48

/-- The bytes of hardware buffer that a port takes (R153). -/
def portBytes (w : Word) : Nat := if portEnabled w then portDepth w * (portSize w + 1) * 8 else 0

/-- Two ranges of bytes overlap. -/
def overlaps (a n b m : Nat) : Bool := n ≠ 0 && m ≠ 0 && a < b + m && b < a + n

/-- An enabled port that R152 refuses by itself: its handler, its size class, the place of its overflow queue. -/
def portBad (codelen base : Nat) (w : Word) : Bool :=
  portEnabled w && (portHoff w * 8 ≥ codelen || (portKind w = 2 && portSize w < 7) || (portKind w = 1 && portSize w < 6) ||
    portOqBase w + 64 * portOqCap w > 0x300000 || overlaps (portOqBase w) (64 * portOqCap w) base 4096)

/-- The overflow queues of a core's valid actors: base and length. -/
def Core.overflowQueues (k : Core) : List (Nat × Nat) :=
  k.actors.flatMap (fun a => if a.2.valid then
    a.2.ports.filterMap (fun p => if portEnabled p.2.word then some (portOqBase p.2.word, 64 * portOqCap p.2.word) else none) else [])

/-- Some two of the queues overlap. -/
def anyOverlap : List (Nat × Nat) → Bool
  | [] => false
  | q :: qs => qs.any (fun r => overlaps q.1 q.2 r.1 r.2) || anyOverlap qs

/-- R152 and R153 refuse a descriptor at a core. Platform level registers the actors of a partition under the partition's tag, as R84 has it do (log 60). -/
def State.descRefused (s : State) (core : Nat) (d : List Word) (tag level : Nat) : Bool :=
  let k := s.coreOf core
  let t := tileOfCore core
  let ports := (List.range 4).map (descPort d)
  let mine := ports.filterMap (fun w => if portEnabled w then some (portOqBase w, 64 * portOqCap w) else none)
  let theirs := (s.coreOf (2 * t)).overflowQueues ++ (s.coreOf (2 * t + 1)).overflowQueues
  let claims := [2 * t, 2 * t + 1].flatMap (fun c => (s.coreOf c).actors.filterMap (fun a => if a.2.valid then some a.2.claim else none))
  let used := (k.actors.map (fun a => if a.2.valid then ((a.2.ports.map (fun p => portBytes p.2.word)).sum) else 0)).sum
  descBad d || ports.any (portBad (descCodelen d) k.actBase) || anyOverlap mine ||
    mine.any (fun q => theirs.any (fun r => overlaps q.1 q.2 r.1 r.2)) || (descOwner d ≠ tag && level < 2) || (descSup d && level < 1) ||
    (descClaim d ≠ 0 && (!isIssueCore core || (ports.all (fun w => !(portEnabled w && portKind w = 2))) ||
      claims.any (fun c => if tileKind t = 0 then (c &&& descClaim d) ≠ 0 else c ≠ 0))) ||
    used + (ports.map portBytes).sum > 8192

/-- The lowest actor index of a core that is not valid (R331). -/
def Core.freeActor (k : Core) : Nat := ((List.range 64).find? (fun a => !(k.actorAt a).valid)).getD 64

/-- Register a descriptor as actor a of a core: write it to the table and latch it (R152, R331). -/
def State.registerActor (s : State) (core a : Nat) (d : List Word) : State :=
  let at_ := gpaKey (tileGpa (tileOfCore core) ((s.coreOf core).actBase + 64 * a))
  let v := ((List.range 8).map (fun i => (d.getD i 0).toNat * 2 ^ (64 * i))).sum
  let s1 := { s with mem := s.mem.writeLE at_ 64 v }
  s1.updActor core a (fun _ =>
    { valid := true, sup := descSup d, owner := descOwner d, claim := descClaim d, cls := descClass d, prod := descProd d,
      ports := (List.range 4).map (fun p => (p, { word := descPort d p })) })

/-- The capability of an actor of a core with all rights (R331). -/
def State.actorCap (s : State) (core a : Nat) : Word :=
  let x := (s.coreOf core).actorAt a
  let (kind, idx) := (s.logicalOf x.owner (tileOfCore core)).getD (0, 0)
  capMake s.loith.device x.owner kind idx (core % 2) false a x.portMask 15

/-- Registration at a core by the issuing firing, once the core is known (R331); `cap` is the low half of the capability presented, if any (R238). -/
def State.newActor (s : State) (xd : BitVec 5) (core cap : Nat) (d : List Word) : Out :=
  let a := (s.coreOf core).freeActor
  if a ≥ 64 then s.faultC .actFull 0 cap
  else if s.descRefused core d s.tag s.level then s.faultC .actBad 0 cap
  else
    let s1 := s.registerActor core a d
    s1.resultCap xd (s1.actorCap core a)

/-- A request to an actor or core of another device, by a capability: the context holds for the answer from outside (R172, R331, R332). -/
def State.askDevice (s : State) (dev size : Nat) (cap : Word) (k : Nat → Out) : Out :=
  s.holding 0 (fun _ => cap.toNat) (fun s => match s.devicePort dev with
    | .ok _ => .next (s.holdFor { kind := .arrival, gpa := dev * 2 ^ 54, size := size })
    | .error c => s.faultC c 0 cap.toNat) k

/-- `act.new`, `act.new.sib` and the form with a capability (R331). -/
def execActNew (f : FmtCR) (s : State) : Out :=
  s.slotC (.actNew f) fun s =>
    let va := (s.x f.xa).toNat
    let own := coreOfCtx s.cur
    let (lo, hi) := s.pairAt f.xb
    if f.xb ≠ 0 ∧ !s.capGenuine lo hi then s.faultC .capForged 0 lo.toNat
    else if f.xb ≠ 0 ∧ !capWhole lo then s.faultC .capTarget 0 lo.toNat
    else if f.xb ≠ 0 ∧ !(capHas lo rightWake && capHas lo rightHalt) then s.faultC .capRights 0 lo.toNat
    else
    let before := s
    s.readingDesc va 8 fun s d =>
      if f.xb = 0 then s.newActor f.xd (if f.opt = 1 then 2 * (own / 2) + 1 - own % 2 else own) 0 d
      else match s.destOf lo with
        | .refused c => s.faultC c 0 lo.toNat
        | .wait => .next (before.stallOn 0)
        | .core k => s.newActor f.xd k lo.toNat d
        | .other dev => s.askDevice dev 16 lo fun v => .next ((s.setX f.xd (BitVec.ofNat 64 v)).setX (f.xd + 1) (BitVec.ofNat 64 (v / 2 ^ 64))).fall

/-- A message left in the port of a deleted actor bounces (R163). The bounce of a hardware message has no core to reach: it is discarded, and counted at
the core where it arose (R167; log 117). -/
def State.orphan (core : Nat) (s : State) (m : Msg) : State :=
  if m.hw then s.updCore core (fun k => { k with rsplost := (k.rsplost + 1) % 65536 }) else s.bounceAt m Cause.destGone core

/-- Delete an idle actor: its messages bounce in port order and then in arrival order, those of RSP ports and the reservations are
discarded, and its claim, buffer and queues are freed (R62, R163, R332). -/
def State.deleteActor (s : State) (core a : Nat) : State :=
  let x := (s.coreOf core).actorAt a
  let left := (List.range 4).flatMap (fun p => let q := x.portAt p
    if portEnabled q.word && portKind q.word ≠ 1 then q.hwPart ++ q.oq else [])
  let s1 := s.updActor core a (fun _ => {})
  let s2 := s1.updTile (tileOfCore core) (fun t => { t with pipOwner := if isIssueCore core ∧ t.pipOwner = some a then none else t.pipOwner })
  left.foldl (State.orphan core) s2

/-- `act.del` (R332). -/
def execActDel (f : FmtCR) (s : State) : Out :=
  s.slotC (.actDel f) fun s =>
    let (lo, hi) := s.pairAt f.xb
    if !s.capGenuine lo hi then s.faultC .capForged 0 lo.toNat
    else if capWhole lo then s.faultC .capTarget 0 lo.toNat
    else if !capHas lo rightHalt then s.faultC .capRights 0 lo.toNat
    else match s.destOf lo with
      | .refused c => s.faultC c 0 lo.toNat
      | .wait => .next (s.stallOn 0)
      | .other dev => s.askDevice dev 8 lo fun _ => .next s.fall
      | .core k =>
        let x := (s.coreOf k).actorAt (capAct lo)
        if !x.valid ∨ x.owner ≠ capOwner lo then s.faultC .destGone 0 lo.toNat
        else if x.held then .next (s.stallOn 0)
        else if x.busy then s.faultC .actBusy 0 lo.toNat
        else .next (s.deleteActor k (capAct lo)).fall

/-! ### Tasks (R143, R333) -/

/-- The place in a core's spill ring after its newest record: the ring fills upward from its start (R143; log 112). -/
def Core.ringNext (k : Core) : Nat := match k.spill with
  | [] => 0
  | r :: _ => (r.slot + 1) % max 1 k.spillCap

/-- Records that move to the spill ring, newest first, with their places there: the oldest takes the next place. -/
def Core.placed (k : Core) (l : List TaskRec) : List TaskRec :=
  l.mapIdx (fun i r => { r with slot := (k.ringNext + (l.length - 1 - i)) % max 1 k.spillCap })

/-- The deque of a core after a push: when the 32 entries are full, up to 16 of the oldest move to the spill ring. None when the
ring has no room either (R143; log 21). -/
def Core.pushTask (k : Core) (r : TaskRec) : Option Core :=
  if k.deque.length < 32 then some { k with deque := r :: k.deque }
  else
    let n := min 16 (k.spillCap - k.spill.length)
    if n = 0 then none
    else
      let keep := k.deque.take (k.deque.length - n)
      some { k with deque := r :: keep, spill := k.placed (k.deque.drop (k.deque.length - n)) ++ k.spill }

/-- The GPA of a record in a core's spill ring (R143). -/
def State.ringGpa (s : State) (k : Nat) (r : TaskRec) : Nat := tileGpa (tileOfCore k) ((s.coreOf k).spillBase + 32 * r.slot)

/-- Write the newest n records of a core's spill ring to its local store (R143). -/
def State.writeRing (s : State) (k n : Nat) : State :=
  ((s.coreOf k).spill.take n).foldl (fun s r =>
    { s with mem := s.mem.writeLE (gpaKey (s.ringGpa k r)) 32 (((List.range 4).map (fun i => (r.words.getD i 0).toNat * 2 ^ (64 * i))).sum) }) s

/-- A record as the spill ring holds it in local store. -/
def State.readRing (s : State) (k : Nat) (r : TaskRec) : TaskRec := { r with words := doublewords 4 (s.mem.readLE (gpaKey (s.ringGpa k r)) 32) }

/-- `spawn` (R143, R333). -/
def execSpawn (f : FmtCR) (s : State) : Out :=
  s.slotC (.spawn f) fun s => s.withVecs false [f.xa.toNat] [] fun vals =>
    let c := s.cx
    let words := doublewords 4 (vals.getD 0 0)
    let h := words.getD 0 0
    let r : TaskRec := { words := words, launch := c.launch, depth := c.depth, cls := c.cls, codelo := c.codelo, codehi := c.codehi, widf := c.widf,
                         tag := c.tag, pushed := s.rtime }
    if bitsOf h 63 60 ≠ 0 ∨ bitsOf h 2 0 ≠ 0 ∨ h < c.codelo ∨ c.codehi ≤ h then s.faultC .badHandler 0 h.toNat
    else match s.core.pushTask r with
      | none => s.faultC .dequeFull 0 h.toNat
      | some k =>
        let go := fun (s : State) =>
          let s1 := ((s.updCurCore (fun _ => k)).writeRing (coreOfCtx s.cur) (k.spill.length - s.core.spill.length)).popStreams [f.xa.toNat]
          Host.Outcome.next (match c.launch with
            | some id => s1.updLaunch id (fun e => { e with open_ := e.open_ + 1 })
            | none => s1).fall
        let rel := f.opt.toNat / 64
        if rel = 0 then go s else s.releaseThen (rel - 1) 0 .waitFence go

/-! ### Nested launches (R131, R133, R405) -/

/-- The fields of a mask held in two doublewords. -/
def maskFields (lo hi : Word) : List Nat := (List.range 90).filter (fun f => if f < 64 then bitAt lo.toNat f else bitAt hi.toNat (f - 64))

/-- The fields that an owner may launch on: those of its partition; the platform's are the fields of no partition (R92, R131). -/
def State.fieldsOfTag (s : State) (tag : Nat) : List Nat :=
  if tag = 0 then (List.range 90).filter (fun f => (s.hubOf f).group.isEmpty)
  else match s.partOfTag tag with
    | some p => (s.partOf p).fields
    | none => []

/-- The first check of R405 step 2 that a header and mask fail. -/
def State.launchCause (s : State) (h : Header) (mask : List Nat) (maskBad : Bool) : Option Cause :=
  if h.malformed || maskBad then some .launchBad
  else if s.cx.depth ≥ 3 then some .launchDepth
  else
    if h.owner ≠ s.tag || mask.any (fun f => !(s.fieldsOfTag s.tag).contains f) then some .ownerMismatch else none

/-- `launch` and `launch.w` (R405). A pool firing or actor firing of depth d creates a launch of depth d + 1, an actor firing
counting as depth 0 (R133). -/
def execLaunch (f : FmtWE) (s : State) : Out :=
  s.slotC (.launch f) fun s =>
    let va := (s.x f.xa).toNat
    let own := fieldOfCtx s.cur
    let (mlo, mhi) := s.pairAt f.xb
    let mask := if f.xb = 0 then [own] else maskFields mlo mhi
    if !s.storesDone 4 then .next (s.stallOn .waitFence)
    else s.readingDesc va 8 fun s d =>
      match s.launchCause d mask (decide (f.xb ≠ 0) && bitsOf mhi 63 26 ≠ 0) with
      | some c => s.faultC c
      | none =>
        let depth := s.cx.depth + 1
        match s.hub.launchRoom depth with
        | some shared =>
          let s1 := s.countScope 4
          let actor := !s.cx.pool && !s.cx.task
          let lo := if actor then capWithRights (s.selfWord 0) 1 (s.core.actorAt s.cx.act).portMask else 0
          let who : Issuer := { core := coreOfCtx s.cur, act := if actor then some s.cx.act else none, lo := lo, hi := if actor then s.sealWord lo else 0 }
          let (id, s2) := s1.acceptLaunch own d mask depth (if s.tag = 0 then 2 else 0) who shared
          let s3 := s2.updHub own (fun h => { h with lwaiters := h.lwaiters.filter (· ≠ s.cx.firing) })
          s3.result f.xc (BitVec.ofNat 64 id)
        | none =>
          if f.opt = 0 then (s.countScope 4).result f.xc (BitVec.ofNat 64 (2 ^ 64 - 1))
          else if s.cx.np then s.faultC .npState
          else
            let n := s.cx.firing
            .next ((s.updCurHub (fun h => { h with lwaiters := if h.lwaiters.contains n then h.lwaiters else h.lwaiters ++ [n] })).parkFiring .launchQfull)

end Sys2Proof.Machine
end

