-- ==== Sys2Proof/Machine/Pip.lean ====
section
/-! DEFINITION. The bankers and the pip instructions: R48, R53 to R56, R58 to R63, R65, R68, R340, R423. FREE is computed from
the invariant of R58. -/

namespace Sys2Proof.Machine

/-! ### What a banker holds (R58, R60) -/

/-- The tiles of a field, by local index. -/
def fieldTiles (f : Nat) : List Nat := (List.range 120).map (tileOfLocal f)

/-- Pips that a field's migrating logical tiles hold between their tiles (R58, R65). -/
def State.heldMoving (s : State) (f : Nat) : Nat :=
  (s.migrations.map (fun g => match g.image with
    | some m => if fieldOfTile g.oldTile = f then m.tile.h else 0
    | none => 0)).sum

/-- HELD, LENT, BORR and FREE of a field (R58). -/
def State.heldOf (s : State) (f : Nat) : Nat := ((fieldTiles f).map (fun t => (s.tileOf t).h)).sum + s.heldMoving f
def Hub.leased (h : Hub) (dir : Nat) : Nat := (h.leases.map (fun e => if e.2.valid && e.2.dir = dir then e.2.count else 0)).sum
def State.freeOf (s : State) (f : Nat) : Nat :=
  let h := s.hubOf f
  h.share + h.leased 1 - h.leased 0 - s.heldOf f

/-- BKSTAT (R59). -/
def State.bkstat (s : State) (f : Nat) : Nat :=
  let h := s.hubOf f
  s.freeOf f % 65536 * 2 ^ 48 + s.heldOf f % 65536 * 2 ^ 32 + h.leased 0 % 65536 * 2 ^ 16 + h.leased 1 % 65536

/-- The pending notices of a field, those of logical tiles between their tiles among them (R65). -/
def State.noticesOf (s : State) (f : Nat) : List Notice :=
  (fieldTiles f).flatMap (fun t => (s.tileOf t).notices) ++ s.migrations.flatMap (fun g => match g.image with
    | some m => if fieldOfTile g.oldTile = f then m.tile.notices else []
    | none => [])

/-- The pips that pending notices of a kind will free in a field. -/
def State.pendingIf (s : State) (f : Nat) (p : Notice → Bool) : Nat := (((s.noticesOf f).filter p).map (fun n => n.oldh - n.newh)).sum

/-- Pips that pending notices of a reason will free in a field. -/
def State.pendingOf (s : State) (f reason : Nat) : Nat := s.pendingIf f (fun n => n.reason = reason)

/-- Pips that a banker has borrowed under leases that are recalled or end. -/
def Hub.leaving (h : Hub) : Nat := (h.leases.map (fun e => if e.2.valid && e.2.dir = 1 && e.2.st ≠ 0 then e.2.count else 0)).sum

/-- FREE that no ending lease has claimed: what a banker can grant or lend. FREE covers a recalled lease first (R60). -/
def State.availOf (s : State) (f : Nat) : Nat := s.freeOf f - ((s.hubOf f).leaving - s.pendingOf f 1)

/-- The lowest free lease entry of a banker (R60). -/
def Hub.freeLease (h : Hub) : Option Nat := (List.range 16).find? (fun i => !(h.leases.get {} i).valid)

/-- A new lease in entry i of a banker. -/
def Hub.putLease (h : Hub) (i : Nat) (l : Lease) : Hub := { h with leases := h.leases.put i l }

/-- Create a lease in both bankers (R60); nothing where either has no free entry. -/
def State.makeLease (s : State) (lender borrower count dur src start : Nat) : State :=
  match (s.hubOf lender).freeLease, (s.hubOf borrower).freeLease with
  | some i, some j =>
    (s.updHub lender (fun h => h.putLease i { valid := true, dir := 0, src := src, peer := borrower, count := count, dur := dur, start := start })).updHub
      borrower (fun h => h.putLease j { valid := true, dir := 1, src := src, peer := lender, count := count, dur := dur, start := start })
  | _, _ => s

/-! ### Power messages (R62, R63) -/

/-- The lowest claimed resource bit of an actor's claim. -/
def lowBit (c : Nat) : Nat := if c % 2 = 1 then 0 else if c / 2 % 2 = 1 then 1 else if c / 4 % 2 = 1 then 2 else 3

/-- The owner of a tile's engine: an actor of the issue core, or none for the partition supervisor (R62). -/
def State.engineOwner (s : State) (t : Nat) : Option Nat :=
  let claims := (s.coreOf (2 * t + 1)).actors.filter (fun a => a.2.valid && a.2.claim ≠ 0)
  match claims with
  | [] => (s.tileOf t).pipOwner
  | c :: cs => some (cs.foldl (fun b a => if lowBit a.2.claim < lowBit b.2.claim then a else b) c).1

/-- Send a power message about a tile to its engine's owner (R62, R63). A tile's first message has sequence number 0; the count is saved with the
partition and moves with the logical tile (DESIGN CHOICE; log 111). -/
def State.powerMessage (s : State) (t cls reason oldh newh hclass effect : Nat) : State :=
  let f := fieldOfTile t
  let tag := (s.hubOf f).runTag
  let w1 := reason * 2 ^ 56 + oldh * 2 ^ 44 + newh * 2 ^ 40 + hclass * 2 ^ 38 + (s.tileOf t).pwrseq % 2 ^ 32
  let words : List Word := [BitVec.ofNat 64 w1, BitVec.ofNat 64 effect, s.rtimeWord]
  let s1 := s.updTile t (fun x => { x with pwrseq := (x.pwrseq + 1) % 2 ^ 32 })
  match s.engineOwner t with
  | some a => s1.postHw f (hwMessage cls (s.actorCap (2 * t + 1) a) 4 tag words)
  | none => match s.supervisorCap tag with
    | some lo => s1.postHw f (hwMessage cls lo 4 tag words)
    | none => (s1.toFirmware (hwMessage cls 0 4 tag words)).report f .noSupervisor tag []

/-! ### Revocation (R61, R62) -/

/-- One step of the choice of R61: the tile that gives the next pip, from each tile's holding so far. -/
def State.victim (s : State) (left : List (Nat × Nat)) : Option Nat :=
  let better := fun (a b : Nat × Nat) =>
    let x := s.tileOf a.1
    let y := s.tileOf b.1
    if x.hclass ≠ y.hclass then decide (x.hclass < y.hclass)
    else if a.2 ≠ b.2 then decide (a.2 > b.2)
    else if x.raised ≠ y.raised then decide (x.raised > y.raised)
    else decide (localOfTile a.1 < localOfTile b.1)
  match left.filter (fun e => e.2 > 0) with
  | [] => none
  | e :: es => some (es.foldl (fun b a => if better a b then a else b) e).1

/-- Take n pips one at a time. -/
def State.takePips (s : State) : Nat → List (Nat × Nat) → List (Nat × Nat)
  | 0, left => left
  | n + 1, left =>
    match s.victim left with
    | none => left
    | some t => s.takePips n (left.map (fun e => if e.1 = t then (e.1, e.2 - 1) else e))

/-- One notice for a tile (R62, R65): a later effect time is never earlier than an earlier one. A notice of reason 0 is for the request of tile `forReq`. -/
def State.noticeTile (s : State) (t newh reason : Nat) (forReq : Option Nat := none) : State :=
  let x := s.tileOf t
  let period := if reason = 3 ∧ x.hclass ≤ 1 then 0 else 2000
  let effect := x.notices.foldl (fun a n => max a n.effect) (s.rtime + period)
  (s.updTile t (fun x => { x with notices := x.notices ++ [{ oldh := x.target, newh := newh, effect := effect, reason := reason, forReq := forReq }] })).powerMessage
    t 0xFF80 reason x.target newh (if newh = 0 then 0 else x.hclass) effect

/-- Revoke n pips of a field with a reason, from tiles of holding class below `below`, never from tile `skip` (R61). -/
def State.revoke (s : State) (f n reason below : Nat) (skip : Option Nat) : State :=
  let start := ((fieldTiles f).filter (fun t => (s.tileOf t).hclass < below && some t ≠ skip)).map (fun t => (t, (s.tileOf t).target))
  let left := s.takePips n start
  left.foldl (fun s e => if e.2 < (s.tileOf e.1).target then s.noticeTile e.1 e.2 reason skip else s) s

/-- How many pips a revocation of n would find. -/
def State.revocable (s : State) (f below : Nat) (skip : Option Nat) : Nat :=
  (((fieldTiles f).filter (fun t => (s.tileOf t).hclass < below && some t ≠ skip)).map (fun t => (s.tileOf t).target)).sum

/-- The holding of a tile changes at once (R48, R50): at 0 the class is E0. -/
def State.setHolding (s : State) (t h : Nat) : State :=
  s.updTile t (fun x => { x with h := h, hclass := if h = 0 then 0 else x.hclass })

/-- A lease is recalled, or ends without renewal: the borrower revokes with reason 1 what its FREE does not cover (R60). A recall may be for the request of
tile `forReq` (R423). -/
def State.recallLease (s : State) (lender i st : Nat) (forReq : Option Nat := none) : State :=
  let l := (s.hubOf lender).leases.get {} i
  let b := l.peer
  let avail := s.availOf b
  let mark := fun (h : Hub) (dir peer : Nat) =>
    { h with leases := h.leases.map (fun e => (e.1, if e.2.valid && e.2.dir = dir && e.2.peer = peer && e.2.start = l.start && e.2.src = l.src && e.2.count = l.count && e.2.st = 0
      then { e.2 with st := st, until_ := s.rtime + 2000 } else e.2)) }
  let s1 := (s.updHub lender (fun h => h.putLease i { l with st := st, until_ := s.rtime + 2000, forReq := forReq })).updHub b (fun h => mark h 1 lender)
  s1.revoke b (l.count - avail) 1 4 none

/-! ### The queue (R54, R55) -/

/-- The waiting requests of a field in the order of R55: class, then age, then local index. One whose target is met does not wait (R54). -/
def State.pipQueue (s : State) (f : Nat) : List (Nat × PipReq) :=
  ((fieldTiles f).filterMap (fun t => ((s.tileOf t).req.filter (fun r => (s.tileOf t).h < r.target)).map (fun r => (t, r)))).mergeSort
    (fun a b => decide (a.2.cls > b.2.cls) || (a.2.cls = b.2.cls && decide (a.2.age ≤ b.2.age)))

/-- The request at the head of a field's queue. -/
def State.pipHead (s : State) (f : Nat) : Option (Nat × PipReq) := (s.pipQueue f).head?

/-- Recalls and notices that were for an earlier request of a tile count for no request any more (R423). -/
def State.forgetFor (s : State) (t : Nat) : State :=
  let f := fieldOfTile t
  let clear := fun (q : Option Nat) => q.filter (· ≠ t)
  let s1 := s.updHub f (fun h => { h with leases := h.leases.map (fun e => (e.1, { e.2 with forReq := clear e.2.forReq })) })
  (fieldTiles f).foldl (fun s u => if (s.tileOf u).notices.any (fun n => n.forReq = some t)
    then s.updTile u (fun x => { x with notices := x.notices.map (fun n => { n with forReq := clear n.forReq }) }) else s) s1

/-! ### The instructions (R54, R340) -/

/-- The actor that executes is an actor firing. -/
def Ctx.isActor (c : Ctx) : Bool := !c.pool && !c.task

/-- `pip.req` (R53, R54, R62, R340). -/
def execPipReq (f : FmtCR) (s : State) : Out :=
  s.slotC (.pipReq f) fun s =>
    let t := tileOfCtx s.cur
    let n := (s.x f.xa).toNat
    let c := f.opt.toNat % 4
    if !isIssueCore (coreOfCtx s.cur) then s.faultC .pipNotIssue
    else if n = 0 ∨ n > fullRate (tileKind t) then s.faultC .pipRange
    else if c > s.cx.cls then s.faultC .pipClass
    else
      let r : PipReq := { target := n, cls := c, notify := f.opt.toNat ≥ 4, age := s.rtime }
      let s1 := if s.tile.req.isNone && decide (s.tile.h < n) then s.forgetFor t else s
      .next (s1.updCurTile (fun t => { t with pipOwner := if s.cx.isActor then some s.cx.act else t.pipOwner,
                                              req := if n ≤ t.h then t.req else some r })).fall

/-- `pip.rel` (R54, R65, R340). -/
def execPipRel (f : FmtCR) (s : State) : Out :=
  s.slotC (.pipRel f) fun s =>
    let n := (s.x f.xa).toNat
    if !isIssueCore (coreOfCtx s.cur) then s.faultC .pipNotIssue
    else if n > s.tile.h then s.faultC .pipRange
    else
      let s1 := s.updCurTile (fun t => { t with req := t.req.filter (fun r => r.target ≤ n) })
      .next (s1.setHolding (tileOfCtx s.cur) n).fall

/-- Hub 89 is taking the bank over: no grant, lease or share changes (R57, R91). -/
def State.bankPaused (s : State) : Bool := s.bank.takeoverAt.isSome

/-- `pip.lend` (R54, R57, R60, R340): the lease stands in both bankers when the instruction ends. It waits while the bank is taken over. -/
def execPipLend (f : FmtCR) (s : State) : Out :=
  s.slotC (.pipLend f) fun s =>
    let own := fieldOfCtx s.cur
    let g := (s.x f.xa).toNat
    let n := (s.x f.xb).toNat
    let dur := (s.x f.xd).toNat
    let mine := match s.partOfTag s.tag with
      | some p => (s.partOf p).fields.contains g
      | none => false
    if s.level < 1 then s.faultC .pipPriv
    else match s.hub.freeLease, (s.hubOf g).freeLease with
      | some i, some _ =>
        if dur < 100 ∨ dur > 2 ^ 32 - 1 ∨ !mine ∨ g = own ∨ n = 0 ∨ n > s.freeOf own then s.faultC .pipLease
        else if s.bankPaused then .next (s.stallOn 0)
        else (s.makeLease own g n dur 1 s.rtime).result f.xd (BitVec.ofNat 64 i)
      | _, _ => s.faultC .pipLease

/-- `pip.stat` (R54, R340). -/
def execPipStat (f : FmtCR) (s : State) : Out :=
  s.slotC (.pipStat f) fun s => s.result f.xd (BitVec.ofNat 64 (s.bkstat (fieldOfCtx s.cur)))

end Sys2Proof.Machine
end

