-- ==== Sys2Proof/Machine/Clock.lean ====
section
/-! DEFINITION. Time, field clocks and rails: R18 to R25, R70, R71, R188, and the events of them. An event reads its unit and its
values from `arg` (log 1). -/

namespace Sys2Proof.Machine

/-! ### Time -/

/-- Units that a correction of RTIME takes from a stretch of time: at most 100 parts per million of it (R22). -/
def slewOf (u : Nat) (offset : Int) : Int :=
  let d : Int := u / 10000
  if offset ≥ 0 then min offset d else max offset (-d)

/-- Time passes (R18, R22). One counter stands for the RTIME counters of all fields: R22 lets their readings differ by up to 2 ns, and the model takes
no difference (DESIGN CHOICE; log 97). -/
def State.passTime (s : State) (u : Nat) : State :=
  let d := slewOf u s.loith.offset
  let f := ((s.rfrac + u : Int) + d).toNat
  { s with now := s.now + u, rtime := (s.rtime + f / Config.unitsPerNs) % 2 ^ 64, rfrac := f % Config.unitsPerNs,
           loith := { s.loith with offset := s.loith.offset - d } }

/-- A field's counts brought up to now, with the clock at multiplier n from here on (R188). -/
def State.settle (s : State) (f n : Nat) : State :=
  let cyc := s.cycOf f
  let ncyc := s.ncycOf f
  s.updHub f (fun h => { h with cyc0 := cyc, ncyc0 := ncyc, anchor := s.now, curn := n })

/-! ### Reports (R253) -/

/-- The owner tags of the partitions of a field. -/
def State.tagsOfField (s : State) (f : Nat) : List Nat := ((s.hubOf f).group.map (fun p => (s.partOf p).tag)).eraseDups

/-- A report of a field to the platform and to the supervisor of every partition of the field (R253). -/
def State.reportField (s : State) (f : Nat) (cause : Cause) (items : List Nat) : State :=
  (s.tagsOfField f).foldl (fun s tag => s.reportTo f cause tag items) (s.report f cause (s.hubOf f).runTag items (s.tagsOfField f))

/-! ### Ceilings (R23) -/

/-- The highest N of a rail voltage in mV. -/
def ceilingOf (mv : Nat) : Nat :=
  if mv < 620 then 14 else if mv < 700 then 18 else if mv < 780 then 21 else if mv < 850 then 23 else 25

/-- The present voltage of a rail, which slews at 10 mV a microsecond toward its target (R70). -/
def State.railNow (s : State) (a : Nat) : Nat :=
  let r := s.railOf a
  match r.busy with
  | none => r.cur
  | some stop =>
    let left := (stop - s.rtime + 99) / 100
    if r.cur ≤ r.set then r.set - min left (r.set - r.cur) else r.set + min left (r.cur - r.set)

/-- The lowest voltage that a rail has or moves to. -/
def State.railLow (s : State) (a : Nat) : Nat := min (s.railNow a) (if (s.railOf a).busy.isSome then (s.railOf a).set else s.railNow a)

/-- A tile draws from its rail: neither in the hold nor gated (R23, R67). -/
def Tile.powered (t : Tile) : Bool := t.pwr = 0 || t.pwr = 3

/-- The ceiling of a field, with rail `a` at voltage `v` where given (R23). With every tile gated no rail bounds the clock, and 25 stands
(DESIGN CHOICE; log 98). -/
def State.ceilingWith (s : State) (f : Nat) (change : Option (Nat × Nat)) : Nat :=
  ((fieldTiles f).filterMap (fun t =>
    let x := s.tileOf t
    if x.powered then
      some (ceilingOf (match change with
        | some (a, v) => if x.rail = a then v else s.railLow x.rail
        | none => s.railLow x.rail))
    else none)).foldl min 25

/-! ### FCLKCTL (R19 to R21) -/

/-- FCLKCTL as it reads (R20). -/
def Hub.fclkctl (h : Hub) : Nat :=
  natOfBool h.locking.isSome * 2 ^ 31 + natOfBool h.pendn.isSome * 2 ^ 30 + natOfBool h.badn * 2 ^ 29 + h.curn * 2 ^ 8 + h.newn

/-- Stall times of a field that cross a relock start again at its end (R250). -/
def State.restartStalls (s : State) (f : Nat) : State :=
  { s with ctxs := s.ctxs.map (fun e => (e.1, if fieldOfCtx e.1 = f then { e.2 with stall := e.2.stall.map (fun p => (s.rtime + 3000, p.2)) } else e.2)) }

/-- Start a relock of 3,000 ns at a new multiplier (R19). -/
def State.relock (s : State) (f n : Nat) : State :=
  ((s.settle f n).updHub f (fun h => { h with newn := n, locking := some (s.rtime + 3000) })).restartStalls f

/-- A written N, once accepted (R21). -/
def State.setClock (s : State) (f n : Nat) : State :=
  let h := s.hubOf f
  if h.locking.isSome then s.updHub f (fun h => { h with newn := n, pendn := some n })
  else if n = h.curn then s.updHub f (fun h => { h with newn := n })
  else s.relock f n

/-- A write of NEWN by the platform or the pacer (R21, R23). -/
def State.newnWrite (s : State) (f n : Nat) : State :=
  if n < 10 ∨ n > 25 ∨ n > s.ceilingWith f none then (s.updHub f (fun h => { h with badn := true })).reportField f .clkRefused []
  else s.setClock f n

/-- A write of FCLKCTL (R20, R21, R23). -/
def State.fclkctlWrite (s : State) (f v : Nat) : State :=
  (if bitAt v 29 then s.updHub f (fun h => { h with badn := false }) else s).newnWrite f (bitsAt v 4 0)

/-- `FCLKCTL_WRITE`: field `unit` takes `value` (R21). -/
def execFclkctlWrite (s : State) : Out := .next (s.fclkctlWrite s.arg.unit s.arg.value)

/-- A relock of a field has ended. -/
def State.relockDue (s : State) (f : Nat) : Bool := match (s.hubOf f).locking with
  | some t => t ≤ s.rtime
  | none => false

/-- `RELOCK_END` of field `unit` (R19, R21): a pending N above the ceiling by now is refused. -/
def execRelockEnd (s : State) : Out :=
  let f := s.arg.unit
  if !s.relockDue f then .next s
  else
    let h := s.hubOf f
    let s1 := s.updHub f (fun h => { h with locking := none, relocked := s.rtime, pendn := none, anchor := s.now })
    match h.pendn with
    | none => .next s1
    | some n =>
      if n = h.curn then .next s1
      else if n > s1.ceilingWith f none then .next ((s1.updHub f (fun h => { h with badn := true, newn := h.curn })).reportField f .clkRefused [])
      else .next (s1.relock f n)

/-! ### Rails (R70, R71) -/

/-- RAILVa and RAILMEASa (R70). -/
def State.railv (s : State) (a : Nat) : Nat :=
  let r := s.railOf a
  natOfBool r.busy.isSome * 2 ^ 31 + natOfBool r.refused * 2 ^ 30 + s.railNow a % 1024 * 2 ^ 16 + r.set % 1024
def State.railmeas (s : State) (a : Nat) : Nat := (s.railOf a).power % 65536 * 2 ^ 48 + (s.railOf a).current % 2 ^ 24

/-- Partitions with a tile on a rail. -/
def State.tagsOfRail (s : State) (a : Nat) : List Nat :=
  ((List.range 90).filter (fun f => (fieldTiles f).any (fun t => (s.tileOf t).rail = a))).flatMap s.tagsOfField |>.eraseDups

/-- A report about a rail, from the hub that runs the bank (R237, R253). -/
def State.reportRail (s : State) (a : Nat) (cause : Cause) : State :=
  let f := if s.bank.onmirror then 89 else 0
  (s.tagsOfRail a).foldl (fun s tag => s.reportTo f cause tag []) (s.report f cause 0 [] (s.tagsOfRail a))

/-- A write of RAILVa (R70). -/
def State.railvWrite (s : State) (a v : Nat) : State :=
  let n := bitsAt v 9 0
  let s1 := if bitAt v 30 then s.updRail a (fun r => { r with refused := false }) else s
  let now := s1.railNow a
  let low := min now n
  let breaks := (List.range 90).any (fun f => s1.ceilingWith f (some (a, low)) < (s1.hubOf f).curn && s1.ceilingWith f (some (a, low)) < s1.ceilingWith f none)
  if n < 550 ∨ n > 900 ∨ breaks then (s1.updRail a (fun r => { r with refused := true })).reportRail a .railRefused
  else if n = now then s1.updRail a (fun r => { r with cur := n, set := n, busy := none })
  else s1.updRail a (fun r => { r with cur := now, set := n, busy := some (s.rtime + 100 * (max n now - min n now)) })

/-- `RAILV_WRITE`: rail `unit` takes `value` (R70). -/
def execRailvWrite (s : State) : Out := .next (s.railvWrite s.arg.unit s.arg.value)

/-- A slew has reached its target. -/
def State.slewDue (s : State) (a : Nat) : Bool := match (s.railOf a).busy with
  | some t => t ≤ s.rtime
  | none => false

/-- `RAIL_SLEW_END` of rail `unit` (R70). -/
def execRailSlewEnd (s : State) : Out :=
  if s.slewDue s.arg.unit then .next (s.updRail s.arg.unit (fun r => { r with cur := r.set, busy := none })) else .next s

/-- A tile of a field waits with a wake that was refused under the ceiling (R71). -/
def State.wakeRefusedIn (s : State) (f : Nat) : Bool := (fieldTiles f).any (fun t => (s.tileOf t).wakeRefused)

/-- RAILSW as it reads (R71): REFUSED stays set while a refused wake waits. -/
def State.railsw (s : State) (f : Nat) : Nat :=
  natOfBool ((s.hubOf f).railRefused || s.wakeRefusedIn f) * 2 ^ 30 + (s.hubOf f).railTarget * 2 ^ 8 + (s.hubOf f).railTile

/-- A write of RAILSW (R71); REFUSED is cleared only by a one written to it. RAIL and TILE take what is written in every case, also where the move is
refused and where TILE is 120 to 127 (DESIGN CHOICE; log 129). -/
def State.railswWrite (s : State) (f v : Nat) : State :=
  let rail := bitsAt v 9 8
  let i := bitsAt v 6 0
  let s1 := s.updHub f (fun h => { h with railTarget := rail, railTile := i, railRefused := h.railRefused && !bitAt v 30 })
  if !bitAt v 31 then s1
  else if i < 120 && !(s.tileOf (tileOfLocal f i)).powered then
    s1.updTile (tileOfLocal f i) (fun t => { t with rail := rail })
  else (s1.updHub f (fun h => { h with railRefused := true })).reportField f .wakeRefused []

/-- `RAILSW_MOVE`: RAILSW of field `unit` takes `value` (R71). -/
def execRailswMove (s : State) : Out := .next (s.railswWrite s.arg.unit s.arg.value)

/-! ### Package power (R25, R253) -/

/-- All ballast of the package stops (R25, R69). -/
def State.stopBallast (s : State) : State := { s with hubs := s.hubs.map (fun e => (e.1, { e.2 with ball := 0, fill := 0 })) }

/-- Ballast pips that run, of either kind (R25). -/
def State.ballastPips (s : State) : Nat := (s.hubs.map (fun e => e.2.ball + e.2.fill)).sum

/-- Pips that the bank must revoke at a package power in W: ceil((P - 32,000 - 1.2 B) / 1.2) (R25). -/
def limitExcess (power ballast : Nat) : Nat := (10 * (power - 32000) - 12 * ballast + 11) / 12

/-- Revoke pips anywhere on the package (R25, R61): ties between fields go to the lower field (log 27). -/
def State.revokeAll (s : State) (n : Nat) : State :=
  let start := (((List.range 90).flatMap fieldTiles).filter (fun t => (s.tileOf t).target > 0)).map (fun t => (t, (s.tileOf t).target))
  (s.takePips n start).foldl (fun s e => if e.2 < (s.tileOf e.1).target then s.noticeTile e.1 e.2 3 else s) s

/-- P: the power of the four rails (R25). -/
def State.packagePower (s : State) : Nat := ((List.range 4).map (fun a => (s.railOf a).power)).sum

/-- The controller of rail `a` has measured `p` W and `c` times 10 mA over the last microsecond (R25, R70). -/
def State.measure (s : State) (a p c : Nat) : State :=
  let s1 := s.updRail a (fun r => { r with power := p, current := c })
  let high := decide (32000 < s1.packagePower)
  { s1 with bank := { s1.bank with
      overSince := if high then some (s.bank.overSince.getD s.rtime) else none
      underSince := if high then none else some (s.bank.underSince.getD s.rtime) } }

/-- P has been above 32 kW for more than 20 µs, and 20 µs have passed since the effect of the last limit revocation (R25). -/
def State.limitDue (s : State) : Bool :=
  (match s.bank.overSince with
    | some t => decide (t + 20000 < s.rtime)
    | none => false) && (!s.bank.limit || decide (s.bank.limitNext ≤ s.rtime))

/-- The latest effect of the limit notices that tiles have (R25, R61). -/
def State.limitEffect (s : State) : Nat :=
  s.tiles.foldl (fun n e => e.2.notices.foldl (fun n x => if x.reason = 3 then max n x.effect else n) n) s.rtime

/-- `PKG_POWER_LIMIT` (R25): the message goes out with a limit revocation, which there is only where stopping the ballast does not suffice; where it
does, the bank looks again after 20 µs (DESIGN CHOICE; log 99). -/
def execPkgPowerLimit (s : State) : Out :=
  if !s.limitDue then .next s
  else
    let p := s.packagePower
    let e := limitExcess p s.ballastPips
    let s1 := ({ s with bank := { s.bank with limit := true } } : State).stopBallast.revokeAll e
    let s2 := { s1 with bank := { s1.bank with limitNext := s1.limitEffect + 20000 } }
    .next (if e = 0 then s2 else s2.report (if s.bank.onmirror then 89 else 0) .pkgPowerLimit 0 [p])

/-- P has stayed at or below 32 kW for 1 ms (R25). -/
def State.clearDue (s : State) : Bool := s.bank.limit && (match s.bank.underSince with
  | some t => decide (t + 1000000 ≤ s.rtime)
  | none => false)

/-- `POWER_LIMIT_CLEAR` (R25). -/
def execPowerLimitClear (s : State) : Out := if s.clearDue then .next { s with bank := { s.bank with limit := false } } else .next s

/-- `THERMAL_LIMIT` of tile `unit` (R253). -/
def execThermalLimit (s : State) : Out :=
  let t := s.arg.unit
  .next ((s.updTile t (fun x => { x with throttled := true })).report (fieldOfTile t) .thermal (s.hubOf (fieldOfTile t)).runTag [])

/-- `RAIL_OVERCURRENT` of rail `unit`: its current is `value`, in 10 mA, and its power `other` W (R70, R253). -/
def execRailOvercurrent (s : State) : Out :=
  let a := s.arg.unit
  .next ((s.measure a s.arg.other s.arg.value).reportRail a .railOvercurrent)

end Sys2Proof.Machine
end

