-- ==== Sys2Proof/Machine/Gating.lean ====
section
/-! DEFINITION. Readiness of actors, power gating and wakes: R66, R67, R71, R140, R160. An event names its tile or field in `arg.unit`. -/

namespace Sys2Proof.Machine

/-! ### The trigger (R160) -/

/-- COUNT of a port, and whether at least that many messages, and at least one, are present. -/
def Actor.countOf (a : Actor) (p : Nat) : Nat := portCount (a.portAt p).word
def Actor.enoughAt (a : Actor) (p : Nat) : Bool := max 1 (a.countOf p) ≤ (a.portAt p).present

/-- Enabled ports that are not SYS, by ALONE. -/
def Actor.dataPorts (a : Actor) (alone : Bool) : List Nat :=
  (List.range 4).filter (fun p => portEnabled (a.portAt p).word && portKind (a.portAt p).word ≠ 2 && portAlone (a.portAt p).word = alone)

/-- The set C of R160: the ports that fire the actor together. -/
def Actor.jointPorts (a : Actor) : List Nat := (a.dataPorts false).filter (fun p => 0 < a.countOf p)

/-- The least number of a list. -/
def leastOf : List Nat → Option Nat
  | [] => none
  | n :: ns => some (ns.foldl min n)

/-- `trigger(a)` (R160). -/
def Actor.trigger (a : Actor) : Option Nat :=
  match (a.portsOfKind 2).find? a.enoughAt with
  | some p => some p
  | none =>
    let joint := a.jointPorts
    let t := if joint.all (fun p => a.countOf p ≤ (a.portAt p).present) then (leastOf joint).toList else []
    leastOf (t ++ (a.dataPorts true).filter a.enoughAt)

/-- An actor is ready (R160). -/
def Actor.ready (a : Actor) : Bool := a.valid && !a.halted && !a.held && !a.busy && a.trigger.isSome

/-! ### Wake requests (R67) -/

/-- A request for a tile that is in the hold or gated joins the queue, or raises the class of the one there; one that reaches E3 counts
from then. -/
def Tile.queueWake (t : Tile) (cls rtime : Nat) : Tile :=
  if t.pwr = 0 ∨ t.pwr = 3 then t
  else match t.wake with
    | none => { t with wake := some (cls, rtime), promoted := if cls = 3 then some rtime else none }
    | some (c, e) => if cls ≤ c then t else { t with wake := some (cls, e), promoted := if cls = 3 && t.promoted.isNone then some rtime else t.promoted }

def State.queueWake (s : State) (t cls : Nat) : State :=
  if (s.tileOf t).pwr = 0 ∨ (s.tileOf t).pwr = 3 then s else s.updTile t (fun x => x.queueWake cls s.rtime)

/-- Note when the trigger of an actor first holds (R140), and ask for a wake of its tile (R67). -/
def State.noteActor (s : State) (core a : Nat) : State :=
  let x := (s.coreOf core).actorAt a
  if x.ready then
    let s1 := if x.readyAt.isSome then s else s.updActor core a (fun x => { x with readyAt := some s.rtime })
    s1.queueWake (tileOfCore core) x.cls
  else if x.readyAt.isSome then s.updActor core a (fun x => { x with readyAt := none }) else s

/-- The same for every actor. -/
def State.noteActors (s : State) : State :=
  s.cores.foldl (fun s e => e.2.actors.foldl (fun s a => s.noteActor e.1 a.1) s) s

/-! ### Gating (R66) -/

/-- A tile is idle: no context occupied, the engine idle, no actor ready. -/
def State.tileIdle (s : State) (t : Nat) : Bool :=
  !(s.ctxs.any (fun e => tileOfCtx e.1 = t && e.2.occ)) && !s.engBusy t &&
    [2 * t, 2 * t + 1].all (fun k => (s.coreOf k).actors.all (fun a => !a.2.ready))

/-- Note since when each tile that is on has been idle. -/
def State.noteIdle (s : State) : State :=
  { s with tiles := s.tiles.map (fun e => (e.1,
      if e.2.pwr ≠ 0 || !s.tileIdle e.1 then (if e.2.idleSince.isSome then { e.2 with idleSince := none } else e.2)
      else if e.2.idleSince.isNone then { e.2 with idleSince := some s.rtime } else e.2)) }

/-- A tile has been idle for PWRCTL.IDLE microseconds. -/
def State.gateDue (s : State) (t : Nat) : Bool :=
  let x := s.tileOf t
  let idle := (s.hubOf (fieldOfTile t)).idle
  x.pwr = 0 && idle ≠ 0 && s.tileIdle t && (match x.idleSince with
    | some t0 => decide (t0 + 1000 * idle ≤ s.rtime)
    | none => false)

/-- `TILE_IDLE_GATE` of tile `unit` (R65, R66): the holding returns to FREE, recorded for the wake with the outstanding request, and pending notices
lapse. -/
def execTileIdleGate (s : State) : Out :=
  if s.gateDue s.arg.unit then
    .next (s.updTile s.arg.unit (fun t => { t with
      pwr := 1, gatedAt := s.rtime, idleSince := none, recH := t.h, recClass := t.hclass, recReq := t.req, req := none, h := 0, hclass := 0,
      notices := [] }))
  else .next s

/-- `GATING_HOLD_END` of tile `unit` (R67): 20 µs after gating. -/
def execGatingHoldEnd (s : State) : Out :=
  let t := s.tileOf s.arg.unit
  if t.pwr = 1 ∧ t.gatedAt + 20000 ≤ s.rtime then .next (s.updTile s.arg.unit (fun t => { t with pwr := 2 })) else .next s

/-- TILEPWR of a tile as it reads (R67). -/
def Tile.tilepwr (t : Tile) : Nat := t.pwr * 2 ^ 5 + t.rail * 2 ^ 3 + (match t.wake with | some (c, _) => c | none => 0)

/-- A write of TILEPWR (R67). -/
def State.tilepwrWrite (s : State) (t v : Nat) : State := if bitAt v 2 then s.queueWake t 1 else s

/-- `TILEPWR_WAKE_WRITE`: TILEPWR of tile `unit` takes `value` (R67). -/
def execTilepwrWakeWrite (s : State) : Out := .next (s.tilepwrWrite s.arg.unit s.arg.value)

/-- A wake request has waited 200 µs below class E3. -/
def State.promotionDue (s : State) (t : Nat) : Bool := match (s.tileOf t).wake with
  | some (_, e) => (s.tileOf t).promoted.isNone && decide (e + 200000 ≤ s.rtime)
  | none => false

/-- `WAKE_PROMOTION` of tile `unit` (R67): the request has class E3 from now on. -/
def execWakePromotion (s : State) : Out :=
  if s.promotionDue s.arg.unit then
    .next (s.updTile s.arg.unit (fun t => { t with promoted := some s.rtime, wake := t.wake.map (fun w => (3, w.2)) }))
  else .next s

/-- The class and age by which a queued wake stands: age counts from its entry into the queue (R67). -/
def Tile.wakeRank (t : Tile) : Nat × Nat := t.wake.getD (0, 0)

/-- A wake of a tile would lower its field's ceiling below the clock (R23, R71). -/
def State.wakeBreaksCeiling (s : State) (t : Nat) : Bool := ceilingOf (s.railLow (s.tileOf t).rail) < (s.hubOf (fieldOfTile t)).curn

/-- The head of a field's wake queue; a request refused under the ceiling stands aside until the ceiling allows it. -/
def State.wakeHead (s : State) (f : Nat) : Option Nat :=
  let q := s.tiles.filter (fun e => fieldOfTile e.1 = f && e.2.wake.isSome && !(e.2.wakeRefused && s.wakeBreaksCeiling e.1))
  match q with
  | [] => none
  | e :: es =>
    some (es.foldl (fun b a =>
      let x := a.2.wakeRank
      let y := b.2.wakeRank
      if x.1 > y.1 ∨ (x.1 = y.1 ∧ x.2 < y.2) then a else b) e).1

/-- In-rush slots of a field in use (R67). -/
def State.slotsUsed (s : State) (f : Nat) : Nat := (s.tiles.filter (fun e => fieldOfTile e.1 = f && e.2.pwr = 3)).length

/-- PWRCTL of a field as it reads (R67). -/
def State.pwrctl (s : State) (f : Nat) : Nat :=
  s.slotsUsed f * 2 ^ 28 + (s.tiles.filter (fun e => fieldOfTile e.1 = f && e.2.wake.isSome)).length * 2 ^ 16 + (s.hubOf f).idle % 65536

/-- The head wake of a field can start or is to be refused. -/
def State.wakeStartDue (s : State) (f : Nat) : Option Nat :=
  match s.wakeHead f with
  | some t => if (s.tileOf t).pwr = 2 ∧ s.slotsUsed f < 4 then some t else none
  | none => none

/-- `WAKE_START` in field `unit` (R23, R67, R71). -/
def execWakeStart (s : State) : Out :=
  let f := s.arg.unit
  match s.wakeStartDue f with
  | none => .next s
  | some t =>
    if s.wakeBreaksCeiling t then
      .next (((s.updTile t (fun x => { x with wakeRefused := true })).updHub f (fun h => { h with railRefused := true })).reportField f .wakeRefused [])
    else
      .next (s.updTile t (fun x => { x with pwr := 3, wakingTo := s.rtime + 5000, wake := none, promoted := none, wakeRefused := false }))

/-- A waking tile has held its slot for 5 µs. -/
def State.wakeDone (s : State) (t : Nat) : Bool := (s.tileOf t).pwr = 3 && decide ((s.tileOf t).wakingTo ≤ s.rtime)

/-- The request that a wake queues for the recorded holding (R66). Where a request was outstanding at gating, one request stands for both, with the
larger target and the higher class, as R65 has it at a switch-in (DESIGN CHOICE; log 108). -/
def Tile.requeued (t : Tile) (rtime : Nat) : Option PipReq :=
  match t.recReq with
  | some r => some { target := max t.recH r.target, cls := max (if t.recH = 0 then 0 else t.recClass) r.cls, notify := r.notify, age := rtime }
  | none => if t.recH = 0 then t.req else some { target := t.recH, cls := t.recClass, age := rtime }

/-- `WAKE_COMPLETE` of tile `unit` (R66, R67). -/
def execWakeComplete (s : State) : Out :=
  if s.wakeDone s.arg.unit then .next (s.updTile s.arg.unit (fun t => { t with pwr := 0, req := t.requeued s.rtime, recH := 0, recClass := 0, recReq := none }))
  else .next s

end Sys2Proof.Machine
end

