-- ==== Sys2Proof/Machine/Memory.lean ====
section
/-! DEFINITION. Loads, stores, acquire, release, prefetch, fences and `wait`: R308, R312 to R319. -/

namespace Sys2Proof.Machine

/-- A scalar load: the value is extended and written to XD (R314). -/
def State.load (s : State) (xd : BitVec 5) (va size : Nat) (signed : Bool) : Out :=
  s.loadBytes va size size false .load fun v => s.result xd (if signed then sextWord (8 * size) v else BitVec.ofNat 64 v)

/-- A scalar store of the low bytes of XT (R314). -/
def State.store (s : State) (xt : BitVec 5) (va size : Nat) : Out :=
  s.storeBytes va size size ((s.x xt).toNat % 2 ^ (8 * size)) false .store fun s => .next s.fall

/-- The bytes of a vector register (R315). -/
def State.vecBytes (s : State) : Nat := if s.cx.long then 256 else 32

/-- `ld.v`: raw bytes into a vector register; a bound output stream takes the value as an entry (R315). -/
def State.loadVec (s : State) (rt : BitVec 5) (va : Nat) : Out :=
  s.withVecs false [] [rt.toNat] fun _ =>
    s.loadBytes va s.vecBytes 32 true .load fun v => .next (s.setVec rt.toNat v).fall

/-- `st.v`: raw bytes of a vector register; a bound input stream gives its next entry (R315). -/
def State.storeVec (s : State) (rt : BitVec 5) (va : Nat) : Out :=
  s.withVecs false [rt.toNat] [] fun vals =>
    s.storeBytes va s.vecBytes 32 (vals.getD 0 0) true .store fun s => .next (s.popStreams [rt.toNat]).fall

/-- `ld.b` (R314). -/
def execLdB (f : FmtCM) (s : State) : Out := s.slotC (.ldB f) fun s => s.load f.rt (s.addrCM f 1) 1 true

/-- `ld.b`, indexed (R314). -/
def execLdBIndexed (f : FmtCX) (s : State) : Out := s.slotC (.ldBIndexed f) fun s => s.load f.rt (s.addrCX f) 1 true

/-- `ld.bu` (R314). -/
def execLdBu (f : FmtCM) (s : State) : Out := s.slotC (.ldBu f) fun s => s.load f.rt (s.addrCM f 1) 1 false

/-- `ld.bu`, indexed (R314). -/
def execLdBuIndexed (f : FmtCX) (s : State) : Out := s.slotC (.ldBuIndexed f) fun s => s.load f.rt (s.addrCX f) 1 false

/-- `ld.h` (R314). -/
def execLdH (f : FmtCM) (s : State) : Out := s.slotC (.ldH f) fun s => s.load f.rt (s.addrCM f 2) 2 true

/-- `ld.h`, indexed (R314). -/
def execLdHIndexed (f : FmtCX) (s : State) : Out := s.slotC (.ldHIndexed f) fun s => s.load f.rt (s.addrCX f) 2 true

/-- `ld.hu` (R314). -/
def execLdHu (f : FmtCM) (s : State) : Out := s.slotC (.ldHu f) fun s => s.load f.rt (s.addrCM f 2) 2 false

/-- `ld.hu`, indexed (R314). -/
def execLdHuIndexed (f : FmtCX) (s : State) : Out := s.slotC (.ldHuIndexed f) fun s => s.load f.rt (s.addrCX f) 2 false

/-- `ld.w` (R314). -/
def execLdW (f : FmtCM) (s : State) : Out := s.slotC (.ldW f) fun s => s.load f.rt (s.addrCM f 4) 4 true

/-- `ld.w`, indexed (R314). -/
def execLdWIndexed (f : FmtCX) (s : State) : Out := s.slotC (.ldWIndexed f) fun s => s.load f.rt (s.addrCX f) 4 true

/-- `ld.wu` (R314). -/
def execLdWu (f : FmtCM) (s : State) : Out := s.slotC (.ldWu f) fun s => s.load f.rt (s.addrCM f 4) 4 false

/-- `ld.wu`, indexed (R314). -/
def execLdWuIndexed (f : FmtCX) (s : State) : Out := s.slotC (.ldWuIndexed f) fun s => s.load f.rt (s.addrCX f) 4 false

/-- `ld.d` (R314). -/
def execLdD (f : FmtCM) (s : State) : Out := s.slotC (.ldD f) fun s => s.load f.rt (s.addrCM f 8) 8 true

/-- `ld.d`, indexed (R314). -/
def execLdDIndexed (f : FmtCX) (s : State) : Out := s.slotC (.ldDIndexed f) fun s => s.load f.rt (s.addrCX f) 8 true

/-- `st.b` (R314). -/
def execStB (f : FmtCM) (s : State) : Out := s.slotC (.stB f) fun s => s.store f.rt (s.addrCM f 1) 1

/-- `st.b`, indexed (R314). -/
def execStBIndexed (f : FmtCX) (s : State) : Out := s.slotC (.stBIndexed f) fun s => s.store f.rt (s.addrCX f) 1

/-- `st.h` (R314). -/
def execStH (f : FmtCM) (s : State) : Out := s.slotC (.stH f) fun s => s.store f.rt (s.addrCM f 2) 2

/-- `st.h`, indexed (R314). -/
def execStHIndexed (f : FmtCX) (s : State) : Out := s.slotC (.stHIndexed f) fun s => s.store f.rt (s.addrCX f) 2

/-- `st.w` (R314). -/
def execStW (f : FmtCM) (s : State) : Out := s.slotC (.stW f) fun s => s.store f.rt (s.addrCM f 4) 4

/-- `st.w`, indexed (R314). -/
def execStWIndexed (f : FmtCX) (s : State) : Out := s.slotC (.stWIndexed f) fun s => s.store f.rt (s.addrCX f) 4

/-- `st.d` (R314). -/
def execStD (f : FmtCM) (s : State) : Out := s.slotC (.stD f) fun s => s.store f.rt (s.addrCM f 8) 8

/-- `st.d`, indexed (R314). -/
def execStDIndexed (f : FmtCX) (s : State) : Out := s.slotC (.stDIndexed f) fun s => s.store f.rt (s.addrCX f) 8

/-- `ld.v` (R315). -/
def execLdV (f : FmtCM) (s : State) : Out := s.slotC (.ldV f) fun s => s.loadVec f.rt (s.addrCM f 32)

/-- `ld.v`, indexed (R315). -/
def execLdVIndexed (f : FmtCX) (s : State) : Out := s.slotC (.ldVIndexed f) fun s => s.loadVec f.rt (s.addrCX f)

/-- `st.v` (R315). -/
def execStV (f : FmtCM) (s : State) : Out := s.slotC (.stV f) fun s => s.storeVec f.rt (s.addrCM f 32)

/-- `st.v`, indexed (R315). -/
def execStVIndexed (f : FmtCX) (s : State) : Out := s.slotC (.stVIndexed f) fun s => s.storeVec f.rt (s.addrCX f)

/-- The access size of CMS and of the integer atomics (R278). -/
def sizeOfSz (sz : BitVec 1) : Nat := if sz = 1 then 8 else 4

/-- `ld.acq`: the load is performed before any later access, since its context holds for it (R213, R317). -/
def execLdAcq (f : FmtCMS) (s : State) : Out :=
  s.slotC (.ldAcq f) fun s =>
    let n := sizeOfSz f.sz
    s.loadBytes (s.addrCMS f) n n false (.acquire f.sc.toNat) fun v => s.result f.rt (sextWord (8 * n) v)

/-- `st.rel`: it waits for the release conditions, then retires as a store; its record has the scope that it is performed at (R213, R215, R216, R317). -/
def execStRel (f : FmtCMS) (s : State) : Out :=
  s.slotC (.stRel f) fun s =>
    let n := sizeOfSz f.sz
    let va := s.addrCMS f
    match s.checkAccess s.cur va n n .write false with
    | .bad c synd => s.faultC c va synd
    | .wait => .next (s.stallOn 0)
    | .ok g _ =>
      let sc := f.sc.toNat
      if s.unackFull g then .next (s.stallOn 0)
      else s.releaseThen sc (homeScope (s.reachGpa g)) .waitFence fun s' =>
        s'.storeBytes va n n ((s.x f.rt).toNat % 2 ^ (8 * n)) false (.release (max sc (homeScope (s.reachGpa g)))) fun s => .next s.fall

/-- `pf`: the home slice fetches the line of a cached page that may be read; otherwise nothing happens (R318). -/
def execPf (f : FmtCM) (s : State) : Out :=
  s.slotC (.pf f) fun s =>
    let va := (s.addrCM f 128) / 128 * 128
    match s.translate (coreOfCtx s.cur) s.tag va .read with
    | .ok g e =>
      let ls := if e.kind = 0 then s.missesOf [(g, 128)] else []
      .next (if s.missRoom ls then (s.countHome s.tag g ls).startMisses s.tag ls else s).fall
    | _ => .next s.fall

/-- `fence`: it waits for the stores within its scope, then returns FSTAT and clears it (R210, R319). -/
def execFence (f : FmtCF) (s : State) : Out :=
  s.slotC (.fence f) fun s =>
    if s.storesDone f.sc.toNat then
      .next ((s.setX f.xd (BitVec.ofNat 64 s.cx.fstat)).upd Ctx.clearFstat).fall
    else .next (s.stallOn .waitFence)

/-- The firing's messages in the send queues of its core (R308). -/
def State.queuedSends (s : State) : Nat :=
  ((s.core.sendq.map (fun e => (e.2.filter (fun m => m.firing = s.cx.firing)).length)).sum)

/-- The operation slots that the firing's operations hold, running or suspended (R308). -/
def State.slotsHeld (s : State) : Nat :=
  (s.tile.ops.filter (fun e => (e.2.state = 1 || e.2.state = 2) && e.2.firing = s.cx.firing)).length

/-- `wait` (R308): it stalls until a count of outstanding work is at most u(a), and returns the count. -/
def execWait (f : FmtCR) (s : State) : Out :=
  s.slotC (.wait f) fun s =>
    let (n, report) : Nat × Cause := match f.opt.toNat with
      | 0 => (s.cx.unFld + s.cx.unWaf + s.cx.unDom, .waitFence)
      | 1 => (s.slotsHeld, 0)
      | _ => (s.queuedSends, .waitSendq)
    if n ≤ (s.x f.xa).toNat then s.result f.xd (BitVec.ofNat 64 n) else .next (s.stallOn report)

end Sys2Proof.Machine
end

