-- ==== Sys2Proof/Machine/Elements.lean ====
section
/-! DEFINITION. Elements in memory: packing units, blocks, scale bytes and scale planes, and the checks of an access that decodes
by the page format: R120, R125, R246, R254, R255, R258 to R260, R263, R365, R366, R376. -/

namespace Sys2Proof.Machine

/-! ### Access by ranges -/

/-- Continue in the C slot, or fault, or stall. -/
def State.orHalt {α : Type} (s : State) (r : Except Halt α) (k : α → Out) : Out :=
  match r with
  | .error (.bad c a y) => s.faultC c a y
  | .error .wait => .next (s.stallOn 0)
  | .ok v => k v

/-- The bytes of pieces as one number, the first piece lowest. -/
def State.piecesValue (s : State) : List Piece → Nat
  | [] => 0
  | p :: ps => s.ownView p.gpa p.len + 2 ^ (8 * p.len) * s.piecesValue ps

/-- Whether an engine operand can be read now. It is ordered after the context's own stores by acquire, fence and `sem.wt` alone (R220; log 119). -/
def State.piecesWay (s : State) (ps : List Piece) : Except (Option Cause) Unit := s.runsWay (tileOfCtx s.cur) (ps.map (fun p => (p.gpa, p.len)))

/-- An engine instruction with operands in memory takes the cycles c to c + 3 for them: its context issues again no earlier than cycle c + 4 (R414,
which says so of operands in the own local store without conflicts; log 143). -/
def operandCycles : Nat := 4
def State.operandHold (s : State) : State := s.upd (fun c => { c with ready := max c.ready (s.cyc + operandCycles) })

/-- An engine instruction that took effect has read pieces at their homes (R101, R113), and those of a doubles pair are compared (R46). -/
def State.notePieces (ps : List Piece) (o : Out) : Out := match o with
  | .next s =>
    let run := fun (p : Piece) => (p.gpa, p.len)
    if s.cx.st ≠ 0 ∨ s.cx.stall.isSome then .next s
    else .next (((s.operandHold.ownPosts (ps.map run)).noteReads (tileOfCtx s.cur) s.tag ((ps.filter (fun p => p.pte.kind = 0)).map run)).noteReads (tileOfCtx s.cur) s.tag ((ps.filter (fun p => p.pte.kind ≠ 0)).map run) true)
  | o => o

/-- Some line of the pieces is poisoned (R125). -/
def State.piecesPoisoned (s : State) (ps : List Piece) : Bool :=
  ps.any (fun p => s.gpaLocal p.gpa &&
    s.poison.any (fun l => lineOf (gpaKey p.gpa) ≤ l && l ≤ lineOf (gpaKey p.gpa + p.len - 1)))

/-- Pieces can be read now, and hold no poison. -/
def State.piecesOpen (s : State) (ps : List Piece) : Bool := (match s.piecesWay ps with
  | .ok _ => true
  | .error _ => false) && !s.piecesPoisoned ps

/-- The cause of an engine's read that meets poison in pieces (R246), and of any other read (R247). -/
def State.operandCause (s : State) (ps : List Piece) : Cause :=
  if s.latent.any (fun e => ps.any (fun p => s.touches e.1 p.gpa p.len)) then .ueOperand else .linePoison
def State.piecesCause (s : State) (ps : List Piece) : Cause := s.poisonCause (ps.map (fun p => (p.gpa, p.len)))

end Sys2Proof.Machine
end

