-- ==== Sys2Proof/Machine/Scalar.lean ====
section
/-! DEFINITION. The scalar integer instructions of the A slot, and the long immediate: R279, R281, R296 to R299. -/

namespace Sys2Proof.Machine

/-- A signed quotient truncated toward zero, with the corners of R298. -/
def divSigned (a b : Word) : Word := if b = 0 then -1 else wordOf (a.toInt.tdiv b.toInt)

/-- A signed remainder (R298). -/
def remSigned (a b : Word) : Word := if b = 0 then a else wordOf (a.toInt - b.toInt * a.toInt.tdiv b.toInt)

/-- An unsigned quotient (R298). -/
def divUnsigned (a b : Word) : Word := if b = 0 then -1 else BitVec.ofNat 64 (a.toNat / b.toNat)

/-- An unsigned remainder (R298). -/
def remUnsigned (a b : Word) : Word := if b = 0 then a else BitVec.ofNat 64 (a.toNat % b.toNat)

/-- The division forms: `.t` faults on a zero divisor (R298). -/
def State.divide (s : State) (f : FmtAR) (op : Word → Word → Word) : Out :=
  if s.x f.xb = 0 ∧ f.tr = 1 then s.faultA .intDivzero else s.result f.xd (op (s.x f.xa) (s.x f.xb))

/-- Rotate left. -/
def rotlWord (a : Word) (n : Nat) : Word := BitVec.ofNat 64 (rotl64 n a.toNat)

/-- Leading and trailing zeros, and set bits (R297). -/
def countLeading (a : Nat) : Nat := if a = 0 then 64 else 63 - Nat.log2 a
def trailingGo (a : Nat) : Nat → Nat
  | 0 => 0
  | n + 1 => if a % 2 = 1 then 0 else 1 + trailingGo (a / 2) n
def countTrailing (a : Nat) : Nat := trailingGo a 64
def popCount (n a : Nat) : Nat := ((List.range n).map (fun i => a / 2 ^ i % 2)).sum

/-- The eight bytes of a word in reverse order (R297). -/
def byteSwap (a : Word) : Word := BitVec.ofNat 64 (leNat (leBytes 8 a.toNat).reverse)

/-- R276 steps 2 to 5 for a two-operand AR form that does not round. -/
def State.slotBinary (s : State) (f : FmtAR) (k : State → Out) : Out := if arBinary f then k s else s.faultA .reservedField

/-- `nop.a` has no effect (R311). -/
def execNopA (s : State) : Out := s.slotA .nopA fun s => .next s.fall

/-- `add` (R297). -/
def execAdd (f : FmtAR) (s : State) : Out :=
  s.slotA (.add f) fun s => s.result f.xd (s.x f.xa + s.x f.xb)

/-- `sub` (R297). -/
def execSub (f : FmtAR) (s : State) : Out :=
  s.slotA (.sub f) fun s => s.result f.xd (s.x f.xa - s.x f.xb)

/-- `mul` (R297). -/
def execMul (f : FmtAR) (s : State) : Out :=
  s.slotA (.mul f) fun s => s.result f.xd (s.x f.xa * s.x f.xb)

/-- `mulh` (R297). -/
def execMulh (f : FmtAR) (s : State) : Out :=
  s.slotA (.mulh f) fun s => s.result f.xd (wordOf ((s.x f.xa).toInt * (s.x f.xb).toInt / 2 ^ 64))

/-- `mulhu` (R297). -/
def execMulhu (f : FmtAR) (s : State) : Out :=
  s.slotA (.mulhu f) fun s => s.result f.xd (BitVec.ofNat 64 ((s.x f.xa).toNat * (s.x f.xb).toNat / 2 ^ 64))

/-- `div` (R298). -/
def execDiv (f : FmtAR) (s : State) : Out := s.slotA (.div f) fun s => s.divide f divSigned

/-- `divu` (R298). -/
def execDivu (f : FmtAR) (s : State) : Out := s.slotA (.divu f) fun s => s.divide f divUnsigned

/-- `rem` (R298). -/
def execRem (f : FmtAR) (s : State) : Out := s.slotA (.rem f) fun s => s.divide f remSigned

/-- `remu` (R298). -/
def execRemu (f : FmtAR) (s : State) : Out := s.slotA (.remu f) fun s => s.divide f remUnsigned

/-- `and` (R297). -/
def execAnd (f : FmtAR) (s : State) : Out :=
  s.slotA (.and f) fun s => s.result f.xd (s.x f.xa &&& s.x f.xb)

/-- `or` (R297). -/
def execOr (f : FmtAR) (s : State) : Out :=
  s.slotA (.or f) fun s => s.result f.xd (s.x f.xa ||| s.x f.xb)

/-- `xor` (R297). -/
def execXor (f : FmtAR) (s : State) : Out :=
  s.slotA (.xor f) fun s => s.result f.xd (s.x f.xa ^^^ s.x f.xb)

/-- `andn` (R297). -/
def execAndn (f : FmtAR) (s : State) : Out :=
  s.slotA (.andn f) fun s => s.result f.xd (s.x f.xa &&& ~~~(s.x f.xb))

/-- `orn` (R297). -/
def execOrn (f : FmtAR) (s : State) : Out :=
  s.slotA (.orn f) fun s => s.result f.xd (s.x f.xa ||| ~~~(s.x f.xb))

/-- `shl` (R297). -/
def execShl (f : FmtAR) (s : State) : Out :=
  s.slotA (.shl f) fun s => s.result f.xd (s.x f.xa <<< bitsOf (s.x f.xb) 5 0)

/-- `shr` (R297). -/
def execShr (f : FmtAR) (s : State) : Out :=
  s.slotA (.shr f) fun s => s.result f.xd (s.x f.xa >>> bitsOf (s.x f.xb) 5 0)

/-- `sra` (R297). -/
def execSra (f : FmtAR) (s : State) : Out :=
  s.slotA (.sra f) fun s => s.result f.xd ((s.x f.xa).sshiftRight (bitsOf (s.x f.xb) 5 0))

/-- `rol` (R297). -/
def execRol (f : FmtAR) (s : State) : Out :=
  s.slotA (.rol f) fun s => s.result f.xd (rotlWord (s.x f.xa) (bitsOf (s.x f.xb) 5 0))

/-- `min` (R297). -/
def execMin (f : FmtAR) (s : State) : Out :=
  s.slotA (.min f) fun s => s.result f.xd (if (s.x f.xa).toInt ≤ (s.x f.xb).toInt then s.x f.xa else s.x f.xb)

/-- `max` (R297). -/
def execMax (f : FmtAR) (s : State) : Out :=
  s.slotA (.max f) fun s => s.result f.xd (if (s.x f.xa).toInt ≤ (s.x f.xb).toInt then s.x f.xb else s.x f.xa)

/-- `minu` (R297). -/
def execMinu (f : FmtAR) (s : State) : Out :=
  s.slotA (.minu f) fun s => s.result f.xd (if (s.x f.xa).toNat ≤ (s.x f.xb).toNat then s.x f.xa else s.x f.xb)

/-- `maxu` (R297). -/
def execMaxu (f : FmtAR) (s : State) : Out :=
  s.slotA (.maxu f) fun s => s.result f.xd (if (s.x f.xa).toNat ≤ (s.x f.xb).toNat then s.x f.xb else s.x f.xa)

/-- `slt` (R297). -/
def execSlt (f : FmtAR) (s : State) : Out :=
  s.slotBinary f fun s => s.result f.xd (wordOfBool (decide ((s.x f.xa).toInt < (s.x f.xb).toInt)))

/-- `sltu` (R297). -/
def execSltu (f : FmtAR) (s : State) : Out :=
  s.slotBinary f fun s => s.result f.xd (wordOfBool (decide ((s.x f.xa).toNat < (s.x f.xb).toNat)))

/-- `seq` (R297). -/
def execSeq (f : FmtAR) (s : State) : Out :=
  s.slotBinary f fun s => s.result f.xd (wordOfBool (decide (s.x f.xa = s.x f.xb)))

/-- `sel` (R297). -/
def execSel (f : FmtAR) (s : State) : Out :=
  s.slotA (.sel f) fun s => s.result f.xd (if s.x f.xc = 0 then s.x f.xb else s.x f.xa)

/-- `clz` (R297). -/
def execClz (f : FmtAR) (s : State) : Out :=
  s.slotA (.clz f) fun s => s.result f.xd (BitVec.ofNat 64 (countLeading (s.x f.xa).toNat))

/-- `ctz` (R297). -/
def execCtz (f : FmtAR) (s : State) : Out :=
  s.slotA (.ctz f) fun s => s.result f.xd (BitVec.ofNat 64 (countTrailing (s.x f.xa).toNat))

/-- `popc` (R297). -/
def execPopc (f : FmtAR) (s : State) : Out :=
  s.slotA (.popc f) fun s => s.result f.xd (BitVec.ofNat 64 (popCount 64 (s.x f.xa).toNat))

/-- `bswap` (R297). -/
def execBswap (f : FmtAR) (s : State) : Out :=
  s.slotA (.bswap f) fun s => s.result f.xd (byteSwap (s.x f.xa))

/-- `sext.b` (R297). -/
def execSextB (f : FmtAR) (s : State) : Out :=
  s.slotA (.sextB f) fun s => s.result f.xd (sextWord 8 (s.x f.xa).toNat)

/-- `sext.h` (R297). -/
def execSextH (f : FmtAR) (s : State) : Out :=
  s.slotA (.sextH f) fun s => s.result f.xd (sextWord 16 (s.x f.xa).toNat)

/-- `sext.w` (R297). -/
def execSextW (f : FmtAR) (s : State) : Out :=
  s.slotA (.sextW f) fun s => s.result f.xd (sextWord 32 (s.x f.xa).toNat)

/-- `zext.b` (R297). -/
def execZextB (f : FmtAR) (s : State) : Out :=
  s.slotA (.zextB f) fun s => s.result f.xd ((s.x f.xa) &&& 0xFF)

/-- `zext.h` (R297). -/
def execZextH (f : FmtAR) (s : State) : Out :=
  s.slotA (.zextH f) fun s => s.result f.xd ((s.x f.xa) &&& 0xFFFF)

/-- `zext.w` (R297). -/
def execZextW (f : FmtAR) (s : State) : Out :=
  s.slotA (.zextW f) fun s => s.result f.xd ((s.x f.xa) &&& 0xFFFFFFFF)

/-- `addi` (R299). -/
def execAddi (f : FmtAI) (s : State) : Out := s.slotA (.addi f) fun s => s.result f.xd (s.x f.xa + f.imm.signExtend 64)

/-- `andi` (R299). -/
def execAndi (f : FmtAI) (s : State) : Out := s.slotA (.andi f) fun s => s.result f.xd (s.x f.xa &&& f.imm.setWidth 64)

/-- `ori` (R299). -/
def execOri (f : FmtAI) (s : State) : Out := s.slotA (.ori f) fun s => s.result f.xd (s.x f.xa ||| f.imm.setWidth 64)

/-- `xori` (R299). -/
def execXori (f : FmtAI) (s : State) : Out := s.slotA (.xori f) fun s => s.result f.xd (s.x f.xa ^^^ f.imm.setWidth 64)

/-- `shli` (R299). -/
def execShli (f : FmtAI) (s : State) : Out := s.slotA (.shli f) fun s => s.result f.xd (s.x f.xa <<< f.imm.toNat)

/-- `shri` (R299). -/
def execShri (f : FmtAI) (s : State) : Out := s.slotA (.shri f) fun s => s.result f.xd (s.x f.xa >>> f.imm.toNat)

/-- `srai` (R299). -/
def execSrai (f : FmtAI) (s : State) : Out := s.slotA (.srai f) fun s => s.result f.xd ((s.x f.xa).sshiftRight f.imm.toNat)

/-- `li` (R279). -/
def execLi (f : FmtAL) (s : State) : Out := s.slotA (.li f) fun s => s.result f.xd (f.imm.signExtend 64)

/-- `lih`: the immediate above the low 13 bits of XD, as a signed 32-bit number (R279). -/
def execLih (f : FmtAL) (s : State) : Out :=
  s.slotA (.lih f) fun s => s.result f.xd ((f.imm ++ (s.x f.xd).extractLsb' 0 13 : BitVec 32).signExtend 64)

/-- `li.d` (R281). -/
def execLiD (f : FmtWL) (s : State) : Out :=
  s.slotC (.liD f) fun s => s.result f.xd ((f.immh ++ f.imml : BitVec 48).signExtend 64)

/-- `li.d.hi`: the immediate above the low 48 bits of XD (R281). -/
def execLiDHi (f : FmtWL) (s : State) : Out :=
  s.slotC (.liDHi f) fun s => s.result f.xd (f.imml.extractLsb' 0 16 ++ (s.x f.xd).extractLsb' 0 48)

end Sys2Proof.Machine
end

