-- ==== Sys2Proof/Machine/Float.lean ====
section
/-! DEFINITION. The scalar floating-point instructions: R300 to R302. FP32 values are in the low 32 bits of a register, BF16
values in the low 16. -/

namespace Sys2Proof.Machine

/-- The number in the low bits of a register. -/
def FloatFmt.ofReg (F : FloatFmt) (v : Word) : XNum := F.decode (v.toNat % 2 ^ (1 + F.e + F.m))

/-- Round a result into XD: under SR one draw is made, and a zero generator faults (R267, R300). -/
def State.roundResult (s : State) (F : FloatFmt) (xd : BitVec 5) (rm : RoundMode) (v : XNum) : Out :=
  if rm = .sr then
    if s.seed = 0 then s.faultA .srSeed
    else
      let t := srNext s.seed
      (s.setSeed t).result xd (BitVec.ofNat 64 (F.round v rm (srValue t)))
  else s.result xd (BitVec.ofNat 64 (F.round v rm))

/-- The operands of a form in a format. -/
def State.fa (s : State) (F : FloatFmt) (f : FmtAR) : XNum := F.ofReg (s.x f.xa)
def State.fb (s : State) (F : FloatFmt) (f : FmtAR) : XNum := F.ofReg (s.x f.xb)
def State.fc (s : State) (F : FloatFmt) (f : FmtAR) : XNum := F.ofReg (s.x f.xc)

/-- `fadd` (R301). -/
def State.floatAdd (s : State) (F : FloatFmt) (f : FmtAR) : Out :=
  let rm := s.roundMode f.rm
  s.roundResult F f.xd rm (XNum.add (rm = .rdn) (s.fa F f) (s.fb F f))
/-- `fsub` (R301). -/
def State.floatSub (s : State) (F : FloatFmt) (f : FmtAR) : Out :=
  let rm := s.roundMode f.rm
  s.roundResult F f.xd rm (XNum.add (rm = .rdn) (s.fa F f) (s.fb F f).neg)
/-- `fmul` (R301). -/
def State.floatMul (s : State) (F : FloatFmt) (f : FmtAR) : Out :=
  s.roundResult F f.xd (s.roundMode f.rm) (XNum.mul (s.fa F f) (s.fb F f))
/-- `fma`: one rounding (R301). -/
def State.floatFma (s : State) (F : FloatFmt) (f : FmtAR) : Out :=
  let rm := s.roundMode f.rm
  s.roundResult F f.xd rm (XNum.add (rm = .rdn) (XNum.mul (s.fa F f) (s.fb F f)) (s.fc F f))

/-- A result that is one of two exact operands: no rounding takes place. -/
def State.floatPick (s : State) (F : FloatFmt) (f : FmtAR) (op : XNum → XNum → XNum) : Out :=
  s.result f.xd (BitVec.ofNat 64 (F.round (op (s.fa F f) (s.fb F f)) .rne))

/-- A comparison, written as an integer (R301). -/
def State.floatTest (s : State) (F : FloatFmt) (f : FmtAR) (op : XNum → XNum → Bool) : Out :=
  s.result f.xd (wordOfBool (op (s.fa F f) (s.fb F f)))

/-- a <= b. -/
def XNum.le (a b : XNum) : Bool := XNum.lt a b || XNum.eq a b

/-- `fsgnj`: the bits of a with the sign bit of b (R301). -/
def signInject (F : FloatFmt) (a b : Word) : Word :=
  let n := F.e + F.m
  BitVec.ofNat 64 (a.toNat % 2 ^ n + bitsAt b.toNat n n * 2 ^ n)

/-- The class of a code (R302): the bit number of the mask. -/
def classBit (F : FloatFmt) (c : Nat) : Nat :=
  let neg := bitAt c (F.e + F.m)
  match F.decode (c % 2 ^ (1 + F.e + F.m)) with
  | .nan => if bitAt c (F.m - 1) then 9 else 8
  | .inf n => if n then 0 else 7
  | .fin n m _ =>
    if m = 0 then (if neg then 3 else 4)
    else if m < 2 ^ F.m then (if n then 2 else 5)
    else if n then 1 else 6

/-- `fclass` (R302). -/
def State.floatClass (s : State) (F : FloatFmt) (f : FmtAR) : Out :=
  s.result f.xd (BitVec.ofNat 64 (2 ^ classBit F (s.x f.xa).toNat))

/-- `fadd.s` (R301). -/
def execFaddS (f : FmtAR) (s : State) : Out := s.slotA (.faddS f) fun s => s.floatAdd fp32 f

/-- `fsub.s` (R301). -/
def execFsubS (f : FmtAR) (s : State) : Out := s.slotA (.fsubS f) fun s => s.floatSub fp32 f

/-- `fmul.s` (R301). -/
def execFmulS (f : FmtAR) (s : State) : Out := s.slotA (.fmulS f) fun s => s.floatMul fp32 f

/-- `fma.s` (R301). -/
def execFmaS (f : FmtAR) (s : State) : Out := s.slotA (.fmaS f) fun s => s.floatFma fp32 f

/-- `fmin.s` (R268, R301). -/
def execFminS (f : FmtAR) (s : State) : Out := s.slotA (.fminS f) fun s => s.floatPick fp32 f XNum.minNum

/-- `fmax.s` (R268, R301). -/
def execFmaxS (f : FmtAR) (s : State) : Out := s.slotA (.fmaxS f) fun s => s.floatPick fp32 f XNum.maxNum

/-- `feq.s` (R301). -/
def execFeqS (f : FmtAR) (s : State) : Out := s.slotA (.feqS f) fun s => s.floatTest fp32 f XNum.eq

/-- `flt.s` (R301). -/
def execFltS (f : FmtAR) (s : State) : Out := s.slotA (.fltS f) fun s => s.floatTest fp32 f XNum.lt

/-- `fle.s` (R301). -/
def execFleS (f : FmtAR) (s : State) : Out := s.slotA (.fleS f) fun s => s.floatTest fp32 f XNum.le

/-- `fsgnj.s` (R301). -/
def execFsgnjS (f : FmtAR) (s : State) : Out :=
  s.slotA (.fsgnjS f) fun s => s.result f.xd (signInject fp32 (s.x f.xa) (s.x f.xb))

/-- `fclass.s` (R302). -/
def execFclassS (f : FmtAR) (s : State) : Out := s.slotA (.fclassS f) fun s => s.floatClass fp32 f

/-- `fadd.h` (R301). -/
def execFaddH (f : FmtAR) (s : State) : Out := s.slotA (.faddH f) fun s => s.floatAdd bf16 f

/-- `fsub.h` (R301). -/
def execFsubH (f : FmtAR) (s : State) : Out := s.slotA (.fsubH f) fun s => s.floatSub bf16 f

/-- `fmul.h` (R301). -/
def execFmulH (f : FmtAR) (s : State) : Out := s.slotA (.fmulH f) fun s => s.floatMul bf16 f

/-- `fma.h` (R301). -/
def execFmaH (f : FmtAR) (s : State) : Out := s.slotA (.fmaH f) fun s => s.floatFma bf16 f

/-- `fmin.h` (R268, R301). -/
def execFminH (f : FmtAR) (s : State) : Out := s.slotBinary f fun s => s.floatPick bf16 f XNum.minNum

/-- `fmax.h` (R268, R301). -/
def execFmaxH (f : FmtAR) (s : State) : Out := s.slotBinary f fun s => s.floatPick bf16 f XNum.maxNum

/-- `feq.h` (R301). -/
def execFeqH (f : FmtAR) (s : State) : Out := s.slotBinary f fun s => s.floatTest bf16 f XNum.eq

/-- `flt.h` (R301). -/
def execFltH (f : FmtAR) (s : State) : Out := s.slotBinary f fun s => s.floatTest bf16 f XNum.lt

/-- `fle.h` (R301). -/
def execFleH (f : FmtAR) (s : State) : Out := s.slotBinary f fun s => s.floatTest bf16 f XNum.le

/-- `fsgnj.h` (R301). -/
def execFsgnjH (f : FmtAR) (s : State) : Out :=
  s.slotBinary f fun s => s.result f.xd (signInject bf16 (s.x f.xa) (s.x f.xb))

/-- `fclass.h` (R302). -/
def execFclassH (f : FmtAR) (s : State) : Out := s.slotA (.fclassH f) fun s => s.floatClass bf16 f

/-- `fcvt.s.w`: a signed 32-bit integer to FP32 (R301). -/
def execFcvtSW (f : FmtAR) (s : State) : Out :=
  s.slotA (.fcvtSW f) fun s => s.roundResult fp32 f.xd (s.roundMode f.rm) (.ofInt (sextNat 32 (s.x f.xa).toNat))

/-- `fcvt.w.s`: FP32 to a signed 32-bit integer; SR is not offered, and `.t` faults out of range (R300, R301). -/
def execFcvtWS (f : FmtAR) (s : State) : Out :=
  s.slotA (.fcvtWS f) fun s =>
    let rm := s.roundMode f.rm
    let a := s.fa fp32 f
    if rm = .sr then s.faultA .rmUnsupported
    else if f.tr = 1 ∧ intOverflows a 32 rm then s.faultA .cvtOverflow
    else s.result f.xd (wordOf (roundInt a 32 rm))

/-- `fcvt.s.h`: BF16 to FP32, exact (R301). -/
def execFcvtSH (f : FmtAR) (s : State) : Out :=
  s.slotA (.fcvtSH f) fun s => s.result f.xd (BitVec.ofNat 64 (fp32.round (s.fa bf16 f) .rne))

/-- `fcvt.h.s`: FP32 to BF16 (R301). -/
def execFcvtHS (f : FmtAR) (s : State) : Out :=
  s.slotA (.fcvtHS f) fun s => s.roundResult bf16 f.xd (s.roundMode f.rm) (s.fa fp32 f)

end Sys2Proof.Machine
end

