-- ==== Sys2Proof/Machine/Vector.lean ====
section
/-! DEFINITION. The A-slot vector instructions, in short and long mode: R347 to R364, R369. Lanes are codes of b bits. -/

namespace Sys2Proof.Machine

/-- Compute the lanes of a result in ascending order. A lane that is off keeps its old code and draws nothing; under SR every
other lane draws once (R267, R348). The first lane that faults decides (R369). -/
def runLanes (sr : Bool) (on : Nat → Bool) (old : Nat → Nat) (g : Nat → Nat → Except Cause Nat) : List Nat → Nat → Except Cause (List Nat × Nat)
  | [], seed => .ok ([], seed)
  | i :: is, seed =>
    if on i then
      let seed' := if sr then srNext seed else seed
      match g i (srValue seed') with
      | .error c => .error c
      | .ok v => match runLanes sr on old g is seed' with
        | .error c => .error c
        | .ok (vs, t) => .ok (v :: vs, t)
    else match runLanes sr on old g is seed with
      | .error c => .error c
      | .ok (vs, t) => .ok (old i :: vs, t)

/-- A register's own bits, bound to a stream or not: what the lanes of a destination that are off keep (log 14). -/
def State.ownVec (s : State) (r : Nat) : Nat := if s.cx.long then s.eng.longReg r else (s.cx.v.get 0 r).toNat

/-- A lane-wise instruction: source registers `ins`, destination VD of lane type `t`, lane function `g` of the lane number, the
source registers' values and the draw. A paired form treats the next registers in the same way (R352). -/
def State.lanewise (s : State) (vd : Nat) (ins : List Nat) (t : BitVec 2) (pair sr : Bool) (on : Nat → Bool)
    (g : Nat → List Nat → Nat → Except Cause Nat) : Out :=
  let b := laneBits t
  let n := lanesOf s.cx.long t
  s.withVecs true ins [vd] fun vals =>
    if sr && s.seed = 0 && (List.range n).any on then s.faultA .srSeed
    else match runLanes sr on (laneAt b (s.ownVec vd)) (fun i r => g i vals r) (List.range n) s.seed with
      | .error c => s.faultA c
      | .ok (ls, seed) =>
        if pair then
          match gatherReads ((ins.map (· + 1)).map s.vecIn) with
          | .error _ => s.faultA .streamDir
          | .ok vals' =>
            match runLanes sr on (laneAt b (s.ownVec (vd + 1))) (fun i r => g i vals' r) (List.range n) seed with
            | .error c => s.faultA c
            | .ok (ls', seed') =>
              .next ((((s.popStreams ins).setSeed seed').setVec vd (packLanes b ls)).setVec (vd + 1) (packLanes b ls')).fall
        else .next (((s.popStreams ins).setSeed seed).setVec vd (packLanes b ls)).fall

/-- The integer rule of R354 for an exact result: wrap, or saturate with S, unsigned with U, trapping with TR. -/
def satLane (b : Nat) (mod : BitVec 3) (r : Int) : Except Cause Nat :=
  if mod.toNat % 2 = 0 then .ok (wrapInt b r)
  else
    let u := mod.toNat / 2 % 2 = 1
    let lo : Int := if u then 0 else -2 ^ (b - 1)
    let hi : Int := if u then 2 ^ b - 1 else 2 ^ (b - 1) - 1
    if r < lo ∨ r > hi then
      (if mod.toNat / 4 = 1 then .error .vecSat else .ok (wrapInt b (if r < lo then lo else hi)))
    else .ok (wrapInt b r)

/-- An integer lane read as signed, or unsigned when U is set (R354). -/
def intLane (b : Nat) (mod : BitVec 3) (v : Nat) : Int := if mod.toNat / 2 % 2 = 1 then (v : Int) else sextNat b v

/-- The lane arithmetic of R353 on lanes a, b and d: float operands as numbers, integer operands as integers. -/
def arithLane (t : BitVec 2) (mod : BitVec 3) (rm : RoundMode) (fop : Bool → XNum → XNum → XNum → XNum) (iop : Int → Int → Int → Int)
    (a b d r : Nat) : Except Cause Nat :=
  if floatLane t then
    let F := laneFmt t
    .ok (F.round (fop (rm = .rdn) (F.decode a) (F.decode b) (F.decode d)) rm r)
  else
    let w := laneBits t
    satLane w mod (iop (intLane w mod a) (intLane w mod b) (intLane w mod d))

/-- `vadd`, `vsub`, `vmul`, `vfma`: exact results on floats and integers. -/
def addF (down : Bool) (a b _d : XNum) : XNum := XNum.add down a b
def subF (down : Bool) (a b _d : XNum) : XNum := XNum.add down a b.neg
def mulF (_down : Bool) (a b _d : XNum) : XNum := XNum.mul a b
def fmaF (down : Bool) (a b d : XNum) : XNum := XNum.add down (XNum.mul a b) d
def addI (a b _d : Int) : Int := a + b
def subI (a b _d : Int) : Int := a - b
def mulI (a b _d : Int) : Int := a * b
def fmaI (a b d : Int) : Int := a * b + d

/-- The AV form of lane arithmetic (R349, R352 to R354). -/
def State.vecArith (s : State) (f : FmtAV) (acc : Bool) (fop : Bool → XNum → XNum → XNum → XNum) (iop : Int → Int → Int → Int) : Out :=
  s.vecIssue fun s =>
    let rm := s.roundMode f.mod
    let b := laneBits f.t
    let ins := [f.va.toNat, f.vb.toNat] ++ (if acc then [f.vd.toNat] else [])
    s.lanewise f.vd.toNat ins f.t (f.sub = 1) (floatLane f.t && rm = .sr) (s.laneOn f.me f.km (lanesOf s.cx.long f.t))
      (fun i l r => arithLane f.t f.mod rm fop iop (laneAt b (l.getD 0 0) i) (laneAt b (l.getD 1 0) i) (laneAt b (l.getD 2 0) i) r)

/-- The AVX form: every lane of the second source is the low bits of XB (R350). -/
def State.vecArithX (s : State) (f : FmtAVX) (acc : Bool) (fop : Bool → XNum → XNum → XNum → XNum) (iop : Int → Int → Int → Int) : Out :=
  s.vecIssue fun s =>
    let rm := s.roundMode f.mod
    let b := laneBits f.t
    let y := (s.x f.xb).toNat % 2 ^ b
    let ins := [f.va.toNat] ++ (if acc then [f.vd.toNat] else [])
    s.lanewise f.vd.toNat ins f.t (f.sub = 1) (floatLane f.t && rm = .sr) (s.laneOn f.me f.km (lanesOf s.cx.long f.t))
      (fun i l r => arithLane f.t f.mod rm fop iop (laneAt b (l.getD 0 0) i) y (laneAt b (l.getD 1 0) i) r)

/-- A lane function of two sources that neither rounds nor faults, in the AV form. -/
def State.vecBits (s : State) (f : FmtAV) (g : Nat → Nat → Nat) : Out :=
  s.vecIssue fun s =>
    let b := laneBits f.t
    s.lanewise f.vd.toNat [f.va.toNat, f.vb.toNat] f.t false false (s.laneOn f.me f.km (lanesOf s.cx.long f.t))
      (fun i l _ => .ok (g (laneAt b (l.getD 0 0) i) (laneAt b (l.getD 1 0) i)))

/-- The same in the AVX form with the second source given for every lane. -/
def State.vecBitsX (s : State) (f : FmtAVX) (y : Nat) (g : Nat → Nat → Nat) : Out :=
  s.vecIssue fun s =>
    let b := laneBits f.t
    s.lanewise f.vd.toNat [f.va.toNat] f.t false false (s.laneOn f.me f.km (lanesOf s.cx.long f.t))
      (fun i l _ => .ok (g (laneAt b (l.getD 0 0) i) y))

/-- The broadcast of XB to lanes of type T (R350). -/
def State.bcast (s : State) (xb : BitVec 5) (t : BitVec 2) : Nat := (s.x xb).toNat % 2 ^ laneBits t

/-- A lane function of one source, once the instruction has issued. -/
def State.vecUnaryRaw (s : State) (f : FmtAV) (g : Nat → Except Cause Nat) : Out :=
  let b := laneBits f.t
  s.lanewise f.vd.toNat [f.va.toNat] f.t false false (s.laneOn f.me f.km (lanesOf s.cx.long f.t))
    (fun i l _ => g (laneAt b (l.getD 0 0) i))

/-- A lane function of one source. -/
def State.vecUnary (s : State) (f : FmtAV) (g : Nat → Except Cause Nat) : Out := s.vecIssue fun s => s.vecUnaryRaw f g

/-- Minimum and maximum lanes: floats by R268, integers signed or with U unsigned (R353). -/
def minMaxLane (t : BitVec 2) (mod : BitVec 3) (wantMax : Bool) (a b : Nat) : Nat :=
  if floatLane t then
    let F := laneFmt t
    F.round ((if wantMax then XNum.maxNum else XNum.minNum) (F.decode a) (F.decode b)) .rne
  else
    let w := laneBits t
    let less := decide (intLane w mod a ≤ intLane w mod b)
    if less != wantMax then a else b

/-- Shifts of R356: `n` at or above the width shifts everything out. -/
def shlLane (b a n : Nat) : Nat := if n ≥ b then 0 else a * 2 ^ n % 2 ^ b
def shrLane (b a n : Nat) : Nat := if n ≥ b then 0 else a / 2 ^ n
def sraLane (b a n : Nat) : Nat := wrapInt b (sextNat b a / 2 ^ min n b)

/-- `vdot4` on one lane (R357). -/
def dot4Lane (mod : BitVec 3) (a b d : Nat) : Nat :=
  let byteOf (u : Bool) (v j : Nat) : Int := if u then (laneAt 8 v j : Int) else sextNat 8 (laneAt 8 v j)
  let ua := mod.toNat / 2 % 2 = 1
  let ub := mod.toNat / 4 % 2 = 1
  let r : Int := sextNat 32 d + ((List.range 4).map (fun j => byteOf ua a j * byteOf ub b j)).sum
  wrapInt 32 (if mod.toNat % 2 = 1 then min (2 ^ 31 - 1) (max (-2 ^ 31) r) else r)

/-- The conditions of R358. -/
def condLane (t : BitVec 2) (c : Nat) (a b : Nat) : Bool :=
  if floatLane t then
    let F := laneFmt t
    let x := F.decode a
    let y := F.decode b
    match c with
    | 0 => XNum.eq x y
    | 1 => !XNum.eq x y
    | 2 => XNum.lt x y
    | 3 => XNum.le x y
    | 4 => XNum.lt y x
    | _ => XNum.le y x
  else
    let w := laneBits t
    let x := sextNat w a
    let y := sextNat w b
    match c with
    | 0 => a = b
    | 1 => a ≠ b
    | 2 => x < y
    | 3 => x ≤ y
    | 4 => x > y
    | 5 => x ≥ y
    | 6 => a < b
    | _ => a ≤ b

/-- `vcmp` into mask register KD: bit i is 1 where lane i is enabled and the condition holds (R358). -/
def State.vecCompare (s : State) (kd : BitVec 4) (ins : List Nat) (t : BitVec 2) (me : BitVec 1) (km : BitVec 3) (test : Nat → List Nat → Bool) : Out :=
  s.vecIssue fun s =>
    let n := lanesOf s.cx.long t
    s.withVecs true ins [] fun vals =>
      let bits := (List.range n).map (fun i => if s.laneOn me km n i && test i vals then 1 else 0)
      .next ((s.popStreams ins).setK (kd.toNat % 8) (BitVec.ofNat 64 (packLanes 1 bits))).fall


/-- `vadd` (R353, R354). -/
def execVadd (f : FmtAV) (s : State) : Out :=
  s.slotA (.vadd f) fun s => s.vecArith f false addF addI

/-- `vsub` (R353, R354). -/
def execVsub (f : FmtAV) (s : State) : Out :=
  s.slotA (.vsub f) fun s => s.vecArith f false subF subI

/-- `vmul` (R353, R354). -/
def execVmul (f : FmtAV) (s : State) : Out :=
  s.slotA (.vmul f) fun s => s.vecArith f false mulF mulI

/-- `vfma` (R353, R354). -/
def execVfma (f : FmtAV) (s : State) : Out :=
  s.slotA (.vfma f) fun s => s.vecArith f true fmaF fmaI

/-- `vmin` (R353). -/
def execVmin (f : FmtAV) (s : State) : Out :=
  s.slotA (.vmin f) fun s => s.vecBits f (minMaxLane f.t f.mod false)

/-- `vmax` (R353). -/
def execVmax (f : FmtAV) (s : State) : Out :=
  s.slotA (.vmax f) fun s => s.vecBits f (minMaxLane f.t f.mod true)

/-- `vabs`: float lanes clear the sign bit (R354). -/
def execVabs (f : FmtAV) (s : State) : Out :=
  s.slotA (.vabs f) fun s => 
    let b := laneBits f.t
    s.vecUnary f (fun a => if floatLane f.t then .ok (a % 2 ^ (b - 1)) else satLane b f.mod (sextNat b a).natAbs)

/-- `vneg`: float lanes flip the sign bit (R354). -/
def execVneg (f : FmtAV) (s : State) : Out :=
  s.slotA (.vneg f) fun s => 
    let b := laneBits f.t
    s.vecUnary f (fun a => if floatLane f.t then .ok ((a + 2 ^ (b - 1)) % 2 ^ b) else satLane b f.mod (-sextNat b a))

/-- `vand` (R356). -/
def execVand (f : FmtAV) (s : State) : Out :=
  s.slotA (.vand f) fun s => s.vecBits f (fun a b => a &&& b)

/-- `vor` (R356). -/
def execVor (f : FmtAV) (s : State) : Out :=
  s.slotA (.vor f) fun s => s.vecBits f (fun a b => a ||| b)

/-- `vxor` (R356). -/
def execVxor (f : FmtAV) (s : State) : Out :=
  s.slotA (.vxor f) fun s => s.vecBits f (fun a b => a ^^^ b)

/-- `vshl` (R356). -/
def execVshl (f : FmtAV) (s : State) : Out :=
  s.slotA (.vshl f) fun s => s.vecBits f (shlLane (laneBits f.t))

/-- `vshr` (R356). -/
def execVshr (f : FmtAV) (s : State) : Out :=
  s.slotA (.vshr f) fun s => s.vecBits f (shrLane (laneBits f.t))

/-- `vsra` (R356). -/
def execVsra (f : FmtAV) (s : State) : Out :=
  s.slotA (.vsra f) fun s => s.vecBits f (sraLane (laneBits f.t))

/-- `vcmp` (R358). -/
def execVcmp (f : FmtAV) (s : State) : Out :=
  s.slotA (.vcmp f) fun s => 
    let b := laneBits f.t
    s.vecCompare f.vd [f.va.toNat, f.vb.toNat] f.t f.me f.km
      (fun i l => condLane f.t f.mod.toNat (laneAt b (l.getD 0 0) i) (laneAt b (l.getD 1 0) i))

/-- `vsel`: lanes that are off come from VB (R359). -/
def execVsel (f : FmtAV) (s : State) : Out :=
  s.slotA (.vsel f) fun s => s.vecIssue fun s =>
    let b := laneBits f.t
    let on := s.laneOn f.me f.km (lanesOf s.cx.long f.t)
    s.lanewise f.vd.toNat [f.va.toNat, f.vb.toNat] f.t false false (fun _ => true)
      (fun i l _ => .ok (laneAt b (if on i then l.getD 0 0 else l.getD 1 0) i))

/-- `vadd` with a scalar second operand (R350, R353). -/
def execVaddScalar (f : FmtAVX) (s : State) : Out :=
  s.slotA (.vaddScalar f) fun s => s.vecArithX f false addF addI

/-- `vsub` with a scalar second operand (R350, R353). -/
def execVsubScalar (f : FmtAVX) (s : State) : Out :=
  s.slotA (.vsubScalar f) fun s => s.vecArithX f false subF subI

/-- `vmul` with a scalar second operand (R350, R353). -/
def execVmulScalar (f : FmtAVX) (s : State) : Out :=
  s.slotA (.vmulScalar f) fun s => s.vecArithX f false mulF mulI

/-- `vfma` with a scalar second operand (R350, R353). -/
def execVfmaScalar (f : FmtAVX) (s : State) : Out :=
  s.slotA (.vfmaScalar f) fun s => s.vecArithX f true fmaF fmaI

/-- `vmin` with a scalar second operand (R353). -/
def execVminScalar (f : FmtAVX) (s : State) : Out :=
  s.slotA (.vminScalar f) fun s => s.vecBitsX f (s.bcast f.xb f.t) (minMaxLane f.t f.mod false)

/-- `vmax` with a scalar second operand (R353). -/
def execVmaxScalar (f : FmtAVX) (s : State) : Out :=
  s.slotA (.vmaxScalar f) fun s => s.vecBitsX f (s.bcast f.xb f.t) (minMaxLane f.t f.mod true)

/-- `vand` with a scalar second operand (R356). -/
def execVandScalar (f : FmtAVX) (s : State) : Out :=
  s.slotA (.vandScalar f) fun s => s.vecBitsX f (s.bcast f.xb f.t) (fun a b => a &&& b)

/-- `vor` with a scalar second operand (R356). -/
def execVorScalar (f : FmtAVX) (s : State) : Out :=
  s.slotA (.vorScalar f) fun s => s.vecBitsX f (s.bcast f.xb f.t) (fun a b => a ||| b)

/-- `vxor` with a scalar second operand (R356). -/
def execVxorScalar (f : FmtAVX) (s : State) : Out :=
  s.slotA (.vxorScalar f) fun s => s.vecBitsX f (s.bcast f.xb f.t) (fun a b => a ^^^ b)

/-- `vshl` by u(XB) in every lane (R356). -/
def execVshlScalar (f : FmtAVX) (s : State) : Out :=
  s.slotA (.vshlScalar f) fun s => s.vecBitsX f (s.x f.xb).toNat (shlLane (laneBits f.t))

/-- `vshr` by u(XB) in every lane (R356). -/
def execVshrScalar (f : FmtAVX) (s : State) : Out :=
  s.slotA (.vshrScalar f) fun s => s.vecBitsX f (s.x f.xb).toNat (shrLane (laneBits f.t))

/-- `vsra` by u(XB) in every lane (R356). -/
def execVsraScalar (f : FmtAVX) (s : State) : Out :=
  s.slotA (.vsraScalar f) fun s => s.vecBitsX f (s.x f.xb).toNat (sraLane (laneBits f.t))

/-- `vcmp` with a scalar second operand (R358). -/
def execVcmpScalar (f : FmtAVX) (s : State) : Out :=
  s.slotA (.vcmpScalar f) fun s => 
    let b := laneBits f.t
    let y := s.bcast f.xb f.t
    s.vecCompare f.vd [f.va.toNat] f.t f.me f.km (fun i l => condLane f.t f.mod.toNat (laneAt b (l.getD 0 0) i) y)

/-- `vsel` with a scalar second operand (R359). -/
def execVselScalar (f : FmtAVX) (s : State) : Out :=
  s.slotA (.vselScalar f) fun s => s.vecIssue fun s =>
    let b := laneBits f.t
    let y := s.bcast f.xb f.t
    let on := s.laneOn f.me f.km (lanesOf s.cx.long f.t)
    s.lanewise f.vd.toNat [f.va.toNat] f.t false false (fun _ => true)
      (fun i l _ => .ok (if on i then laneAt b (l.getD 0 0) i else y))

/-- `vdot4` (R357). -/
def execVdot4 (f : FmtAV) (s : State) : Out :=
  s.slotA (.vdot4 f) fun s => s.vecIssue fun s =>
    s.lanewise f.vd.toNat [f.va.toNat, f.vb.toNat, f.vd.toNat] f.t false false (s.laneOn f.me f.km (lanesOf s.cx.long f.t))
      (fun i l _ => .ok (dot4Lane f.mod (laneAt 32 (l.getD 0 0) i) (laneAt 32 (l.getD 1 0) i) (laneAt 32 (l.getD 2 0) i)))

/-- R276 steps 2 to 5 for `vdot4` with a scalar second operand. -/
def State.slotDot4 (s : State) (f : FmtAVX) (k : State → Out) : Out :=
  if !(maskField f.me f.km && f.sub = 0) then s.faultA .reservedField
  else if f.t ≠ 3 then s.faultA .typeForm
  else k s

/-- `vdot4` with a scalar second operand (R357). -/
def execVdot4Scalar (f : FmtAVX) (s : State) : Out :=
  s.slotDot4 f fun s => s.vecIssue fun s =>
    let y := s.bcast f.xb f.t
    s.lanewise f.vd.toNat [f.va.toNat, f.vd.toNat] f.t false false (s.laneOn f.me f.km (lanesOf s.cx.long f.t))
      (fun i l _ => .ok (dot4Lane f.mod (laneAt 32 (l.getD 0 0) i) y (laneAt 32 (l.getD 1 0) i)))

/-- `vbcast` (R364). -/
def execVbcast (f : FmtAVX) (s : State) : Out :=
  s.slotA (.vbcast f) fun s => s.vecIssue fun s =>
    let y := s.bcast f.xb f.t
    s.lanewise f.vd.toNat [] f.t false false (s.laneOn f.me f.km (lanesOf s.cx.long f.t)) (fun _ _ _ => .ok y)

/-- `vperm` (R364). -/
def execVperm (f : FmtAV) (s : State) : Out :=
  s.slotA (.vperm f) fun s => s.vecIssue fun s =>
    let b := laneBits f.t
    let n := lanesOf s.cx.long f.t
    s.lanewise f.vd.toNat [f.va.toNat, f.vb.toNat] f.t false false (s.laneOn f.me f.km n)
      (fun i l _ => let m := laneAt b (l.getD 1 0) i; .ok (if m ≥ n then 0 else laneAt b (l.getD 0 0) m))

/-- `vins` (R364). -/
def execVins (f : FmtAVI) (s : State) : Out :=
  s.slotA (.vins f) fun s => s.vecIssue fun s =>
    let b := laneBits f.t
    let y := s.bcast f.xb f.t
    s.lanewise f.vd.toNat [f.va.toNat] f.t false false (fun _ => true)
      (fun i l _ => .ok (if i = f.imm.toNat then y else laneAt b (l.getD 0 0) i))

/-- `vext` (R364): integer lanes are sign-extended, float lanes placed in the low bits. -/
def execVext (f : FmtAVS) (s : State) : Out :=
  s.slotA (.vext f) fun s => s.vecIssue fun s =>
    let b := laneBits f.t
    s.withVecs true [f.va.toNat] [] fun vals =>
      let v := laneAt b (vals.getD 0 0) f.imm.toNat
      (s.popStreams [f.va.toNat]).result f.xd (if floatLane f.t then BitVec.ofNat 64 v else sextWord b v)

/-- `vmov` (R355). -/
def execVmov (f : FmtAV) (s : State) : Out :=
  s.slotA (.vmov f) fun s => s.vecUnary f (fun a => .ok a)

/-- `vpopc` (R355). -/
def execVpopc (f : FmtAV) (s : State) : Out :=
  s.slotA (.vpopc f) fun s => s.vecUnary f (fun a => .ok (popCount (laneBits f.t) a))

end Sys2Proof.Machine
end

