-- ==== Sys2Proof/Machine/TypedMem.lean ====
section
/-! DEFINITION. Typed vector loads and stores: R316, R365 to R369. -/

namespace Sys2Proof.Machine

/-- What a typed load keeps while it holds. -/
def TypedPlan.held (p : TypedPlan) (k : Core) : TypedHold :=
  { fmt := p.fmt, geo := p.geo, dataLen := p.dataLen, nscales := p.nscales, lutlo := k.lutlo, luthi := k.luthi }

/-- The register that a typed load writes, from its bytes as one number (R367). -/
def TypedHold.lanes (h : TypedHold) (t : BitVec 2) (n v : Nat) : Nat :=
  if h.fmt = 0 then v else packLanes (laneBits t) (typedLanes ⟨h.fmt, h.geo, h.dataLen, h.nscales, []⟩ (lutOf h.lutlo h.luthi) t n v)

/-- `ld.vt` at a VA (R367). -/
def State.typedLoad (s : State) (rt : BitVec 5) (t : BitVec 2) (va : Nat) : Out :=
  let n := lanesOf s.cx.long t
  s.withVecs false [] [rt.toNat] fun _ =>
    s.holding va (fun c => accSyndrome c .read 1 0)
      (fun s => s.orHalt (s.typedPlan s.cur va n t s.vecBytes false) fun p =>
        match s.homeRuns (p.pieces.map (fun x => (x.gpa, x.len))) with
        | [] => .next (s.stallOn 0)
        | q :: qs => .next ((s.upd (fun c => { c with typed := p.held s.core })).holdFor { kind := .load, va := va, gpa := q.1, size := q.2, more := qs }))
      (fun v => .next (s.setVec rt.toNat (s.cx.typed.lanes t n v)).fall)

/-- `st.vt` at a VA (R368): its bytes are plain stores. -/
def State.typedStore (s : State) (rt : BitVec 5) (t : BitVec 2) (va : Nat) : Out :=
  let n := lanesOf s.cx.long t
  let rm := RoundMode.ofCode s.cx.rm s.cx.rm
  s.withVecs false [rt.toNat] [] fun vals =>
    s.orHalt (s.typedPlan s.cur va n t s.vecBytes true) fun p =>
      match typedBytes p t rm n s.seed (vals.getD 0 0) with
      | none => s.faultC .srSeed
      | some (v, seed) =>
        let ps := s.homeCuts (p.pieces.map (fun q => (q.va, q.gpa, q.len)))
        if ps.any (fun q => s.unackFull q.2.1) then .next (s.stallOn 0)
        else
          let s1 := s.issuePieces .store ps v
          .next ((s1.popStreams [rt.toNat]).setSeed seed).fall

/-- `ld.vt` (R316, R367). -/
def execLdVt (f : FmtCM) (s : State) : Out :=
  s.slotC (.ldVt f) fun s => s.typedLoad f.rt (f.disp.extractLsb' 12 2) (s.addrCMT f)

/-- `ld.vt`, indexed (R316, R367). -/
def execLdVtIndexed (f : FmtCX) (s : State) : Out := s.slotC (.ldVtIndexed f) fun s => s.typedLoad f.rt f.t (s.addrCX f)

/-- `st.vt` (R316, R368). -/
def execStVt (f : FmtCM) (s : State) : Out :=
  s.slotC (.stVt f) fun s => s.typedStore f.rt (f.disp.extractLsb' 12 2) (s.addrCMT f)

/-- `st.vt`, indexed (R316, R368). -/
def execStVtIndexed (f : FmtCX) (s : State) : Out := s.slotC (.stVtIndexed f) fun s => s.typedStore f.rt f.t (s.addrCX f)

end Sys2Proof.Machine
end

