-- ==== Sys2Proof/Machine/Atlas.lean ====
section
/-! DEFINITION. The defect atlas, the rook and doubles: R30 to R34, R39, R42 to R47, R112, R422. The records of rim nodes stand with hub 0.
An event of the rook names its field in `arg.unit`. -/

namespace Sys2Proof.Machine

/-! ### Records (R30 to R32) -/

/-- The kind, identifier and full capability bits of a node of field f (R30 to R32). -/
def nodeShape (f n : Nat) : Nat × Nat × Nat :=
  let base := 256 + 1442 * f
  if n = 0 then (0x00, 0, 0)
  else if n < 49 then (0x0B, n - 1, 0)
  else if n < 57 then (0x0C, n - 49, 0)
  else if n < 129 then (0x0D, n - 57, 15)
  else if n < 145 then (0x0D, 256 + (n - 129), 15)
  else if n < 177 then (0x0D, 512 + (n - 145), 15)
  else if n < 209 then (0x0E, n - 177, 0)
  else if n < base then (0xFF, 0, 0)
  else if n = base then (0x01, f, 0)
  else if n = base + 1 then (0x02, f, 0)
  else
    let t := tileOfLocal f ((n - base - 2) / 12)
    let id := tileY t * 256 + tileX t
    match (n - base - 2) % 12 with
    | 0 => (0x03, id, 0)
    | 1 => (0x04, id, 0xFF)
    | 2 => (0x04, 65536 + id, 0xFF)
    | 3 => (0x05, id, goodMask (tileKind t))
    | 4 => (0x06, id, 0xFFF)
    | 5 => (0x07, id, 0)
    | 6 => (0x08, id, ((List.range 4).map (fun d => if linkThere t d then 2 ^ d else 0)).sum)
    | 11 => if tileKind t = 0 then (0x0A, 4 * 65536 + id, 8) else (0xFF, 0, 0)
    | k => if linkThere t (k - 7) then (0x09, (k - 7) * 65536 + id, 8) else (0xFF, 0, 0)

/-- A node's record: the one listed, or that of a node that nothing has happened to. -/
def State.atlasRec (s : State) (f n : Nat) : AtlasRec :=
  match (s.hubOf f).atlas.find? n with
  | some r => r
  | none =>
    let (k, id, caps) := nodeShape f n
    { kind := k, id := id, caps := caps, status := s.nodeStatus f n }

/-- The unit of a node: its tile and unit number, if it is a unit of a tile. -/
def unitOfNode (f n : Nat) : Option (Nat × Nat) :=
  let base := 256 + 1442 * f
  if n < base + 3 ∨ (n - base - 2) % 12 = 0 then none else some (tileOfLocal f ((n - base - 2) / 12), (n - base - 2) % 12 - 1)

/-- Write a record of a hub: its generation is that in force, and ATLCNT counts a change of status (R31, R34). -/
def State.putNode (s : State) (f n : Nat) (new : AtlasRec) : State :=
  let same := new.status = (s.atlasRec f n).status
  s.updHub f (fun h => { h with atlas := h.atlas.put n { new with gen := h.rgen }, atlcnt := if same then h.atlcnt else h.atlcnt + 1 })

/-- A node as the rook's list names it: a tile and a unit of it, unit 11 for the tile as a whole; any other node by its index, with unit 12. -/
def testedAs (f n : Nat) : Nat × Nat :=
  let base := 256 + 1442 * f
  if n < base + 2 ∨ base + 1442 ≤ n then (n, 12)
  else if (n - base - 2) % 12 = 0 then (tileOfLocal f ((n - base - 2) / 12), 11) else (unitOfNode f n).getD (n, 12)

/-- The node that the rook's list names. -/
def testedNode (t u : Nat) : Nat := if u = 12 then t else if u = 11 then nodeOfTile t else nodeOfUnit t u

/-- The platform has restored a retired node, and its test is still to come (R34). -/
def Hub.restored (h : Hub) (t u : Nat) : Bool := h.rookFirst.any (fun e => e.1 = t && e.2.1 = u && e.2.2.1 = 1)

/-- Change a record, and of a wafer or rim node the copies of both hubs that hold it (R30); `ATLAS_CHANGE` reports a change of status (R34). -/
def State.setNode (s : State) (f n : Nat) (g : AtlasRec → AtlasRec) : State :=
  let old := s.atlasRec f n
  let new := g old
  if new = old then s
  else
    let s1 := s.putNode f n new
    let s2 := if n < 256 then s1.putNode (if f = 0 then 89 else 0) n new else s1
    if new.status = old.status then s2 else s2.reportField f .atlasChange [n, old.status, new.status, s.rtime]

/-- A status with its source: 0 image seed, 1 rook, 2 runtime error, 3 platform, 4 doubles (R31). -/
def AtlasRec.withStatus (r : AtlasRec) (st src : Nat) : AtlasRec := { r with status := st, src := src }

/-- A runtime error takes a node dark; a retired one stays retired (R34). -/
def AtlasRec.darkened (r : AtlasRec) : AtlasRec := if r.status = 3 then r else r.withStatus 2 2

/-- The status that capability bits allow: dark with none left, degraded with some missing (R422). -/
def statusOfCaps (full caps : Nat) : Nat := if full ≠ 0 ∧ caps = 0 then 2 else if caps ≠ full then 1 else 0

/-- The result of a test (R34, R422): how often it failed in a row, 0 to 2, and the bits whose path failed twice. A node that failed as a
whole is dark. An untested node that passes, and a retired one that the platform has restored, regains every bit that did not fail; a restored one that fails, as a
whole or in every bit, stays retired. A status that the test changes has the source `src` (R31). -/
def State.testResult (s : State) (f n fails bits : Nat) (src : Nat := 1) (restored : Bool := false) : State :=
  let (_, _, full) := nodeShape f n
  s.setNode f n (fun r =>
    if r.status = 2 ∨ (r.status = 3 ∧ !restored) then r
    else if r.status = 3 ∧ ((fails ≥ 2 ∧ bits = 0) ∨ (full ≠ 0 ∧ full &&& bits = full)) then { r with test := s.rtime }
    else if fails ≥ 2 ∧ bits = 0 then { r.withStatus 2 src with test := s.rtime }
    else
      let had := if r.status ≥ 3 then full else r.caps
      let caps := had - (had &&& bits)
      let st := statusOfCaps full caps
      { r with caps := caps, status := st, src := if st = r.status then r.src else src, fails := if fails = 1 then min 255 (r.fails + 1) else r.fails,
               test := s.rtime })

/-- `ATLAS_STATUS_WRITE`: the platform writes status `value` to node `other` of field `unit` (R34, R42): 3 retires; any other value restores a
retired node, which stays retired until a test of it passes: the field's rook tests it ahead of its pass (DESIGN CHOICE; log 116). -/
def execAtlasStatusWrite (s : State) : Out :=
  let f := s.arg.unit
  let n := s.arg.other
  let r := s.atlasRec f n
  if s.arg.value = 3 then
    (if r.status = 0 ∨ r.status = 1 ∨ r.status = 2 then
      let s1 := (s.setNode f n (fun r => r.withStatus 3 3)).updHub f (fun h => { h with rookFirst := h.rookFirst.filter (fun e => !((e.1, e.2.1) = testedAs f n && e.2.2.1 = 1)) })
      .next (if r.kind = 0x03 then s1.reportField f .retireDone [n] else s1)
     else .next s)
  else if r.status = 3 then
    let (t, u) := testedAs f n
    .next (if (s.hubOf f).restored t u then s else s.updHub f (fun h => { h with rookFirst := h.rookFirst ++ [(t, u, 1, s.rtime)] }))
  else .next s

/-! ### Links and slices in service (R39, R112) -/

/-- `LINK_RETRY_LIMIT`: link node `other` of field `unit` has made `level` retries in 1 µs, which the field counts (R101); with more than 64 it drops its
`value` failing lane groups (R39). -/
def execLinkRetryLimit (s : State) : Out :=
  let f := s.arg.unit
  let n := s.arg.other
  let r := s.atlasRec f n
  if (r.kind ≠ 0x09 ∧ r.kind ≠ 0x0A) ∨ r.status ≥ 2 then .next s
  else if s.arg.level ≤ 64 then .next (s.countFabric f 0x44 s.arg.level)
  else
    let left := r.caps - min r.caps s.arg.value
    .next (((s.countFabric f 0x44 s.arg.level).setNode f n (fun r => { r.withStatus (if left = 0 then 2 else 1) 2 with caps := left })).report f .linkDegraded 0 [n, left])

/-- `SLICE_GOES_DARK` of tile `unit`: lines of `list` are dirty and cannot be read (R112). Its homes are served uncached until the next flip. -/
def execSliceGoesDark (s : State) : Out :=
  let t := s.arg.unit
  let f := fieldOfTile t
  let home := fun l => s.homeOf (lineGpa l) = .tile t
  let lost := s.arg.list.filter (fun l => s.dirty.contains l && home l)
  let s0 := ((s.misses.map (fun e => e.1)).filter (fun l => home l)).foldl State.endMiss s
  let s1 := { s0 with poison := (s.poison ++ lost).eraseDups, dirty := s.dirty.filter (fun l => !home l), cached := s.cached.filter (fun e => !home e.1) }
  .next (s1.setNode f (nodeOfUnit t 3) AtlasRec.darkened)

/-- `UALINK_PORT_DARK` of port `unit` (R76): its record keeps the capability bits (R422). -/
def execUalinkPortDark (s : State) : Out :=
  let p := s.arg.unit
  let s1 := { s with loith := { s.loith with darkPorts := (p :: s.loith.darkPorts).eraseDups } }
  .next (s1.setNode s.rimHub (57 + p) AtlasRec.darkened)

/-- `FABRIC_INTERFACE_DARK` of interface `unit`, or with `flag` of Fjoval chip `unit` (R17): its ports and chips leave the atlas. -/
def execFabricInterfaceDark (s : State) : Out :=
  let i := s.arg.unit
  let gone := fun (s : State) (n : Nat) => s.setNode s.rimHub n (fun r => { r.darkened with kind := 0xFF })
  if s.arg.flag then
    .next (gone { s with loith := { s.loith with darkChips := (i :: s.loith.darkChips).eraseDups } } (177 + i))
  else
    let chips := (List.range 4).map (4 * i + ·)
    let ports := (List.range 9).map (9 * i + ·)
    let s1 := { s with loith := { s.loith with darkIfs := (i :: s.loith.darkIfs).eraseDups, darkChips := (chips ++ s.loith.darkChips).eraseDups,
                                               darkPorts := (ports ++ s.loith.darkPorts).eraseDups } }
    let nodes := ports.map (57 + ·) ++ [129 + 2 * i, 130 + 2 * i] ++ chips.map (145 + ·) ++ chips.map (177 + ·)
    .next ((nodes.foldl gone s1).setNode s.rimHub (49 + i) AtlasRec.darkened)

/-! ### The rook (R43, R44) -/

/-- The unit of a pass position: tile and unit 0 feed core, 1 issue core, 2 engine. -/
def rookUnitAt (f pos : Nat) : Nat × Nat := (tileOfLocal f (pos / 3), pos % 3)

/-- The core whose gap a unit's test needs: the engine's is the issue core. -/
def rookCore (t u : Nat) : Nat := 2 * t + (if u = 0 then 0 else 1)

/-- No context of a core is occupied. -/
def State.coreEmpty (s : State) (k : Nat) : Bool := !(s.ctxs.any (fun e => coreOfCtx e.1 = k && e.2.occ))

/-- The gap that a test needs: of the unit's core; a tile, slice, store, router or link needs none. -/
def State.rookGap (s : State) (t u : Nat) : Bool := u ≥ 3 || s.coreEmpty (rookCore t u)

/-- A unit that is dark is not tested, nor is a retired one that the platform has not restored. -/
def State.rookSkips (s : State) (f t u : Nat) : Bool :=
  let st := s.nodeStatus f (testedNode t u)
  st = 2 || (st = 3 && !(s.hubOf f).restored t u)

/-- The unit that is due in the pass. -/
def State.rookPassUnit (s : State) (f : Nat) : Option (Nat × Nat) :=
  if (s.hubOf f).rookPos < 360 then some (rookUnitAt f (s.hubOf f).rookPos) else none

/-- The unit to test or to pass over now: the first ahead of the pass whose core has a gap, with its place, else the one due in the pass (R43, R422). -/
def State.rookReady (s : State) (f : Nat) : Option (Nat × Nat × Option Nat) :=
  let able := fun (t u : Nat) => s.rookSkips f t u || s.rookGap t u
  match (s.hubOf f).rookFirst.findIdx? (fun e => able e.1 e.2.1) with
  | some i => ((s.hubOf f).rookFirst[i]?).map (fun e => (e.1, e.2.1, some i))
  | none => ((s.rookPassUnit f).filter (fun e => able e.1 e.2)).map (fun e => (e.1, e.2, none))

/-- The unit that has waited 2 ms for a gap of its core (R43, R422). -/
def State.rookDue (s : State) (f : Nat) : Option (Nat × Nat × Option Nat) :=
  let h := s.hubOf f
  match h.rookFirst.findIdx? (fun e => decide (e.2.2.2 + 2000000 ≤ s.rtime) && decide (e.2.1 < 3)) with
  | some i => (h.rookFirst[i]?).map (fun e => (e.1, e.2.1, some i))
  | none => if h.rookSince + 2000000 ≤ s.rtime then (s.rookPassUnit f).map (fun e => (e.1, e.2, none)) else none

/-- Go on from a unit: one ahead of the pass leaves the list, the pass moves to its next unit. -/
def Hub.rookDrop (h : Hub) (place : Option Nat) (rtime : Nat) : Hub :=
  match place with
  | some i => { h with rookFirst := h.rookFirst.take i ++ h.rookFirst.drop (i + 1) }
  | none => { h with rookPos := min 360 (h.rookPos + 1), rookSince := rtime }

/-- A test that does not take place now is tried again: one ahead of the pass goes to the end of the list, one of the pass waits for the next pass (R43, R44). -/
def Hub.rookLater (h : Hub) (place : Option Nat) (rtime : Nat) : Hub :=
  let back := (place.bind (fun i => h.rookFirst[i]?)).toList.map (fun e => (e.1, e.2.1, e.2.2.1, rtime))
  { h.rookDrop place rtime with rookFirst := (h.rookDrop place rtime).rookFirst ++ back }

/-- The source that a status has from the test of a unit at a place (R31). -/
def Hub.rookSource (h : Hub) (place : Option Nat) : Nat := match place with
  | some i => ((h.rookFirst[i]?).map (fun e => e.2.2.1)).getD 1
  | none => 1

/-- The rook of a field starts the test of a unit whose core has a gap, and passes over a unit that it does not test. -/
def State.rookAdvance (s : State) (f : Nat) : State :=
  if (s.hubOf f).rookBusy || (s.hubOf f).sw.step ≠ 0 then s
  else match s.rookReady f with
    | none => s
    | some (t, u, i) =>
      if s.rookSkips f t u then s.updHub f (fun h => h.rookDrop i s.rtime)
      else s.updHub f (fun h =>
        { h.rookDrop i s.rtime with rookBusy := true, rookTile := if u = 12 then h.rookTile else localOfTile t, rookUnit := u, rookNode := if u = 12 then t else 0,
                                    rookFrom := h.rookSource i, rookAgain := i.map (fun _ => h.rookSource i), rookEnd := s.rtime + 40000 })

/-- A core whose own logic met an error is tested ahead of the rook's pass, with a runtime error as the source of a status that follows (R31, R34, R247;
DEDUCED; log 122). -/
def State.retestCore (s : State) (k : Nat) : State :=
  let t := tileOfCore k
  s.updHub (fieldOfTile t) (fun h =>
    if h.rookFirst.any (fun e => e.1 = t && e.2.1 = k % 2) then h else { h with rookFirst := h.rookFirst ++ [(t, k % 2, 2, s.rtime)] })

/-- The tile or node and the unit under test. -/
def Hub.rookAt (h : Hub) (f : Nat) : Nat × Nat := (if h.rookUnit = 12 then h.rookNode else tileOfLocal f h.rookTile, h.rookUnit)

/-- Every field's rook. -/
def State.rooksAdvance (s : State) : State := s.hubs.foldl (fun s e => if e.2.rookPos < 360 || !e.2.rookFirst.isEmpty then s.rookAdvance e.1 else s) s

/-- A unit of a core is under test: nothing starts there. -/
def State.underTest (s : State) (k : Nat) : Bool :=
  let h := s.hubOf (fieldOfTile (tileOfCore k))
  h.rookBusy && h.rookUnit < 3 && h.rookTile = localOfTile (tileOfCore k) && rookCore (tileOfCore k) h.rookUnit = k

/-- PERIOD has passed since the start of the last pass, and that pass has ended (R43, R45). -/
def State.passDue (s : State) (f : Nat) : Bool :=
  let h := s.hubOf f
  h.startup = 7 && h.rookEn && !h.rookBusy && h.rookPos = 360 && (!h.rookRan || h.rookPass + 1000000 * max 1 h.rookPeriod ≤ s.rtime)

/-- `ROOK_PASS_START` of field `unit` (R43). -/
def execRookPassStart (s : State) : Out :=
  let f := s.arg.unit
  if !s.passDue f then .next s
  else .next ((s.updHub f (fun h => { h with rookPos := 0, rookPass := s.rtime, rookSince := s.rtime, rookRan := true })).rookAdvance f)

/-- The rook has waited 2 ms for a gap of a core; it starts nothing in a world switch (R99). -/
def State.rookWaited (s : State) (f : Nat) : Bool := !(s.hubOf f).rookBusy && (s.hubOf f).sw.step = 0 && (s.rookDue f).isSome

/-- A context waits for the value of a load (R313): the wait takes no effect when it is pre-empted or stopped (R320). -/
def State.waitsLoad (s : State) (c : Ctx) : Bool := c.reply.isNone && (match c.hold with
  | none => false
  | some n => (s.accOf n).any (fun a => match a.kind with
    | .load => true
    | .acquire _ => true
    | _ => false))

/-- A context holds for a reply, or has it: its instruction is to end first (R323). -/
def State.mustHold (s : State) (c : Ctx) : Bool := c.hold.isSome && !s.waitsLoad c

/-- The load that a context waits for is given up (R320). -/
def State.dropLoad (s : State) (c : Ctx) : State := match c.hold with
  | some n => s.dropAcc n
  | none => s

/-- A context is pre-empted at its bundle boundary (R248): it goes to the park area as pre-empted; at a world switch it stays in its slot, which the field
image takes over (R97, R182). A stalled arrival releases again (R228). -/
def State.preemptNow (s : State) (i reason : Nat) : State :=
  let s1 := ((s.dropLoad (s.ctxOf i)).leaveSemQueues i).updCtx i (fun c =>
    { c with st := 3, preempt := 0, stall := none, reported := false, hold := none, reply := none, refusedArr := false })
  if reason = 2 then s1 else s1.toParkArea i

/-- The contexts that are pre-empted with one: both of a doubles pair (R99). -/
def State.withPartner (s : State) (i : Nat) : List Nat := i :: (match (s.ctxOf i).pairCtx with
  | some p => if (s.ctxOf p).occ && some (s.ctxOf p).firing = (s.ctxOf i).pairFiring && (s.ctxOf p).st = 0 then [p] else []
  | none => [])

/-- Pre-empt a context (R248), and its partner with it (R99). Where one of them holds for a reply that is no load's, or is in a section, both go at the
boundary that follows (R97, R323). -/
def State.preemptCtx (s : State) (i reason : Nat) : State :=
  let is_ := s.withPartner i
  if (s.ctxOf i).st ≠ 0 then s
  else if is_.any (fun j => (s.ctxOf j).np || s.mustHold (s.ctxOf j)) then is_.foldl (fun s j => s.updCtx j (fun c => { c with preempt := if c.preempt = 3 then 3 else reason })) s
  else is_.foldl (fun s j => s.preemptNow j reason) s

/-- `ROOK_PREEMPT` in field `unit` (R43, R44, R183): a section defers the core, once in a pass, as its own test comes up; without room in the park
area, or with a frozen firing there, the test is abandoned. -/
def execRookPreempt (s : State) : Out :=
  let f := s.arg.unit
  if !s.rookWaited f then .next s
  else match s.rookDue f with
    | none => .next s
    | some (t, u, i) =>
      let k := rookCore t u
      let busy := (s.ctxs.filter (fun e => coreOfCtx e.1 = k && e.2.occ)).map (fun e => e.1)
      if busy.any (fun i => (s.ctxOf i).np) then
        let s0 := s.updHub f (fun h => h.rookLater i s.rtime)
        if u ≥ 2 then .next s0
        else
          let n := (s.coreOf k).deferrals + 1
          let s1 := s0.updCore k (fun c => { c with deferrals := n })
          let tag := (s.hubOf f).runTag
          let (kind, idx) := (s.logicalOf tag t).getD (0, 0)
          .next (if n % 3 = 0 then s1.reportTo f .selftestDeferred tag [kind * 2 ^ 14 + idx, k % 2, n, (s.coreOf k).tested] else s1)
      else if busy.any (fun i => (s.ctxOf i).st ≠ 0) ∨ busy.length + (s.coreOf k).parked.length > min 64 (s.coreOf k).parkCap then
        .next (s.updHub f (fun h => h.rookLater i s.rtime))
      else .next ((busy.foldl (fun s i => s.preemptCtx i 1) s).rookAdvance f)

/-- A unit test has run its 40 µs. -/
def State.testDone (s : State) (f : Nat) : Bool := (s.hubOf f).rookBusy && decide ((s.hubOf f).rookEnd ≤ s.rtime)

/-- `ROOK_TEST_DONE` in field `unit`: the unit failed `level` times in a row, `value` holds the bits whose path failed twice (R34, R422). The test of a core
itself, not that of its tile's engine, ends its count of deferrals (R44). -/
def execRookTestDone (s : State) : Out :=
  let f := s.arg.unit
  if !s.testDone f then .next s
  else
    let h := s.hubOf f
    let (t, u) := h.rookAt f
    let s1 := s.testResult f (testedNode t u) s.arg.level s.arg.value h.rookFrom (h.rookAgain = some 1)
    let s2 := if u < 2 then s1.updCore (2 * t + u) (fun c => { c with deferrals := 0, tested := s.rtime }) else s1
    .next ((s2.updHub f (fun h => { h with rookBusy := false, rookSince := s.rtime })).rookAdvance f)

/-- ROOKCTL as it reads (R45). -/
def Hub.rookctl (h : Hub) : Nat := natOfBool h.rookEn * 2 ^ 31 + natOfBool h.rookBusy * 2 ^ 30 + h.rookTile % 256 * 2 ^ 16 + h.rookPeriod % 65536

/-! ### Doubles (R46, R47, R145) -/

/-- The oldest packets of a firing of a pair that are to be compared: remote accesses not yet performed. -/
def State.pairPackets (s : State) (n : Nat) : List Access := s.net.filter (fun a => a.firing = n && a.reach ≠ 0 && a.result.isNone)

/-- A firing is in a slot or a park area. -/
def State.firingLives (s : State) (n : Nat) : Bool :=
  s.ctxs.any (fun e => e.2.occ && e.2.firing = n) || s.cores.any (fun e => e.2.parked.any (fun p => p.2.firing = n))

/-- The firing that an access's firing is paired with, while there is one. -/
def State.partnerOf (s : State) (a : Access) : Option Nat := a.pairOf.filter s.firingLives

/-- Two packets that the comparison finds equal (R46). -/
def samePacket (a b : Access) : Bool := a.kind = b.kind && a.va = b.va && a.size = b.size && a.data = b.data && a.data2 = b.data2

/-- The follower's copy that a leader's access leaves with: its packet of the same place, when all before it are equal too (R46, R47). -/
def State.shadowOf (s : State) (a : Access) : Option Access :=
  match s.partnerOf a with
  | none => none
  | some p =>
    let ps := (s.pairPackets a.firing).zip (s.pairPackets p)
    match ps.findIdx? (fun e => e.1.id = a.id) with
    | none => none
    | some i => if (ps.take (i + 1)).all (fun e => samePacket e.1 e.2) then (ps[i]?).map (fun e => e.2) else none

/-- The leader's and the follower's packets differ at some place that both have reached (R47). -/
def State.pairDiffers (s : State) (lead foll : Nat) : Bool :=
  ((s.pairPackets (s.ctxOf lead).firing).zip (s.pairPackets (s.ctxOf foll).firing)).any (fun p => !samePacket p.1 p.2) ||
  (List.range 4).any (fun vn =>
    match ((s.coreOf (coreOfCtx lead)).queue vn).filter (fun m => m.firing = (s.ctxOf lead).firing),
          ((s.coreOf (coreOfCtx foll)).queue vn).filter (fun m => m.firing = (s.ctxOf foll).firing) with
    | a :: _, b :: _ => a.words ≠ b.words || a.capLo ≠ b.capLo || a.port ≠ b.port
    | _, _ => false) ||
  (s.ctxOf lead).pairReads.any (fun e => (s.ctxOf foll).pairReads.any (fun d => e.1 = d.1))

/-- Two contexts run the same firing as a doubles pair. -/
def State.isPair (s : State) (lead foll : Nat) : Bool :=
  (s.ctxOf lead).occ && (s.ctxOf foll).occ && (s.ctxOf lead).pairCtx = some foll && (s.ctxOf foll).pairCtx = some lead && tileOfCtx lead = leaderOf (tileOfCtx lead)

/-- The item of a mismatched pair goes to the requeue list with the leader of its pair, or ends FAILED at its third mismatch or with the list full
(R145). -/
def State.requeueItem (s : State) (id item wid lead : Nat) : State :=
  match s.launchOf id with
  | none => s
  | some e =>
    let r : Requeue := (e.requeue.find? (fun r => r.item = item)).getD { item := item }
    let others := e.requeue.filter (fun r => r.item ≠ item)
    let s1 := s.updLaunch id (fun e => { e with halves := e.halves.filter (fun p => p.1 ≠ item), requeue := others })
    if r.count ≥ 2 ∨ (others.filter (fun r => !r.taken)).length ≥ 16 then s1.endItem id wid (some Cause.doublesMismatch)
    else s1.updLaunch id (fun e => { e with requeue := e.requeue ++ [{ r with count := r.count + 1, leads := lead :: r.leads, taken := false }] })

/-- A firing that the hub ends without ending its item (R145). -/
def State.dropFiring (s : State) (i : Nat) : State :=
  let c := s.ctxOf i
  let s1 := (s.endCommon (coreOfCtx i) c).updCtx i Ctx.endOf
  let s2 := { s1 with net := s1.net.filter (fun a => !(a.firing = c.firing && a.reach ≠ 0 && a.result.isNone)) }
  let s3 := match c.launch with
    | some id => s2.releaseFoot (tileOfCtx i) id
    | none => s2
  s3.updCore (coreOfCtx i) (fun k => { k with sendq := k.sendq.map (fun e => (e.1, e.2.filter (fun m => m.firing ≠ c.firing))) })

/-- The contexts in which a pair runs its item: with PAIR = 1 there are four (R46, R144). -/
def State.pairContexts (s : State) (a b : Nat) : List Nat :=
  let c := s.ctxOf a
  let t := tileOfCtx a
  [a, b] ++ (if c.pool && c.launch.isSome then
    (s.ctxs.filter (fun e => e.1 ≠ a && e.1 ≠ b && e.2.occ && e.2.pool && e.2.launch = c.launch && e.2.item = c.item &&
      (tileOfCtx e.1 = t || tileOfCtx e.1 = t + 1))).map (fun e => e.1) else [])

/-- `DOUBLES_MISMATCH` of the pair of contexts `unit` and `other`, found in their packets, or with `flag` reported by the router (R47, R145,
R422). The fail counts that rise are those of the cores that ran the firing (DESIGN CHOICE; log 101). -/
def execDoublesMismatch (s : State) : Out :=
  let a := s.arg.unit
  let b := s.arg.other
  if !s.isPair a b ∨ !(s.arg.flag || s.pairDiffers a b) then .next s
  else
    let c := s.ctxOf a
    let f := fieldOfCtx a
    let all := s.pairContexts a b
    let s1 := all.foldl (fun s i => s.freeze i { cause := .doublesMismatch }) s
    let fail := fun (s : State) (k : Nat) => s.setNode f (nodeOfUnit (tileOfCore k) (k % 2)) (fun r => { r with fails := min 255 (r.fails + 1) })
    let s2 := all.foldl State.dropFiring ((all.map coreOfCtx).eraseDups.foldl fail s1)
    let t := tileOfCtx a
    let s3 := s2.updHub f (fun h => { h with rookFirst := h.rookFirst ++ [(t, 1), (t, 2), (t + 1, 1), (t + 1, 2)].map (fun e => (e.1, e.2, 4, s.rtime)) })
    .next (match c.launch with
      | some id => s3.requeueItem id c.item c.wid.toNat t
      | none => s3)

end Sys2Proof.Machine
end

