-- ==== Sys2Proof/Machine/Atomic.lean ====
section
/-! DEFINITION. Atomics and reductions: R223 to R225, R334, R335. -/

namespace Sys2Proof.Machine

/-- A float sum at a home: one RNE rounding, subnormals kept, a NaN gives the canonical NaN (R225). -/
def homeSum (F : FloatFmt) (a b : Nat) : Nat := F.round (XNum.add false (F.decode a) (F.decode b)) .rne

/-- The new value at the home, for a location of b bits: old value, operand, and the new value of `amo.cas` (R334). -/
def amoApply (op : AmoOp) (b old v n : Nat) : Nat :=
  match op with
  | .add => (old + v) % 2 ^ b
  | .and => old &&& v
  | .or => old ||| v
  | .xor => old ^^^ v
  | .min => if sextNat b old ≤ sextNat b v then old else v
  | .max => if sextNat b old ≤ sextNat b v then v else old
  | .minu => min old v
  | .maxu => max old v
  | .swap => v
  | .cas => if old = v then n else old
  | .faddS => homeSum fp32 old v
  | .faddH => homeSum fp16 old v

/-- The bytes of a location (R334, R335). -/
def amoSize (op : AmoOp) (sz : BitVec 1) : Nat :=
  match op with
  | .faddS => 4
  | .faddH => 2
  | _ => sizeOfSz sz

/-- An atomic holds its context for the old value (R323, R334). -/
def State.atomic (s : State) (f : FmtCA) (op : AmoOp) (signed : Bool) : Out :=
  let n := amoSize op f.sz
  let va := (s.x f.base).toNat
  s.holding va (fun c => accSyndrome c .atomic n 0)
    (fun s => match s.checkAccess s.cur va n n .atomic false with
      | .bad c synd => s.faultC c va synd
      | .wait => .next (s.stallOn 0)
      | .ok g _ =>
        let v := (s.x f.xb).toNat % 2 ^ (8 * n)
        let new := (s.x f.xc).toNat % 2 ^ (8 * n)
        .next (s.holdFor { kind := .atomic op, va := va, gpa := g, size := n, data := v, data2 := new }))
    fun old => s.result f.xd (if signed then sextWord (8 * n) old else BitVec.ofNat 64 old)

/-- A reduction retires at once and counts as a remote store does (R223, R334). -/
def State.reduce (s : State) (f : FmtCA) (op : AmoOp) : Out :=
  let n := amoSize op f.sz
  let va := (s.x f.base).toNat
  match s.checkAccess s.cur va n n .atomic false with
  | .bad c synd => s.faultC c va synd
  | .wait => .next (s.stallOn 0)
  | .ok g _ =>
    if s.unackFull g then .next (s.stallOn 0)
    else .next (s.issueStore { kind := .reduce op, va := va, gpa := g, size := n, data := (s.x f.xb).toNat % 2 ^ (8 * n) }).fall

/-- `amo.add` (R334). -/
def execAmoAdd (f : FmtCA) (s : State) : Out := s.slotC (.amoAdd f) fun s => s.atomic f .add true

/-- `amo.and` (R334). -/
def execAmoAnd (f : FmtCA) (s : State) : Out := s.slotC (.amoAnd f) fun s => s.atomic f .and true

/-- `amo.or` (R334). -/
def execAmoOr (f : FmtCA) (s : State) : Out := s.slotC (.amoOr f) fun s => s.atomic f .or true

/-- `amo.xor` (R334). -/
def execAmoXor (f : FmtCA) (s : State) : Out := s.slotC (.amoXor f) fun s => s.atomic f .xor true

/-- `amo.min` (R334). -/
def execAmoMin (f : FmtCA) (s : State) : Out := s.slotC (.amoMin f) fun s => s.atomic f .min true

/-- `amo.max` (R334). -/
def execAmoMax (f : FmtCA) (s : State) : Out := s.slotC (.amoMax f) fun s => s.atomic f .max true

/-- `amo.minu` (R334). -/
def execAmoMinu (f : FmtCA) (s : State) : Out := s.slotC (.amoMinu f) fun s => s.atomic f .minu false

/-- `amo.maxu` (R334). -/
def execAmoMaxu (f : FmtCA) (s : State) : Out := s.slotC (.amoMaxu f) fun s => s.atomic f .maxu false

/-- `amo.swap` (R334). -/
def execAmoSwap (f : FmtCA) (s : State) : Out := s.slotC (.amoSwap f) fun s => s.atomic f .swap true

/-- `amo.cas` (R334). -/
def execAmoCas (f : FmtCA) (s : State) : Out := s.slotC (.amoCas f) fun s => s.atomic f .cas true

/-- `amo.fadd.s` (R334). -/
def execAmoFaddS (f : FmtCA) (s : State) : Out := s.slotC (.amoFaddS f) fun s => s.atomic f .faddS false

/-- `red.add` (R334). -/
def execRedAdd (f : FmtCA) (s : State) : Out := s.slotC (.redAdd f) fun s => s.reduce f .add

/-- `red.fadd.s` (R334). -/
def execRedFaddS (f : FmtCA) (s : State) : Out := s.slotC (.redFaddS f) fun s => s.reduce f .faddS

/-- `red.fadd.h` (R334). -/
def execRedFaddH (f : FmtCA) (s : State) : Out := s.slotC (.redFaddH f) fun s => s.reduce f .faddH

end Sys2Proof.Machine
end

