-- ==== Sys2Proof/Machine/Special.lean ====
section
/-! DEFINITION. Special-register moves: R321, R322. -/

namespace Sys2Proof.Machine

/-- `mfs` (R321). -/
def execMfs (f : FmtCS) (s : State) : Out :=
  s.slotC (.mfs f) fun s =>
    match s.spr f.spr.toNat with
    | none => s.faultC .sprUndef
    | some v => s.result f.x v

/-- `mts` to MODE: RM := bits [3:1]; L is ignored (R322). -/
def State.writeMode (s : State) (a : Word) : Out :=
  let rm := bitsOf a 3 1
  if (rm = 5 ∨ rm = 6 ∨ rm = 7) ∨ bitsOf a 63 4 ≠ 0 then s.faultC .reservedField
  else .next (s.upd (fun c => { c with rm := rm })).fall

/-- `mts` to ACCST: each 1 written to SAT, ERR or SPROW clears that bit (R322). -/
def State.writeAccst (s : State) (a : Word) : Out :=
  let sat := BitVec.ofNat 4 (bitsOf a 3 0)
  let err := BitVec.ofNat 4 (bitsOf a 7 4)
  let touched := if tileKind (tileOfCtx s.cur) = 0 then (sat ||| err).toNat
    else if err.toNat % 2 = 1 || bitAt a.toNat 20 then 15 else 0
  if !isIssueCore (coreOfCtx s.cur) then s.faultC .engineFeed
  else if touched ≠ 0 && s.claimedByOther touched then s.faultC .engineClaim
  else
    .next (s.updEng (fun e => { e with
      sat := e.sat &&& ~~~sat, err := e.err &&& ~~~err, sprow := e.sprow && !bitAt a.toNat 20 })).fall

/-- `mts` to PROMO (R187, R322): any claim on the tile's accumulators by another actor refuses it. -/
def State.writePromo (s : State) (a : Word) : Out :=
  match s.engineRole 0 15 with
  | some c => s.faultC c
  | none =>
    if bitsOf a 63 7 ≠ 0 then s.faultC .reservedField
    else .next (s.updEng (fun e => { e with promo := bitsOf a 6 0 })).fall

/-- `mts` (R322). -/
def execMts (f : FmtCS) (s : State) : Out :=
  s.slotC (.mts f) fun s =>
    let a := s.x f.x
    match f.spr.toNat with
    | 0x28 => s.writeAccst a
    | 0x29 => s.writePromo a
    | 0x2A => .next (s.updCurCore (fun k => { k with lutlo := a })).fall
    | 0x2B => .next (s.updCurCore (fun k => { k with luthi := a })).fall
    | 0x2C => s.writeMode a
    | 0x2D => .next (s.updCurCore (fun k => { k with seed := a })).fall
    | 0x32 => .next (s.upd (fun c => { c with lbase := a })).fall
    | n => if (s.spr n).isSome then s.faultC .sprReadonly else s.faultC .sprUndef

end Sys2Proof.Machine
end

