-- ==== Sys2Proof/Machine/Rows.lean ====
section
/-! DEFINITION. What the engines share: operands of rows in memory (R376, R383), results written as plain stores, block
contributions (R270), and the occupancy of an engine (R370). -/

namespace Sys2Proof.Machine

/-! ### Operands of rows -/

/-- The bytes of a row of n elements (R376). -/
def rowBytes (fmt geo n : Nat) : Nat := if geo = 1 ∨ geo = 2 then n / 32 * blockSize fmt geo else n * fmtBits fmt / 8

/-- Rows that have been translated: the page format, and the pieces of each row's data and of each row's scale plane. -/
structure RowPlan where
  fmt : Nat
  geo : Nat
  data : List (List Piece)
  plane : List (List Piece)
  deriving DecidableEq, Repr

/-- Each range translated on its own. -/
def State.mapEach (s : State) (acc : Acc) (size : Nat) : List (Nat × Nat) → Except Halt (List (List Piece))
  | [] => .ok []
  | (va, n) :: rs =>
    match s.mapRange s.cur va n acc size with
    | .error e => .error e
    | .ok ps =>
      match s.mapEach acc size rs with
      | .error e => .error e
      | .ok qs => .ok (ps :: qs)

/-- Each row's scale bytes, one range of one byte for each block. -/
def State.mapPlanes (s : State) (acc : Acc) : List (List Nat) → Except Halt (List (List Piece))
  | [] => .ok []
  | r :: rs =>
    match s.mapRanges s.cur acc 1 (r.map (fun a => (a, 1))) with
    | .error e => .error e
    | .ok ps =>
      match s.mapPlanes acc rs with
      | .error e => .error e
      | .ok qs => .ok (ps :: qs)

/-- The placement rules of R376 for rows at their starts: `MMA_GEO`, then `FMT_PACKING`. -/
def rowPlacement (fmt geo pitch n : Nat) (starts : List Nat) : Option Cause :=
  let w := fmtBits fmt
  let u := blockSize fmt geo
  let len := rowBytes fmt geo n
  let badStart := fun (va : Nat) => if geo = 0 ∧ w ≥ 8 then va % (w / 8) ≠ 0 else !startsUnit u va
  if pitch < len || starts.any badStart then some .mmaGeo
  else if starts.any (fun va => touchesHole u va len) then some .fmtPacking
  else none

/-- The starts of rows at a pitch. -/
def rowStarts (va pitch rows : Nat) : List Nat := (List.range rows).map (fun r => (va + r * pitch) % 2 ^ 64)

/-- Step 6 of R383 for an operand of rows of `elems fmt` elements at given starts: translation of data and then of the scale plane. The page of
`va`, which comes with the rows, gives the format. -/
def State.rowsAt (s : State) (acc : Acc) (va : Nat) (starts : List Nat) (elems : Nat → Nat) : Except Halt (Pte × RowPlan) :=
  let s := s.fieldView (coreOfCtx s.cur)
  match s.mapRange s.cur va 1 acc 1 with
  | .error h => .error h
  | .ok [] => .error .wait
  | .ok (p :: _) =>
    let e := p.pte
    let n := elems e.fmt
    match s.mapEach acc 1 (starts.map (fun a => (a, rowBytes e.fmt e.geo n))) with
    | .error h => .error h
    | .ok data =>
      let soffOf := fun (r : Nat) => match data.getD r [] with
        | [] => e.soff
        | q :: _ => q.pte.soff
      let planes := if e.geo = 2 then starts.mapIdx (fun r a => (runRanges e.fmt 2 (soffOf r) a n).scales) else []
      match s.mapPlanes acc planes with
      | .error h => .error h
      | .ok plane => .ok (e, ⟨e.fmt, e.geo, data, plane⟩)

/-- The first check of step 7 of R383 for a translated operand: its codes. -/
def rowCodes (r : Pte × RowPlan) : Option Cause := decodeCause r.1 r.2.data.flatten r.2.plane.flatten

/-- Steps 6 and 7 of R383 for an operand of rows: translation, the page's codes, what the path accepts, and placement. -/
def State.planAt (s : State) (acc : Acc) (va pitch : Nat) (starts : List Nat) (elems : Nat → Nat) (accepts : Nat → Nat → Option Cause)
    (late : Option Cause) : Except Halt RowPlan :=
  match s.rowsAt acc va starts elems with
  | .error h => .error h
  | .ok r =>
    let p := r.2
    match (rowCodes r).or ((accepts p.fmt p.geo).or ((rowPlacement p.fmt p.geo pitch (elems p.fmt) starts).or late)) with
    | some c => .error (.bad c va (accSyndrome c acc 1 0))
    | none => .ok p

/-- The same for rows at a pitch. -/
def State.rowPlan (s : State) (acc : Acc) (va pitch rows : Nat) (elems : Nat → Nat) (accepts : Nat → Nat → Option Cause) (late : Option Cause) :
    Except Halt RowPlan := s.planAt acc va pitch (rowStarts va pitch rows) elems accepts late

/-- A row's codes, and the scale byte of each of its blocks: 127 for GEO 0. -/
structure Row where
  codes : List Nat
  scales : List Nat
  deriving DecidableEq, Repr

/-- The row of n elements whose data bytes are the number v, and whose plane bytes are p (R255, R259). -/
def rowOf (fmt geo n v p : Nat) : Row :=
  let w := fmtBits fmt
  let blocks := List.range (n / 32)
  match geo with
  | 1 =>
    let u := blockSize fmt 1
    { codes := blocks.flatMap (fun b => unpackLanes w 32 (v / 2 ^ (8 * (b * u + 1)))), scales := blocks.map (fun b => v / 2 ^ (8 * b * u) % 256) }
  | 2 => { codes := unpackLanes w n v, scales := blocks.map (fun b => p / 2 ^ (8 * b) % 256) }
  | _ => { codes := unpackLanes w n v, scales := blocks.map (fun _ => 127) }

/-- The rows of a plan of n elements each, as they stand at their homes (R205, R220). -/
def State.readRows (s : State) (p : RowPlan) (n : Nat) : List Row :=
  p.data.mapIdx (fun r d => rowOf p.fmt p.geo n (s.piecesValue d) (s.piecesValue (p.plane.getD r [])))

/-- Pieces that a core reads cannot be read now: it waits, or the reads bounced, or a line is poisoned (R125, R247). -/
def State.readStop (s : State) (ps : List Piece) (va size : Nat) : Out :=
  match s.piecesWay ps with
  | .error none => .next (s.stallOn 0)
  | .error (some c) => s.faultC c va (accSyndrome c .read size 0)
  | .ok _ => s.faultC (s.piecesCause ps) va (accSyndrome .linePoison .read size 0)

/-- The pieces of a plan. -/
def RowPlan.pieces (p : RowPlan) : List Piece := p.data.flatten ++ p.plane.flatten

/-- The rows of a plan can be read now. -/
def State.rowsOpen (s : State) (p : RowPlan) : Bool := s.piecesOpen p.pieces

/-- Lane values as exact numbers, with the core's table for LUT4. -/
def Row.values (r : Row) (fmt : Nat) (lut : Nat → Int) : List XNum := r.codes.map (decodeElem fmt lut)

/-! ### Writes of an engine (R221) -/

/-- Pieces as stores leave: by VA, GPA and length, cut where homes change (R112). -/
def State.cutPieces (s : State) (ps : List Piece) : List (Nat × Nat × Nat) := s.homeCuts (ps.map (fun q => (q.va, q.gpa, q.len)))

/-- Put the rows of a result in flight as plain stores of the issuing context. -/
def State.storeRows (s : State) : List (List Piece) → List Nat → State
  | [], _ => s
  | ps :: rest, vals => (s.issuePieces .store (s.cutPieces ps) (vals.headD 0)).storeRows rest (vals.drop 1)

/-- A destination of a plan stands at its limit of outstanding stores (R187). -/
def State.piecesFull (s : State) (ps : List Piece) : Bool := (s.cutPieces ps).any (fun q => s.unackFull q.2.1)
def State.rowsFull (s : State) (p : RowPlan) : Bool := s.piecesFull p.data.flatten

/-! ### Block contributions (R270) -/

/-- The exact sum of products, from the first pair on; +0 of none. -/
def exactDot : List (XNum × XNum) → XNum
  | [] => .fin false 0 0
  | p :: ps => ps.foldl (fun acc q => XNum.add false acc (XNum.mul q.1 q.2)) (XNum.mul p.1 p.2)

/-- An FP32 code from an exact number by round-to-nearest-even, and the sum of two. -/
def roundS (x : XNum) : Nat := fp32.round x .rne
def addS (a b : Nat) : Nat := roundS (XNum.add false (fp32.decode a) (fp32.decode b))
def mulS (a b : Nat) : Nat := roundS (XNum.mul (fp32.decode a) (fp32.decode b))

/-- `block_contrib` of the unmasked pairs of a block, as an FP32 code; none is SKIP. -/
def blockContrib (sa sb : Nat) (pairs : List (XNum × XNum)) : Option Nat :=
  if pairs.isEmpty then none
  else if sa = 255 ∨ sb = 255 then some fp32.qnan
  else some (roundS ((exactDot pairs).scale ((sa : Int) - 127 + ((sb : Int) - 127))))

/-- A lane after a contribution. -/
def addContrib (acc : Nat) (c : Option Nat) : Nat :=
  match c with
  | none => acc
  | some v => addS acc v

/-! ### Occupancy (R370) -/

/-- Arithmetic cycles that a paced instruction of a base occupies its engine at a holding. -/
def occupancyOf (base h kind : Nat) : Nat := (base * issueInterval h (fullRate kind) + 3) / 4

/-- An engine instruction waits for the end of the occupancy before it. -/
def State.afterOccupancy (s : State) (k : State → Out) : Out :=
  if s.cyc < s.eng.busyUntil then .next (s.stallOn 0) else k s

/-- An engine instruction completes: the engine takes its new state, the window shows the old one until `cycles` have passed, and
with `hold` the firing issues nothing before. -/
def State.engineDone (s : State) (e : Engine) (cycles : Nat) (hold : Bool) : Out :=
  let stop := s.cyc + cycles
  let s1 := s.updCurTile (fun t => { t with engShown := some t.shown, eng := { e with busyUntil := stop, inFlight := true } })
  .next ((if hold then s1.upd (fun c => { c with ready := max c.ready stop }) else s1).fall)

/-- A poisoned operand line: the contribution is discarded, ACCST.ERR is set, and the context freezes (R246). -/
def State.engineHalt (s : State) (cause : Cause) (bit va : Nat) : Out :=
  (s.updEng (fun e => { e with err := e.err ||| BitVec.ofNat 4 (2 ^ bit) })).faultC cause va (accSyndrome cause .read 1 0)

/-- Pieces of an operand that cannot be read now: the instruction waits for them, or their reads bounced, or a line is poisoned. -/
def State.engineStop (s : State) (ps : List Piece) (bit va : Nat) : Out :=
  match s.piecesWay ps with
  | .error none => .next (s.stallOn 0)
  | .error (some c) => s.faultC c va (accSyndrome c .read 1 0)
  | .ok _ => s.engineHalt (s.operandCause ps) bit va

/-- An operand's rows: its plan, whether they can be read, and the rows. -/
def State.withRows (s : State) (va pitch rows : Nat) (elems : Nat → Nat) (accepts : Nat → Nat → Option Cause) (late : Option Cause) (bit : Nat)
    (k : RowPlan → List Row → Out) : Out :=
  s.orHalt (s.rowPlan .read va pitch rows elems accepts late) fun p =>
    if s.rowsOpen p then State.notePieces p.pieces (k p (s.readRows p (elems p.fmt))) else s.engineStop p.pieces bit va

/-- A fault of the instruction as a whole, after its operands (R383). -/
def State.orCause (s : State) (c : Option Cause) (k : Unit → Out) : Out :=
  match c with
  | some c => s.faultC c
  | none => k ()

/-- The first cause of checks of several operands, each at its operand's address (R383: every operand is translated before any is judged). -/
def State.orFirst (s : State) (cs : List (Nat × Option Cause)) (k : Unit → Out) : Out :=
  match cs.findSome? (fun c => c.2.map (fun e => (c.1, e))) with
  | some (va, c) => s.faultC c va (accSyndrome c .read 1 0)
  | none => k ()

/-- An operand of rows that an instruction may not have: translated and judged where it has it. -/
def whereHas {α : Type} (has : Bool) (r : Except Halt α) : Except Halt (Option α) :=
  if has then (match r with
    | .ok a => .ok (some a)
    | .error h => .error h)
  else .ok none

/-- A run of bytes cut at pages of 64 KiB. -/
def pagesOf (va n : Nat) : List (Nat × Nat) :=
  (List.range (n / 65536 + 2)).filterMap (fun i =>
    let lo := max va ((va / 65536 + i) * 65536)
    let hi := min (va + n) ((va / 65536 + i + 1) * 65536)
    if lo < hi then some (lo, hi - lo) else none)

/-- Raw bytes that an engine reads as integers, whatever their page format: their pieces. -/
def State.rawRun (s : State) (acc : Acc) (va n : Nat) : Except Halt (List Piece) := (s.fieldView (coreOfCtx s.cur)).mapRanges s.cur acc 1 (pagesOf va n)

/-- Words of engine state from a place on, and their replacement. -/
def Engine.words (e : Engine) (at_ n : Nat) : List Nat := (List.range n).map (fun i => (e.mem.get 0 (at_ + i)).toNat)
def Engine.setWords (e : Engine) (at_ : Nat) (vs : List Nat) : Engine :=
  { e with mem := (vs.mapIdx (fun i v => (i, v))).foldl (fun m p => m.put (at_ + p.1) (BitVec.ofNat 32 p.2)) e.mem }

end Sys2Proof.Machine
end

