-- ==== Sys2Proof/Machine/VFunc.lean ====
section
/-! DEFINITION. Vector conversions, special functions, reductions and scans: R269, R273, R360 to R363. -/

namespace Sys2Proof.Machine

/-- Whether a conversion of R360 rounds, and so draws under SR. -/
def convertRounds (t d : BitVec 2) : Bool :=
  (t = 0 && d = 1) || (floatLane t && !floatLane d) || (t = 3 && floatLane d)

/-- One lane of R360: source type `t`, destination type `d`. With TR, a value that does not fit faults. -/
def convertLane (t d : BitVec 2) (tr : Bool) (rm : RoundMode) (a r : Nat) : Except Cause Nat :=
  if floatLane t then
    let x := (laneFmt t).decode a
    if floatLane d then .ok ((laneFmt d).round x rm r)
    else
      let w := laneBits d
      if tr && intOverflows x w rm r then .error .cvtOverflow else .ok (wrapInt w (roundInt x w rm r))
  else
    let v := sextNat (laneBits t) a
    if floatLane d then .ok ((laneFmt d).round (.ofInt v) rm r)
    else
      let w := laneBits d
      let c := min (2 ^ (w - 1) - 1) (max (-2 ^ (w - 1)) v)
      if tr && c ≠ v then .error .cvtOverflow else .ok (wrapInt w c)

/-- `vcvt` (R360): part j of the destination when it narrows, part j of the source when it widens. -/
def execVcvt (f : FmtAV) (s : State) : Out :=
  s.slotA (.vcvt f) fun s => s.vecIssue fun s =>
    let d : BitVec 2 := f.sub.extractLsb' 0 2
    let lt := lanesOf s.cx.long f.t
    let ld := lanesOf s.cx.long d
    let j := f.vb.toNat
    let rounds := convertRounds f.t d
    let rm := if rounds then s.roundMode f.mod else .rne
    let narrow := decide (ld ≥ lt)
    let on := fun i => s.laneOn f.me f.km ld i && (!narrow || (j * lt ≤ i && i < (j + 1) * lt))
    s.lanewise f.vd.toNat [f.va.toNat] d false (rm = .sr) on
      (fun i l r =>
        convertLane f.t d (f.sub.toNat ≥ 4) rm (laneAt (laneBits f.t) (l.getD 0 0) (if narrow then i - j * lt else j * ld + i)) r)

/-- The special functions of R269: the code, and whether the input is a domain case. -/
inductive SpecialFn where
  | exp2 | log2 | rcp | rsqrt | sqrt | tanh
  deriving DecidableEq, Repr

/-- A negative number or infinity, and not a zero: the domain cases of R269. -/
def belowZero (x : XNum) : Bool := x.sign && !x.isZero && !x.isNan

/-- One function of one number, rounded once (R269). -/
def specialValue (fn : SpecialFn) (F : FloatFmt) (rm : RoundMode) (x : XNum) : Nat :=
  match fn, x with
  | _, .nan => F.qnan
  | .exp2, .inf n => F.round (if n then .zero false else .inf false) rm
  | .exp2, .fin n m e => if m = 0 then F.round (.ofInt 1) rm else exp2Round F rm n m e
  | .log2, .inf n => if n then F.qnan else F.round (.inf false) rm
  | .log2, .fin n m e =>
    if m = 0 then F.round (.inf true) rm else if n then F.qnan else log2Round F rm m e
  | .rcp, .inf n => F.round (.zero n) rm
  | .rcp, .fin n m e => if m = 0 then F.round (.inf n) rm else F.round (divSticky n 1 0 m e) rm
  | .rsqrt, .inf n => if n then F.qnan else F.round (.zero false) rm
  | .rsqrt, .fin n m e =>
    if m = 0 then F.round (.inf n) rm
    else if n then F.qnan
    else
      let k := 300 + 2 * Nat.log2 m
      let odd := (e % 2).toNat
      let q := 2 ^ (2 * k) / (m * 2 ^ odd)
      let r := isqrt q
      let exact := decide (r * r * (m * 2 ^ odd) = 2 ^ (2 * k))
      F.round (.fin false (2 * r + natOfBool (!exact)) (-((e - odd) / 2) - k - 1)) rm
  | .sqrt, .inf n => if n then F.qnan else F.round (.inf false) rm
  | .sqrt, .fin n m e =>
    if m = 0 then F.round (.zero n) rm else if n then F.qnan else F.round (sqrtSticky m e) rm
  | .tanh, .inf n => F.round (.fin n 1 0) rm
  | .tanh, .fin n m e => if m = 0 then F.round (.zero n) rm else tanhRound F rm n m e

/-- Whether an input is a domain case of a function (R269). -/
def specialDomain (fn : SpecialFn) (x : XNum) : Bool :=
  match fn with
  | .log2 => belowZero x
  | .rsqrt => belowZero x
  | .sqrt => belowZero x
  | _ => false

/-- A special function on lanes (R361). -/
def State.vecSpecial (s : State) (f : FmtAV) (fn : SpecialFn) : Out :=
  s.vecIssue fun s =>
    let rm := s.roundMode f.mod
    if rm = .sr then s.faultA .rmUnsupported
    else
      let F := laneFmt f.t
      s.vecUnaryRaw f (fun a =>
        let x := F.decode a
        if f.sub = 1 && specialDomain fn x then .error .spfnDomain else .ok (specialValue fn F rm x))

/-- `vexp2`, `vlog2`, `vrcp`, `vrsqrt`, `vsqrt`, `vtanh` (R361). -/
def execVexp2 (f : FmtAV) (s : State) : Out := s.slotA (.vexp2 f) fun s => s.vecSpecial f .exp2
/-- `vlog2` (R361). -/
def execVlog2 (f : FmtAV) (s : State) : Out := s.slotA (.vlog2 f) fun s => s.vecSpecial f .log2
/-- `vrcp` (R361). -/
def execVrcp (f : FmtAV) (s : State) : Out := s.slotA (.vrcp f) fun s => s.vecSpecial f .rcp
/-- `vrsqrt` (R361). -/
def execVrsqrt (f : FmtAV) (s : State) : Out := s.slotA (.vrsqrt f) fun s => s.vecSpecial f .rsqrt
/-- `vsqrt` (R361). -/
def execVsqrt (f : FmtAV) (s : State) : Out := s.slotA (.vsqrt f) fun s => s.vecSpecial f .sqrt
/-- `vtanh` (R361). -/
def execVtanh (f : FmtAV) (s : State) : Out := s.slotA (.vtanh f) fun s => s.vecSpecial f .tanh

/-! ### Reductions and scans -/

/-- One combining step of R362 on codes: floats round to the lane format; integers are of width w and wrap. -/
def reduceStep (t : BitVec 2) (op : Nat) (rm : RoundMode) (w : Nat) (a b : Nat) : Nat :=
  if floatLane t then
    let F := laneFmt t
    let x := F.decode a
    let y := F.decode b
    match op with
    | 0 => F.round (XNum.add (rm = .rdn) x y) rm
    | 1 => F.round (XNum.minNum x y) .rne
    | _ => F.round (XNum.maxNum x y) .rne
  else match op with
    | 0 => (a + b) % 2 ^ w
    | 1 => if sextNat w a ≤ sextNat w b then a else b
    | 2 => if sextNat w a ≤ sextNat w b then b else a
    | 3 => min a b
    | 4 => max a b
    | 5 => a &&& b
    | 6 => a ||| b
    | _ => a ^^^ b

/-- One level of the pairwise tree of R273; a disabled value takes no part (R362). -/
def pairUp (op : Nat → Nat → Nat) : List (Option Nat) → List (Option Nat)
  | a :: b :: r =>
    (match a, b with
     | some x, some y => some (op x y)
     | some x, none => some x
     | none, y => y) :: pairUp op r
  | l => l

/-- The tree over at most 2^fuel lanes. -/
def pairTree (op : Nat → Nat → Nat) : Nat → List (Option Nat) → Option Nat
  | 0, l => (l.head?).join
  | n + 1, l => pairTree op n (pairUp op l)

/-- An integer lane extended to 64 bits for `vred` (R362). -/
def extendLane (t : BitVec 2) (op : Nat) (a : Nat) : Nat :=
  if floatLane t || op ≥ 3 then a else (sextWord (laneBits t) a).toNat

/-- `vred` (R362). -/
def execVred (f : FmtAVS) (s : State) : Out :=
  s.slotA (.vred f) fun s => s.vecIssue fun s =>
    let op := f.imm.toNat
    let rm := s.roundMode f.mod
    let b := laneBits f.t
    let n := lanesOf s.cx.long f.t
    if floatLane f.t && op = 0 && rm = .sr then s.faultA .rmUnsupported
    else s.withVecs true [f.va.toNat] [] fun vals =>
      let lanes := (List.range n).map (fun i =>
        if s.laneOn f.me f.km n i then some (extendLane f.t op (laneAt b (vals.getD 0 0) i)) else none)
      let v := (pairTree (reduceStep f.t op rm 64) 8 lanes).getD 0
      (s.popStreams [f.va.toNat]).result f.xd (BitVec.ofNat 64 v)

/-- The prefixes of a chain in ascending lane order (R363). -/
def scanLanes (op : Nat → Nat → Nat) (on : Nat → Bool) (a old : Nat → Nat) : List Nat → Option Nat → List Nat
  | [], _ => []
  | i :: is, p =>
    if on i then
      let q := match p with
        | none => a i
        | some x => op x (a i)
      q :: scanLanes op on a old is (some q)
    else old i :: scanLanes op on a old is p

/-- `vscan` (R363). -/
def execVscan (f : FmtAV) (s : State) : Out :=
  s.slotA (.vscan f) fun s => s.vecIssue fun s =>
    let op := f.sub.toNat
    let rm := s.roundMode f.mod
    let b := laneBits f.t
    let n := lanesOf s.cx.long f.t
    if floatLane f.t && op = 0 && rm = .sr then s.faultA .rmUnsupported
    else s.withVecs true [f.va.toNat] [f.vd.toNat] fun vals =>
      let ls := scanLanes (reduceStep f.t op rm b) (s.laneOn f.me f.km n) (laneAt b (vals.getD 0 0)) (laneAt b (s.ownVec f.vd.toNat)) (List.range n) none
      .next ((s.popStreams [f.va.toNat]).setVec f.vd.toNat (packLanes b ls)).fall

end Sys2Proof.Machine
end

