-- ==== Sys2Proof/Machine/Attention.lean ====
section
/-! DEFINITION. The attention engine of an A-tile: R384 to R390. Words of engine state: QBUF from 0, two elements a word; SBUF from 0x400;
MBUF from 0x800; LBUF from 0x810; OBUF from 0x1800. -/

namespace Sys2Proof.Machine

/-! ### Buffers (R384) -/

/-- Row r of QBUF as BF16 codes. -/
def Engine.qRow (e : Engine) (r : Nat) : List Nat := (e.words (64 * r) 64).flatMap (fun w => [w % 65536, w / 65536])
def Engine.sRow (e : Engine) (r : Nat) : List Nat := e.words (0x400 + 64 * r) 64
def Engine.oRow (e : Engine) (r d : Nat) : List Nat := e.words (0x1800 + 128 * r) d
def Engine.mAt (e : Engine) (r : Nat) : Nat := (e.mem.get 0 (0x800 + r)).toNat
def Engine.lAt (e : Engine) (r : Nat) : Nat := (e.mem.get 0 (0x810 + r)).toNat

/-- Pairs of codes as words. -/
def wordPairs : List Nat → List Nat
  | a :: b :: rest => (a + 65536 * b) :: wordPairs rest
  | [a] => [a]
  | [] => []

def Engine.setQRow (e : Engine) (r : Nat) (codes : List Nat) : Engine := e.setWords (64 * r) (wordPairs ((codes ++ List.replicate 128 0).take 128))
def Engine.setSRow (e : Engine) (r : Nat) (vs : List Nat) : Engine := e.setWords (0x400 + 64 * r) vs
def Engine.setORow (e : Engine) (r : Nat) (vs : List Nat) : Engine := e.setWords (0x1800 + 128 * r) vs
def Engine.setM (e : Engine) (r v : Nat) : Engine := e.setWords (0x800 + r) [v]
def Engine.setL (e : Engine) (r v : Nat) : Engine := e.setWords (0x810 + r) [v]

/-- ATTST (R384). -/
def Engine.attst (e : Engine) : Nat :=
  e.attState % 8 * 2 ^ 61 + e.attNk % 128 * 2 ^ 53 + e.attQn % 32 * 2 ^ 48 + e.attD % 256 * 2 ^ 40 + e.attPois.toNat * 2 ^ 36 + e.attBlocks % 2 ^ 32

/-- Steps 2 to 5 of R390: roles, poisoned buffers that are read, the sequence of R385, the engine's occupancy and the pace. -/
def State.attIssue (s : State) (states : List Nat) (reads : BitVec 4) (k : State → Out) : Out :=
  match s.engineRole 2 15 with
  | some c => s.faultC c
  | none =>
    if s.eng.attPois &&& reads ≠ 0 then s.faultC .ueAcc
    else if !states.contains s.eng.attState then s.faultC .attOrder
    else s.afterOccupancy fun s => s.pace .four k

/-- What the path accepts (R263), then a further cause; `geos` are the geometries. -/
def State.attAccepts (s : State) (fmts geos : List Nat) (late : Option Cause) (fmt geo : Nat) : Option Cause :=
  if !fmts.contains fmt || !bitAt (s.engineMask (tileOfCtx s.cur)) fmt then some .fmtUnsupported
  else if !geos.contains geo || geoPairBad fmt geo then some .geoPath
  else late

/-! ### `att.qk` (R386) -/

/-- NK of `att.qk`: 0 acts as 64. -/
def attKeys (ext : Nat) : Nat := if bitsAt ext 22 16 = 0 then 64 else bitsAt ext 22 16

/-- The engine with a query block loaded (R386). -/
def Engine.loadQueries (e : Engine) (d qn : Nat) (rows : List Row) : Engine :=
  let e1 := (List.range 16).foldl (fun e r => ((e.setQRow r ((rows.getD r ⟨[], []⟩).codes)).setM r 0xFF800000).setL r 0) e
  let e2 := (List.range 16).foldl (fun e r => e.setORow r (List.replicate 128 0)) e1
  { e2 with attD := d, attQn := qn, attBlocks := 0, attPois := 0 }

/-- One score (R386): blocks of 32 in ascending order. -/
def attScore (q k : List XNum) (scales : List Nat) (d : Nat) : Nat :=
  (List.range (d / 32)).foldl (fun acc b =>
    addContrib acc (blockContrib 127 (scales.getD b 127) (List.zip ((q.drop (32 * b)).take 32) ((k.drop (32 * b)).take 32)))) 0

/-- The engine with the scores of nk keys formed (R386). -/
def Engine.formScores (e : Engine) (fmt nk d : Nat) (keys : List Row) : Engine :=
  let ks := keys.map (fun r => (r.values fmt (fun _ => 0), r.scales))
  let e1 := (List.range 16).foldl (fun e r =>
    let q := (e.qRow r).map bf16.decode
    e.setSRow r ((List.range 64).map (fun k => if k < nk then attScore q (ks.getD k ([], [])).1 (ks.getD k ([], [])).2 d else 0))) e
  { e1 with pmask := (List.range 16).map (fun r => (r, BitVec.ofNat 64 (2 ^ 64 - 2 ^ nk))), attNk := nk, attState := 2 }

/-- `att.qk` (R386). -/
def execAttQk (f : FmtWE) (s : State) : Out :=
  s.slotC (.attQk f) fun s =>
    let loads := bitAt f.opt.toNat 0
    let ext := f.ext.toNat
    s.attIssue (if loads then [0, 1, 2, 3, 4] else [1, 4]) (if loads then 0 else 8) fun s =>
      let d := if loads then bitsAt ext 7 0 else s.eng.attD
      let qn := if bitsAt ext 12 8 = 0 then 16 else bitsAt ext 12 8
      let nk := attKeys ext
      let head := if (d ≠ 32 ∧ d ≠ 64 ∧ d ≠ 96 ∧ d ≠ 128) ∨ qn > 16 then some Cause.attHead else none
      let qva := (s.x f.xc).toNat
      let kva := (s.x f.xa).toNat
      let pitch := (s.x f.xb).toNat
      let keys := min nk 64
      let long := if nk > 64 then some Cause.attLen else none
      s.orHalt (whereHas loads (s.rowsAt .read qva (rowStarts qva (2 * d) (min qn 16)) (fun _ => d))) fun qr =>
      s.orHalt (s.rowsAt .read kva (rowStarts kva pitch keys) (fun _ => d)) fun kr =>
      s.orFirst [(qva, qr.bind rowCodes), (kva, rowCodes kr), (qva, qr.bind (fun r => s.attAccepts [6] [0] none r.2.fmt r.2.geo)),
          (kva, s.attAccepts [6, 8, 9] [0, 1, 2] none kr.2.fmt kr.2.geo), (qva, qr.bind (fun _ => head)), (kva, long)] fun _ =>
      s.orHalt (whereHas loads (s.rowPlan .read qva (2 * d) (min qn 16) (fun _ => d) (s.attAccepts [6] [0] head) none)) fun qp =>
        s.orHalt (s.rowPlan .read kva pitch keys (fun _ => d) (s.attAccepts [6, 8, 9] [0, 1, 2] long) none) fun kp =>
          let qbad := match qp with
            | some p => !s.rowsOpen p
            | none => false
          if qbad then s.engineStop ((qp.map RowPlan.pieces).getD []) 0 qva
          else if !s.rowsOpen kp then s.engineStop kp.pieces 0 kva
          else
            let e1 := match qp with
              | some p => s.eng.loadQueries d qn (s.readRows p d)
              | none => s.eng
            let base := (16 * nk * d + 2047) / 2048 + (if loads then 4 else 0)
            State.notePieces (((qp.map RowPlan.pieces).getD []) ++ kp.pieces)
              (s.engineDone (e1.formScores kp.fmt nk d (s.readRows kp d)) (occupancyOf base s.tile.h 2) false)

/-! ### `att.sm` (R387) -/

/-- exp2 of the difference of two FP32 codes, rounded into F. -/
def expDiff (F : FloatFmt) (a b : Nat) : Nat :=
  specialValue .exp2 F .rne (fp32.decode (roundS (XNum.add false (fp32.decode a) (fp32.decode b).neg)))

/-- The sums of neighbours, and the tree of R273 over 2^n values with FP32 rounding. -/
def addNeighbours : List Nat → List Nat
  | a :: b :: rest => addS a b :: addNeighbours rest
  | l => l
def treeSum : Nat → List Nat → Nat
  | 0, l => l.headD 0
  | n + 1, l => treeSum n (addNeighbours l)

/-- maximumNumber of two FP32 codes (R268). -/
def maxNumS (a b : Nat) : Nat := fp32.round (XNum.maxNum (fp32.decode a) (fp32.decode b)) .rne

/-- One row of `att.sm`: scale c, the masked keys as a bit mask. -/
def Engine.softmaxRow (e : Engine) (c mask r : Nat) : Engine :=
  let masked := fun (k : Nat) => bitAt mask k
  let e := { e with pmask := e.pmask.put r (BitVec.ofNat 64 mask) }
  let open_ := (List.range 64).filter (fun k => !masked k)
  if open_.isEmpty then e.setSRow r (List.replicate 64 0)
  else
    let t := (e.sRow r).map (fun v => mulS v c)
    let mn := open_.foldl (fun a k => maxNumS a (t.getD k 0)) (e.mAt r)
    let alpha := expDiff fp32 (e.mAt r) mn
    let p := (List.range 64).map (fun k => if masked k then 0 else 65536 * expDiff bf16 (t.getD k 0) mn)
    let l := addS (mulS (e.lAt r) alpha) (treeSum 6 p)
    (((e.setSRow r p).setL r l).setM r mn).setORow r ((e.oRow r e.attD).map (fun v => mulS v alpha))

/-- The masked keys of a row (R387). -/
def attMask (nk len qpos kpos r : Nat) (causal : Bool) : Nat :=
  ((List.range 64).map (fun k => if k ≥ nk || k ≥ len || (causal && decide (kpos + k > qpos + r)) then 2 ^ k else 0)).sum

/-- `att.sm` (R387). -/
def execAttSm (f : FmtWE) (s : State) : Out :=
  s.slotC (.attSm f) fun s =>
    s.attIssue [2] 7 fun s =>
      let c := (s.x f.xa).toNat % 2 ^ 32
      let len := (s.x f.xb).toNat
      let causal := bitAt f.opt.toNat 0
      let pos := (s.x f.xc).toNat
      if len > 64 then s.faultC .attLen
      else
        let e := (List.range 16).foldl (fun e r => e.softmaxRow c (attMask e.attNk len (pos % 2 ^ 32) (pos / 2 ^ 32) r causal) r) s.eng
        s.engineDone { e with attState := 3 } (occupancyOf 16 s.tile.h 2) false

/-! ### `att.pv` (R388) -/

/-- The contribution of a key group to one output element. -/
def pvContrib (p : List XNum) (column : List (XNum × Nat)) (keys : List Nat) : Nat :=
  let terms := keys.map (fun k => (p.getD k .nan, column.getD k (.nan, 127)))
  if terms.any (fun t => t.2.2 = 255) then fp32.qnan
  else roundS (exactDot (terms.map (fun t => (t.1, t.2.1.scale ((t.2.2 : Int) - 127)))))

/-- One row of `att.pv`. -/
def Engine.pvRow (e : Engine) (columns : List (List (XNum × Nat))) (r : Nat) : Engine :=
  let p := (e.sRow r).map fp32.decode
  let mask := (e.pmask.get 0 r).toNat
  let groups := [0, 1].map (fun g => (List.range 32).filterMap (fun i => if bitAt mask (32 * g + i) then none else some (32 * g + i)))
  e.setORow r ((e.oRow r e.attD).mapIdx (fun d v => groups.foldl (fun acc ks => if ks.isEmpty then acc else addS acc (pvContrib p (columns.getD d []) ks)) v))

/-- `att.pv` (R388). -/
def execAttPv (f : FmtWE) (s : State) : Out :=
  s.slotC (.attPv f) fun s =>
    s.attIssue [3] 7 fun s =>
      let d := s.eng.attD
      let nk := s.eng.attNk
      s.withRows (s.x f.xa).toNat (s.x f.xb).toNat nk (fun _ => d) (s.attAccepts [6, 8, 9] [0, 1, 2] none) none 0 fun p rows =>
        let vals := rows.map (fun r => (r.values p.fmt (fun _ => 0), r.scales))
        let columns := (List.range d).map (fun i => vals.map (fun v => (v.1.getD i .nan, v.2.getD (i / 32) 127)))
        let e := (List.range 16).foldl (fun e r => e.pvRow columns r) s.eng
        s.engineDone { e with attBlocks := (e.attBlocks + 1) % 2 ^ 32, attState := 4 } (occupancyOf ((16 * nk * d + 2047) / 2048) s.tile.h 2) false

/-! ### `att.fin` (R389) -/

/-- An exact quotient, rounded once (R301 points for zeros and infinities). -/
def XNum.div (a b : XNum) : XNum :=
  match a, b with
  | .nan, _ => .nan
  | _, .nan => .nan
  | .inf _, .inf _ => .nan
  | .inf x, .fin y _ _ => .inf (x != y)
  | .fin x _ _, .inf y => .zero (x != y)
  | .fin x m e, .fin y n f => if n = 0 then (if m = 0 then .nan else .inf (x != y)) else if m = 0 then .zero (x != y) else divSticky (x != y) m e n f

/-- Row r of the output in a page format. -/
def Engine.finRow (e : Engine) (F : FloatFmt) (r : Nat) : List Nat :=
  let l := fp32.decode (e.lAt r)
  (e.oRow r e.attD).map (fun o => if l.isZero then 0 else F.round (XNum.div (fp32.decode o) l) .rne)

/-- What a destination page must be: FP32 or BF16 with GEO 0, and aligned (R389). -/
def finAccepts (fmts : List Nat) (va pitch : Nat) (fmt geo : Nat) : Option Cause :=
  if !fmts.contains fmt ∨ geo ≠ 0 then some .fmtUnsupported
  else if va % (fmtBits fmt / 8) ≠ 0 ∨ pitch % (fmtBits fmt / 8) ≠ 0 then some .misaligned
  else none

/-- `att.fin` (R389). -/
def execAttFin (f : FmtWE) (s : State) : Out :=
  s.slotC (.attFin f) fun s =>
    let ml := bitAt f.opt.toNat 0
    s.attIssue [4] 3 fun s =>
      let e := s.eng
      let va := (s.x f.xa).toNat
      let pitch := (s.x f.xb).toNat
      let mva := (s.x f.xc).toNat
      s.orHalt (s.rowsAt .write va (rowStarts va pitch e.attQn) (fun _ => e.attD)) fun r =>
      s.orHalt (whereHas ml (s.rowsAt .write mva [mva] (fun _ => 32))) fun mr =>
      s.orFirst [(va, rowCodes r), (mva, mr.bind rowCodes), (va, finAccepts [5, 6] 0 0 r.2.fmt r.2.geo),
          (mva, mr.bind (fun q => finAccepts [5] 0 0 q.2.fmt q.2.geo))] fun _ =>
      s.orHalt (s.rowPlan .write va pitch e.attQn (fun _ => e.attD) (finAccepts [5, 6] va pitch) none) fun p =>
        let mplan := whereHas ml (s.rowPlan .write mva 128 1 (fun _ => 32) (fun fmt geo =>
            match finAccepts [5] mva 128 fmt geo with
            | some c => some c
            | none => if mva % 128 ≠ 0 then some .misaligned else none) none)
        s.orHalt mplan fun mq =>
          let mp := (mq.map RowPlan.data).getD []
          if s.rowsFull p || s.piecesFull mp.flatten then .next (s.stallOn 0)
          else
            let F := if p.fmt = 0x05 then fp32 else bf16
            let out := (List.range e.attQn).map (fun r => packLanes (fmtBits p.fmt) (e.finRow F r))
            let mlv := packLanes 32 (e.words 0x800 32)
            let s1 := (s.storeRows p.data out).storeRows mp [mlv]
            s1.operandHold.engineDone { s1.eng with attState := 0 } (occupancyOf ((16 * e.attD + 63) / 64) s.tile.h 2) false

end Sys2Proof.Machine
end

