-- ==== Sys2Proof/Machine/Barrier.lean ====
section
/-! DEFINITION. Barrier objects and the barrier instructions: R226 to R233, R336, R337. -/

namespace Sys2Proof.Machine

/-- A barrier of a field hub. -/
def State.barAt (s : State) (f b : Nat) : Barrier := (s.hubOf f).barriers.get {} b

/-- Change a barrier object. -/
def State.updBar (s : State) (f b : Nat) (g : Barrier → Barrier) : State :=
  s.updHub f (fun h => { h with barriers := h.barriers.put b (g (h.barriers.get {} b)) })

/-- A barrier reference: field and index, when every other bit is zero, the field exists and is in the tag's partition (R226,
R227). -/
def State.barRef (s : State) (tag : Nat) (r : Word) : Option (Nat × Nat) :=
  let f := bitsOf r 14 8
  if bitsOf r 63 15 ≠ 0 ∨ f > 89 then none
  else match s.partOfTag tag with
    | none => none
    | some p => if (s.partOf p).fields.contains f then some (f, bitsOf r 7 0) else none

/-- Ply statuses (R226). -/
def plyOk : Nat := 0
def plyOver : Nat := 1
def plyUnder : Nat := 2
def plyAbort : Nat := 3
def plyAged : Nat := 4
def plyPending : Nat := 5

/-- The status with which the oldest ply completes, if it completes now (R231). -/
def Barrier.oldestStatus (b : Barrier) (rtime : Nat) : Option Nat :=
  let n := b.oldest % 4
  if b.arr.get 0 n ≠ b.mm1 + 1 then none
  else if b.bal.get 0 n = 0 then some plyOk
  else if b.bal.get 0 n < 0 then some plyOver
  else if b.tmo ≠ 0 ∧ rtime - b.last.get 0 n ≥ 1000 * b.tmo then some plyUnder
  else none

/-- The oldest ply leaves with a status (R231). -/
def Barrier.finishPly (b : Barrier) (st rtime : Nat) : Barrier :=
  let n := b.oldest % 4
  { b with
    hist := b.hist % 2 ^ 9 * 8 + st, last := b.last.put n 0, bal := b.bal.put n 0, arr := b.arr.put n 0, povf := b.povf.put n false,
    parr := b.parr.put n [], lead := b.lead.map (fun e => (e.1, e.2 - 1)), oldest := (b.oldest + 1) % 2 ^ 32, done := rtime }

/-- The waiters of a ply take its status (R231, R233). -/
def State.releaseWaiters (s : State) (f b ply st : Nat) : State :=
  let (out, stay) := (s.barAt f b).waiters.partition (fun w => w.2 = ply)
  (out.foldl (fun s w => s.updFiring w.1 (fun c => if c.stall.isSome then { c with reply := some (.value st) } else c)) s).updBar f b
    (fun o => { o with waiters := stay })

/-- `try_complete` (R231): plies complete in ascending order; a paced one reports to the pacer (R232). At most four plies are
open. -/
def State.tryComplete (f b : Nat) : Nat → State → State
  | 0, s => s
  | n + 1, s =>
    let o := s.barAt f b
    match o.oldestStatus s.rtime with
    | none => s
    | some st =>
      let slot := o.oldest % 4
      let s1 := if o.pace && !o.povf.get false slot then
          { s with bank := { s.bank with plyReports := s.bank.plyReports ++
            [{ device := s.loith.device, barrier := 256 * f + b, owner := o.owner, ply := o.oldest, since := o.done, arrivals := (o.parr.get [] slot).map (fun e => e.2), spans := o.scope = 5 }] } }
        else s
      State.tryComplete f b n ((s1.releaseWaiters f b o.oldest st).updBar f b (fun o => o.finishPly st s.rtime))

/-- The arrival of a field in PARR of a ply (R232): its entry, else the first free one of sixteen, else overflow. -/
def Barrier.recordField (b : Barrier) (slot field time : Nat) : Barrier :=
  let l : KMap (Nat × Nat) := b.parr.get [] slot
  if l.any (fun (e : Nat × Nat × Nat) => e.2.1 = field) then
    { b with parr := b.parr.put slot (l.map (fun (e : Nat × Nat × Nat) => if e.2.1 = field then (e.1, field, time) else e)) }
  else match (List.range 16).find? (fun j => (KMap.find? l j).isNone) with
  | some j => { b with parr := b.parr.put slot (l.put j (field, time)) }
  | none => { b with povf := b.povf.put slot true }

/-- How a hub answers an arrival: the ply, a refusal that the core repeats, or a fault (R228). -/
inductive Arrival where
  | ply (p : Nat)
  | refused
  | bad (cause : Cause)
  deriving DecidableEq, Repr

/-- `arrive(m, E)` at the hub (R228). -/
def State.arrive (s : State) (f b m e tag field : Nat) : Arrival × State :=
  let o := s.barAt f b
  if !o.valid ∨ o.owner ≠ tag ∨ m > o.mm1 then (.bad .barBad, s)
  else
    let l := o.lead.get 0 m
    if l ≥ 3 then (.refused, s)
    else
      let p := (o.oldest + l) % 2 ^ 32
      let slot := p % 4
      if o.bal.get 0 slot + (e : Int) > 2 ^ 39 - 1 then (.bad .barRange, s)
      else
        let s1 := s.updBar f b (fun o =>
          let o1 := { o with bal := o.bal.put slot (o.bal.get 0 slot + e), arr := o.arr.put slot (o.arr.get 0 slot + 1),
                             lead := o.lead.put m (l + 1), last := o.last.put slot s.rtime }
          if o.pace then o1.recordField slot field (s.rtime % 2 ^ 56) else o1)
        (.ply p, State.tryComplete f b 4 s1)

/-- A delivery of n bytes to ply p of a barrier (R229): the write stands in any case; a refused accounting gives the cause of its
item. -/
def State.deliver (s : State) (f b p n tag : Nat) : Option Cause × State :=
  let o := s.barAt f b
  let slot := p % 4
  if !o.valid ∨ o.owner ≠ tag then (some .barBad, s)
  else if (p + 2 ^ 32 - o.oldest) % 2 ^ 32 > 3 then (some .barPly, s)
  else if o.bal.get 0 slot - (n : Int) < -2 ^ 39 then (some .barRange, s)
  else (none, State.tryComplete f b 4 (s.updBar f b (fun o => { o with bal := o.bal.put slot (o.bal.get 0 slot - n) })))

/-- The GPA of a barrier object (R105, R226). -/
def barGpa (f b : Nat) : Nat := 0x3FF * 2 ^ 54 + 3 * 2 ^ 52 + f * 2 ^ 45 + 0x300000 + 0x400 * b

/-- An arrival of member `m` with an expected count (R228, R336): release once, as wide as the object's home (R215), then send, then hold for the ply. -/
def State.barArrive (s : State) (xd : BitVec 5) (ref member : Word) (e : Nat) : Out :=
  match s.barRef s.tag ref with
  | none => s.faultC .barBad 0 ref.toNat
  | some (f, b) =>
    let o := s.barAt f b
    let m := member.toNat
    let send := fun (s : State) => Host.Outcome.next (s.holdFor { kind := .arrival, gpa := barGpa f b, size := 8, data := e, data2 := m })
    s.holding 0 (fun _ => ref.toNat)
      (fun s =>
        if !o.valid ∨ o.owner ≠ s.tag ∨ m > o.mm1 then s.faultC .barBad 0 ref.toNat
        else if e ≥ 2 ^ 39 then s.faultC .barRange 0 ref.toNat
        else if s.cx.refusedArr then (if o.lead.get 0 m ≥ 3 then .next (s.stallOn .waitBar) else send s)
        else s.releaseThen o.scope (homeScope (s.reachGpa (barGpa f b))) .waitFence send)
      (fun p => s.result xd (BitVec.ofNat 64 p))

/-- `bar.arr` (R228, R336). -/
def execBarArr (f : FmtCR) (s : State) : Out := s.slotC (.barArr f) fun s => s.barArrive f.xd (s.x f.xa) (s.x f.xb) 0

/-- `bar.arrx`: the expected byte count is u(xd), read before the bundle (R228, R336). -/
def execBarArrx (f : FmtCR) (s : State) : Out :=
  s.slotC (.barArrx f) fun s => s.barArrive f.xd (s.x f.xa) (s.x f.xb) (s.x f.xd).toNat

/-- The status that R233 gives for a ply: none while it is open. `none` at the outer level is `BAR_PLY`. -/
def Barrier.plyStatus (b : Barrier) (p : Nat) : Option (Option Nat) :=
  let d := (p + 2 ^ 32 - b.oldest) % 2 ^ 32
  if d ≤ 3 then some none
  else if d < 2 ^ 31 then none
  else if d ≤ 2 ^ 32 - 5 then some (some plyAged)
  else some (some (b.hist / 2 ^ (3 * (2 ^ 32 - 1 - d)) % 8))

/-- `bar.wt` and `bar.tst` (R233, R336). -/
def State.barWait (s : State) (f : FmtCR) (waits : Bool) : Out :=
  let ref := s.x f.xa
  match s.barRef s.tag ref with
  | none => s.faultC .barBad 0 ref.toNat
  | some (fl, b) =>
    let o := s.barAt fl b
    match s.cx.reply with
    | some (.value st) => s.result f.xd (BitVec.ofNat 64 st)
    | _ =>
    if !o.valid ∨ o.owner ≠ s.tag then s.faultC .barBad 0 ref.toNat
    else match o.plyStatus (bitsOf (s.x f.xb) 31 0) with
      | none => s.faultC .barPly 0 ref.toNat
      | some (some st) => s.result f.xd (BitVec.ofNat 64 st)
      | some none =>
        if waits then
          let w := (s.cx.firing, bitsOf (s.x f.xb) 31 0)
          .next ((s.updBar fl b (fun o => { o with waiters := o.waiters.filter (fun v => v.1 ≠ w.1) ++ [w] })).stallOn .waitBar)
        else s.result f.xd (BitVec.ofNat 64 plyPending)

/-- `bar.wt` (R233, R336). -/
def execBarWt (f : FmtCR) (s : State) : Out := s.slotC (.barWt f) fun s => s.barWait f true

/-- `bar.tst` (R233, R336). -/
def execBarTst (f : FmtCR) (s : State) : Out := s.slotC (.barTst f) fun s => s.barWait f false

/-- A barrier after `bar.init` (R227). -/
def Barrier.initialised (b : Barrier) (tag members scope tmo : Nat) (pace : Bool) (rtime : Nat) : Barrier :=
  { valid := true, pace := pace, scope := scope, owner := tag, mm1 := members - 1, tmo := tmo,
    oldest := if b.valid then (b.oldest + 4) % 2 ^ 32 else 0, hist := 0x6DB, done := rtime }

/-- `bar.init` (R227, R337). -/
def execBarInit (f : FmtWE) (s : State) : Out :=
  s.slotC (.barInit f) fun s =>
    let ref := s.x f.xa
    let n := (s.x f.xb).toNat
    let scope := f.opt.toNat % 8
    match s.barRef s.tag ref with
    | none => s.faultC .barBad 0 ref.toNat
    | some (fl, b) =>
      let o := s.barAt fl b
      if (o.valid ∧ o.owner ≠ s.tag) ∨ n = 0 ∨ n > 1024 ∨ scope < 2 ∨ scope > 4 then s.faultC .barBad 0 ref.toNat
      else
        let s1 := if o.valid then (List.range 4).foldl (fun s i => s.releaseWaiters fl b ((o.oldest + i) % 2 ^ 32) plyAbort) s else s
        .next (s1.updBar fl b (fun o => o.initialised s.tag n scope f.ext.toNat (bitAt f.opt.toNat 3) s.rtime)).fall

end Sys2Proof.Machine
end

