-- ==== Sys2Proof/Machine/Bank.lean ====
section
/-! DEFINITION. The events of the bank, the bankers and the pacer: R55 to R62, R65, R68, R69, R72, R423. An event of a field names it in
`arg.unit`. -/

namespace Sys2Proof.Machine

/-! ### The ramp (R68) -/

/-- One pip in the units of the ramp. -/
def rampUnit : Nat := 24000000

/-- A GPA names a share register (R57 to R59). -/
def shareRegister (g : Nat) : Bool :=
  let o := gpaHubOff g
  gpaSpace g = 3 && ((0x10008 ≤ o && o < 0x10010) || (0x10040 ≤ o && o < 0x10060) || (0x20100 ≤ o && o < 0x20180))

/-- A field's allowance for one microsecond: RATE / 1.2 per ms, in proportion to SHARE (R68). -/
def State.rampStep (s : State) (f : Nat) : Nat := s.bank.ramp * (s.hubOf f).share

/-- Allowance of a field that has not lapsed. -/
def Hub.allowance (h : Hub) (rtime : Nat) : Nat := ((h.ramp.filter (fun e => rtime < e.1 + 1000000)).map (fun e => e.2)).sum

/-- Take units of allowance, oldest first. -/
def spendRamp : Nat → List (Nat × Nat) → List (Nat × Nat)
  | _, [] => []
  | n, (t, v) :: rest => (t, v - n) :: spendRamp (n - v) rest

/-- Pips of added ballast that a grant can take over (R68). -/
def State.ballastFree (s : State) (f : Nat) : Nat := ((s.hubOf f).level - rampUnit * s.heldOf f) / rampUnit

/-- Pips that a field can grant now to its head request, and those of them that ballast gives (R55, R68). None while LIMIT is set, while
the bank is taken over, or while the tile is under notice. -/
def State.grantNow (s : State) (f : Nat) : Option (Nat × PipReq × Nat × Nat) :=
  match s.pipHead f with
  | none => none
  | some (t, r) =>
    let x := s.tileOf t
    if s.bank.limit || s.bankPaused || !x.notices.isEmpty then none
    else
      let want := min (r.target - x.h) (s.availOf f)
      let ball := min want (s.ballastFree f)
      let rest := want - ball
      let ok := if s.bank.ramp = 0 then rest else min rest ((s.hubOf f).allowance s.rtime / rampUnit)
      some (t, r, ball + ok, ball)

/-- `BANKER_GRANT` of field `unit` (R48, R55, R56, R68). -/
def execBankerGrant (s : State) : Out :=
  let f := s.arg.unit
  match s.grantNow f with
  | none => .next s
  | some (t, r, n, ball) =>
    if n = 0 then .next s
    else
      let x := s.tileOf t
      let h := x.h + n
      let cls := if x.h = 0 then r.cls else max x.hclass r.cls
      let s1 := s.updTile t (fun x => { x with h := h, hclass := cls, raised := s.rtime, req := if h ≥ r.target then none else some r })
      let paid := if s.bank.ramp = 0 then 0 else rampUnit * (n - ball)
      let s2 := s1.updHub f (fun k => { k with
        ramp := spendRamp paid k.ramp, level := k.level + rampUnit * (n - ball), ball := k.ball - ball, rampSince := none })
      .next (if r.notify then s2.powerMessage t 0xFF81 0 x.h h cls s.rtime else s2)

/-! ### The shortfall (R60, R423) -/

/-- Active lent leases that may be recalled, in ascending START. -/
def State.recallable (s : State) (f : Nat) : List (Nat × Lease) :=
  (List.filter (fun e => e.2.valid && e.2.dir = 0 && e.2.st = 0 && e.2.src ≠ 3 && e.2.start + 100000 ≤ s.rtime) (s.hubOf f).leases).mergeSort
    (fun a b => decide (a.2.start ≤ b.2.start))

/-- Leases to recall until their counts reach n. -/
def takeLeases : Nat → List (Nat × Lease) → List (Nat × Lease)
  | _, [] => []
  | n, e :: es => if n = 0 then [] else e :: takeLeases (n - e.2.count) es

/-- The other fields of a field's running partition, ascending from its own number and wrapping (R60). -/
def State.otherFields (s : State) (f : Nat) : List Nat :=
  match s.partOfTag (s.hubOf f).runTag with
  | none => []
  | some p => let fs := (s.partOf p).fields
    fs.filter (· > f) ++ fs.filter (· < f)

/-- Recalls and reason-0 notices in progress for the request of tile t (R423). A request that replaces an outstanding one is the same request with
another target. -/
def State.inProgress (s : State) (f t : Nat) : Nat :=
  ((List.filter (fun e => e.2.valid && e.2.dir = 0 && e.2.st ≠ 0 && e.2.forReq = some t) (s.hubOf f).leases).map (fun e => e.2.count)).sum +
    s.pendingIf f (fun n => n.reason = 0 && n.forReq = some t)

/-- The part that recalls and leases do not cover is revoked, as far as lower classes allow (R423). -/
def State.coverByRevoking (s : State) (f n : Nat) : State :=
  match s.pipHead f with
  | none => s
  | some (t, r) => s.revoke f n 0 r.cls (some t)

/-- The shortfall of the head request of a field, when it has not been worked on, or when a lent lease has meanwhile come to the age of recall (R60). -/
def State.shortfall (s : State) (f : Nat) : Option (Nat × PipReq × Nat) :=
  match s.pipHead f with
  | none => none
  | some (t, r) =>
    let n := r.target - (s.tileOf t).h - s.freeOf f
    let done := (s.hubOf f).coverFor = some (t, r.target, r.age) && ((s.recallable f).isEmpty || n ≤ s.inProgress f t)
    if n = 0 || done || !(s.hubOf f).asks.isEmpty || (s.hubOf f).answer.isSome then none else some (t, r, n)

/-- `SHORTFALL_COVER` of field `unit` (R423). -/
def execShortfallCover (s : State) : Out :=
  let f := s.arg.unit
  match s.shortfall f with
  | none => .next s
  | some (t, r, n) =>
    let n0 := n - s.inProgress f t
    let recalls := takeLeases n0 (s.recallable f)
    let s1 := recalls.foldl (fun s e => s.recallLease f e.1 1 (some t)) s
    let n1 := n0 - (recalls.map (fun e => e.2.count)).sum
    let h := s.hubOf f
    let others := s.otherFields f
    let s2 := s1.updHub f (fun h => { h with coverFor := some (t, r.target, r.age), coverLeft := n1, coverAsked := n1 })
    if n1 = 0 || h.coverFor = some (t, r.target, r.age) then .next s2
    else if h.borrow && !others.isEmpty then
      (if (s1.hubOf f).freeLease.isSome then .next (s2.updHub f (fun h => { h with asks := others }))
       else .next ((s2.coverByRevoking f n1).reportField f .leaseTableFull []))
    else .next (s2.coverByRevoking f n1)

/-- Banker g runs the partition of banker f, and may lend to it (R60). -/
def State.mayLend (s : State) (g f : Nat) : Bool :=
  (s.hubOf g).lend && (s.pipQueue g).isEmpty && (s.hubOf g).runTag = (s.hubOf f).runTag && (s.hubOf g).sw.step ≤ 1

/-- `LEASE_REQUEST`: the banker that field `unit` asks next answers from its FREE (R60). -/
def execLeaseRequest (s : State) : Out :=
  let f := s.arg.unit
  let h := s.hubOf f
  if s.bankPaused then .next s
  else match h.asks, h.answer with
  | g :: rest, none =>
    let l := s.hubOf g
    let n := if s.mayLend g f then min (s.availOf g) h.coverLeft else 0
    let dur := max 100 l.lease
    let answer := fun (s : State) (n : Nat) => s.updHub f (fun h => { h with asks := rest, answer := some (g, n, dur, s.rtime) })
    if n = 0 then .next (answer s 0)
    else match l.freeLease with
      | none => .next ((answer s 0).reportField g .leaseTableFull [])
      | some i => .next (answer (s.updHub g (fun k => k.putLease i { valid := true, dir := 0, peer := f, count := n, dur := dur, start := s.rtime })) n)
  | _, _ => .next s

/-- The entry of a banker that stands for the same lease as another banker's. -/
def Hub.leaseLike (h : Hub) (dir peer : Nat) (l : Lease) : Option Nat :=
  (List.find? (fun e => e.2.valid && e.2.dir = dir && e.2.peer = peer && e.2.src = l.src && e.2.start = l.start && e.2.count = l.count) h.leases).map (fun e => e.1)

/-- `LEASE_ANSWER` at field `unit`: the borrowed entry; after the last answer, what is left is revoked (R60, R423). -/
def execLeaseAnswer (s : State) : Out :=
  let f := s.arg.unit
  let h := s.hubOf f
  if s.bankPaused then .next s
  else match h.answer with
  | none => .next s
  | some (g, n, dur, start) =>
    let l : Lease := { valid := true, dir := 1, peer := g, count := n, dur := dur, start := start }
    let s1 := if n = 0 then s else match h.freeLease with
      | some j => s.updHub f (fun h => { h.putLease j l with coverLeft := h.coverLeft - n })
      | none => match (s.hubOf g).leaseLike 0 f l with
        | some i => (s.updHub g (fun k => k.putLease i {})).reportField f .leaseTableFull []
        | none => s
    let s2 := s1.updHub f (fun h => { h with answer := none, asks := if h.coverLeft = 0 || h.freeLease.isNone then [] else h.asks })
    let k := s2.hubOf f
    if !k.asks.isEmpty || k.coverLeft = 0 then .next s2
    else
      let s3 := s2.coverByRevoking f k.coverLeft
      .next (if k.coverLeft = k.coverAsked then s3.reportField f .leaseDenied [] else s3)

/-- A borrowed lease comes up for renewal (R60); leases of the shuffle are exempt (R73). -/
def Lease.renewalDue (l : Lease) (rtime : Nat) : Bool := l.valid && l.dir = 1 && l.st = 0 && l.src ≠ 3 && l.start + 1000 * l.dur ≤ rtime + 2000

/-- A borrower's entry whose lender no longer has the lease ends as one that is not renewed: what FREE does not cover is revoked (R58, R60). -/
def State.endAlone (s : State) (f j : Nat) (l : Lease) : State :=
  let avail := s.availOf f
  (s.updHub f (fun h => h.putLease j { l with st := 2, until_ := s.rtime + 2000 })).revoke f (l.count - avail) 1 4 none

/-- `LEASE_RENEWAL` of entry `other` of the borrower `unit` (R60). -/
def execLeaseRenewal (s : State) : Out :=
  let f := s.arg.unit
  let j := s.arg.other
  let l := (s.hubOf f).leases.get {} j
  if !l.renewalDue s.rtime || s.bankPaused then .next s
  else match (s.hubOf l.peer).leaseLike 0 f l with
    | none => .next (s.endAlone f j l)
    | some i =>
      let k := s.hubOf l.peer
      if s.mayLend l.peer f then
        let renew := fun (x : Lease) => { x with start := l.start + 1000 * l.dur, dur := if l.src = 0 then max 100 k.lease else l.dur }
        .next ((s.updHub l.peer (fun h => h.putLease i (renew (h.leases.get {} i)))).updHub f (fun h => h.putLease j (renew l)))
      else .next (s.recallLease l.peer i 2)

/-- The notice of a lease that is recalled or ends has expired: its time has come, and no notice of the borrower that was made for it waits for its effect
behind a relock (R60, R65). -/
def State.leaseNoticeOver (s : State) (borrower : Nat) (l : Lease) : Bool :=
  decide (l.until_ ≤ s.rtime) && s.pendingIf borrower (fun n => n.reason = 1 && decide (n.effect ≤ l.until_)) = 0

/-- A lent lease can end: its notice has expired (R60). -/
def State.leaseEndDue (s : State) (l : Lease) : Bool :=
  !s.bankPaused && l.valid && l.dir = 0 && l.st ≠ 0 && s.leaseNoticeOver l.peer l

/-- The same for a borrower's entry that no lender's entry stands against. -/
def State.aloneEndDue (s : State) (f : Nat) (l : Lease) : Bool :=
  !s.bankPaused && l.valid && l.dir = 1 && l.st ≠ 0 && s.leaseNoticeOver f l && ((s.hubOf l.peer).leaseLike 0 f l).isNone

/-- `LEASE_END` of entry `other` of the lender `unit`, or of a borrower left alone (R60). -/
def execLeaseEnd (s : State) : Out :=
  let g := s.arg.unit
  let i := s.arg.other
  let l := (s.hubOf g).leases.get {} i
  if s.aloneEndDue g l then .next (s.updHub g (fun h => h.putLease i {}))
  else if !s.leaseEndDue l then .next s
  else
    let s1 := s.updHub g (fun h => h.putLease i {})
    .next (match (s.hubOf l.peer).leaseLike 1 g l with
      | some j => s1.updHub l.peer (fun h => h.putLease j {})
      | none => s1)

/-! ### Revocation (R62, R65, R72) -/

/-- The entry of the lease that an early field has made for a share in this ply (R72). -/
def Hub.leaseFor (h : Hub) (o : PaceShare) : Option (Nat × Lease) := match o.start with
  | some t => List.find? (fun e => e.2.valid && e.2.dir = 0 && e.2.src = 2 && e.2.peer = o.to_ && e.2.st = 0 && e.2.start = t) h.leases
  | none => none

/-- Give k pips of field f to a straggler's share: its lease is made, or has its COUNT raised (R72). -/
def State.fillShare (s : State) (f k : Nat) (o : PaceShare) : State :=
  match (s.hubOf f).leaseFor o with
  | some (i, l) =>
    let s1 := s.updHub f (fun h => h.putLease i { l with count := l.count + k })
    match (s.hubOf o.to_).leaseLike 1 f l with
    | some j => s1.updHub o.to_ (fun h => h.putLease j { h.leases.get {} j with count := l.count + k })
    | none => s1
  | none => s.makeLease f o.to_ k o.dur 2 s.rtime

/-- n pips of field f fill shares in order; the shares still open (R72). -/
def State.fillShares (f : Nat) : Nat → List PaceShare → State → State × List PaceShare
  | _, [], s => (s, [])
  | n, o :: os, s =>
    let k := min n o.pips
    let made := if k = 0 then s else s.fillShare f k o
    let (s1, rest) := State.fillShares f (n - k) os made
    (s1, if o.pips = k then rest else { o with pips := o.pips - k, start := if k = 0 then o.start else some (o.start.getD s.rtime) } :: rest)

/-- Pips that pacer notices have freed in field f fill the open shares (R72); during a takeover of the bank they wait (R57). Shares that no further notice
will fill lapse. -/
def State.payShares (s : State) (f n : Nat) : State :=
  if s.bankPaused then s.updHub f (fun h => { h with paceDebt := h.paceDebt + n })
  else
    let (s1, rest) := State.fillShares f n (s.hubOf f).paceOwed s
    s1.updHub f (fun h => { h with paceOwed := if s1.pendingOf f 4 = 0 then [] else rest, paceDebt := 0 })

/-- A notice has come to its time: not in a relock, and one that fell into a relock waits for the first boundary of an engine instruction after it
(R19, R65). -/
def State.noticeReady (s : State) (t : Nat) (n : Notice) : Bool :=
  let h := s.hubOf (fieldOfTile t)
  h.locking.isNone && decide (n.effect ≤ s.rtime) && (decide (h.relocked < n.effect) || !s.engBusy t)

/-- The first notice of a tile takes effect (R62). -/
def State.noticeDue (s : State) (t : Nat) : Bool := match (s.tileOf t).notices with
  | n :: _ => s.noticeReady t n
  | [] => false

/-- A tile's body after its first notice took effect. -/
def Tile.noticed (x : Tile) (newh : Nat) : Tile :=
  let h := min x.h newh
  { x with h := h, hclass := if h = 0 then 0 else x.hclass, notices := x.notices.drop 1 }

/-- The migration that holds the state of the logical tile that was at a tile, with its first notice, when that is due (R65). -/
def State.movingNotice (s : State) (t : Nat) : Option (Nat × Migration × Moved × Notice) :=
  (List.range s.migrations.length).findSome? (fun i => match s.migrations[i]? with
    | some g => match g.image with
      | some m => match m.tile.notices with
        | n :: _ => if g.oldTile = t ∧ (s.hubOf (fieldOfTile t)).locking.isNone ∧ n.effect ≤ s.rtime then some (i, g, m, n) else none
        | [] => none
      | none => none
    | none => none)

/-- What the field does with pips that a notice freed. -/
def State.noticePays (s : State) (f n reason : Nat) : State := if reason = 4 then s.payShares f n else s

/-- The due notice of the logical tile that has left tile t and is not at its new tile yet takes effect (R65). -/
def State.movingEffect (s : State) (t : Nat) : State := match s.movingNotice t with
  | none => s
  | some (i, g, m, n) =>
    let s1 : State := { s with migrations := s.migrations.take i ++ [{ g with image := some { m with tile := m.tile.noticed n.newh } }] ++ s.migrations.drop (i + 1) }
    s1.noticePays (fieldOfTile t) (m.tile.h - min m.tile.h n.newh) n.reason

/-- `REVOCATION_EFFECT` at tile `unit`, or of the logical tile that has left it and is not at its new tile yet (R62, R65, R72). -/
def execRevocationEffect (s : State) : Out :=
  let t := s.arg.unit
  match (s.tileOf t).notices with
  | [] => .next (s.movingEffect t)
  | n :: _ =>
    if !s.noticeDue t then .next (s.movingEffect t)
    else
      let old := (s.tileOf t).h
      .next ((s.updTile t (fun x => x.noticed n.newh)).noticePays (fieldOfTile t) (old - min old n.newh) n.reason)

/-! ### Share registers (R57 to R59) -/

/-- PSHAREp as it reads, and the budget in valid shares. -/
def State.pshareWord (s : State) (p : Nat) : Nat :=
  natOfBool (s.bank.pvalid.get false p) * 2 ^ 31 + natOfBool (s.bank.prefused.get false p) * 2 ^ 30 + s.bank.pshare.get 0 p
def State.allocated (s : State) : Nat := ((List.range 16).map (fun p => if s.bank.pvalid.get false p then s.bank.pshare.get 0 p else 0)).sum

/-- A write of PSHAREp (R58): refused when the valid shares would sum above 20,000. -/
def State.pshareWrite (s : State) (p v : Nat) : State :=
  let b := { s.bank with prefused := if bitAt v 30 then s.bank.prefused.put p false else s.bank.prefused }
  let others := s.allocated - (if s.bank.pvalid.get false p then s.bank.pshare.get 0 p else 0)
  if bitAt v 31 && others + bitsAt v 15 0 > 20000 then { s with bank := { b with prefused := b.prefused.put p true } }
  else { s with bank := { b with pvalid := b.pvalid.put p (bitAt v 31), pshare := b.pshare.put p (bitsAt v 15 0) } }

/-- `PSHARE_WRITE`: PSHARE `unit` takes `value` (R58). -/
def execPshareWrite (s : State) : Out := .next (if s.bankPaused then s else s.pshareWrite s.arg.unit s.arg.value)

/-- A write of BKSHARE (R58): the excess over the new share is revoked with reason 2. Pips under notice are gone from HELD, as leases that are recalled or
end are gone from BORR: what was noticed for such a lease is no part of the excess. -/
def State.bkshareWrite (s : State) (f v : Nat) : State :=
  let share := bitsAt v 15 0
  let h := s.hubOf f
  let later := s.heldOf f - s.pendingIf f (fun _ => true)
  let s1 := s.updHub f (fun h => { h with share := share })
  s1.revoke f (later + h.leased 0 - (h.leased 1 - h.leaving) - share) 2 4 none

/-- `BKSHARE_WRITE`: field `unit` takes `value` (R58, R59). -/
def execBkshareWrite (s : State) : Out := .next (if s.bankPaused then s else s.bkshareWrite s.arg.unit s.arg.value)

/-- The index of the running member in a field's sharing group. -/
def Hub.runIndex (h : Hub) : Option Nat := match h.run with
  | none => none
  | some p => h.group.findIdx? (· = p)

/-- A write of BKGSHAREs (R59). -/
def State.bkgshareWrite (s : State) (f i v : Nat) : State :=
  let s1 := s.updHub f (fun h => { h with gshares := h.gshares.put i (bitsAt v 15 0) })
  if (s.hubOf f).runIndex = some i then s1.bkshareWrite f v else s1

/-- `BKGSHARE_WRITE`: entry `other` of field `unit` takes `value` (R59). -/
def execBkgshareWrite (s : State) : Out := .next (if s.bankPaused then s else s.bkgshareWrite s.arg.unit s.arg.other s.arg.value)

/-- A write of RAMPW (R69). -/
def State.rampwWrite (s : State) (v : Nat) : State :=
  let b := { s.bank with rampBad := s.bank.rampBad && !bitAt v 31 }
  let n := bitsAt v 15 0
  if 1 ≤ n ∧ n ≤ 99 then { s with bank := { b with rampBad := true } } else { s with bank := { b with ramp := n } }

/-- `RAMPW_WRITE` of `value` (R69). -/
def execRampwWrite (s : State) : Out := .next (s.rampwWrite s.arg.value)

/-- A write of FLOORW (R69). -/
def State.floorwWrite (s : State) (v : Nat) : State :=
  let b := { s.bank with floorBad := s.bank.floorBad && !bitAt v 31 }
  let n := bitsAt v 15 0
  if n > 24000 then { s with bank := { b with floorBad := true } } else { s with bank := { b with floor := n } }

/-- `FLOORW_WRITE` of `value` (R69). -/
def execFloorwWrite (s : State) : Out := .next (s.floorwWrite s.arg.value)

/-! ### Ballast (R68, R69) -/

/-- FLOORP of a field (R69). -/
def State.floorp (s : State) (f : Nat) : Nat := 10 * s.bank.floor * (s.hubOf f).share / (12 * 20000)

/-- Pips that the powered engines without a holding could run as added ballast, up to F each; and what of them FREE covers (R69). -/
def State.ballastEngines (s : State) (f : Nat) : Nat :=
  ((fieldTiles f).map (fun t => if (s.tileOf t).pwr = 0 ∧ (s.tileOf t).h = 0 then fullRate (tileKind t) else 0)).sum
def State.ballastRoom (s : State) (f : Nat) : Nat := min (s.freeOf f) (s.ballastEngines f)

/-- Fill ballast: engines that hold pips and issued nothing paced in the last microsecond (R69). -/
def State.fillBallast (s : State) (f : Nat) : Nat :=
  ((fieldTiles f).map (fun t => if (s.tileOf t).lastPaced + 1000 ≤ s.rtime then (s.tileOf t).h else 0)).sum

/-- A microsecond of RTIME has passed since the banker last metered. -/
def State.ballastDue (s : State) (f : Nat) : Bool := decide ((s.hubOf f).tick < s.rtime / 1000)

/-- The head request waits for the ramp alone (R68). -/
def State.rampWaits (s : State) (f : Nat) : Bool := match s.grantNow f with
  | some (t, r, 0, _) => decide (min (r.target - (s.tileOf t).h) (s.availOf f) > 0)
  | _ => false

/-- The microseconds metered at once, oldest first: each brings its own allowance, which lapses on its own (R68). -/
def rampEntries (tick now step : Nat) : List (Nat × Nat) :=
  if step = 0 then [] else (List.range (min 1000 (now - tick))).map (fun i => (1000 * (now - min 1000 (now - tick) + i + 1), step))

/-- `BALLAST_UPDATE` of field `unit` (R68, R69): the allowance of each microsecond since the last one, fill and added ballast, and the events of waiting.
With RAMPW.RATE = 0 the field has no ramp allowance by which added ballast could decay, so it stays (DESIGN CHOICE; log 109). Pips that waited for the
bank's takeover fill their shares (R57). Added ballast that rises to FLOORP takes nothing of the field's ramp allowance (DESIGN CHOICE; log 130). -/
def execBallastUpdate (s : State) : Out :=
  let f := s.arg.unit
  if !s.ballastDue f then .next s
  else
    let h := s.hubOf f
    let step := s.rampStep f
    let held := rampUnit * s.heldOf f
    let n := s.rtime / 1000 - h.tick
    let ramp := (h.ramp ++ rampEntries h.tick (s.rtime / 1000) step).filter (fun e => s.rtime < e.1 + 1000000)
    let runs := h.ballastEn && !s.bank.limit
    let level := if runs then max held (max (rampUnit * s.floorp f) (h.level - n * step)) else held
    let need := (level - held + rampUnit - 1) / rampUnit
    let room := s.ballastRoom f
    let deficit := if runs then s.floorp f - s.heldOf f - s.ballastEngines f else 0
    let waits := s.rampWaits f
    let since := if waits then some (h.rampSince.getD s.rtime) else none
    let late := match since with
      | some t => decide (t + 1000000 < s.rtime) && decide (s.rtime ≤ t + 1001000)
      | none => false
    let s1 := (s.countFabric f 0x46 ((h.ball + h.fill) * n)).updHub f (fun h => { h with
      tick := s.rtime / 1000, ramp := ramp, level := min level (held + rampUnit * room), ball := if runs then min need room else 0,
      fill := if runs then s.fillBallast f else 0, floorUnmet := decide (deficit > 0), rampSince := since })
    let s2 := if deficit > 0 ∧ !h.floorUnmet then s1.reportField f .floorUnmet [deficit] else s1
    let s3 := if h.paceDebt = 0 || s.bankPaused then s2 else s2.payShares f h.paceDebt
    .next (if late then s3.reportField f .rampLimited [] else s3)

/-! ### The pacer (R72, R89) -/

/-- The new N of a member field, and whether NMIN or NMAX held it (R72). No clock goes above its ceiling (R23). -/
def State.paceTo (s : State) (f slack d : Nat) : Nat × Bool :=
  let n := (s.hubOf f).curn
  let b := s.bank
  if slack < 1000 * b.minskew then
    (min (n + 2) (min b.nmax (s.ceilingWith f none)), decide (n + 2 > b.nmax))
  else
    let fit := (n * d + (d + slack) - 1) / (d + slack)
    (max (n - 2) (max b.nmin fit), decide (max (n - 2) fit < b.nmin))

/-- The shares of n pips among stragglers, the remainder to the lowest (R72). -/
def sharesOf (n dur : Nat) (gs : List Nat) : List PaceShare :=
  let m := gs.length
  gs.mapIdx (fun i g => { to_ := g, pips := n / m + (if i = 0 then n % m else 0), dur := dur })

/-- An early field lends n pips to the stragglers for a time in µs (R72). -/
def State.paceLend (s : State) (f n dur : Nat) (stragglers : List Nat) : State :=
  if n = 0 || stragglers.isEmpty then s
  else
    let avail := min n (s.availOf f)
    let (s1, rest) := State.fillShares f avail (sharesOf n dur stragglers) s
    (s1.updHub f (fun h => { h with paceOwed := h.paceOwed ++ rest })).revoke f (n - avail) 4 4 none

/-- Pacer leases that a field may recall: those it lent at least 100 µs ago (R60, R72). -/
def State.paceRecalls (s : State) (f : Nat) : List Nat := ((s.recallable f).filter (fun e => e.2.src = 2)).map (fun e => e.1)

/-- One member field of a ply (R72): its clock, by a write of NEWN, and PACESTAT; the pips that it frees. -/
def State.paceField (s : State) (f amax arr t0 : Nat) : State × Nat :=
  let slack := amax - arr
  let d := arr - t0
  let n := (s.hubOf f).curn
  let (newn, clamped) := s.paceTo f slack d
  let freed := if newn < n then s.heldOf f * (n - newn) / n else 0
  let s1 := s.updHub f (fun h => { h with
    slack := min 65535 (slack / 1000), plydur := min 65535 (d / 1000), plies := (h.plies + 1) % 256, pacen := if newn = n then h.pacen else newn })
  let s2 := if newn = n then s1 else s1.newnWrite f newn
  let s3 := if clamped then s2.reportField f .pacerClamp [] else s2
  ((if newn > n && decide (slack < 1000 * s.bank.minskew) then s.paceRecalls f else []).foldl (fun s i => s.recallLease f i 1) s3, freed)

/-- The other devices of the domain: those that a port leads to (R76). -/
def State.otherDevices (s : State) : List Nat := (s.loith.devport.filter (fun e => e.1 ≠ s.loith.device && e.2 < 72)).map (fun e => e.1)

/-- A ply's report leaves for the bank of another device as a SYS message of class 0xFF90 (R89): the ply, then a word of each member field with its arrival
(DESIGN CHOICE; log 110). -/
def State.tellPacer (s : State) (r : PlyReport) (dev : Nat) : State :=
  let words := BitVec.ofNat 64 r.ply :: r.arrivals.map (fun e => BitVec.ofNat 64 (e.1 * 2 ^ 56 + e.2 % 2 ^ 56))
  let port := s.loith.devport.get 0xFF dev
  let from_ := tileOfLocal (if s.bank.onmirror then 89 else 0) 53
  { s with flying := s.flying ++ [{ hwMessage 0xFF90 0 0 r.owner words with
      srcCore := 2 * from_, core := 2 * interfaceRouter from_ (port / 9), dev := dev, exit := some port, router := some from_, gen := s.loith.flips }] }

/-- The pacer acts on a ply (R72): only with EN, and on the member fields that have PACE set. -/
def State.pacePly (s : State) (r : PlyReport) : State :=
  let members := (List.filter (fun e => (s.hubOf e.1).pace) r.arrivals).mergeSort (fun a b => decide (a.1 ≤ b.1))
  if !s.bank.paceEn || members.isEmpty then s
  else
    let amax := (r.arrivals.map (fun e => e.2)).foldl max r.others
    let early := members.filter (fun e => decide (1000 * s.bank.minskew ≤ amax - e.2))
    let stragglers := (members.filter (fun e => decide (amax - e.2 < 1000 * s.bank.minskew))).map (fun e => e.1)
    let (s1, freed) := members.foldl (fun (p : State × List (Nat × Nat)) e =>
      let (s', n) := p.1.paceField e.1 amax e.2 r.since
      (s', p.2 ++ [(e.1, n)])) (s, [])
    early.foldl (fun s e =>
      let n := ((freed.find? (fun x => x.1 = e.1)).map (fun x => x.2)).getD 0
      s.paceLend e.1 n (max 100 ((amax - r.since) / 1000)) stragglers) s1

/-- The last report of a barrier of another device that this device took: its ply and its latest arrival (R89). -/
def Bank.lastPly (b : Bank) (dev bar : Nat) : Option (Nat × Nat) := (b.lastPlies.find? (fun e => e.1 = dev && e.2.1 = bar)).map (fun e => e.2.2)

/-- A report of another device arrives (R89): of device `unit` and its barrier `other`, ply `value`, and in `list` each member field as device, field and
arrival. One that comes after the report of a later ply is discarded. The ply before completed with its latest arrival (DESIGN CHOICE; log 110). -/
def State.reportFrom (s : State) (dev bar ply : Nat) (fields : List (List Nat)) : State :=
  let late := match s.bank.lastPly dev bar with
    | some (p, _) => decide ((ply + 2 ^ 32 - p) % 2 ^ 32 = 0 ∨ 2 ^ 31 ≤ (ply + 2 ^ 32 - p) % 2 ^ 32)
    | none => false
  let latest := (fields.map (fun e => e.getD 2 0)).foldl max 0
  if late then s
  else
    let b := { s.bank with lastPlies := s.bank.lastPlies.filter (fun e => !(e.1 = dev && e.2.1 = bar)) ++ [(dev, bar, ply, latest)] }
    match s.bank.lastPly dev bar with
    | none => { s with bank := b }
    | some (_, before) =>
      let mine := fields.filter (fun e => e.getD 0 0 = s.loith.device && e.getD 1 0 < 90)
      { s with bank := { b with plyReports := b.plyReports ++
        [{ device := dev, barrier := bar, ply := ply, since := before, arrivals := mine.map (fun e => (e.getD 1 0, e.getD 2 0)), others := latest }] } }

/-- The triples of a list. -/
def triples : List Nat → List (List Nat)
  | a :: b :: c :: rest => [a, b, c] :: triples rest
  | _ => []

/-- `PACER_REPORT` (R72, R89): the pacer takes the oldest ply report; with `flag` the report of another device arrives. One of a barrier of scope `dom`, which
spans devices, goes to the other devices that a port leads to: the object does not say which of them are members (DESIGN CHOICE; log 110). -/
def execPacerReport (s : State) : Out :=
  if s.arg.flag then .next (s.reportFrom s.arg.unit s.arg.other s.arg.value (triples s.arg.list))
  else match s.bank.plyReports with
  | [] => .next s
  | r :: rest =>
    if s.bankPaused then .next s
    else
      let s0 := { s with bank := { s.bank with plyReports := rest } }
      let s1 := if r.device = s.loith.device && r.spans then s0.otherDevices.foldl (fun s d => s.tellPacer r d) s0 else s0
      .next (s1.pacePly r)

end Sys2Proof.Machine
end

