-- ==== Sys2Proof/Machine/Branch.lean ====
section
/-! DEFINITION. Branches, calls, jumps and loops: R195 to R197, R282, R304 to R307. -/

namespace Sys2Proof.Machine

/-- A branch that is taken or falls through (R304). -/
def State.branchIf (s : State) (taken : Bool) (target : Word) : Out :=
  if taken then .next (s.branch target) else .next s.fall

/-- The conditions of R282 and R304. -/
def condEq (a b : Word) : Bool := a = b
def condNe (a b : Word) : Bool := a ≠ b
def condLt (a b : Word) : Bool := a.toInt < b.toInt
def condGe (a b : Word) : Bool := b.toInt ≤ a.toInt
def condLtu (a b : Word) : Bool := a.toNat < b.toNat
def condGeu (a b : Word) : Bool := b.toNat ≤ a.toNat

/-- `br` (R304). -/
def execBr (f : FmtCJ) (s : State) : Out := s.slotC (.br f) fun s => .next (s.branch (s.target f.off))

/-- `beq` (R304). -/
def execBeq (f : FmtCB) (s : State) : Out :=
  s.slotC (.beq f) fun s => s.branchIf (condEq (s.x f.xa) (s.x f.xb)) (s.target f.off)

/-- `bne` (R304). -/
def execBne (f : FmtCB) (s : State) : Out :=
  s.slotC (.bne f) fun s => s.branchIf (condNe (s.x f.xa) (s.x f.xb)) (s.target f.off)

/-- `blt` (R304). -/
def execBlt (f : FmtCB) (s : State) : Out :=
  s.slotC (.blt f) fun s => s.branchIf (condLt (s.x f.xa) (s.x f.xb)) (s.target f.off)

/-- `bge` (R304). -/
def execBge (f : FmtCB) (s : State) : Out :=
  s.slotC (.bge f) fun s => s.branchIf (condGe (s.x f.xa) (s.x f.xb)) (s.target f.off)

/-- `bltu` (R304). -/
def execBltu (f : FmtCB) (s : State) : Out :=
  s.slotC (.bltu f) fun s => s.branchIf (condLtu (s.x f.xa) (s.x f.xb)) (s.target f.off)

/-- `bgeu` (R304). -/
def execBgeu (f : FmtCB) (s : State) : Out :=
  s.slotC (.bgeu f) fun s => s.branchIf (condGeu (s.x f.xa) (s.x f.xb)) (s.target f.off)

/-- `bz` (R304). -/
def execBz (f : FmtCZ) (s : State) : Out :=
  s.slotC (.bz f) fun s => s.branchIf (decide (s.x f.xa = 0)) (s.target f.off)

/-- `bnz` (R304). -/
def execBnz (f : FmtCZ) (s : State) : Out :=
  s.slotC (.bnz f) fun s => s.branchIf (decide (s.x f.xa ≠ 0)) (s.target f.off)

/-- Far `beq` (R282). -/
def execFarBeq (f : FmtWB) (s : State) : Out :=
  s.slotC (.farBeq f) fun s => s.branchIf (condEq (s.x f.xa) (s.x f.xb)) (s.target f.off)

/-- Far `bne` (R282). -/
def execFarBne (f : FmtWB) (s : State) : Out :=
  s.slotC (.farBne f) fun s => s.branchIf (condNe (s.x f.xa) (s.x f.xb)) (s.target f.off)

/-- Far `blt` (R282). -/
def execFarBlt (f : FmtWB) (s : State) : Out :=
  s.slotC (.farBlt f) fun s => s.branchIf (condLt (s.x f.xa) (s.x f.xb)) (s.target f.off)

/-- Far `bge` (R282). -/
def execFarBge (f : FmtWB) (s : State) : Out :=
  s.slotC (.farBge f) fun s => s.branchIf (condGe (s.x f.xa) (s.x f.xb)) (s.target f.off)

/-- Far `bltu` (R282). -/
def execFarBltu (f : FmtWB) (s : State) : Out :=
  s.slotC (.farBltu f) fun s => s.branchIf (condLtu (s.x f.xa) (s.x f.xb)) (s.target f.off)

/-- Far `bgeu` (R282). -/
def execFarBgeu (f : FmtWB) (s : State) : Out :=
  s.slotC (.farBgeu f) fun s => s.branchIf (condGeu (s.x f.xa) (s.x f.xb)) (s.target f.off)

/-- Far `bz` (R282). -/
def execFarBz (f : FmtWB) (s : State) : Out :=
  s.slotC (.farBz f) fun s => s.branchIf (decide (s.x f.xa = 0)) (s.target f.off)

/-- Far `bnz` (R282). -/
def execFarBnz (f : FmtWB) (s : State) : Out :=
  s.slotC (.farBnz f) fun s => s.branchIf (decide (s.x f.xa ≠ 0)) (s.target f.off)

/-- `call`: the link goes to x31; no loop ends (R305). -/
def execCall (f : FmtCJ) (s : State) : Out :=
  s.slotC (.call f) fun s => .next ((s.setX 31 (s.cx.pc + 8)).retire (s.target f.off))

/-- A jump to a register's value: a target off the bundle grid faults with nothing written (R305). -/
def State.jump (s : State) (target : Word) (link : Option (BitVec 5)) (loops : Bool) : Out :=
  if target.toNat % 8 ≠ 0 then s.faultC .targetAlign
  else
    let s1 := match link with
      | some xd => s.setX xd (s.cx.pc + 8)
      | none => s
    if loops then .next (s1.branch target) else .next (s1.retire target)

/-- `callr` (R305). -/
def execCallr (f : FmtCR) (s : State) : Out := s.slotC (.callr f) fun s => s.jump (s.x f.xa) (some f.xd) false

/-- `jr`: a taken branch (R197, R305). -/
def execJr (f : FmtCR) (s : State) : Out := s.slotC (.jr f) fun s => s.jump (s.x f.xa) none true

/-- `ret` (R305). -/
def execRet (s : State) : Out := s.slotC .ret fun s => s.jump (s.x 31) none false

/-- The checks and effect of R306, in its order. -/
def State.startLoop (s : State) (lenm1 count : Nat) : Out :=
  let c := s.cx
  let a := c.pc.toNat
  let d := c.depthOf
  if a + 8 * (lenm1 + 2) > c.codehi.toNat then s.faultC .loopBody
  else if d = 3 then s.faultC .loopNest
  else if d ≥ 1 ∧ a + 8 * (lenm1 + 1) > c.bodyLast (d - 1) then s.faultC .loopNest
  else if count = 0 then .next (s.retire (BitVec.ofNat 64 (a + 8 * (lenm1 + 2))))
  else
    .next ((s.retire (c.pc + 8)).upd
      (fun c' => { c' with lc := c.lc.put d (lcMake lenm1 ((a + 8 - c.codelo.toNat) / 8) count), pc := c.pc + 8 }))

/-- `loop` (R306). -/
def execLoop (f : FmtCL) (s : State) : Out :=
  s.slotC (.loop f) fun s => s.startLoop f.lenm1.toNat (bitsOf (s.x f.xa) 31 0)

/-- `loopi` (R306). -/
def execLoopi (f : FmtCLI) (s : State) : Out := s.slotC (.loopi f) fun s => s.startLoop f.lenm1.toNat f.count.toNat

/-- `lbrk` (R307). -/
def execLbrk (s : State) : Out :=
  s.slotC .lbrk fun s =>
    let c := s.cx
    let d := c.depthOf
    if d = 0 then s.faultC .loopNest
    else
      .next ((s.upd (fun c => { c with lc := c.lc.put (d - 1) 0 })).retire (BitVec.ofNat 64 (c.bodyLast (d - 1) + 8)))

/-- `nop.c` has no effect (R311). -/
def execNopC (s : State) : Out := s.slotC .nopC fun s => .next s.fall

end Sys2Proof.Machine
end

