-- ==== Sys2Proof/Machine/Bundle.lean ====
section
/-! DEFINITION. What stands before the issue of a bundle: its fetch (R303, R342), the checks of R276, and the events of these. -/

namespace Sys2Proof.Machine

/-! ### Fetch (R303, R342) -/

/-- What a fetch gives: a doubleword with the line kept in the fetch buffer, a fault, or a wait. -/
inductive Fetched where
  | ok (d : Nat) (s : State)
  | bad (e : FaultAt)
  | wait

/-- The 128 bytes of a line of a GPA. -/
def State.fetchLine (s : State) (g : Nat) : List Byte :=
  (List.range 128).map (fun i => BitVec.ofNat 8 (s.viewLE (g / 128 * 128 + i) 1))

/-- The little-endian number of eight bytes from an offset of a line. -/
def lineWord (l : List Byte) (o : Nat) : Nat := ((List.range 8).map (fun i => (l.getD (o + i) 0).toNat * 2 ^ (8 * i))).sum

/-- Fetch the bundle at the PC of the issuing context: in an active loop body from the loop buffer, where it keeps the line (R195, R342). -/
def State.fetch (s0 : State) : Fetched :=
  let c := s0.cx
  let lines := c.loopLines
  let s := if c.loopBuf.length = lines.length then s0 else s0.upd (fun c => { c with loopBuf := lines })
  let pc := c.pc.toNat
  if pc < c.codelo.toNat ∨ c.codehi.toNat ≤ pc then .bad { cause := .codeBounds, addr := pc }
  else match s.checkAccess s.cur pc 8 8 .fetch false with
    | .bad cause synd => .bad { cause := cause, addr := pc, synd := synd }
    | .wait => .wait
    | .ok g _ =>
      let k := s.fetchKey g
      match (if c.inBody pc then (lines.find? (fun e => e.1 = k)).map (fun e => e.2.2) else none).or (s.core.ibuf.find? k) with
      | some l => .ok (lineWord l (g % 128)) s
      | none =>
        if s.poisoned g then
          .bad { cause := if s.latent.any (fun e => s.touches e.1 g 8) then .ueCode else .codePoison, addr := pc, synd := accSyndrome .codePoison .fetch 8 0 }
        else
          let l := s.fetchLine g
          .ok (lineWord l (g % 128)) (s.updCurCore (fun q => { q with ibuf := q.ibuf.put k l }))

/-! ### The checks of R276 and R184 -/

/-- The key of an `x` register as a destination; `x0` is none (R184). `v` registers have keys 32 to 47, mask registers 64 to 71. -/
def xDest (r : BitVec 5) : List Nat := if r = 0 then [] else [r.toNat]

/-- The registers that a slot instruction writes (R184). -/
def writesOf : Instr → List Nat
  | .call _ => [31]
  | .callr f | .wait f | .barArr f | .barArrx f | .barWt f | .barTst f | .send f | .sendr f => xDest f.xd
  | .sendSys f | .peek f | .mcnt f | .mdrop f | .strStat f | .pipStat f | .wlStat f => xDest f.xd
  | .ldB f | .ldBu f | .ldH f | .ldHu f | .ldW f | .ldWu f | .ldD f => xDest f.rt
  | .ldAcq f => xDest f.rt
  | .ldV f | .ldVt f => [32 + f.rt.toNat]
  | .fence f => xDest f.xd
  | .mfs f => xDest f.x
  | .ldBIndexed f | .ldBuIndexed f | .ldHIndexed f | .ldHuIndexed f | .ldWIndexed f | .ldWuIndexed f | .ldDIndexed f => xDest f.rt
  | .ldVIndexed f | .ldVtIndexed f => [32 + f.rt.toNat]
  | .amoAdd f | .amoAnd f | .amoOr f | .amoXor f | .amoMin f | .amoMax f | .amoMinu f | .amoMaxu f => xDest f.xd
  | .amoSwap f | .amoCas f | .amoFaddS f => xDest f.xd
  | .pipLend f => xDest f.xd
  | .mtake f => [32 + f.xd.toNat, 33 + f.xd.toNat] ++ xDest f.xa
  | .capMint f | .capNarrow f | .capSelf f | .actNew f => xDest f.xd ++ xDest (f.xd + 1)
  | .add f | .sub f | .mul f | .mulh f | .mulhu f | .div f | .divu f | .rem f => xDest f.xd
  | .remu f | .and f | .or f | .xor f | .andn f | .orn f | .shl f | .shr f => xDest f.xd
  | .sra f | .rol f | .min f | .max f | .minu f | .maxu f | .slt f | .sltu f => xDest f.xd
  | .seq f | .sel f | .clz f | .ctz f | .popc f | .bswap f | .sextB f | .sextH f => xDest f.xd
  | .sextW f | .zextB f | .zextH f | .zextW f | .faddS f | .fsubS f | .fmulS f | .fmaS f => xDest f.xd
  | .fminS f | .fmaxS f | .feqS f | .fltS f | .fleS f | .fsgnjS f | .fclassS f | .fcvtSW f => xDest f.xd
  | .fcvtWS f | .fcvtSH f | .fcvtHS f | .faddH f | .fsubH f | .fmulH f | .fmaH f | .fminH f => xDest f.xd
  | .fmaxH f | .feqH f | .fltH f | .fleH f | .fsgnjH f | .fclassH f => xDest f.xd
  | .addi f | .andi f | .ori f | .xori f | .shli f | .shri f | .srai f => xDest f.xd
  | .li f | .lih f => xDest f.xd
  | .vadd f | .vsub f | .vmul f | .vfma f => if f.sub.toNat % 2 = 1 then [32 + f.vd.toNat, 33 + f.vd.toNat] else [32 + f.vd.toNat]
  | .vmin f | .vmax f | .vabs f | .vneg f | .vand f | .vor f | .vxor f | .vshl f => [32 + f.vd.toNat]
  | .vshr f | .vsra f | .vsel f | .vcvt f | .vscan f | .vperm f | .vdot4 f | .vexp2 f => [32 + f.vd.toNat]
  | .vlog2 f | .vrcp f | .vrsqrt f | .vsqrt f | .vtanh f | .vmov f | .vpopc f => [32 + f.vd.toNat]
  | .vcmp f => [64 + f.vd.toNat % 8]
  | .vred f | .vext f => xDest f.xd
  | .vbcast f | .vminScalar f | .vmaxScalar f | .vandScalar f | .vorScalar f | .vxorScalar f | .vshlScalar f | .vshrScalar f => [32 + f.vd.toNat]
  | .vsraScalar f | .vselScalar f | .vdot4Scalar f => [32 + f.vd.toNat]
  | .vins f => [32 + f.vd.toNat]
  | .vaddScalar f | .vsubScalar f | .vmulScalar f | .vfmaScalar f => if f.sub.toNat % 2 = 1 then [32 + f.vd.toNat, 33 + f.vd.toNat] else [32 + f.vd.toNat]
  | .vcmpScalar f => [64 + f.vd.toNat % 8]
  | _ => []

/-- What the checks need to know of a slot: the cause of the first failed check, and the registers written. -/
structure SlotInfo where
  cause : Option Cause
  writes : List Nat
  deriving DecidableEq, Repr

/-- The checks of a decoded slot. -/
def slotInfo (long : Bool) (level : Nat) : Except Cause Instr → SlotInfo
  | .error c => { cause := some c, writes := [] }
  | .ok i => { cause := slotCause i long level, writes := writesOf i }

/-- The checks of an A-slot word. -/
noncomputable def infoA (w : Nat) (long : Bool) (level : Nat) : SlotInfo := slotInfo long level (decodeA w)

/-- The checks of a two-operand AR word that does not round. -/
def infoAr (op w : Nat) (f : FmtAR) : SlotInfo :=
  if op * 2 ^ 24 + f.enc = w then { cause := if arBinary f then none else some .reservedField, writes := xDest f.xd }
  else { cause := some .reservedField, writes := [] }

/-- The checks of a `vdot4` word of format AVX. -/
def infoDot4 (w : Nat) (f : FmtAVX) : SlotInfo :=
  if 0xB7 * 2 ^ 24 + f.enc = w then
    { cause := if maskField f.me f.km && f.sub = 0 then (if f.t = 3 then none else some .typeForm) else some .reservedField, writes := [32 + f.vd.toNat] }
  else { cause := some .reservedField, writes := [] }

/-- The checks of the opcodes that `rawALate` holds, without building the instruction. -/
def infoLate (w : Nat) : Option SlotInfo :=
  match w / 2 ^ 24 % 256 with
  | 0x17 => some (infoAr 0x17 w (.dec w))
  | 0x18 => some (infoAr 0x18 w (.dec w))
  | 0x19 => some (infoAr 0x19 w (.dec w))
  | 0x54 => some (infoAr 0x54 w (.dec w))
  | 0x55 => some (infoAr 0x55 w (.dec w))
  | 0x56 => some (infoAr 0x56 w (.dec w))
  | 0x57 => some (infoAr 0x57 w (.dec w))
  | 0x58 => some (infoAr 0x58 w (.dec w))
  | 0x59 => some (infoAr 0x59 w (.dec w))
  | 0xB7 => some (infoDot4 w (.dec w))
  | _ => none

/-- `infoA` by opcode. -/
def infoAFast (w : Nat) (long : Bool) (level : Nat) : SlotInfo :=
  match infoLate w with
  | some i => i
  | none => slotInfo long level (match rawAMost w with
    | none => .error .illegalOpcode
    | some i => if encodeA i = some w then .ok i else .error .reservedField)

theorem slotInfo_ar (i : Instr) (f : FmtAR) (op w : Nat) (long : Bool) (level : Nat) (he : encodeA i = some (op * 2 ^ 24 + f.enc))
    (hr : reservedOk i = arBinary f) (hg : registersOk i = true) (hm : immediatesOk i = true) (hf : formCause i long level = none)
    (hw : writesOf i = xDest f.xd) :
    infoAr op w f = slotInfo long level (if encodeA i = some w then .ok i else .error .reservedField) := by
  simp only [he, Option.some.injEq, infoAr]
  split
  · simp only [slotInfo, slotCause, check, hr, hg, hm, hw]
    cases arBinary f <;> simp [hf]
  · rfl

theorem slotInfo_dot4 (w : Nat) (f : FmtAVX) (long : Bool) (level : Nat) :
    infoDot4 w f = slotInfo long level (if encodeA (.vdot4Scalar f) = some w then .ok (.vdot4Scalar f) else .error .reservedField) := by
  have he : encodeA (.vdot4Scalar f) = some (0xB7 * 2 ^ 24 + f.enc) := rfl
  have hr : reservedOk (.vdot4Scalar f) = (maskField f.me f.km && f.sub = 0) := rfl
  have hg : registersOk (.vdot4Scalar f) = true := rfl
  have hm : immediatesOk (.vdot4Scalar f) = true := rfl
  have hf : formCause (.vdot4Scalar f) long level = if f.t = 3 then none else some .typeForm := rfl
  have hw : writesOf (.vdot4Scalar f) = [32 + f.vd.toNat] := rfl
  simp only [he, Option.some.injEq, infoDot4]
  split
  · simp only [slotInfo, slotCause, check, hr, hg, hm, hw, hf]
    cases (maskField f.me f.km && decide (f.sub = 0)) <;> simp
  · rfl

theorem infoLate_eq (w : Nat) (long : Bool) (level : Nat) :
    infoLate w = (rawALate w).map (fun i => slotInfo long level (if encodeA i = some w then .ok i else .error .reservedField)) := by
  unfold infoLate rawALate
  generalize w / 2 ^ 24 % 256 = op
  split <;> simp only [Option.map_some, Option.map_none, Option.some.injEq]
  · exact slotInfo_ar (.slt (.dec w)) _ _ w long level rfl rfl rfl rfl rfl rfl
  · exact slotInfo_ar (.sltu (.dec w)) _ _ w long level rfl rfl rfl rfl rfl rfl
  · exact slotInfo_ar (.seq (.dec w)) _ _ w long level rfl rfl rfl rfl rfl rfl
  · exact slotInfo_ar (.fminH (.dec w)) _ _ w long level rfl rfl rfl rfl rfl rfl
  · exact slotInfo_ar (.fmaxH (.dec w)) _ _ w long level rfl rfl rfl rfl rfl rfl
  · exact slotInfo_ar (.feqH (.dec w)) _ _ w long level rfl rfl rfl rfl rfl rfl
  · exact slotInfo_ar (.fltH (.dec w)) _ _ w long level rfl rfl rfl rfl rfl rfl
  · exact slotInfo_ar (.fleH (.dec w)) _ _ w long level rfl rfl rfl rfl rfl rfl
  · exact slotInfo_ar (.fsgnjH (.dec w)) _ _ w long level rfl rfl rfl rfl rfl rfl
  · exact slotInfo_dot4 w (.dec w) long level

@[csimp] theorem infoA_eq : @infoA = @infoAFast := by
  funext w long level
  unfold infoA infoAFast decodeA rawA
  rw [infoLate_eq w long level]
  cases rawALate w <;> rfl

/-- Whether two slots write one register (R184 step 4). -/
def writesClash (a b : List Nat) : Bool := a.any b.contains

/-- The first failed check of a bundle (R276): the C slot's, the A slot's, then two writes to one register. -/
def bundleCause (d : Nat) (long : Bool) (level : Nat) : Option FaultAt :=
  let w0 := d % 2 ^ 32
  let w1 := d / 2 ^ 32 % 2 ^ 32
  if w0 / 2 ^ 31 = 1 then (slotInfo long level (decodeWide w0 w1)).cause.map (fun c => { cause := c })
  else
    let ic := slotInfo long level (decodeC w0)
    let ia := infoA w1 long level
    match ic.cause, ia.cause with
    | some c, _ => some { cause := c }
    | none, some c => some { cause := c, slotA := true }
    | none, none => if writesClash ic.writes ia.writes then some { cause := .illegalBundle } else none

/-! ### Sections (R202, R203) -/

/-- A section of the issuing context has been open for 65,536 cycles. -/
def State.sectionLong (s : State) : Bool := s.cx.np && 65536 ≤ s.cyc - s.cx.npstart

/-- `NP_TOO_LONG` at context `unit` (R203). -/
def execNpTooLong (s : State) : Out :=
  let s1 := { s with cur := s.arg.unit }
  if s1.cx.occ && s1.cx.st = 0 && s1.sectionLong then .next (s1.freeze s1.cur { cause := .npTooLong }) else .next s

/-- `ILLEGAL_OPCODE` at context `unit`: its next bundle holds an unassigned opcode (R276). -/
def execIllegalOpcode (s : State) : Out :=
  let s1 := { s with cur := s.arg.unit }
  match s1.fetch with
  | .ok d s2 =>
    (match bundleCause d s1.cx.long s1.level with
     | some e => if s1.cx.occ && s1.cx.st = 0 && e.cause = .illegalOpcode then .next (s2.freeze s2.cur e) else .next s
     | none => .next s)
  | _ => .next s

/-- `CODE_FETCH_FAULT` at context `unit`: its next fetch faults, or, with `flag`, meets an uncorrectable error (R303). -/
def execCodeFetchFault (s : State) : Out :=
  let s1 := { s with cur := s.arg.unit }
  if !(s1.cx.occ && s1.cx.st = 0) then .next s
  else match s1.fetch with
    | .bad e => .next (s1.freeze s1.cur e)
    | .ok _ _ =>
      if s.arg.flag then
        .next (s1.freeze s1.cur { cause := .ueCode, addr := s1.cx.pc.toNat, synd := accSyndrome .ueCode .fetch 8 0 })
      else .next s
    | .wait => .next s

end Sys2Proof.Machine
end

