-- ==== Sys2Proof/Machine/Dense.lean ====
section
/-! DEFINITION. The dense engine of a D-tile: R270, R271, R370 to R383. Lane 32 i + c of an accumulator is row i, column c. -/

namespace Sys2Proof.Machine

/-! ### Accumulators (R271, R371, R372) -/

/-- A lane: its FP32 code and its inner lane. -/
structure Lane where
  v : Nat := 0
  inner : Inner := {}
  deriving DecidableEq, Repr

/-- An accumulator while an instruction works on it. `satSeen` and `infSeen` say that a promotion found SATP set, and left a lane
infinite (R379). -/
structure Accum where
  lanes : List Lane
  inner : Bool := false
  satp : Bool := false
  sat : Bool := false
  blk : Nat := 0
  satSeen : Bool := false
  infSeen : Bool := false
  deriving DecidableEq, Repr

/-- Bit n of a mask of four. -/
def setBit4 (m : BitVec 4) (n : Nat) (b : Bool) : BitVec 4 :=
  let one := BitVec.ofNat 4 (2 ^ n)
  if b then m ||| one else m &&& ~~~one

def Engine.accum (e : Engine) (n : Nat) : Accum :=
  { lanes := (e.words (0x400 * n) 1024).mapIdx (fun l v => { v := v, inner := e.lanes.get {} (1024 * n + l) }),
    inner := e.inner.getLsbD n, satp := e.satp.getLsbD n, sat := e.sat.getLsbD n, blk := e.blk.get 0 n }

/-- The engine with an accumulator put back; ACCST.BLK shows its block count (R372). -/
def Engine.setAccum (e : Engine) (n : Nat) (a : Accum) : Engine :=
  let e1 := e.setWords (0x400 * n) (a.lanes.map (fun l => l.v))
  { e1 with
    lanes := (a.lanes.mapIdx (fun i l => (i, l.inner))).foldl (fun m p => m.put (1024 * n + p.1) p.2) e1.lanes,
    inner := setBit4 e.inner n a.inner, satp := setBit4 e.satp n a.satp, sat := setBit4 e.sat n a.sat, blk := e.blk.put n a.blk, blkShown := a.blk }

/-- One lane of `promote` (R271, R378). -/
def Lane.promote (l : Lane) : Lane :=
  { v := if l.inner.nanp then fp32.qnan else roundS (XNum.add false (fp32.decode l.v) ((XNum.ofInt l.inner.i).scale l.inner.x)),
    inner := { i := 0, x := l.inner.x, nanp := false } }

/-- An FP32 code is an infinity, or is not finite. -/
def isInfS (v : Nat) : Bool := (fp32.decode v).isInf
def notFiniteS (v : Nat) : Bool := (fp32.decode v).isInf || (fp32.decode v).isNan

/-- `promote` of a whole accumulator (R271, R378). -/
def Accum.promote (a : Accum) : Accum :=
  let ls := a.lanes.map Lane.promote
  { a with lanes := ls, inner := false, blk := 0, satSeen := a.satSeen || a.satp, satp := false, infSeen := a.infSeen || ls.any (fun l => isInfS l.v) }

/-- PROMO.PERIOD as it acts (R187). -/
def Engine.period (e : Engine) : Nat := min 64 (max 1 e.promo)

/-! ### The latch (R371, R373) -/

def Engine.latchAt (e : Engine) (j : Nat) : Latch := e.latches.get {} j

/-- Bytes of a map from key 0 on, as a little-endian number. -/
def bytesLE (m : KMap Byte) : Nat → Nat → Nat
  | _, 0 => 0
  | at_, n + 1 => (m.get 0 at_).toNat + 256 * bytesLE m (at_ + 1) n

/-- Column c of a latch: its elements from the data bytes, its scales from the scale bytes. -/
def Latch.column (l : Latch) (c : Nat) : Row :=
  let n := l.k * fmtBits l.fmt / 8
  { codes := unpackLanes (fmtBits l.fmt) l.k (bytesLE l.data (c * n) n), scales := (List.range (l.k / 32)).map (fun b => (l.scales.get 0 (32 * b + c)).toNat) }

/-- The latch that 32 columns give. -/
def latchOf (fmt geo k ready : Nat) (cols : List Row) : Latch :=
  let n := k * fmtBits fmt / 8
  let bytes := fun (at_ n v : Nat) => (List.range n).map (fun i => (at_ + i, BitVec.ofNat 8 (v / 2 ^ (8 * i))))
  { valid := true, fmt := fmt, geo := geo, k := k, ready := ready,
    data := (cols.mapIdx (fun c r => bytes (c * n) n (packLanes (fmtBits fmt) r.codes))).flatten,
    scales := (List.range (k / 32)).flatMap (fun b => cols.mapIdx (fun c r => (32 * b + c, BitVec.ofNat 8 (r.scales.getD b 127)))) }

/-- What a D-tile's paths accept (R263): the format, its capability bit (R32), the geometry. `bad` is the format's cause. -/
def State.denseAccepts (s : State) (bad : Cause) (fmt geo : Nat) : Option Cause :=
  let ok := (fmt = 0x01 || fmt = 0x06 || (0x08 ≤ fmt && fmt ≤ 0x0E)) && bitAt (s.engineMask (tileOfCtx s.cur)) fmt
  if !ok then some bad
  else if geo = 3 || geoPairBad fmt geo then some .geoPath
  else none

/-- The group of a format (R374): 1 float, 2 integer, 3 BF16. -/
def denseGroup (fmt : Nat) : Nat :=
  if 0x08 ≤ fmt ∧ fmt ≤ 0x0C then 1 else if fmt = 0x01 ∨ fmt = 0x0D ∨ fmt = 0x0E then 2 else if fmt = 0x06 then 3 else 0

/-- Products per arithmetic cycle of a pair (R374). -/
def denseRate (fa fb : Nat) : Nat :=
  if fa = 0x06 then 2048 else if (fa = 0x0C ∧ fb = 0x0C) ∨ (fa = 0x0D ∧ fb = 0x0D) then 16384 else 8192

/-- Depth of a latch of a format (R375). -/
def latchDepth (fmt : Nat) : Nat := if fmt = 0x0C ∨ fmt = 0x0D then 64 else 32

/-! ### The multiply (R270, R271, R378) -/

/-- The operands of a multiply: rows of A, columns of B, with decoded values. -/
structure MulArgs where
  fa : Nat
  fb : Nat
  k : Nat
  kv : Nat
  rowm : Nat
  rows : List (List XNum × List Nat)
  cols : List (List XNum × List Nat)

/-- Unmasked pairs of a block of row i and column c. -/
def MulArgs.pairs (m : MulArgs) (i c b : Nat) : List (XNum × XNum) :=
  if !bitAt m.rowm i then []
  else
    let r := (m.rows.getD i ([], [])).1
    let q := (m.cols.getD c ([], [])).1
    (List.zip ((r.drop (32 * b)).take (min 32 (m.kv - 32 * b))) ((q.drop (32 * b)).take 32))

def MulArgs.sa (m : MulArgs) (i b : Nat) : Nat := (m.rows.getD i ([], [])).2.getD b 127
def MulArgs.sb (m : MulArgs) (c b : Nat) : Nat := (m.cols.getD c ([], [])).2.getD b 127

/-- The exponent that an integer format's scale stands against (R271): MXINT8 elements have six fraction bits. -/
def fracBits (fmt : Nat) : Int := if fmt = 0x0E then 6 else 0

/-- The combined exponent of a block (R271). -/
def MulArgs.xb (m : MulArgs) (i c b : Nat) : Int := ((m.sa i b : Int) - 127 - fracBits m.fa) + ((m.sb c b : Int) - 127 - fracBits m.fb)

/-- The integer of an element value (R271): the code of MXINT8, without its fraction. -/
def intOf (fmt : Nat) (x : XNum) : Int :=
  match x.scale (fracBits fmt) with
  | .fin n m e => signedAt n m e 0
  | _ => 0

/-- One float block for every lane (R270). -/
def Accum.floatBlock (a : Accum) (m : MulArgs) (b : Nat) : Accum :=
  { a with
    lanes := a.lanes.mapIdx (fun l lane => { lane with v := addContrib lane.v (blockContrib (m.sa (l / 32) b) (m.sb (l % 32) b) (m.pairs (l / 32) (l % 32) b)) }),
    blk := min (a.blk + 1) 64 }

/-- A block has unmasked products in row i. -/
def MulArgs.live (m : MulArgs) (i b : Nat) : Bool := bitAt m.rowm i && 32 * b < m.kv

/-- One integer block of one lane (R271), with whether it saturated. -/
def Lane.intBlock (lane : Lane) (m : MulArgs) (i c b : Nat) : Lane × Bool :=
  let p : Int := ((m.pairs i c b).map (fun q => intOf m.fa q.1 * intOf m.fb q.2)).sum
  let t := lane.inner.i + p
  let top : Int := 2 ^ 23 - 1
  let nan := m.sa i b = 255 || m.sb c b = 255
  ({ lane with inner := { i := min top (max (-top) t), x := m.xb i c b, nanp := lane.inner.nanp || nan } }, decide (t > top ∨ t < -top))

/-- One integer block for every lane (R271, R378). A combined exponent that differs from a lane's promotes the accumulator before the
block (log 23). -/
def Accum.intBlock (a : Accum) (m : MulArgs) (period b : Nat) : Accum :=
  let differs := a.inner && (a.lanes.mapIdx (fun l lane => m.live (l / 32) b && decide (lane.inner.x ≠ m.xb (l / 32) (l % 32) b))).any id
  let a1 := if differs then a.promote else a
  let done := a1.lanes.mapIdx (fun l lane => if m.live (l / 32) b then lane.intBlock m (l / 32) (l % 32) b else (lane, false))
  let sat := done.any (fun d => d.2)
  let a2 := { a1 with lanes := done.map (fun d => d.1), inner := a1.inner || (List.range 32).any (fun i => m.live i b),
                      sat := a1.sat || sat, satp := a1.satp || sat, blk := a1.blk + 1 }
  if a2.blk ≥ period then a2.promote else a2

/-- The whole multiply (R378). -/
def Accum.multiply (a : Accum) (m : MulArgs) (period : Nat) : Accum :=
  let blocks := List.range (m.k / 32)
  if denseGroup m.fa = 2 then blocks.foldl (fun a b => a.intBlock m period b) a
  else blocks.foldl (fun a b => a.floatBlock m b) (if a.inner then a.promote else a)

/-- The trapping checks of a promotion (R379). -/
def Accum.trap (a : Accum) : Option Cause := if a.satSeen then some .accSat else if a.infSeen then some .promoOverflow else none

/-- The operand checks of `.strict` (R379). -/
def MulArgs.strict (m : MulArgs) : Option Cause :=
  let blocks := List.range (m.k / 32)
  let rows := (List.range 32).filter (fun i => bitAt m.rowm i)
  let nanIn := fun (r : List XNum) => (r.take m.kv).any XNum.isNan
  if m.kv % 32 ≠ 0 then some .blockPartial
  else if rows.any (fun i => nanIn (m.rows.getD i ([], [])).1) || (!rows.isEmpty && m.cols.any (fun c => nanIn c.1)) then some .nanOperand
  else if blocks.any (fun b => 32 * b < m.kv && (rows.any (fun i => m.sa i b = 255) || (!rows.isEmpty && (List.range 32).any (fun c => m.sb c b = 255)))) then some .mxScaleNan
  else none

/-- The checks of R379 in table order, on what the instruction would leave. -/
def mulChecks (ts strict : Bool) (m : MulArgs) (a : Accum) : Option Cause :=
  match (if strict then m.strict else none) with
  | some c => some c
  | none => match (if ts then a.trap else none) with
    | some c => some c
    | none => if strict && a.lanes.any (fun l => notFiniteS l.v) then some .accNonfinite else none

/-- The live stages of the ring of a D-tile, by local column (R11, R381). -/
def State.ringLive (s : State) (t : Nat) : List Nat :=
  (List.range 12).filter (fun lx => !(s.hubOf (fieldOfTile t)).bypass.contains (12 * (localOfTile t / 12) + lx))

/-- The next live stage after a tile of its ring, with the stages in bypass between (R381). -/
def State.ringNext (s : State) (t : Nat) : Nat × Nat :=
  let lx := localOfTile t % 12
  let row := localOfTile t / 12
  match ((List.range 12).map (fun d => d + 1)).find? (fun d => (s.ringLive t).contains ((lx + d) % 12)) with
  | some d => (tileOfLocal (fieldOfTile t) (12 * row + (lx + d) % 12), d - 1)
  | none => (t, 0)

/-- RINGST of a tile (R381). -/
def State.ringst (s : State) (t : Nat) : Nat :=
  if tileKind t ≠ 0 then 0
  else
    let live := s.ringLive t
    let lx := localOfTile t % 12
    let prev := (((List.range 12).map (fun d => (lx + 11 - d) % 12)).find? (fun c => live.contains c)).getD lx
    live.length * 2 ^ 28 + (live.filter (· < lx)).length * 2 ^ 24 + localOfTile (s.ringNext t).1 % 12 * 2 ^ 20 + prev * 2 ^ 16 +
      ((live.map (fun c => 2 ^ c)).sum)

/-- The send of a latch to the next live stage (R381). -/
def State.ringSend (s : State) (j : Nat) : State :=
  let t := tileOfCtx s.cur
  let x : RingXfer := { src := t, srcLatch := j, dst := (s.ringNext t).1, latch := 1 - j, contents := s.eng.latchAt j }
  { s.updEng (fun e => { e with latches := e.latches.put j { e.latchAt j with send := true } }) with rings := s.rings ++ [x] }

/-- `mma` and `mma.ring` (R378, R379, R381, R383). -/
def State.denseMul (s : State) (f : FmtWE) (ring : Bool) : Out :=
  let n := f.opt.toNat % 4
  let j := f.opt.toNat / 4 % 2
  let ts := bitAt f.opt.toNat 3
  let strict := bitAt f.opt.toNat 4
  match s.engineRole 0 (2 ^ n) with
  | some c => s.faultC c
  | none =>
    if s.eng.pois.getLsbD n then s.faultC .ueAcc
    else if ring ∧ (s.ringLive (tileOfCtx s.cur)).length < 2 then s.faultC .ringDark
    else
      let latch := s.eng.latchAt j
      if !latch.valid || latch.pend || s.cyc < latch.ready then .next (s.stallOn 0)
      else s.afterOccupancy fun s => s.pace .four fun s =>
        let k := latch.k
        let kv := if f.ext.toNat = 0 then k else f.ext.toNat
        let accepts := fun (fmt geo : Nat) => match s.denseAccepts .fmtUnsupported fmt geo with
          | some c => some c
          | none => if denseGroup fmt ≠ denseGroup latch.fmt then some Cause.mmaFmt else none
        s.withRows (s.x f.xa).toNat (s.x f.xb).toNat 32 (fun _ => k) accepts (if kv > k then some .immRange else none) n fun p rows =>
          let lut := s.core.lut
          let m : MulArgs :=
            { fa := p.fmt, fb := latch.fmt, k := k, kv := kv, rowm := if f.xc = 0 then 2 ^ 32 - 1 else (s.x f.xc).toNat % 2 ^ 32,
              rows := rows.map (fun r => (r.values p.fmt lut, r.scales)),
              cols := (List.range 32).map (fun c => ((latch.column c).values latch.fmt lut, (latch.column c).scales)) }
          let a := (s.eng.accum n).multiply m s.eng.period
          s.orCause (mulChecks ts strict m a) fun _ =>
            let s1 := if ring then s.ringSend j else s
            let base := k * 1024 / denseRate p.fmt latch.fmt
            s1.engineDone (s1.eng.setAccum n a) (occupancyOf base s.tile.h 0) (ts || strict)

/-- `mma` (R378). -/
def execMma (f : FmtWE) (s : State) : Out := s.slotC (.mma f) fun s => s.denseMul f false

/-- `mma.ring` (R381). -/
def execMmaRing (f : FmtWE) (s : State) : Out := s.slotC (.mmaRing f) fun s => s.denseMul f true

/-- `mx.ldb`: it waits for the engine and for a latch that is leaving or arriving (R370, R380), and its latch is VALID from cycle c + 4 (R414). -/
def execMxLdb (f : FmtWE) (s : State) : Out :=
  s.slotC (.mxLdb f) fun s =>
    let j := f.opt.toNat / 4 % 2
    match s.engineRole 0 0 with
    | some c => s.faultC c
    | none =>
      let latch := s.eng.latchAt j
      if latch.send || latch.pend then .next (s.stallOn 0)
      else s.afterOccupancy fun s =>
        s.orHalt (s.rowPlan .read (s.x f.xa).toNat (s.x f.xb).toNat 32 latchDepth (s.denseAccepts .latchFmt) none) fun p =>
          if !s.rowsOpen p then s.readStop p.pieces (s.x f.xa).toNat 1
          else
            let k := latchDepth p.fmt
            let new := { latchOf p.fmt p.geo k (s.cyc + operandCycles) (s.readRows p k) with rseq := latch.rseq }
            State.notePieces p.pieces (.next ((s.updEng (fun e => { e with latches := e.latches.put j new, latchUntil := s.cyc + 2, inFlight := true })).fall))

/-! ### Accumulator instructions (R382) -/

/-- The cleared state of an accumulator with given FP32 lanes. -/
def freshAccum (vs : List Nat) (sat : Bool) : Accum := { lanes := vs.map (fun v => { v := v }), sat := sat }

/-- The accumulator's mark of an uncorrectable error cleared (R247, R382). -/
def Engine.unpoison (e : Engine) (n : Nat) : Engine := { e with pois := setBit4 e.pois n false }

/-- `acc.zero` (R382): ACCST.SAT stays, as it clears only by `mts`. -/
def execAccZero (f : FmtWE) (s : State) : Out :=
  s.slotC (.accZero f) fun s =>
    let n := f.opt.toNat % 4
    match s.engineRole 0 (2 ^ n) with
    | some c => s.faultC c
    | none => s.afterOccupancy fun s =>
      s.engineDone ((s.eng.setAccum n (freshAccum (List.replicate 1024 0) (s.eng.sat.getLsbD n))).unpoison n) 1 false

/-- The plan of `acc.ld` and `acc.st`: FP32 or BF16 with GEO 0 in rows of 32 lanes (R382, R383). `MISALIGNED` is found with the
placement rules. -/
def State.accPlan (s : State) (acc : Acc) (f : FmtWE) : Except Halt RowPlan :=
  let va := (s.x f.xa).toNat
  let pitch := (s.x f.xb).toNat
  let accepts := fun (fmt geo : Nat) =>
    if (fmt ≠ 0x05 ∧ fmt ≠ 0x06) ∨ geo ≠ 0 then some Cause.accFmt
    else if va % (fmtBits fmt / 8) ≠ 0 ∨ pitch % (fmtBits fmt / 8) ≠ 0 then some Cause.misaligned
    else none
  s.rowPlan acc va pitch 32 (fun _ => 32) accepts none

/-- `acc.ld` (R382): a BF16 NaN gives the canonical NaN. -/
def execAccLd (f : FmtWE) (s : State) : Out :=
  s.slotC (.accLd f) fun s =>
    let n := f.opt.toNat % 4
    match s.engineRole 0 (2 ^ n) with
    | some c => s.faultC c
    | none => s.afterOccupancy fun s =>
      s.orHalt (s.accPlan .read f) fun p =>
        if !s.rowsOpen p then s.engineStop p.pieces n (s.x f.xa).toNat
        else
          let codes := (s.readRows p 32).flatMap (fun r => r.codes)
          let vs := if p.fmt = 0x05 then codes else codes.map (fun c => roundS (bf16.decode c))
          State.notePieces p.pieces (s.engineDone ((s.eng.setAccum n (freshAccum vs (s.eng.sat.getLsbD n))).unpoison n) 4 false)

/-- Codes of 1024 lanes for a page format, in row-major order, and the generator after them (R267, R382). -/
def accCodes (fmt : Nat) (rm : RoundMode) (seed : Nat) (vs : List Nat) : List Nat × Nat :=
  if fmt = 0x05 then (vs, seed)
  else
    let seeds := if rm = .sr then drawSeeds vs.length seed else []
    (vs.mapIdx (fun i v => bf16.round (fp32.decode v) rm (srValue (seeds.getD i 0))), seeds.getLastD seed)

/-- A row of 32 codes as a number. -/
def rowNumber (w : Nat) (vs : List Nat) : Nat := packLanes w vs

/-- `acc.st` (R382): it promotes first, then writes every lane. -/
def execAccSt (f : FmtWE) (s : State) : Out :=
  s.slotC (.accSt f) fun s =>
    let n := f.opt.toNat % 4
    let ts := bitAt f.opt.toNat 3
    let rm := s.roundMode (f.opt.extractLsb' 4 3)
    match s.engineRole 0 (2 ^ n) with
    | some c => s.faultC c
    | none =>
      if s.eng.pois.getLsbD n then s.faultC .ueAcc
      else s.afterOccupancy fun s =>
        s.orHalt (s.accPlan .write f) fun p =>
          if s.rowsFull p then .next (s.stallOn 0)
          else
            let a0 := s.eng.accum n
            let a := if a0.inner then a0.promote else a0
            s.orCause (if ts then a.trap else none) fun _ =>
              if p.fmt = 0x06 ∧ rm = .sr ∧ s.seed = 0 then s.faultC .srSeed
              else
                let (codes, seed) := accCodes p.fmt rm s.seed (a.lanes.map (fun l => l.v))
                let rows := (List.range 32).map (fun i => rowNumber (fmtBits p.fmt) ((codes.drop (32 * i)).take 32))
                let s1 := (s.storeRows p.data rows).setSeed seed
                s1.operandHold.engineDone (s1.eng.setAccum n a) 4 ts

/-- `acc.prom` (R382): every lane is promoted. -/
def execAccProm (f : FmtWE) (s : State) : Out :=
  s.slotC (.accProm f) fun s =>
    let n := f.opt.toNat % 4
    let ts := bitAt f.opt.toNat 3
    match s.engineRole 0 (2 ^ n) with
    | some c => s.faultC c
    | none =>
      if s.eng.pois.getLsbD n then s.faultC .ueAcc
      else s.afterOccupancy fun s =>
        let a := (s.eng.accum n).promote
        s.orCause (if ts then a.trap else none) fun _ => s.engineDone (s.eng.setAccum n a) 1 ts

end Sys2Proof.Machine
end

