-- ==== Sys2Proof/Machine/Operation.lean ====
section
/-! DEFINITION. Operations up to their issue: `gath`, `gath.ix`, `scat`, `emb.bag`, `cp`, `cp.mc` (R244, R392 to R394, R397, R401, R403,
R404). What they do after issue stands in `OpRun.lean`. -/

namespace Sys2Proof.Machine

/-! ### The common tail (R393) -/

def tailStat (d : List Word) : Nat := bitsOf (d.getD 6 0) 59 5 * 32
def tailErrs (d : List Word) : Nat := 16 * bitsOf (d.getD 6 0) 4 0
def tailPly (d : List Word) : Nat := bitsOf (d.getD 7 0) 63 32
def tailDelivers (d : List Word) : Bool := bitAt (d.getD 7 0).toNat 31
def tailRef (d : List Word) : Nat := bitsOf (d.getD 7 0) 14 0

/-- The tail is malformed (R393, R394). -/
def State.tailBad (s : State) (d : List Word) : Bool :=
  bitsOf (d.getD 6 0) 63 60 ≠ 0 || bitsOf (d.getD 7 0) 30 15 ≠ 0 ||
    (if tailDelivers d then (s.barRef s.tag (BitVec.ofNat 64 (tailRef d))).isNone else tailRef d ≠ 0)

/-- Bytes of the status record (R394). -/
def statBytes (d : List Word) : Nat := 32 + 16 * tailErrs d

/-! ### The completion (R392) -/

/-- Where the completion of an operation goes, or the cause that refuses it (R392, R394 step 5). -/
def State.completionCause (s : State) (f : FmtWE) : Option Cause :=
  let ext := f.ext.toNat
  let actor := !s.cx.pool && !s.cx.task
  let (lo, hi) := s.pairAt f.xb
  if f.xc = 0 then none
  else
    let c : Option Cause :=
      if f.xb = 0 then (if actor then none else some .capTarget)
      else if !s.capGenuine lo hi then some .capForged
      else if bitAt ext 2 then
        (if !capWhole lo then some .capTarget else if !capHas lo rightWake then some .capRights else none)
      else if capWhole lo then some .capTarget
      else if !capHas lo rightSend || !bitAt (capPorts lo) (ext % 4) then some .capRights
      else none
    match c with
    | some c => some c
    | none => if s.level < 2 && reservedClass (bitsOf (s.x f.xc) 63 48) then some .msgClass else none

/-- The lowest free operation slot of the issuing tile (R244). -/
def Tile.freeSlot (t : Tile) : Option Nat := (List.range 16).find? (fun j => ((t.ops.get {} j).state = 0))

/-- The operation that an issue starts; one that a firing issues in a quiesce is saved at once (R97). -/
def State.newOp (s : State) (f : FmtWE) (kind : Nat) (d : List Word) : Op :=
  let c := s.cx
  let own := f.xb = 0
  { state := s.opGoing (tileOfCtx s.cur), saved := s.opGoing (tileOfCtx s.cur) / 4, kind := kind, core := s.cur / 8 % 2, ctx := s.cur % 8, act := c.act, firing := c.firing, pc := c.pc, desc := d, tag := c.tag, level := c.level,
    seq := s.nextAcc, word := if f.xc = 0 then none else some (s.x f.xc), capLo := if f.xc = 0 then 0 else if own then s.selfWord 15 else s.x f.xb,
    capHi := if own then 0 else s.x (f.xb + 1), dport := if own then 4 else f.ext.toNat % 4, dorm := bitAt f.ext.toNat 2, dctx := bitsAt f.ext.toNat 5 3,
    pool := c.pool, task := c.task, ord := c.opOrd, shadow := c.pairCtx.isSome && tileX (tileOfCtx s.cur) % 2 = 1 }

/-- The issue of an operation (R394): `check` gives step 4. -/
def State.issueOp (s : State) (f : FmtWE) (kind : Nat) (check : State → List Word → Option Cause) : Out :=
  let va := (s.x f.xa).toNat
  let desc : Except ReadStop (List Word) :=
    match s.readNow va 64 1 with
    | .error e => .error e
    | .ok v => if va % 64 ≠ 0 then .error (some (.descAlign, 0)) else .ok (doublewords 8 v)
  s.reading va desc fun d =>
    let before := s
    let s := s.afterRead va 64
    if s.tailBad d then s.faultC .descBad va
    else s.orHalt (if tailStat d = 0 then .ok [] else s.mapRange s.cur (tailStat d) (statBytes d) .write 32) fun _ =>
      match check s d with
      | some c => s.faultC c va
      | none => match s.completionCause f with
        | some c => s.faultC c 0 (if c = .msgClass then (s.x f.xc).toNat else (s.x f.xb).toNat)
        | none => match s.tile.freeSlot with
          | none => .next (before.stallOn 0)
          | some j =>
            let put := fun (t : Tile) => { t with ops := t.ops.put j { s.newOp f kind d with cmderr := (t.ops.get {} j).cmderr } }
            .next ((({ s with nextAcc := s.nextAcc + 1 } : State).updCurTile put).upd (fun c => { c with opOrd := c.opOrd + 1 })).fall

/-! ### Descriptor checks (R397, R401, R403, R404) -/

/-- The first VA of a field in bits [59:0], and whether its bits [63:60] are zero. -/
def descVa (w : Word) : Nat := bitsOf w 59 0
def topZero (w : Word) : Bool := bitsOf w 63 60 = 0

/-- `GATH_DESC` (R397). -/
def gathBad (ix : Bool) (d : List Word) : Bool :=
  bitsOf (d.getD 0 0) 63 60 > 1 || (!ix && !topZero (d.getD 1 0)) || !topZero (d.getD 2 0) || bitsOf (d.getD 3 0) 31 0 = 0 ||
    bitsOf (d.getD 4 0) 15 0 = 0 || (if ix then !topZero (d.getD 5 0) else d.getD 5 0 ≠ 0)

/-- `gath` (R397). -/
def execGath (f : FmtWE) (s : State) : Out :=
  s.slotC (.gath f) fun s => s.issueOp f 1 (fun _ d => if gathBad false d then some .gathDesc else none)
/-- `gath.ix` (R397). -/
def execGathIx (f : FmtWE) (s : State) : Out :=
  s.slotC (.gathIx f) fun s => s.issueOp f 2 (fun _ d => if gathBad true d then some .gathDesc else none)
/-- `scat` (R397). -/
def execScat (f : FmtWE) (s : State) : Out :=
  s.slotC (.scat f) fun s => s.issueOp f 3 (fun _ d => if gathBad false d then some .gathDesc else none)

/-- Fields of a bag descriptor (R401). -/
def embMode (d : List Word) : Nat := bitsOf (d.getD 5 0) 63 62
def embDim (d : List Word) : Nat := bitsOf (d.getD 5 0) 61 52 + 1
def embBags (d : List Word) : Nat := bitsOf (d.getD 5 0) 51 32
def embRows (d : List Word) : Nat := bitsOf (d.getD 5 0) 31 0

/-- Bytes of a table row of a page format (R401). -/
def embRowBytes (fmt geo dim : Nat) : Nat := if geo = 1 then dim / 32 * 33 else dim * fmtBits fmt / 8

/-- The table's rows have a format and geometry that DIM fits (R401). -/
def embShapeBad (fmt geo dim : Nat) : Bool := geo = 1 && dim % 32 ≠ 0 && (fmt = 0x08 || fmt = 0x09)

/-- A piece for one byte at a VA, where it translates for reading. -/
def State.pieceAt (s : State) (ctx va : Nat) : Option Piece :=
  match s.mapRange ctx va 1 .read 1 with
  | .ok (p :: _) => some p
  | _ => none

/-- The stripe entry of a GPA on a capacity page: none off the tier. -/
def State.stripeAt (s : State) (g : Nat) : Option (Option Stripe) := if gpaSpace g = 2 && s.gpaLocal g then some (s.stripeOf (gpaOffset g)) else none

/-- The checks of `emb.bag` (R401). -/
def State.embCause (s : State) (d : List Word) : Option Cause :=
  let table := descVa (d.getD 0 0)
  let mode := embMode d
  let zeros := topZero (d.getD 0 0) && bitsOf (d.getD 1 0) 63 61 = 0 && topZero (d.getD 2 0) && topZero (d.getD 3 0) && topZero (d.getD 4 0)
  if embBags d = 0 || !zeros || ((mode = 1) = (descVa (d.getD 3 0) = 0)) then some .embDesc
  else match s.pieceAt s.cur table with
    | none => none
    | some p =>
      if embShapeBad p.pte.fmt p.pte.geo (embDim d) then some .embDesc
      else match s.pieceAt s.cur (table + (embRows d - 1) * embRowBytes p.pte.fmt p.pte.geo (embDim d)) with
        | none => none
        | some q => match s.stripeAt p.gpa, s.stripeAt q.gpa with
          | some a, some b => if a = b then none else some .capTableBad
          | _, _ => none

/-- `emb.bag` (R401). -/
def execEmbBag (f : FmtWE) (s : State) : Out := s.slotC (.embBag f) fun s => s.issueOp f 4 State.embCause

/-- The shape of a copy (R403): base addresses, counts, and signed strides of two dimensions. -/
structure CopyShape where
  src : Nat
  dst : Nat
  n0 : Nat
  n1 : Nat
  n2 : Nat
  ss1 : Int
  ss2 : Int
  ds1 : Int
  ds2 : Int
  deriving DecidableEq, Repr

def copyShape (d : List Word) : CopyShape :=
  { src := descVa (d.getD 0 0), dst := descVa (d.getD 1 0), n0 := bitsOf (d.getD 2 0) 31 0, n1 := bitsOf (d.getD 2 0) 47 32 + 1,
    n2 := bitsOf (d.getD 2 0) 63 48 + 1, ss1 := sextNat 32 (bitsOf (d.getD 3 0) 31 0), ss2 := sextNat 32 (bitsOf (d.getD 3 0) 63 32),
    ds1 := sextNat 32 (bitsOf (d.getD 4 0) 31 0), ds2 := sextNat 32 (bitsOf (d.getD 4 0) 63 32) }

/-- The lowest and highest byte that a side of a copy touches (R403). -/
def spanOf (base n0 n1 n2 : Nat) (s1 s2 : Int) : Int × Int :=
  let a : Int := (n1 - 1 : Nat) * s1
  let b : Int := (n2 - 1 : Nat) * s2
  ((base : Int) + min 0 a + min 0 b, (base : Int) + max 0 a + max 0 b + (n0 : Int) - 1)

/-- The checks of `cp` (R403). A bit set in a field marked zero makes the descriptor malformed (log 26). -/
def State.copyCause (s : State) (d : List Word) : Option Cause :=
  let c := copyShape d
  let (slo, shi) := spanOf c.src c.n0 c.n1 c.n2 c.ss1 c.ss2
  let (dlo, dhi) := spanOf c.dst c.n0 c.n1 c.n2 c.ds1 c.ds2
  let top : Int := 2 ^ 60
  let other := fun (va : Nat) => match s.pieceAt s.cur va with
    | some p => !s.gpaLocal p.gpa
    | none => false
  if !topZero (d.getD 0 0) || !topZero (d.getD 1 0) || d.getD 5 0 ≠ 0 then some .descBad
  else if c.n0 = 0 ∨ c.n0 * c.n1 * c.n2 > 2 ^ 40 then some .cpShape
  else if slo < 0 ∨ dlo < 0 ∨ shi ≥ top ∨ dhi ≥ top then some .vaWrap
  else if slo ≤ dhi ∧ dlo ≤ shi then some .copyOverlap
  else if other c.src && other c.dst then some .cpDevice
  else none

/-- `cp` (R403). -/
def execCp (f : FmtWE) (s : State) : Out := s.slotC (.cp f) fun s => s.issueOp f 5 State.copyCause

/-- The fields of a multicast copy (R404). -/
structure McastShape where
  src : Nat
  wm1 : Nat
  hm1 : Nat
  col0 : Nat
  row0 : Nat
  off : Nat
  n0 : Nat
  n1 : Nat
  ss1 : Int
  ds1 : Int
  mask : Nat
  deriving DecidableEq, Repr

def mcastShape (d : List Word) : McastShape :=
  let w := d.getD 1 0
  { src := descVa (d.getD 0 0), wm1 := bitsOf w 46 43, hm1 := bitsOf w 42 40, col0 := bitsOf w 39 33, row0 := bitsOf w 32 26, off := bitsOf w 25 0,
    n0 := bitsOf (d.getD 2 0) 31 0, n1 := bitsOf (d.getD 2 0) 47 32 + 1, ss1 := sextNat 32 (bitsOf (d.getD 3 0) 31 0),
    ds1 := sextNat 32 (bitsOf (d.getD 3 0) 63 32), mask := (d.getD 4 0).toNat + 2 ^ 64 * (d.getD 5 0).toNat }

/-- The tiles that a multicast selects, with their mask bits (R115). -/
def McastShape.tiles (m : McastShape) : List (Nat × Nat) :=
  (List.range ((m.wm1 + 1) * (m.hm1 + 1))).filterMap (fun i =>
    if bitAt m.mask i then some (i, tileAt (m.col0 + i % (m.wm1 + 1)) (m.row0 + i / (m.wm1 + 1))) else none)

/-- A window region that software of a partition may write (R106). -/
def writableWindow (o : Int) : Bool :=
  if o < 0 then false
  else match regionOf o.toNat with
    | .localStore => true
    | .image => true
    | .engine => true
    | _ => false

/-- The checks of `cp.mc` (R404). The written bytes lie in one writable region, from the lowest to the highest of each run. -/
def State.mcastCause (s : State) (d : List Word) : Option Cause :=
  let m := mcastShape d
  let fields := match s.partOfTag s.tag with
    | some p => (s.partOf p).fields
    | none => []
  let runs := (List.range m.n1).map (fun i : Nat => (m.off : Int) + (i : Int) * m.ds1)
  let (slo, shi) := spanOf m.src m.n0 m.n1 1 m.ss1 0
  if !topZero (d.getD 0 0) || bitsOf (d.getD 1 0) 63 47 ≠ 0 || bitsOf (d.getD 2 0) 63 48 ≠ 0 then some .descBad
  else if m.col0 + m.wm1 > 119 ∨ m.row0 + m.hm1 > 89 ∨ m.mask / 2 ^ ((m.wm1 + 1) * (m.hm1 + 1)) ≠ 0 then some .mcastRange
  else if m.tiles.any (fun t => !fields.contains (fieldOfTile t.2)) then some .ownerMismatch
  else if m.n0 = 0 || runs.any (fun o => !writableWindow o || !writableWindow (o + m.n0 - 1) || regionOf o.toNat ≠ regionOf (o.toNat + m.n0 - 1)) then some .cpShape
  else if slo < 0 ∨ shi ≥ 2 ^ 60 then some .vaWrap
  else none

/-- `cp.mc` (R404). -/
def execCpMc (f : FmtWE) (s : State) : Out := s.slotC (.cpMc f) fun s => s.issueOp f 6 State.mcastCause

end Sys2Proof.Machine
end

