-- ==== Sys2Proof/Machine/Delivery.lean ====
section
/-! DEFINITION. Packets in the mesh and messages at their ports: R36 to R40, R46, R98, R153 to R158, R164 to R167, R171 to R173, R240,
R310, R330. An event names a packet by its place in its list, in `arg.value`. -/

namespace Sys2Proof.Machine

/-- Replace or remove the entry at a place of a list. -/
def setAt {α : Type} (l : List α) (i : Nat) (a : Option α) : List α := l.take i ++ a.toList ++ l.drop (i + 1)

/-! ### Injection (R38, R46, R76, R156, R158, R171) -/

/-- The head of a send queue without its entry. -/
def State.popQueue (s : State) (k vn : Nat) : State :=
  s.updCore k (fun c => { c with sendq := c.sendq.put vn ((c.queue vn).drop 1) })

/-- A source network interface looks an entry up, and joins the set that its hub keeps (R171; log 113). -/
def State.lookUp (s : State) (t : Nat) (lo : Word) : State :=
  match s.partOfTag (capOwner lo) with
  | none => s
  | some p =>
    let (f, k) := s.cttPlace p (capKind lo) (capIdx lo)
    if ((s.hubOf f).looked.get [] k).contains t then s else s.updHub f (fun h => { h with looked := h.looked.put k (h.looked.get [] k ++ [t]) })

/-- Where a message goes as it leaves its core, or why it waits or bounces (R38, R171). -/
def State.injectTo (s : State) (m : Msg) : Dest :=
  if capDev m.capLo ≠ s.loith.device then
    match s.devicePort (capDev m.capLo) with
    | .ok _ => .other (capDev m.capLo)
    | .error c => if c = .linkDead ∧ m.vn = 1 then .wait else .refused c
  else match s.capCoreId m.capLo with
    | none => .refused .destDark
    | some k => if cttHold (s.cttEntry (capOwner m.capLo) (capKind m.capLo) (capIdx m.capLo)) then .wait
                else if s.coreDark k then .refused .destDark else .core k

/-- The follower's send that the leader's head is compared with (R46). -/
def State.partnerHead (s : State) (k vn : Nat) (m : Msg) : Option Msg :=
  match (s.coreOf (k + 2)).queue vn with
  | b :: _ => if b.pair = 2 && b.words = m.words && b.capLo = m.capLo && b.port = m.port then some b else none
  | [] => none

/-- The network takes no further message of a core on a virtual network for now: back-pressure (R154; log 61). -/
def State.netFull (s : State) (k vn : Nat) : Bool := Config.netHold ≤ (s.flying.filter (fun m => !m.hw && m.chan ≠ 3 && m.srcCore = k && m.vn = vn)).length

/-- `MESSAGE_INJECT`: the head of queue `other` of core `unit` leaves for the network (R158). -/
def execMessageInject (s : State) : Out :=
  let k := s.arg.unit
  let vn := s.arg.other
  match (s.coreOf k).queue vn with
  | [] => .next s
  | m :: _ =>
    if s.masked vn || s.netFull k vn || m.pair = 2 || (m.pair = 1 && (s.partnerHead k vn m).isNone) then .next s
    else
      let s1 := ((if m.pair = 1 then (s.popQueue k vn).popQueue (k + 2) vn else s.popQueue k vn).countFabric (fieldOfTile (tileOfCore k)) (0x40 + vn) (Config.flits (8 * m.words.length))).lookUp (tileOfCore k) m.capLo
      let sent := { m with itime := s.rtime, pair := 0, act := capAct m.capLo }
      match s.injectTo m with
      | .wait => .next s
      | .refused c => .next (s1.bounceAt sent c k)
      | .other d =>
        let e := (s.edgeTo (tileOfCore k) d).getD (tileOfCore k)
        .next { s1 with flying := s1.flying ++ [{ sent with core := 2 * e, dev := d, router := some (tileOfCore k), gen := s.loith.flips,
                                                            exit := some (s.loith.devport.get 0xFF d) }] }
      | .core d =>
        .next { s1 with flying := s1.flying ++ [{ sent with core := d, dev := s.loith.device, router := some (tileOfCore k), gen := s.loith.flips }] }

/-! ### One hop (R36 to R39) -/

/-- An earlier packet of the same network leaves the same router by the same port: links are first-in, first-out (R164). -/
def State.behindAnother (s : State) (i t port : Nat) (m : Msg) : Bool :=
  (s.flying.take i).any (fun n => n.router = some t && n.vn = m.vn && s.packetPort t n = port)

/-- The route of a packet passes a router. -/
def State.passes (s : State) (dest vn u : Nat) : Nat → Nat → Bool
  | 0, _ => false
  | n + 1, t => t = u || (match s.routePort t dest vn with
    | 0 => s.passes dest vn u n (stepTile t 0)
    | 1 => s.passes dest vn u n (stepTile t 1)
    | 2 => s.passes dest vn u n (stepTile t 2)
    | 3 => s.passes dest vn u n (stepTile t 3)
    | _ => false)

/-- A reduction on its way that a router may merge: it is remote, on this device, alone, and not yet performed (R224). -/
def Access.mergeable (a : Access) : Bool :=
  a.result.isNone && a.into.isNone && !a.shadow && (a.reach = 1 || a.reach = 2) && (match a.kind with
    | .reduce _ => true
    | _ => false)

/-- The way of an access to its home passes router `u`. -/
def State.wayPasses (s : State) (u : Nat) (a : Access) : Bool :=
  match s.doorOf (tileOfCtx a.ctx) (s.homeOf a.gpa) with
  | some d => s.passes d 0 u 256 (tileOfCtx a.ctx)
  | none => false

/-- Reduction `y` merges into `x` at router `u` (R224): the same location, operation, width and owner tag, a free record of 64, and both pass there.
The operands combine as they would at the home; the order of contributions is open (R225). -/
def State.mergeReds (s : State) (x y : Access) (u : Nat) : State :=
  let op := match x.kind with
    | .reduce o => o
    | _ => .add
  let earlier := s.net.any (fun b => b.firing = y.firing && b.id < y.id && b.result.isNone && b.gpa < y.gpa + y.size && y.gpa < b.gpa + b.size)
  if x.id ≠ y.id ∧ x.mergeable ∧ y.mergeable ∧ x.kind = y.kind ∧ x.gpa = y.gpa ∧ x.size = y.size ∧ x.tag = y.tag ∧ !earlier ∧ s.wayPasses u x ∧ s.wayPasses u y ∧
      x.pairOf.isNone ∧ y.pairOf.isNone ∧ (s.net.filter (fun b => b.mergeAt = some u)).length < 64 then
    let data := amoApply op (8 * x.size) x.data y.data 0
    { s with net := s.net.map (fun b =>
        if b.id = x.id then { b with data := data } else if b.id = y.id then { b with into := some x.id, mergeAt := some u }
        else if b.into = some y.id then { b with into := some x.id } else b) }
  else s

/-- A packet for another device leaves by its port at the edge; a port that has gone dark bounces it, and holds one of RSP (R76). -/
def State.leaveDevice (s : State) (i t : Nat) (m : Msg) (p : Nat) : State :=
  let gone : State := { s with flying := setAt s.flying i none }
  if !s.portDark p then gone else if m.vn = 1 then s else gone.bounceAt m Cause.linkDead (2 * t)

/-- Replies of accesses that the hold buffer of a router holds, since the link of their next hop is dark (R39). -/
def State.repliesHeld (s : State) (t : Nat) : Nat :=
  (s.net.filter (fun a => a.result.isSome && (a.reach = 1 || a.reach = 2) && (match s.doorOf (tileOfCtx a.ctx) (s.homeOf a.gpa) with
    | some d => s.pathStop d (tileOfCtx a.ctx) 1 = some t
    | none => false))).length

/-- The turn of the next message to reach a local port: after all that are in the network (R417). -/
def State.nextReached (s : State) : Nat := 1 + (s.flying.map (fun m => m.reached)).foldl max 0

/-- `ROUTE_PACKET`: packet `value` takes one hop, arrives, bounces, or is held (R36 to R39); with `flag`, reduction `other` merges into reduction
`value` at router `unit` (R224). A message that output port 5 takes, or port 4 elsewhere than at its destination, bounces with `DEST_DARK` (DESIGN
CHOICE; log 105). -/
def execRoutePacket (s : State) : Out :=
  let i := s.arg.value
  if s.arg.flag then
    (match List.find? (fun a => a.id = i) s.net, List.find? (fun a => a.id = s.arg.other) s.net with
     | some x, some y => .next (s.mergeReds x y s.arg.unit)
     | _, _ => .next s)
  else match s.flying[i]? with
  | none => .next s
  | some m => match m.router with
    | none => .next s
    | some t =>
      let dest := tileOfCore m.core
      let port := s.packetPort t m
      let gone : State := { s with flying := setAt s.flying i none }
      if s.behindAnother i t port m then .next s
      else if m.hops ≥ 255 then .next (gone.bounceAt m Cause.routeLoop (2 * t))
      else if port ≥ 4 then
        (if port = 4 ∧ t = dest then .next (match m.exit with
            | some p => s.leaveDevice i t m p
            | none => { s with flying := setAt s.flying i (some { m with router := none, reached := s.nextReached }) })
         else .next (gone.bounceAt m Cause.destDark (2 * t)))
      else if s.linkUp t port then .next { s with flying := setAt s.flying i (some { m with router := some (stepTile t port), hops := m.hops + 1 }) }
      else if m.vn = 1 then
        (if ((s.hubOf (fieldOfTile t)).heldRsp.filter (fun n => n.router = some t)).length + s.repliesHeld t < 32 then
          .next (gone.updHub (fieldOfTile t) (fun h => { h with heldRsp := h.heldRsp ++ [m] }))
         else .next s)
      else .next (gone.bounceAt m Cause.linkDead (2 * t))

/-! ### Admission (R153, R154, R157, R166, R167) -/

/-- A port after a message joins it; none without room. The Bool says that it went to the overflow part (R154, R159). -/
def Port.takeIn (q : Port) (m : Msg) : Option (Port × Bool) :=
  let arr := (q.arr + 1) % 2 ^ 32
  if q.oq.isEmpty && q.hwPart.length < portDepth q.word && (!q.spill || q.hwPart.isEmpty) then some ({ q with hwPart := q.hwPart ++ [m], arr := arr }, false)
  else if q.oq.length < portOqCap q.word then some ({ q.pushOq m with arr := arr }, true)
  else none

/-- A port after a message fills one of its reservations (R166). -/
def Port.fill (q : Port) (m : Msg) : Port × Bool :=
  let q1 := { q with resv := q.resv.erase m.resTag, arr := (q.arr + 1) % 2 ^ 32 }
  if q.oq.isEmpty && q.hwPart.length < portDepth q.word then ({ q1 with hwPart := q.hwPart ++ [m] }, false) else (q1.pushOq m, true)

/-- A core with one port of an actor replaced. -/
def Core.setPort (k : Core) (a p : Nat) (q : Port) : Core :=
  let x := k.actorAt a
  { k with actors := k.actors.put a { x with ports := x.ports.put p q } }

/-- The actor and port that hold a reservation with a reply tag. -/
def Core.resvAt (k : Core) (tag : Nat) : Option (Nat × Nat) :=
  k.actors.findSome? (fun a => (List.find? (fun p => p.2.resv.contains tag) a.2.ports).map (fun p => (a.1, p.1)))

/-- A message with a handler address in word 0, as its port takes it. -/
def Msg.handled (m : Msg) (k a p handler : Nat) : Msg :=
  { m with core := k, act := a, port := p,
           words := withHandlerWord (m.words.getD 0 0) handler (m.words.length - 1) :: m.words.drop 1 }

def State.withHandler (s : State) (m : Msg) (k a p : Nat) : Msg := m.handled k a p ((s.coreOf k).handlerIn s.mem k a p)

/-- The bounce of a request with the handler address of the port that its reservation names (R155, R173). -/
def Core.aimed (c : Core) (mem : Memory) (k : Nat) (m : Msg) : Msg :=
  if m.chan = 3 ∧ m.ofRequest then
    match c.resvAt m.resTag with
    | some (a, p) => m.handled k a p (c.handlerIn mem k a p)
    | none => m
  else m

/-- What admission does with a message: the core after it and the port that took it, with whether it overflowed; or it waits or bounces. -/
inductive Admit where
  | took (k : Core) (place : Option (Nat × Nat)) (spilt : Bool)
  | wait
  | bounce (cause : Cause)

/-- A reply or bounce sinks at a core: it fills its reservation, or, a bounce without one, enters the bounce queue; a reply without one is discarded
(R154, R166, R167, R173). -/
def Core.sink (k : Core) (m : Msg) : Admit :=
  match if m.chan = 2 ∨ m.ofRequest then k.resvAt m.resTag else none with
  | some (a, p) =>
    let r := ((k.actorAt a).portAt p).fill m
    .took (k.setPort a p r.1) (some (a, p)) r.2
  | none =>
  if m.chan = 2 then .took { k with stray := (k.stray + 1) % 65536 } none false
  else if k.bounceq.length < 32 then .took { k with bounceq := k.bounceq ++ [m] } none false
  else .took { k with bsum := min 65535 (k.bsum + 1), bsumFirst := some (match k.bsumFirst with
    | none => m
    | some b => { b with words := b.words.take 6 ++ [m.words.getD 6 0] }) } none false

/-- The last four checks of R172 at a core. -/
def Core.takeIn (k : Core) (m : Msg) (owner : Nat) : Admit :=
  let x := k.actorAt m.act
  let q := x.portAt m.port
  if m.chan = 3 then k.sink m
  else if !x.valid ∨ x.owner ≠ owner then .bounce .destGone
  else if !portEnabled q.word ∨ portKind q.word ≠ m.vn then .bounce .portKind
  else if m.words.length > portSize q.word + 1 then .bounce .msgSize
  else if m.vn = 1 then k.sink m
  else match q.takeIn m with
    | some (q', spilt) => .took (k.setPort m.act m.port q') (some (m.act, m.port)) spilt
    | none => if m.vn = 2 then .bounce .portFull else .wait

/-- A message for a member that is not restored joins the overflow queue in its field image, without checks (R98). -/
def Core.admitSaved (k : Core) (m : Msg) : Admit :=
  if m.vn = 1 then k.sink m
  else
    let q := (k.actorAt m.act).portAt m.port
    if q.oq.length < portOqCap q.word then
      .took (k.setPort m.act m.port { q.pushOq m with arr := (q.arr + 1) % 2 ^ 32 }) (some (m.act, m.port)) true
    else .wait

/-- The wake-pending bit of an actor's firing at a core (R310). -/
def State.wakeFirings (s : State) (core : Nat) (hit : Ctx → Bool) : State :=
  { s with
    ctxs := s.ctxs.map (fun e => (e.1, if coreOfCtx e.1 = core && e.2.occ && hit e.2 then { e.2 with wakeBit := true } else e.2)),
    cores := s.cores.map (fun e => (e.1, if e.1 = core then { e.2 with parked := e.2.parked.map (fun q => (q.1, if hit q.2 then { q.2 with wakeBit := true } else q.2)) } else e.2)) }
def Ctx.isFiringOf (c : Ctx) (a : Nat) : Bool := !c.pool && !c.task && c.act = a

/-- A field image after core k of it took a message, with the wake-pending bit of the firing of the actor that has the port (R98, R310). -/
def FieldImage.took (g : FieldImage) (k : Nat) (c : Core) (place : Option (Nat × Nat)) : FieldImage :=
  match place with
  | none => { g with cores := g.cores.put k c }
  | some (a, _) =>
    { g with
      cores := g.cores.put k { c with parked := c.parked.map (fun q => (q.1, if q.2.isFiringOf a then { q.2 with wakeBit := true } else q.2)) },
      ctxs := g.ctxs.map (fun e => (e.1, if coreOfCtx e.1 = k && e.2.occ && e.2.isFiringOf a then { e.2 with wakeBit := true } else e.2)) }

/-! ### The local stores of a field image, in HBM (R95) -/

/-- The key of byte 0 of the image of field f in the save area of partition p. -/
def State.imageKey (s : State) (f p : Nat) : Nat := gpaKey ((s.partOf p).save) + (s.partOf p).fields.idxOf f * 2 ^ 29

/-- The place in an image of a byte of local store, by its offset in the image: none for the rest of the image. -/
def imageStoreOff (o : Nat) : Option (Nat × Nat) := if o < 120 * 0x400000 ∧ o % 0x400000 < 0x300000 then some (o / 0x400000, o % 0x400000) else none

/-- The key of the byte of local store that stands at offset o of the image of field f. -/
def storeByteOf (f o : Nat) : Option Nat := (imageStoreOff o).map (fun p => gpaKey (tileGpa (tileOfLocal f p.1) 0) + p.2)

/-- The offset in its field's image of a byte of local store. -/
def imageOffOf (a : Nat) : Nat :=
  let g := a % 2 ^ 52
  0x400000 * localOfTile (tileAt (gpaCol g) (gpaRow g)) + gpaWindow g

/-- The local stores of field f as the image of partition p holds them (R97 step 5). -/
def State.imageStores (s : State) (f p : Nat) : Memory :=
  let base := s.imageKey f p
  s.mem.filterMap (fun e => if base ≤ e.1 then (storeByteOf f (e.1 - base)).map (fun a => (a, e.2)) else none)

/-- The newest message of an overflow queue of core k, which is that of a member p that is not restored, in the image of its field in HBM (R95, R98, R153). -/
def Core.keepSaved (c : Core) (s : State) (member k : Nat) (place : Option (Nat × Nat)) (spilt : Bool) : Memory :=
  match place with
  | none => s.mem
  | some (a, p) =>
    let q := (c.actorAt a).portAt p
    match spilt, q.oq.getLast? with
    | true, some m => s.mem.writeLE (s.imageKey (fieldOfTile (tileOfCore k)) member + imageOffOf (oqKey k q.word (m.slot.getD 0))) (8 * m.words.length)
        (packLanes 64 (m.words.map BitVec.toNat))
    | _, _ => s.mem

/-- The port state of a field belongs to its running tag (R98): between the copy out and the end of the restore it does not. -/
def State.restored (s : State) (f : Nat) : Bool := (s.hubOf f).sw.step ≤ 1

/-- The member of a field's group with a tag. -/
def State.memberOfTag (s : State) (f tag : Nat) : Option Nat := (s.hubOf f).group.find? (fun p => (s.partOf p).tag = tag)

/-- The migration whose stub takes a message that arrives at a core (R175): one of the logical tile that the message names; a bounce goes back to
whoever was at the tile. -/
def State.stubAt (s : State) (core : Nat) (m : Msg) (owner : Nat) : Option Nat :=
  if m.fwd then none
  else s.migrations.findIdx? (fun g => g.oldTile = tileOfCore core && g.tag = owner && 3 ≤ g.step && g.step ≤ 6 &&
    (m.chan = 3 || (g.lkind = capKind m.capLo && g.lidx = capIdx m.capLo)))

/-- The core that stands for an old core of a migration: in its image, or at the new tile. -/
def State.movedCore (s : State) (g : Migration) (core : Nat) : Core :=
  match g.image with
  | some i => i.cores.get {} (core % 2)
  | none => s.coreOf (2 * g.newTile + core % 2)

/-- Messages that the stub of a core's actors may hold. -/
def Actor.oldOverflow (x : Actor) : Nat := (x.ports.map (fun p => portOqCap p.2.word)).sum

/-- Deliver a message at core k (R98, R172, R175); none where it waits. A bounce whose sender has moved since goes on to where it is (log 118). -/
def State.deliverAt (s : State) (k : Nat) (m : Msg) : Option State :=
  let f := fieldOfTile (tileOfCore k)
  let owner := if m.chan = 3 then m.tag else capOwner m.capLo
  if m.chan = 3 ∧ s.senderCore m ≠ k then
    some { s with flying := s.flying ++ [{ m with core := s.senderCore m, router := some (tileOfCore k), hops := 0, gen := s.loith.flips }] }
  else if s.coreDark k then some (s.bounceAt m Cause.destDark k)
  else if s.tileStill (tileOfCore k) then none
  else if (s.hubOf f).runTag = owner ∧ s.restored f then
    match s.stubAt k m owner with
    | some g =>
      let mg := s.migrations.getD g {}
      let x := (s.movedCore mg k).actorAt m.act
      if m.vn ≠ 1 ∧ (!x.valid ∨ x.owner ≠ owner) then some (s.bounceAt m Cause.destGone k)
      else if m.vn = 1 ∨ (mg.stub.filter (fun n => n.vn ≠ 1 && n.act = m.act && n.core = k)).length < x.oldOverflow then
        some { s with migrations := setAt s.migrations g (some { mg with stub := mg.stub ++ [{ m with core := k }] }) }
      else none
    | none => match (s.coreOf k).takeIn ((s.coreOf k).aimed s.mem k m) owner with
      | .wait => none
      | .bounce c => some (s.bounceAt m c k)
      | .took c place spilt =>
        let s1 := (s.updCore k (fun _ => c)).countCore k none 0x09 (if spilt then 1 else 0)
        some (match place with
          | some (a, p) => ({ s1 with mem := c.keepOq s1.mem k a p spilt } : State).wakeFirings k (fun c => c.isFiringOf a)
          | none => s1)
  else match s.memberOfTag f owner with
    | none => some (s.bounceAt m Cause.destOwner k)
    | some p =>
      let g := (s.hubOf f).saved.get {} p
      match (g.cores.get {} k).admitSaved ((g.cores.get {} k).aimed (s.imageStores f p) k m) with
      | .took c place spilt => some (({ s with mem := c.keepSaved s p k place spilt } : State).updHub f (fun h => { h with saved := h.saved.put p (g.took k c place) }))
      | _ => none

/-! ### Hardware messages (R62, R147, R165, R240) -/

/-- Core k as an owner tag has it: in the field image of a member that is not restored, else in the field (R98). -/
def State.coreFor (s : State) (k owner : Nat) : Core :=
  let f := fieldOfTile (tileOfCore k)
  if (s.hubOf f).runTag = owner ∧ s.restored f then s.coreOf k
  else match s.memberOfTag f owner with
    | some p => ((s.hubOf f).saved.get {} p).cores.get {} k
    | none => s.coreOf k

/-- The port of the supervisor of a tag's partition: its core, actor, system port and owner tag (R165). -/
def State.supervisorPort (s : State) (tag : Nat) : Option (Nat × Nat × Nat × Nat) :=
  match s.supervisorCap tag with
  | none => none
  | some lo => match s.capCoreId lo with
    | none => none
    | some k =>
      let x := (s.coreFor k (capOwner lo)).actorAt (capAct lo)
      if x.valid && x.owner = capOwner lo then x.systemPort.map (fun p => (k, capAct lo, p, capOwner lo)) else none

/-- The port of the actor that a hardware message names, if that actor takes it: the port, or the actor's system port (R165). -/
def State.ownTarget (s : State) (m : Msg) : Option (Nat × Nat × Nat × Nat) :=
  (s.capCoreId m.capLo).bind fun k =>
    let x := (s.coreFor k (capOwner m.capLo)).actorAt (capAct m.capLo)
    let q := x.portAt m.port
    if !x.valid ∨ x.owner ≠ capOwner m.capLo then none
    else if m.port < 4 && portEnabled q.word && portKind q.word = 2 && m.words.length ≤ portSize q.word + 1 then some (k, capAct m.capLo, m.port, capOwner m.capLo)
    else x.systemPort.map (fun p => (k, capAct m.capLo, p, capOwner m.capLo))

/-- The port that a hardware message goes to (R165); none where the platform takes it. -/
def State.hwTarget (s : State) (m : Msg) : Option (Nat × Nat × Nat × Nat) :=
  match s.ownTarget m with
  | some r => some r
  | none => s.supervisorPort m.tag

def msgClass (m : Msg) : Nat := (m.words.getD 0 0).toNat / 2 ^ 48

/-- A completion that has been delivered frees its entry (R147); a notice that comes after its effect time is reported (R62). -/
def State.hwDelivered (s : State) (f : Nat) (m : Msg) : State :=
  if msgClass m = 0xFF85 then s.freeLaunch (m.words.getD 1 0).toNat
  else if msgClass m = 0xFF80 ∧ (m.words.getD 2 0).toNat < s.rtime then s.reportTo f .noticeLate m.tag [] |>.report f .noticeLate m.tag []
  else s

/-- The state of the logical tile that a capability names is between its old and its new tile, or held there (R175). -/
def State.onTheWay (s : State) (lo : Word) : Bool :=
  s.migrations.any (fun g => 4 ≤ g.step && g.tag = capOwner lo && g.lkind = capKind lo && g.lidx = capIdx lo)

/-- A supervisor's logical tile is on its way. -/
def State.supOnTheWay (s : State) (tag : Nat) : Bool := match s.supervisorCap tag with
  | some lo => s.onTheWay lo
  | none => false

/-- The logical tile that is to take a hardware message is on its way: that of the actor it names, or of the supervisor that takes it instead (R165, R175). -/
def State.hwOnWay (s : State) (m : Msg) : Bool := s.onTheWay m.capLo || ((s.ownTarget m).isNone && s.supOnTheWay m.tag)

/-- A packet of the hardware reaches a core from a tile on SYS: it is not dark, and the way is free (R36 to R40, R172). -/
def State.busWay (s : State) (src k : Nat) : Bool :=
  !s.coreDark k && (src = tileOfCore k || (!s.masked 2 && (s.pathCause src (tileOfCore k) 2).isNone))

/-- The same from a field hub: it injects at the port nearer the core's column (log 46). -/
def State.hubWay (s : State) (f k : Nat) : Bool := !s.masked 2 && (match s.doorOf (tileOfCore k) (.hub f) with
  | some d => s.busWay d k
  | none => false)

/-- Put a message that the hardware redirects into port p of actor a of core k, which belongs to an owner tag (R98, R154); none where it waits. -/
def State.putHw (s : State) (k a p owner : Nat) (m : Msg) : Option State :=
  let g := fieldOfTile (tileOfCore k)
  if s.tileStill (tileOfCore k) || s.coreDark k then none
  else if (s.hubOf g).runTag = owner ∧ s.restored g then
    match ((s.coreOf k).actorAt a).portAt p |>.takeIn (s.withHandler m k a p) with
    | none => none
    | some (q, spilt) =>
      let s1 := (s.updPort k a p (fun _ => q)).countCore k none 0x09 (if spilt then 1 else 0)
      some (({ s1 with mem := (s1.coreOf k).keepOq s1.mem k a p spilt } : State).wakeFirings k (fun c => c.isFiringOf a))
  else match s.memberOfTag g owner with
    | none => none
    | some j =>
      let i := (s.hubOf g).saved.get {} j
      let c := i.cores.get {} k
      match c.admitSaved (m.handled k a p (c.handlerIn (s.imageStores g j) k a p)) with
      | .took c' place spilt => some (({ s with mem := c'.keepSaved s j k place spilt } : State).updHub g (fun h => { h with saved := h.saved.put j (i.took k c' place) }))
      | _ => none

/-- Try to put a hardware message into its port: none where the port has no room, the logical tile is on its way, or no packet reaches it from the hub (R40, R98,
R154, R172, R175; log 46). -/
def State.hwDeliver (s : State) (f : Nat) (m : Msg) : Option State :=
  if s.hwOnWay m || (s.hwTarget m).any (fun r => !s.hubWay f r.1) then none
  else match s.hwTarget m with
  | none => some (((s.toFirmware m).report f .noSupervisor m.tag []).hwDelivered f m)
  | some (k, a, p, owner) => (s.putHw k a p owner m).map (fun s => s.hwDelivered f m)

/-- Two hardware messages go to one port. -/
def State.sameTarget (s : State) (a b : Msg) : Bool := s.hwTarget a = s.hwTarget b && (s.hwTarget a).isSome

/-- The field whose hub or tiles a hardware message comes from. -/
def hwField (m : Msg) : Nat := fieldOfTile (tileOfCore m.srcCore)

/-- A fault packet is one of a class that the hub's fault queue keeps (R240). -/
def isFaultClass (m : Msg) : Bool := msgClass m / 256 = 0xFE

/-- A hardware message without room at its port: packets go to the fault queue, others wait at their source (R62, R240). -/
def State.hwHold (s0 : State) (f : Nat) (m0 : Msg) : State :=
  let m := { m0 with made := s0.nextAcc }
  let s : State := { s0 with nextAcc := s0.nextAcc + 1 }
  if isFaultClass m then
    s.updHub f (fun h => if h.faultq.length < 256 then { h with faultq := h.faultq ++ [m] } else { h with dropped := h.dropped ++ [m.tag] })
  else s.updHub f (fun h => { h with waiting := h.waiting ++ [m] })

/-- A hardware message arrives: behind any that waits for the same port. -/
def State.hwArrive (s : State) (m : Msg) : State :=
  let f := hwField m
  let h := s.hubOf f
  if (h.waiting ++ h.faultq).any (fun w => s.sameTarget w m) then s.hwHold f m
  else (s.hwDeliver f m).getD (s.hwHold f m)

/-! ### Arrival (R172) -/

/-- One sending agent sent two messages (R164): its logical core names it where it has one. -/
def sameAgent (a b : Msg) : Bool :=
  a.srcAct = b.srcAct && a.home = b.home && (a.home ≠ 0 || (a.srcCore = b.srcCore && (a.srcCore < 21600 || capWithRights a.scapLo 0 0 = capWithRights b.scapLo 0 0)))

/-- Two messages of one sending agent to one port on one network (R164). -/
def sameFlow (a b : Msg) : Bool :=
  !a.hw && !b.hw && sameAgent a b &&
    a.core = b.core && a.act = b.act && a.port = b.port && a.vn = b.vn && (a.chan = 3) = (b.chan = 3)

/-- A message that reached the local port earlier waits there for the same REQ or DATA port, and is not itself held behind one of its sender (R417). -/
def State.outrun (s : State) (m : Msg) : Bool :=
  let waits := fun (w : Msg) => w.router.isNone && !w.hw && w.chan ≠ 3 && w.core = m.core && w.act = m.act && w.port = m.port && w.vn = m.vn && decide (0 < w.reached ∧ w.reached < m.reached)
  (m.vn = 0 || m.vn = 3) && !m.hw && m.chan ≠ 3 && s.flying.zipIdx.any (fun e => waits e.1 && !(s.flying.take e.2).any (sameFlow e.1))

/-- Two hardware messages of one source to one port (R165). -/
def State.sameHwFlow (s : State) (a b : Msg) : Bool := a.hw && b.hw && hwField a = hwField b && s.sameTarget a b

/-- A message from another device, from `arg.list`: virtual network, channel and in bit 2 of that word whether a bounce answers a request, reply tag,
capability, sender capability, RTIME of injection, words (R156). The capability of a bounce is that of the agent that it goes back to. -/
def EvArg.foreign (a : EvArg) : Msg :=
  let w := fun i => a.list.getD i 0
  { vn := w 0 % 4, chan := w 1 % 4, rtag := w 2 % 65536, capLo := BitVec.ofNat 64 (w 3), scapLo := BitVec.ofNat 64 (w 4),
    scapHi := BitVec.ofNat 64 (w 5), itime := w 6, words := ((a.list.drop 7).take 8).map (BitVec.ofNat 64), tag := capOwner (BitVec.ofNat 64 (w 3)),
    act := capAct (BitVec.ofNat 64 (w 3)), port := a.level % 4, srcCore := 21600, ofRequest := w 1 % 8 = 7,
    srcAct := if w 1 % 4 = 3 then some (capAct (BitVec.ofNat 64 (w 3))) else none }

/-- `MESSAGE_ARRIVAL` of the message `value` in flight, or, with `flag`, of one from another device by UALink port `unit` (R98, R172): it goes on from the edge, and
waits there while the binding that it names is held (R171, R175). Those that wait for one port join it in the order in which they came (R417). -/
def execMessageArrival (s : State) : Out :=
  if s.arg.flag then
    let m := s.arg.foreign
    match s.capCoreId m.capLo with
    | none => .next s
    | some k =>
      if cttHold (s.cttEntry (capOwner m.capLo) (capKind m.capLo) (capIdx m.capLo)) then .next s
      else
        let r := interfaceRouter (tileOfCore k) (s.arg.unit % 72 / 9)
        .next { s with flying := s.flying ++ [{ m with core := k, dev := s.loith.device, gen := s.loith.flips, router := some r }] }
  else match s.flying[s.arg.value]? with
    | none => .next s
    | some m =>
      if m.router.isSome || (s.flying.take s.arg.value).any (fun w => sameFlow m w || s.sameHwFlow m w) || s.outrun m then .next s
      else
        let s1 := { s with flying := setAt s.flying s.arg.value none }
        if m.hw then .next (if (s.hwTarget m).any (fun r => s.tileStill (tileOfCore r.1)) then s else s1.hwArrive m)
        else .next ((s1.deliverAt m.core m).getD s)

/-- `HW_MESSAGE_DEFERRED`: message `value` waiting in field `unit` is delivered once its port has room (R62, R154). -/
def execHwMessageDeferred (s : State) : Out :=
  let f := s.arg.unit
  let h := s.hubOf f
  match h.waiting[s.arg.value]? with
  | none => .next s
  | some m =>
    if (h.waiting.take s.arg.value ++ h.faultq.filter (fun w => w.made < m.made)).any (fun w => s.sameTarget w m) then .next s
    else match s.hwDeliver f m with
      | none => .next s
      | some s1 => .next (s1.updHub f (fun h => { h with waiting := setAt h.waiting s.arg.value none }))

/-- A `FAULTQ_OVERFLOW` with a count, for the partition of a tag: a packet of the fault queue (R237, R240). -/
def State.overflowPacket (s : State) (f tag n : Nat) : State :=
  let (seq, s1) := s.takeSeq f
  let words := [packetWord1 Cause.faultqOverflow 2 false false 0 tag seq, 0, 0, 0, BitVec.ofNat 64 n, 0, s.rtimeWord]
  let lo := (s.supervisorCap tag).getD 0
  let m := { hwMessage (0xFE00 + Cause.faultqOverflow) lo 4 tag words with srcCore := 2 * tileOfLocal f 0, made := s.nextAcc }
  (s1.updHub f (fun h => { h with faultq := h.faultq ++ [m] })).keepRecent { m with words := withHandlerWord (m.words.getD 0 0) (s.handlerOf lo) 7 :: words }

/-- The report of packets not kept (R240, R253): the platform receives it, and one for each partition concerned joins the queue once it has room. -/
def State.queueOverflow (s : State) (f : Nat) : State :=
  let h := s.hubOf f
  let tags := h.dropped.eraseDups
  if tags.isEmpty || decide (256 < h.faultq.length + tags.length) then s
  else
    let n := h.dropped.length
    (tags.foldl (fun s tag => s.overflowPacket f tag n) (s.report f .faultqOverflow h.runTag [0, 0, 0, n] tags)).updHub f (fun h => { h with dropped := [] })

/-- `FAULT_QUEUE_DRAIN` of field `unit` (R240): packets leave in sequence order. -/
def execFaultQueueDrain (s : State) : Out :=
  let f := s.arg.unit
  match (s.hubOf f).faultq with
  | [] => .next s
  | m :: r =>
    if (s.hubOf f).waiting.any (fun w => w.made < m.made && s.sameTarget w m) then .next s
    else match s.hwDeliver f m with
    | none => .next s
    | some s1 => .next ((s1.updHub f (fun h => { h with faultq := r })).queueOverflow f)

/-! ### The bounce queue (R173) -/

/-- The port that a queued bounce goes to: the system port of the sending actor, else the supervisor's. -/
def State.bouncePort (s : State) (k : Nat) (m : Msg) : Option (Nat × Nat × Nat × Nat) :=
  let own := match m.srcAct with
    | some a => if a < 64 && ((s.coreOf k).actorAt a).valid then ((s.coreOf k).actorAt a).systemPort.map (fun p => (k, a, p, ((s.coreOf k).actorAt a).owner)) else none
    | none => none
  match own with
  | some t => some t
  | none => s.supervisorPort m.tag

/-- The actor that is to take a queued bounce is on its way: the supervisor, where the sender has no port of its own. -/
def State.bounceWaits (s : State) (k : Nat) (m : Msg) : Bool := s.supOnTheWay m.tag && (match s.bouncePort k m with
  | some r => r.1 ≠ k
  | none => true)

/-- The summary bounce joins the queue when it has room (R173). -/
def Core.queueSummary (k : Core) : Core :=
  match k.bsumFirst with
  | some b =>
    if k.bsum = 0 || k.bounceq.length ≥ 32 then k
    else
      let w1 := (b.words.getD 1 0).toNat
      let sum := w1 - bitsAt w1 47 32 * 2 ^ 32 - bitsAt w1 55 55 * 2 ^ 55 + k.bsum * 2 ^ 32 + 2 ^ 55
      { k with bounceq := k.bounceq ++ [{ b with words := [b.words.getD 0 0, BitVec.ofNat 64 sum] ++ b.words.drop 2 }], bsum := 0, bsumFirst := none }
  | none => k

/-- `BOUNCE_QUEUE_DELIVER` of core `unit` (R173). -/
def execBounceQueueDeliver (s : State) : Out :=
  let k := s.arg.unit
  match (s.coreOf k).bounceq with
  | [] => .next s
  | m :: r =>
    let pop := fun (s : State) => s.updCore k (fun c => ({ c with bounceq := r } : Core).queueSummary)
    if s.bounceWaits k m then .next s
    else match s.bouncePort k m with
    | none => .next (pop ((s.toFirmware m).report (fieldOfTile (tileOfCore k)) .noSupervisor m.tag []))
    | some (t, a, p, owner) =>
      if s.tileStill (tileOfCore k) || !s.busWay (tileOfCore k) t then .next s
      else match s.putHw t a p owner m with
        | none => .next s
        | some s1 => .next (pop s1)

/-! ### Control packets (R330) -/

/-- The control packet follows every message that its agent sent earlier on SYS to the same core. -/
def State.ctlReady (s : State) (c : CtlPkt) : Bool :=
  !(((s.coreOf c.srcCore).queue 2 ++ s.flying).any (fun m => !m.hw && m.vn = 2 && m.srcCore = c.srcCore && m.srcAct = c.srcAct &&
    s.capCoreId m.capLo = s.capCoreId c.capLo && capDev m.capLo = capDev c.capLo))

/-- The bounce of a control packet: it has no words (R173). -/
def CtlPkt.asMsg (c : CtlPkt) : Msg := { vn := 2, capLo := c.capLo, tag := capOwner c.capLo, srcCore := c.srcCore, srcAct := c.srcAct, home := c.home }

/-- What a control packet does to the actors and firings of its core (R330). -/
def State.applyCtl (s : State) (k : Nat) (c : CtlPkt) : State :=
  let tag := capOwner c.capLo
  if capWhole c.capLo then
    let s1 := s.updCore k (fun x => { x with actors := x.actors.map (fun a => (a.1, if a.2.valid && a.2.owner = tag then { a.2 with halted := !c.wake } else a.2)) })
    if c.wake then s1.wakeFirings k (fun x => x.tag = tag) else s1
  else
    let a := capAct c.capLo
    let s1 := s.updActor k a (fun x => { x with halted := !c.wake })
    if c.wake then s1.wakeFirings k (fun x => x.isFiringOf a) else s1

/-- Deliver a control packet (R98, R172, R330). For another device it leaves by its port. -/
def State.deliverCtl (s : State) (i : Nat) (wake : Bool) : State :=
  match s.ctls[i]? with
  | none => s
  | some c =>
    if c.wake ≠ wake || !s.ctlReady c || s.masked 2 || s.onTheWay c.capLo || (s.capCoreId c.capLo).any (fun k => s.tileStill (tileOfCore k)) then s
    else
      let s1 := { s with ctls := setAt s.ctls i none }
      match s.injectTo c.asMsg with
      | .wait => s
      | .refused e => (s1.lookUp (tileOfCore c.srcCore) c.capLo).bounceAt c.asMsg e c.srcCore
      | .other d => (match (s.edgeTo (tileOfCore c.srcCore) d).bind (fun e => s.pathCause (tileOfCore c.srcCore) e 2) with
        | some e => s1.bounceAt c.asMsg e c.srcCore
        | none => s1)
      | .core k =>
        let s1 := s1.lookUp (tileOfCore c.srcCore) c.capLo
        let f := fieldOfTile (tileOfCore k)
        let x := (s.coreOf k).actorAt (capAct c.capLo)
        match s.pathCause (tileOfCore c.srcCore) (tileOfCore k) 2 with
        | some e => s1.bounceAt c.asMsg e c.srcCore
        | none =>
          if (s.hubOf f).runTag = capOwner c.capLo ∧ s.restored f then
            let s1 := s1.countFabric (fieldOfTile (tileOfCore c.srcCore)) 0x42 (Config.flits 0)
            (if !capWhole c.capLo && (!x.valid || x.owner ≠ capOwner c.capLo) then s1.bounceAt c.asMsg Cause.destGone k else s1.applyCtl k c)
          else if s.inGroup f (capOwner c.capLo) then s
          else s1.bounceAt c.asMsg Cause.destOwner k

/-- `WAKE_DELIVERY` of control packet `value` (R330). -/
def execWakeDelivery (s : State) : Out := .next (s.deliverCtl s.arg.value true)

/-- `HALT_DELIVERY` of control packet `value` (R330). -/
def execHaltDelivery (s : State) : Out := .next (s.deliverCtl s.arg.value false)

end Sys2Proof.Machine
end

