-- ==== Sys2Proof/Machine/Start.lean ====
section
/-! DEFINITION. The choice of a firing, its start, the sources of work, and the resumption of parked firings: R33, R46, R66, R67, R96,
R129, R133, R135 to R144, R152, R158 to R163, R182, R183, R186, R248. An event names its core in `arg.unit`. -/

namespace Sys2Proof.Machine

/-! ### Free contexts -/

/-- A context slot is live by the atlas and free. The lowest-numbered one takes a firing. -/
def State.freeSlot (s : State) (k : Nat) : Option Nat :=
  let t := tileOfCore k
  let live := (s.atlasRec (fieldOfTile t) (nodeOfUnit t (k % 2))).caps
  ((List.range 8).map (8 * k + ·)).find? (fun i => bitAt live (i % 8) && !(s.ctxOf i).occ)

/-- A logical tile is to leave a tile, and its state has not left yet (R148, R175). -/
def State.leaving (s : State) (t : Nat) : Bool := s.migrations.any (fun g => g.oldTile = t && 1 ≤ g.step && g.step ≤ 3)

/-- Firings may start at a core: its tile is on, the core works and is not under test, its field neither switches nor relocks, and no logical tile is leaving it
(R19, R33, R43, R66, R97, R148). -/
def State.coreOpen (s : State) (k : Nat) : Bool :=
  let t := tileOfCore k
  (s.tileOf t).pwr = 0 && s.tileStatus t ≤ 1 && s.unitWorks t (k % 2) && !s.underTest k && (s.hubOf (fieldOfTile t)).sw.step = 0 && !s.leaving t && !s.tileStill t

/-- The tag that runs at a core (R98). -/
def State.tagAt (s : State) (k : Nat) : Nat := (s.hubOf (fieldOfTile (tileOfCore k))).runTag

/-- Work of a tag may run at a tile: in a field without a partition only the platform's (R92). -/
def State.tagRuns (s : State) (t tag : Nat) : Bool := (s.hubOf (fieldOfTile t)).runTag ≠ 0 || tag = 0

/-! ### Candidates (R140) -/

/-- The firings that may start: of an actor, of a held item of a launch, of the newest task. -/
inductive Cand where
  | actor (a : Nat)
  | pool (id item : Nat)
  | task
  deriving DecidableEq, Repr

/-- Words 0 to 2 of an actor's descriptor as they stand in its table (R152). -/
def State.descAt (s : State) (k a : Nat) : List Word :=
  doublewords 8 (s.mem.readLE (gpaKey (tileGpa (tileOfCore k) ((s.coreOf k).actBase + 64 * a))) 64)

/-- An actor's firing has supervisor level (R96). -/
def State.actorLevel (s : State) (k a : Nat) : Nat :=
  let x := (s.coreOf k).actorAt a
  if x.owner = 0 then 2
  else if x.sup then 1
  else match s.supervisorCap x.owner with
    | some lo => if s.capCoreId lo = some k ∧ capAct lo = a then 1 else 0
    | none => 0

/-- The send-queue reservations of an actor's firing can be made (R158). -/
def Core.canReserve (k : Core) (prod : Nat) : Bool := (k.queue 0).length + k.reqRsv + prod ≤ 32 && (k.queue 3).length + k.bulkRsv + prod ≤ 32

/-- Every used region of a launch's footprint is held on a tile (R139). -/
def State.footReady (s : State) (t id : Nat) (h : Header) : Bool :=
  (List.range 4).all (fun i => (h.region i).len = 0 || (s.tileOf t).foot.any (fun r => r.1 = id && r.2.1 = i))

/-- The tiles that an item of a launch runs on: the tile, or with DBL its pair (R46, R144). -/
def Header.itemTiles (h : Header) (t : Nat) : List Nat := if h.dbl then [leaderOf t, leaderOf t + 1] else [t]

/-- The cores that an item runs on (R135). -/
def Header.itemCores (h : Header) (t : Nat) : List Nat := (h.itemTiles t).flatMap (fun u => if h.pair then [2 * u + 1, 2 * u] else [2 * u + 1])

/-- The standing of a candidate: smaller is first (R140). -/
structure Standing where
  tier : Nat
  cls : Nat
  since : Nat
  kind : Nat
  index : Nat
  deriving DecidableEq, Repr

/-- The order of R140. -/
def Standing.before (a b : Standing) : Bool :=
  decide (a.tier < b.tier) || (a.tier = b.tier && (decide (a.cls > b.cls) || (a.cls = b.cls && (decide (a.since < b.since) || (a.since = b.since &&
    (decide (a.kind < b.kind) || (a.kind = b.kind && decide (a.index < b.index))))))))

/-- The class that counts for a candidate (R140). -/
def agedClass (cls since rtime : Nat) : Nat := if since + 1000000 ≤ rtime then 3 else cls

/-- The candidates of a core (R140). -/
def State.candidates (s : State) (k : Nat) : List (Cand × Standing) :=
  let c := s.coreOf k
  let tag := s.tagAt k
  let actors := c.actors.filterMap (fun e =>
    let d := s.descAt k e.1
    if e.2.ready && e.2.owner = tag && c.canReserve (descProd d) then
      let since := e.2.readyAt.getD s.rtime
      let sys := (match e.2.trigger with
        | some p => portKind (e.2.portAt p).word = 2
        | none => false)
      some (Cand.actor e.1, (⟨if sys || s.actorLevel k e.1 = 1 then 0 else 1, agedClass (descClass d) since s.rtime, since, 0, e.1⟩ : Standing))
    else none)
  let ids := (c.held.map (fun e => e.1)).eraseDups
  let pools := ids.filterMap (fun id =>
    match s.launchOf id, c.held.find? (fun e => e.1 = id) with
    | some e, some (_, n, since) =>
      let h : Header := e.header
      let t := tileOfCore k
      if s.tagRuns t e.tag && s.tileMayRun h t && (h.itemTiles t).all (fun u => s.footReady u id h) && (h.itemCores t).all (fun j => s.coreOpen j && (s.freeSlot j).isSome) then
        some (Cand.pool id n, (⟨1, agedClass h.cls since s.rtime, since, 1, id⟩ : Standing))
      else none
    | _, _ => none)
  let tasks := match c.deque with
    | r :: _ => if r.tag = tag then [(Cand.task, (⟨1, agedClass r.cls r.pushed s.rtime, r.pushed, 2, r.launch.getD 0⟩ : Standing))] else []
    | [] => []
  actors ++ pools ++ tasks

/-- The candidate that starts first at a core with a free context (R140). -/
def State.firstCand (s : State) (k : Nat) : Option Cand :=
  if !s.coreOpen k || (s.freeSlot k).isNone then none
  else match s.candidates k with
    | [] => none
    | c :: cs => some (cs.foldl (fun b a => if a.2.before b.2 then a else b) c).1

/-! ### The start of a firing (R161, R186) -/

/-- A core that had no context ready gets one: the time of CORE_HANG counts from here (R253). -/
def Core.roused (k : Core) (rtime : Nat) : Core := { k with retired := rtime, hung := false }

/-- A new firing occupies a context (R186); a new firing has a new number. -/
def State.startAt (s : State) (i : Nat) (c : Ctx) : State :=
  ((({ s with ctxs := s.ctxs.put i { c with occ := true, firing := s.nextFiring }, nextFiring := s.nextFiring + 1 } : State)).updCore (coreOfCtx i)
    (fun k => k.roused s.rtime)).countCore (coreOfCtx i) (some (i % 8)) 0x03 1

/-- An actor's words 0 to 2 have become malformed since its registration (R152). -/
def Actor.descStale (x : Actor) (d : List Word) : Bool :=
  descBad d || descSup d ≠ x.sup || descOwner d ≠ x.owner || descClaim d ≠ x.claim

/-- The registers of an actor's firing that takes message m of port p (R161, R186). -/
def actorCtx (d : List Word) (a p level tag : Nat) (m : Msg) : Ctx :=
  { v := [(0, BitVec.ofNat 256 (vecOfWords m 0)), (1, BitVec.ofNat 256 (vecOfWords m 4))], pc := BitVec.ofNat 64 (bitsOf (m.word 0) 47 3 * 8),
    senderLo := m.scapLo, senderHi := m.scapHi, port := portWord m p, codelo := BitVec.ofNat 64 (descCodelo d),
    codehi := BitVec.ofNat 64 (descCodelo d + descCodelen d), lbase := BitVec.ofNat 64 (descStbase d), act := a, cls := descClass d, tag := tag,
    level := level, prod := descProd d }

/-- Start actor a in a slot (R158, R161, R163). -/
def State.startActor (s : State) (i a : Nat) : State :=
  let k := coreOfCtx i
  let x := (s.coreOf k).actorAt a
  match x.trigger with
  | none => s
  | some p => match (x.portAt p).head with
    | none => s
    | some m =>
      let d := s.descAt k a
      let s1 := (s.updPort k a p (fun q => (q.dropHead 1).settled s.mem k)).updActor k a (fun x => { x with busy := true, readyAt := none })
      let s2 := s1.updCore k (fun c => { c with reqRsv := c.reqRsv + descProd d, bulkRsv := c.bulkRsv + descProd d })
      let c := actorCtx d a p (s.actorLevel k a) x.owner m
      let s3 := (s2.startAt i c).countCore k (some (i % 8)) 0x08 1
      if x.descStale d then s3.freeze i { cause := .actBad, synd := (m.word 0).toNat }
      else if c.pc < c.codelo ∨ c.codehi ≤ c.pc then s3.freeze i { cause := .badHandler, synd := (m.word 0).toNat }
      else s3

/-- `FIRING_START` at core `unit` (R140, R161). -/
def execFiringStart (s : State) : Out :=
  match s.firstCand s.arg.unit, s.freeSlot s.arg.unit with
  | some (.actor a), some i => .next (s.startActor i a)
  | _, _ => .next s

/-- The registers of a pool firing of an item (R135, R137, R186). -/
def poolCtx (e : Launch) (item : Nat) (feed : Bool) : Ctx :=
  let h : Header := e.header
  let grid : KMap Word := if h.mode = 1 then
      [(0, BitVec.ofNat 64 (h.org item 0)), (1, BitVec.ofNat 64 (h.org item 1)), (2, BitVec.ofNat 64 (h.org item 2)),
       (3, BitVec.ofNat 64 (h.sub item 0)), (4, BitVec.ofNat 64 (h.sub item 1)), (5, BitVec.ofNat 64 (h.sub item 2))]
    else []
  { pc := BitVec.ofNat 64 (h.codelo + if feed then 0 else h.entry), wid := BitVec.ofNat 64 (h.itemWid item),
    widf := BitVec.ofNat 64 (h.mode * 2 ^ 36 + h.widf), grid := grid, senderLo := e.parentLo, senderHi := e.parentHi, port := 0xF,
    codelo := BitVec.ofNat 64 h.codelo, codehi := BitVec.ofNat 64 (h.codelo + h.codelen), cls := h.cls, pool := true, tag := e.tag, level := e.level,
    launch := some e.id, depth := e.depth, item := item, feedPair := feed }

/-- Start an item's firings on its cores, each in the lowest free slot, all in one cycle (R135, R144). -/
def State.startItem (s : State) (k id item : Nat) : State :=
  match s.launchOf id with
  | none => s
  | some e =>
    let h : Header := e.header
    let t := tileOfCore k
    let slots := (h.itemCores t).map (fun j => (s.freeSlot j).getD 0)
    let s1 := s.updCore k (fun c => { c with held := c.held.filter (fun r => !(r.1 = id && r.2.1 = item)) })
    let s2 := slots.foldl (fun s i => s.startAt i (poolCtx e item (coreOfCtx i % 2 = 0))) s1
    if h.dbl then
      let lead := slots.filter (fun i => tileOfCtx i = leaderOf t)
      let foll := slots.filter (fun i => tileOfCtx i ≠ leaderOf t)
      (lead.zip foll).foldl (fun s p => (s.updCtx p.1 (fun c => { c with pairCtx := some p.2, pairFiring := some (s.ctxOf p.2).firing })).updCtx p.2
        (fun c => { c with pairCtx := some p.1, pairFiring := some (s.ctxOf p.1).firing })) s2
    else s2

/-- `POOL_FIRING_START` at the issue core `unit` (R135, R140, R144). -/
def execPoolFiringStart (s : State) : Out :=
  match s.firstCand s.arg.unit with
  | some (.pool id n) => .next (s.startItem s.arg.unit id n)
  | _ => .next s

/-- The registers of a task (R143, R186). -/
def taskCtx (r : TaskRec) (level : Nat) : Ctx :=
  { v := [(0, BitVec.ofNat 256 (((List.range 4).map (fun i => (r.words.getD i 0).toNat * 2 ^ (64 * i))).sum))], pc := r.words.getD 0 0,
    wid := r.words.getD 1 0, widf := r.widf, port := 0xE, codelo := r.codelo, codehi := r.codehi, cls := r.cls, task := true, tag := r.tag,
    level := level, launch := r.launch, depth := r.depth }

/-- The deque of core k after its newest task leaves; when it empties, the newest of the spill ring, up to 32, come back from local
store (R143; DESIGN CHOICE; log 138). -/
def State.popTask (s : State) (k : Nat) : State :=
  let c := s.coreOf k
  s.updCore k (fun x =>
    if (c.deque.drop 1).isEmpty then { x with deque := (c.spill.take 32).map (s.readRing k), spill := c.spill.drop 32 } else { x with deque := c.deque.drop 1 })

/-- `TASK_START` at core `unit` (R140, R143). -/
def execTaskStart (s : State) : Out :=
  let k := s.arg.unit
  match s.firstCand k, s.freeSlot k, (s.coreOf k).deque with
  | some .task, some i, r :: _ => .next ((s.popTask k).startAt i (taskCtx r (if r.tag = 0 then 2 else 0)))
  | _, _, _ => .next s

/-! ### Sources of work (R136, R141, R143) -/

/-- A core looks for work: it has a free context, no candidate and no task, and takes can reach the hub (R141, R148). -/
def State.looks (s : State) (k : Nat) : Bool :=
  let t := tileOfCore k
  let h := s.hubOf (fieldOfTile t)
  s.unitWorks t (k % 2) && !s.underTest k && h.sw.step = 0 && h.startup = 7 && (s.freeSlot k).isSome && (s.candidates k).isEmpty &&
    (s.coreOf k).deque.isEmpty && !s.masked 2

/-- The places of a tile in the list of a launch's runners (R137): its own, and in a doubles launch those of both tiles of its pair, to either of which a
logical core of the list may have moved. -/
def Launch.placesOf (e : Launch) (t : Nat) : List Nat :=
  (List.range e.runners.length).filter (fun i =>
    let r := e.runners.getD i 10800
    r = t || (Header.dbl e.header && decide (r < 10800) && leaderOf r = t))

/-- The launches that a tile may take from, by class and then by age (R141). In grid mode they go to the cores that could run them at acceptance (R137). -/
def State.launchesFor (s : State) (t : Nat) : List Launch :=
  let f := fieldOfTile t
  let tag := (s.hubOf f).runTag
  let all := s.hubs.flatMap (fun e => (e.2.launches ++ e.2.saved.flatMap (fun m => m.2.launches)).map (fun l => l.2))
  (all.filter (fun e => e.tag = tag && e.mask.contains f && (Header.mode e.header ≠ 1 || !(e.placesOf t).isEmpty) && e.open_ ≠ 0 &&
      s.tileMayRun e.header t)).mergeSort (fun a b =>
    decide (Header.cls a.header > Header.cls b.header) || (Header.cls a.header = Header.cls b.header &&
      (decide (a.accepted < b.accepted) || (a.accepted = b.accepted && decide (a.id ≤ b.id)))))

/-- A take from a launch waits: its home field relocks, or is switched out and has the entry in its image (R148). -/
def State.takeWaits (s : State) (e : Launch) : Bool :=
  let h := s.hubOf (launchField e.id)
  h.locking.isSome || h.sw.step ≠ 0 || (launchIn h.launches e.id).isNone

/-- The range of a field in a launch, while it is not empty. -/
def Launch.rangeOf (e : Launch) (f : Nat) : Option (Nat × Nat) :=
  match e.ranges.find? (fun r => r.1 = f && r.2.1 < r.2.2) with
  | some (_, lo, hi) => some (lo, hi)
  | none => none

/-- The next live cell of a runner at or after c (R137). -/
def nextCell (h : Header) (step : Nat) : Nat → Nat → Option Nat
  | 0, _ => none
  | n + 1, c => if c ≥ h.cells then none else if h.cellLive c then some c else nextCell h step n (c + step)

/-- What a pull takes from a launch for a tile: items, and the entry after it (R136, R137, R145). -/
def Launch.pull (e : Launch) (t : Nat) : Option (List Nat × Launch) :=
  let h : Header := e.header
  match e.requeue.find? (fun r => !r.taken && !r.leads.contains t) with
  | some r => some ([r.item], { e with requeue := e.requeue.map (fun x => if x.item = r.item then { x with taken := true } else x) })
  | none =>
    if h.mode = 1 then
      let next := (e.placesOf t).filterMap (fun i => (nextCell h e.runners.length (h.cells + 1) (e.cells.get i i)).map (fun c => (c, i)))
      match next with
      | [] => none
      | p :: ps =>
        let (c, i) := ps.foldl (fun b a => if a.1 < b.1 then a else b) p
        some ([c], { e with cells := e.cells.put i (c + e.runners.length) })
    else match e.rangeOf (fieldOfTile t) with
      | none => none
      | some (lo, hi) =>
        let n := min h.chunk (hi - lo)
        some ((List.range n).map (lo + ·), { e with ranges := e.ranges.map (fun r => if r.1 = fieldOfTile t then (r.1, lo + n, hi) else r) })

/-- What a steal takes: the high end of the next field's range in ring order (R136). -/
def Launch.stealItems (e : Launch) (f : Nat) : Option (List Nat × Launch) :=
  let h : Header := e.header
  if h.mode = 1 then none
  else match ((e.mask.filter (· > f)) ++ (e.mask.filter (· < f))).find? (fun g => (e.rangeOf g).isSome) with
    | none => none
    | some g => match e.rangeOf g with
      | none => none
      | some (lo, hi) =>
        let n := min h.chunk (hi - lo)
        some ((List.range n).map (hi - n + ·), { e with ranges := e.ranges.map (fun r => if r.1 = g then (r.1, lo, hi - n) else r) })

/-- Take from the first launch that gives something; one whose home does not answer yet keeps the core waiting, with no item (R148). -/
def State.takeFrom (s : State) (t : Nat) (take : Launch → Option (List Nat × Launch)) : Option (Launch × List Nat × Launch) :=
  (s.launchesFor t).findSome? (fun e => if s.takeWaits e then some (e, [], e) else (take e).map (fun r => (e, r.1, r.2)))

/-- The items come to the core, if its tile is on; else a wake is asked for (R67, R136). -/
def State.takeWork (s : State) (k : Nat) (w : Launch × List Nat × Launch) : State :=
  let (e, items, e') := w
  if items.isEmpty then s
  else if (s.tileOf (tileOfCore k)).pwr ≠ 0 then s.queueWake (tileOfCore k) (Header.cls e.header)
  else (s.updLaunch e.id (fun _ => e')).updCore k (fun c => { c with held := c.held ++ items.map (fun n => (e.id, n, s.rtime)) })

/-- What the pull of a core would take. -/
def State.pullOf (s : State) (k : Nat) : Option (Launch × List Nat × Launch) :=
  if isIssueCore k && s.looks k then s.takeFrom (tileOfCore k) (fun e => e.pull (tileOfCore k)) else none

/-- `TICKET_PULL` by core `unit` (R136, R137, R141). -/
def execTicketPull (s : State) : Out :=
  match s.pullOf s.arg.unit with
  | some w => .next (s.takeWork s.arg.unit w)
  | none => .next s

/-- Mesh hops between two tiles. -/
def hopsBetween (a b : Nat) : Nat :=
  (max (tileX a) (tileX b) - min (tileX a) (tileX b)) + (max (tileY a) (tileY b) - min (tileY a) (tileY b))

/-- The victim in a field that its hub names for a thief (R143). -/
def State.victimIn (s : State) (k f : Nat) : Option Nat :=
  let t := tileOfCore k
  let found := s.cores.filter (fun e => e.1 ≠ k && fieldOfTile (tileOfCore e.1) = f && e.1 % 2 = k % 2 && tileKind (tileOfCore e.1) = tileKind t &&
    (match (e.2.deque ++ e.2.spill).getLast? with
     | some r => decide (r.tag = s.tagAt k)
     | none => false))
  match found.map (fun e => e.1) with
  | [] => none
  | v :: vs => some (vs.foldl (fun b a =>
      let x := (hopsBetween t (tileOfCore a), localOfTile (tileOfCore a))
      let y := (hopsBetween t (tileOfCore b), localOfTile (tileOfCore b))
      if x.1 < y.1 ∨ (x.1 = y.1 ∧ x.2 < y.2) then a else b) v)

/-- The other fields of the running partition in ring order from a field. -/
def State.ringFields (s : State) (f : Nat) : List Nat := s.otherFields f

/-- The victim of a core that looks for a task: of its field after a pull found nothing, of another after a steal of tickets did (R141). -/
def State.taskVictim (s : State) (k : Nat) : Option Nat :=
  let f := fieldOfTile (tileOfCore k)
  if !s.looks k || (s.pullOf k).isSome then none
  else match s.victimIn k f with
    | some v => some v
    | none =>
      if isIssueCore k && (s.takeFrom (tileOfCore k) (fun e => e.stealItems f)).isSome then none
      else (s.ringFields f).findSome? (s.victimIn k)

/-- What a ticket steal of a core would take (R141). -/
def State.ticketSteal (s : State) (k : Nat) : Option (Launch × List Nat × Launch) :=
  let f := fieldOfTile (tileOfCore k)
  if isIssueCore k && s.looks k && (s.pullOf k).isNone && (s.victimIn k f).isNone then s.takeFrom (tileOfCore k) (fun e => e.stealItems f) else none

/-- `TICKET_STEAL` by core `unit` (R136, R141). -/
def execTicketSteal (s : State) : Out :=
  match s.ticketSteal s.arg.unit with
  | some w => .next (s.takeWork s.arg.unit w)
  | none => .next s

/-- A core without its oldest task. -/
def Core.dropOldest (k : Core) : Core := if k.spill.isEmpty then { k with deque := k.deque.dropLast } else { k with spill := k.spill.dropLast }

/-- `TASK_STEAL` by core `unit` (R67, R143). -/
def execTaskSteal (s : State) : Out :=
  let k := s.arg.unit
  match s.taskVictim k with
  | none => .next s
  | some v => match ((s.coreOf v).deque ++ (s.coreOf v).spill).getLast? with
    | none => .next s
    | some r =>
      if (s.tileOf (tileOfCore k)).pwr ≠ 0 then .next (s.queueWake (tileOfCore k) r.cls)
      else
        let got := if (s.coreOf v).spill.isEmpty then r else s.readRing v r
        .next ((s.updCore v Core.dropOldest).updCore k (fun c => { c with deque := got :: c.deque }))

/-! ### Footprints (R138, R139) -/

/-- Copy a run of bytes at a VA of a tag into memory, page by page: the first cause that stops it, none where it waits, or the memory. The checks of a read at
its source apply (R106, R110), and those on its way (R38, R39). -/
def State.copyRun (s : State) (core tag level : Nat) : Nat → Nat → Nat → Nat → Memory → Except (Option Cause) Memory
  | 0, _, _, _, m => .ok m
  | fuel + 1, va, dst, n, m =>
    if n = 0 then .ok m
    else
      let piece := min n (0x1000 - va % 0x1000)
      match (s.fieldView core).translate core tag va .read with
      | .bad c _ => .error (some c)
      | .wait => .error none
      | .ok g _ =>
        match s.gpaRefuses g piece .read false (8 * core) tag level, s.runsWay (tileOfCore core) [(g, piece)] 3 with
        | some c, _ => .error (some c)
        | none, .error e => .error e
        | none, .ok _ =>
        if (List.range 33).any (fun i => s.poisoned (g / 128 * 128 + 128 * i) && decide (g / 128 * 128 + 128 * i < g + piece)) then .error (some (s.poisonCause [(g, piece)]))
        else s.copyRun core tag level fuel (va + piece) (dst + piece) (n - piece) (m.writeLE dst piece (({ s with mem := m } : State).viewLE g piece))

/-- The first held item of a core whose footprint lacks a region on a tile of it, where no other launch's area is in the way. -/
def State.footWanted (s : State) (k : Nat) : Option (Nat × Nat × Nat × Nat) :=
  (s.coreOf k).held.findSome? (fun e => match s.launchOf e.1 with
    | none => none
    | some l =>
      let h : Header := l.header
      (h.itemTiles (tileOfCore k)).findSome? (fun t =>
        ((List.range 4).find? (fun i => (h.region i).len ≠ 0 && !((s.tileOf t).foot.any (fun r => r.1 = e.1 && r.2.1 = i)))).bind (fun i =>
          if (s.tileOf t).foot.any (fun r => match s.launchOf r.1 with
            | some o => r.1 ≠ e.1 && overlaps (Header.regionAt o.header r.2.1) ((Header.region o.header r.2.1).len) (h.regionAt i) ((h.region i).len)
            | none => false) then none else some (e.1, e.2.1, t, i))))

/-- `FOOTPRINT_COPY` for core `unit` (R139): one region, or the item fails. -/
def execFootprintCopy (s : State) : Out :=
  let k := s.arg.unit
  match s.footWanted k with
  | none => .next s
  | some (id, item, t, i) => match s.launchOf id with
    | none => .next s
    | some e =>
      let h : Header := e.header
      let r := h.region i
      if s.tileStill t then .next s
      else match s.copyRun (2 * t + 1) e.tag e.level (r.len / 0x1000 + 2) r.va (gpaKey (tileGpa t (h.regionAt i))) r.len s.mem with
      | .ok m => .next (({ s with mem := m } : State).updTile t (fun x => { x with foot := x.foot ++ [(id, i, h.regionAt i / 0x1000, r.len / 0x1000, r.pin)] }))
      | .error none => .next s
      | .error (some c) =>
        .next ((s.updCore k (fun c => { c with held := c.held.filter (fun x => !(x.1 = id && x.2.1 = item)) })).endItem id (h.itemWid item) (some c))

/-! ### Resumption (R159, R163, R183, R248, R249, R310) -/

/-- The data of a firing of a field, in a slot or in a park area. -/
def State.firingOf (s : State) (f n : Nat) : Option Ctx :=
  (((s.ctxs.filter (fun e => fieldOfCtx e.1 = f && e.2.occ)).map (fun e => e.2)) ++
    (s.cores.filter (fun e => fieldOfTile (tileOfCore e.1) = f)).flatMap (fun e => e.2.parked.map (fun q => q.2))).find? (fun c => c.firing = n)

/-- The oldest firing of a field that is parked in `launch.w` and for whose depth there is room (R133). -/
def State.oldestWaiter (s : State) (f : Nat) : Option Nat :=
  (s.hubOf f).lwaiters.find? (fun n => match s.firingOf f n with
    | some c => c.st = 2 && c.reason = Cause.launchQfull && ((s.hubOf f).launchRoom (c.depth + 1)).isSome
    | none => false)

/-- The firings of a field that are parked in `launch.w` (R134). -/
def State.parkedWaiters (s : State) (f : Nat) : List Nat :=
  (s.hubOf f).lwaiters.filter (fun n => (s.firingOf f n).any (fun c => c.st = 2 && c.reason = Cause.launchQfull))

/-- The wait of a parked or pre-empted firing of a core has ended. -/
def State.waitEnded (s : State) (k : Nat) (c : Ctx) : Bool :=
  let f := fieldOfTile (tileOfCore k)
  if c.st = 3 then true
  else if c.st ≠ 2 then false
  else if c.reason = Cause.sendqFull then ((s.coreOf k).queue c.parkVn).isEmpty
  else if c.reason = Cause.launchQfull then s.oldestWaiter f = some c.firing
  else c.wakeBit

/-- The header of a launch wants a core for an item that another core holds: both tiles of a pair, or both cores of a tile (R46, R144). -/
def Header.needsCore (h : List Word) (holder k : Nat) : Bool :=
  (tileOfCore k = tileOfCore holder || (Header.dbl h && leaderOf (tileOfCore k) = leaderOf (tileOfCore holder))) && (k % 2 = holder % 2 || Header.pair h)

/-- A core holds an item that has waited 1 µs for its firings to start, at that core or, in a pair, at another (R43, R46, R144). -/
def State.itemWaits (s : State) (k : Nat) : Bool :=
  let t := leaderOf (tileOfCore k)
  [2 * t, 2 * t + 1, 2 * t + 2, 2 * t + 3].any (fun j => (s.coreOf j).held.any (fun e =>
    decide (e.2.2 + 1000 ≤ s.rtime) && (j = k || (match s.launchOf e.1 with
      | some l => Header.needsCore l.header j k
      | none => false))))

/-- A firing of the core under test has become ready and has waited, for 1 µs at most (R43): an actor, a task, an item, a parked firing whose
wait has ended. -/
def State.abandonDue (s : State) (f : Nat) : Bool :=
  let h := s.hubOf f
  let k := rookCore (tileOfLocal f h.rookTile) h.rookUnit
  h.rookBusy && h.rookUnit < 3 && ((s.coreOf k).actors.any (fun a => a.2.ready && (match a.2.readyAt with
      | some t => decide (t + 1000 ≤ s.rtime)
      | none => false)) ||
    (s.coreOf k).deque.any (fun r => decide (r.pushed + 1000 ≤ s.rtime)) || s.itemWaits k || (s.coreOf k).parked.any (fun e => s.waitEnded k e.2))

/-- `ROOK_TEST_ABANDON` in field `unit` (R43): the test is retried on the next pass. -/
def execRookTestAbandon (s : State) : Out :=
  let f := s.arg.unit
  if !s.abandonDue f then .next s
  else .next (s.updHub f (fun h =>
    let (t, u) := h.rookAt f
    { h with rookBusy := false, rookSince := s.rtime, rookFirst := h.rookFirst ++ h.rookAgain.toList.map (fun src => (t, u, src, s.rtime)) }))

/-- The parked entries of a core whose wait has ended: a park-area key, or 64 + slot for one parked in place. -/
def State.resumable (s : State) (k : Nat) : List Nat :=
  ((s.coreOf k).parked.filter (fun e => s.waitEnded k e.2 && s.tagRuns (tileOfCore k) e.2.tag)).map (fun e => e.1) ++
    (List.range 8).filterMap (fun c => if (s.ctxOf (8 * k + c)).occ && (s.ctxOf (8 * k + c)).st ≥ 2 && s.waitEnded k (s.ctxOf (8 * k + c)) && s.tagRuns (tileOfCore k) (s.ctxOf (8 * k + c)).tag then some (64 + c) else none)

/-- What names a firing's context follows it to its new slot. -/
def State.moveFiring (s : State) (n i : Nat) : State :=
  { s with
    net := s.net.map (fun a => if a.firing = n then { a with ctx := i } else a),
    dbgs := s.dbgs.map (fun e => (e.1, { e.2 with att := e.2.att.map (fun a => if a.2 = n then (i, n) else a) })),
    ctxs := s.ctxs.map (fun e => (e.1, if e.1 ≠ i && (match e.2.pairCtx with
      | some _ => (s.ctxOf i).pairCtx = some e.1
      | none => false) then { e.2 with pairCtx := some i } else e.2)),
    cores := s.cores.map (fun e => (e.1, { e.2 with streams := e.2.streams.map (fun q => (q.1, if q.2.firing = n then { q.2 with ctx := i } else q.2)) })),
    tiles := s.tiles.map (fun e => (e.1, if e.2.eng.lown = some n then { e.2 with eng := { e.2.eng with lctx := i % 8 } } else e.2)) }

/-- A resumed context runs at its PC. The wake-pending bit, which ends the wait of a `park`, is cleared when that firing resumes (R310; log 121). -/
def Ctx.resumed (c : Ctx) : Ctx := { c with st := 0, reason := 0, wakeBit := c.wakeBit && !(c.st = 2 && c.reason = Cause.parkExplicit), stall := none, reported := false, hold := none, reply := none, preempt := 0 }

/-- Firings that have left their context may resume at a core: it works, is not under test, its field neither switches nor relocks, and no logical tile is leaving it
(R19, R33, R43, R97, R175). -/
def State.coreResumes (s : State) (k : Nat) : Bool :=
  s.unitWorks (tileOfCore k) (k % 2) && !s.underTest k && !s.tileStill (tileOfCore k) && !s.leaving (tileOfCore k) &&
    (s.hubOf (fieldOfTile (tileOfCore k))).sw.step = 0

/-- `PARK_RESUME` of entry `other` of core `unit`, which names a park-area key, or 64 + slot (R163). -/
def execParkResume (s : State) : Out :=
  let k := s.arg.unit
  let e := s.arg.other
  if !(s.resumable k).contains e then .next s
  else if (s.tileOf (tileOfCore k)).pwr ≠ 0 then .next (s.queueWake (tileOfCore k) ((s.coreOf k).parked.get {} e).cls)
  else if !s.coreResumes k then .next s
  else if e ≥ 64 then .next (s.updCtx (8 * k + (e - 64)) Ctx.resumed)
  else match s.freeSlot k with
    | none => .next s
    | some i =>
      let c := (s.coreOf k).parked.get {} e
      let s1 := ({ s with ctxs := s.ctxs.put i c.resumed } : State).updCore k (fun c => { c.roused s.rtime with parked := c.parked.drop e })
      .next (s1.moveFiring c.firing i)

end Sys2Proof.Machine
end

