-- ==== Sys2Proof/Machine/Regs.lean ====
section
/-! DEFINITION. Registers that software reads and writes by address: the tile control registers (R100, R143, R149, R183, R244, R250), the hub
registers and tables (R20, R31, R37, R40, R45, R57 to R60, R69 to R73, R94, R97, R109, R118, R122, R134, R171, R226, R399), and the events that
write one of them. A write is given the register's whole value: bits that a narrower store leaves out stand as they were, and as 0 where writing
1 acts. -/

namespace Sys2Proof.Machine

/-- The value that a store of some bytes of a register gives it: `old` outside them, without the bits that act when written 1. -/
def mergeReg (old acts v lo n : Nat) : Nat :=
  (old - (old &&& acts)) - ((old - (old &&& acts)) / 2 ^ (8 * lo) % 2 ^ (8 * n) * 2 ^ (8 * lo)) + v % 2 ^ (8 * n) * 2 ^ (8 * lo)

/-! ### Counters (R100, R101) -/

/-- The event codes of a counter kind: 0 core, 1 slice, 2 fabric (R101). -/
def eventOk (kind ev : Nat) : Bool :=
  match kind with
  | 0 => 1 ≤ ev && ev ≤ 0x0C
  | 1 => 0x20 ≤ ev && ev ≤ 0x25
  | _ => 0x40 ≤ ev && ev ≤ 0x46

/-- CNTCFG of a counter as it reads (R100). -/
def Counter.cfg (kind : Nat) (c : Counter) : Nat :=
  natOfBool c.en * 2 ^ 63 + natOfBool c.ovf * 2 ^ 62 + natOfBool c.omsg * 2 ^ 61 + (if kind = 1 then c.tag * 2 ^ 24 else 0) +
    (if kind = 0 then c.ctxm * 2 ^ 16 else 0) + c.event

/-- A counter after a write of its CNTCFG by software of a tag (R100, R101). -/
def Counter.setCfg (kind tag v : Nat) (c : Counter) : Counter :=
  { c with en := bitAt v 63, ovf := c.ovf && !bitAt v 62, omsg := bitAt v 61, tag := if kind ≠ 1 then 0 else if tag = 0 then bitsAt v 31 24 else tag,
           ctxm := if kind = 0 then bitsAt v 23 16 else c.ctxm, event := if eventOk kind (bitsAt v 7 0) then bitsAt v 7 0 else 0 }

/-- `CNTCFG_WRITE`: counter `other` of unit `unit` takes `value` from software of tag `tag`; `level` 0 names a core, 1 a tile's slice, 2 a field
(R100, R101). -/
def execCntcfgWrite (s : State) : Out := .next (s.updCounter s.arg.level s.arg.unit s.arg.other (Counter.setCfg s.arg.level s.arg.tag s.arg.value))

/-! ### Tile control registers -/

/-- DQCFG, ACTCFG, PARKCFG and WDOG of a core as they read (R143, R149, R183, R250). -/
def Core.dqcfg (k : Core) : Nat := k.spill.length % 4096 * 2 ^ 36 + k.spillCap % 4096 * 2 ^ 22 + k.spillBase % 2 ^ 22
def Core.parkcfg (k : Core) : Nat := k.parked.length % 128 * 2 ^ 31 + k.parkCap % 128 * 2 ^ 22 + k.parkBase % 2 ^ 22
def Core.wdogcfg (k : Core) : Nat := natOfBool k.wdogEn * 2 ^ 63 + k.wdogLimit % 2 ^ 20

/-- The write of DQCFG; none when it is refused (R143). -/
def State.dqcfgWrite (s : State) (k v : Nat) : Option State :=
  let cap := bitsAt v 33 22
  let base := bitsAt v 21 0 / 32 * 32
  if !(s.coreOf k).spill.isEmpty ∨ base + 32 * cap > 0x300000 then none else some (s.updCore k (fun c => { c with spillCap := cap, spillBase := base }))

/-- `DQCFG_WRITE`: core `unit` takes `value` (R143). -/
def execDqcfgWrite (s : State) : Out := .next ((s.dqcfgWrite s.arg.unit s.arg.value).getD s)

/-- The write of ACTCFG (R149). -/
def State.actcfgWrite (s : State) (k v : Nat) : Option State :=
  let base := bitsAt v 21 0
  if (s.coreOf k).actors.any (fun a => a.2.valid) ∨ base % 0x1000 ≠ 0 ∨ base + 0x1000 > 0x300000 then none
  else some (s.updCore k (fun c => { c with actBase := base }))

/-- `ACTCFG_WRITE`: core `unit` takes `value` (R149). -/
def execActcfgWrite (s : State) : Out := .next ((s.actcfgWrite s.arg.unit s.arg.value).getD s)

/-- The write of PARKCFG (R183). -/
def State.parkcfgWrite (s : State) (k v : Nat) : Option State :=
  let cap := bitsAt v 28 22
  let base := bitsAt v 21 0 / 1024 * 1024
  if !(s.coreOf k).parked.isEmpty ∨ base + 1024 * min 64 cap > 0x300000 then none else some (s.updCore k (fun c => { c with parkCap := cap, parkBase := base }))

/-- `PARKCFG_WRITE`: core `unit` takes `value` (R183). -/
def execParkcfgWrite (s : State) : Out := .next ((s.parkcfgWrite s.arg.unit s.arg.value).getD s)

/-! ### Operation slots (R244) -/

def State.opAt (s : State) (t j : Nat) : Op := (s.tileOf t).ops.get {} j
def State.updOp (s : State) (t j : Nat) (g : Op → Op) : State := s.updTile t (fun x => { x with ops := x.ops.put j (g (x.ops.get {} j)) })

/-- OPSTAT (R244). -/
def Op.opstat (o : Op) : Nat :=
  (if o.state = 2 then o.cause else 0) * 2 ^ 56 + o.state * 2 ^ 53 + o.kind * 2 ^ 49 + o.core * 2 ^ 48 + o.ctx * 2 ^ 45 + o.act * 2 ^ 39 + natOfBool o.cmderr * 2 ^ 38

/-- OPCMD of an operation slot (R244). -/
def State.opcmd (s : State) (t j v : Nat) : State :=
  let o := s.opAt t j
  if o.state ≠ 2 then s.updOp t j (fun o => { o with cmderr := true })
  else match v % 4 with
    | 1 => s.updOp t j (fun o => { o with state := s.opGoing t, saved := s.opGoing t / 4, cause := 0, addr := 0 })
    | 2 => s.updOp t j (fun o => { o with state := 3, stop := o.cause, cause := 0 })
    | _ => s.updOp t j (fun o => { o with cmderr := true })

/-- `OPCMD_RESUME` of slot `other` of tile `unit` (R244). -/
def execOpcmdResume (s : State) : Out := .next (s.opcmd s.arg.unit s.arg.other 1)

/-- `OPCMD_FAIL` of slot `other` of tile `unit` (R244). -/
def execOpcmdFail (s : State) : Out := .next (s.opcmd s.arg.unit s.arg.other 2)

/-- `OPCMD_BAD`: slot `other` of tile `unit` takes a command 0 or 3, `value`, or one while it is not suspended (R244). -/
def execOpcmdBad (s : State) : Out :=
  let o := s.opAt s.arg.unit s.arg.other
  if o.state ≠ 2 ∨ s.arg.value % 4 = 0 ∨ s.arg.value % 4 = 3 then .next (s.updOp s.arg.unit s.arg.other (fun o => { o with cmderr := true })) else .next s

/-- The doubleword of the tile control region at an offset of it. -/
def State.tileCtl (s : State) (t o : Nat) : Nat :=
  let k := fun (i : Nat) => s.coreOf (2 * t + i)
  let slot := fun (j w : Nat) => let p := s.opAt t j
    match w with
    | 0 => p.opstat
    | 1 => p.cursor % 2 ^ 64
    | 2 => p.addr % 2 ^ 64
    | _ => 0
  let counter := fun (kind : Nat) (c : Counter) (w : Nat) => if w = 0 then c.cfg kind else c.value % 2 ^ 48
  if o = 0x400 then (k 0).dqcfg else if o = 0x408 then (k 1).dqcfg
  else if o = 0x410 then (k 0).actBase else if o = 0x418 then (k 1).actBase
  else if o = 0x420 then (k 0).parkcfg else if o = 0x428 then (k 1).parkcfg
  else if o = 0x430 then (k 0).wdogcfg else if o = 0x438 then (k 1).wdogcfg
  else if o = 0x440 then s.ringst t
  else if 0x800 ≤ o ∧ o < 0xA00 then slot ((o - 0x800) / 32) ((o - 0x800) / 8 % 4)
  else if 0x1000 ≤ o ∧ o < 0x1040 then counter 0 ((k 0).counters.get {} ((o - 0x1000) / 16)) (o / 8 % 2)
  else if 0x1100 ≤ o ∧ o < 0x1140 then counter 0 ((k 1).counters.get {} ((o - 0x1100) / 16)) (o / 8 % 2)
  else if 0x1200 ≤ o ∧ o < 0x1240 then counter 1 ((s.tileOf t).sliceCounters.get {} ((o - 0x1200) / 16)) (o / 8 % 2)
  else 0

/-- The bits of a tile control doubleword that act when written 1. -/
def tileCtlActs (o : Nat) : Nat :=
  if 0x800 ≤ o ∧ o < 0xA00 then (if o % 32 = 0 then 2 ^ 38 else if o % 32 = 24 then 3 else 0) else if o ≥ 0x1000 ∧ o % 16 = 0 then 2 ^ 62 else 0

/-- A write of a tile control doubleword by software of a tag; none when it is refused: the register is not written by supervisors, or its own
rule discards the write (R106). -/
def State.tileCtlWrite (s : State) (t o v tag : Nat) : Option State :=
  let slot := (o - 0x800) / 32
  let counter := fun (kind unit n : Nat) => some (s.updCounter kind unit n (fun c =>
    if o / 8 % 2 = 0 then c.setCfg kind tag v else { c with value := v % 2 ^ 48 }))
  if o = 0x400 then s.dqcfgWrite (2 * t) v else if o = 0x408 then s.dqcfgWrite (2 * t + 1) v
  else if o = 0x410 then s.actcfgWrite (2 * t) v else if o = 0x418 then s.actcfgWrite (2 * t + 1) v
  else if o = 0x420 then s.parkcfgWrite (2 * t) v else if o = 0x428 then s.parkcfgWrite (2 * t + 1) v
  else if o = 0x430 ∨ o = 0x438 then some (s.updCore (2 * t + (o - 0x430) / 8) (fun k => { k with wdogEn := bitAt v 63, wdogLimit := bitsAt v 19 0 }))
  else if 0x800 ≤ o ∧ o < 0xA00 ∧ o % 32 = 0 then some (if bitAt v 38 then s.updOp t slot (fun p => { p with cmderr := false }) else s)
  else if 0x800 ≤ o ∧ o < 0xA00 ∧ o % 32 = 24 then some (s.opcmd t slot v)
  else if 0x1000 ≤ o ∧ o < 0x1040 then counter 0 (2 * t) ((o - 0x1000) / 16)
  else if 0x1100 ≤ o ∧ o < 0x1140 then counter 0 (2 * t + 1) ((o - 0x1100) / 16)
  else if 0x1200 ≤ o ∧ o < 0x1240 then counter 1 t ((o - 0x1200) / 16)
  else none

/-! ### TLBINV (R118, R122) -/

/-- The key of a writer's partition for the latch of the low half. -/
def State.tlbKey (s : State) (tag : Nat) : Nat := (s.partOfTag tag).getD 16

/-- The low half is latched for the writer's partition (R122). -/
def State.tlbLowWrite (s : State) (f v tag : Nat) : State :=
  let k := s.tlbKey tag
  s.updHub f (fun h => { h with tlbLow := h.tlbLow.put k v })

/-- The high half starts a request with the low half latched (R122). -/
def State.tlbHighWrite (s : State) (f va tag : Nat) : State :=
  let k := s.tlbKey tag
  let low := (s.hubOf f).tlbLow.get 0 k
  s.updHub f (fun h => { h with tlbLow := h.tlbLow.drop k, tlbq := h.tlbq ++ [(tag, va, max 1 (bitsAt low 39 24), bitsAt low 23 22)],
                                tlbIssued := (h.tlbIssued + 1) % 2 ^ 32 })

/-- `TLBINV_LOW_WRITE`: the hub of field `unit` latches `value` for the writer of tag `tag` (R122). -/
def execTlbinvLowWrite (s : State) : Out := .next (s.tlbLowWrite s.arg.unit s.arg.value s.arg.tag)

/-- `TLBINV_HIGH_WRITE`: the VA `value` for field `unit` from the writer of tag `tag` (R122). -/
def execTlbinvHighWrite (s : State) : Out := .next (s.tlbHighWrite s.arg.unit s.arg.value s.arg.tag)

/-- A request covers a VA of a tag (R118). -/
def invCovers (r : Nat × Nat × Nat × Nat) (tag va : Nat) : Bool :=
  let (t, base, n, size) := r
  let page := 2 ^ (16 + 12 * size)
  t = tag && (size = 3 || (base / page ≤ va / page && va / page < base / page + n))

/-- A held translation lies in the range of a request: its page and the range meet. -/
def TlbEntry.hitBy (e : TlbEntry) (r : Nat × Nat × Nat × Nat) : Bool :=
  let (t, base, n, size) := r
  let page := 2 ^ (16 + 12 * size)
  let first := e.va / 2 ^ levelShift e.level * 2 ^ levelShift e.level
  t = e.tag && (size = 3 || overlaps first (2 ^ levelShift e.level) (base / page * page) (n * page))

/-- The oldest request of a field can complete: no access translated with an old entry is still on its way (R122). An access with
further runs of bytes, on another page or in a scale plane, is waited for whatever they are, and so is an entry of an output stream on the page. -/
def State.tlbDue (s : State) (f : Nat) : Bool :=
  match (s.hubOf f).tlbq with
  | [] => false
  | r :: _ => !(s.net.any (fun a => a.result.isNone && (!a.more.isEmpty || invCovers r a.tag a.va))) &&
    !(s.cores.any (fun c => c.2.streams.any (fun e => e.2.bound && e.2.output && e.2.outs.any (fun o => o.1.any (fun p => invCovers r e.2.tag p.1)))))

/-- `TLBINV_DONE` in field `unit` (R122). -/
def execTlbinvDone (s : State) : Out :=
  let f := s.arg.unit
  match (s.hubOf f).tlbq with
  | [] => .next s
  | r :: rest =>
    if !s.tlbDue f then .next s
    else
      let fields := match s.partOfTag r.1 with
        | some p => (s.partOf p).fields
        | none => [f]
      let hubs : KMap Hub := s.hubs.map (fun e => (e.1, if fields.contains e.1 then { e.2 with tlb := e.2.tlb.filter (fun x => !x.hitBy r) } else e.2))
      let cores : KMap Core := s.cores.map (fun e =>
        (e.1, if fields.contains (fieldOfTile (tileOfCore e.1)) then { e.2 with utlb := e.2.utlb.filter (fun x => !x.hitBy r) } else e.2))
      let s1 : State := { s with hubs := hubs, cores := cores }
      .next (s1.updHub f (fun h => { h with tlbq := rest, tlbDone := (h.tlbDone + 1) % 2 ^ 32 }))

/-! ### Capacity stripes (R399) -/

def Stripe.word (e : Stripe) : Nat := natOfBool e.valid * 2 ^ 63 + natOfBool e.refused * 2 ^ 62 + e.log2u % 32 * 2 ^ 24 + e.len % 1024 * 2 ^ 10 + e.base % 1024

/-- The capacity offset that lies at an offset of a chip: the inverse of `chipOf` (R114, R399). -/
def State.capOffsetAt (s : State) (chip x : Nat) : Nat :=
  match List.find? (fun e => e.2.valid && e.2.base ≤ x / 2 ^ 30 && x / 2 ^ 30 < e.2.base + e.2.len) s.stripes with
  | some (_, e) =>
    let y := x - e.base * 2 ^ 30
    e.base * 2 ^ 35 + (y / 2 ^ e.log2u * 32 + chip) * 2 ^ e.log2u + y % 2 ^ e.log2u
  | none => x / 2 ^ 30 * 2 ^ 35 + chip * 2 ^ 30 + x % 2 ^ 30

/-- The address at which the byte of an address stands once the stripes are those of `t`: the chips keep their bytes (R399). -/
def State.restriped (s t : State) (a : Nat) : Nat :=
  if gpaSpace a = 2 then
    let c := s.chipOf (gpaOffset a)
    a - gpaOffset a + t.capOffsetAt c.1 c.2
  else a

/-- The machine `t`, whose stripes differ from those of `s`, with every byte and every poisoned line where its chip offset now lies (R399). The slices
have written back the lines that move, and hold them no more (DESIGN CHOICE; log 145). -/
def State.restripe (s t : State) : State :=
  let line := fun (l : Nat) => lineOf (s.restriped t (128 * l))
  { t with
    mem := s.mem.foldl (fun m e => m.write (s.restriped t e.1) e.2) [], poison := s.poison.map line, latent := s.latent.map (fun e => (line e.1, e.2)),
    dirty := s.dirty.filter (fun l => line l = l), cached := s.cached.filter (fun e => line e.1 = e.1) }

/-- The write of CAPSTRIPEi (R399). -/
def State.capstripeWrite (s : State) (i v : Nat) : State :=
  let old := s.stripes.get {} i
  let new : Stripe := { valid := bitAt v 63, refused := old.refused && !bitAt v 62, log2u := bitsAt v 28 24, len := bitsAt v 19 10, base := bitsAt v 9 0 }
  let others := (List.filter (fun e => e.1 ≠ i && e.2.valid) s.stripes).map (fun e => e.2)
  let bad := (new.valid && (new.log2u < 8 || new.log2u > 30 || new.len = 0 || new.base + new.len > 953 || others.any (fun e => overlaps e.base e.len new.base new.len))) ||
    (old.valid && new.valid && (new.log2u ≠ old.log2u || new.len ≠ old.len || new.base ≠ old.base))
  let s1 : State := { s with stripes := s.stripes.put i (if bad then { old with refused := true } else new) }
  if bad || old.valid = new.valid then s1 else s.restripe s1

/-- `CAPSTRIPE_WRITE`: entry `unit` takes `value` (R399). -/
def execCapstripeWrite (s : State) : Out := .next (s.capstripeWrite s.arg.unit s.arg.value)

/-! ### Atlas records as bytes (R31) -/

/-- The children of a node, ascending. -/
def atlasChildren (n : Nat) : List Nat :=
  if n = 0 then (List.range 56).map (· + 1) ++ (List.range 90).map (fun f => 256 + 1442 * f)
  else if n < 49 then []
  else if n < 57 then (List.range 9).map (57 + 9 * (n - 49) + ·) ++ (List.range 2).map (129 + 2 * (n - 49) + ·) ++ (List.range 4).map (145 + 4 * (n - 49) + ·)
  else if n < 145 then []
  else if n < 177 then [n + 32]
  else if n < 256 then []
  else
    let base := n - (n - 256) % 1442
    if n = base then [base + 1] ++ (List.range 120).map (fun i => base + 2 + 12 * i)
    else if n ≠ base + 1 ∧ (n - base - 2) % 12 = 0 then (List.range 11).map (n + 1 + ·)
    else []

/-- The parent of a node (R30). -/
def atlasParent (n : Nat) : Option Nat :=
  if n = 0 then none
  else if n < 57 then some 0
  else if n < 129 then some (49 + (n - 57) / 9)
  else if n < 145 then some (49 + (n - 129) / 2)
  else if n < 177 then some (49 + (n - 145) / 4)
  else if n < 209 then some (n - 32)
  else if n < 256 then none
  else
    let base := n - (n - 256) % 1442
    if n = base then some 0 else if n = base + 1 ∨ (n - base - 2) % 12 = 0 then some base else some (n - (n - base - 2) % 12)

/-- The field hub that a node's record stands with. -/
def State.atlasHub (s : State) (n : Nat) : Nat := if n < 256 then s.rimHub else (n - 256) / 1442

/-- A port or Fjoval chip of a dark fabric interface is absent (R17, R31). -/
def State.rimGone (s : State) (n : Nat) : Bool :=
  (57 ≤ n && n < 129 && s.ifDark ((n - 57) / 9)) || (129 ≤ n && n < 145 && s.ifDark ((n - 129) / 2)) ||
    (145 ≤ n && n < 177 && s.ifDark ((n - 145) / 4)) || (177 ≤ n && n < 209 && s.ifDark ((n - 177) / 4))

/-- A node exists (R31). -/
def State.nodeThere (s : State) (n : Nat) : Bool := (s.atlasRec (s.atlasHub n) n).kind ≠ 0xFF && !s.rimGone n

/-- The record of a node in hub `f` as 32 bytes, lowest first; absent nodes are left out of the chains (R31). The wafer's identifier is the device
number (R32). -/
def State.atlasBytes (s : State) (f n : Nat) : Nat :=
  let r := s.atlasRec f n
  let r := { r with kind := if s.nodeThere n then r.kind else 0xFF, id := if n = 0 then s.loith.device else r.id }
  let there := s.nodeThere
  let link := fun (o : Option Nat) => o.getD 0xFFFFFF
  let child := (atlasChildren n).find? there
  let sib := match atlasParent n with
    | some p => ((atlasChildren p).filter (· > n)).find? there
    | none => none
  r.kind % 256 + (r.src % 8 * 16 + r.status % 8) * 2 ^ 8 + r.fails % 256 * 2 ^ 16 + link (atlasParent n) * 2 ^ 24 + link child * 2 ^ 48 + link sib * 2 ^ 72 +
    r.id % 2 ^ 32 * 2 ^ 96 + r.caps % 2 ^ 32 * 2 ^ 128 + r.gen % 2 ^ 32 * 2 ^ 160 + r.test % 2 ^ 64 * 2 ^ 192

/-! ### Hub registers: reading -/

/-- FLDPART of a field (R97). -/
def Hub.fldpart (h : Hub) : Nat :=
  h.sw.step * 2 ^ 30 + (h.group.length - 1) * 2 ^ 28 + h.run.getD 0 * 2 ^ 24 + ((h.group.mapIdx (fun i p => p % 16 * 2 ^ (8 + 4 * i))).sum) + h.runTag

/-- ROUTESTAT (R40). -/
def Hub.routestat (h : Hub) : Nat := h.rstate * 2 ^ 30 + h.rresult * 2 ^ 28 + h.rerrEnt * 2 ^ 24 + h.rerrTile * 2 ^ 8

/-- LQSTAT (R134). -/
def State.lqstat (s : State) (f : Nat) : Nat :=
  let h := s.hubOf f
  let res := fun d => (h.launches.filter (fun e => !e.2.shared && e.2.depth = d)).length
  (48 - (h.launches.filter (fun e => e.2.shared)).length) * 2 ^ 48 + res 3 * 2 ^ 44 + res 2 * 2 ^ 40 + res 1 * 2 ^ 36 + res 0 * 2 ^ 32 +
    (s.parkedWaiters f).length % 65536 * 2 ^ 16 + h.launches.length

/-- PACESTAT (R72): LENTP counts the pips that the pacer's leases lend. -/
def Hub.pacestat (h : Hub) : Nat :=
  let lent := (h.leases.map (fun e => if e.2.valid && e.2.dir = 0 && e.2.src = 2 then e.2.count else 0)).sum
  h.slack * 2 ^ 48 + h.plydur * 2 ^ 32 + lent % 65536 * 2 ^ 16 + h.pacen * 2 ^ 8 + h.plies

/-- BKCTL and LEASEi (R59, R60). -/
def Hub.bkctl (h : Hub) : Nat :=
  natOfBool h.lend * 2 ^ 31 + natOfBool h.borrow * 2 ^ 30 + natOfBool h.ballastEn * 2 ^ 29 + natOfBool h.pace * 2 ^ 28 + h.lease % 65536
def Lease.word (l : Lease) : Nat :=
  natOfBool l.valid * 2 ^ 127 + l.dir * 2 ^ 126 + l.st * 2 ^ 124 + l.src * 2 ^ 122 + l.peer * 2 ^ 112 + l.count % 65536 * 2 ^ 96 + l.dur % 2 ^ 32 * 2 ^ 64 + l.start % 2 ^ 64

/-- BKQUEUE of a field (R59). -/
def State.bkqueue (s : State) (f : Nat) : Nat :=
  let n := fun c => min 255 ((s.pipQueue f).filter (fun e => e.2.cls = c)).length
  n 3 * 2 ^ 24 + n 2 * 2 ^ 16 + n 1 * 2 ^ 8 + n 0

/-- The holdings of all tiles, those between two tiles among them (R58, R65). -/
def State.heldAll (s : State) : Nat :=
  (s.tiles.map (fun e => e.2.h)).sum + (s.migrations.map (fun g => (g.image.map (fun m => m.tile.h)).getD 0)).sum

/-- BANKSTAT and BANKCTL (R58). -/
def State.bankstat (s : State) : Nat :=
  20000 * 2 ^ 48 + (20000 - s.allocated) * 2 ^ 32 + (s.heldAll % 65536) * 2 ^ 16 + ((s.hubs.map (fun e => e.2.ball)).sum % 65536)
def Bank.bankctl (b : Bank) : Nat := natOfBool b.mirrok * 2 ^ 31 + natOfBool b.onmirror * 2 ^ 30 + natOfBool b.limit * 2 ^ 29
def Bank.pacectl (b : Bank) : Nat := natOfBool b.paceEn * 2 ^ 31 + b.nmin * 2 ^ 21 + b.nmax * 2 ^ 16 + b.minskew
def Bank.shufctl (b : Bank) (p : Nat) : Nat :=
  natOfBool (b.shufEn.get false p) * 2 ^ 31 + min 127 (b.shufSkips.get 0 p) * 2 ^ 24 + b.shufStride.get 1 p * 2 ^ 16 + b.shufPeriod.get 8000 p

/-- The partition table entry, 64 bytes as a number (R94). -/
def Partition.word (p : Partition) : Nat :=
  natOfBool p.valid * 2 ^ 63 + p.state * 2 ^ 61 + p.tag * 2 ^ 48 + p.quant * 2 ^ 41 + p.cntport * 2 ^ 39 + p.qlim * 2 ^ 23 +
    ((p.fields.map (fun f => 2 ^ f)).sum) * 2 ^ 128 + p.supLo.toNat * 2 ^ 256 + p.supHi.toNat * 2 ^ 320 + p.save * 2 ^ 384

/-- A barrier object's doubleword at an offset of it (R226). -/
def Barrier.dword (b : Barrier) (o : Nat) : Nat :=
  let slot := fun (i : Nat) => b.last.get 0 i * 2 ^ 64 + (b.bal.get 0 i % 2 ^ 40).toNat * 2 ^ 24 + b.arr.get 0 i * 2 ^ 13 + natOfBool (b.povf.get false i) * 2 ^ 12
  let parr := fun (i j : Nat) => match KMap.find? (b.parr.get [] i) j with
    | some (f, t) => f * 2 ^ 57 + 2 ^ 56 + t % 2 ^ 56
    | none => 0
  if o = 0 then
    natOfBool b.valid * 2 ^ 63 + natOfBool b.pace * 2 ^ 62 + b.scope * 2 ^ 58 + b.owner * 2 ^ 50 + b.mm1 * 2 ^ 40 + b.tmo * 2 ^ 24
  else if o = 8 then b.oldest * 2 ^ 32 + b.hist * 2 ^ 20
  else if o < 0x50 then slot ((o - 0x10) / 16) / 2 ^ (64 * ((o / 8) % 2)) % 2 ^ 64
  else if 0x100 ≤ o ∧ o < 0x200 then ((List.range 32).map (fun i => b.lead.get 0 (32 * ((o - 0x100) / 8) + i) * 2 ^ (2 * i))).sum
  else if 0x200 ≤ o ∧ o < 0x400 then parr ((o - 0x200) / 0x80) (o % 0x80 / 8)
  else 0

/-- A bit map of a field, by 64 bits from bit 64 i. -/
def bitWord (p : Nat → Bool) (i : Nat) : Nat := ((List.range 64).map (fun b => if p (64 * i + b) then 2 ^ b else 0)).sum

/-- The firing of a context slot or of the park area is frozen: the frozen map shows slots (R240). -/
def State.frozenBit (s : State) (f n : Nat) : Bool :=
  let c := s.ctxOf (16 * tileOfLocal f (n / 16) + n % 16)
  n < 1920 && c.occ && c.st = 1
def State.suspendedBit (s : State) (f n : Nat) : Bool := n < 1920 && (s.opAt (tileOfLocal f (n / 16)) (n % 16)).state = 2

/-- A doubleword of control space of field f at an aligned offset, as the platform reads it (R108, R109). -/
def State.hubDword (s : State) (f o : Nat) : Nat :=
  let h := s.hubOf f
  if o = 0x00 then h.fclkctl else if o = 0x08 then h.routestat else if o = 0x10 then h.atlcnt % 2 ^ 64 else if o = 0x18 then h.rookctl
  else if o = 0x20 then s.pwrctl f else if o = 0x28 then s.railsw f else if o = 0x30 then h.fldpart
  else if o = 0x38 then h.swCount % 2 ^ 32 * 2 ^ 32 + h.swLast % 2 ^ 32 else if o = 0x40 then h.pacestat else if o = 0x48 then s.lqstat f
  else if o = 0x50 then h.rgen % 2 ^ 32
  else if 0x100 ≤ o ∧ o < 0x178 then ((List.range 8).map (fun i => (s.tileOf (tileOfLocal f (o - 0x100 + i))).tilepwr * 2 ^ (8 * i))).sum
  else if o = 0x10000 then h.bkctl else if o = 0x10008 then h.share else if o = 0x10010 then s.bkstat f else if o = 0x10018 then s.bkqueue f
  else if o = 0x10020 then s.floorp f % 65536 * 2 ^ 16 + h.ball % 65536
  else if 0x10040 ≤ o ∧ o < 0x10060 then h.gshares.get 0 ((o - 0x10040) / 8)
  else if 0x10100 ≤ o ∧ o < 0x10200 then (h.leases.get {} ((o - 0x10100) / 16)).word / 2 ^ (64 * (o / 8 % 2)) % 2 ^ 64
  else if o = 0x20000 then s.bankstat else if o = 0x20008 then s.bank.bankctl
  else if o = 0x20010 then natOfBool s.bank.rampBad * 2 ^ 31 + s.bank.ramp else if o = 0x20018 then natOfBool s.bank.floorBad * 2 ^ 31 + s.bank.floor
  else if o = 0x20020 then s.bank.pacectl
  else if 0x20040 ≤ o ∧ o < 0x20060 then s.railv ((o - 0x20040) / 8)
  else if 0x20060 ≤ o ∧ o < 0x20080 then s.railmeas ((o - 0x20060) / 8)
  else if 0x20100 ≤ o ∧ o < 0x20180 then s.pshareWord ((o - 0x20100) / 8)
  else if 0x20180 ≤ o ∧ o < 0x20200 then s.bank.shufctl ((o - 0x20180) / 8)
  else if 0x20200 ≤ o ∧ o < 0x20600 then (s.partOf ((o - 0x20200) / 64)).word / 2 ^ (8 * (o % 64)) % 2 ^ 64
  else if 0x30000 ≤ o ∧ o < 0x33C00 then h.staged.get 0 ((o - 0x30000) / 8)
  else if 0x40000 ≤ o ∧ o < 0x43C00 then h.active.get 0 ((o - 0x40000) / 8)
  else if 0x50000 ≤ o ∧ o < 0x50080 then (let c := h.counters.get {} ((o - 0x50000) / 16)
    if o / 8 % 2 = 0 then c.cfg 2 else c.value % 2 ^ 48)
  else if 0x60000 ≤ o ∧ o < 0xE0000 then (h.ctt.get 0 (16384 * ((o - 0x60000) / 0x20000) + (o - 0x60000) % 0x20000 / 8)).toNat
  else if 0xE0000 ≤ o ∧ o < 0xE2000 then s.atlasBytes f ((o - 0xE0000) / 32) / 2 ^ (8 * (o % 32)) % 2 ^ 64
  else if 0x100000 ≤ o ∧ o < 0x100000 + 1442 * 32 then s.atlasBytes f (256 + 1442 * f + (o - 0x100000) / 32) / 2 ^ (8 * (o % 32)) % 2 ^ 64
  else if 0x200000 ≤ o ∧ o < 0x200400 then ((List.range 8).map (fun i => s.loith.devport.get 0xFF (o - 0x200000 + i) * 2 ^ (8 * i))).sum
  else if 0x201000 ≤ o ∧ o < 0x211000 then s.loith.endpoints.get 0 ((o - 0x201000) / 8)
  else if 0x280000 ≤ o ∧ o < 0x280080 then (s.stripes.get {} ((o - 0x280000) / 8)).word
  else if 0x300000 ≤ o ∧ o < 0x340000 then (h.barriers.get {} ((o - 0x300000) / 0x400)).dword (o % 0x400)
  else if 0x400000 ≤ o ∧ o < 0x400080 then h.troots.get 0 ((o - 0x400000) / 8)
  else if o = 0x400110 then h.tlbIssued * 2 ^ 32 + h.tlbDone
  else if 0x600000 ≤ o ∧ o < 0x6000F0 then bitWord (s.frozenBit f) ((o - 0x600000) / 8)
  else if 0x600100 ≤ o ∧ o < 0x6001F0 then bitWord (s.suspendedBit f) ((o - 0x600100) / 8)
  else 0

/-- What software of a tag and level reads: a partition sees zero in a fabric counter (R102). -/
def State.hubRead (s : State) (f o level : Nat) : Nat := if level < 2 ∧ 0x50000 ≤ o ∧ o < 0x50080 then 0 else s.hubDword f o

/-! ### Hub registers: writing -/

/-- Bits of a hub doubleword that act when written 1. -/
def hubActs (o : Nat) : Nat :=
  if o = 0 then 2 ^ 29 else if o = 0x28 then 2 ^ 31 + 2 ^ 30 else if o = 0x20010 ∨ o = 0x20018 then 2 ^ 31
  else if (0x20040 ≤ o ∧ o < 0x20060) ∨ (0x20100 ≤ o ∧ o < 0x20180) then 2 ^ 30
  else if 0x50000 ≤ o ∧ o < 0x50080 ∧ o % 16 = 0 then 2 ^ 62 else if 0x280000 ≤ o ∧ o < 0x280080 then 2 ^ 62
  else 0

/-- A partition joins the sharing group of each field of its mask, at the end (R93). -/
def State.joinGroups (s : State) (p : Nat) : State :=
  (s.partOf p).fields.foldl (fun s f => s.updHub f (fun h => if h.group.contains p then h else { h with group := h.group ++ [p] })) s

/-- A field without a partition runs platform work only (R92). Where other members stay, the field goes on under the tag that it ran until the next switch
(R93; DESIGN CHOICE; log 136). -/
def Hub.leave (h : Hub) (p : Nat) : Hub :=
  let g := h.group.filter (· ≠ p)
  if h.group.contains p && g.isEmpty then { h with group := g, run := none, runTag := 0 } else { h with group := g }

/-- A partition that is no longer valid leaves its groups: members of higher index move down (R93). -/
def State.leaveGroups (s : State) (p : Nat) : State := { s with hubs := s.hubs.map (fun e => (e.1, e.2.leave p)) }

/-- A write of doubleword i of a partition's table entry by the platform (R94). -/
def State.partWrite (s : State) (p i v : Nat) : State :=
  match i with
  | 0 =>
    let s1 := s.updPart p (fun q => { q with valid := bitAt v 63, tag := bitsAt v 55 48, quant := bitsAt v 47 41, cntport := bitsAt v 40 39, qlim := bitsAt v 38 23 })
    if bitAt v 63 then s1.joinGroups p else (s1.leaveGroups p).updPart p (fun q => { q with state := 0 })
  | 2 => s.updPart p (fun q => { q with fields := (List.range 64).filter (bitAt v) ++ q.fields.filter (· ≥ 64) })
  | 3 => s.updPart p (fun q => { q with fields := q.fields.filter (· < 64) ++ ((List.range 26).filter (bitAt v)).map (· + 64) })
  | 4 => s.updPart p (fun q => { q with supLo := BitVec.ofNat 64 v })
  | 5 => s.updPart p (fun q => { q with supHi := BitVec.ofNat 64 v })
  | 6 => s.updPart p (fun q => { q with save := v })
  | _ => s

/-- A barrier object after a platform write of a doubleword (R226). -/
def Barrier.write (b : Barrier) (o v : Nat) : Barrier :=
  let i := (o - 0x10) / 16
  if o = 0 then { b with valid := bitAt v 63, pace := bitAt v 62, scope := bitsAt v 60 58, owner := bitsAt v 57 50, mm1 := bitsAt v 49 40, tmo := bitsAt v 39 24 }
  else if o = 8 then { b with oldest := bitsAt v 63 32, hist := bitsAt v 31 20 }
  else if 0x10 ≤ o ∧ o < 0x50 then
    (if o % 16 = 0 then { b with bal := b.bal.put i (sextNat 40 (bitsAt v 63 24)), arr := b.arr.put i (bitsAt v 23 13), povf := b.povf.put i (bitAt v 12) }
     else { b with last := b.last.put i v })
  else if 0x100 ≤ o ∧ o < 0x200 then
    { b with lead := (List.range 32).foldl (fun m j => m.put (32 * ((o - 0x100) / 8) + j) (bitsAt v (2 * j + 1) (2 * j))) b.lead }
  else if 0x200 ≤ o ∧ o < 0x400 then
    let n := (o - 0x200) / 0x80
    let l : KMap (Nat × Nat) := b.parr.get [] n
    { b with parr := b.parr.put n (if bitAt v 56 then l.put (o % 0x80 / 8) (bitsAt v 63 57, bitsAt v 55 0) else l.drop (o % 0x80 / 8)) }
  else b

/-- Bits that an override entry holds (R37). -/
def overrideBits (v : Nat) : Nat := bitsAt v 63 56 * 2 ^ 56 + bitsAt v 27 0

/-- DEVPORT may be rewritten only in a drain of all four networks; the new table applies with the new generation (R76). -/
def State.devportOpen (s : State) : Bool := (s.flip.map (fun p => p.mask)) = some 15

/-- A write of a doubleword of control space, whole (R110). Registers without a rule of their own are read-only here. PACECTL takes NMIN and NMAX as they
are written, and a write of SHUFCTL starts the step period again (R72, R73; DESIGN CHOICE; log 102). -/
def State.hubWrite (s : State) (f o v tag : Nat) : State :=
  let low := v % 2 ^ 32
  if o = 0x00 then s.fclkctlWrite f low
  else if o = 0x18 then s.updHub f (fun h => { h with rookEn := bitAt v 31, rookPeriod := bitsAt v 15 0 })
  else if o = 0x20 then s.updHub f (fun h => { h with idle := bitsAt v 15 0 })
  else if o = 0x28 then s.railswWrite f low
  else if o = 0x10000 then
    s.updHub f (fun h => { h with lend := bitAt v 31, borrow := bitAt v 30, ballastEn := bitAt v 29, pace := bitAt v 28, lease := bitsAt v 15 0 })
  else if o = 0x10008 then s.bkshareWrite f v
  else if 0x10040 ≤ o ∧ o < 0x10060 then s.bkgshareWrite f ((o - 0x10040) / 8) v
  else if o = 0x20010 then s.rampwWrite low
  else if o = 0x20018 then s.floorwWrite low
  else if o = 0x20020 then { s with bank := { s.bank with paceEn := bitAt v 31, nmin := bitsAt v 25 21, nmax := bitsAt v 20 16, minskew := bitsAt v 15 0 } }
  else if 0x20040 ≤ o ∧ o < 0x20060 then s.railvWrite ((o - 0x20040) / 8) low
  else if 0x20100 ≤ o ∧ o < 0x20180 then s.pshareWrite ((o - 0x20100) / 8) low
  else if 0x20180 ≤ o ∧ o < 0x20200 then
    let p := (o - 0x20180) / 8
    { s with bank := { s.bank with shufEn := s.bank.shufEn.put p (bitAt v 31), shufStride := s.bank.shufStride.put p (bitsAt v 23 16),
                                   shufPeriod := s.bank.shufPeriod.put p (bitsAt v 15 0), shufLast := s.bank.shufLast.put p s.rtime } }
  else if 0x20200 ≤ o ∧ o < 0x20600 then s.partWrite ((o - 0x20200) / 64) (o % 64 / 8) v
  else if 0x30000 ≤ o ∧ o < 0x33C00 then
    s.updHub f (fun h => { h with staged := h.staged.put ((o - 0x30000) / 8) (overrideBits v), rstate := if h.rstate = 0 then 1 else h.rstate })
  else if 0x50000 ≤ o ∧ o < 0x50080 then
    s.updCounter 2 f ((o - 0x50000) / 16) (fun c => if o / 8 % 2 = 0 then c.setCfg 2 0 v else { c with value := v % 2 ^ 48 })
  else if 0x60000 ≤ o ∧ o < 0xE0000 then
    let k := 16384 * ((o - 0x60000) / 0x20000) + (o - 0x60000) % 0x20000 / 8
    s.updHub f (fun h => { h with ctt := h.ctt.put k (BitVec.ofNat 64 v), looked := h.looked.drop k })
  else if 0x201000 ≤ o ∧ o < 0x211000 then { s with loith := { s.loith with endpoints := s.loith.endpoints.put ((o - 0x201000) / 8) v } }
  else if 0x280000 ≤ o ∧ o < 0x280080 then s.capstripeWrite ((o - 0x280000) / 8) v
  else if 0x300000 ≤ o ∧ o < 0x340000 then s.updBar f ((o - 0x300000) / 0x400) (fun b => b.write (o % 0x400) v)
  else if 0x400000 ≤ o ∧ o < 0x400080 then s.updHub f (fun h => { h with troots := h.troots.put ((o - 0x400000) / 8) (bitsAt v 63 16 * 2 ^ 16 + v % 2) })
  else if o = 0x400100 then s.tlbLowWrite f v tag
  else if o = 0x400108 then s.tlbHighWrite f v tag
  else s

/-- The node of an atlas byte at a control-space offset, with the byte's place in its record. -/
def atlasPlace (f o : Nat) : Option (Nat × Nat) :=
  if 0xE0000 ≤ o ∧ o < 0xE2000 then some ((o - 0xE0000) / 32, o % 32)
  else if 0x100000 ≤ o ∧ o < 0x100000 + 1442 * 32 then some (256 + 1442 * f + (o - 0x100000) / 32, o % 32) else none

/-- The platform writes a node's status byte (R34, R35). -/
def State.atlasStatus (s : State) (n v : Nat) : State :=
  match execAtlasStatusWrite { s with arg := { unit := s.atlasHub n, other := n, value := v % 8 } } with
  | .next t => { t with arg := s.arg }
  | _ => s

/-- A store of `n` bytes to control space by software of a tag (R102, R109, R110). A store of 1 or 4 bytes to a TLBINV register acts as one of 8 with zeros in
its other bytes (R122; DESIGN CHOICE; log 137). -/
def State.hubStore (s : State) (f o n v tag level : Nat) : State :=
  if 0x100 ≤ o ∧ o < 0x180 then
    (List.range n).foldl (fun s i => if o - 0x100 + i < 120 then s.tilepwrWrite (tileOfLocal f (o - 0x100 + i)) (v / 2 ^ (8 * i) % 256) else s) s
  else if level < 2 ∧ 0x50000 ≤ o ∧ o < 0x50080 then s
  else if 0x200000 ≤ o ∧ o < 0x200400 then
    (if s.devportOpen then
      let put_ : KMap Nat → KMap Nat := fun m => (List.range n).foldl (fun m i => m.put (o - 0x200000 + i) (v / 2 ^ (8 * i) % 256)) m
      { s with flip := s.flip.map (fun (p : Flip) => { p with devport := some (put_ (p.devport.getD s.loith.devport)) }) }
     else s)
  else match atlasPlace f o with
    | some (node, b) => if b ≤ 1 ∧ 1 < b + n then s.atlasStatus node (v / 2 ^ (8 * (1 - b)) % 256) else s
    | none =>
      let o8 := o / 8 * 8
      s.hubWrite f o8 (mergeReg (if o8 = 0x400100 ∨ o8 = 0x400108 then 0 else s.hubDword f o8) (hubActs o8) v (o - o8) n) tag

end Sys2Proof.Machine
end

