-- ==== Sys2Proof/Machine/Debug.lean ====
section
/-! DEFINITION. The debug page of a context and its commands (R99, R241 to R243, R247), the end of a killed firing, and pre-emption that waits for a
bundle boundary (R97, R248, R323). An event names the page's context in `arg.unit`, the writer's owner tag in `arg.tag`. -/

namespace Sys2Proof.Machine

/-! ### The firing of a page -/

/-- Where the firing of a page is: its slot, or an entry of the park area of its core. -/
inductive Place where
  | slot
  | parked (key : Nat)
  deriving DecidableEq, Repr

/-- The firing that a page of context i acts on: the one that occupies the slot, else the parked one that last held it. -/
def State.pageFiring (s : State) (i : Nat) : Option (Place × Ctx) :=
  let c := s.ctxOf i
  if c.occ then some (.slot, c)
  else (List.find? (fun e => e.2.slot = i) (s.coreOf (coreOfCtx i)).parked).map (fun e => (Place.parked e.1, e.2))

/-- Change the firing of a page. -/
def State.updPlace (s : State) (i : Nat) (p : Place) (g : Ctx → Ctx) : State :=
  match p with
  | .slot => s.updCtx i g
  | .parked key => s.updCore (coreOfCtx i) (fun k => { k with parked := k.parked.put key (g (k.parked.get {} key)) })

/-! ### KILL (R243) -/

/-- The suspended operations of a firing end with `ENG_KILLED` (R243, R244). -/
def State.killOps (s : State) (t n : Nat) : State :=
  s.updTile t (fun x => { x with ops := x.ops.map (fun e => (e.1, if e.2.state = 2 && e.2.firing = n then { e.2 with state := 3, stop := Cause.engKilled } else e.2)) })

/-- A killed firing ends: its FSTAT goes to DBGFST, its item fails (R243). -/
def State.finishKill (s : State) (i : Nat) (p : Place) (c : Ctx) : State :=
  let s1 := s.updDbg i (fun d => { d with fst := BitVec.ofNat 64 c.fstat })
  match p with
  | .slot => s1.endFiring i (some (c.killed - 1))
  | .parked key => s1.endParked (coreOfCtx i) key (some (c.killed - 1))

/-- A killed firing can end: its UNACK is zero, and its output streams have stored every entry, as `str.free` would wait for (R190, R243). -/
def State.killReady (s : State) (i : Nat) (c : Ctx) : Bool := c.unack = 0 && !(s.coreOf (coreOfCtx i)).outputsOf c.firing

/-- A firing is killed with a cause: at once where it can end, else once it can (R190, R243). -/
def State.killWith (s : State) (i : Nat) (p : Place) (c : Ctx) (cause : Nat) : State :=
  let c1 := { c with killed := cause + 1, st := 1 }
  let s1 := (s.killOps (tileOfCtx i) c.firing).updPlace i p (fun _ => c1)
  if s1.killReady i c1 then s1.finishKill i p c1 else s1

/-- KILL of the firing of a page (R243): the cause is the freeze cause, or `FIRING_KILLED`. -/
def State.killFiring (s : State) (i : Nat) (p : Place) (c : Ctx) : State := s.killWith i p c (if c.st = 1 then c.cause else Cause.firingKilled)

/-- Killed firings that can end now end. -/
def State.finishKills (s : State) (n : Nat) : State :=
  match List.find? (fun e => e.2.occ && e.2.firing = n && e.2.killed ≠ 0 && s.killReady e.1 e.2) s.ctxs with
  | some (i, c) => s.finishKill i .slot c
  | none => match s.cores.findSome? (fun e => (List.find? (fun q => q.2.firing = n && q.2.killed ≠ 0 && s.killReady (8 * e.1) q.2) e.2.parked).map (fun q => (e.1, q.1, q.2))) with
    | some (_, key, c) => s.finishKill c.slot (.parked key) c
    | none => s

/-! ### Pre-emption and STOP at a bundle boundary (R97, R242, R323) -/

/-- STOP freezes a firing with `DEBUG_STOP`. -/
def State.stopCtx (s : State) (i : Nat) : State := (s.freeze i { cause := .debugStop }).updCtx i (fun c => { c with preempt := 0 })

/-- At a bundle boundary, a STOP or a pre-emption that waited takes effect; a pre-emption also waits for the end of a section. -/
def State.settlePreempt (s : State) (i : Nat) : State :=
  let c := s.ctxOf i
  if !c.occ || c.st ≠ 0 || c.preempt = 0 || c.hold.isSome then s
  else if c.preempt = 3 then s.stopCtx i
  else s.preemptCtx i c.preempt

/-! ### Commands (R242) -/

def dbgBusy : Nat := 0x49
def dbgBad : Nat := 0x4A

/-- The result and the counts of a command. -/
def State.dbgResult (s : State) (i code result : Nat) : State :=
  s.updDbg i (fun d => { d with result := result, lastcmd := code % 16, ncmd := if result = 0 then (d.ncmd + 1) % 2 ^ 32 else d.ncmd })

/-- The result that a command draws in the state of its firing: 0 when it is accepted. -/
def State.dbgVerdict (s : State) (i v : Nat) : Nat :=
  if v % 16 = 0 ∨ v % 16 ≥ 7 ∨ v / 16 % 2 ^ 60 ≠ 0 then dbgBad
  else match s.pageFiring i with
    | none => dbgBusy
    | some (_, c) =>
      if c.killed ≠ 0 then dbgBusy
      else match v % 16 with
        | 1 => if c.st = 1 then dbgBusy else 0
        | 6 => if c.st = 0 then dbgBusy else 0
        | _ => if c.st ≠ 1 then dbgBusy else if c.ueLines ≠ [] then dbgBad else 0

/-- A frozen firing continues: in its slot at once, in the park area as a parked firing does. -/
def Ctx.goOn (c : Ctx) (p : Place) (pc : Word) (step : Bool) : Ctx :=
  { c with st := (match p with
      | .slot => 0
      | .parked _ => 3), pc := pc, stepping := step, stall := none, reported := false, hold := none, reply := none, preempt := 0 }

/-- A firing that goes on fetches its input streams again from the step that faulted (R192). -/
def State.refetch (s : State) (core n : Nat) : State :=
  s.updCore core (fun k => { k with streams := k.streams.map (fun e => (e.1, if e.2.bound && e.2.firing = n then { e.2 with fault := none } else e.2)) })

/-- The effect of an accepted command. -/
def State.dbgApply (s0 : State) (i code : Nat) : State :=
  match s0.pageFiring i with
  | none => s0
  | some (p, c) =>
    let s := if 2 ≤ code ∧ code ≤ 5 then s0.refetch (coreOfCtx i) c.firing else s0
    match code with
    | 1 => match p with
      | .slot =>
        if c.st = 0 && s.mustHold c then s.updCtx i (fun c => { c with preempt := 3 }) else (s.dropLoad c).stopCtx i
      | .parked key => (s.updPlace i (.parked key) (fun c => { c.frozen Cause.debugStop with haltAt := s.rtime })).postFreeze i c .debugStop false false 0 0
    | 2 => s.updPlace i p (fun c => { c.goOn p c.pc false with aDone := c.aDone && c.pc = c.frozenPc })
    | 3 => s.updPlace i p (fun c => { c.goOn p c.frozenPc false with aDone := false })
    | 4 => s.updPlace i p (fun c => { c.goOn p (c.pc + 8) false with aDone := false })
    | 5 => s.updPlace i p (fun c => { c.goOn p c.pc true with aDone := c.aDone && c.pc = c.frozenPc })
    | 6 => s.killFiring i p c
    | _ => s

/-- The field image holds a firing of page i (R95). -/
def FieldImage.hasFiring (g : FieldImage) (i : Nat) : Bool :=
  (g.ctxs.get {} i).occ || (g.cores.get {} (coreOfCtx i)).parked.any (fun e => e.2.slot = i)

/-- The tag that a command to page i is for: the writer's; a platform writer's (tag 0) is for the firing at the page, else for the switched-out
member that has a firing there (R99; log 62). -/
def State.dbgTag (s : State) (i tag : Nat) : Nat :=
  if tag ≠ 0 || (s.pageFiring i).isSome then tag
  else match List.find? (fun e => e.2.hasFiring i) (s.hubOf (fieldOfCtx i)).saved with
    | some e => (s.partOf e.1).tag
    | none => tag

/-- A member of field f whose state is not in the field, or not yet (R98, R99). -/
def State.switchedOut (s : State) (f tag : Nat) : Bool :=
  tag ≠ 0 && s.inGroup f tag && ((s.hubOf f).runTag ≠ tag || (s.hubOf f).sw.step = 3)

/-- A command of a writer's tag to page i waits for a switch-in (R99). -/
def State.dbgPends (s : State) (i writer : Nat) : Bool := s.switchedOut (fieldOfCtx i) (s.dbgTag i writer)

/-- A write of DBGCMD by software of a tag (R99, R242): for a member that is switched out it waits, with its tag above bit 63. -/
def State.dbgCommand (s : State) (i v writer : Nat) : State :=
  let tag := s.dbgTag i writer
  if s.dbgPends i writer then s.updDbg i (fun d => { d with pend := some (v + 2 ^ 64 * tag), lastcmd := v % 16 })
  else
    let r := s.dbgVerdict i v
    let s1 := s.dbgResult i v r
    if r = 0 then s1.dbgApply i (v % 16) else s1

/-- A command event: command `code` to the page of context `unit`, when it is accepted. -/
def State.dbgEvent (s : State) (code : Nat) : Out :=
  if s.dbgPends s.arg.unit s.arg.tag || s.dbgVerdict s.arg.unit code = 0 then .next (s.dbgCommand s.arg.unit code s.arg.tag) else .next s

/-- `DBG_STOP` (R242). -/
def execDbgStop (s : State) : Out := s.dbgEvent 1
/-- `DBG_RESUME` (R242). -/
def execDbgResume (s : State) : Out := s.dbgEvent 2
/-- `DBG_RESTART` (R242). -/
def execDbgRestart (s : State) : Out := s.dbgEvent 3
/-- `DBG_SKIP` (R242). -/
def execDbgSkip (s : State) : Out := s.dbgEvent 4
/-- `DBG_STEP` (R242). -/
def execDbgStep (s : State) : Out := s.dbgEvent 5
/-- `DBG_KILL` (R243). -/
def execDbgKill (s : State) : Out := s.dbgEvent 6

/-- `DBG_CMD_BAD`: the command `value`, which the state of the firing or the code does not allow (R242). -/
def execDbgCmdBad (s : State) : Out :=
  if s.dbgPends s.arg.unit s.arg.tag || s.dbgVerdict s.arg.unit s.arg.value = 0 then .next s else .next (s.dbgCommand s.arg.unit s.arg.value s.arg.tag)

/-! ### Attachment (R241) -/

/-- The cause that refuses an attachment (R241). A capability of another tag lacks the right to this page (log 40). -/
def State.attachCause (s : State) (i : Nat) (lo hi : Word) (tag : Nat) : Option Cause :=
  let c := s.ctxOf i
  if !s.capGenuine lo hi then some .capForged
  else if !capHas lo rightInspect || (tag ≠ 0 && capOwner lo ≠ tag) then some .capRights
  else if s.capCoreId lo ≠ some (coreOfCtx i) || (!capWhole lo && !(c.occ && !c.pool && !c.task && c.act = capAct lo)) then some .capTarget
  else none

/-- The store of DBGCAP's high half by a context (R241): the state, and the fault if it is refused. Zero ends an attachment. -/
def State.attach (s : State) (i writer : Nat) (hi : Word) (tag : Nat) : State × Option Cause :=
  let lo := (s.dbgOf i).capLow
  if lo = 0 ∧ hi = 0 then (s.updDbg i (fun d => { d with att := none, halt := false }), none)
  else match s.attachCause i lo hi tag with
    | some c => (s, some c)
    | none => (s.updDbg i (fun d => { d with att := some (writer, (s.ctxOf writer).firing), halt := capHas lo rightHalt }), none)

/-- `DBG_ATTACH`: context `other` stores the high half `value` to the page of context `unit` (R241). -/
def execDbgAttach (s : State) : Out := .next (s.attach s.arg.unit s.arg.other (BitVec.ofNat 64 s.arg.value) s.arg.tag).1

/-- DBGSTAT (R241). -/
def State.dbgstat (s : State) (i : Nat) : Nat :=
  let d := s.dbgOf i
  let st := match s.pageFiring i with
    | some (_, c) => c.st
    | none => (s.ctxOf i).st
  d.result % 256 * 2 ^ 56 + d.lastcmd % 16 * 2 ^ 52 + natOfBool d.pend.isSome * 2 ^ 51 + natOfBool d.att.isSome * 2 ^ 50 + st % 4 * 2 ^ 48 + d.ncmd % 2 ^ 32

/-- FBUNDLE: the bundle at the frozen PC; zero where it cannot be fetched (R241; log 41). -/
def State.fbundle (s : State) (i : Nat) : Nat :=
  match s.pageFiring i with
  | none => 0
  | some (_, c) => match s.translate (coreOfCtx i) c.tag c.frozenPc.toNat .fetch with
    | .ok g _ => s.viewLE g 8
    | _ => 0

end Sys2Proof.Machine
end

