-- ==== Sys2Proof/Machine/Ring.lean ====
section
/-! DEFINITION. What ends by itself in a tile and a launch: engine occupancy and ring transfers (R10, R11, R370, R381), wait reports (R250), a hung core
(R253), the completion of a launch (R86, R147). An event names its tile, transfer, context, core or launch in `arg.unit`. -/

namespace Sys2Proof.Machine

/-! ### Engine occupancy (R370) -/

/-- The occupancy of the instruction in flight on a tile has ended. -/
def State.occupancyOver (s : State) (t : Nat) : Bool :=
  let e := (s.tileOf t).eng
  let c := s.cycOf (fieldOfTile t)
  e.inFlight && decide (e.busyUntil ≤ c) && decide (e.latchUntil ≤ c)

/-- `ENGINE_OCCUPANCY_END` of tile `unit` (R370): ACCST.BUSY clears and the window shows the new state. -/
def execEngineOccupancyEnd (s : State) : Out :=
  if s.occupancyOver s.arg.unit then .next (s.updTile s.arg.unit (fun t => { t with eng := { t.eng with inFlight := false }, engShown := none }))
  else .next s

/-! ### Ring transfers (R381) -/

/-- Change a latch of a tile, in the engine and in what its window shows. -/
def State.updLatch (s : State) (t j : Nat) (g : Latch → Latch) : State :=
  let upd : Engine → Engine := fun e => { e with latches := e.latches.put j (g (e.latchAt j)) }
  s.updTile t (fun x => { x with eng := upd x.eng, engShown := x.engShown.map upd })

/-- Data and scale bytes of a latch's contents (R373, R381); geometry 0 has no scales. -/
def Latch.bytes (l : Latch) : Nat := 32 * l.k * fmtBits l.fmt / 8 + (if l.geo = 0 then 0 else 32 * (l.k / 32))

/-- One mesh cycle (R18). -/
def meshUnits : Nat := Config.cycleUnits 40

/-- What the next event of a ring transfer waits for (R381): its turn on the link and a free latch, its last beat, its arrival. -/
def State.ringDue (s : State) (i : Nat) : Bool := match s.rings[i]? with
  | none => false
  | some x =>
    let l := (s.tileOf x.dst).eng.latchAt x.latch
    match x.phase with
    | 0 => !(s.rings.take i).any (fun y => y.src = x.src && decide (y.phase ≤ 1)) && !l.valid && !l.send && !l.pend
    | 1 => decide (x.leaves ≤ s.now)
    | _ => decide (x.arrives ≤ s.now)

/-- `RING_TRANSFER` of transfer `unit` (R10, R11, R381): it takes the link, its last beat leaves, its last beat arrives. -/
def execRingTransfer (s : State) : Out :=
  let i := s.arg.unit
  match s.rings[i]? with
  | none => .next s
  | some x =>
    if !s.ringDue i then .next s
    else match x.phase with
      | 0 =>
        let leaves := s.now + (x.contents.bytes + 127) / 128 * meshUnits
        let y : RingXfer := { x with phase := 1, leaves := leaves, arrives := leaves + (2 + (s.ringNext x.src).2) * meshUnits }
        .next (({ s with rings := setAt s.rings i (some y) } : State).updLatch x.dst x.latch (fun l => { l with pend := true }))
      | 1 =>
        let y : RingXfer := { x with phase := 2 }
        .next (({ s with rings := setAt s.rings i (some y) } : State).updLatch x.src x.srcLatch (fun l => { l with send := false, valid := false }))
      | _ =>
        let c := x.contents
        .next (({ s with rings := setAt s.rings i none } : State).updLatch x.dst x.latch (fun l =>
          { l with valid := true, ring := true, pend := false, rseq := (l.rseq + 1) % 65536, fmt := c.fmt, geo := c.geo, k := c.k, data := c.data,
                   scales := c.scales, ready := 0 }))

/-! ### Wait reports and hung cores (R250, R253) -/

/-- A context has been stalled on one bundle for LIMIT microseconds, in a wait that R250 names. -/
def State.wdogDue (s : State) (i : Nat) : Bool :=
  let c := s.ctxOf i
  let k := s.coreOf (coreOfCtx i)
  c.occ && c.st = 0 && !c.reported && k.wdogEn && (match c.stall with
    | some (t, w) => w ≠ 0 && decide (t + 1000 * max 1 k.wdogLimit ≤ s.rtime)
    | none => false)

/-- `WDOG_REPORT` of context `unit` (R250): one report of kind 1 for each stall; the context keeps running. -/
def execWdogReport (s : State) : Out :=
  let i := s.arg.unit
  if !s.wdogDue i then .next s
  else
    let c := s.ctxOf i
    let cause := (c.stall.map (fun p => p.2)).getD 0
    .next ((s.postPacket i 1 cause false 0 c.pc 0 0 0).updCtx i (fun c => { c with reported := true }))

/-- A core has a context that could issue: one that runs and does not stall. -/
def State.hasReady (s : State) (k : Nat) : Bool := s.ctxs.any (fun e => coreOfCtx e.1 = k && e.2.occ && e.2.st = 0 && e.2.stall.isNone && e.2.hold.isNone)

/-- A core has retired nothing for 1 ms with a context ready. -/
def State.hangDue (s : State) (k : Nat) : Bool :=
  !(s.coreOf k).hung && s.hasReady k && decide ((s.coreOf k).retired + 1000000 ≤ s.rtime)

/-- `CORE_HANG` of core `unit` (R253): a packet to the platform, which has no data items (R237), and the atlas (R247). -/
def execCoreHang (s : State) : Out :=
  let k := s.arg.unit
  if !s.hangDue k then .next s
  else
    let f := fieldOfTile (tileOfCore k)
    .next (((s.updCore k (fun c => { c with hung := true })).retestCore k).report f .coreHang (s.hubOf f).runTag [])

/-! ### The completion of a launch (R147) -/

/-- The outcome of a launch: 0 OK, 1 FAILED, 2 PARTIAL. -/
def Launch.outcome (e : Launch) : Nat := if e.failures = 0 then 0 else if e.oks = 0 then 1 else 2

/-- Word 2 of the completion. -/
def Launch.word2 (e : Launch) : Nat := e.outcome * 2 ^ 62 + e.launchCause % 256 * 2 ^ 48 + min e.failures (2 ^ 48 - 1)

/-- Chunks of at most n entries; one empty chunk for an empty list. -/
def chunksGo {α : Type} (n : Nat) : Nat → List α → List (List α)
  | 0, l => [l]
  | k + 1, l => if l.length ≤ n then [l] else l.take n :: chunksGo n k (l.drop n)
def chunks {α : Type} (n : Nat) (l : List α) : List (List α) := chunksGo n l.length l

/-- An event of several fragments to session 0 and the sessions of a tag; the event count advances once (R80, R86). -/
def State.eventFragments (s : State) (tag : Nat) (bodies : List (List Nat)) : State :=
  let to_ := s.loith.sessions.filter (fun e => e.2.valid && (e.1 = 0 || e.2.tag = tag))
  let frames : List Frame := to_.flatMap (fun e => bodies.mapIdx (fun i b =>
    ({ session := e.1, seq := s.loith.events + 1, opcode := 0xC000, device := s.loith.device, body := b, rtime := s.rtime, frag := i, frags := bodies.length } : Frame)))
  { s with loith := { s.loith with events := s.loith.events + 1, out := s.loith.out ++ frames } }

/-- The completion event of a host launch (R86, R147). -/
def State.launchEvent (s : State) (e : Launch) : State :=
  let head := ([1, e.id, e.word2, s.rtime].map (leBytes 8)).flatten
  s.eventFragments e.tag ((chunks 250 e.records).map (fun r => head ++ (r.map (fun x => leBytes 8 x.1 ++ leBytes 8 x.2)).flatten))

/-- The last item and task of a launch have ended, and its entry is not in a saved image. -/
def State.launchOver (s : State) (id : Nat) : Bool := match launchIn (s.hubOf (launchField id)).launches id with
  | none => false
  | some e => e.open_ = 0 && !e.completing

/-- `LAUNCH_COMPLETE` of the launch `unit` (R133, R139, R147). A device launch keeps its entry until its completion is delivered. -/
def execLaunchComplete (s : State) : Out :=
  let id := s.arg.unit
  if !s.launchOver id then .next s
  else match s.launchOf id with
    | none => .next s
    | some e =>
      if e.host then .next ((s.launchEvent e).freeLaunch id)
      else if Header.cen e.header then
        .next ((s.updLaunch id (fun e => { e with completing := true })).tellParent e 0xFF85
          [BitVec.ofNat 64 id, BitVec.ofNat 64 e.word2, s.rtimeWord])
      else .next (s.freeLaunch id)

end Sys2Proof.Machine
end

