-- ==== Sys2Proof/Machine/Frame.lean ====
section
/-! DEFINITION. Loith frames and sessions: R80 to R82, R86. A frame is a list of bytes: a header of 32, then the body. -/

namespace Sys2Proof.Machine

/-- `n` bytes from an offset, as a little-endian number. -/
def leAt (b : List Nat) (o n : Nat) : Nat := ((b.drop o).take n).foldr (fun x a => x % 256 + 256 * a) 0

/-- The bytes from an offset on are zero, `n` of them. -/
def zeroAt (b : List Nat) (o n : Nat) : Bool := ((b.drop o).take n).all (fun x => x % 256 = 0)

/-! ### The header (R80) -/

def frameOp (b : List Nat) : Nat := leAt b 0 2
def frameFlags (b : List Nat) : Nat := leAt b 2 2
def frameLen (b : List Nat) : Nat := leAt b 4 4
def frameSeq (b : List Nat) : Nat := leAt b 8 8
def frameTarget (b : List Nat) : Nat := leAt b 0x10 2
def frameSession (b : List Nat) : Nat := leAt b 0x12 2
def frameBody (b : List Nat) : List Nat := b.drop 32

/-- A header that is not valid: a body length that is above 4,032 or not that of the body, a reserved bit or byte, another target. -/
def headerBad (b : List Nat) : Bool :=
  b.length < 32 || frameLen b > 4032 || frameLen b ≠ (frameBody b).length || frameFlags b > 1 || !zeroAt b 0x14 4 ||
    (frameTarget b > 1023 && frameTarget b ≠ 0xFFFF)

/-- An Ultra Ethernet port is trained, and its interface not dark (R17, R79). -/
def State.ueUp (s : State) : Bool := (List.range 16).any (fun p => s.rimStatus (129 + p) ≤ 1 && !s.ifDark (p / 2))

/-- This device is the bridge of its group (R79). -/
def State.isBridge (s : State) : Bool := s.loith.bridge = some s.loith.device && s.ueUp

/-- A frame is for this device: by its number, as the bridge itself, or because no device is its target. -/
def State.frameMine (s : State) (b : List Nat) : Bool :=
  frameTarget b = s.loith.device || (frameTarget b = 0xFFFF && s.isBridge) || headerBad b

/-- The header of a reply or event of another device is not valid: its body length, its fragment count or index, or the device that it names (R80). -/
def answerBad (b : List Nat) : Bool :=
  b.length < 32 || frameLen b > 4032 || frameLen b ≠ (frameBody b).length || leAt b 0x16 2 = 0 || leAt b 0x14 2 ≥ leAt b 0x16 2 || frameTarget b > 1023

/-- This device passes a frame on: as the bridge of its group, a command to its target device, and a reply or event to the hosts (R79). -/
def State.passesOn (s : State) (b : List Nat) : Bool := s.isBridge && (if frameOp b ≥ 0x8000 then !answerBad b else !headerBad b && !s.frameMine b)

/-- The frame goes on over UALink as SYS traffic, or to the hosts; toward a device that cannot be reached it is lost (R76, R79). -/
def State.passOn (s : State) (b : List Nat) : State :=
  let go := fun (d : Nat) => ({ s with loith := { s.loith with passed := s.loith.passed ++ [(d, b)] } } : State)
  if frameOp b ≥ 0x8000 then go 0xFFFF
  else match s.devicePort (frameTarget b) with
    | .ok _ => go (frameTarget b)
    | .error _ => s

/-! ### Replies (R81, R82) -/

def stOk : Nat := 0
def stPartial : Nat := 1
def stFailed : Nat := 2
def stBusy : Nat := 3
def stBadCommand : Nat := 4
def stDenied : Nat := 5
def stNotReady : Nat := 6
def stDuplicate : Nat := 7

def State.sessionOf (s : State) (n : Nat) : Session := s.loith.sessions.get {} n
def State.updSession (s : State) (n : Nat) (g : Session → Session) : State :=
  { s with loith := { s.loith with sessions := s.loith.sessions.put n (g (s.sessionOf n)) } }

/-- The frames of a reply, one for each fragment of its body. -/
def State.replyFrames (s : State) (session seq op status : Nat) (bodies : List (List Nat)) : List Frame :=
  bodies.mapIdx (fun i b => { session := session, seq := seq, opcode := (op + 0x8000) % 0x10000, status := status, device := s.loith.device, body := b,
                              rtime := s.rtime, frag := i, frags := bodies.length })

/-- A reply or event frame as it leaves: its header of 32 bytes, then its body (R80). -/
def Frame.bytes (f : Frame) : List Nat :=
  leBytes 2 f.opcode ++ leBytes 2 f.status ++ leBytes 4 f.body.length ++ leBytes 8 f.seq ++ leBytes 2 f.device ++ leBytes 2 f.session ++ leBytes 2 f.frag ++
    leBytes 2 f.frags ++ leBytes 8 f.rtime ++ f.body

/-- Send frames to a host. -/
def State.sendFrames (s : State) (fs : List Frame) : State := { s with loith := { s.loith with out := s.loith.out ++ fs } }

/-- A reply that no session keeps. -/
def State.answerOnly (s : State) (session seq op status : Nat) (body : List Nat) : State := s.sendFrames (s.replyFrames session seq op status [body])

/-- The reply of an executed command: the session keeps its last 64 (R82). -/
def State.replyAll (s : State) (session seq op status : Nat) (bodies : List (List Nat)) : State :=
  let fs := s.replyFrames session seq op status bodies
  (s.sendFrames fs).updSession session (fun q =>
    { q with replies := (q.replies ++ [(seq, fs)]).drop (q.replies.length - 63), outstanding := q.outstanding.erase seq })
def State.reply (s : State) (session seq op status : Nat) (body : List Nat) : State := s.replyAll session seq op status [body]

/-- FAILED with a cause word before the rest of the body (R81, R84). -/
def State.replyFailed (s : State) (session seq op cause : Nat) (rest : List Nat) : State := s.reply session seq op stFailed (leBytes 8 cause ++ rest)

/-- Bits of a field mask of 16 bytes. -/
def fieldSet (m : Nat) : List Nat := (List.range 90).filter (bitAt m)
def fieldsMask (fs : List Nat) : Nat := (fs.map (fun f => 2 ^ f)).sum

/-- The number of command code of each command (R83). -/
def opLaunch : Nat := 1
def opCopy : Nat := 2
def opQuery : Nat := 3
def opResync : Nat := 4
def opAtlasRead : Nat := 5
def opRouteStage : Nat := 6
def opRouteFlip : Nat := 7
def opPartCreate : Nat := 8
def opPartSwitch : Nat := 9
def opPipPolicy : Nat := 10
def opFieldReset : Nat := 11
def opAttest : Nat := 12

end Sys2Proof.Machine
end

