-- ==== Sys2Proof/Machine/StartUp.lean ====
section
/-! DEFINITION. Start-up: R22, R26 to R30, R34, R74, R85, R91, R112, R422. An event of a field names it in `arg.unit`. -/

namespace Sys2Proof.Machine

/-! ### The configuration image (R26, R27) -/

/-- Section i of an image: kind, offset, length, and whether its reserved bytes are zero. -/
def imageSection (b : List Nat) (i : Nat) : Nat × Nat × Nat × Bool :=
  let o := 0x20 + 16 * i
  (leAt b o 1, leAt b (o + 4) 4, leAt b (o + 8) 4, zeroAt b (o + 1) 3 && zeroAt b (o + 12) 4)

def imageVersion (b : List Nat) : Nat := leAt b 8 8
def imageLen (b : List Nat) : Nat := leAt b 0x10 8

/-- An image obeys R26; its payload ends with its last section. -/
def imageLayoutOk (b : List Nat) : Bool :=
  let n := leAt b 6 2
  let l := imageLen b
  let secs := (List.range n).map (imageSection b)
  leAt b 0 4 = 0x49434B56 && leAt b 4 2 = 1 && 1 ≤ n && n ≤ 64 && zeroAt b 0x18 8 && l + 64 + 3309 ≤ b.length && b.length ≤ 2 ^ 26 && 0x20 + 16 * n ≤ l &&
    secs.all (fun q => 1 ≤ q.1 && q.1 ≤ 7 && q.2.2.2 && q.2.1 + q.2.2.1 ≤ l) && secs.any (fun q => q.2.1 + q.2.2.1 = l)

/-- A hub accepts an image: both signatures verify, and it obeys R26. -/
def imageOk (b : List Nat) : Bool := imageLayoutOk b && Config.imageSigned b

/-- The valid image of the higher version, as a hub finds it; `bad` has bit i when none of the three reads of slot i was good. -/
def State.bestImage (s : State) (bad : Nat) : Option (List Nat) :=
  let ok := ((List.range 2).filter (fun i => !bitAt bad i)).filterMap (fun i => (s.images.find? i).filter imageOk)
  match ok with
  | [] => none
  | a :: as => some (as.foldl (fun x y => if imageVersion x < imageVersion y then y else x) a)

/-- The image with a version. -/
def State.imageOf (s : State) (v : Nat) : List Nat :=
  (((List.range 2).filterMap (fun i => (s.images.find? i).filter (fun b => imageOk b && imageVersion b = v))).head?).getD []

/-! ### Steps 1 to 3 (R29) -/

/-- `POWER_ON_RESET` (R22, R29): every part of the machine takes its reset value; the flash keeps its images. -/
def execPowerOnReset (s : State) : Out :=
  .next { State.reset with agenda := s.agenda, focus := s.focus, cur := s.cur, arg := s.arg, fresh := s.fresh, images := s.images }

/-- A field is in a step of start-up and not dark. -/
def State.inStep (s : State) (f n : Nat) : Bool := decide (f < 90) && (s.hubOf f).startup = n && !(s.hubOf f).dark

/-- Hub 89 derives the alternative identity once hub 0 is dark or has failed to derive its own, unless its own derivation fails (R28). -/
def State.deriveKeys (s : State) : State :=
  let out := (s.hubOf 0).dark || s.loith.hub0Dark || s.loith.idBad.contains 0
  if out && 3 < (s.hubOf 89).startup && !(s.hubOf 89).dark && !s.loith.idBad.contains 89 && !s.loith.identity.contains 89 then
    { s with loith := { s.loith with identity := s.loith.identity ++ [89] } }
  else s

/-- Take a field dark in start-up, at the step where it stops; its record says so; with no hub left that has found a valid image, the device keeps to the commands of R27 (R27, R29). -/
def State.fieldDark (s : State) (f : Nat) : State :=
  let s1 := ((s.updHub f (fun h => { h with dark := true })).setNode f (256 + 1442 * f) (fun r => r.withStatus 2 2)).deriveKeys
  { s1 with loith := { s1.loith with imageBad := s1.loith.imageBad || (List.range 90).all (fun g => (s1.hubOf g).dark && (s1.hubOf g).image.isNone) } }

/-- A field that a FIELD.RESET starts again goes dark in step 3 or 4: the command ends, and its reply gives the step reached. The cause word is `DEST_DARK`,
as the field's (R83, R85; DESIGN CHOICE; log 87). -/
def State.resetDark (s : State) (f : Nat) : State :=
  let s1 := s.fieldDark f
  (s1.loith.resetting.filter (fun r => r.2.2 = f)).foldl (fun s r =>
    (({ s with loith := { s.loith with resetting := s.loith.resetting.filter (· ≠ r) } } : State).report f .fieldResetDone 0 [f]).replyFailed r.1 r.2.1 opFieldReset
      Cause.destDark [(s.hubOf f).startup, 0, 0, 0, 0, 0, 0, 0]) s1

/-- `STARTUP_RAILS_STABLE` of field `unit` (R29): the rails have come up at 740 mV, or at the four voltages that the initial settings give in
`arg.list`. With level 1 the step fails in the field, as it may in the steps that follow, and the field stays dark. -/
def execStartupRailsStable (s : State) : Out :=
  let f := s.arg.unit
  if !s.inStep f 1 then .next s
  else if s.arg.level = 1 then .next (s.fieldDark f)
  else
    let vs := s.arg.list
    let ok := vs.length = 4 && vs.all (fun v => 550 ≤ v && v ≤ 900) && s.hubs.all (fun e => e.2.startup = 1)
    let s1 := if ok then (List.range 4).foldl (fun s a => s.updRail a (fun r => { r with cur := vs.getD a 740, set := vs.getD a 740 })) s else s
    .next (s1.updHub f (fun h => { h with startup := 2 }))

/-- `IMAGE_VERIFY` of field `unit` (R27): `value` has bit i when the three reads of slot i failed in this hub. -/
def execImageVerify (s : State) : Out :=
  let f := s.arg.unit
  if !s.inStep f 2 then .next s
  else
    let fails := (List.range 2).filter (fun i => bitAt s.arg.value i || !((s.images.find? i).any imageOk))
    let s1 := fails.foldl (fun s i => s.report f .imageSlotBad 0 [i]) s
    match s.bestImage s.arg.value with
    | some b => .next (s1.updHub f (fun h => { h with image := some (imageVersion b), startup := 3 }))
    | none => .next (s1.fieldDark f)

/-- Seeds of an atlas: node in the field's range, or of the rim for hub 0, with status and capability bits. -/
def seedTriples : List Nat → List (Nat × Nat × Nat)
  | n :: st :: caps :: r => (n, st, caps) :: seedTriples r
  | _ => []
def nodeOfField (f n : Nat) : Bool := if n < 256 then f = 0 || f = 89 else n < 130036 && (n - 256) / 1442 = f

/-- The status that the seed gives a node: a unit that works has yet to be tested (R29). -/
def seedStatus (f n st : Nat) : Nat := if st ≤ 1 && (unitOfNode f n).isSome then 4 else st

/-- The records of a field as its image seeds them; a node that the seed does not name is dark (R33). At power-on the records come into being, which is no
change of a status (log 103); hub 89 has its own copy of the rim's (R30). A FIELD.RESET seeds those of the field again, and leaves the rim's (R34). -/
def State.seedAtlas (s : State) (f : Nat) (seeds : List (Nat × Nat × Nat)) : State :=
  let mine := seeds.filter (fun e => nodeOfField f e.1 && (!s.loith.ready || 256 ≤ e.1))
  if s.loith.ready then
    let gone := ((s.hubOf f).atlas.filter (fun e => 256 ≤ e.1 && !(mine.any (fun m => m.1 = e.1)))).map (fun e => e.1)
    let s1 := gone.foldl (fun s n => s.setNode f n (fun r => r.withStatus 2 0)) s
    mine.foldl (fun s e => s.setNode f e.1 (fun r => { r.withStatus (seedStatus f e.1 e.2.1) 0 with caps := e.2.2 })) s1
  else
    s.updHub f (fun h => { h with
      atlas := mine.foldl (fun m e => m.put e.1
        { kind := (nodeShape f e.1).1, id := (nodeShape f e.1).2.1, caps := e.2.2, status := seedStatus f e.1 e.2.1, gen := h.rgen }) [],
      unlisted := 2 })

/-- `STARTUP_IDENTITY_ATLAS` of field `unit` (R28 to R30, R74, R82): the identity parameters give the device number `value` and the endpoint `addr` of
session 0, the seed stands in `arg.list`; with `flag` the hub's derivation of the identity fails. Keys are derived at a boot, not in a FIELD.RESET. -/
def execStartupIdentityAtlas (s : State) : Out :=
  let f := s.arg.unit
  if !s.inStep f 3 then .next s
  else if s.arg.level = 1 then .next (s.resetDark f)
  else
    let l := s.loith
    let keeps := f = 0 || f = 89
    let l1 := if s.loith.ready || !keeps then l
      else { l with device := s.arg.value % 1024, sessions := l.sessions.put 0 { valid := true, endpoint := s.arg.addr, tag := 0 } }
    let l2 := if s.loith.ready || !keeps then l1
      else if s.arg.flag then { l1 with idBad := (l1.idBad ++ [f]).eraseDups }
      else if f = 0 then { l1 with identity := (l1.identity ++ [0]).eraseDups } else l1
    .next (((({ s with loith := l2 } : State).seedAtlas f (seedTriples s.arg.list)).updHub f (fun h => { h with startup := 4 })).deriveKeys)

/-! ### Routing generations (R11, R12, R40, R42, R112) -/

/-- A slice of a field takes homes: good or degraded, with live ways. -/
def State.sliceTakes (s : State) (f i : Nat) : Bool :=
  let r := s.atlasRec f (nodeOfUnit (tileOfLocal f i) 3)
  r.status ≤ 1 && r.caps ≠ 0

/-- A D-tile is no live stage of its ring: its record or its engine's is neither good nor degraded, as when its units are retired (R11, R42, R381). -/
def State.stageOut (s : State) (t : Nat) : Bool := s.tileStatus t > 1 || s.unitStatus t 2 > 1

/-- What a field's hub records as it applies a generation: slices, ring stages, retired routers and links. -/
def State.recordGen (s : State) (f g : Nat) : State :=
  let all := List.range 120
  let slices : KMap Bool := all.map (fun i => (i, s.sliceTakes f i))
  let bypass := all.filter (fun i => i < 60 && s.stageOut (tileOfLocal f i))
  let dead := all.filter (fun i => s.unitStatus (tileOfLocal f i) 5 = 3)
  let links := (List.range 480).filter (fun j => s.unitStatus (tileOfLocal f (j / 4)) (6 + j % 4) = 3)
  s.updHub f (fun h => { h with rgen := g, liveSlices := slices, bypass := bypass, deadRouters := dead, deadLinks := links })

/-- A hub with one of its two port routers dark uses the other, and is degraded (R12); the source of that status is a runtime error (DESIGN CHOICE;
log 104). -/
def State.checkPorts (s : State) (f : Nat) : State :=
  let down := [53, 54].filter (fun i => s.unitStatus (tileOfLocal f i) 5 = 2)
  if down.length = 1 ∧ s.nodeStatus f (256 + 1442 * f + 1) = 0 then
    (s.setNode f (256 + 1442 * f + 1) (fun r => r.withStatus 1 2)).report f .hubDegraded 0 [f]
  else s

/-- Every field of a list applies a generation; slices that lose homes write them back first, and drop them (R112). -/
def State.applyGen (s : State) (fs : List Nat) (g : Nat) : State :=
  let home := fun (s : State) (l : Nat) => s.homeOf (lineGpa l)
  let s0 := fs.foldl (fun s f => s.recordGen f g) s
  let stays := fun (l : Nat) => home s l = home s0 l
  let s1 := fs.foldl (fun s f => s.recordGen f g) ((s.dirty.filter (fun l => !stays l)).foldl State.cleanLine s)
  let s2 := ((s1.misses.map (fun e => e.1)).filter (fun l => !stays l)).foldl State.endMiss s1
  fs.foldl State.checkPorts { s2 with cached := s2.cached.filter (fun e => stays e.1) }

/-! ### Steps 4 to 6 (R29) -/

/-- Nodes, how often they failed in a row, 1 or 2, and the bits whose path failed twice; a node that failed twice with no bit failed as a whole. -/
def failTriples : List Nat → List (Nat × Nat × Nat)
  | n :: k :: b :: r => (n, k, b) :: failTriples r
  | _ => []

/-- The rook's start-up results of a field (R29, R34, R422): listed nodes failed once or twice, untested ones of the seed passed. -/
def State.startupResults (s : State) (f : Nat) (fails : List (Nat × Nat × Nat)) : State :=
  let mine := fails.filter (fun e => nodeOfField f e.1)
  let s1 := mine.foldl (fun s e => s.testResult f e.1 e.2.1 e.2.2) s
  (s1.hubOf f).atlas.foldl (fun s e => if e.2.status = 4 && !(mine.any (fun x => x.1 = e.1)) then s.testResult f e.1 0 0 else s) s1

/-- `ROOK_STARTUP_PASS` of field `unit` (R29): `arg.list` holds the nodes that failed. In a FIELD.RESET the field is ready again, and the command's
reply goes out (R85). -/
def execRookStartupPass (s : State) : Out :=
  let f := s.arg.unit
  if !s.inStep f 4 then .next s
  else if s.arg.level = 1 then .next (s.resetDark f)
  else
    let s1 := (s.startupResults f (failTriples s.arg.list)).updHub f (fun h => { h with startup := if s.loith.ready then 7 else 5, rookBusy := false, rookPos := 360 })
    let s2 := s1.applyGen [f] 1
    match s2.loith.resetting.find? (fun r => r.2.2 = f) with
    | some (session, seq, _) =>
      let s3 := ({ s2 with loith := { s2.loith with resetting := s2.loith.resetting.filter (fun r => r.2.2 ≠ f) } } : State).report f .fieldResetDone 0 [f]
      .next (s3.reply session seq opFieldReset stOk (leBytes 8 4))
    | none => .next s2

/-- `STARTUP_LINKS_UP` of field `unit` (R22, R29, R74): the first one loads the epoch `value`, forward only; ports of `arg.list`, by their place among the
external ports of the atlas, stay untrained: no lane of them is. The links tell that device `other` is the bridge of the group, with `flag`, and, with
`addr` not 0, that a ready device of a lower number is in the domain (R79, R88). -/
def execStartupLinksUp (s : State) : Out :=
  let f := s.arg.unit
  if !s.inStep f 5 then .next s
  else if s.arg.level = 1 then .next (s.fieldDark f)
  else
    let s1 := s.updHub f (fun h => { h with startup := 6 })
    let s2 := (s.arg.list.filter (· < 120)).foldl (fun (s : State) p => s.setNode s.rimHub (57 + p) (fun r => { r.darkened with caps := 0 })) s1
    let b := if s.arg.flag then some (s.arg.other % 1024) else if s2.ueUp then some s2.loith.device else none
    let s2 : State := { s2 with loith := { s2.loith with bridge := b, lower := s.arg.addr ≠ 0 } }
    if s.loith.ready || s.loith.epoch then .next s2
    else
      let t := max s2.rtime s.arg.value
      let s3 := { s2 with rtime := t, loith := { s2.loith with epoch := true, synced := t } }
      .next (s3.report f .timeEpoch 0 [t])

/-- Every field has ended step 5 or is dark, and hub 0 or 89 works (R29, R91). -/
def State.canBeReady (s : State) : Bool :=
  !s.loith.ready && (List.range 90).all (fun f => (s.hubOf f).dark || (s.hubOf f).startup = 6) && !((s.hubOf 0).dark && (s.hubOf 89).dark)

/-- `DEVICE_READY` (R29, R57, R91): the platform's initial shares stand in `arg.list` by field, and are granted when they fit the budget. -/
def execDeviceReady (s : State) : Out :=
  if !s.canBeReady then .next s
  else
    let fits := s.arg.list.sum ≤ 20000
    let hubs : KMap Hub := s.hubs.map (fun e => (e.1, if e.2.dark then e.2 else
      { e.2 with startup := 7, share := if fits then s.arg.list.getD e.1 0 else e.2.share }))
    let h0 := (s.hubOf 0).dark
    let h89 := (s.hubOf 89).dark
    .next { s with hubs := hubs, bank := { s.bank with mirrok := !h0 && !h89, onmirror := h0 },
                   loith := { s.loith with ready := true, hub0Dark := h0, hub89Dark := h89 } }

end Sys2Proof.Machine
end

