-- ==== Sys2Proof/Machine/Sem.lean ====
section
/-! DEFINITION. Semaphores and streams: R189 to R194, R198, R199, R338, R339. -/

namespace Sys2Proof.Machine

/-- `sem.post`: it releases at scope `tile`, then applies (R198, R199, R338). -/
def execSemPost (f : FmtCR) (s : State) : Out :=
  s.slotC (.semPost f) fun s =>
    let a := bitsOf (s.x f.xa) 7 0
    let n := f.opt.toNat
    if a = 0 then s.faultC .semAmount
    else s.releaseThen 2 0 0 fun s =>
      let c := s.tile.sems.get 0 n
      if c + a > 255 then s.faultC .semOverflow
      else .next (s.updCurTile (fun t => { t with sems := t.sems.put n (c + a) })).fall

/-- `sem.wt`: waiters are served oldest first, and one that cannot be served blocks those behind it (R198, R338). -/
def execSemWt (f : FmtCR) (s : State) : Out :=
  s.slotC (.semWt f) fun s =>
    let a := bitsOf (s.x f.xa) 7 0
    let n := f.opt.toNat
    let me := s.cx.firing
    if a = 0 then s.faultC .semAmount
    else
      let q := s.tile.semq.get [] n
      let c := s.tile.sems.get 0 n
      let first : Bool := match q with
        | [] => true
        | w :: _ => decide (w.2.1 = me)
      if first ∧ a ≤ c then
        .next (s.updCurTile (fun t => { t with sems := t.sems.put n (c - a), semq := t.semq.put n (q.filter (fun w => w.2.1 ≠ me)) })).fall
      else
        let q' := if q.any (fun w => w.2.1 = me) then q else q ++ [(s.cur, me, a)]
        .next ((s.updCurTile (fun t => { t with semq := t.semq.put n q' })).stallOn .waitSem)

/-- A stream descriptor that R190 calls bad. -/
def streamBad (d : List Word) : Bool :=
  let t : Stream := { desc := d }
  bitsOf (d.getD 0 0) 63 60 ≠ 0 || bitsOf (d.getD 1 0) 63 4 ≠ 0 || d.getD 5 0 ≠ 0 || d.getD 6 0 ≠ 0 || d.getD 7 0 ≠ 0 ||
    (!t.typed && ((d.getD 0 0).toNat % 32 ≠ 0 || (List.range 4).any (fun k => t.stride k % 32 ≠ 0)))

/-- `str.bind` (R189, R190, R339). -/
def execStrBind (f : FmtCR) (s : State) : Out :=
  s.slotC (.strBind f) fun s =>
    let n := f.opt.toNat
    let va := (s.x f.xa).toNat
    s.readingDesc va 8 fun s d =>
      if streamBad d then s.faultC .streamBad
      else if s.cx.long || (s.core.streamAt n).bound then s.faultC .streamBusy
      else
        let t : Stream := { bound := true, ctx := s.cur, firing := s.cx.firing, desc := d, tag := s.tag, level := s.level, since := s.nextAcc, pairOf := s.cx.pairFiring }
        .next (s.updCurCore (fun k => { k with streams := k.streams.put n t })).fall

/-- A stream after it is freed. -/
def State.dropStream (s : State) (core n : Nat) : State :=
  s.updCore core (fun k => { k with streams := k.streams.put n {} })

/-- `str.free`: an output stream stalls until every entry is stored (R191, R339). -/
def execStrFree (f : FmtCR) (s : State) : Out :=
  s.slotC (.strFree f) fun s =>
    let n := f.opt.toNat
    let t := s.core.streamAt n
    if !t.bound then .next s.fall
    else if t.firing ≠ s.cx.firing then s.faultC .streamBusy
    else if t.output && !t.fifo.isEmpty then .next (s.stallOn .waitStream)
    else .next (s.dropStream (coreOfCtx s.cur) n).fall

/-- The status doubleword of a stream (R194). -/
def Stream.status (t : Stream) : Nat :=
  natOfBool t.bound * 2 ^ 63 + t.ctx % 8 * 2 ^ 60 + t.fifo.length % 16 * 2 ^ 56 +
    (match t.fault with | some (c, _) => c % 256 | none => 0) * 2 ^ 48

/-- `str.stat` (R339). -/
def execStrStat (f : FmtCR) (s : State) : Out :=
  s.slotC (.strStat f) fun s =>
    let t := s.core.streamAt f.opt.toNat
    s.result f.xd (BitVec.ofNat 64 (t.status + min (2 ^ 32 - 1) t.taken))

end Sys2Proof.Machine
end

