-- ==== Sys2Proof/Machine/Window.lean ====
section
/-! DEFINITION. The tile window as memory: context images (R107, R181), engine state (R371 to R373, R384, R408), mailbox state (R174), streams and
semaphores (R194), tile control registers and debug pages (R106, R241); reads and writes by address at a home (R106 to R110), and
`REGISTER_WRITE`. -/

namespace Sys2Proof.Machine

/-! ### Context images (R181) -/

/-- A doubleword of a context's image. -/
def Ctx.imageDword (c : Ctx) (long : Bool) (o : Nat) : Nat :=
  if o < 0x100 then (if o = 0 then 0 else (c.x.get 0 (o / 8)).toNat)
  else if o < 0x300 then (c.v.get 0 ((o - 0x100) / 32)).toNat / 2 ^ (64 * (o / 8 % 4)) % 2 ^ 64
  else if o < 0x340 then (c.k.get 0 ((o - 0x300) / 8)).toNat
  else if o = 0x340 then c.pc.toNat
  else if o < 0x360 then (c.lcAt ((o - 0x348) / 8)).toNat
  else if o = 0x360 then c.wid.toNat else if o = 0x368 then c.widf.toNat
  else if o < 0x3A0 then (c.grid.get 0 ((o - 0x370) / 8)).toNat
  else if o = 0x3A0 then c.senderLo.toNat else if o = 0x3A8 then c.senderHi.toNat
  else if o = 0x3B0 then c.port.toNat
  else if o = 0x3B8 then c.codelo.toNat else if o = 0x3C0 then c.codehi.toNat else if o = 0x3C8 then c.lbase.toNat
  else if o = 0x3D0 then c.mode else if o = 0x3D8 then c.fstat else if o = 0x3E0 then c.unack else if o = 0x3E8 then c.ctxst long
  else if o = 0x3F0 then c.npstart else 0

/-- The four doublewords of a vector register with one replaced. -/
def putDword (v i w : Nat) : Nat := v - v / 2 ^ (64 * i) % 2 ^ 64 * 2 ^ (64 * i) + w % 2 ^ 64 * 2 ^ (64 * i)

/-- Lines of an image found uncorrectable, after a doubleword is rewritten: an entry is 256 times the line, plus the set of its doublewords
rewritten so far (R247). -/
def rewriteLine (lines : List Nat) (o : Nat) : List Nat :=
  (lines.map (fun e => if e / 256 = o / 64 then e / 256 * 256 + (e % 256 ||| 2 ^ (o / 8 % 8)) else e)).filter (fun e => e % 256 ≠ 255)

/-- An image after a doubleword is written; none for what the supervisor may not write (R181). Of MODE, RM is written. -/
def Ctx.imageWrite (c : Ctx) (o v : Nat) : Option Ctx :=
  let w : Word := BitVec.ofNat 64 v
  let c := { c with ueLines := rewriteLine c.ueLines o }
  if o = 0 then some c
  else if o < 0x100 then some { c with x := c.x.put (o / 8) w }
  else if o < 0x300 then some { c with v := c.v.put ((o - 0x100) / 32) (BitVec.ofNat 256 (putDword (c.v.get 0 ((o - 0x100) / 32)).toNat (o / 8 % 4) v)) }
  else if o < 0x340 then some { c with k := c.k.put ((o - 0x300) / 8) w }
  else if o = 0x340 then some { c with pc := w }
  else if o < 0x360 then some { c with lc := c.lc.put ((o - 0x348) / 8) (w &&& ~~~0x300000000#64) }
  else if o = 0x360 then some { c with wid := w } else if o = 0x368 then some { c with widf := w &&& 0x3FFFFFFFFF#64 }
  else if o < 0x3A0 then some { c with grid := c.grid.put ((o - 0x370) / 8) w }
  else if o = 0x3A0 then some { c with senderLo := w } else if o = 0x3A8 then some { c with senderHi := w }
  else if o = 0x3B0 then some { c with port := w }
  else if o = 0x3B8 then some { c with codelo := w } else if o = 0x3C0 then some { c with codehi := w } else if o = 0x3C8 then some { c with lbase := w }
  else if o = 0x3D0 then some { c with rm := if bitsAt v 3 1 ≤ 4 then bitsAt v 3 1 else c.rm }
  else if o = 0x3D8 then some { c with perm := bitsAt v 63 48, dead := bitsAt v 47 32, pois := bitsAt v 31 16, scope := bitsAt v 15 0 }
  else none

/-- A context whose image the window gives: free, frozen or parked (R107). -/
def Ctx.imageOpen (c : Ctx) : Bool := !c.occ || c.st = 1 || c.st = 2

/-! ### Engine state -/

/-- A word of engine state as the window shows it, by offset / 4, for a tile kind (R371, R384, R408). -/
def Engine.memWord (e : Engine) (i : Nat) : Nat := (e.mem.get 0 i).toNat

/-- ACCBLK (R372) and the status of a latch (R373). -/
def Engine.accblk (e : Engine) : Nat :=
  e.satp.toNat * 2 ^ 60 + e.pois.toNat * 2 ^ 56 + ((List.range 4).map (fun n => e.blk.get 0 n % 256 * 2 ^ (8 * n))).sum
def Latch.word (l : Latch) : Nat :=
  natOfBool l.valid * 2 ^ 63 + natOfBool l.ring * 2 ^ 62 + natOfBool l.pend * 2 ^ 61 + natOfBool l.send * 2 ^ 60 + l.fmt % 32 * 2 ^ 55 + l.geo % 8 * 2 ^ 52 +
    l.k % 128 * 2 ^ 45 + l.rseq % 65536

/-- An inner lane as it reads (R371). -/
def Inner.word (l : Inner) : Nat := (l.i % 2 ^ 24).toNat + (l.x % 2 ^ 9).toNat * 2 ^ 32 + natOfBool l.nanp * 2 ^ 41
def Inner.ofWord (v : Nat) : Inner := { i := sextNat 24 (bitsAt v 23 0), x := sextNat 9 (bitsAt v 40 32), nanp := bitAt v 41 }

/-- Eight bytes of a byte map. -/
def bytesWord (m : KMap Byte) (o : Nat) : Nat := ((List.range 8).map (fun i => (m.get 0 (o + i)).toNat * 2 ^ (8 * i))).sum
def putBytes (m : KMap Byte) (o v : Nat) : KMap Byte := (List.range 8).foldl (fun m i => m.put (o + i) (BitVec.ofNat 8 (v / 2 ^ (8 * i)))) m

/-- A doubleword of engine state of a tile of a kind. -/
def Engine.dword (e : Engine) (kind : Nat) (busy : Bool) (o : Nat) : Nat :=
  let words := e.memWord (o / 4) + e.memWord (o / 4 + 1) * 2 ^ 32
  if o = 0x4000 then e.accst busy
  else match kind with
    | 0 =>
      if o < 0x4000 then words
      else if o = 0x4008 then e.accblk
      else if o = 0x4040 ∨ o = 0x4048 then (e.latchAt ((o - 0x4040) / 8)).word
      else if 0x4100 ≤ o ∧ o < 0x4180 then bytesWord (e.latchAt ((o - 0x4100) / 0x40)).scales ((o - 0x4100) % 0x40)
      else if 0x5000 ≤ o ∧ o < 0x6000 then bytesWord (e.latchAt ((o - 0x5000) / 0x800)).data ((o - 0x5000) % 0x800)
      else if 0x8000 ≤ o then (e.lanes.get {} ((o - 0x8000) / 8)).word
      else 0
    | 1 => if o < 0x4000 then words else if 0x4010 ≤ o ∧ o < 0x4030 then e.spcnt.get 0 ((o - 0x4010) / 8) % 2 ^ 48 else 0
    | 2 =>
      if o = 0x4008 then e.attst
      else if 0x2100 ≤ o ∧ o < 0x2180 then (e.pmask.get 0 ((o - 0x2100) / 8)).toNat
      else if o < 0x2080 ∨ (0x6000 ≤ o ∧ o < 0x8000) then words else 0
    | _ => if o < 0x1000 then words else 0

/-- The buffer that a poison bit stands for, with its first offset and its doublewords: accumulators of a D-tile; on an A-tile OBUF, then MBUF with LBUF
and PMASK, SBUF, QBUF (R247, R372, R384). -/
def poisonBuffer (kind o : Nat) : Option (Nat × Nat × Nat) :=
  match kind with
  | 0 => if o < 0x4000 then some (o / 0x1000, o / 0x1000 * 0x1000, 512) else none
  | 2 =>
    if o < 0x1000 then some (3, 0, 512) else if o < 0x2000 then some (2, 0x1000, 512) else if o < 0x2180 then some (1, 0x2000, 48)
    else if 0x6000 ≤ o ∧ o < 0x8000 then some (0, 0x6000, 1024) else none
  | _ => none

/-- A window write of a doubleword of a poisoned buffer: the mark clears with the last one (R247, R384). MBUF, LBUF and PMASK fill 32 doublewords of
their range. -/
def Engine.noteWrite (e : Engine) (kind o : Nat) : Engine :=
  match poisonBuffer kind o with
  | none => e
  | some (n, first, size) =>
    let bits := if kind = 0 then e.pois else e.attPois
    if !bitAt bits.toNat n then e
    else
      let seen := e.wrote.get 0 n ||| 2 ^ ((o - first) / 8)
      let need := if size = 48 then (2 ^ 16 - 1) + (2 ^ 16 - 1) * 2 ^ 32 else 2 ^ size - 1
      if seen &&& need = need then
        let clear := bits &&& ~~~(BitVec.ofNat 4 (2 ^ n))
        { e with wrote := e.wrote.put n 0, pois := if kind = 0 then clear else e.pois, attPois := if kind = 0 then e.attPois else clear }
      else { e with wrote := e.wrote.put n seen }

/-- Engine state after a doubleword is written: status words are read-only. -/
def Engine.write (e : Engine) (kind o v : Nat) : Engine :=
  let words := { e with mem := (e.mem.put (o / 4) (BitVec.ofNat 32 v)).put (o / 4 + 1) (BitVec.ofNat 32 (v / 2 ^ 32)) }
  let latch := fun (j : Nat) (g : Latch → Latch) => { e with latches := e.latches.put j (g (e.latchAt j)) }
  (match kind with
   | 0 =>
     if o < 0x4000 then words
     else if 0x4100 ≤ o ∧ o < 0x4180 then latch ((o - 0x4100) / 0x40) (fun l => { l with scales := putBytes l.scales ((o - 0x4100) % 0x40) v })
     else if 0x5000 ≤ o ∧ o < 0x6000 then latch ((o - 0x5000) / 0x800) (fun l => { l with data := putBytes l.data ((o - 0x5000) % 0x800) v })
     else if 0x8000 ≤ o then { e with lanes := e.lanes.put ((o - 0x8000) / 8) (Inner.ofWord v) }
     else e
   | 1 => if o < 0x4000 then words else e
   | 2 =>
     if 0x2100 ≤ o ∧ o < 0x2180 then { e with pmask := e.pmask.put ((o - 0x2100) / 8) (BitVec.ofNat 64 v) }
     else if o < 0x2080 ∨ (0x6000 ≤ o ∧ o < 0x8000) then words else e
   | _ => if o < 0x1000 then words else e).noteWrite kind o

/-! ### Mailbox and stream state (R174, R194) -/

/-- PSTAT of a port, MBXSTAT and MBXLOSS of a core (R174). -/
def Port.pstat (q : Port) : Nat :=
  natOfBool q.spill * 2 ^ 63 + q.hwPart.length % 128 * 2 ^ 56 + q.oq.length % 1024 * 2 ^ 46 + q.resv.length % 2048 * 2 ^ 35 + q.arr % 2 ^ 32
def Core.mbxstat (k : Core) : Nat :=
  (k.queue 0).length * 2 ^ 58 + (k.queue 3).length * 2 ^ 52 + (k.queue 1).length * 2 ^ 47 + (k.queue 2).length * 2 ^ 43 + k.reqRsv * 2 ^ 37 +
    k.bulkRsv * 2 ^ 31 + k.bounceq.length * 2 ^ 25
def Core.mbxloss (k : Core) : Nat := k.bsum * 2 ^ 48 + k.stray * 2 ^ 32 + k.rsplost * 2 ^ 16

/-- A doubleword of a core's mailbox region; none for the message buffer, whose bytes are open (R174). -/
def Core.mailboxDword (k : Core) (o : Nat) : Option Nat :=
  if o < 0x2000 then none
  else if o < 0x3000 then
    let q := (k.actorAt ((o - 0x2000) / 64)).portAt (o % 64 / 16)
    some (if o / 8 % 2 = 0 then q.word.toNat else q.pstat)
  else if o < 0x3800 then some (match k.bounceq[(o - 0x3000) / 64]? with
    | some m => (m.words.getD (o % 64 / 8) 0).toNat
    | none => 0)
  else if o = 0x3800 then some k.mbxstat else if o = 0x3808 then some k.mbxloss else some 0

/-- A doubleword of a stream's state (R194). -/
def Stream.dword (t : Stream) (o : Nat) : Nat :=
  let step := if t.output then t.taken else t.taken
  if o < 0x40 then (t.desc.getD (o / 8) 0).toNat
  else if o = 0x40 then ((List.range 4).map (fun k => t.index step k % 65536 * 2 ^ (16 * k))).sum
  else if o = 0x48 then t.status
  else if 0x100 ≤ o ∧ o < 0x200 then (t.fifo.getD ((o - 0x100) / 32) 0).toNat / 2 ^ (64 * (o / 8 % 4)) % 2 ^ 64
  else 0

/-- A doubleword of the stream, semaphore and loop region of a tile (R194). -/
def State.streamDword (s : State) (t o : Nat) : Nat :=
  if o < 0x2000 then ((s.coreOf (2 * t + o / 0x1000)).streamAt (o % 0x1000 / 0x400)).dword (o % 0x400)
  else if 0x3000 ≤ o ∧ o < 0x3008 then s.semv t
  else 0

/-! ### The window by doublewords -/

/-- A value that the spec leaves open: the next free doubleword (log 4). -/
def State.openWord (s : State) : Nat × State := ((Config.freeWord s.fresh).toNat, { s with fresh := s.fresh + 1 })

/-- A doubleword of a context image by slot: of an occupied running context the value is open (R107). -/
def State.imageAt (s : State) (i o : Nat) : Nat × State :=
  let c := match s.pageFiring i with
    | some (_, c) => c
    | none => s.ctxOf i
  if c.imageOpen then (c.imageDword ((s.tileOf (tileOfCtx i)).eng.lown = some c.firing && c.occ) o, s) else s.openWord

/-- A doubleword of a debug page (R241). -/
def State.dbgDword (s : State) (i o : Nat) : Nat × State :=
  let d := s.dbgOf i
  if o = 0x18 then (s.dbgstat i, s) else if o = 0x20 then (d.fst.toNat, s) else if o = 0x28 then (s.fbundle i, s)
  else if 0x40 ≤ o ∧ o < 0x80 then ((d.fpkt.getD ((o - 0x40) / 8) 0).toNat, s)
  else if 0x400 ≤ o ∧ o < 0x800 then s.imageAt i (o - 0x400)
  else (0, s)

/-- A doubleword of a tile window, at an aligned offset outside local store. -/
def State.windowDword (s : State) (t o : Nat) : Nat × State :=
  match regionOf o with
  | .localStore => (s.mem.readLE (gpaKey (tileGpa t o)) 8, s)
  | .slice => s.openWord
  | .image => s.imageAt (16 * t + (o - 0x800000) / 0x400) (o % 0x400)
  | .engine => ((s.tileOf t).shown.dword (tileKind t) (s.engBusy t) (o - 0x900000), s)
  | .mailbox =>
    (match (s.coreOf (2 * t + (o - 0xA00000) / 0x4000)).mailboxDword (o % 0x4000) with
     | some v => (v, s)
     | none => s.openWord)
  | .stream => (s.streamDword t (o - 0xB00000), s)
  | .control => (s.tileCtl t (o - 0xC00000), s)
  | .debug => s.dbgDword (16 * t + (o - 0xD00000) / 0x1000) (o % 0x1000)
  | .hole => (0, s)

/-- Who writes: the owner tag, the level, the context. -/
structure Writer where
  tag : Nat
  level : Nat
  ctx : Nat
  deriving DecidableEq, Repr

/-- A write into the image of a slot; none when it is refused (R107, R181). -/
def State.imageStore (s : State) (i o lo n v : Nat) : Option State :=
  let (p, c) := (s.pageFiring i).getD (Place.slot, s.ctxOf i)
  if !c.imageOpen then none
  else match c.imageWrite o (mergeReg (c.imageDword false o) 0 v lo n) with
    | some c' => some (s.updPlace i p (fun _ => c'))
    | none => none

/-- A write into a debug page; none when it is refused. DBGCAP's high half attaches here too (R241). -/
def State.dbgStore (s : State) (i o lo n v : Nat) (w : Writer) : Option State :=
  if o = 0 then some (s.updDbg i (fun d => { d with capLow := BitVec.ofNat 64 (mergeReg d.capLow.toNat 0 v lo n) }))
  else if o = 8 then some (s.attach i w.ctx (BitVec.ofNat 64 (mergeReg 0 0 v lo n)) w.tag).1
  else if o = 0x10 then some (s.dbgCommand i (mergeReg 0 0 v lo n) w.tag)
  else if 0x400 ≤ o ∧ o < 0x800 then s.imageStore i (o - 0x400) lo n v
  else none

/-- Write `n` bytes of a doubleword of a tile window from its byte `lo`; none when the write is refused where it lands (R106, R107, R110). -/
def State.windowPut (s : State) (t o lo n v : Nat) (w : Writer) : Option State :=
  match regionOf o with
  | .localStore => some { s with mem := s.mem.writeLE (gpaKey (tileGpa t o) + lo) n v }
  | .image => s.imageStore (16 * t + (o - 0x800000) / 0x400) (o % 0x400) lo n v
  | .engine =>
    if s.engBusy t then none
    else
      let k := tileKind t
      let e := (s.tileOf t).eng
      let new := e.write k (o - 0x900000) (mergeReg (e.dword k false (o - 0x900000)) 0 v lo n)
      some (s.updTile t (fun x => { x with eng := new, engShown := none }))
  | .control =>
    let c := o - 0xC00000
    s.tileCtlWrite t c (mergeReg (s.tileCtl t c) (tileCtlActs c) v lo n) w.tag
  | .debug => s.dbgStore (16 * t + (o - 0xD00000) / 0x1000) (o % 0x1000) lo n v w
  | _ => none

/-! ### Reads and writes at a home -/

/-- Read the bytes of `k` doublewords from an aligned offset of a window. -/
def State.windowDwords (s : State) (t : Nat) : Nat → Nat → Nat × State
  | 0, _ => (0, s)
  | k + 1, o =>
    let (v, s1) := s.windowDword t o
    let (r, s2) := s1.windowDwords t k (o + 8)
    (v + 2 ^ 64 * r, s2)

/-- Read `size` bytes at a GPA of this device (R106, R109). -/
def State.readHome (s : State) (g size level : Nat) : Nat × State :=
  match gpaSpace g with
  | 0 =>
    let t := tileAt (gpaCol g) (gpaRow g)
    let o := gpaWindow g
    if regionOf o = .localStore then (s.mem.readLE (gpaKey g) size, s)
    else
      let (v, s1) := s.windowDwords t ((o % 8 + size + 7) / 8) (o / 8 * 8)
      (v / 2 ^ (8 * (o % 8)) % 2 ^ (8 * size), s1)
  | 3 => (s.hubRead (gpaHub g) (gpaHubOff g / 8 * 8) level / 2 ^ (8 * (gpaHubOff g % 8)) % 2 ^ (8 * size), s)
  | _ => (s.mem.readLE (gpaKey g) size, s)

/-- Write the pieces of a run of a window, doubleword by doubleword: the state, and whether some piece was refused. -/
def State.windowWrite (t : Nat) (w : Writer) : Nat → Nat → Nat → Nat → State × Bool → State × Bool
  | 0, _, _, _, r => r
  | fuel + 1, o, n, v, (s, bad) =>
    if n = 0 then (s, bad)
    else
      let k := min n (8 - o % 8)
      match s.windowPut t (o / 8 * 8) (o % 8) k v w with
      | some s1 => State.windowWrite t w fuel (o + k) (n - k) (v / 2 ^ (8 * k)) (s1, bad)
      | none => State.windowWrite t w fuel (o + k) (n - k) (v / 2 ^ (8 * k)) (s, true)

/-- Write `size` bytes at a GPA of this device: the state, and whether it was refused there (R106, R107, R110). -/
def State.writeHome (s : State) (g size v : Nat) (w : Writer) : State × Bool :=
  match gpaSpace g with
  | 0 =>
    let t := tileAt (gpaCol g) (gpaRow g)
    if regionOf (gpaWindow g) = .localStore then ({ s with mem := s.mem.writeLE (gpaKey g) size v }, false)
    else State.windowWrite t w (size / 8 + 2) (gpaWindow g) size v (s, false)
  | 3 => (s.hubStore (gpaHub g) (gpaHubOff g) size v w.tag w.level, false)
  | _ => ({ s with mem := s.mem.writeLE (gpaKey g) size v }, false)

/-- `REGISTER_WRITE`: software of tag `tag` and level `level` stores the `other` low bytes of `value` at the GPA `addr` of a tile's control region or of
control space (R106, R109, R110). A store that the checks at its source refuse does not arrive. -/
def execRegisterWrite (s : State) : Out :=
  let a := s.arg
  let isReg := gpaSpace a.addr = 3 || (gpaSpace a.addr = 0 && regionOf (gpaWindow a.addr) = .control)
  if !s.gpaLocal a.addr || !isReg || (s.bankPaused && shareRegister a.addr) || (s.gpaRefuses a.addr a.other .write false 0 a.tag a.level).isSome then .next s
  else .next (s.writeHome a.addr a.other a.value { tag := a.tag, level := a.level, ctx := 0 }).1

end Sys2Proof.Machine
end

