-- ==== Sys2Proof/Machine/Flip.lean ====
section
/-! DEFINITION. Staging and flipping of routing tables: R37, R39, R40, R76, R84. -/

namespace Sys2Proof.Machine

/-- Cut a body into records of n bytes. -/
def recordsGo (n : Nat) : Nat → List Nat → List (List Nat)
  | 0, _ => []
  | k + 1, b => if b.isEmpty then [] else b.take n :: recordsGo n k (b.drop n)
def records (n : Nat) (b : List Nat) : List (List Nat) := recordsGo n b.length b

/-! ### ROUTE.STAGE (R37, R84) -/

/-- Write one entry into a staged bank; nothing for a router, entry or field that does not exist. -/
def State.stageEntry (s : State) (f t e v : Nat) : State :=
  s.updHub f (fun h => { h with staged := h.staged.put (16 * t + e) (overrideBits v), rstate := if h.rstate = 0 then 1 else h.rstate })

/-- The entries of a ROUTE.STAGE that name a router of a field that is not dark. -/
def State.stageable (s : State) (r : List Nat) : Bool := leAt r 0 2 < 90 && leAt r 2 2 < 120 && leAt r 4 2 < 16 && !(s.hubOf (leAt r 0 2)).dark

/-- ROUTE.STAGE: the reply counts the entries staged. -/
def State.doRouteStage (s : State) (session seq : Nat) (body : List Nat) : State :=
  let rs := (records 16 body).filter s.stageable
  (rs.foldl (fun s r => s.stageEntry (leAt r 0 2) (leAt r 2 2) (leAt r 4 2) (leAt r 8 8)) s).reply session seq opRouteStage stOk (leBytes 4 rs.length ++ leBytes 4 0)

/-! ### ROUTE.FLIP (R40) -/

/-- A staged entry of a router is invalid (R37). -/
def State.entryInvalid (s : State) (f t e : Nat) : Bool :=
  let o := bitsAt e 58 56
  bitAt e 63 && (bitsAt e 6 0 > bitsAt e 20 14 || bitsAt e 13 7 > bitsAt e 27 21 || bitsAt e 20 14 > 119 || bitsAt e 27 21 > 89 || o = 7 ||
    (o = 5 && t ≠ 53 && t ≠ 54) || (o < 4 && (s.atlasRec f (nodeOfUnit (tileOfLocal f t) (6 + o))).kind = 0xFF))

/-- The first invalid entry of a field's staged bank: its key, 16 times the router plus the entry. -/
def State.badStaged (s : State) (f : Nat) : Option Nat := (List.find? (fun e => s.entryInvalid f (e.1 / 16) e.2) (s.hubOf f).staged).map (fun e => e.1)

/-- ROUTESTAT of every field, as bytes. -/
def State.routestats (s : State) : List Nat := ((List.range 90).map (fun f => leBytes 4 (s.hubOf f).routestat)).flatten

/-- The cause word of a flip that fails: the spec names none, so its byte is open (log 51). -/
def State.flipFailed (s : State) (session seq : Nat) : State :=
  let (w, s1) := s.openWord
  s1.replyFailed session seq opRouteFlip (w % 256) s1.routestats

/-- The generation in force: the greatest of the fields', since a reset field begins again at 1 (R29, R40). -/
def State.genNow (s : State) : Nat := ((List.range 90).map (fun f => (s.hubOf f).rgen)).foldl max 0

/-- ROUTE.FLIP: it is refused when a staged entry is invalid; else every source stops injecting on the masked networks (R40 steps 1 and 2). A command that
names another generation than the next fails, with nothing changed (DESIGN CHOICE; log 107). -/
def State.doRouteFlip (s : State) (session seq : Nat) (body : List Nat) : State :=
  let fs := List.range 90
  if fs.any (fun f => (s.badStaged f).isSome) then
    (fs.foldl (fun s f => match s.badStaged f with
      | some k => s.updHub f (fun h => { h with rresult := 2, rerrEnt := k % 16, rerrTile := k / 16 })
      | none => s) s).flipFailed session seq
  else if leAt body 0 4 ≠ (s.genNow + 1) % 2 ^ 32 then s.flipFailed session seq
  else
    let limit := if leAt body 8 4 = 0 then 1000 else leAt body 8 4
    let s1 := fs.foldl (fun s f => s.updHub f (fun h => { h with rstate := 2 })) s
    { s1 with flip := some { gen := leAt body 0 4, mask := leAt body 4 1 % 16, deadline := s.rtime + 1000 * limit, session := session, seq := seq } }

/-! ### The end of a drain (R40) -/

/-- The masked networks have drained: what stands at a destination or in a hold buffer counts as drained. -/
def State.drained (s : State) : Bool := match s.flip with
  | none => false
  | some p => !(s.flying.any (fun m => m.router.isSome && bitAt p.mask m.vn))

/-- Two banks hold the same entries. -/
def sameBank (a b : KMap Nat) : Bool := (a ++ b).all (fun e => a.get 0 e.1 = b.get 0 e.1)

/-- A field swaps its banks where they differ; packets in flight on networks that did not drain follow the old bank to their ends (R40). -/
def Hub.swapBanks (h : Hub) (flips : Nat) : Hub :=
  if sameBank h.active h.staged then { h with rstate := 0, rresult := 0 }
  else { h with active := h.staged, staged := h.active, rstate := 0, rresult := 0, past := h.past ++ [(flips, h.active)] }

/-- The flip takes place: banks, generation, DEVPORT, and the RSP packets held (R39, R40, R76). -/
def State.finishFlip (s : State) (p : Flip) : State :=
  let fs := (List.range 90).filter (fun f => !(s.hubOf f).dark)
  let s1 := (List.range 90).foldl (fun s f => s.updHub f (fun h => h.swapBanks s.loith.flips)) s
  let s2 := ({ s1 with flip := none, loith := { s1.loith with devport := p.devport.getD s1.loith.devport, flips := s1.loith.flips + 1 } } : State).applyGen fs p.gen
  let held := s2.hubs.flatMap (fun e => e.2.heldRsp.map (fun m => { m with gen := s2.loith.flips }))
  let hubs : KMap Hub := s2.hubs.map (fun e => (e.1, { e.2 with heldRsp := [] }))
  let s3 := ({ s2 with flying := s2.flying ++ held, hubs := hubs } : State).report (if s.bank.onmirror then 89 else 0) .routeFlipped 0 [p.gen]
  s3.reply p.session p.seq opRouteFlip stOk s3.routestats

/-- The drain limit has passed first: the old generation stays (R40). -/
def State.abandonFlip (s : State) (p : Flip) : State :=
  let s1 := (List.range 90).foldl (fun s f => s.updHub f (fun h => { h with rresult := 1, rstate := if sameBank h.active h.staged then 0 else 1 })) s
  ({ s1 with flip := none } : State).flipFailed p.session p.seq

end Sys2Proof.Machine
end

