-- ==== Sys2Proof/Machine/Perform.lean ====
section
/-! DEFINITION. Accesses at their homes and what comes back: performance, replies, acknowledgements, line fills, page walks, sync records, steps of
streams, the first detection of an uncorrectable error: R17, R38, R110 to R114, R119, R121, R125, R191 to R193, R204 to R217, R223 to R225, R228 to
R231, R247, R313, R335. An event names an access by its number in `arg.value`. -/

namespace Sys2Proof.Machine

/-! ### Accesses in flight -/

def State.resultOf (s : State) (ids : List Nat) (r : AccResult) : State :=
  { s with net := s.net.map (fun a => if ids.contains a.id then { a with result := some r } else a) }

/-- An access waits for an earlier one: of its context at an overlapping place (R206), or the step before it of its output stream (R193). Steps of
streams keep no order with the other accesses. -/
def State.accBehind (s : State) (a : Access) : Bool :=
  s.net.any (fun b => (b.firing = a.firing || b.ctx = a.ctx) && b.id < a.id && b.result.isNone && b.stream = a.stream && b.kind ≠ .arrival &&
    b.into ≠ some a.id && (a.stream.isSome || s.runsOverlap a.runs b.runs))

/-! ### The way back (R39) -/

/-- The way back from a home is free: a reply that meets a dark link is held until a flip (R39, R40). -/
def State.wayBack (s : State) (a : Access) : Bool :=
  let src := tileOfCtx a.ctx
  a.reach = 0 || a.reach = 3 || (!s.masked 1 && a.runs.all (fun p => match s.doorOf src (s.homeOf p.1) with
    | some d => (s.pathCause d src 1).isNone
    | none => true))

/-! ### Reads and writes (R113, R125, R205) -/

/-- A poisoned line lies in a run. -/
def State.runPoisoned (s : State) (p : Nat × Nat) : Bool := s.gpaLocal p.1 && (linesOf p.1 p.2).any s.poison.contains

/-- Read runs of bytes, the first lowest. -/
def State.readRuns (s : State) (level : Nat) : List (Nat × Nat) → Nat × State
  | [] => (0, s)
  | (g, n) :: ps =>
    let (v, s1) := if s.gpaLocal g then s.readHome g n level else (remoteLE s.now g n, s)
    let (r, s2) := s1.readRuns level ps
    (v + 2 ^ (8 * n) * r, s2)

/-- Write `n` bytes, line by line where lines are poisoned: a whole line clears its poison, and bytes of a smaller part are dropped (R125). The
number is the FSTAT count of R211. -/
def State.writeLines (w : Writer) : Nat → Nat → Nat → Nat → State × Nat → State × Nat
  | 0, _, _, _, r => r
  | fuel + 1, g, n, v, (s, bad) =>
    if n = 0 then (s, bad)
    else
      let k := min n (128 - gpaKey g % 128)
      let l := lineOf (gpaKey g)
      let r := if s.poison.contains l ∧ k < 128 then (s, 3)
        else
          let (s1, refused) := { s with poison := s.poison.filter (· ≠ l) }.writeHome g k v w
          (s1, if refused then 1 else bad)
      State.writeLines w fuel (g + k) (n - k) (v / 2 ^ (8 * k)) r

/-- Perform a write at its home. The lines that a slice holds or now fetches are dirty then; a dark slice keeps none (R112, R113, R342). -/
def State.storeAt (s : State) (g n v : Nat) (w : Writer) (uncached : Bool) : State × Nat :=
  let (s1, bad) := if s.runPoisoned (g, n) then State.writeLines w (n / 128 + 2) g n v (s, 0)
    else (let (s1, refused) := s.writeHome g n v w
          (s1, if refused then 1 else 0))
  if inSlice g ∧ !uncached then
    let ms := s1.missesOf [(g, n)]
    let held := (linesOf g n).filter (fun l => s1.cached.has l || ms.contains l)
    (({ s1 with dirty := (s1.dirty ++ held).eraseDups, cached := held.foldl (fun m l => if m.has l then m.put l w.tag else m) s1.cached } : State).startMisses w.tag ms, bad)
  else (s1, bad)

/-! ### Sync records (R214, R216, R217) -/

/-- Context b lies in the instance of a scope around context a (R208). -/
def inInstance (scope a b : Nat) : Bool :=
  match scope with
  | 0 => a = b
  | 1 => coreOfCtx a = coreOfCtx b
  | 2 => tileOfCtx a = tileOfCtx b
  | 3 => fieldOfCtx a = fieldOfCtx b
  | _ => true

/-- An acquire at a scope by a context is covered by a record (R214). -/
def SyncRec.covers (r : SyncRec) (scope ctx : Nat) : Bool := inInstance r.scope r.ctx ctx && inInstance scope ctx r.ctx

/-- A release makes a record, in the table of the slice or of the local store that is its home; without room for one it is performed as a release at `dom` (R216). -/
def State.syncRoom (s : State) (a : Access) : Bool :=
  let l := lineOf (gpaKey a.gpa)
  s.syncs.any (fun r => r.line = l) ||
    (s.syncs.filter (fun r => s.homeOf (lineGpa r.line) = s.homeOf (lineGpa l) && inSlice (lineGpa r.line) = inSlice (lineGpa l))).length < 1024

/-- Earlier stores of the releaser that are not yet acknowledged. -/
def State.unackedBefore (s : State) (a : Access) : List Nat :=
  (s.net.filter (fun b => b.firing = a.firing && b.id < a.id && b.silent && !b.shadow)).map (fun b => b.id)

def State.addSync (s : State) (a : Access) (scope : Nat) : State :=
  let l := lineOf (gpaKey a.gpa)
  if scope ≥ 5 ∨ !s.syncRoom a then s
  else { s with syncs := s.syncs.filter (fun r => r.line ≠ l) ++
    [{ line := l, scope := scope, ctx := a.ctx, device := s.loith.device, firing := a.firing, waits := s.unackedBefore a }] }

/-! ### Performance (R204 to R207, R223, R225) -/

/-- The accesses that share the fate of one: itself, the follower's copy, and reductions merged into it. -/
def State.partnersOf (s : State) (a : Access) : List Nat :=
  a.id :: ((s.shadowOf a).map (fun b => b.id)).toList ++ (s.net.filter (fun b => b.into = some a.id)).map (fun b => b.id)

/-- A store or reduction in the tile itself is done when it is performed (R207), but for one whose context holds for it (R241); the rest await their
acknowledgement. -/
def State.finishAcc (s : State) (a : Access) (r : AccResult) : State :=
  let ids := s.partnersOf a
  if a.reach = 0 ∧ a.silent ∧ (s.ctxOf a.ctx).hold ≠ some a.id then
    (s.dropAcc a.id).updFiring a.firing (fun c => match r with
      | .failed _ n => c.countFailure n
      | .value _ => c)
  else s.resultOf ids r

/-- Count an access at each of its home slices (R101). -/
def State.countAccess (s : State) (a : Access) (misses : List Nat) : State :=
  let at_ := fun (p : Nat × Nat) => misses.filter (fun l => lineOf (gpaKey p.1) ≤ l && l ≤ lineOf (gpaKey p.1 + p.2 - 1))
  match inSlice a.gpa, s.homeOf a.gpa with
  | true, .tile t =>
    let s1 := a.runs.foldl (fun s p => s.countHome a.tag p.1 (at_ p)) s
    match a.kind with
    | .atomic _ => s1.countSlice t a.tag 0x24 1
    | .reduce _ => s1.countSlice t a.tag 0x25 (natOfBool (s.net.any (fun b => b.into = some a.id)))
    | _ => s1
  | _, _ => s

/-- The replies of accesses wait for the fills of lines (R113). -/
def State.awaitFills (s : State) (ids ls : List Nat) : State :=
  if ls.isEmpty then s else { s with net := s.net.map (fun a => if ids.contains a.id && !a.silent then { a with fills := ls } else a) }

/-- What a read returns of the value at its home: a load of a counter of its own core the count before its issue (R420). -/
def Access.valueRead (a : Access) (v : Nat) : Nat := match a.counterOf (coreOfCtx a.ctx) with
  | some _ => a.snap.getD v
  | none => v

/-- An access of this device takes effect at its home. -/
def State.perform (s : State) (a : Access) : State :=
  let w : Writer := { tag := a.tag, level := a.level, ctx := a.ctx }
  let poisoned := a.runs.any s.runPoisoned
  let readBack := fun (s : State) =>
    if poisoned then (s.countAccess a []).finishAcc a (.failed (s.poisonCause a.runs) 0)
    else
      let ms := s.missing a
      let (v, s1) := (s.countAccess a ms).readRuns a.level a.runs
      ((s1.awaitFills (s.partnersOf a) ms).startMisses a.tag ms).finishAcc a (.value (a.valueRead v))
  let write := fun (s : State) =>
    let (s1, bad) := (s.countAccess a (s.missing a)).storeAt a.gpa a.size a.data w a.uncached
    s1.finishAcc a (if bad = 0 then .value 0 else .failed 0 bad)
  let combine := fun (s : State) (op : AmoOp) (fail : Nat) =>
    if poisoned then (s.countAccess a []).finishAcc a (.failed (s.poisonCause a.runs) fail)
    else
      let ms := s.missing a
      let (old, s1) := (s.countAccess a ms).readHome a.gpa a.size a.level
      let (s2, _) := s1.storeAt a.gpa a.size (amoApply op (8 * a.size) old a.data a.data2) w a.uncached
      (s2.awaitFills (s.partnersOf a) ms).finishAcc a (.value old)
  match a.kind with
  | .load => readBack s
  | .acquire sc =>
    if s.syncs.any (fun r => r.line = lineOf (gpaKey a.gpa) && !r.covers sc a.ctx) then s.finishAcc a (.failed .scopeMismatch 0) else readBack s
  | .store =>
    if isDbgAttach a.gpa then
      let (s1, c) := s.attach (dbgPageOf a.gpa) a.ctx (BitVec.ofNat 64 a.data) a.tag
      s1.finishAcc a (match c with
        | some c => .failed c 0
        | none => .value 0)
    else write s
  | .release sc => (write s).addSync a sc
  | .atomic op => combine s op 0
  | .reduce op => combine s op 3
  | .arrival => s

/-- An access can be performed now: it leaves its tile, in order, is not another's copy, and finds room at its home. -/
def State.performable (s : State) (a : Access) : Bool :=
  a.result.isNone && a.into.isNone && !a.shadow && a.kind ≠ .arrival && !(s.bankPaused && a.kind = .store && shareRegister a.gpa) && (a.reach = 0 || !s.masked 0) && !s.accBehind a &&
    !a.runs.any (fun p => s.homeStill p.1 || s.foreign (tileOfCtx a.ctx) p.1) &&
    (a.reach = 0 || (s.partnerOf a).isNone || (s.shadowOf a).isSome) &&
    s.missRoom (s.missing a) &&
    (match a.kind with
     | .release sc => sc ≥ 5 || s.syncRoom a || (s.unackedBefore a).isEmpty
     | _ => true)

/-- The flits of a request of a tile to another place, and of what comes back from it (R101). Each reply counts by itself: the rectangles that replies to a
fill are grouped in show in no other state (R113; DESIGN CHOICE; log 140). -/
def State.countRequest (s : State) (a : Access) : State :=
  if a.reach = 0 then s else s.countFabric (fieldOfCtx a.ctx) 0x40 (Config.flits (match a.kind with
    | .load => 0
    | .acquire _ => 0
    | _ => a.size))
def State.countReply (s : State) (a : Access) : State := match s.homeOf a.gpa with
  | .tile t => if a.reach = 0 then s else s.countFabric (fieldOfTile t) 0x41 (Config.flits (if a.silent then 0 else (a.runs.map (fun p => p.2)).sum))
  | .hub f => s.countFabric f 0x41 (Config.flits (if a.silent then 0 else a.size))
  | .device _ => s

/-- `ACCESS_PERFORMED` (R205). What another device does with an access that has left is that device's, and its answer comes from outside (R75). -/
def execAccessPerformed (s : State) : Out :=
  match s.accOf s.arg.value with
  | none => .next s
  | some a =>
    if !s.performable a then .next s
    else match a.runs.findSome? (fun p => s.wayCause (tileOfCtx a.ctx) p.1) with
      | some c => .next ((s.countFabric (fieldOfCtx a.ctx) 0x45 1).finishAcc a (.failed c 2))
      | none => if a.reach = 3 then .next s else .next ((s.countRequest a).perform a)

/-! ### Replies and acknowledgements (R211, R313, R335) -/

/-- The syndrome of a failed access (R238). -/
def Access.synd (a : Access) (c : Cause) : Nat :=
  match a.kind with
  | .arrival => gpaHub a.gpa * 256 + (gpaHubOff a.gpa - 0x300000) / 0x400
  | k => accSyndrome c k.acc a.size 0

/-- A reply reaches its context: the value is there for its bundle, or the context freezes at it (R313). -/
def State.answer (s : State) (a : Access) (r : AccResult) : State :=
  let c := s.ctxOf a.ctx
  let s1 := s.dropAcc a.id
  if !c.occ ∨ c.firing ≠ a.firing ∨ c.hold ≠ some a.id then s1
  else match r with
    | .value _ => s1.updCtx a.ctx (fun c => { c with reply := some r })
    | .failed cause _ => s1.freeze a.ctx { cause := cause, addr := a.va, synd := a.synd cause }

/-- `ACCESS_REPLY` (R313). For another device the answer comes from outside: the value, or with `flag` the cause `other`. -/
def execAccessReply (s : State) : Out :=
  match s.accOf s.arg.value with
  | none => .next s
  | some a =>
    if (a.silent && (s.ctxOf a.ctx).hold ≠ some a.id) || s.tileStill (tileOfCtx a.ctx) then .next s
    else if a.reach = 3 ∧ a.result.isNone then
      (.next (s.answer a (if s.arg.flag then .failed (s.arg.other % 256) 0 else .value (s.arg.list.headD 0))))
    else match a.result with
      | some r => if a.fills = [] ∧ s.wayBack a then .next ((s.countReply a).answer a r) else .next s
      | none => .next s

/-- A load or atomic to another device has had no reply for 10 ms (R313, R335). -/
def State.respLate (s : State) (a : Access) : Bool :=
  a.reach = 3 && a.result.isNone && !(a.silent && (s.ctxOf a.ctx).hold ≠ some a.id) && decide (a.since + 10000000 ≤ s.rtime)

/-- `RESP_TIMEOUT` (R313). -/
def execRespTimeout (s : State) : Out :=
  match s.accOf s.arg.value with
  | none => .next s
  | some a => if s.respLate a then .next (s.answer a (.failed .respTimeout 0)) else .next s

/-- `STORE_ACK` (R187, R211): UNACK falls and a failure is counted. Another device's answer comes from outside: with `flag` a failure that counts in
FSTAT field `other`. -/
def execStoreAck (s : State) : Out :=
  match s.accOf s.arg.value with
  | none => .next s
  | some a =>
    let done := fun (r : AccResult) =>
      let s1 := ((s.countReply a).dropAcc a.id).updFiring a.firing (fun c => (c.unackDown a.reach).countFailure (match r with
        | .failed _ n => n
        | .value _ => 0))
      Host.Outcome.next (s1.finishKills a.firing)
    if !a.silent ∨ (s.ctxOf a.ctx).hold = some a.id ∨ s.tileStill (tileOfCtx a.ctx) then .next s
    else if a.reach = 3 ∧ a.result.isNone then done (if s.arg.flag then .failed 0 (s.arg.other % 4) else .value 0)
    else match a.result with
      | some r => if s.wayBack a then done r else .next s
      | none => .next s

/-! ### Line fills (R113), page walks (R119, R121), sync records (R216) -/

/-- `SLICE_FILL`: line `value` arrives at its slice, over a way that is free (R36); every reader that merged into its miss may be answered (R113). -/
def execSliceFill (s : State) : Out :=
  let l := s.arg.value
  match s.misses.find? l with
  | none => .next s
  | some m => if s.homeStill (lineGpa l) || !s.fillWay (lineGpa l) then .next s else .next (({ s with cached := s.cached.put l m.tag } : State).endMiss l)

/-- The kind of access of a code of R238. -/
def accOfCode (n : Nat) : Acc := match n with
  | 0 => .read
  | 1 => .write
  | 2 => .fetch
  | _ => .atomic

/-- `PAGE_WALK`: a walker ends a walk of VA `addr` for core `unit`, tag `tag` and access kind `level` (R119, R121). A walk that faults fills nothing; its
fault is raised at the access. A full unit forgets its oldest entry (log 28). -/
def execPageWalk (s : State) : Out :=
  let k := s.arg.unit
  let f := fieldOfTile (tileOfCore k)
  let va := s.arg.addr
  let tag := s.arg.tag
  match s.partOfTag tag with
  | none => .next s
  | some p =>
    let root := (s.hubOf f).troots.get 0 p
    if !bitAt root 0 ∨ va / 2 ^ 60 ≠ 0 then .next s
    else match s.walk va tag (accOfCode s.arg.level) 4 (bitsAt root 63 16) 3 with
      | .error _ => .next s
      | .ok (e, lvl) =>
        let tile := if e.kind = 4 then s.resolveLogical tag e else .ok (some 0)
        match tile with
        | .ok (some t) =>
          let x : TlbEntry := { tag := tag, va := va / 2 ^ levelShift lvl * 2 ^ levelShift lvl, level := lvl, pte := e.raw, tile := t }
          let keep := fun (n : Nat) (l : List TlbEntry) => if l.contains x then l else (l ++ [x]).drop (l.length + 1 - n)
          .next ((s.updHub f (fun h => { h with tlb := keep 32768 h.tlb })).updCore k (fun c => { c with utlb := keep 64 c.utlb }))
        | _ => .next s

/-- The releaser's earlier stores of a record are all acknowledged. -/
def State.syncClear (s : State) (r : SyncRec) : Bool := r.waits.all (fun id => (s.accOf id).isNone)

/-- `SYNC_RECORD_CLEAR` of line `value` (R216). -/
def execSyncRecordClear (s : State) : Out :=
  .next { s with syncs := s.syncs.filter (fun r => r.line ≠ s.arg.value || !s.syncClear r) }

/-! ### Streams (R189 to R193) -/

/-- The machine as a stream's own accesses see it: its firing's tag and level in the slot that bound it, in short mode. -/
def State.streamView (s : State) (t : Stream) : State :=
  { s.updCtx t.ctx (fun c => { c with tag := t.tag, level := t.level, long := false }) with cur := t.ctx }

/-- Every access that the firing made before `str.bind` has been performed (R193). -/
def State.streamOpen (s : State) (t : Stream) : Bool :=
  !s.net.any (fun a => a.firing = t.firing && a.id < t.since && a.result.isNone)

/-- The value of an input step of stream n, or its fault with the syndrome (R238); none when it waits (R192). What a doubles pair reads is compared (R46). -/
def State.inputStep (s : State) (core n : Nat) (t : Stream) : Option (Except (Cause × Nat) Nat × State) :=
  let a := t.addr t.fetched
  let v := s.streamView t
  if t.typed then
    match v.typedPlan t.ctx a (lanesOf false t.lane) t.lane 32 false with
    | .error .wait => none
    | .error (.bad c _ y) => some (.error (c, y), s)
    | .ok p =>
      let runs := p.pieces.map (fun q => (q.gpa, q.len))
      match s.runsWay (tileOfCore core) runs with
      | .error none => none
      | .error (some c) => some (.error (c, accSyndrome c .read (runs.map (fun q => q.2)).sum 0), s)
      | .ok _ =>
      if runs.any s.runPoisoned then some (.error (s.poisonCause runs, accSyndrome (s.poisonCause runs) .read (runs.map (fun q => q.2)).sum 0), s)
      else
        let (x0, s0) := (s.noteReads (tileOfCore core) t.tag runs (p.pieces.any (fun q => q.pte.kind ≠ 0))).readRuns t.level runs
        let (x, s1) := s0.pairRuns t.firing (2 * n + 2) (tileOfCore core) runs x0
        some (.ok (if p.fmt = 0 then x else packLanes (laneBits t.lane) (typedLanes p (s.coreOf core).lut t.lane (lanesOf false t.lane) x)), s1)
  else match v.checkAccess t.ctx a 32 32 .read true with
    | .wait => none
    | .bad c y => some (.error (c, y), s)
    | .ok g e =>
      match s.runsWay (tileOfCore core) [(g, 32)] with
      | .error none => none
      | .error (some c) => some (.error (c, accSyndrome c .read 32 0), s)
      | .ok _ =>
      if s.runPoisoned (g, 32) then some (.error (s.poisonCause [(g, 32)], accSyndrome (s.poisonCause [(g, 32)]) .read 32 0), s)
      else
        let (x0, s0) := (s.noteReads (tileOfCore core) t.tag [(g, 32)] (decide (e.kind ≠ 0))).readRuns t.level [(g, 32)]
        let (x, s1) := s0.pairRuns t.firing (2 * n + 2) (tileOfCore core) [(g, 32)] x0
        some (.ok x, s1)

/-- `STREAM_INPUT_FILL` of stream `other` of core `unit` (R191, R192). -/
def execStreamInputFill (s : State) : Out :=
  let k := s.arg.unit
  let n := s.arg.other
  let t := (s.coreOf k).streamAt n
  let put := fun (t : Stream) (s : State) => s.updCore k (fun c => { c with streams := c.streams.put n t })
  if s.tileStill (tileOfCore k) ∨ !t.bound ∨ t.output ∨ t.fault.isSome ∨ t.fifo.length ≥ 8 ∨ t.fetched ≥ t.total ∨ !s.streamOpen t then .next s
  else match s.inputStep k n t with
    | none => .next s
    | some (.error (c, y), s1) => .next (put { t with fault := some (c, t.addr t.fetched), faultSynd := y } s1)
    | some (.ok v, s1) => .next (put { t with fifo := t.fifo ++ [BitVec.ofNat 256 v], fetched := t.fetched + 1 } s1)

/-- The pieces of a stream's step leave as stores of the binding firing (R193). -/
def State.streamPieces (s : State) (core n : Nat) (t : Stream) : List (Nat × Nat × Nat) → Nat → State
  | [], _ => s
  | (va, g, len) :: ps, data =>
    let reach := State.reachOf (tileOfCore core) (s.homeOf g)
    let a : Access := { id := s.nextAcc, kind := .store, ctx := t.ctx, firing := t.firing, va := va, gpa := g, size := len, data := data % 2 ^ (8 * len),
                        tag := t.tag, level := t.level, reach := reach, cyc := s.cycOf (fieldOfTile (tileOfCore core)), since := s.rtime,
                        uncached := s.uncachedAt core t.tag va .write, stream := some (4 * core + n),
                        pairOf := t.pairOf, shadow := t.pairOf.isSome && tileX (tileOfCore core) % 2 = 1 && reach ≠ 0 }
    let s1 := ((({ s with net := s.net ++ [a], nextAcc := s.nextAcc + 1 } : State).updFiring t.firing (fun c => c.unackUp reach)).countCore core
      (some (t.ctx % 8)) 0x0B (if reach = 0 then 0 else 1))
    s1.streamPieces core n t ps (data / 2 ^ (8 * len))

/-- UNACK of a firing has room for one more store of a reach (R187). -/
def State.unackRoom (s : State) (ctx : Nat) (firing reach : Nat) : Bool :=
  let c := s.ctxOf ctx
  reach = 0 || c.firing ≠ firing || c.unackAt reach < 65535

/-- `STREAM_OUTPUT_STORE` of stream `other` of core `unit` (R191 to R193). -/
def execStreamOutputStore (s : State) : Out :=
  let k := s.arg.unit
  let n := s.arg.other
  let t := (s.coreOf k).streamAt n
  match t.bound && t.output && s.streamOpen t && !s.tileStill (tileOfCore k), t.outs with
  | true, (ps, b) :: rest =>
    let next := s.updCore k (fun c => { c with streams := c.streams.put n { t with fifo := t.fifo.drop 1, outs := rest, fetched := t.fetched + 1 } })
    let runs := s.homeCuts ps
    if runs.all (fun r => s.unackRoom t.ctx t.firing (State.reachOf (tileOfCore k) (s.homeOf r.2.1))) then .next ((next.streamPieces k n t runs b).finishKills t.firing)
    else .next s
  | _, _ => .next s

/-! ### Barriers at the hub (R228 to R231) -/

/-- `BARRIER_ARRIVAL` of the arrival numbered `value` (R228). Arrivals from a field in relock come after it (R231). -/
def execBarrierArrival (s : State) : Out :=
  match s.accOf s.arg.value with
  | none => .next s
  | some a =>
    let src := tileOfCtx a.ctx
    if a.kind ≠ .arrival ∨ a.result.isSome ∨ s.masked 0 ∨ (s.hubOf (fieldOfTile src)).locking.isSome then .next s
    else
      let f := gpaHub a.gpa
      match s.wayCause src a.gpa with
      | some c => .next (s.resultOf [a.id] (.failed c 0))
      | none => if a.reach = 3 then .next s else
        let (r, s1) := s.arrive f ((gpaHubOff a.gpa - 0x300000) / 0x400) a.data2 a.data a.tag (fieldOfTile src)
        match r with
        | .ply p => .next (s1.resultOf [a.id] (.value p))
        | .bad c => .next (s1.resultOf [a.id] (.failed c 0))
        | .refused => .next ((s1.dropAcc a.id).updCtx a.ctx (fun c =>
            if c.hold = some a.id then
              { c with hold := none, refusedArr := true, stall := if c.refusedArr then c.stall.map (fun p => (p.1, Cause.waitBar)) else some (s.rtime, Cause.waitBar) }
            else c))

/-- `BARRIER_TIMEOUT`: the check, once per microsecond, of barrier `other` of field `unit` (R231). -/
def execBarrierTimeout (s : State) : Out :=
  if (s.barAt s.arg.unit s.arg.other).valid then .next (State.tryComplete s.arg.unit s.arg.other 4 s) else .next s

/-- A ply of a barrier completes by its timeout now. -/
def State.plyLate (s : State) (f b : Nat) : Bool :=
  let o := s.barAt f b
  o.valid && (o.oldestStatus s.rtime).isSome

/-! ### Uncorrectable errors (R247) -/

/-- Mark a line poisoned. -/
def State.poisonLine (s : State) (l : Nat) : State := if s.poison.contains l then s else { s with poison := s.poison ++ [l] }

/-- `UE_DETECT` at the place that `level` names (R247):
0, line `addr` of this device, in its slice with `flag`: the next access that reads it is the one that detects the error;
1, the same, found by no access;
2, lines `list` of the image of context `unit`, or with `flag` of entry `other` of the park area of core `unit`;
3, accumulator or buffer `other` of the engine of tile `unit`;
4, message `value` in the hardware part of port `addr` of actor `other` of core `unit`;
5, state of hub `unit`: barrier `other`, or with `flag` launch `value`, whose items that no core has taken fail;
6, a router, a clock or a core: the code `other` and, for a core, its number `value`;
7, message `value` in a hold buffer of the routers of field `unit`. -/
def execUeDetect (s : State) : Out :=
  let a := s.arg
  match a.level with
  | 0 => if s.poison.contains a.addr then .next s else .next { s.poisonLine a.addr with latent := some (a.addr, a.flag) }
  | 1 => .next (s.poisonLine a.addr)
  | 2 =>
    let lines := a.list.filter (· < 16)
    let synd := (lines.map (2 ^ ·)).sum
    let mark := fun (c : Ctx) => { c with ueLines := (c.ueLines ++ lines.map (256 * ·)).eraseDups }
    if lines = [] then .next s
    else if a.flag then
      (match (s.coreOf a.unit).parked.find? a.other with
       | none => .next s
       | some c => .next ((s.updCore a.unit (fun k => { k with parked := k.parked.put a.other { (mark c).frozen Cause.ueRegcache with haltAt := s.rtime } })).postFreeze
           c.slot c .ueRegcache false false 0 synd))
    else if !(s.ctxOf a.unit).occ ∨ (s.ctxOf a.unit).killed ≠ 0 then .next s
    else .next ((s.updCtx a.unit mark).freeze a.unit { cause := .ueRegcache, synd := synd })
  | 3 =>
    .next (s.updTile a.unit (fun t =>
      let bit := BitVec.ofNat 4 (2 ^ (a.other % 4))
      let mark := fun (e : Engine) => if tileKind a.unit = 0 then { e with pois := e.pois ||| bit, wrote := e.wrote.put (a.other % 4) 0 }
        else if tileKind a.unit = 2 then { e with attPois := e.attPois ||| bit, wrote := e.wrote.put (a.other % 4) 0 } else e
      { t with eng := mark t.eng, engShown := t.engShown.map mark }))
  | 4 =>
    let q := ((s.coreOf a.unit).actorAt a.other).portAt a.addr
    (match q.hwPart[a.value]? with
     | none => .next s
     | some m => .next ((s.updPort a.unit a.other a.addr (fun q => (Port.refill { q with hwPart := setAt q.hwPart a.value none }).settled s.mem a.unit)).bounceAt m Cause.uePort a.unit))
  | 5 =>
    let o := s.barAt a.unit a.other
    if a.flag then .next (s.failLaunch a.value Cause.ueHub)
    else if !o.valid then .next s
    else
      let s1 := (List.range 4).foldl (fun s i => s.releaseWaiters a.unit a.other ((o.oldest + i) % 2 ^ 32) plyAbort) s
      .next (s1.updBar a.unit a.other (fun _ => {}))
  | 6 =>
    if 0xAB ≤ a.other ∧ a.other ≤ 0xAE then .next ((if a.other = 0xAB then s.retestCore a.value else s).report (a.unit % 90) a.other 0 []) else .next s
  | 7 =>
    (match (s.hubOf a.unit).heldRsp[a.value]? with
     | none => .next s
     | some m => .next ((s.updHub a.unit (fun h => { h with heldRsp := h.heldRsp.take a.value ++ h.heldRsp.drop (a.value + 1) })).bounceAt m Cause.uePort m.core))
  | _ => .next s

end Sys2Proof.Machine
end

