-- ==== Sys2Proof/Machine/OpRun.lean ====
section
/-! DEFINITION. Operations after their issue: pieces, suspension, failed items, offload to Fjoval chips, deliveries, completion and dormant starts:
R41, R222, R229, R244, R245, R392 to R404. An event names the tile in `arg.unit` and the slot in `arg.other`. -/

namespace Sys2Proof.Machine

/-! ### How a piece ends -/

/-- Why an item is not done: the operation is suspended (R244), the item fails, it waits, or it must be sent to a chip (R400). -/
inductive OpStop where
  | suspend (cause addr synd : Nat)
  | fail (cause : Nat)
  /-- The item fails, and what reached its place before, `bytes` of it, stands in a state. -/
  | part (cause bytes : Nat) (s : State)
  | wait
  | offload
  /-- The partner's writes differ: these stay to be compared (R47). -/
  | differ (l : List (Nat × Nat × Nat))
  deriving DecidableEq, Repr

/-- Causes that suspend, and causes that fail the item (R244). -/
def opStop (c addr synd : Nat) : OpStop := if (0x10 ≤ c ∧ c ≤ 0x1F) ∨ (0xA0 ≤ c ∧ c ≤ 0xA7) then .suspend c addr synd else .fail c

/-- The channel on which the reads of an operation of a doubles pair are compared; its writes have the next (R46). -/
def Op.pairChan (o : Op) : Nat := 2 * (5 + o.ord)

/-- The machine as an operation's own accesses see it: its tag and level, as at its issue. -/
def State.opView (s : State) (t : Nat) (o : Op) : State :=
  let i := 16 * t + 8 * o.core + o.ctx
  { s.updCtx i (fun c => { c with tag := o.tag, level := o.level, firing := o.firing, act := o.act, pool := o.pool, task := o.task, long := false }) with cur := i }

/-- Pieces of a run for an operation: translated, checked, reachable. -/
def State.opMap (s : State) (t : Nat) (o : Op) (va n : Nat) (acc : Acc) : Except OpStop (List Piece) :=
  let v := (s.opView t o).fieldView (2 * t + o.core)
  match v.mapRange v.cur va n acc 1 with
  | .error .wait => .error .wait
  | .error (.bad c a y) => .error (opStop c a y)
  | .ok ps =>
    match s.runsWay t (ps.map (fun p => (p.gpa, p.len))) 3 with
    | .error none => .error .wait
    | .error (some c) => .error (.fail c)
    | .ok _ => .ok ps

/-- A run of bytes that an operation reads: its value and its first piece; poison suspends (R244, R398). -/
def State.opRead (s : State) (t : Nat) (o : Op) (va n : Nat) : Except OpStop (Nat × List Piece × State) :=
  match s.opMap t o va n .read with
  | .error e => .error e
  | .ok ps =>
    let runs := ps.map (fun p => (p.gpa, p.len))
    if runs.any s.runPoisoned then
      let c := s.poisonCause runs
      .error (.suspend c va (accSyndrome c .read 1 0))
    else
      let (v0, s0) := (s.noteReads t o.tag runs (ps.any (fun p => p.pte.kind ≠ 0))).readRuns o.level runs
      let (v, s1) := s0.pairRuns o.firing (o.pairChan) t runs v0
      .ok (v, ps, s1)

/-- A run lies on the capacity tier of this device. -/
def State.onTier (s : State) (ps : List Piece) : Bool := ps.any (fun p => s.gpaLocal p.gpa && gpaSpace p.gpa = 2)

/-- Some poisoned line is written in part: the write would be dropped (R125, R398). -/
def State.partPoisoned (s : State) (g n : Nat) : Bool :=
  s.gpaLocal g && (linesOf g n).any (fun l => s.poison.contains l && !(gpaKey g ≤ 128 * l && 128 * l + 128 ≤ gpaKey g + n))

/-- Write pieces at the places that `here` names, with whether one of them was refused there (R107) and the bytes that were not. What goes to another
device leaves the machine. -/
def State.opWriteGo (w : Writer) (here : Piece → Bool) (s : State) : List Piece → Nat → State × Bool × Nat
  | [], _ => (s, false, 0)
  | p :: ps, v =>
    if !s.gpaLocal p.gpa || !here p then State.opWriteGo w here s ps (v / 2 ^ (8 * p.len))
    else
      let (s1, bad) := s.storeAt p.gpa p.len (v % 2 ^ (8 * p.len)) w (decide (p.pte.kind ≠ 0))
      let (s2, more, n) := State.opWriteGo w here s1 ps (v / 2 ^ (8 * p.len))
      (s2, decide (bad ≠ 0) || more, if bad ≠ 0 then n else n + p.len)

/-- A write of an operation's item has left for another device (R229). -/
def State.markAway (s : State) (t : Nat) (o : Op) : State :=
  s.updTile t (fun t => { t with ops := t.ops.map (fun (e : Nat × Op) => (e.1, if e.2.seq = o.seq then { e.2 with away := true } else e.2)) })

/-- Write the pieces of one item: none where a poisoned line would be written in part; a write that an image or an engine discards fails its bytes and
counts as refused for permission with its firing (R107, R394, R398). -/
def State.opWrite (s : State) (t : Nat) (o : Op) (ps : List Piece) (v : Nat) : Except OpStop State :=
  if ps.any (fun p => s.partPoisoned p.gpa p.len) then .error (.fail Cause.linePoison)
  else
    let r := State.opWriteGo { tag := o.tag, level := o.level, ctx := 16 * t + 8 * o.core + o.ctx } (fun p => !o.shadow || s.homeOf p.gpa = .tile t) s ps v
    if r.2.1 then .error (.part Cause.cpWindow r.2.2 (r.1.updFiring o.firing (fun c => c.countFailure 1)))
    else .ok (if ps.any (fun p => !s.gpaLocal p.gpa) then r.1.markAway t o else r.1)

/-- The packets of a write: the pieces that leave the tile, with their bytes. -/
def State.writePackets (s : State) (t : Nat) : List Piece → Nat → List (Nat × Nat × Nat)
  | [], _ => []
  | p :: ps, v => (if s.leavesTile t p.gpa then [(p.gpa, p.len, v % 2 ^ (8 * p.len))] else []) ++ s.writePackets t ps (v / 2 ^ (8 * p.len))

/-- Write the pieces of an item. In a doubles pair the follower's packets stay for the comparison, and the leader's leave with them once they are there and
equal (R46, R47). -/
def State.opPut (s : State) (t : Nat) (o : Op) (ps : List Piece) (v : Nat) : Except OpStop State :=
  let mine := s.writePackets t ps v
  let ch := o.pairChan + 1
  if (s.mates o.firing).isNone then s.opWrite t o ps v
  else if o.shadow then (match s.opWrite t o ps v with
    | .ok s1 => .ok (mine.foldl (State.pairPost o.firing ch) s1)
    | e => e)
  else
    let theirs := (s.mateReads o.firing ch).take mine.length
    if theirs ≠ mine.take theirs.length then .error (.differ mine)
    else if theirs.length < mine.length then .error .wait
    else (mine.foldl (State.pairPost o.firing ch) s).opWrite t o ps v

/-! ### Shapes -/

/-- The number of items of an operation (R397, R401, R403, R404). -/
def Op.total (o : Op) : Nat :=
  let d := o.desc
  match o.kind with
  | 4 => embBags d
  | 5 => let c := copyShape d
         c.n0 * c.n1 * c.n2
  | 6 => let m := mcastShape d
         m.n0 * m.n1
  | _ => bitsOf (d.getD 3 0) 31 0

/-- The item at the cursor: what it did and how many items it was, or why it is not done. -/
abbrev OpItem := Except OpStop (State × Nat × Nat)

/-! ### Gathers and scatters (R397, R398) -/

/-- One row: source and destination runs. -/
def State.moveRow (s : State) (t : Nat) (o : Op) (src dst n : Nat) (sent : Bool) : OpItem :=
  let first := if o.kind = 3 then s.opMap t o dst n .write else .ok []
  match first with
  | .error e => .error e
  | .ok _ => match s.opRead t o src n with
    | .error e => .error e
    | .ok (v, sp, s1) => match s1.opMap t o dst n .write with
      | .error e => .error e
      | .ok dp =>
        if !sent ∧ (s.onTier sp ∨ s.onTier dp) then .error .offload
        else match s1.opPut t o dp v with
          | .error e => .error e
          | .ok s2 => .ok (s2, 1, n)

/-- One item of `gath`, `gath.ix` or `scat` (R397). -/
def State.gathItem (s : State) (t : Nat) (o : Op) (sent : Bool) : OpItem :=
  let d := o.desc
  let j := o.cursor
  let iw := if bitsOf (d.getD 0 0) 63 60 = 1 then 8 else 4
  let nrows := bitsOf (d.getD 3 0) 63 32
  let spitch := bitsOf (d.getD 4 0) 63 40
  let dpitch := bitsOf (d.getD 4 0) 39 16
  let rowb := bitsOf (d.getD 4 0) 15 0
  let src := descVa (d.getD 0 0)
  let dst := descVa (d.getD 2 0)
  match s.opRead t o (descVa (d.getD 1 0) + iw * j) iw with
  | .error e => .error e
  | .ok (x, _, s1) =>
    match o.kind with
    | 1 => if x ≥ nrows then .error (.fail Cause.indexRange) else s1.moveRow t o (src + x * spitch) (dst + j * dpitch) rowb sent
    | 2 =>
      let bl := 2 ^ bitsOf (d.getD 1 0) 63 60
      if x / bl ≥ nrows then .error (.fail Cause.indexRange)
      else (match s1.opRead t o (descVa (d.getD 5 0) + 4 * (x / bl)) 4 with
        | .error e => .error e
        | .ok (e, _, s2) =>
          if e = 0xFFFFFFFF then .error (.fail Cause.indexRange)
          else s2.moveRow t o (src + (e * bl + x % bl) * spitch) (dst + j * dpitch) rowb sent)
    | _ => if x ≥ nrows then .error (.fail Cause.indexRange) else s1.moveRow t o (src + j * spitch) (dst + x * dpitch) rowb sent

/-! ### Embedding bags (R401, R402) -/

/-- The rank of the owner of a row: the issuing tile 0, Fjoval chip c 1 + c; none where a row has no owner (R402). -/
def State.rowRank (s : State) (ps : List Piece) : Option Nat :=
  match ps.map (fun p => if !s.gpaLocal p.gpa then none else if gpaSpace p.gpa = 2 then
      (let a := (s.chipOf (gpaOffset p.gpa)).1
       if (s.chipOf (gpaOffset p.gpa + p.len - 1)).1 = a then some (1 + a) else none)
    else if gpaSpace p.gpa = 3 then none else some 0) with
  | [] => none
  | r :: rs => if rs.all (· = r) then r else none

/-- The values of a row as FP32 codes (R402). -/
def rowValues (fmt geo dim v : Nat) : List Nat :=
  let noLut : Nat → Int := fun _ => 0
  (List.range dim).map (fun d =>
    let code := if geo = 1 then v / 2 ^ (8 * (d / 32 * 33 + 1 + d % 32)) % 256 else v / 2 ^ (fmtBits fmt * d) % 2 ^ fmtBits fmt
    let scale := if geo = 1 then v / 2 ^ (8 * (d / 32 * 33)) % 256 else 127
    roundS (scaledValue fmt noLut scale code))

/-- Pool two lists of FP32 codes: maximum, or rounded sum. -/
def poolWith (mx : Bool) (a b : List Nat) : List Nat := (List.zip a b).map (fun p => if mx then maxNumS p.1 p.2 else addS p.1 p.2)

/-- The partial of each owner, after a further sample. -/
def addSample (mx : Bool) (m : KMap (List Nat)) (rank : Nat) (y : List Nat) : KMap (List Nat) :=
  m.put rank (match m.find? rank with
    | some p => poolWith mx p y
    | none => y)

/-- What a table's page may be (R263, R401). -/
def bagFormat (e : Pte) : Option Cause :=
  if e.fmt ≥ 0x0F then some Cause.fmtReserved
  else if e.geo ≥ 4 then some .geoReserved
  else if e.fmt ≠ 1 ∧ (e.fmt < 5 ∨ e.fmt > 9) then some .fmtUnsupported
  else if e.geo > 1 ∨ geoPairBad e.fmt e.geo then some .geoPath
  else none

/-- A row starts inside a packing unit or block, or touches bytes that hold no element (R255). -/
def bagPlacement (e : Pte) (va dim : Nat) : Option Cause :=
  let u := blockSize e.fmt e.geo
  if !startsUnit u va || touchesHole u va (embRowBytes e.fmt e.geo dim) then some .fmtPacking else none

/-- A row of DIM elements at a VA, by the format of its own page (R120): the page's entry, the row's bytes and pieces. -/
def State.bagRow (s : State) (t : Nat) (o : Op) (va dim : Nat) : Except OpStop (Pte × Nat × List Piece × State) :=
  match s.opMap t o va 1 .read with
  | .error e => .error e
  | .ok q =>
    let e := (q.headD ⟨0, 0, ⟨0⟩, va⟩).pte
    match (bagFormat e).or (bagPlacement e va dim) with
    | some c => .error (.fail c)
    | none => match s.opRead t o va (embRowBytes e.fmt e.geo dim) with
      | .error x => .error x
      | .ok (v, ps, s1) => .ok (e, v, ps, s1)

/-- The samples of a bag from position q on, pooled by owner: the partials, and whether a chip holds one. -/
def State.bagSamples (s : State) (t : Nat) (o : Op) (rb : Nat) : Nat → Nat → KMap (List Nat) → Bool → Except OpStop (KMap (List Nat) × Bool × State)
  | 0, _, m, tier => .ok (m, tier, s)
  | n + 1, q, m, tier =>
    let d := o.desc
    let dim := embDim d
    let iw := if bitAt (d.getD 1 0).toNat 60 then 8 else 4
    match s.opRead t o (descVa (d.getD 1 0) + iw * q) iw with
    | .error e => .error e
    | .ok (r, _, s1) =>
      if r ≥ embRows d then .error (.fail Cause.indexRange)
      else match s1.bagRow t o (descVa (d.getD 0 0) + r * rb) dim with
        | .error e => .error e
        | .ok (e, v, ps, s2) =>
          match s.rowRank ps, decodeCause e ps [] with
          | none, _ => .error (.fail Cause.embDesc)
          | _, some c => .error (.fail c)
          | some rank, none =>
            let weight : Except OpStop (Nat × State) := if embMode d = 1 then
                (match s2.opRead t o (descVa (d.getD 3 0) + 4 * q) 4 with
                 | .error e => .error e
                 | .ok (w, _, s3) => .ok (w, s3))
              else .ok (0, s2)
            match weight with
            | .error e => .error e
            | .ok (w, s3) =>
              let vs := rowValues e.fmt e.geo dim v
              let y := if embMode d = 1 then vs.map (mulS w) else vs
              s3.bagSamples t o rb n (q + 1) (addSample (embMode d = 3) m rank y) (tier || s.onTier ps)

/-- One bag (R401, R402). -/
def State.bagItem (s : State) (t : Nat) (o : Op) (sent : Bool) : OpItem :=
  let d := o.desc
  let b := o.cursor
  let dim := embDim d
  match s.opMap t o (descVa (d.getD 0 0)) 1 .read, s.opRead t o (descVa (d.getD 2 0) + 4 * b) 8 with
  | .error e, _ => .error e
  | _, .error e => .error e
  | .ok ts, .ok (offs, _, s1) =>
    let e := (ts.headD ⟨0, 0, ⟨0⟩, 0⟩).pte
    let lo := offs % 2 ^ 32
    let hi := offs / 2 ^ 32
    if hi < lo then .error (.fail Cause.embOffsets)
    else match bagFormat e with
    | some c => .error (.fail c)
    | none => match s1.bagSamples t o (embRowBytes e.fmt e.geo dim) (hi - lo) lo [] false with
      | .error x => .error x
      | .ok (parts, tier, s2) =>
        if tier ∧ !sent then .error .offload
        else
          let mx := decide (embMode d = 3)
          let folded : List Nat := match parts.map (fun p => p.2) with
            | [] => List.replicate dim 0
            | p :: ps => ps.foldl (poolWith mx) p
          let mean := if embMode d = 2 ∧ hi ≠ lo then folded.map (fun x => roundS (XNum.div (fp32.decode x) (XNum.ofInt (hi - lo : Nat)))) else folded
          match s2.opMap t o (descVa (d.getD 4 0) + b * dim * 2) 1 .write with
          | .error x => .error x
          | .ok ps =>
            let f := (ps.headD ⟨0, 0, ⟨0⟩, 0⟩).pte
            if (f.fmt ≠ 5 ∧ f.fmt ≠ 6) ∨ f.geo ≠ 0 then .error (.fail Cause.fmtUnsupported)
            else
              let size := fmtBits f.fmt / 8
              let outs := if f.fmt = 6 then mean.map (fun x => bf16.round (fp32.decode x) .rne) else mean
              match s2.opMap t o (descVa (d.getD 4 0) + b * dim * size) (dim * size) .write with
              | .error x => .error x
              | .ok dp => match s2.opPut t o dp (packLanes (8 * size) outs) with
                | .error x => .error x
                | .ok s3 => .ok (s3, 1, dim * size)

/-! ### Copies (R403, R404) -/

/-- Run and byte of an item, and its destination address (R403). -/
def CopyShape.at_ (c : CopyShape) (item : Nat) (base : Nat) (d1 d2 : Int) : Nat :=
  let r := item / c.n0
  ((base : Int) + ((r % c.n1 : Nat) : Int) * d1 + ((r / c.n1 : Nat) : Int) * d2 + ((item % c.n0 : Nat) : Int)).toNat

/-- The bytes from the cursor of a copy to the end of its run or of the destination's line. -/
def State.copyItem (s : State) (t : Nat) (o : Op) : OpItem :=
  let c := copyShape o.desc
  let dst := c.at_ o.cursor c.dst c.ds1 c.ds2
  let n := min (c.n0 - o.cursor % c.n0) (128 - dst % 128)
  match s.opRead t o (c.at_ o.cursor c.src c.ss1 c.ss2) n with
  | .error e => .error e
  | .ok (v, _, s1) => match s1.opMap t o dst n .write with
    | .error e => .error e
    | .ok dp => match s1.opPut t o dp v with
      | .error e => .error e
      | .ok s2 => .ok (s2, n, n)

/-- The window offset of a byte of a multicast copy, and the bytes that go together. -/
def McastShape.offset (m : McastShape) (item : Nat) : Nat :=
  ((m.off : Int) + ((item / m.n0 : Nat) : Int) * m.ds1 + ((item % m.n0 : Nat) : Int)).toNat
def McastShape.bytes (m : McastShape) (item : Nat) : Nat := min (m.n0 - item % m.n0) (128 - m.offset item % 128)

/-- The destinations of a multicast copy that the source has not cleared (R41). -/
def Op.mcastTiles (o : Op) : List (Nat × Nat) := if o.kind ≠ 6 then [] else (mcastShape o.desc).tiles.filter (fun p => !o.gone.contains p.1)

/-- Those of them that are dark or retired now, by mask bit (R41, R404). -/
def State.mcastDark (s : State) (o : Op) : List Nat := (o.mcastTiles.filter (fun p => s.tileDark p.2)).map (fun p => p.1)

/-- The branch of a dimension-order tree to a tile is whole: no override applies to it (R36, R41). -/
def State.branchWhole (s : State) (dest : Nat) : Nat → Nat → Bool
  | 0, _ => false
  | n + 1, t => match defaultPort t dest with
    | 4 => s.routerUp t
    | d => s.linkUp t d && s.branchWhole dest n (stepTile t d)

/-- Why a multicast copy does not reach a live destination: by the tree where all of it is whole, else each by its own unicast (R41). -/
def State.mcastWay (s : State) (t : Nat) (live : List Nat) (u : Nat) : Option Cause :=
  if u = t || live.all (fun v => s.branchWhole v 256 t) then none else s.pathCause t u 3

/-- The bytes from the cursor of a multicast copy, to every live destination; those that the network refuses leave the item failed (R41, R404). -/
def State.mcastItem (s : State) (t : Nat) (o : Op) : OpItem :=
  let m := mcastShape o.desc
  let n := m.bytes o.cursor
  let src := ((m.src : Int) + ((o.cursor / m.n0 : Nat) : Int) * m.ss1 + ((o.cursor % m.n0 : Nat) : Int)).toNat
  let live := o.mcastTiles.map (fun p => p.2)
  if live.any s.tileStill || live.any (fun u => s.foreign t (tileGpa u 0)) || (s.masked 3 && live.any (· ≠ t)) then .error .wait
  else match s.opRead t o src n with
  | .error e => .error e
  | .ok (v, _, s1) =>
    let open_ := live.filter (fun u => (s.mcastWay t live u).isNone)
    let ps : List Piece := open_.map (fun u => ⟨tileGpa u (m.offset o.cursor), n, ⟨0⟩, 0⟩)
    let copies := (List.range open_.length).foldl (fun a i => a + v * 2 ^ (8 * n * i)) 0
    match s1.opPut t o ps copies, live.findSome? (s.mcastWay t live) with
    | .error e, _ => .error e
    | .ok s2, some c => .error (.part c (n * open_.length) s2)
    | .ok s2, none => .ok (s2, n, n * live.length)

/-! ### Progress (R244, R245) -/

/-- The items that fail together with the one at the cursor. -/
def Op.width (o : Op) : Nat :=
  match o.kind with
  | 5 =>
    let c := copyShape o.desc
    min (c.n0 - o.cursor % c.n0) (128 - c.at_ o.cursor c.dst c.ds1 c.ds2 % 128)
  | 6 => (mcastShape o.desc).bytes o.cursor
  | _ => 1

/-- The place that failed items of an operation are grouped by: themselves, or the line of their destination (R403). -/
def Op.group (o : Op) (item : Nat) : Nat :=
  match o.kind with
  | 5 =>
    let c := copyShape o.desc
    c.at_ item c.dst c.ds1 c.ds2 / 128
  | 6 => if item ≥ 2 ^ 63 then item else (mcastShape o.desc).offset item / 128
  | _ => item

/-- `n` items from one on have failed with a cause (R394, R395, R403). -/
def Op.failItems (o : Op) (item n cause : Nat) : Op :=
  let again := (o.kind = 5 ∨ o.kind = 6) ∧ o.errs.any (fun e => o.group e.1 = o.group item)
  { o with failed := o.failed + n, firstCause := if o.failed = 0 then cause else o.firstCause,
           errs := if again ∨ o.errs.length ≥ tailErrs o.desc then o.errs else o.errs ++ [(item, cause)] }

/-- Suspend an operation at its cursor; a packet of kind 3 tells the supervisor (R244). -/
def State.suspendOp (s : State) (t j cause addr synd : Nat) : State :=
  let o := s.opAt t j
  let s1 := s.updOp t j (fun o => { o with state := 2, cause := cause, addr := addr, offload := [] })
  let v := (s1.opView t o).postPacket (16 * t + 8 * o.core + o.ctx) 3 cause false j o.pc addr synd o.cursor
  { v with ctxs := s.ctxs, cur := s.cur, latent := if 0xA0 ≤ cause ∧ cause ≤ 0xA7 then none else s.latent }

/-- At most four copies of a field run, in issue order (R403). -/
def State.copyTurn (s : State) (t : Nat) (o : Op) : Bool :=
  (o.kind ≠ 5 && o.kind ≠ 6) ||
    ((s.tiles.filter (fun e => fieldOfTile e.1 = fieldOfTile t)).map (fun e =>
      (e.2.ops.filter (fun p => p.2.state = 1 && (p.2.kind = 5 || p.2.kind = 6) && p.2.seq < o.seq && p.2.cursor < p.2.total)).length)).sum < 4

/-- Do the item at the cursor. `sent` says that the chips it needs have answered. -/
def State.opItem (s : State) (t : Nat) (o : Op) (sent : Bool) : OpItem :=
  match o.kind with
  | 4 => s.bagItem t o sent
  | 5 => s.copyItem t o
  | 6 => s.mcastItem t o
  | _ => s.gathItem t o sent

/-- The item at the cursor fails, and the cursor passes it. -/
def State.failOp (s : State) (t j cause : Nat) : State :=
  s.updOp t j (fun o => { o.failItems o.cursor o.width cause with cursor := o.cursor + o.width, offload := [] })

/-- The operation in a slot accounts for `n` performed bytes at its barrier (R229): one of a doubles follower does not, its leader's does (R46). -/
def State.opDeliver (s : State) (t j n : Nat) : Option Cause × State :=
  let o := s.opAt t j
  let r := tailRef o.desc
  if tailDelivers o.desc && !o.shadow then s.deliver (r / 256) (r % 256) (tailPly o.desc) n o.tag else (none, s)

/-- The item at the cursor is done, and the cursor passes it. -/
def Op.passItem (o : Op) (n : Nat) : Op := { o with cursor := o.cursor + n, okItems := o.okItems + n, offload := [] }

/-- Take the outcome of an item: its writes, its delivery and the cursor's move are one (R229, R245). What goes to another device is performed there before
it is delivered (DEDUCED; log 141). -/
def State.takeItem (s : State) (t j : Nat) (r : OpItem) : State :=
  match r with
  | .ok (s1, n, bytes) =>
    let o := s1.opAt t j
    if o.away && tailDelivers o.desc && !o.shadow then s1.updOp t j (fun o => { o with deliv := [(o.cursor, bytes)], away := false, offload := [] })
    else match s1.opDeliver t j bytes with
      | (none, s2) => s2.updOp t j (fun o => { o.passItem n with away := false })
      | (some c, s2) => s2.failOp t j c
  | .error (.suspend c a y) => s.suspendOp t j c a y
  | .error (.fail c) => s.failOp t j c
  | .error (.part c n s1) => (s1.opDeliver t j n).2.failOp t j c
  | .error .wait => s
  | .error (.differ l) => l.foldl (State.pairPost (s.opAt t j).firing ((s.opAt t j).pairChan + 1)) s
  | .error .offload => s.updOp t j (fun o => { o with offload := [(o.cursor, 1, s.rtime)] })

/-- An item's outcome is a failure that its agents raise: in a relock of the issuing tile's field nothing else of it comes about (R252;
DEDUCED; log 123). -/
def OpItem.fails : OpItem → Bool
  | .error (.suspend _ _ _) => true
  | .error (.fail _) => true
  | _ => false

/-- `OPERATION_PIECE` (R398): the item at the cursor, or the bytes up to the next line. -/
def execOperationPiece (s : State) : Out :=
  let t := s.arg.unit
  let j := s.arg.other
  let o := s.opAt t j
  if o.state ≠ 1 ∨ o.cursor ≥ o.total ∨ o.offload ≠ [] ∨ o.deliv ≠ [] ∨ !s.copyTurn t o then .next s
  else
    let dark := s.mcastDark o
    let s1 := if dark = [] then s else s.updOp t j (fun o => dark.foldl (fun o i => { o.failItems (2 ^ 63 + i) 1 Cause.destDark with gone := i :: o.gone }) o)
    let r := s1.opItem t (s1.opAt t j) false
    .next (if s.tileStill t && !OpItem.fails r then s else s1.takeItem t j r)

/-- `OFFLOAD_REPLY`: the chips answer for item `value`; with `flag` one of them refuses (R400). -/
def execOffloadReply (s : State) : Out :=
  let t := s.arg.unit
  let j := s.arg.other
  let o := s.opAt t j
  if o.state ≠ 1 ∨ !o.offload.any (fun e => e.1 = s.arg.value) then .next s
  else if s.arg.flag then .next (s.failOp t j Cause.offloadReject)
  else if s.tileStill t then .next s
  else .next (s.takeItem t j (s.opItem t o true))

/-- A piece has gone 10 ms without an answer (R400). -/
def Op.offloadLate (o : Op) (rtime : Nat) : Bool := o.state = 1 && o.offload.any (fun e => e.2.2 + 10000000 ≤ rtime)

/-- `OFFLOAD_TIMEOUT` (R400). -/
def execOffloadTimeout (s : State) : Out :=
  if (s.opAt s.arg.unit s.arg.other).offloadLate s.rtime then .next (s.failOp s.arg.unit s.arg.other Cause.offloadTimeout) else .next s

/-- The items of a piece that started at an item (R245). -/
def Op.widthAt (o : Op) (item : Nat) : Nat := { o with cursor := item }.width

/-- `BARRIER_DELIVERY`: the write of an item to another device is performed there: its delivery reaches the hub, and the cursor passes it (R229, R231, R245).
A refused delivery fails its item, whose bytes stand. -/
def execBarrierDelivery (s : State) : Out :=
  let t := s.arg.unit
  let j := s.arg.other
  let o := s.opAt t j
  match o.deliv with
  | [] => .next s
  | (item, n) :: rest =>
    let r := tailRef o.desc
    let (c, s1) := s.deliver (r / 256) (r % 256) (tailPly o.desc) n o.tag
    .next (s1.updOp t j (fun o =>
      let w := o.widthAt item
      let o1 := { o with deliv := rest, cursor := item + w }
      match c with
      | none => { o1 with okItems := o.okItems + w }
      | some c => o1.failItems item w c))

/-! ### Completion (R222, R394 to R396) -/

/-- Word 1 of a completion (R395). One stopped by OPCMD or a KILL is PARTIAL, or FAILED with its cursor at zero (R243, R244); FIELD.RESET makes each FAILED
(R85). -/
def Op.outcome (o : Op) (j : Nat) : Nat :=
  let st := if o.stop = Cause.destDark then 1 else if o.stop ≠ 0 then (if o.cursor = 0 then 1 else 2)
    else if o.cursor ≥ o.total ∧ o.failed = 0 then 0 else if o.okItems = 0 then 1 else 2
  let cause := if o.stop ≠ 0 then o.stop else o.firstCause
  st * 2 ^ 62 + (if st = 0 then 0 else cause % 256) * 2 ^ 48 + min 65535 o.failed * 2 ^ 32 + j * 2 ^ 28 + natOfBool o.stlost * 2 ^ 27

/-- The status record as a number, lowest byte first (R394). -/
def Op.record (o : Op) (j rtime : Nat) : Nat :=
  o.outcome j + o.cursor % 2 ^ 64 * 2 ^ 64 + rtime * 2 ^ 128 + o.errs.length * 2 ^ 192 +
    ((o.errs.mapIdx (fun k e => (e.1 % 2 ^ 64 + e.2 % 256 * 2 ^ 64) * 2 ^ (256 + 128 * k))).sum)

/-- Write the status record, unless the write has to wait: a failure is noted in STLOST. -/
def State.writeRecord (s : State) (t j : Nat) : Option State :=
  let o := s.opAt t j
  if tailStat o.desc = 0 then some s
  else
    let n := 32 + 16 * o.errs.length
    let lost := some (s.updOp t j (fun o => { o with stlost := true }))
    match s.opMap t o (tailStat o.desc) n .write with
    | .error .wait => none
    | .error _ => lost
    | .ok ps => match s.opWrite t o ps (o.record j s.rtime) with
      | .ok s1 => some s1
      | .error _ => lost

/-- The slot is free again; CMDERR stays. -/
def State.freeOp (s : State) (t j : Nat) : State := s.updOp t j (fun o => { cmderr := o.cmderr })

/-- The completion of an operation (R392, R395). Its sender capability names the issuing actor, which a pool firing or task is not. -/
def State.completion (s : State) (t j : Nat) (w : Word) : Msg :=
  let o := s.opAt t j
  let core := 2 * t + o.core
  let pool := o.pool || o.task
  let v := s.opView t o
  let scap : Word × Word := if pool then (0, 0) else v.senderCap ((v.core.actorAt o.act).portMask)
  { words := [BitVec.ofNat 64 (w.toNat / 8 * 8 + 3), BitVec.ofNat 64 (o.outcome j), BitVec.ofNat 64 o.cursor, s.rtimeWord], capLo := o.capLo, port := o.dport,
    act := capAct o.capLo, scapLo := scap.1, scapHi := scap.2, tag := o.tag, itime := s.rtime, srcCore := core,
    srcAct := some (if pool then 64 + o.ctx else o.act), firing := o.firing, home := v.homeWord }

/-- Where a completion goes: its port and network (R157, R165), if an actor of this device takes it. -/
def State.completionPort (s : State) (m : Msg) : Option (Nat × Nat × Nat × Nat) :=
  if m.port ≥ 4 then (s.hwTarget m).map (fun r => (r.1, r.2.1, r.2.2.1, 2))
  else (s.capCoreId m.capLo).map (fun k => (k, capAct m.capLo, m.port, portKind (((s.coreFor k (capOwner m.capLo)).actorAt (capAct m.capLo)).portAt m.port).word))

/-- A completion leaves its tile, if it can (R154, R395): toward a full SYS port it waits. -/
def State.sendCompletion (s : State) (t j : Nat) (m : Msg) : State :=
  let core := m.srcCore
  let gone := s.freeOp t j
  if capDev m.capLo ≠ s.loith.device then
    (match s.devicePort (capDev m.capLo), s.edgeTo t (capDev m.capLo) with
     | .ok _, some e => (match s.pathCause t e 2 with
       | some c => gone.bounceAt m c core
       | none => if s.masked 2 then s else gone)
     | .ok _, none => gone
     | .error c, _ => gone.bounceAt m c core)
  else match s.completionPort m with
    | none => gone.bounceAt m Cause.destDark core
    | some (k, a, p, vn) =>
      let n : Msg := { m with core := k, act := a, port := p, vn := vn, dev := s.loith.device, router := some t }
      if s.masked vn then s
      else match s.injectTo { n with capLo := m.capLo } with
        | .wait => s
        | .refused c => gone.bounceAt n c core
        | _ =>
          if vn = 2 then
            (match s.pathCause t (tileOfCore k) 2 with
             | some c => gone.bounceAt n c core
             | none => match (((s.coreFor k (capOwner m.capLo)).actorAt a).portAt p).takeIn n with
             | none => s
             | some _ => match gone.deliverAt k { n with router := none } with
               | some s1 => s1
               | none => s)
          else { gone with flying := gone.flying ++ [n] }

/-- `OPERATION_COMPLETE` (R222, R394, R395): at the end of the writes the status record is written, and the completion leaves once it can. A
dormant start follows at `DORMANT_START`. The follower of a doubles pair sends none: its leader's enters the mesh (R46). -/
def execOperationComplete (s : State) : Out :=
  let t := s.arg.unit
  let j := s.arg.other
  let o := s.opAt t j
  if s.tileStill t then .next s
  else match o.sending with
  | some m => if o.dorm then .next s else .next (s.sendCompletion t j m)
  | none =>
    if o.deliv ≠ [] ∨ !(o.state = 3 ∨ (o.state = 1 ∧ o.cursor ≥ o.total)) then .next s
    else match (s.updOp t j (fun o => { o with state := 3 })).writeRecord t j, (if o.shadow then none else o.word) with
      | none, _ => .next s
      | some s1, none => .next (s1.freeOp t j)
      | some s1, some w =>
        let m := s1.completion t j w
        let s2 := s1.updOp t j (fun o => { o with sending := some m })
        .next (if o.dorm then s2 else s2.sendCompletion t j m)

/-- The firing of a dormant start (R396). -/
def dormantCtx (c : Ctx) (m : Msg) (level : Nat) : Ctx :=
  { x := c.x, v := c.v.put 0 (BitVec.ofNat 256 (vecOfWords m 0)), k := c.k, wid := c.wid, widf := c.widf, grid := c.grid, senderLo := c.senderLo,
    senderHi := c.senderHi, port := 0xE, codelo := c.codelo, codehi := c.codehi, lbase := c.lbase, rm := c.rm, lc := c.lc, perm := c.perm, dead := c.dead,
    pois := c.pois, scope := c.scope, pc := BitVec.ofNat 64 (bitsOf (m.word 0) 47 3 * 8), task := true, cls := 1, tag := capOwner m.capLo, level := level }

/-- `DORMANT_START` of the operation in slot `other` of tile `unit` (R396). -/
def execDormantStart (s : State) : Out :=
  let t := s.arg.unit
  let j := s.arg.other
  let o := s.opAt t j
  match o.sending with
  | none => .next s
  | some m =>
    if !o.dorm ∨ s.tileStill t then .next s
    else if capDev m.capLo ≠ s.loith.device then
      (match s.devicePort (capDev m.capLo) with
       | .ok _ => .next (s.freeOp t j)
       | .error c => .next ((s.freeOp t j).bounceAt m c m.srcCore))
    else match s.injectTo m with
      | .wait => .next s
      | .refused c => .next ((s.freeOp t j).bounceAt m c m.srcCore)
      | .other _ => .next (s.freeOp t j)
      | .core k =>
        let i := 8 * k + o.dctx
        let f := fieldOfTile (tileOfCore k)
        let h := s.hubOf f
        if h.runTag ≠ capOwner m.capLo ∨ h.sw.step ≠ 0 ∨ s.tileStill (tileOfCore k) then .next s
        else if (s.ctxOf i).occ then .next ((s.freeOp t j).bounceAt m Cause.cpDormant k)
        else if !(s.tileOf (tileOfCore k)).powered ∨ (s.tileOf (tileOfCore k)).pwr = 3 then .next (s.queueWake (tileOfCore k) 1)
        else
          let c := dormantCtx (s.ctxOf i) m (if capOwner m.capLo = 0 then 2 else 0)
          let s1 := (s.freeOp t j).startAt i c
          .next (if c.codelo ≤ c.pc ∧ c.pc < c.codehi then s1 else s1.freeze i { cause := .badHandler, synd := (m.word 0).toNat })

end Sys2Proof.Machine
end

