-- ==== Sys2Proof/Machine/Migrate.lean ====
section
/-! DEFINITION. The shuffle and the migration of logical tiles: R65, R73, R86, R124, R148, R164, R175, R176. An event names a migration by its place in the
list, in `arg.value`. -/

namespace Sys2Proof.Machine

/-! ### The map of the shuffle (R73) -/

/-- The tiles in service of a kind in a partition's fields, by field and local index. -/
def State.partTiles (s : State) (fields : List Nat) (kind : Nat) : List Nat :=
  (fields.flatMap fieldTiles).filter (fun t => tileKind t = kind && s.tileServes t)

/-- The period of a partition's shuffle in ns. -/
def Bank.shufNs (b : Bank) (p : Nat) : Nat := 1000 * max 1000 (b.shufPeriod.get 8000 p)

/-- A shuffle step of a partition falls due. -/
def State.shuffleDue (s : State) (p : Nat) : Bool :=
  s.bank.shufEn.get false p && (s.partOf p).valid && decide (s.bank.shufLast.get 0 p + s.bank.shufNs p ≤ s.rtime)

/-- The entry of a logical tile after a rebinding (R171). -/
def cttRebound (w : Word) (tile : Nat) (hold : Bool) : Word :=
  let v := w.toNat
  BitVec.ofNat 64 (2 ^ 63 + natOfBool hold * 2 ^ 62 + bitsAt v 61 38 * 2 ^ 38 + tileY tile * 2 ^ 31 + tileX tile * 2 ^ 24 + (v + 1) % 2 ^ 24)

/-- Write the entry of a logical tile: every interface loses what it held of it (R171, R175). -/
def State.setCtt (s : State) (tag kind idx : Nat) (w : Word) : State :=
  match s.partOfTag tag with
  | none => s
  | some p =>
    let (f, k) := s.cttPlace p kind idx
    s.updHub f (fun h => { h with ctt := h.ctt.put k w, looked := h.looked.drop k })

/-- The interfaces that have looked a logical tile up since its entry last changed (R171). -/
def State.cttLooked (s : State) (tag kind idx : Nat) : List Nat :=
  match s.partOfTag tag with
  | none => []
  | some p =>
    let (f, k) := s.cttPlace p kind idx
    (s.hubOf f).looked.get [] k

/-! ### Hold (R175 step 1) -/

/-- A tag runs in a field, and no world switch of the field is under way. -/
def State.runsIn (s : State) (f tag : Nat) : Bool := (s.hubOf f).runTag = tag && (s.hubOf f).sw.step = 0

/-- A logical tile as one number. -/
def Migration.key (g : Migration) : Nat := g.tag * 2 ^ 16 + g.lkind * 2 ^ 14 + g.lidx

/-- A migration can begin: its partition runs in both fields (R176), and no migration of the same logical tile stands before it in the list. -/
def State.canBegin (s : State) (i : Nat) (g : Migration) : Bool :=
  s.runsIn (fieldOfTile g.oldTile) g.tag && s.runsIn (fieldOfTile g.newTile) g.tag && (s.migrations.take i).all (fun o => o.key ≠ g.key)

/-- Mark the actors of a tag at a tile held, or no longer held. -/
def State.holdActors (s : State) (tile tag : Nat) (held : Bool) : State :=
  [2 * tile, 2 * tile + 1].foldl (fun s k => s.updCore k (fun c =>
    { c with actors := c.actors.map (fun a => (a.1, if a.2.valid && a.2.owner = tag then { a.2 with held := held } else a.2)) })) s

/-- A migration joins the list: at step 1 with its actors held, or at step 0 while its partition is switched out or another migration of its logical
tile goes on. -/
def State.beginMigration (s : State) (g : Migration) : State :=
  if s.canBegin s.migrations.length g then
    ({ s with migrations := s.migrations ++ [{ g with step := 1 }] } : State).holdActors g.oldTile g.tag true
  else { s with migrations := s.migrations ++ [{ g with step := 0 }] }

/-- The migrations of a shuffle step: each logical tile of a kind whose place changes. -/
def State.shuffleKind (s : State) (p k kind : Nat) : List Migration :=
  let q := s.partOf p
  let l := s.partTiles q.fields kind
  let stride := max 1 (s.bank.shufStride.get 1 p)
  (List.range l.length).filterMap (fun i =>
    let w := s.cttEntry q.tag kind i
    let new := l.getD ((i + k * stride) % l.length) 0
    if cttValid w && cttOwner w = q.tag && cttTile w ≠ new then
      some ({ lkind := kind, lidx := i, tag := q.tag, oldTile := cttTile w, newTile := new, shuffle := true } : Migration)
    else none)

/-- `SHUFFLE_STEP` of partition `unit` (R73): a step that finds migrations of the step before unfinished is skipped. -/
def execShuffleStep (s : State) : Out :=
  let p := s.arg.unit
  if !s.shuffleDue p then .next s
  else
    let q := s.partOf p
    let b := s.bank
    let s1 : State := { s with bank := { b with shufLast := b.shufLast.put p s.rtime } }
    if s.migrations.any (fun g => g.shuffle && g.tag = q.tag) then
      let s2 : State := { s1 with bank := { s1.bank with shufSkips := s1.bank.shufSkips.put p (min 127 (b.shufSkips.get 0 p + 1)) } }
      let f := if b.onmirror then 89 else 0
      .next ((s2.report f .shuffleSkip q.tag [p]).reportTo f .shuffleSkip q.tag [p])
    else
      let k := b.shufStep.get 0 p + 1
      let s2 : State := { s1 with bank := { s1.bank with shufStep := s1.bank.shufStep.put p k } }
      .next (((List.range 4).flatMap (s2.shuffleKind p k)).foldl State.beginMigration s2)

/-! ### What moves (R65, R73, R175) -/

/-- What stays with the site of a core: queues toward the network, caches, counters, the rook's record. -/
def Core.atSite (k site : Core) : Core :=
  { k with sendq := site.sendq, utlb := site.utlb, ibuf := site.ibuf, counters := site.counters, last := site.last,
           retired := site.retired, deferrals := site.deferrals, tested := site.tested, hung := site.hung }

/-- What stays with the site of a tile: its power state, rail, limits and slice counters. -/
def Tile.atSite (t site : Tile) : Tile :=
  { t with pwr := site.pwr, rail := site.rail, wake := site.wake, promoted := site.promoted, wakeRefused := site.wakeRefused, gatedAt := site.gatedAt,
           wakingTo := site.wakingTo, idleSince := none, throttled := site.throttled, sliceCounters := site.sliceCounters }

/-- The first address of a tile's local store, and the part of memory that is it, by offset. -/
def storeKey (t : Nat) : Nat := gpaKey (tileGpa t 0)
def storeOf (m : Memory) (t : Nat) : Memory :=
  (m.filter (fun e => storeKey t ≤ e.1 && e.1 < storeKey t + 0x300000)).map (fun e => (e.1 - storeKey t, e.2))
def dropStore (m : Memory) (t : Nat) : Memory := m.filter (fun e => !(storeKey t ≤ e.1 && e.1 < storeKey t + 0x300000))
def putStore (m : Memory) (t : Nat) (d : Memory) : Memory := d.foldl (fun m e => if e.1 < 0x300000 then m.write (storeKey t + e.1) e.2 else m) (dropStore m t)

/-- Firings, operations, accesses and transfers of a tile that must end before its state can leave, and remote stores of a firing that moves parked or frozen
(R124, R148, R164, R175 step 2, R212). -/
def State.tileBusy (s : State) (t tag : Nat) : Bool :=
  let running := fun (c : Ctx) => c.st = 0 || c.st = 3 || c.unFld + c.unWaf + c.unDom ≠ 0
  s.ctxs.any (fun e => tileOfCtx e.1 = t && e.2.occ && e.2.tag = tag && (running e.2 || e.2.hold.isSome)) ||
    [2 * t, 2 * t + 1].any (fun k => (s.coreOf k).parked.any (fun e => e.2.tag = tag && running e.2) || (s.coreOf k).sendq.any (fun q => !q.2.isEmpty)) ||
    s.engBusy t || (s.tileOf t).ops.any (fun o => o.2.state = 1 || o.2.sending.isSome) || s.rings.any (fun r => r.src = t || r.dst = t) ||
    s.net.any (fun a => a.result.isNone && a.runs.any (fun p => s.homeOf p.1 = .tile t && gpaSpace p.1 = 0))

/-- What a tile holds of a tag, as it leaves. -/
def State.imageOfTile (s : State) (t tag : Nat) : Moved :=
  { cores := [(0, s.coreOf (2 * t)), (1, s.coreOf (2 * t + 1))],
    ctxs := (s.ctxs.filter (fun e => tileOfCtx e.1 = t && e.2.occ && e.2.tag = tag)).map (fun e => (e.1 % 16, e.2)),
    tile := s.tileOf t, wait := (s.tileOf t).nextok - s.cycOf (fieldOfTile t), store := storeOf s.mem t,
    dbgs := (s.dbgs.filter (fun e => tileOfCtx e.1 = t)).map (fun e => (e.1 % 16, e.2)) }

/-- Runner t of the launches of a tag becomes runner u. While the state is between tiles the runner is named by its old tile plus 10,800. -/
def State.renameRunner (s : State) (tag t u : Nat) : State :=
  { s with hubs := s.hubs.map (fun e => (e.1, { e.2 with launches := e.2.launches.map (fun l =>
      (l.1, if l.2.tag = tag then { l.2 with runners := l.2.runners.map (fun r => if r = t then u else r), followers := l.2.followers.map (fun r => if r = t then u else r) }
        else l.2)) })) }

/-- A tile whose state has left: the site remains. -/
def State.clearTile (s : State) (t tag : Nat) : State :=
  let s1 : State := { s with ctxs := s.ctxs.map (fun e => (e.1, if tileOfCtx e.1 = t && e.2.occ && e.2.tag = tag then {} else e.2)), mem := dropStore s.mem t,
                             dbgs := s.dbgs.filter (fun e => tileOfCtx e.1 ≠ t) }
  let s2 := [2 * t, 2 * t + 1].foldl (fun s k => s.updCore k (fun c => ({} : Core).atSite c)) s1
  s2.updTile t (fun x => ({} : Tile).atSite x)

/-- Change a migration of the list. -/
def State.setMig (s : State) (i : Nat) (g : Migration) : State := { s with migrations := setAt s.migrations i (some g) }

/-- A page-table leaf of a logical tile is dropped from the field and micro TLBs (R124). -/
def TlbEntry.names (e : TlbEntry) (g : Migration) : Bool :=
  let p : Pte := { raw := e.pte }
  e.tag = g.tag && p.kind = 4 && p.lt = g.lkind * 2 ^ 14 + g.lidx
def State.dropTranslations (s : State) (g : Migration) : State :=
  { s with hubs := s.hubs.map (fun e => (e.1, { e.2 with tlb := e.2.tlb.filter (fun x => !x.names g) })),
           cores := s.cores.map (fun e => (e.1, { e.2 with utlb := e.2.utlb.filter (fun x => !x.names g) })) }

/-- The state of a logical tile leaves its old tile for the copy (R175 steps 3 and 4). -/
def State.takeOut (s : State) (i : Nat) (g : Migration) : State :=
  let image := s.imageOfTile g.oldTile g.tag
  (((s.setMig i { g with step := 4, image := some image }).clearTile g.oldTile g.tag).renameRunner g.tag g.oldTile (g.oldTile + 10800)).dropTranslations g

/-! ### The copy at the new tile (R175 steps 4 and 5) -/

/-- Give a shuffle lease its logical tile, in both bankers. -/
def State.shuffleLease (s : State) (lender borrower count key : Nat) : State :=
  let tie := fun (s : State) (f : Nat) => s.updHub f (fun h => { h with leases := h.leases.map (fun e =>
    (e.1, if e.2.valid && e.2.src = 3 && e.2.forTile.isNone then { e.2 with forTile := some key } else e.2)) })
  tie (tie (s.makeLease lender borrower count 0 3 s.rtime) lender) borrower

/-- The lease of a logical tile into a field (R73). -/
def State.leaseInto (s : State) (f key : Nat) : Option Lease :=
  (List.find? (fun e => e.2.valid && e.2.dir = 1 && e.2.src = 3 && e.2.forTile = some key) (s.hubOf f).leases).map (fun e => e.2)

/-- End the lease of a logical tile everywhere. -/
def State.endTileLease (s : State) (key : Nat) : State :=
  { s with hubs := s.hubs.map (fun e => (e.1, { e.2 with leases := e.2.leases.filter (fun l => !(l.2.valid && l.2.src = 3 && l.2.forTile = some key)) })) }

/-- Both bankers of a lease have room. -/
def State.leaseRoom (s : State) (a b : Nat) : Bool := (s.hubOf a).freeLease.isSome && (s.hubOf b).freeLease.isSome

/-- A holding of h pips goes from a field to another with its logical tile, as a lease from the source banker (R73). The lease that the source had for
the tile ends; what the source's FREE does not cover of it goes on from its lender (log 79). None while a lease is needed and may not arise: in a takeover (R57), or without a free entry. -/
def State.moveHolding (s : State) (src dst h key : Nat) : Option State :=
  if src = dst then some s
  else
    let lent := s.leaseInto src key
    let s1 := s.endTileLease key
    let (from_, n) := match lent with
      | some l => (l.peer, min h (l.count - s.availOf src))
      | none => (src, h)
    let lend := fun (s : State) (a count : Nat) =>
      if a = dst ∨ count = 0 then some s else if s.bankPaused ∨ !s.leaseRoom a dst then none else some (s.shuffleLease a dst count key)
    (lend s1 from_ n).bind (fun s2 => lend s2 src (h - n))

/-- A free slot for a context that comes from slot n of its tile: the same number where it can. -/
def State.slotFor (s : State) (t n : Nat) : Option Nat :=
  let k := 2 * t + n / 8
  let live := (s.atlasRec (fieldOfTile t) (nodeOfUnit t (n / 8))).caps
  if bitAt live (n % 8) && !(s.ctxOf (16 * t + n)).occ then some (16 * t + n) else s.freeSlot k

/-- Put a moved context into a slot of the new tile, with its debug page, or into the park area; none without room. -/
def State.placeCtx (s : State) (t : Nat) (dbgs : KMap Dbg) (e : Nat × Ctx) : Option State :=
  match s.slotFor t e.1 with
  | some i =>
    let s1 : State := { s with ctxs := s.ctxs.put i e.2, dbgs := match dbgs.find? e.1 with
      | some d => s.dbgs.put i d
      | none => s.dbgs }
    some (s1.moveFiring e.2.firing i)
  | none =>
    let k := 2 * t + e.1 / 8
    if (s.coreOf k).parkRoom then
      some (s.updCore k (fun c => { c with parked := c.parked.put (lowestFree c.parked 64 0) { e.2 with slot := 16 * t + e.1 } }))
    else none
def State.placeCtxs (s : State) (t : Nat) (dbgs : KMap Dbg) : List (Nat × Ctx) → Option State
  | [] => some s
  | e :: es => match s.placeCtx t dbgs e with
    | some s1 => s1.placeCtxs t dbgs es
    | none => none

/-- The image of a migration arrives at a tile (R65, R73, R175 step 4); none while contexts find no room. -/
def State.putImage (s : State) (g : Migration) (t : Nat) (m : Moved) : Option State :=
  let h := m.tile.h
  (s.moveHolding (fieldOfTile g.oldTile) (fieldOfTile t) h g.key).bind fun s1 =>
  let move : Ctx → Ctx := fun c => { c with slot := 16 * t + c.slot % 16 }
  let parked : Core → Core := fun k => { k with parked := k.parked.map (fun e => (e.1, move e.2)) }
  let s2 := [0, 1].foldl (fun s c => s.updCore (2 * t + c) (fun k => (parked (m.cores.get {} c)).atSite k)) s1
  let body := { m.tile with h := h, hclass := if h = 0 then 0 else m.tile.hclass, req := m.tile.requeued s.rtime, recH := 0, recClass := 0, recReq := none,
                            nextok := s.cycOf (fieldOfTile t) + m.wait }
  let s3 := s2.updTile t (fun x => body.atSite x)
  let s4 : State := { s3 with mem := putStore s3.mem t m.store }
  (s4.placeCtxs t m.dbgs m.ctxs).map (fun s5 => s5.renameRunner g.tag (g.oldTile + 10800) t)

/-- A tile is free for an incoming logical tile: what it held has left, and no earlier migration goes there. -/
def State.vacated (s : State) (t i : Nat) : Bool :=
  (List.range s.migrations.length).all (fun j => j = i || (match s.migrations[j]? with
    | some g => (g.oldTile ≠ t || g.step ≥ 4) && !(decide (j < i) && g.newTile = t)
    | none => true))

/-- Work may go to a tile. -/
def State.tileWorks (s : State) (t : Nat) : Bool := s.tileServes t

/-- The class of the work that a moved tile brings: the highest of its firings, actors and held items; 2 where it has none
(R67, R73; DESIGN CHOICE; log 131). -/
def State.movedClass (s : State) (m : Moved) : Nat :=
  let cs := m.ctxs.map (fun e => e.2.cls) ++
    m.cores.flatMap (fun e => (e.2.actors.filter (fun a => a.2.valid)).map (fun a => a.2.cls) ++ (e.2.deque ++ e.2.spill).map (fun r => r.cls) ++
      e.2.held.filterMap (fun q => (s.launchOf q.1).map (fun l => Header.cls l.header)))
  match cs with
  | [] => 2
  | c :: rest => rest.foldl max c

/-- The state arrives, the entry is rebound and held, and every interface that looked it up sends its markers (R175 steps 4 and 5). -/
def State.install (s : State) (i : Nat) (g : Migration) (m : Moved) : State :=
  if (s.tileOf g.newTile).pwr ≠ 0 then s.queueWake g.newTile (s.movedClass m)
  else if !s.vacated g.newTile i then s
  else match s.putImage g g.newTile m with
    | none => s
    | some s1 =>
      let s2 := (s1.setCtt g.tag g.lkind g.lidx (cttRebound (s1.cttEntry g.tag g.lkind g.lidx) g.newTile true)).dropTranslations g
      s2.setMig i { g with step := 6, image := none, markers := (s1.cttLooked g.tag g.lkind g.lidx).flatMap (fun t => (List.range 4).map (fun n => (t, n))) }

/-- The stub forwards what it holds, in arrival order, on the networks that inject (R175 step 6, R176). -/
def State.forwardStub (s : State) (i : Nat) (g : Migration) : State :=
  let send := (g.stub.filter (fun m => !s.masked m.vn)).map (fun m => { m with core := 2 * g.newTile + m.core % 2, fwd := true, router := some g.oldTile, hops := 0, gen := s.loith.flips })
  ({ s with flying := s.flying ++ send } : State).setMig i { g with stub := g.stub.filter (fun m => s.masked m.vn) }

/-- The new tile has gone dark: the state goes back to the old tile, and the messages of the stub to its ports (R176). Another new state there makes it
wait. -/
def State.goBack (s : State) (i : Nat) (g : Migration) : State :=
  let taken := (List.range s.migrations.length).any (fun j => j ≠ i && (match s.migrations[j]? with
    | some o => o.newTile = g.oldTile && decide (o.step ≥ 6)
    | none => false))
  if taken then s
  else
    let (s0, m) : State × Moved := match g.image with
      | some m => (s, m)
      | none => ((s.clearTile g.newTile g.tag).renameRunner g.tag g.newTile (g.oldTile + 10800), s.imageOfTile g.newTile g.tag)
    match s0.putImage { g with oldTile := if g.image.isSome then g.oldTile else g.newTile } g.oldTile m with
    | none => s
    | some s1 =>
      let s2 := s1.renameRunner g.tag (g.oldTile + 10800) g.oldTile
      let s3 := (s2.setCtt g.tag g.lkind g.lidx (cttRebound (s2.cttEntry g.tag g.lkind g.lidx) g.oldTile false)).dropTranslations g
      let s4 := s3.holdActors g.oldTile g.tag false
      let back : List Msg := g.stub.mapIdx (fun j x => { x with fwd := true, router := none, reached := s4.nextReached + j })
      ({ s4 with migrations := setAt s4.migrations i none, flying := s4.flying ++ back } : State).report (fieldOfTile g.oldTile) .migrateFail g.tag [g.key]

/-- A migration as the platform asks for it on a retirement (R42, R175): logical tile `value` of partition `unit` to tile `other`. -/
def State.askMigration (s : State) (p lt new : Nat) : State :=
  let q := s.partOf p
  let w := s.cttEntry q.tag (lt / 2 ^ 14) (lt % 2 ^ 14)
  let bound := s.hubs.any (fun e => e.2.ctt.any (fun c => cttValid c.2 && cttTile c.2 = new))
  if !q.valid || !cttValid w || cttOwner w ≠ q.tag || cttTile w = new || new ≥ 10800 || tileKind new ≠ tileKind (cttTile w) || !s.tileWorks new || bound ||
      !q.fields.contains (fieldOfTile new) || s.migrations.any (fun g => g.tag = q.tag && g.lkind = lt / 2 ^ 14 && g.lidx = lt % 2 ^ 14) then s
  else s.beginMigration { lkind := lt / 2 ^ 14, lidx := lt % 2 ^ 14, tag := q.tag, oldTile := cttTile w, newTile := new }

/-- `MIGRATION_COPY` (R175, R176): migration `value` goes on from the end of its firings to the rebinding, and then forwards what its stub takes; with
`flag` the platform asks for one. -/
def execMigrationCopy (s : State) : Out :=
  if s.arg.flag then .next (s.askMigration s.arg.unit s.arg.value s.arg.other)
  else match s.migrations[s.arg.value]? with
    | none => .next s
    | some g =>
      let i := s.arg.value
      if s.tileStill g.oldTile || s.tileStill g.newTile then .next s
      else if g.step = 0 then
        (if s.canBegin i g then .next ((s.setMig i { g with step := 1 }).holdActors g.oldTile g.tag true) else .next s)
      else if g.step < 4 then
        (if s.tileBusy g.oldTile g.tag || s.masked 3 then .next s else .next (s.takeOut i g))
      else if s.tileDark g.newTile || (g.image.isSome && !s.tileWorks g.newTile) then .next (s.goBack i g)
      else match g.image with
        | some m => if s.masked 3 then .next s else .next (s.install i g m)
        | none => .next (if g.stub.isEmpty then s else s.forwardStub i g)

/-! ### Drain and release (R175 steps 6 and 7) -/

/-- A message that was sent to the logical tile by its old binding, and is not at the old tile yet. -/
def Migration.oldMsg (g : Migration) (m : Msg) : Bool :=
  !m.hw && !m.fwd && m.chan ≠ 3 && tileOfCore m.core = g.oldTile && capOwner m.capLo = g.tag && capKind m.capLo = g.lkind && capIdx m.capLo = g.lidx

/-- The marker of a source tile on one network can be at the old tile: every message that it sent there before is. -/
def State.markerDue (s : State) (g : Migration) (src vn : Nat) : Bool :=
  g.step = 6 && g.markers.contains (src, vn) && !s.masked vn && !(s.flying.any (fun m => m.vn = vn && tileOfCore m.srcCore = src && g.oldMsg m))

/-- `MIGRATION_MARKER` from tile `unit` on network `other` of migration `value` arrives at the old tile (R164, R175). -/
def execMigrationMarker (s : State) : Out :=
  match s.migrations[s.arg.value]? with
  | none => .next s
  | some g =>
    if !s.markerDue g s.arg.unit s.arg.other then .next s
    else .next (s.setMig s.arg.value { g with markers := g.markers.filter (· ≠ (s.arg.unit, s.arg.other)) })

/-- Every forwarded message has been acknowledged, and no message of another device is still on its way to the old tile. -/
def State.releaseDue (s : State) (g : Migration) : Bool :=
  g.step = 6 && g.markers.isEmpty && g.stub.isEmpty && !(s.flying.any (fun m => m.fwd && tileOfCore m.core = g.newTile && capOwner m.capLo = g.tag)) &&
    !(s.flying.any (fun m => m.srcCore ≥ 21600 && g.oldMsg m))

/-- The body of a residency report (R86). -/
def State.residency (s : State) (e : Launch) : List Nat :=
  let tiles := (e.runners ++ e.followers).map (· % 10800)
  leBytes 8 2 ++ leBytes 8 e.id ++ leBytes 16 (fieldsMask (tiles.map fieldOfTile).eraseDups) ++
    leBytes 4 (tiles.length * (if Header.pair e.header then 2 else 1)) ++
    leBytes 4 ((tiles.map (fun t => (s.tileOf t).h)).sum) ++ leBytes 8 s.rtime

/-- The launches that a rack scheduler placed learn of a move of their runners, each counted once by its place in the list; above a quarter they report once more (R86). -/
def State.noteMoved (s : State) (tag t : Nat) : State :=
  let mine := s.hubs.flatMap (fun e => (e.2.launches.filter (fun l => l.2.rack && l.2.tag = tag && (l.2.runners ++ l.2.followers).contains t)).map (fun l => l.2))
  mine.foldl (fun s e =>
    let all := e.runners ++ e.followers
    let moved := (all.findIdx (· = t) :: e.moved).eraseDups
    let tell := !e.second && decide (4 * moved.length > all.length)
    let s1 := s.updLaunch e.id (fun e => { e with moved := moved, second := e.second || tell })
    if tell then s1.eventFrame [tag] (s.residency e) else s1) s

/-- `MIGRATION_RELEASE` of migration `value` (R175 step 7): HOLD and the held flags clear. -/
def execMigrationRelease (s : State) : Out :=
  match s.migrations[s.arg.value]? with
  | none => .next s
  | some g =>
    if !s.releaseDue g then .next s
    else
      let w := s.cttEntry g.tag g.lkind g.lidx
      let s1 := s.setCtt g.tag g.lkind g.lidx (w &&& ~~~(BitVec.ofNat 64 (2 ^ 62)))
      let s2 := s1.holdActors g.newTile g.tag false
      let rest := (setAt s2.migrations s.arg.value none).map (fun o => if o.key = g.key then { o with oldTile := g.newTile } else o)
      .next (({ s2 with migrations := rest } : State).noteMoved g.tag g.newTile)

end Sys2Proof.Machine
end

