-- ==== Sys2Proof/Machine/Switch.lean ====
section
/-! DEFINITION. Partitions and the world switch: R58, R59, R65, R84, R92 to R99, R103, R148, R171, R176, R216, R244, R425. An event names its field in
`arg.unit`. -/

namespace Sys2Proof.Machine

/-! ### The start of a switch (R97 step 1) -/

/-- The next member of a field's group in the rotation: by partition number, ascending and wrapping (R97). -/
def Hub.nextMember (h : Hub) : Option Nat := match h.run with
  | none => none
  | some p =>
    let ms := h.group.filter (· ≠ p)
    match leastOf (ms.filter (· > p)) with
    | some q => some q
    | none => leastOf ms

/-- Running and suspended operations of a tile stop at their cursors (R244). -/
def Tile.saveOps (t : Tile) : Tile :=
  { t with ops := t.ops.map (fun e => (e.1, if e.2.state = 1 ∨ e.2.state = 2 then { e.2 with state := 4, saved := e.2.state } else e.2)) }
/-- They go on as they were. -/
def Tile.wakeOps (t : Tile) : Tile :=
  { t with ops := t.ops.map (fun e => (e.1, if e.2.state = 4 then { e.2 with state := e.2.saved, saved := 0 } else e.2)) }

/-- Quiesce begins in one field: nothing of the outgoing member starts, operations stop, a rook test is abandoned (R97, R99). -/
def State.beginSwitch (s : State) (f incoming : Nat) : State :=
  let h := s.hubOf f
  let s1 := s.updHub f (fun h => { h with
    rookBusy := false, rookSince := s.rtime, sw := { step := 1, start := s.rtime, incoming := incoming, expired := false } })
  let s2 : State := { s1 with tiles := s1.tiles.map (fun e => (e.1, if fieldOfTile e.1 = f then e.2.saveOps else e.2)) }
  let s3 := s2.updPart incoming (fun p => { p with state := 3 })
  match h.run with
  | some p => s3.updPart p (fun p => { p with state := 3 })
  | none => s3

/-- A switch begins in the fields of a group at one RTIME (R97). -/
def State.beginSwitches (s : State) (fs : List Nat) (incoming : Nat) : State := fs.foldl (fun s f => s.beginSwitch f incoming) s

/-- The quantum of a field's running member has expired (R94, R97, R425). -/
def State.quantumOver (s : State) (f : Nat) : Bool :=
  let h := s.hubOf f
  h.sw.step = 0 && h.startup = 7 && (match h.run, h.nextMember with
    | some p, some _ => decide (h.quantumFrom + 1000000 * (s.partOf p).quant ≤ s.rtime)
    | _, _ => false)

/-- `QUANTUM_END` in field `unit`: the whole group begins to switch (R97). -/
def execQuantumEnd (s : State) : Out :=
  let f := s.arg.unit
  let h := s.hubOf f
  match h.run, h.nextMember with
  | some p, some q => if s.quantumOver f then .next (s.beginSwitches ((s.partOf p).fields.filter (fun g => (s.hubOf g).sw.step = 0)) q) else .next s
  | _, _ => .next s

/-! ### QLIM (R97) -/

/-- Contexts of a field that still run. -/
def State.runningIn (s : State) (f : Nat) : List Nat := (s.ctxs.filter (fun e => fieldOfCtx e.1 = f && e.2.occ && e.2.st = 0)).map (fun e => e.1)

/-- QLIM microseconds of quiesce have passed. -/
def State.qlimDue (s : State) (f : Nat) : Bool :=
  let h := s.hubOf f
  let q := match h.run with
    | some p => (s.partOf p).qlim
    | none => 100
  h.sw.step = 1 && !h.sw.expired && decide (h.sw.start + 1000 * (if q = 0 then 100 else q) ≤ s.rtime)

/-- Pre-empt a context for a switch: at once, or at the end of its section or of the access that it holds for. -/
def State.switchOut (s : State) (i : Nat) : State := s.preemptCtx i 2

/-- `QLIM_EXPIRY` in field `unit` (R97). The firings of a logical tile that is leaving run to their end, for which its migration and then the switch wait
(R176). -/
def execQlimExpiry (s : State) : Out :=
  let f := s.arg.unit
  if !s.qlimDue f then .next s
  else
    let leaving := fun (t : Nat) => s.migrations.any (fun g => g.oldTile = t && 1 ≤ g.step && decide (g.step < 4))
    let left := (s.runningIn f).filter (fun i => !leaving (tileOfCtx i))
    let s1 := (left.foldl State.switchOut s).updHub f (fun h => { h with sw := { h.sw with expired := true } })
    .next (if left.isEmpty then s1 else s1.reportField f .quiescePreempt [left.length])

/-! ### Evict, save, swap (R97 steps 2 to 4) -/

/-- The field is quiet: no context runs or waits for an access, UNACK is zero, no engine is busy, no lease and no migration is under way, no relock,
and the networks of the copies are open (R60, R97, R99, R176). -/
def State.quiet (s : State) (f : Nat) : Bool :=
  let still := fun (c : Ctx) => c.hold.isNone && c.unack = 0
  (s.hubOf f).sw.step = 1 && (s.hubOf f).locking.isNone && !s.masked 0 && !s.masked 3 && (s.runningIn f).isEmpty &&
    s.ctxs.all (fun e => fieldOfCtx e.1 ≠ f || !e.2.occ || still e.2) &&
    s.cores.all (fun e => fieldOfTile (tileOfCore e.1) ≠ f || e.2.parked.all (fun q => still q.2)) &&
    s.tiles.all (fun e => fieldOfTile e.1 ≠ f || !s.engBusy e.1) &&
    (s.hubOf f).answer.isNone && !(s.migrations.any (fun g => 1 ≤ g.step && (fieldOfTile g.oldTile = f || fieldOfTile g.newTile = f)))

/-- An address key lies in the local store of a field. -/
def inFieldStore (f a : Nat) : Bool :=
  let g := a % 2 ^ 52
  a < 2 ^ 52 && fieldOfTile (tileAt (gpaCol g) (gpaRow g)) = f && gpaRow g < 90 && gpaCol g < 120 && bitsAt g 37 26 = 0 && gpaWindow g < 0x300000

/-- The state of a field's running partition: its field image (R95), but for the local stores, which go to HBM. -/
def State.fieldImage (s : State) (f : Nat) : FieldImage :=
  let h := s.hubOf f
  { ctxs := s.ctxs.filter (fun e => fieldOfCtx e.1 = f), cores := s.cores.filter (fun e => fieldOfTile (tileOfCore e.1) = f),
    tiles := s.tiles.filter (fun e => fieldOfTile e.1 = f), barriers := h.barriers,
    launches := h.launches, leases := h.leases, lwaiters := h.lwaiters, valid := true }

/-- The copy engines write every local store of field f into the image of partition p, with the poison of its lines (R95, R97 step 2). -/
def State.saveStores (s : State) (f p : Nat) : State :=
  let base := s.imageKey f p
  let inImage := fun (a : Nat) => decide (base ≤ a) && (imageStoreOff (a - base)).isSome
  let kept := s.mem.filter (fun e => !inImage e.1)
  let mine := s.poison.filter (fun l => inFieldStore f (128 * l))
  { s with
    mem := (s.mem.filter (fun e => inFieldStore f e.1)).foldl (fun m e => m.write (base + imageOffOf e.1) e.2) kept,
    poison := s.poison.filter (fun l => !inImage (128 * l) && !inFieldStore f (128 * l)) ++ mine.map (fun l => (base + imageOffOf (128 * l)) / 128) }

/-- Lines of local store that the image holds poisoned. -/
def State.imagePoison (s : State) (f p : Nat) : List Nat :=
  let base := s.imageKey f p
  s.poison.filterMap (fun l => if base ≤ 128 * l then (storeByteOf f (128 * l - base)).map (fun a => a / 128) else none)

/-- A save or a restore fails for the firing of context i: the platform kills it with `SWITCH_KILLED`, and receives `SAVE_FAULT` (R252). -/
def State.saveFails (s : State) (f i : Nat) : State :=
  match s.pageFiring i with
  | some (p, c) => if fieldOfCtx i = f then (s.killWith i p c Cause.switchKilled).report f .saveFault c.tag [] else s
  | none => s

/-- What a core keeps that belongs to no partition: the rook's record and the time of its last retirement. -/
def Core.ofField (k site : Core) : Core := { k with retired := site.retired, deferrals := site.deferrals, tested := site.tested, hung := site.hung, utlb := [], ibuf := [] }

/-- Replace what a field holds by an image with its local stores (R97 steps 2 and 5). -/
def State.loadImage (s : State) (f : Nat) (m : FieldImage) (store : Memory) : State :=
  let here := fun (k : Nat) => fieldOfTile (tileOfCore k) = f
  let ctxs : KMap Ctx := m.ctxs.foldl (fun c e => c.put e.1 e.2) (s.ctxs.filter (fun e => fieldOfCtx e.1 ≠ f))
  let cores : KMap Core := s.cores.map (fun e => (e.1, if here e.1 then ({} : Core).ofField e.2 else e.2))
  let cores2 : KMap Core := m.cores.foldl (fun c e => c.put e.1 (e.2.ofField (s.coreOf e.1))) cores
  let tiles : KMap Tile := s.tiles.map (fun e => (e.1, if fieldOfTile e.1 = f then { ({} : Tile).atSite e.2 with sliceCounters := [] } else e.2))
  let tiles2 : KMap Tile := m.tiles.foldl (fun c e => c.put e.1 { e.2.atSite (s.tileOf e.1) with sliceCounters := e.2.sliceCounters }) tiles
  let mem : Memory := store.foldl (fun c e => if inFieldStore f e.1 then c.write e.1 e.2 else c) (s.mem.filter (fun e => !inFieldStore f e.1))
  let s1 : State := { s with ctxs := ctxs, cores := cores2, tiles := tiles2, mem := mem }
  s1.updHub f (fun h => { h with barriers := m.barriers, launches := m.launches, leases := m.leases, lwaiters := m.lwaiters })

/-- The slices of a field write back and drop the lines of a tag, with their sync records (R97, R216). -/
def State.evictLines (s : State) (f tag : Nat) : State :=
  let gone := fun (l : Nat) => match s.homeOf (lineGpa l) with
    | .tile t => fieldOfTile t = f
    | _ => false
  let mine := (s.cached.filter (fun e => e.2 = tag && gone e.1)).map (fun e => e.1)
  let s1 := mine.foldl State.cleanLine s
  { s1 with cached := s1.cached.filter (fun e => !mine.contains e.1), syncs := s1.syncs.filter (fun r => !mine.contains r.line) }

/-- The tag swaps: holdings return to FREE, and BKSHARE takes the share of the incoming member (R59, R65, R97 step 4). The outgoing one is switched out once it
has left its last field (R94). -/
def State.swapTag (s : State) (f p q : Nat) : State :=
  let tag := (s.partOf q).tag
  let i := (s.hubOf f).group.findIdx (· = q)
  let rest := (s.partOf p).fields.any (fun g => g ≠ f && (s.hubOf g).run = some p)
  let s1 := s.updHub f (fun h => { h with
    runTag := tag, run := some q, share := h.gshares.get 0 i, sw := { h.sw with step := 3 }, coverFor := none, coverLeft := 0, coverAsked := 0, asks := [],
    answer := none, paceOwed := [], paceDebt := 0 })
  s1.updPart p (fun x => { x with state := if rest then 3 else 2 })

/-- `QUIESCE_END` in field `unit` (R65, R95, R97, R103): the image is saved, caches and micro-TLBs give up the partition, the tag swaps. The swap changes
BKSHARE, so it waits while the bank is taken over (R57). With `flag` the save of the firing of context `other` fails (R252). -/
def execQuiesceEnd (s : State) : Out :=
  let f := s.arg.unit
  let h := s.hubOf f
  if !s.quiet f || s.bankPaused then .next s
  else match h.run with
    | none => .next s
    | some p =>
      let s0 := if s.arg.flag then s.saveFails f s.arg.other else s
      let s1 := ((s0.updHub f (fun h => { h with saved := h.saved.put p (s0.fieldImage f) })).evictLines f h.runTag).saveStores f p
      .next ((s1.loadImage f {} []).swapTag f p h.sw.incoming)

/-! ### Restore (R97 step 5) -/

/-- The request that a tile queues at switch-in (R65). -/
def Tile.atSwitchIn (t : Tile) (rtime : Nat) : Tile :=
  let req := match t.req with
    | none => if t.h = 0 then none else some ({ target := t.h, cls := t.hclass, age := rtime } : PipReq)
    | some r => some { target := max t.h r.target, cls := max (if t.h = 0 then 0 else t.hclass) r.cls, notify := r.notify, age := rtime }
  ({ t with h := 0, hclass := 0, notices := [], req := req }).wakeOps

/-- Debug commands that waited for a tag take effect (R99). -/
def State.pendCommands (s : State) (f tag : Nat) : State :=
  (s.dbgs.filter (fun e => fieldOfCtx e.1 = f && (match e.2.pend with
    | some v => v / 2 ^ 64 = tag
    | none => false))).foldl (fun s e =>
      match e.2.pend with
      | some v => (s.updDbg e.1 (fun d => { d with pend := none })).dbgCommand e.1 (v % 2 ^ 64) tag
      | none => s) s

/-- A restore can end: no relock, and the networks of the copies are open. -/
def State.restoreDue (s : State) (f : Nat) : Bool := (s.hubOf f).sw.step = 3 && (s.hubOf f).locking.isNone && !s.masked 0 && !s.masked 3

/-- Core n with its ports' oldest overflow messages taken into their hardware parts, as local store holds them (R153). -/
def Core.refilled (k : Core) (mem : Memory) (n : Nat) : Core :=
  { k with actors := k.actors.map (fun e => (e.1, Actor.settled { e.2 with ports := e.2.ports.map (fun p => (p.1, p.2.refill)) } mem n)) }

/-- The incoming member's state stands in the field again, and the switch ends (R65, R97, R99). With `arg.flag` the restore of the firing of context
`arg.other` fails (R252). -/
def State.restoreField (s : State) (f : Nat) : State :=
  let h := s.hubOf f
  let q := h.sw.incoming
  let tag := (s.partOf q).tag
  let m := h.saved.get {} q
  let m2 : FieldImage := { m with tiles := m.tiles.map (fun e => (e.1, e.2.atSwitchIn s.rtime)) }
  let s0 := s.loadImage f m2 (s.imageStores f q)
  let sR : State := { s0 with
    cores := s0.cores.map (fun e => (e.1, if fieldOfTile (tileOfCore e.1) = f then e.2.refilled s0.mem e.1 else e.2)), poison := s0.poison ++ s.imagePoison f q }
  let s1 := (if s.arg.flag then sR.saveFails f s.arg.other else sR).updHub f (fun h => { h with
    saved := h.saved.drop q, sw := {}, swCount := (h.swCount + 1) % 2 ^ 32, swLast := (s.rtime - h.sw.start) % 2 ^ 32, quantumFrom := s.rtime })
  let busy := (s1.partOf q).fields.any (fun g => (s1.hubOf g).sw.step ≠ 0)
  let s2 := s1.updPart q (fun x => { x with state := if busy then 3 else 1 })
  (s2.pendCommands f tag).reportField f .partSwitchedIn [f, q]

/-- Replies of PART.SWITCH commands whose last field has switched (R425). -/
def State.switchReplies (s : State) (f : Nat) : State :=
  let left : List (Nat × Nat × List Nat) := s.loith.switching.map (fun e => (e.1, e.2.1, e.2.2.filter (· ≠ f)))
  let s1 : State := { s with loith := { s.loith with switching := left.filter (fun e => !e.2.2.isEmpty) } }
  (left.filter (fun e => e.2.2.isEmpty)).foldl (fun s e => s.reply e.1 e.2.1 opPartSwitch stOk []) s1

/-! ### PART.SWITCH (R99, R425) -/

/-- A body's reserved bytes are the command's concern: here are the field mask and the incoming partition. -/
def State.doPartSwitch (s : State) (session seq : Nat) (body : List Nat) : State :=
  let fs := fieldSet (leAt body 0 16)
  let q := leAt body 16 1
  let member := fs ≠ [] && (s.partOf q).valid && (s.partOf q).fields = fs
  if !member then s.replyFailed session seq opPartSwitch 0 []
  else if fs.any (fun f => (s.hubOf f).sw.step ≠ 0) then s.reply session seq opPartSwitch stBusy []
  else if fs.all (fun f => (s.hubOf f).run = some q) then
    (fs.foldl (fun s f => s.updHub f (fun h => { h with quantumFrom := s.rtime })) s).reply session seq opPartSwitch stOk []
  else
    let s1 : State := { s with loith := { s.loith with switching := s.loith.switching ++ [(session, seq, fs)] } }
    s1.beginSwitches fs q

/-! ### PART.CREATE (R84, R93, R425) -/

/-- The fields of a PART.CREATE body. -/
structure PartBody where
  p : Nat
  tag : Nat
  quant : Nat
  cntport : Nat
  share : Nat
  qlim : Nat
  fields : List Nat
  save : Nat
  kind : Nat
  core : Nat
  act : Nat
  idx : Nat
  shares : List Nat
  sessions : List (Nat × Nat)
  deriving DecidableEq, Repr

def partBody (b : List Nat) : PartBody :=
  { p := leAt b 0 1, tag := leAt b 1 1, quant := leAt b 2 1, cntport := leAt b 3 1 % 4, share := leAt b 4 2, qlim := leAt b 6 2,
    fields := fieldSet (leAt b 8 16), save := leAt b 0x18 8, kind := leAt b 0x20 1, core := leAt b 0x21 1, act := leAt b 0x22 1, idx := leAt b 0x24 2,
    shares := (List.range 90).map (fun f => leAt b (0x28 + 2 * f) 2),
    sessions := (List.range (leAt b 0x26 2)).map (fun k => (leAt b (0xE0 + 4 * k) 2, leAt b (0xE2 + 4 * k) 2)) }

/-- The field images of a save area lie wholly in HBM of the device (R93, R95). -/
def State.saveFits (s : State) (base n : Nat) : Bool :=
  base ≠ 0 && base % 2 ^ 21 = 0 && s.gpaLocal base && gpaSpace base = 1 && gpaOffset base + n * 2 ^ 29 ≤ hbmSize

/-- Why a PART.CREATE is refused: the cause word (R93); none where it is accepted. A partition or tag that its register cannot hold is refused too. -/
def State.partRefused (s : State) (b : PartBody) : Option Nat :=
  let others := (s.parts.filter (fun e => e.2.valid)).map (fun e => e.2)
  let bad := b.p ≥ 16 || (s.partOf b.p).valid || b.tag = 0 || others.any (fun q => q.tag = b.tag) || b.quant = 0 || b.quant > 100 ||
    b.fields.any (fun f => (s.hubOf f).dark) || others.any (fun q => q.fields ≠ b.fields && q.fields.any b.fields.contains) ||
    (others.filter (fun q => q.fields = b.fields)).length ≥ 4 || !s.saveFits b.save b.fields.length ||
    (List.range 90).any (fun f => b.shares.getD f 0 ≠ 0 && !b.fields.contains f) || b.shares.sum ≠ b.share || b.act > 63 || b.kind > 3 || b.core > 1 ||
    b.idx ≥ (s.partTiles b.fields b.kind).length || b.sessions.length > 64 || b.sessions.any (fun e => (s.sessionOf e.1).valid) ||
    (b.sessions.map (fun e => e.1)).eraseDups.length ≠ b.sessions.length
  if bad then some 0
  else if s.allocated - (if s.bank.pvalid.get false b.p then s.bank.pshare.get 0 b.p else 0) + b.share > 20000 then some 1
  else none

/-- Bind the logical tiles of a new partition: its list L at shuffle step 0 (R73, R84). -/
def State.bindTiles (s : State) (b : PartBody) : State :=
  (List.range 4).foldl (fun s kind => ((s.partTiles b.fields kind).mapIdx (fun i t => (i, t))).foldl (fun s e =>
    s.setCtt b.tag kind e.1 (BitVec.ofNat 64 (2 ^ 63 + b.tag * 2 ^ 54 + kind * 2 ^ 52 + e.1 * 2 ^ 38 + tileY e.2 * 2 ^ 31 + tileX e.2 * 2 ^ 24))) s) s

/-- The partition as its registers hold it. -/
def State.writePart (s : State) (b : PartBody) : State :=
  let s1 := s.updPart b.p (fun _ => { valid := true, state := 2, tag := b.tag, quant := b.quant, cntport := b.cntport, qlim := b.qlim, fields := b.fields, save := b.save })
  let lo := capMake s.loith.device b.tag b.kind b.idx b.core false b.act 15 15
  let s2 := s1.updPart b.p (fun q => { q with supLo := lo, supHi := s.sealWord lo })
  { s2 with bank := { s2.bank with pvalid := s2.bank.pvalid.put b.p true, pshare := s2.bank.pshare.put b.p b.share, shufStep := s2.bank.shufStep.put b.p 0 } }

/-- A partition joins its fields: alone it runs at once, else the second member starts the running one's quantum (R59, R425). -/
def State.joinField (s : State) (b : PartBody) (f : Nat) : State :=
  let i := (s.hubOf f).group.length
  let v := b.shares.getD f 0
  let s1 := s.updHub f (fun h => { h with group := h.group ++ [b.p], gshares := h.gshares.put i v, quantumFrom := if i ≤ 1 then s.rtime else h.quantumFrom })
  if i = 0 then (s1.updHub f (fun h => { h with run := some b.p, runTag := b.tag })).bkshareWrite f v else s1

/-- PART.CREATE once accepted. -/
def State.makePart (s : State) (b : PartBody) : State :=
  let alone := (s.parts.filter (fun e => e.2.valid && e.2.fields = b.fields)).isEmpty
  let s1 := b.fields.foldl (fun s f => s.joinField b f) (s.writePart b)
  let s2 := s1.updPart b.p (fun q => { q with state := if alone then 1 else 2 })
  b.sessions.foldl (fun s e => s.updSession e.1 (fun _ => { valid := true, endpoint := e.2, tag := b.tag })) (s2.bindTiles b)

/-- PART.CREATE. -/
def State.doPartCreate (s : State) (session seq : Nat) (body : List Nat) : State :=
  let b := partBody body
  match s.partRefused b with
  | some c => s.replyFailed session seq opPartCreate c []
  | none => (s.makePart b).reply session seq opPartCreate stOk []

end Sys2Proof.Machine
end

