-- ==== Sys2Proof/Machine/Command.lean ====
section
/-! DEFINITION. What each Loith command does: R74, R77, R80 to R87, R90, R91, R131 to R133, R148. A command that has been accepted has a session and a
sequence number, and a body of bytes. -/

namespace Sys2Proof.Machine

/-! ### Which frames are bad (R80, R84) -/

/-- A list of entries of 16 bytes, 1 to 250 of them, each with reserved bytes at an offset. -/
def entriesBad (body : List Nat) (o n : Nat) : Bool :=
  body.isEmpty || body.length % 16 ≠ 0 || body.length > 4000 || (records 16 body).any (fun r => !zeroAt r o n)

/-- A body that does not have the layout of its command (R84). -/
def bodyBad (op : Nat) (b : List Nat) : Bool :=
  match op with
  | 1 => b.length ≠ 80 || 2 ^ 90 ≤ leAt b 0x40 16
  | 2 => b.length ≠ 32 || !zeroAt b 0x1A 6 || leAt b 0x10 8 = 0 || leAt b 0x10 8 > 2 ^ 36
  | 3 => !b.isEmpty
  | 4 => !b.isEmpty
  | 5 => b.length ≠ 8 || !zeroAt b 6 2 || leAt b 0 4 > 130035 || leAt b 4 2 = 0 || leAt b 4 2 > 125
  | 6 => entriesBad b 6 2
  | 7 => b.length ≠ 16 || leAt b 4 1 = 0 || leAt b 4 1 > 15 || !zeroAt b 5 3 || !zeroAt b 0xC 4
  | 8 => b.length < 0xE0 || b.length ≠ 0xE0 + 4 * leAt b 0x26 2 || leAt b 3 1 > 3 || !zeroAt b 0x23 1 || !zeroAt b 0xDC 4 || 2 ^ 90 ≤ leAt b 8 16
  | 9 => b.length ≠ 24 || !zeroAt b 0x11 7 || 2 ^ 90 ≤ leAt b 0 16
  | 10 => entriesBad b 4 4
  | 11 => b.length ≠ 8 || !zeroAt b 1 7 || leAt b 0 1 > 89
  | 12 => b.length ≠ 32
  | _ => true

/-- A frame draws BAD_COMMAND (R80, R83, R84). -/
def frameBad (b : List Nat) : Bool := headerBad b || bodyBad (frameOp b) (frameBody b)

/-! ### LAUNCH (R83, R86, R131 to R133, R148) -/

/-- The launch header of a body. -/
def bodyHeader (body : List Nat) : Header := (List.range 8).map (fun i => BitVec.ofNat 64 (leAt body (8 * i) 8))

/-- The partition of a tag is switched out of a field: its launch queue is the saved one. -/
def State.savedMember (s : State) (f tag : Nat) : Option Nat :=
  let h := s.hubOf f
  match s.partOfTag tag with
  | none => none
  | some p => if tag = 0 || (h.runTag = tag && h.sw.step ≠ 3) then none else some p

/-- Put a launch into the queue of its home field, or into the saved queue of a member that is switched out there (R99, R148): none when it is full. -/
def State.queueLaunch (s : State) (f session tag : Nat) (h : Header) (mask : List Nat) : Option (Nat × State) :=
  let who : Issuer := { host := true, session := session }
  let level := if tag = 0 then 2 else 0
  match s.savedMember f tag with
  | none => ((s.hubOf f).launchRoom 0).map (fun shared => s.acceptLaunch f h mask 0 level who shared)
  | some p =>
    let live := (s.hubOf f).launches
    let image := (s.hubOf f).saved.get {} p
    let s1 := s.updHub f (fun k => { k with launches := image.launches })
    ((s1.hubOf f).launchRoom 0).map (fun shared =>
      let (id, s2) := s1.acceptLaunch f h mask 0 level who shared
      (id, s2.updHub f (fun k => { k with launches := live, saved := k.saved.put p { image with launches := k.launches } })))

/-- A launch that the device placed for a rack scheduler: its first residency report (R86). -/
def State.placeRack (s : State) (id tag : Nat) : State :=
  let s1 := s.updLaunch id (fun e => { e with rack := true })
  match s1.launchOf id with
  | some e => s1.eventFrame [tag] (s1.residency e)
  | none => s1

/-- LAUNCH; bit 0 of the frame's flags asks for rack placement. -/
def State.doLaunch (s : State) (session seq flags : Nat) (body : List Nat) : State :=
  let h := bodyHeader body
  let mask := fieldSet (leAt body 0x40 16)
  let tag := (s.sessionOf session).tag
  if h.malformed then s.replyFailed session seq opLaunch Cause.launchBad []
  else if h.owner ≠ tag || mask.any (fun f => !(s.fieldsOfTag tag).contains f) then s.reply session seq opLaunch stDenied []
  else if (s.runTiles h mask).isEmpty then s.replyFailed session seq opLaunch Cause.destDark []
  else match s.queueLaunch (mask.headD 0) session tag h mask with
    | none => s.reply session seq opLaunch stBusy []
    | some (id, s1) =>
      let s2 := s1.reply session seq opLaunch stOk (leBytes 8 id)
      if flags % 2 = 1 then s2.placeRack id tag else s2

/-! ### COPY (R77, R83 to R85) -/

/-- A page table of a tag maps an address of HBM or the capacity tier. -/
def State.tableMaps (s : State) (tag g : Nat) : Nat → Nat → Nat → Bool
  | 0, _, _ => false
  | fuel + 1, frame, lvl =>
    (List.range (if lvl = 3 then 256 else 4096)).any (fun i => match s.readPte frame i with
      | none => false
      | some e => e.v && (if e.t then 0 < lvl && s.tableMaps tag g fuel e.frame (lvl - 1)
          else e.owner = tag && e.kind ≠ 4 && s.placeOf (e.frame * 2 ^ 16) ≤ s.placeOf g && s.placeOf g < s.placeOf (e.frame * 2 ^ 16) + 2 ^ levelShift lvl))

/-- An address belongs to an owner: a tile of its fields, or a place, of this device or another, that its page tables map. The platform owns all. -/
def State.ownsAddress (s : State) (tag g : Nat) : Bool :=
  let mapped := match s.partOfTag tag with
    | none => false
    | some p => ((s.partOf p).fields.take 1).any (fun f =>
        let root := (s.hubOf f).troots.get 0 p
        bitAt root 0 && s.tableMaps tag g 4 (bitsAt root 63 16) 3)
  if tag = 0 then true
  else if !s.gpaLocal g then mapped
  else match gpaSpace g with
    | 0 => (s.fieldsOfTag tag).contains (fieldOfTile (tileAt (gpaCol g) (gpaRow g)))
    | 3 => false
    | _ => mapped

/-- The same of a run of bytes, page by page of 64 KiB. -/
def State.ownsRun (s : State) (tag g n : Nat) : Bool :=
  (List.range (n / 65536 + 2)).all (fun i =>
    let a := if i = 0 then g else (g / 65536 + i) * 65536
    g + n ≤ a || s.ownsAddress tag a)

/-- Why a copy stops at an address. -/
def State.copyStop (s : State) (tag g n : Nat) (acc : Acc) : Option Cause :=
  let level := if tag = 0 then 2 else 0
  if s.gpaLocal g then
    match s.gpaRefuses g n acc false 0 tag level with
    | some c => some c
    | none =>
      if acc = .read && s.runPoisoned (g, n) then some (s.poisonCause [(g, n)])
      else s.wayCause (tileOfLocal (if s.bank.onmirror then 89 else 0) 53) g
  else match s.devicePort (gpaDev g) with
    | .ok _ => none
    | .error c => some c

/-- Copy a run, line by line: the state, the bytes done, and the cause that stopped it (0 for none). Without a destination the bytes leave the domain. -/
def State.copyLines (tag : Nat) : Nat → Nat → Option Nat → Nat → Nat → State → State × Nat × Nat
  | 0, _, _, _, done, s => (s, done, 0)
  | fuel + 1, src, dst, n, done, s =>
    if n = 0 then (s, done, 0)
    else
      let k := min n (min (128 - src % 128) (match dst with
        | some d => 128 - d % 128
        | none => 128))
      let level := if tag = 0 then 2 else 0
      match s.copyStop tag src k .read with
      | some c => (s, done, c)
      | none =>
        let (v, s1) := s.readRuns level [(src, k)]
        match dst with
        | none => State.copyLines tag fuel (src + k) none (n - k) (done + k) s1
        | some d => match s1.copyStop tag d k .write with
          | some c => (s1, done, c)
          | none =>
            if !s1.gpaLocal d then State.copyLines tag fuel (src + k) (some (d + k)) (n - k) (done + k) s1
            else
              let (s2, bad) := s1.storeAt d k v { tag := tag, level := level, ctx := 0 } false
              if bad ≠ 0 then (s2, done, Cause.cpWindow) else State.copyLines tag fuel (src + k) (some (d + k)) (n - k) (done + k) s2

/-- The copy itself, and its reply: OK, PARTIAL with the byte cursor, or FAILED when nothing was copied (R81, R85). -/
def State.runCopy (s : State) (session seq : Nat) (src dst n ep : Nat) : State :=
  let tag := (s.sessionOf session).tag
  let (s1, done, cause) := State.copyLines tag (n / 64 + 2) src (if ep = 0xFFFF then some dst else none) n 0 s
  if cause = 0 then s1.reply session seq opCopy stOk (leBytes 8 done)
  else if done = 0 then s1.replyFailed session seq opCopy cause (leBytes 8 0)
  else s1.reply session seq opCopy stPartial (leBytes 8 done ++ leBytes 8 done)

/-- The partition of a tag does not run: it is switched out, or switching. -/
def State.ownerOut (s : State) (tag : Nat) : Bool := match s.partOfTag tag with
  | some p => tag ≠ 0 && (s.partOf p).state ≠ 1
  | none => false

/-- COPY: it waits at its cursor while its owner is switched out (R85). -/
def State.doCopy (s : State) (session seq : Nat) (body : List Nat) : State :=
  let src := leAt body 0 8
  let dst := leAt body 8 8
  let n := leAt body 0x10 8
  let ep := leAt body 0x18 2
  let tag := (s.sessionOf session).tag
  if !s.ownsRun tag src n || (ep = 0xFFFF && !s.ownsRun tag dst n) then s.reply session seq opCopy stDenied []
  else if ep ≠ 0xFFFF ∧ ep ≥ 4096 then s.replyFailed session seq opCopy Cause.destDark (leBytes 8 0)
  else if s.ownerOut tag then { s with loith := { s.loith with copies := s.loith.copies ++ [(session, seq, [src, dst, n, ep])] } }
  else s.runCopy session seq src dst n ep

/-- Copies whose owner runs again go on (R85). -/
def State.resumeCopies (s : State) : State :=
  let waits := fun (e : Nat × Nat × List Nat) => s.ownerOut (s.sessionOf e.1).tag
  let go := s.loith.copies.filter (fun e => !waits e)
  let s1 : State := { s with loith := { s.loith with copies := s.loith.copies.filter waits } }
  go.foldl (fun s e => s.runCopy e.1 e.2.1 (e.2.2.getD 0 0) (e.2.2.getD 1 0) (e.2.2.getD 2 0) (e.2.2.getD 3 0)) s1

/-! ### QUERY (R27, R84) -/

/-- The hub that holds what hub 0 alone holds. -/
def State.firstHub (s : State) : Nat := if s.bank.onmirror then 89 else 0

/-- The start-up step that a field has reached, as QUERY shows it. -/
def Hub.stepByte (h : Hub) : Nat := min 6 h.startup + (if h.dark then 0x80 else 0)
def State.lowestGen (s : State) : Nat := ((List.range 90).map (fun f => (s.hubOf f).rgen)).foldl min (s.hubOf 0).rgen
def State.imageVersionUsed (s : State) : Nat := (s.hubOf s.firstHub).image.getD 0

def State.queryBody (s : State) : List Nat :=
  [0x56, 0x4B, 0x2D, 0x31, 0x32, 0x30, 0, 0] ++ leBytes 2 s.loith.device ++ leBytes 2 (s.loith.device / 16) ++ [natOfBool s.loith.imageBad, 0, 0, 0] ++
    leBytes 8 s.imageVersionUsed ++ leBytes 4 s.lowestGen ++ leBytes 4 0 ++ leBytes 8 s.rtime ++ (List.range 90).map (fun f => (s.hubOf f).stepByte) ++
    leBytes 6 0

/-- QUERY. -/
def State.doQuery (s : State) (session seq : Nat) : State := s.reply session seq opQuery stOk s.queryBody

/-! ### RESYNC (R87, R99) -/

/-- Frozen and parked firings of contexts and park areas: slot and context. -/
def haltedIn (ctxs : KMap Ctx) (cores : KMap Core) : List (Nat × Ctx) :=
  ctxs.filter (fun e => e.2.occ && (e.2.st = 1 || e.2.st = 2)) ++
    cores.flatMap (fun k => (k.2.parked.filter (fun e => e.2.st = 1 || e.2.st = 2)).map (fun e => (e.2.slot, e.2)))

/-- Those of a device, of members that are switched out as well. -/
def State.haltedFirings (s : State) : List (Nat × Ctx) :=
  haltedIn s.ctxs s.cores ++ s.hubs.flatMap (fun h => h.2.saved.flatMap (fun m => haltedIn m.2.ctxs m.2.cores))

/-- The launches of a device. -/
def State.openLaunches (s : State) : List Launch :=
  s.hubs.flatMap (fun h => (h.2.launches ++ h.2.saved.flatMap (fun m => m.2.launches)).map (fun e => e.2))

/-- The record of a field (R87). Its launch items are those still open of the launches whose queue entry the field's hub holds (DESIGN CHOICE; log 135). -/
def State.fieldRecord (s : State) (halted : List (Nat × Ctx)) (f : Nat) : List Nat :=
  let h := s.hubOf f
  let mine := halted.filter (fun e => fieldOfCtx e.1 = f)
  let state := if h.dark then 1 else if h.startup < 7 then 2 else if h.sw.step ≠ 0 then 3 else 0
  let ops := ((s.tiles.filter (fun e => fieldOfTile e.1 = f)).map (fun e => (e.2.ops.filter (fun o => o.2.state ≠ 0)).length)).sum
  [state, min 6 h.startup, h.runTag % 256, h.curn % 256] ++ leBytes 4 h.rgen ++ leBytes 8 (s.bkstat f) ++ leBytes 4 h.atlcnt ++
    leBytes 2 (mine.filter (fun e => e.2.st = 1)).length ++ leBytes 2 (mine.filter (fun e => e.2.st = 2)).length ++ leBytes 4 ops ++
    leBytes 4 ((h.launches.map (fun e => e.2.open_)).sum)

/-- The record of a frozen or parked firing; the logical core and context stand as in a fault packet (R87, R237). -/
def State.firingRecord (s : State) (e : Nat × Ctx) : List Nat :=
  let c := e.2
  let (kind, idx) := if c.tag = 0 then (0, 0) else (s.logicalOf c.tag (tileOfCtx e.1)).getD (0, 0)
  leBytes 4 (kind * 2 ^ 30 + idx * 2 ^ 16 + e.1 / 8 % 2 * 2 ^ 15 + e.1 % 8 * 2 ^ 12) ++ leBytes 2 (if c.pool || c.task then 0 else c.act) ++
    [if c.st = 1 then c.cause % 256 else c.reason % 256, c.tag % 256] ++ leBytes 8 c.haltAt

/-- The record of a launch: its identifier, its items still open and its failures. -/
def Launch.resyncRecord (e : Launch) : List Nat := leBytes 8 e.id ++ leBytes 4 e.open_ ++ leBytes 4 e.failures

/-- A fault packet of 64 bytes. -/
def Msg.packetBytes (m : Msg) : List Nat := ((List.range 8).map (fun i => leBytes 8 (m.word i).toNat)).flatten

/-- Records cut into fragments, none for no record. -/
def recordFragments (n : Nat) (rs : List (List Nat)) : List (List Nat) := if rs.isEmpty then [] else (chunks n rs).map List.flatten

/-- RESYNC: every fragment from one snapshot. -/
def State.doResync (s : State) (session seq : Nat) : State :=
  let halted := s.haltedFirings
  let ls := s.openLaunches
  let bank := leBytes 4 (s.bankstat / 2 ^ 16 % 2 ^ 16) ++ leBytes 4 (s.bankstat / 2 ^ 32 % 2 ^ 16) ++ leBytes 4 (s.bankstat % 2 ^ 16) ++ leBytes 4 s.bank.bankctl
  let first := leBytes 8 s.rtime ++ leBytes 4 s.lowestGen ++ leBytes 2 halted.length ++ leBytes 2 ls.length ++ bank ++
    ((List.range 90).map (s.fieldRecord halted)).flatten
  s.replyAll session seq opResync stOk (first :: recordFragments 252 (halted.map s.firingRecord) ++ recordFragments 252 (ls.map Launch.resyncRecord) ++
    recordFragments 63 (s.recent.map Msg.packetBytes))

/-! ### ATLAS.READ (R35, R83, R84) -/

/-- ATLAS.READ: a session of a partition reads the records of its fields. -/
def State.doAtlasRead (s : State) (session seq : Nat) (body : List Nat) : State :=
  let first := leAt body 0 4
  let nodes := (List.range (leAt body 4 2)).map (first + ·)
  let tag := (s.sessionOf session).tag
  let mine := fun n => decide (256 ≤ n) && (s.fieldsOfTag tag).contains (s.atlasHub n)
  let record := fun n => if n < 130036 then (List.range 32).map (fun i => s.atlasBytes (s.atlasHub n) n / 2 ^ (8 * i) % 256) else 0xFF :: List.replicate 31 0
  let bytes := fun n => let r := record n
    if r.headD 0 = 0xFF then 0xFF :: List.replicate 31 0 else r
  if tag ≠ 0 && nodes.any (fun n => !mine n) then s.reply session seq opAtlasRead stDenied []
  else s.reply session seq opAtlasRead stOk (leBytes 4 (s.hubOf (s.atlasHub first)).atlcnt ++ leBytes 28 0 ++ (nodes.map bytes).flatten)

/-! ### PIP.POLICY (R84) -/

/-- A register that PIP.POLICY writes. -/
def State.policyRegister (s : State) (f o : Nat) : Bool :=
  f < 90 && o % 8 = 0 && !(s.hubOf f).dark &&
    (o = 0x00 || o = 0x28 || o = 0x10000 || o = 0x10008 || (0x10040 ≤ o && o < 0x10060) ||
      (f = s.firstHub && (o = 0x20010 || o = 0x20018 || o = 0x20020 || (0x20040 ≤ o && o < 0x20060) || (0x20100 ≤ o && o < 0x20200))))

/-- The bit by which a register shows that its own rule refused a write, written 1 to clear. -/
def refusedBit (o : Nat) : Option Nat :=
  if o = 0x00 then some 29 else if o = 0x28 then some 30 else if o = 0x20010 ∨ o = 0x20018 then some 31
  else if (0x20040 ≤ o ∧ o < 0x20060) ∨ (0x20100 ≤ o ∧ o < 0x20180) then some 30 else none

/-- A write is refused by the register's own rule: it sets the bit though the write clears it. REFUSED of RAILSW, which reads 1 while a refused wake waits as
well, is here the flag that the move sets (R71). -/
def State.writeRefused (s : State) (f o v : Nat) : Bool := match refusedBit o with
  | some b =>
    let s1 := s.hubStore f o 8 (v ||| 2 ^ b) 0 2
    if o = 0x28 then (s1.hubOf f).railRefused else bitAt (s1.hubDword f o) b
  | none => false

/-- One entry: the state after the write, and the reply byte. -/
def State.policyEntry (s : State) (r : List Nat) : State × Nat :=
  let f := leAt r 3 1
  let o := leAt r 0 3
  let v := leAt r 8 8
  if s.policyRegister f o then (s.hubStore f o 8 v 0 2, natOfBool (s.writeRefused f o v)) else (s, 2)

/-- PIP.POLICY: its entries in order. -/
def State.doPipPolicy (s : State) (session seq : Nat) (body : List Nat) : State :=
  let step := fun (p : State × List Nat) (r : List Nat) => let (s1, c) := p.1.policyEntry r
    (s1, p.2 ++ [c])
  let (s1, bytes) := (records 16 body).foldl step (s, [])
  s1.reply session seq opPipPolicy stOk (bytes ++ List.replicate ((8 - bytes.length % 8) % 8) 0)

/-! ### FIELD.RESET (R85, R148, R188, R198, R252, R413) -/

/-- Every operation of a tile ends with `DEST_DARK`. -/
def Tile.failOps (t : Tile) : Tile :=
  { t with ops := t.ops.map (fun e => (e.1, if e.2.state = 0 ∨ e.2.state = 3 then e.2 else { e.2 with state := 3, stop := Cause.destDark, saved := 0 })) }

/-- The tasks that a core holds end, with the items that it holds. -/
def State.failHeld (s : State) (k : Nat) : State :=
  let c := s.coreOf k
  let s1 := (c.deque ++ c.spill).foldl (fun s r => match r.launch with
    | some id => s.endItem id (r.words.getD 1 0).toNat (some Cause.destDark)
    | none => s) s
  let s2 := c.held.foldl (fun s h => match s.launchOf h.1 with
    | some e => s.endItem h.1 (Header.itemWid e.header h.2.1) (some Cause.destDark)
    | none => s) s1
  s2.updCore k (fun c => { c with deque := [], spill := [], held := [] })

/-- The messages that wait in a core's send queues end. -/
def State.failQueues (s : State) (k : Nat) : State :=
  let ms := (s.coreOf k).sendq.flatMap (fun q => q.2)
  (ms.filter (fun m => m.pair ≠ 2)).foldl (fun s m => s.bounceAt { m with itime := s.rtime, pair := 0 } Cause.destDark k)
    (s.updCore k (fun c => { c with sendq := [] }))

/-- A message that software sent from a field or to it. -/
def Msg.ofField (m : Msg) (f : Nat) : Bool :=
  !m.hw && m.chan ≠ 3 && ((m.srcCore < 21600 && fieldOfTile (tileOfCore m.srcCore) = f) || fieldOfTile (tileOfCore m.core) = f)

/-- The messages of a field that are in flight, held in a router, or present in its ports end with `DEST_DARK` (R85). -/
def State.failMessages (s : State) (f : Nat) : State :=
  let mine := fun (k : Nat) => fieldOfTile (tileOfCore k) = f
  let ported := s.cores.flatMap (fun e => if mine e.1 then e.2.actors.flatMap (fun a => a.2.ports.flatMap (fun p => p.2.hwPart ++ p.2.oq)) else [])
  let held := s.hubs.flatMap (fun h => h.2.heldRsp.filter (fun m => m.ofField f))
  let gone := s.flying.filter (fun m => m.ofField f) ++ held ++ ported.filter (fun m => !m.hw && m.chan ≠ 3)
  let empty := fun (p : Port) => { p with hwPart := [], oq := [] }
  let s1 : State := { s with
    flying := s.flying.filter (fun m => !m.ofField f),
    hubs := s.hubs.map (fun h => (h.1, { h.2 with heldRsp := h.2.heldRsp.filter (fun m => !m.ofField f) })),
    cores := s.cores.map (fun e => (e.1, if mine e.1 then
      { e.2 with actors := e.2.actors.map (fun a => (a.1, { a.2 with ports := a.2.ports.map (fun p => (p.1, empty p.2)) })) } else e.2)) }
  gone.foldl (fun s m => s.bounceAt m Cause.destDark m.core) s1

/-- Everything at work in a field ends with `DEST_DARK`. -/
def State.killField (s : State) (f : Nat) : State :=
  let here := fun (i : Nat) => fieldOfCtx i = f
  let gone := (s.ctxs.filter (fun e => here e.1 && e.2.occ)).map (fun e => e.1)
  let parked := (s.cores.filter (fun e => fieldOfTile (tileOfCore e.1) = f)).flatMap (fun e => e.2.parked.map (fun p => (e.1, p.1)))
  let cores := (s.cores.filter (fun e => fieldOfTile (tileOfCore e.1) = f)).map (fun e => e.1)
  let s1 : State := { s with net := s.net.filter (fun a => !here a.ctx), rings := s.rings.filter (fun r => fieldOfTile r.src ≠ f && fieldOfTile r.dst ≠ f) }
  let s2 := gone.foldl (fun s i => (s.leaveSemQueues i).endFiring i (some Cause.destDark)) s1
  let s3 := parked.foldl (fun s p => s.endParked p.1 p.2 (some Cause.destDark)) s2
  let s4 := cores.foldl (fun s k => (s.failHeld k).failQueues k) (s3.failMessages f)
  { s4 with tiles := s4.tiles.map (fun e => (e.1, if fieldOfTile e.1 = f then { e.2.failOps with sems := [], semq := [] } else e.2)) }

/-- FIELD.RESET: start-up steps 3 and 4 run again, and the reply comes at their end. A field whose reset is still under
way draws BUSY, and one without a valid image FAILED with `DEST_DARK`, with nothing reset (DESIGN CHOICE; logs 133, 134). -/
def State.doFieldReset (s : State) (session seq : Nat) (body : List Nat) : State :=
  let f := leAt body 0 1
  if s.loith.resetting.any (fun r => r.2.2 = f) then s.reply session seq opFieldReset stBusy []
  else match (s.hubOf f).image with
    | none => s.replyFailed session seq opFieldReset Cause.destDark [(s.hubOf f).startup, 0, 0, 0, 0, 0, 0, 0]
    | some _ =>
      let s1 := (s.killField f).updHub f (fun h => { h with
        startup := 3, dark := false, cyc0 := 0, ncyc0 := 0, anchor := s.now, lwaiters := [], rookBusy := false, rookPos := 360, rookFirst := [] })
      { s1 with loith := { s1.loith with resetting := s1.loith.resetting ++ [(session, seq, f)] } }

/-! ### ATTEST (R28, R90) -/

/-- The partition table as its registers stand, then every valid session: number, endpoint, owner tag. -/
def State.tableBytes (s : State) : List Nat :=
  ((List.range 16).map (fun p => leBytes 64 (s.partOf p).word)).flatten ++
    ((s.loith.sessions.filter (fun e => e.2.valid)).map (fun e => leBytes 2 e.1 ++ leBytes 2 e.2.endpoint ++ leBytes 4 e.2.tag)).flatten

def State.atlasImage (s : State) : List Nat := ((List.range 130036).map (fun n => leBytes 32 (s.atlasBytes (s.atlasHub n) n))).flatten

/-- The hub that signs: one that holds identity keys and is not dark, hub 0 first (R28). -/
def State.signingHub (s : State) : Option Nat :=
  if s.loith.identity.contains 0 && !s.loith.hub0Dark && !(s.hubOf 0).dark then some 0
  else if s.loith.identity.contains 89 && !s.loith.hub89Dark && !(s.hubOf 89).dark then some 89 else none

/-- Bytes 0x000 to 0x0FF of a quote. -/
def State.quoteHead (s : State) (hub : Nat) (nonce : List Nat) : List Nat :=
  let image := s.imageOf s.imageVersionUsed
  [0x56, 0x4B, 0x41, 0x51, 1, 0, hub, 0] ++ nonce ++ leBytes 4 s.loith.device ++ leBytes 4 (s.loith.device / 16) ++ leBytes 8 s.imageVersionUsed ++
    sha3_384 (image.take (imageLen image)) ++ sha3_384 s.atlasImage ++ sha3_384 s.tableBytes ++ leBytes 4 (s.hubOf 0).rgen ++ leBytes 4 0 ++ leBytes 8 s.rtime ++
    leBytes 40 0

/-- ATTEST: the quote of R90. Where no hub holds keys the command fails, with a cause that the spec does not name (log 51). -/
def State.doAttest (s : State) (session seq : Nat) (body : List Nat) : State :=
  match s.signingHub with
  | none =>
    let (w, s1) := s.openWord
    s1.replyFailed session seq opAttest (w % 256) []
  | some hub =>
    let head := s.quoteHead hub body
    s.reply session seq opAttest stOk (head ++ (List.range 3373).map (fun i => (Config.signature head hub i).toNat))

/-! ### Execution in order (R82, R83, R85) -/

/-- A command goes: it need not wait for a drain or for the flip before it (R85). QUERY and ATTEST inject nothing. -/
def State.mayRun (s : State) (op : Nat) : Bool :=
  if op = opQuery ∨ op = opAttest then true
  else if op = opRouteFlip then s.flip.isNone
  else if op = opCopy then !s.masked 0 && !s.masked 3
  else !s.masked 2

/-- Execute a command of a bound session. Commands marked P need owner tag 0 (R83). -/
def State.execute (s : State) (session seq : Nat) (b : List Nat) : State :=
  let op := frameOp b
  let body := frameBody b
  if frameBad b then s.reply session seq op stBadCommand []
  else if 6 ≤ op ∧ op ≤ 11 ∧ (s.sessionOf session).tag ≠ 0 then s.reply session seq op stDenied []
  else match op with
    | 1 => s.doLaunch session seq (frameFlags b) body
    | 2 => s.doCopy session seq body
    | 3 => s.doQuery session seq
    | 4 => s.doResync session seq
    | 5 => s.doAtlasRead session seq body
    | 6 => s.doRouteStage session seq body
    | 7 => s.doRouteFlip session seq body
    | 8 => s.doPartCreate session seq body
    | 9 => s.doPartSwitch session seq body
    | 10 => s.doPipPolicy session seq body
    | 11 => s.doFieldReset session seq body
    | 12 => s.doAttest session seq body
    | _ => s

/-- Execute what is held and follows without a gap, as far as it may run. -/
def State.runHeld (session : Nat) : Nat → State → State
  | 0, s => s
  | fuel + 1, s =>
    let q := s.sessionOf session
    match List.find? (fun e => e.1 = q.next) q.held with
    | none => s
    | some (seq, b) =>
      if !s.mayRun (frameOp b) then s
      else State.runHeld session fuel ((s.updSession session (fun q =>
        { q with next := q.next + 1, held := q.held.filter (fun e => e.1 ≠ seq), outstanding := q.outstanding ++ [seq] })).execute session seq b)

/-- The clock of the gap below the held commands: it starts where a gap has opened, and stops where there is none. -/
def State.noteGap (s : State) (session : Nat) (before : Nat) : State :=
  s.updSession session (fun q =>
    if q.held.isEmpty || q.held.any (fun e => e.1 = q.next) then { q with gapSince := none }
    else if q.gapTold = q.next then { q with gapSince := none }
    else if q.next ≠ before || q.gapSince.isNone then { q with gapSince := some s.rtime } else q)

/-- What the sessions hold goes on, after a drain (R85). -/
def State.wakeCommands (s : State) : State :=
  s.loith.sessions.foldl (fun s e => (State.runHeld e.1 64 s).noteGap e.1 (s.sessionOf e.1).next) s

/-- A command of a bound session by its sequence number (R82). -/
def State.sequenced (s : State) (session : Nat) (b : List Nat) : State :=
  let seq := frameSeq b
  let op := frameOp b
  let q := s.sessionOf session
  if seq < q.next then
    match List.find? (fun e => e.1 = seq) q.replies with
    | some (_, fs) => s.sendFrames fs
    | none => s.answerOnly session seq op stDuplicate []
  else if q.held.any (fun e => e.1 = seq) then s
  else if q.held.length + q.outstanding.length ≥ 64 then s.answerOnly session seq op stBusy []
  else (State.runHeld session 65 (s.updSession session (fun q => { q with held := q.held ++ [(seq, b)] }))).noteGap session q.next

/-- The device answers: not both hubs are dark (R91). -/
def State.answers (s : State) : Bool := !(s.loith.hub0Dark && s.loith.hub89Dark)

/-- A frame arrives from an endpoint (R79, R81, R82, R91): in a takeover it waits at its fabric interface. Before start-up step 6 there is no command
actor (R29), but for QUERY where no image is valid (R27). A malformed frame from an endpoint that its session is not bound to draws BAD_COMMAND (R80, R82;
DESIGN CHOICE; log 132). -/
def State.receive (s : State) (endpoint : Nat) (b : List Nat) : State :=
  let session := frameSession b
  let q := s.sessionOf session
  if !s.answers then s
  else if s.bank.takeoverAt.isSome then { s with loith := { s.loith with atDoor := s.loith.atDoor ++ [(endpoint, b)] } }
  else if s.passesOn b then s.passOn b
  else if !s.frameMine b then s
  else if s.loith.imageBad then
    (if frameBad b then s.answerOnly session (frameSeq b) (frameOp b) stBadCommand []
     else if frameOp b = opQuery then s.answerOnly session (frameSeq b) opQuery stOk s.queryBody
     else s.answerOnly session (frameSeq b) (frameOp b) stNotReady [])
  else if !s.loith.ready then s
  else if !q.valid || q.endpoint ≠ endpoint then s.answerOnly session (frameSeq b) (frameOp b) (if frameBad b then stBadCommand else stDenied) []
  else s.sequenced session b

/-- The bytes of the frame that an event brings. -/
def State.frameArg (s : State) : List Nat := s.arg.list.map (· % 256)

/-- A good frame of a command arrives from endpoint `value`. -/
def State.onFrame (s : State) (op : Nat) : Out :=
  let b := s.frameArg
  .next (if frameBad b || frameOp b ≠ op then s else s.receive s.arg.value b)

end Sys2Proof.Machine
end

