-- ==== Sys2Proof/Machine/Loith.lean ====
section
/-! DEFINITION. The events of the links and the command actor: R22, R39, R40, R57, R79 to R91, R97, R425. A command event brings the bytes of its frame in
`arg.list` and the endpoint that sent it in `arg.value`; it does nothing where the frame is not one of its command. -/

namespace Sys2Proof.Machine

/-! ### The commands (R83) -/

/-- `LOITH_LAUNCH` (R83, R131). -/
def execLoithLaunch (s : State) : Out := s.onFrame opLaunch
/-- `COPY` (R83, R85). -/
def execCopy (s : State) : Out := s.onFrame opCopy
/-- `QUERY` (R84). -/
def execQuery (s : State) : Out := s.onFrame opQuery
/-- `RESYNC` (R87). -/
def execResync (s : State) : Out := s.onFrame opResync
/-- `ATLAS_READ` (R84). -/
def execAtlasRead (s : State) : Out := s.onFrame opAtlasRead
/-- `ROUTE_STAGE` (R37). -/
def execRouteStage (s : State) : Out := s.onFrame opRouteStage
/-- `ROUTE_FLIP` (R40). -/
def execRouteFlip (s : State) : Out := s.onFrame opRouteFlip
/-- `PART_CREATE` (R93). -/
def execPartCreate (s : State) : Out := s.onFrame opPartCreate
/-- `PART_SWITCH` (R425). -/
def execPartSwitch (s : State) : Out := s.onFrame opPartSwitch
/-- `PIP_POLICY` (R84). -/
def execPipPolicy (s : State) : Out := s.onFrame opPipPolicy
/-- `FIELD_RESET` (R85). -/
def execFieldReset (s : State) : Out := s.onFrame opFieldReset
/-- `ATTEST` (R90). -/
def execAttest (s : State) : Out := s.onFrame opAttest

/-- `LOITH_BAD_COMMAND` (R80, R83, R84). -/
def execLoithBadCommand (s : State) : Out :=
  let b := s.frameArg
  .next (if frameBad b then s.receive s.arg.value b else s)

/-- The gap of a session has stayed open for 100 ms (R82). -/
def State.gapDue (s : State) (session : Nat) : Bool := match (s.sessionOf session).gapSince with
  | some t => decide (t + 100000000 ≤ s.rtime)
  | none => false

/-- `SEQUENCE_GAP_TIMEOUT` of session `unit`: one event frame of kind 5, to the session concerned (R82, R86). -/
def execSequenceGapTimeout (s : State) : Out :=
  let n := s.arg.unit
  if !s.gapDue n then .next s
  else
    let q := s.sessionOf n
    let body := leBytes 8 5 ++ leBytes 2 n ++ leBytes 6 0 ++ leBytes 8 q.next
    let f : Frame := { session := n, seq := s.loith.events + 1, opcode := 0xC000, device := s.loith.device, body := body, rtime := s.rtime }
    let s1 : State := { s with loith := { s.loith with events := s.loith.events + 1, out := s.loith.out ++ [f] } }
    .next (s1.updSession n (fun q => { q with gapSince := none, gapTold := q.next }))

/-! ### The ends of drains and switches (R40, R97) -/

/-- `ROUTE_DRAIN_COMPLETE` (R40): commands that waited for the drain go on. -/
def execRouteDrainComplete (s : State) : Out := match s.flip with
  | none => .next s
  | some p => .next (if s.drained then (s.finishFlip p).wakeCommands else s)

/-- The drain limit has passed. -/
def State.drainLate (s : State) : Bool := match s.flip with
  | none => false
  | some p => !s.drained && decide (p.deadline ≤ s.rtime)

/-- `ROUTE_DRAIN_TIMEOUT` (R40). -/
def execRouteDrainTimeout (s : State) : Out := match s.flip with
  | none => .next s
  | some p => .next (if s.drainLate then (s.abandonFlip p).wakeCommands else s)

/-- `SWITCH_RESTORE_END` in field `unit` (R65, R85, R97). -/
def execSwitchRestoreEnd (s : State) : Out :=
  let f := s.arg.unit
  .next (if s.restoreDue f then ((s.restoreField f).switchReplies f).resumeCopies else s)

/-! ### Time across the domain (R22, R88) -/

/-- The offset of an exchange in units of model time: t1 and t4 are the device's, t2 and t3 the parent's, then the port's asymmetry. -/
def timeOffset (l : List Nat) (neg : Bool) : Int :=
  let t := fun (i : Nat) => (l.getD i 0 : Int)
  let a := if neg then -t 4 else t 4
  (((t 1 - t 0) - (t 3 - t 2) - 2 * a) * (Config.unitsPerNs : Int)) / 2

/-- `TIME_EXCHANGE` (R22, R88): `arg.list` holds t1, t2, t3, t4 and the asymmetry, negative with `flag`. Before the device is ready the first message of a
domain that is ready already loads the epoch at start-up step 5, forward only; once it is loaded the offset is slewed away. -/
def execTimeExchange (s : State) : Out :=
  let d := timeOffset s.arg.list s.arg.flag
  if s.loith.epoch || s.loith.ready then .next { s with loith := { s.loith with synced := s.rtime, parent := true, lower := true, lost := false, offset := d } }
  else if !(List.range 90).any (fun f => s.inStep f 5) then .next s
  else
    let ns := d / (Config.unitsPerNs : Int)
    let t := max s.rtime ((s.rtime : Int) + ns).toNat
    let s1 : State := { s with rtime := t, loith := { s.loith with epoch := true, synced := t, parent := true, lower := true, offset := 0 } }
    .next (s1.report s1.firstHub .timeEpoch 0 [t])

/-- A device that is not the time root has had no exchange for 100 ms (R88). -/
def State.syncLostDue (s : State) : Bool :=
  s.loith.ready && (s.loith.parent || s.loith.lower) && !s.loith.lost && decide (s.loith.synced + 100000000 ≤ s.rtime)

/-- `RTIME_SYNC_LOST` (R88): the device keeps counting from its own oscillator. -/
def execRtimeSyncLost (s : State) : Out :=
  if !s.syncLostDue then .next s
  else .next (({ s with loith := { s.loith with lost := true, offset := 0 } } : State).report s.firstHub .rtimeSyncLost 0 [])

/-! ### Hubs 0 and 89, and the bridge (R57, R79, R91) -/

/-- Both hubs are dark: every port goes down. -/
def State.goSilent (s : State) : State :=
  if s.loith.hub0Dark && s.loith.hub89Dark then { s with bank := { s.bank with takeoverAt := none }, loith := { s.loith with darkPorts := List.range 72 } } else s

/-- A hub goes dark in service. -/
def State.hubDark (s : State) (f : Nat) : State := s.setNode f (256 + 1442 * f + 1) (fun r => r.withStatus 2 2)

/-- Hub 89 has taken long enough: it stands in within 50 µs (R57, R91). -/
def State.takeoverDue (s : State) : Bool := match s.bank.takeoverAt with
  | some t => decide (t + 50000 ≤ s.rtime)
  | none => false

/-- `HUB0_TAKEOVER` (R57, R91): hub 0 goes dark and the takeover begins; then it ends, hub 89 stands in, and serves the commands that waited. -/
def execHub0Takeover (s : State) : Out :=
  if !s.loith.ready then .next s
  else if !s.loith.hub0Dark then
    let s1 := s.hubDark 0
    .next ({ s1 with bank := { s1.bank with mirrok := false, takeoverAt := some s.rtime }, loith := { s1.loith with hub0Dark := true } } : State).goSilent
  else match s.bank.takeoverAt with
    | none => .next s
    | some _ =>
      let s1 := (({ s with bank := { s.bank with onmirror := true, takeoverAt := none } } : State).deriveKeys).report 89 .bankTakeover 0 []
      .next (s1.loith.atDoor.foldl (fun s e => s.receive e.1 e.2) { s1 with loith := { s1.loith with atDoor := [] } })

/-- `HUB_89_DARK` (R91). -/
def execHub89Dark (s : State) : Out :=
  if !s.loith.ready || s.loith.hub89Dark then .next s
  else
    let s1 := s.hubDark 89
    .next ({ s1 with bank := { s1.bank with mirrok := false }, loith := { s1.loith with hub89Dark := true } } : State).goSilent

/-- `BRIDGE_TAKEOVER` (R79): this device, which has a trained Ultra Ethernet port, becomes the bridge of its group and announces itself; with `flag` device
`value` has become the bridge. -/
def execBridgeTakeover (s : State) : Out :=
  if s.arg.flag then .next { s with loith := { s.loith with bridge := some (s.arg.value % 1024) } }
  else if s.loith.bridge = some s.loith.device || !s.ueUp then .next s
  else .next ((({ s with loith := { s.loith with bridge := some s.loith.device } } : State).eventFrame [] (leBytes 8 4)).report s.firstHub .bridgeChange 0 [])

end Sys2Proof.Machine
end

