-- ==== Sys2Proof/Machine/Sparse.lean ====
section
/-! DEFINITION. The sparse engine of an S-tile: R261, R408 to R412. SACC lane (r, c) is word 64 r + c of engine state. -/

namespace Sys2Proof.Machine

/-- The generic start of a paced sparse instruction: roles, occupancy, pace (R412). -/
def State.sparseIssue (s : State) (k : State → Out) : Out :=
  match s.engineRole 1 15 with
  | some c => s.faultC c
  | none => s.afterOccupancy fun s => s.pace .four k

/-- What an S-tile operand may be (R263): its format, and one of the geometries. -/
def State.sparseFormat (s : State) (fmt : Nat) : Option Cause :=
  if (fmt ≠ 0x06 ∧ fmt ≠ 0x08 ∧ fmt ≠ 0x09) ∨ !bitAt (s.engineMask (tileOfCtx s.cur)) fmt then some .fmtUnsupported else none
def State.sparseAccepts (s : State) (geos : List Nat) (late : Option Cause) (fmt geo : Nat) : Option Cause :=
  match s.sparseFormat fmt with
  | some c => some c
  | none => match late with
    | some c => some c
    | none => if !geos.contains geo || geoPairBad fmt geo then some .geoPath else none

/-- The operand pairs of R408. -/
def sparsePair (fa fb : Nat) : Option Cause := if (fa = 0x06) = (fb = 0x06) then none else some .mmaFmt

/-- Raw bytes that the engine needs now: translated, free of poison, and read. -/
def State.withRaw (s : State) (va n : Nat) (k : Nat → Out) : Out :=
  s.orHalt (s.rawRun .read va n) fun ps =>
    if s.piecesOpen ps then State.notePieces ps (k (s.piecesValue ps)) else s.engineStop ps 0 va

/-- A descriptor of 32 bytes, as four doublewords. -/
def State.withDesc32 (s : State) (va : Nat) (k : List Word → Out) : Out := s.withRaw va 32 fun v => k (doublewords 4 v)

/-- A lane of SACC after the exact sum of a run of terms: two roundings. No term leaves it as it is. -/
def runInto (acc : Nat) (terms : List (XNum × XNum × Nat)) : Nat :=
  if terms.isEmpty then acc
  else if terms.any (fun t => t.2.2 = 255) then addS acc fp32.qnan
  else addS acc (roundS (exactDot (terms.map (fun t => (t.1, t.2.1.scale ((t.2.2 : Int) - 127))))))

/-- Lists of at most 32, in order. -/
def chunks32 {α : Type} : Nat → List α → List (List α)
  | 0, _ => []
  | _, [] => []
  | n + 1, l => l.take 32 :: chunks32 n (l.drop 32)

/-- A row of B as values with the scale of each column. -/
def bRow (fmt : Nat) (r : Row) : List (XNum × Nat) := (r.values fmt (fun _ => 0)).mapIdx (fun c v => (v, r.scales.getD (c / 32) 127))

/-- One row of SACC of `sp.mm`: entries are a value and a row of B (R409). -/
def sparseRow (acc : List Nat) (entries : List (XNum × List (XNum × Nat))) : List Nat :=
  (chunks32 (entries.length / 32 + 1) entries).foldl (fun acc run =>
    acc.mapIdx (fun c v => runInto v (run.map (fun e => (e.1, e.2.getD c (.nan, 127)))))) acc

/-- The rows of SACC that an instruction works on, with ZERO cleared first. -/
def Engine.saccRow (e : Engine) (t : Nat) (zero : Bool) : List Nat := if zero then List.replicate 64 0 else e.words (64 * t) 64

/-- A row of the matrix: whether its pointers fell, its column indices, and the pieces that they were read from (R409). -/
structure CsrRow where
  fallen : Bool
  lo : Nat
  cols : List Nat
  runs : List Piece
  deriving DecidableEq, Repr

/-- Read the column indices of rows in turn. -/
def State.readCols (s : State) (colidx : Nat) : List (Nat × Nat) → Except Halt (List CsrRow)
  | [] => .ok []
  | (lo, hi) :: rest =>
    let here : Except Halt CsrRow :=
      if hi < lo then .ok ⟨true, lo, [], []⟩
      else match s.rawRun .read (colidx + 4 * lo) (4 * (hi - lo)) with
        | .error h => .error h
        | .ok ps =>
          match s.piecesWay ps with
          | .error none => .error .wait
          | .error (some c) => .error (.bad c colidx (accSyndrome c .read 1 0))
          | .ok _ =>
            if s.piecesPoisoned ps then .error (.bad (s.operandCause ps) colidx 0)
            else .ok ⟨false, lo, unpackLanes 32 (hi - lo) (s.piecesValue ps), ps⟩
    match here, s.readCols colidx rest with
    | .error h, _ => .error h
    | _, .error h => .error h
    | .ok r, .ok rs => .ok (r :: rs)

/-- Continue, or take the halt with ACCST.ERR where it is poison (R246, R412). -/
def State.orEngineHalt {α : Type} (s : State) (r : Except Halt α) (k : α → Out) : Out :=
  match r with
  | .error (.bad c a y) => if c = .linePoison ∨ c = .ueOperand then s.engineHalt c 0 a else s.faultC c a y
  | .error .wait => .next (s.stallOn 0)
  | .ok v => k v

/-- The stored entries of rows translated: their page, the address of the first, and the pieces of each row (R409). -/
def State.valsAt (s : State) (vals : Nat) (rows : List CsrRow) : Except Halt (Option (Pte × Nat × List (List Piece))) :=
  match rows.find? (fun r => !r.cols.isEmpty) with
  | none => .ok none
  | some r0 =>
    match (s.fieldView (coreOfCtx s.cur)).mapRange s.cur vals 1 .read 1 with
    | .error h => .error h
    | .ok [] => .error .wait
    | .ok (p :: _) =>
      let n := fmtBits p.pte.fmt / 8
      let runs := rows.map (fun r => s.rawRun .read (vals + n * r.lo) (n * r.cols.length))
      match runs.find? (fun r => match r with | .error _ => true | .ok _ => false) with
      | some (.error h) => .error h
      | _ =>
        .ok (some (p.pte, vals + n * r0.lo, runs.map (fun r => match r with | .ok q => q | .error _ => [])))

/-- The format, pieces and codes of the stored entries of rows (R409). -/
def State.csrVals (s : State) (vals : Nat) (rows : List CsrRow) : Except Halt (Option (Nat × Nat × List (List Piece))) :=
  match s.valsAt vals rows with
  | .error h => .error h
  | .ok none => .ok none
  | .ok (some (e, va, ps)) =>
    match decodeCause e ps.flatten [] with
    | some c => .error (.bad c va (accSyndrome c .read 1 0))
    | none => .ok (some (e.fmt, e.geo, ps))

/-- `sp.mm` (R409, R412). B keeps the placement rules of R376; VALS off the start of an element breaks R255. -/
def execSpMm (f : FmtWE) (s : State) : Out :=
  s.slotC (.spMm f) fun s =>
    s.sparseIssue fun s =>
      let strict := bitAt f.opt.toNat 0
      let zero := bitAt f.opt.toNat 1
      let nr := bitsAt f.ext.toNat 5 0 + 1
      let row0 := bitsAt f.ext.toNat 11 6
      s.withDesc32 (s.x f.xa).toNat fun d =>
        let rowptr := (d.getD 0 0).toNat
        let colidx := (d.getD 1 0).toNat
        let vals := (d.getD 2 0).toNat
        let kb := bitsOf (d.getD 3 0) 31 0
        let bva := (s.x f.xb).toNat
        let pitch := (s.x f.xc).toNat
        if bitsOf (d.getD 3 0) 63 32 ≠ 0 then s.faultC .descBad (s.x f.xa).toNat
        else s.withRaw rowptr (4 * (nr + 1)) fun rpv =>
          let rp := unpackLanes 32 (nr + 1) rpv
          s.orEngineHalt (s.readCols colidx ((List.range nr).map (fun r => (rp.getD r 0, rp.getD (r + 1) 0)))) fun rows =>
            let used := ((rows.flatMap (fun r => r.cols)).filter (· < kb)).eraseDups
            let late := if nr + row0 > 64 then some Cause.immRange else none
            let starts := used.map (fun q => (bva + q * pitch) % 2 ^ 64)
            s.orHalt (s.valsAt vals rows) fun vr =>
            s.orHalt (whereHas vr.isSome (s.rowsAt .read bva starts (fun _ => 64))) fun br =>
            let valsBy := fun (c : Pte → Nat → List (List Piece) → Option Cause) => vr.bind (fun v => c v.1 v.2.1 v.2.2)
            s.orFirst [(((vr.map (fun v => v.2.1)).getD vals), valsBy (fun e _ ps => decodeCause e ps.flatten [])), (bva, br.bind rowCodes),
                (vals, valsBy (fun e _ _ => s.sparseFormat e.fmt)), (bva, br.bind (fun r => s.sparseFormat r.2.fmt)),
                (bva, br.bind (fun r => valsBy (fun e _ _ => sparsePair e.fmt r.2.fmt))), (0, late),
                (vals, valsBy (fun e _ _ => s.sparseAccepts [0] none e.fmt e.geo))] fun _ =>
            s.orEngineHalt (s.csrVals vals rows) fun vp =>
              let finish := fun (va : List (List XNum)) (brows : KMap (List (XNum × Nat))) =>
                let e := (List.range nr).foldl (fun e r =>
                  let t := row0 + r
                  let row := rows.getD r ⟨true, 0, [], []⟩
                  let acc := e.saccRow t zero
                  if row.fallen then { e.setWords (64 * t) acc with sprow := true }
                  else e.setWords (64 * t) (sparseRow acc (List.zip (va.getD r []) (row.cols.map (fun q => brows.get [] q))))) s.eng
                let p := ((rows.map (fun r => r.cols.length)).sum)
                State.notePieces (rows.flatMap (fun r => r.runs)) (s.engineDone e (occupancyOf (max 1 ((p + 63) / 64)) s.tile.h 1) false)
              let rowCause :=
                (rows.findSome? (fun r => if r.fallen then (if strict then some Cause.sparseRowptr else none)
                  else if r.cols.any (fun q => q ≥ kb) then some .sparseIndex else none))
              match vp with
              | none => s.orCause (late.or rowCause) fun _ => finish [] []
              | some (vfmt, vgeo, vps) =>
                let accepts := fun (fmt geo : Nat) => match s.sparseAccepts [0] none vfmt vgeo with
                  | some c => some c
                  | none => s.sparseAccepts [0, 1, 2] ((sparsePair vfmt fmt).or late) fmt geo
                s.orHalt (s.planAt .read bva pitch starts (fun _ => 64) accepts none) fun bp =>
                  s.orCause (if vals % (fmtBits vfmt / 8) ≠ 0 then some .fmtPacking else rowCause) fun _ =>
                    if !s.piecesOpen vps.flatten then s.engineStop vps.flatten 0 vals
                    else if !s.rowsOpen bp then s.engineStop bp.pieces 0 bva
                    else
                      let va := rows.mapIdx (fun r row => (unpackLanes (fmtBits vfmt) row.cols.length (s.piecesValue (vps.getD r []))).map (decodeElem vfmt (fun _ => 0)))
                      State.notePieces (vps.flatten ++ bp.pieces) <| finish va (List.zip used ((s.readRows bp 64).map (bRow bp.fmt)))

/-! ### `sp.bm` (R261, R410) -/

/-- The logical positions of the 32 kept elements of a row, from its 8 metadata bytes; none with two equal indices in a group. -/
def keptAt (meta_ : Nat) : Option (List Nat) :=
  let groups := (List.range 16).map (fun g => (g, meta_ / 2 ^ (4 * g) % 4, meta_ / 2 ^ (4 * g + 2) % 4))
  if groups.any (fun t => t.2.1 = t.2.2) then none else some (groups.flatMap (fun t => [4 * t.1 + t.2.1, 4 * t.1 + t.2.2]))

/-- `sp.bm` (R410). -/
def execSpBm (f : FmtWE) (s : State) : Out :=
  s.slotC (.spBm f) fun s =>
    s.sparseIssue fun s =>
      let zero := bitAt f.opt.toNat 1
      let half := f.ext.toNat % 2
      s.withDesc32 (s.x f.xa).toNat fun d =>
        let ava := (d.getD 0 0).toNat
        let mva := (d.getD 1 0).toNat
        let bva := (d.getD 2 0).toNat
        let apitch := bitsOf (d.getD 3 0) 31 0
        let bpitch := bitsOf (d.getD 3 0) 63 32
        s.orHalt (s.rowsAt .read ava (rowStarts ava apitch 32) (fun _ => 32)) fun ar =>
        s.orHalt (s.rawRun .read mva 256) fun mp =>
        s.orHalt (s.rowsAt .read bva (rowStarts bva bpitch 64) (fun _ => 64)) fun br =>
        s.orFirst [(ava, rowCodes ar), (bva, rowCodes br), (ava, s.sparseFormat ar.2.fmt), (bva, s.sparseFormat br.2.fmt),
            (bva, sparsePair ar.2.fmt br.2.fmt)] fun _ =>
          s.orHalt (s.rowPlan .read ava apitch 32 (fun _ => 32) (s.sparseAccepts [3] none) none) fun ap =>
            let accepts := fun (fmt geo : Nat) => s.sparseAccepts [0, 1, 2] (sparsePair ap.fmt fmt) fmt geo
            s.orHalt (s.rowPlan .read bva bpitch 64 (fun _ => 64) accepts none) fun bp =>
              let kept := (unpackLanes 64 32 (s.piecesValue mp)).map keptAt
              if !s.piecesOpen mp then s.engineStop mp 0 mva
              else if kept.any Option.isNone then s.faultC .sparseMeta mva
              else if !s.rowsOpen ap then s.engineStop ap.pieces 0 ava
              else if !s.rowsOpen bp then s.engineStop bp.pieces 0 bva
              else
                let brows := (s.readRows bp 64).map (bRow bp.fmt)
                let arows := (s.readRows ap 32).map (fun r => r.values ap.fmt (fun _ => 0))
                let e := (List.range 32).foldl (fun e i =>
                  let t := 32 * half + i
                  let entries := List.zip (arows.getD i []) (((kept.getD i none).getD []).map (fun q => brows.getD q []))
                  e.setWords (64 * t) (sparseRow (e.saccRow t zero) entries)) s.eng
                State.notePieces (mp ++ ap.pieces ++ bp.pieces) (s.engineDone e (occupancyOf 16 s.tile.h 1) false)

/-! ### `sp.drop` and `sp.grow` (R411) -/

/-- Key order of magnitudes with NaN above every number. -/
def magLess (a b : XNum) : Bool := if b.isNan then !a.isNan else XNum.lt a.abs b.abs
def magEq (a b : XNum) : Bool := (a.isNan && b.isNan) || XNum.eq a.abs b.abs

/-- The first min(k, candidates) positions in the order, and whether the index decided the last of them (R408, R411). -/
def pickPositions (vals : List XNum) (cand : List Nat) (descending : Bool) (k : Nat) : List Nat × Bool :=
  let v := fun (e : Nat) => vals.getD e .nan
  let before := fun (x e : Nat) => (if descending then magLess (v e) (v x) else magLess (v x) (v e)) || (magEq (v x) (v e) && decide (x < e))
  let rank := fun (e : Nat) => (cand.filter (fun x => before x e)).length
  let chosen := cand.filter (fun e => rank e < k)
  let last := cand.find? (fun e => rank e + 1 = min k cand.length)
  let next := cand.find? (fun e => rank e = min k cand.length)
  (chosen, match last, next with
    | some a, some b => magEq (v a) (v b)
    | _, _ => false)

/-- Store bytes at an address that has been translated. -/
def State.storeVa (s : State) (va n v : Nat) : State :=
  match (s.fieldView (coreOfCtx s.cur)).mapRange s.cur va n .write n with
  | .ok ps => s.issuePieces .store (s.cutPieces ps) v
  | .error _ => s

/-- One row: the positions chosen, the new mask, and the stores (R411). A mask doubleword is stored when a bit of it changes. -/
def State.selectRow (s : State) (va mva size k : Nat) (vals : List XNum) (mask : Nat) (drop : Bool) : State :=
  let cand := (List.range 64).filter (fun e => bitAt mask e = drop)
  let (chosen, tie) := pickPositions vals cand (!drop) k
  let bits := (chosen.map (fun e => 2 ^ e)).sum
  let s1 := if drop then chosen.foldl (fun s e => s.storeVa (va + size * e) size 0) s else s
  let s2 := if chosen.isEmpty then s1 else s1.storeVa mva 8 (if drop then mask - bits else mask + bits)
  s2.updEng (fun e =>
    let add := fun (m : KMap Nat) (n d : Nat) => m.put n ((m.get 0 n + d) % 2 ^ 48)
    { e with spcnt := add (add (add e.spcnt (if drop then 0 else 1) chosen.length) 2 1) 3 (natOfBool tie) })

/-- `sp.drop` and `sp.grow` (R411, R412). -/
def State.sparseSelect (s : State) (f : FmtWE) (drop : Bool) : Out :=
  s.sparseIssue fun s =>
    let nr := bitsAt f.ext.toNat 5 0 + 1
    let k := bitsAt f.ext.toNat 12 6
    let va := (s.x f.xa).toNat
    let pitch := (s.x f.xb).toNat
    let mva := (s.x f.xc).toNat
    let accepts := s.sparseAccepts [0] (if k > 64 then some .spKRange else none)
    let dest := if drop then s.rowPlan .write va pitch nr (fun _ => 64) accepts none else s.rowPlan .read va pitch nr (fun _ => 64) accepts none
    s.orHalt (s.rawRun .read mva (8 * nr)) fun mp =>
      s.orHalt (s.rawRun .write mva (8 * nr)) fun mw =>
      s.orHalt (s.rowsAt .read va (rowStarts va pitch nr) (fun _ => 64)) fun _ =>
      s.orHalt (whereHas drop (s.rowsAt .write va (rowStarts va pitch nr) (fun _ => 64))) fun _ =>
        s.orHalt (s.rowPlan .read va pitch nr (fun _ => 64) accepts none) fun p =>
          s.orHalt dest fun q =>
            if !s.rowsOpen p then s.engineStop p.pieces 0 va
            else if !s.piecesOpen mp then s.engineStop mp 0 mva
            else if s.rowsFull q || s.piecesFull mw then .next (s.stallOn 0)
            else
              let rows := (s.readRows p 64).map (fun r => r.values p.fmt (fun _ => 0))
              let masks := unpackLanes 64 nr (s.piecesValue mp)
              let s1 := (List.range nr).foldl (fun s r =>
                s.selectRow (va + r * pitch) (mva + 8 * r) (fmtBits p.fmt / 8) k (rows.getD r []) (masks.getD r 0) drop) s
              State.notePieces (p.pieces ++ mp) ((s1.updEng (fun _ => s.eng)).engineDone s1.eng (occupancyOf nr s.tile.h 1) false)

/-- `sp.drop` (R411). -/
def execSpDrop (f : FmtWE) (s : State) : Out := s.slotC (.spDrop f) fun s => s.sparseSelect f true

/-- `sp.grow` (R411). -/
def execSpGrow (f : FmtWE) (s : State) : Out := s.slotC (.spGrow f) fun s => s.sparseSelect f false

/-- `sp.cnt` (R412). -/
def execSpCnt (f : FmtWE) (s : State) : Out :=
  s.slotC (.spCnt f) fun s =>
    let n := f.opt.toNat % 4
    match s.engineRole 1 15 with
    | some c => s.faultC c
    | none => s.afterOccupancy fun s =>
      let v := s.eng.spcnt.get 0 n
      let e := if bitAt f.opt.toNat 2 then { s.eng with spcnt := s.eng.spcnt.put n 0 } else s.eng
      (s.setX f.xa (BitVec.ofNat 64 v)).engineDone e 1 false

end Sys2Proof.Machine
end

