-- ==== Sys2Proof/Machine/WorkList.lean ====
section
/-! DEFINITION. Work-lists: R345, R406, R407. -/

namespace Sys2Proof.Machine

/-- A work-list object (R406). -/
structure WorkList where
  v : Bool
  core : Nat
  dd : Bool
  rcnt : Nat
  dcnt : Nat
  head : Nat
  ring : Nat
  dtab : Nat
  spillVa : Nat
  spillCap : Nat
  shead : Nat
  scnt : Nat
  deriving DecidableEq, Repr

def workListOf (d : List Word) : WorkList :=
  { v := bitAt (d.getD 0 0).toNat 63, core := bitsOf (d.getD 0 0) 62 62, dd := bitAt (d.getD 0 0).toNat 61,
    rcnt := bitsOf (d.getD 0 0) 60 50, dcnt := bitsOf (d.getD 0 0) 49 37,
    head := bitsOf (d.getD 1 0) 41 32, ring := bitsOf (d.getD 1 0) 21 0, dtab := bitsOf (d.getD 2 0) 21 0,
    spillVa := bitsOf (d.getD 3 0) 59 0, spillCap := bitsOf (d.getD 4 0) 47 0, shead := bitsOf (d.getD 5 0) 47 0, scnt := bitsOf (d.getD 6 0) 47 0 }

/-- STATUS of an object (R406). -/
def WorkList.status (w : WorkList) : Nat :=
  natOfBool w.v * 2 ^ 63 + w.core * 2 ^ 62 + natOfBool w.dd * 2 ^ 61 + w.rcnt * 2 ^ 50 + w.dcnt * 2 ^ 37

/-- The doublewords of an object as one number. -/
def WorkList.number (w : WorkList) : Nat :=
  packLanes 64 [w.status, w.head * 2 ^ 32 + w.ring, w.dtab, w.spillVa, w.spillCap, w.shead, w.scnt, 0]

/-- The malformed objects of R407, but for the misaligned object itself. -/
def WorkList.bad (w : WorkList) : Bool :=
  !w.v || w.ring % 8192 ≠ 0 || w.ring + 8192 > 0x300000 || (w.dd && (w.dtab % 32768 ≠ 0 || w.dtab + 32768 > 0x300000)) || w.spillVa % 8 ≠ 0 ||
    w.rcnt > 1024 || w.dcnt > 4096 || w.scnt > w.spillCap

/-- A GPA lies in the local store of the issuing tile. -/
def State.ownStore (s : State) (g : Nat) : Bool :=
  s.homeOf g = .tile (tileOfCtx s.cur) && gpaSpace g = 0 && gpaWindow g < 0x300000

/-- Own-tile stores of the firing that are not yet performed: a work-list instruction comes after them (R206, R406). -/
def State.afterOwnStores (s : State) (k : State → Out) : Out := if s.ownPending then .next (s.stallOn 0) else k s

/-- Find the object at a VA: translation, then owner, then form (R407). The continuation has the object and the key of its first byte. -/
def State.withWorkList (s : State) (va : Nat) (writes : Bool) (k : State → WorkList → Nat → Out) : Out :=
  s.afterOwnStores fun s =>
    s.orHalt (s.mapRange s.cur va 1 .read 8) fun ps =>
      match ps with
      | [] => .next (s.stallOn 0)
      | p :: _ =>
        if !s.ownStore p.gpa then s.faultC .wlOwner va
        else if va % 64 ≠ 0 then s.faultC .wlBad va
        else s.orHalt (if writes then s.mapRange s.cur va 64 .write 64 else .ok []) fun _ =>
          let g := gpaKey p.gpa
          if s.poison.contains (lineOf g) then s.faultC (s.poisonCause [(p.gpa, 64)]) va (accSyndrome .linePoison .read 64 0)
          else
            let w := workListOf (doublewords 8 (s.mem.readLE g 64))
            if w.core ≠ s.cur / 8 % 2 then s.faultC .wlOwner va
            else if w.bad then s.faultC .wlBad va
            else k s w g

/-- A doubleword of the issuing tile's local store. -/
def State.ownKey (s : State) (off : Nat) : Nat := gpaKey (tileGpa (tileOfCtx s.cur) off)
def State.localDouble (s : State) (off : Nat) : Nat := s.mem.readLE (s.ownKey off) 8

/-- Doublewords of the issuing tile's local store, one of them in a poisoned line: a read of them faults (R125). -/
def State.localPoison (s : State) (offs : List Nat) : Option Nat := offs.find? (fun o => s.poison.contains (lineOf (s.ownKey o)))

/-- Continue where no doubleword that is to be read lies in a poisoned line (R125). -/
def State.unlessPoisoned (s : State) (offs : List Nat) (va : Nat) (k : Unit → Out) : Out :=
  match s.localPoison offs with
  | some o => let c := s.poisonCause [(tileGpa (tileOfCtx s.cur) o, 8)]
    s.faultC c va (accSyndrome c .read 8 0)
  | none => k ()

/-- Write a doubleword of memory of this device at a key: into a poisoned line it is dropped, and counts as a store that hit poison (R125, R211). -/
def State.putDouble (s : State) (key v : Nat) : State :=
  if s.poison.contains (lineOf key) then s.upd (fun c => c.countFailure 3) else { s with mem := s.mem.writeLE key 8 v }
def State.setLocal (s : State) (off v : Nat) : State := s.putDouble (s.ownKey off) v

/-- The places of the deduplication table's values: its first DCNT doublewords (log 24). -/
def WorkList.dedupOffs (w : WorkList) : List Nat := (List.range w.dcnt).map (fun i => w.dtab + 8 * i)
def State.dedup (s : State) (w : WorkList) : List Nat := w.dedupOffs.map s.localDouble
def State.setDedup (s : State) (w : WorkList) (vs : List Nat) : State :=
  (vs.mapIdx (fun i v => (i, v))).foldl (fun s p => s.setLocal (w.dtab + 8 * p.1) p.2) s

/-- The VA of spill entry i, and of ring entry i. -/
def WorkList.spillAt (w : WorkList) (i : Nat) : Nat := w.spillVa + 8 * ((w.shead + i) % max 1 w.spillCap)
def WorkList.ringAt (w : WorkList) (i : Nat) : Nat := w.ring + 8 * ((w.head + i) % 1024)

/-- Spill entries [i, i + n) translated one by one. -/
def State.spillPieces (s : State) (w : WorkList) (acc : Acc) (i n : Nat) : Except Halt (List (List Piece)) :=
  s.mapEach acc 8 ((List.range n).map (fun j => (w.spillAt (i + j), 8)))

/-- Write a doubleword of the spill area: at once in this device's memory, as a plain store elsewhere. -/
def State.putSpill (s : State) (ps : List Piece) (v : Nat) : State :=
  match ps with
  | [p] => if s.gpaLocal p.gpa && gpaSpace p.gpa ≠ 3 then s.putDouble (gpaKey p.gpa) v else s.issuePieces .store (s.cutPieces [p]) v
  | ps => s.issuePieces .store (s.cutPieces ps) v

/-- Put the object back. -/
def State.putObject (s : State) (g : Nat) (w : WorkList) : State := { s with mem := s.mem.writeLE g 64 w.number }

/-- A status word (R407). -/
def wlStatus (code result : Nat) : Word := BitVec.ofNat 64 (code * 2 ^ 56 + result % 2 ^ 56)

/-- Push a value; `dedup` adds it to the set (R407). A full spill area that the entry would need counts as no room (log 25). -/
def State.wlAppend (s : State) (f : FmtWE) (w : WorkList) (g : Nat) (dedup : Bool) : Out :=
  let v := (s.x f.xb).toNat
  let toSpill := w.scnt > 0 || w.rcnt = 1024
  let full := (toSpill && w.scnt = w.spillCap) || (dedup && w.dcnt = 4096)
  if full then
    (if bitAt f.opt.toNat 0 then s.faultC .wlSpill (s.x f.xa).toNat else s.result f.xc (wlStatus 0x71 0))
  else
    s.orHalt (if toSpill then s.spillPieces w .write w.scnt 1 else .ok []) fun ps =>
      if s.ownBlocks (ps.flatten.map (fun q => (q.gpa, q.len))) then .next (s.stallOn 0)
      else
      let s1 := if dedup then s.setLocal (w.dtab + 8 * w.dcnt) v else s
      let w1 := if dedup then { w with dcnt := w.dcnt + 1 } else w
      if toSpill then ((s1.putSpill (ps.headD []) v).putObject g { w1 with scnt := w.scnt + 1 }).result f.xc 0
      else ((s1.setLocal (w.ringAt w.rcnt) v).putObject g { w1 with rcnt := w.rcnt + 1 }).result f.xc 0

/-- `wl.push` (R407). -/
def execWlPush (f : FmtWE) (s : State) : Out :=
  s.slotC (.wlPush f) fun s => s.withWorkList (s.x f.xa).toNat true fun s w g => s.wlAppend f w g false

/-- `wl.insd` (R407). An object without a table is malformed for it (log 25). -/
def execWlInsd (f : FmtWE) (s : State) : Out :=
  s.slotC (.wlInsd f) fun s => s.withWorkList (s.x f.xa).toNat true fun s w g =>
    if !w.dd then s.faultC .wlBad (s.x f.xa).toNat
    else s.unlessPoisoned (w.dedupOffs) (s.x f.xa).toNat fun _ =>
    if (s.dedup w).contains (s.x f.xb).toNat then s.result f.xc (wlStatus 0 1)
    else s.wlAppend f w g true

/-- Values removed one occurrence each from a list. -/
def removeAll (vs gone : List Nat) : List Nat := gone.foldl (fun l v => l.erase v) vs

/-- `wl.popb` (R407). -/
def execWlPopb (f : FmtWE) (s : State) : Out :=
  s.slotC (.wlPopb f) fun s => s.withWorkList (s.x f.xa).toNat true fun s w g =>
    let want := (s.x f.xc).toNat
    let buf := (s.x f.xb).toNat
    if want = 0 ∨ want > 1024 then s.faultC .immRange
    else
      let m := min want (w.rcnt + w.scnt)
      let fromRing := min m w.rcnt
      let fromSpill := m - fromRing
      let rleft := w.rcnt - fromRing
      let sleft := w.scnt - fromSpill
      let refill := if rleft ≤ 512 ∧ sleft > 0 then min sleft (1024 - rleft) else 0
      if m = 0 then s.result f.xc (wlStatus 0x70 0)
      else if buf % 8 ≠ 0 then s.faultC .misaligned buf (accSyndrome .misaligned .write 8 0)
      else s.orHalt (s.mapRanges s.cur .write 8 (pagesOf buf (8 * m))) fun bps =>
        s.orHalt (s.spillPieces w .read 0 (fromSpill + refill)) fun sps =>
          if !s.piecesOpen sps.flatten then s.readStop sps.flatten w.spillVa 8
          else if s.piecesFull bps then .next (s.stallOn 0)
          else s.unlessPoisoned ((List.range fromRing).map w.ringAt ++ (if w.dd then w.dedupOffs else [])) (s.x f.xa).toNat fun _ =>
            let spilled := sps.map (fun p => s.piecesValue p)
            let ringVals := (List.range fromRing).map (fun i => s.localDouble (w.ringAt i))
            let out := ringVals ++ spilled.take fromSpill
            let left := if w.dd then removeAll (s.dedup w) out else []
            let w1 := { w with head := (w.head + fromRing) % 1024, rcnt := rleft + refill,
                               shead := (w.shead + fromSpill + refill) % max 1 w.spillCap, scnt := sleft - refill, dcnt := if w.dd then left.length else w.dcnt }
            let s1 := ((spilled.drop fromSpill).mapIdx (fun i v => (i, v))).foldl (fun s p => s.setLocal (w1.ringAt (rleft + p.1)) p.2) s
            let s2 := (s1.setDedup w left).putObject g w1
            let s3 := s2.issuePieces .store (s.cutPieces bps) (packLanes 64 out)
            s3.result f.xc (wlStatus 0 m)

/-- `wl.stat` (R345). -/
def execWlStat (f : FmtCR) (s : State) : Out :=
  s.slotC (.wlStat f) fun s => s.withWorkList (s.x f.xa).toNat false fun s w _ => s.result f.xd (BitVec.ofNat 64 w.status)

end Sys2Proof.Machine
end

