-- ==== Sys2Proof/Machine/Dispatch.lean ====
section
/-! DEFINITION. The meaning of each instruction and event: one arm for each constructor of `Instr`. -/

namespace Sys2Proof.Machine

def exec (i : Instr) (s : State) : Host.Outcome State Fault Refusal :=
  match i with
  | .powerOnReset => Sys2Proof.Machine.execPowerOnReset s
  | .startupRailsStable => Sys2Proof.Machine.execStartupRailsStable s
  | .imageVerify => Sys2Proof.Machine.execImageVerify s
  | .startupIdentityAtlas => Sys2Proof.Machine.execStartupIdentityAtlas s
  | .rookStartupPass => Sys2Proof.Machine.execRookStartupPass s
  | .startupLinksUp => Sys2Proof.Machine.execStartupLinksUp s
  | .deviceReady => Sys2Proof.Machine.execDeviceReady s
  | .fclkctlWrite => Sys2Proof.Machine.execFclkctlWrite s
  | .relockEnd => Sys2Proof.Machine.execRelockEnd s
  | .railvWrite => Sys2Proof.Machine.execRailvWrite s
  | .railSlewEnd => Sys2Proof.Machine.execRailSlewEnd s
  | .railswMove => Sys2Proof.Machine.execRailswMove s
  | .pkgPowerLimit => Sys2Proof.Machine.execPkgPowerLimit s
  | .powerLimitClear => Sys2Proof.Machine.execPowerLimitClear s
  | .atlasStatusWrite => Sys2Proof.Machine.execAtlasStatusWrite s
  | .linkRetryLimit => Sys2Proof.Machine.execLinkRetryLimit s
  | .routePacket => Sys2Proof.Machine.execRoutePacket s
  | .routeDrainComplete => Sys2Proof.Machine.execRouteDrainComplete s
  | .routeDrainTimeout => Sys2Proof.Machine.execRouteDrainTimeout s
  | .rookPassStart => Sys2Proof.Machine.execRookPassStart s
  | .rookPreempt => Sys2Proof.Machine.execRookPreempt s
  | .rookTestDone => Sys2Proof.Machine.execRookTestDone s
  | .rookTestAbandon => Sys2Proof.Machine.execRookTestAbandon s
  | .doublesMismatch => Sys2Proof.Machine.execDoublesMismatch s
  | .bankerGrant => Sys2Proof.Machine.execBankerGrant s
  | .shortfallCover => Sys2Proof.Machine.execShortfallCover s
  | .revocationEffect => Sys2Proof.Machine.execRevocationEffect s
  | .leaseRequest => Sys2Proof.Machine.execLeaseRequest s
  | .leaseAnswer => Sys2Proof.Machine.execLeaseAnswer s
  | .leaseRenewal => Sys2Proof.Machine.execLeaseRenewal s
  | .leaseEnd => Sys2Proof.Machine.execLeaseEnd s
  | .pshareWrite => Sys2Proof.Machine.execPshareWrite s
  | .bkshareWrite => Sys2Proof.Machine.execBkshareWrite s
  | .bkgshareWrite => Sys2Proof.Machine.execBkgshareWrite s
  | .rampwWrite => Sys2Proof.Machine.execRampwWrite s
  | .floorwWrite => Sys2Proof.Machine.execFloorwWrite s
  | .ballastUpdate => Sys2Proof.Machine.execBallastUpdate s
  | .tileIdleGate => Sys2Proof.Machine.execTileIdleGate s
  | .gatingHoldEnd => Sys2Proof.Machine.execGatingHoldEnd s
  | .tilepwrWakeWrite => Sys2Proof.Machine.execTilepwrWakeWrite s
  | .wakePromotion => Sys2Proof.Machine.execWakePromotion s
  | .wakeStart => Sys2Proof.Machine.execWakeStart s
  | .wakeComplete => Sys2Proof.Machine.execWakeComplete s
  | .pacerReport => Sys2Proof.Machine.execPacerReport s
  | .shuffleStep => Sys2Proof.Machine.execShuffleStep s
  | .migrationCopy => Sys2Proof.Machine.execMigrationCopy s
  | .migrationMarker => Sys2Proof.Machine.execMigrationMarker s
  | .migrationRelease => Sys2Proof.Machine.execMigrationRelease s
  | .timeExchange => Sys2Proof.Machine.execTimeExchange s
  | .rtimeSyncLost => Sys2Proof.Machine.execRtimeSyncLost s
  | .hub0Takeover => Sys2Proof.Machine.execHub0Takeover s
  | .bridgeTakeover => Sys2Proof.Machine.execBridgeTakeover s
  | .loithLaunch => Sys2Proof.Machine.execLoithLaunch s
  | .copy => Sys2Proof.Machine.execCopy s
  | .query => Sys2Proof.Machine.execQuery s
  | .resync => Sys2Proof.Machine.execResync s
  | .atlasRead => Sys2Proof.Machine.execAtlasRead s
  | .routeStage => Sys2Proof.Machine.execRouteStage s
  | .routeFlip => Sys2Proof.Machine.execRouteFlip s
  | .partCreate => Sys2Proof.Machine.execPartCreate s
  | .partSwitch => Sys2Proof.Machine.execPartSwitch s
  | .pipPolicy => Sys2Proof.Machine.execPipPolicy s
  | .fieldReset => Sys2Proof.Machine.execFieldReset s
  | .attest => Sys2Proof.Machine.execAttest s
  | .loithBadCommand => Sys2Proof.Machine.execLoithBadCommand s
  | .sequenceGapTimeout => Sys2Proof.Machine.execSequenceGapTimeout s
  | .quantumEnd => Sys2Proof.Machine.execQuantumEnd s
  | .qlimExpiry => Sys2Proof.Machine.execQlimExpiry s
  | .quiesceEnd => Sys2Proof.Machine.execQuiesceEnd s
  | .switchRestoreEnd => Sys2Proof.Machine.execSwitchRestoreEnd s
  | .messageInject => Sys2Proof.Machine.execMessageInject s
  | .messageArrival => Sys2Proof.Machine.execMessageArrival s
  | .bounceQueueDeliver => Sys2Proof.Machine.execBounceQueueDeliver s
  | .hwMessageDeferred => Sys2Proof.Machine.execHwMessageDeferred s
  | .firingStart => Sys2Proof.Machine.execFiringStart s
  | .parkResume => Sys2Proof.Machine.execParkResume s
  | .poolFiringStart => Sys2Proof.Machine.execPoolFiringStart s
  | .taskStart => Sys2Proof.Machine.execTaskStart s
  | .dormantStart => Sys2Proof.Machine.execDormantStart s
  | .ticketPull => Sys2Proof.Machine.execTicketPull s
  | .ticketSteal => Sys2Proof.Machine.execTicketSteal s
  | .taskSteal => Sys2Proof.Machine.execTaskSteal s
  | .footprintCopy => Sys2Proof.Machine.execFootprintCopy s
  | .launchComplete => Sys2Proof.Machine.execLaunchComplete s
  | .npTooLong => Sys2Proof.Machine.execNpTooLong s
  | .wdogReport => Sys2Proof.Machine.execWdogReport s
  | .counterOverflow => Sys2Proof.Machine.execCounterOverflow s
  | .streamInputFill => Sys2Proof.Machine.execStreamInputFill s
  | .streamOutputStore => Sys2Proof.Machine.execStreamOutputStore s
  | .engineOccupancyEnd => Sys2Proof.Machine.execEngineOccupancyEnd s
  | .ringTransfer => Sys2Proof.Machine.execRingTransfer s
  | .operationPiece => Sys2Proof.Machine.execOperationPiece s
  | .operationComplete => Sys2Proof.Machine.execOperationComplete s
  | .offloadReply => Sys2Proof.Machine.execOffloadReply s
  | .offloadTimeout => Sys2Proof.Machine.execOffloadTimeout s
  | .barrierArrival => Sys2Proof.Machine.execBarrierArrival s
  | .barrierDelivery => Sys2Proof.Machine.execBarrierDelivery s
  | .barrierTimeout => Sys2Proof.Machine.execBarrierTimeout s
  | .accessPerformed => Sys2Proof.Machine.execAccessPerformed s
  | .accessReply => Sys2Proof.Machine.execAccessReply s
  | .respTimeout => Sys2Proof.Machine.execRespTimeout s
  | .storeAck => Sys2Proof.Machine.execStoreAck s
  | .sliceFill => Sys2Proof.Machine.execSliceFill s
  | .pageWalk => Sys2Proof.Machine.execPageWalk s
  | .syncRecordClear => Sys2Proof.Machine.execSyncRecordClear s
  | .ueDetect => Sys2Proof.Machine.execUeDetect s
  | .faultQueueDrain => Sys2Proof.Machine.execFaultQueueDrain s
  | .wakeDelivery => Sys2Proof.Machine.execWakeDelivery s
  | .haltDelivery => Sys2Proof.Machine.execHaltDelivery s
  | .coreHang => Sys2Proof.Machine.execCoreHang s
  | .registerWrite => Sys2Proof.Machine.execRegisterWrite s
  | .dqcfgWrite => Sys2Proof.Machine.execDqcfgWrite s
  | .actcfgWrite => Sys2Proof.Machine.execActcfgWrite s
  | .parkcfgWrite => Sys2Proof.Machine.execParkcfgWrite s
  | .cntcfgWrite => Sys2Proof.Machine.execCntcfgWrite s
  | .capstripeWrite => Sys2Proof.Machine.execCapstripeWrite s
  | .tlbinvLowWrite => Sys2Proof.Machine.execTlbinvLowWrite s
  | .tlbinvHighWrite => Sys2Proof.Machine.execTlbinvHighWrite s
  | .tlbinvDone => Sys2Proof.Machine.execTlbinvDone s
  | .opcmdResume => Sys2Proof.Machine.execOpcmdResume s
  | .opcmdFail => Sys2Proof.Machine.execOpcmdFail s
  | .opcmdBad => Sys2Proof.Machine.execOpcmdBad s
  | .dbgAttach => Sys2Proof.Machine.execDbgAttach s
  | .dbgStop => Sys2Proof.Machine.execDbgStop s
  | .dbgResume => Sys2Proof.Machine.execDbgResume s
  | .dbgRestart => Sys2Proof.Machine.execDbgRestart s
  | .dbgSkip => Sys2Proof.Machine.execDbgSkip s
  | .dbgStep => Sys2Proof.Machine.execDbgStep s
  | .dbgKill => Sys2Proof.Machine.execDbgKill s
  | .dbgCmdBad => Sys2Proof.Machine.execDbgCmdBad s
  | .nopC => Sys2Proof.Machine.execNopC s
  | .br f => Sys2Proof.Machine.execBr f s
  | .beq f => Sys2Proof.Machine.execBeq f s
  | .bne f => Sys2Proof.Machine.execBne f s
  | .blt f => Sys2Proof.Machine.execBlt f s
  | .bge f => Sys2Proof.Machine.execBge f s
  | .bltu f => Sys2Proof.Machine.execBltu f s
  | .bgeu f => Sys2Proof.Machine.execBgeu f s
  | .bz f => Sys2Proof.Machine.execBz f s
  | .bnz f => Sys2Proof.Machine.execBnz f s
  | .call f => Sys2Proof.Machine.execCall f s
  | .callr f => Sys2Proof.Machine.execCallr f s
  | .jr f => Sys2Proof.Machine.execJr f s
  | .ret => Sys2Proof.Machine.execRet s
  | .loop f => Sys2Proof.Machine.execLoop f s
  | .loopi f => Sys2Proof.Machine.execLoopi f s
  | .lbrk => Sys2Proof.Machine.execLbrk s
  | .wait f => Sys2Proof.Machine.execWait f s
  | .done => Sys2Proof.Machine.execDone s
  | .park => Sys2Proof.Machine.execPark s
  | .npOn => Sys2Proof.Machine.execNpOn s
  | .npOff => Sys2Proof.Machine.execNpOff s
  | .ldB f => Sys2Proof.Machine.execLdB f s
  | .ldBu f => Sys2Proof.Machine.execLdBu f s
  | .ldH f => Sys2Proof.Machine.execLdH f s
  | .ldHu f => Sys2Proof.Machine.execLdHu f s
  | .ldW f => Sys2Proof.Machine.execLdW f s
  | .ldWu f => Sys2Proof.Machine.execLdWu f s
  | .ldD f => Sys2Proof.Machine.execLdD f s
  | .stB f => Sys2Proof.Machine.execStB f s
  | .stH f => Sys2Proof.Machine.execStH f s
  | .stW f => Sys2Proof.Machine.execStW f s
  | .stD f => Sys2Proof.Machine.execStD f s
  | .ldAcq f => Sys2Proof.Machine.execLdAcq f s
  | .stRel f => Sys2Proof.Machine.execStRel f s
  | .ldV f => Sys2Proof.Machine.execLdV f s
  | .stV f => Sys2Proof.Machine.execStV f s
  | .ldVt f => Sys2Proof.Machine.execLdVt f s
  | .stVt f => Sys2Proof.Machine.execStVt f s
  | .pf f => Sys2Proof.Machine.execPf f s
  | .fence f => Sys2Proof.Machine.execFence f s
  | .mfs f => Sys2Proof.Machine.execMfs f s
  | .mts f => Sys2Proof.Machine.execMts f s
  | .ldBIndexed f => Sys2Proof.Machine.execLdBIndexed f s
  | .ldBuIndexed f => Sys2Proof.Machine.execLdBuIndexed f s
  | .ldHIndexed f => Sys2Proof.Machine.execLdHIndexed f s
  | .ldHuIndexed f => Sys2Proof.Machine.execLdHuIndexed f s
  | .ldWIndexed f => Sys2Proof.Machine.execLdWIndexed f s
  | .ldWuIndexed f => Sys2Proof.Machine.execLdWuIndexed f s
  | .ldDIndexed f => Sys2Proof.Machine.execLdDIndexed f s
  | .stBIndexed f => Sys2Proof.Machine.execStBIndexed f s
  | .stHIndexed f => Sys2Proof.Machine.execStHIndexed f s
  | .stWIndexed f => Sys2Proof.Machine.execStWIndexed f s
  | .stDIndexed f => Sys2Proof.Machine.execStDIndexed f s
  | .ldVIndexed f => Sys2Proof.Machine.execLdVIndexed f s
  | .stVIndexed f => Sys2Proof.Machine.execStVIndexed f s
  | .ldVtIndexed f => Sys2Proof.Machine.execLdVtIndexed f s
  | .stVtIndexed f => Sys2Proof.Machine.execStVtIndexed f s
  | .barArr f => Sys2Proof.Machine.execBarArr f s
  | .barArrx f => Sys2Proof.Machine.execBarArrx f s
  | .barWt f => Sys2Proof.Machine.execBarWt f s
  | .barTst f => Sys2Proof.Machine.execBarTst f s
  | .semPost f => Sys2Proof.Machine.execSemPost f s
  | .semWt f => Sys2Proof.Machine.execSemWt f s
  | .amoAdd f => Sys2Proof.Machine.execAmoAdd f s
  | .amoAnd f => Sys2Proof.Machine.execAmoAnd f s
  | .amoOr f => Sys2Proof.Machine.execAmoOr f s
  | .amoXor f => Sys2Proof.Machine.execAmoXor f s
  | .amoMin f => Sys2Proof.Machine.execAmoMin f s
  | .amoMax f => Sys2Proof.Machine.execAmoMax f s
  | .amoMinu f => Sys2Proof.Machine.execAmoMinu f s
  | .amoMaxu f => Sys2Proof.Machine.execAmoMaxu f s
  | .amoSwap f => Sys2Proof.Machine.execAmoSwap f s
  | .amoCas f => Sys2Proof.Machine.execAmoCas f s
  | .amoFaddS f => Sys2Proof.Machine.execAmoFaddS f s
  | .redAdd f => Sys2Proof.Machine.execRedAdd f s
  | .redFaddS f => Sys2Proof.Machine.execRedFaddS f s
  | .redFaddH f => Sys2Proof.Machine.execRedFaddH f s
  | .send f => Sys2Proof.Machine.execSend f s
  | .sendr f => Sys2Proof.Machine.execSendr f s
  | .sendSys f => Sys2Proof.Machine.execSendSys f s
  | .peek f => Sys2Proof.Machine.execPeek f s
  | .mtake f => Sys2Proof.Machine.execMtake f s
  | .mcnt f => Sys2Proof.Machine.execMcnt f s
  | .mdrop f => Sys2Proof.Machine.execMdrop f s
  | .capMint f => Sys2Proof.Machine.execCapMint f s
  | .capNarrow f => Sys2Proof.Machine.execCapNarrow f s
  | .capSelf f => Sys2Proof.Machine.execCapSelf f s
  | .wake f => Sys2Proof.Machine.execWake f s
  | .halt f => Sys2Proof.Machine.execHalt f s
  | .actNew f => Sys2Proof.Machine.execActNew f s
  | .actDel f => Sys2Proof.Machine.execActDel f s
  | .spawn f => Sys2Proof.Machine.execSpawn f s
  | .strBind f => Sys2Proof.Machine.execStrBind f s
  | .strFree f => Sys2Proof.Machine.execStrFree f s
  | .strStat f => Sys2Proof.Machine.execStrStat f s
  | .pipReq f => Sys2Proof.Machine.execPipReq f s
  | .pipRel f => Sys2Proof.Machine.execPipRel f s
  | .pipLend f => Sys2Proof.Machine.execPipLend f s
  | .pipStat f => Sys2Proof.Machine.execPipStat f s
  | .trap f => Sys2Proof.Machine.execTrap f s
  | .brk f => Sys2Proof.Machine.execBrk f s
  | .cln f => Sys2Proof.Machine.execCln f s
  | .inv f => Sys2Proof.Machine.execInv f s
  | .lutLd f => Sys2Proof.Machine.execLutLd f s
  | .modeL => Sys2Proof.Machine.execModeL s
  | .modeS => Sys2Proof.Machine.execModeS s
  | .wlStat f => Sys2Proof.Machine.execWlStat f s
  | .nopA => Sys2Proof.Machine.execNopA s
  | .add f => Sys2Proof.Machine.execAdd f s
  | .sub f => Sys2Proof.Machine.execSub f s
  | .mul f => Sys2Proof.Machine.execMul f s
  | .mulh f => Sys2Proof.Machine.execMulh f s
  | .mulhu f => Sys2Proof.Machine.execMulhu f s
  | .div f => Sys2Proof.Machine.execDiv f s
  | .divu f => Sys2Proof.Machine.execDivu f s
  | .rem f => Sys2Proof.Machine.execRem f s
  | .remu f => Sys2Proof.Machine.execRemu f s
  | .and f => Sys2Proof.Machine.execAnd f s
  | .or f => Sys2Proof.Machine.execOr f s
  | .xor f => Sys2Proof.Machine.execXor f s
  | .andn f => Sys2Proof.Machine.execAndn f s
  | .orn f => Sys2Proof.Machine.execOrn f s
  | .shl f => Sys2Proof.Machine.execShl f s
  | .shr f => Sys2Proof.Machine.execShr f s
  | .sra f => Sys2Proof.Machine.execSra f s
  | .rol f => Sys2Proof.Machine.execRol f s
  | .min f => Sys2Proof.Machine.execMin f s
  | .max f => Sys2Proof.Machine.execMax f s
  | .minu f => Sys2Proof.Machine.execMinu f s
  | .maxu f => Sys2Proof.Machine.execMaxu f s
  | .slt f => Sys2Proof.Machine.execSlt f s
  | .sltu f => Sys2Proof.Machine.execSltu f s
  | .seq f => Sys2Proof.Machine.execSeq f s
  | .sel f => Sys2Proof.Machine.execSel f s
  | .clz f => Sys2Proof.Machine.execClz f s
  | .ctz f => Sys2Proof.Machine.execCtz f s
  | .popc f => Sys2Proof.Machine.execPopc f s
  | .bswap f => Sys2Proof.Machine.execBswap f s
  | .sextB f => Sys2Proof.Machine.execSextB f s
  | .sextH f => Sys2Proof.Machine.execSextH f s
  | .sextW f => Sys2Proof.Machine.execSextW f s
  | .zextB f => Sys2Proof.Machine.execZextB f s
  | .zextH f => Sys2Proof.Machine.execZextH f s
  | .zextW f => Sys2Proof.Machine.execZextW f s
  | .addi f => Sys2Proof.Machine.execAddi f s
  | .andi f => Sys2Proof.Machine.execAndi f s
  | .ori f => Sys2Proof.Machine.execOri f s
  | .xori f => Sys2Proof.Machine.execXori f s
  | .shli f => Sys2Proof.Machine.execShli f s
  | .shri f => Sys2Proof.Machine.execShri f s
  | .srai f => Sys2Proof.Machine.execSrai f s
  | .li f => Sys2Proof.Machine.execLi f s
  | .lih f => Sys2Proof.Machine.execLih f s
  | .faddS f => Sys2Proof.Machine.execFaddS f s
  | .fsubS f => Sys2Proof.Machine.execFsubS f s
  | .fmulS f => Sys2Proof.Machine.execFmulS f s
  | .fmaS f => Sys2Proof.Machine.execFmaS f s
  | .fminS f => Sys2Proof.Machine.execFminS f s
  | .fmaxS f => Sys2Proof.Machine.execFmaxS f s
  | .feqS f => Sys2Proof.Machine.execFeqS f s
  | .fltS f => Sys2Proof.Machine.execFltS f s
  | .fleS f => Sys2Proof.Machine.execFleS f s
  | .fsgnjS f => Sys2Proof.Machine.execFsgnjS f s
  | .fclassS f => Sys2Proof.Machine.execFclassS f s
  | .fcvtSW f => Sys2Proof.Machine.execFcvtSW f s
  | .fcvtWS f => Sys2Proof.Machine.execFcvtWS f s
  | .fcvtSH f => Sys2Proof.Machine.execFcvtSH f s
  | .fcvtHS f => Sys2Proof.Machine.execFcvtHS f s
  | .faddH f => Sys2Proof.Machine.execFaddH f s
  | .fsubH f => Sys2Proof.Machine.execFsubH f s
  | .fmulH f => Sys2Proof.Machine.execFmulH f s
  | .fmaH f => Sys2Proof.Machine.execFmaH f s
  | .fminH f => Sys2Proof.Machine.execFminH f s
  | .fmaxH f => Sys2Proof.Machine.execFmaxH f s
  | .feqH f => Sys2Proof.Machine.execFeqH f s
  | .fltH f => Sys2Proof.Machine.execFltH f s
  | .fleH f => Sys2Proof.Machine.execFleH f s
  | .fsgnjH f => Sys2Proof.Machine.execFsgnjH f s
  | .fclassH f => Sys2Proof.Machine.execFclassH f s
  | .vadd f => Sys2Proof.Machine.execVadd f s
  | .vsub f => Sys2Proof.Machine.execVsub f s
  | .vmul f => Sys2Proof.Machine.execVmul f s
  | .vfma f => Sys2Proof.Machine.execVfma f s
  | .vmin f => Sys2Proof.Machine.execVmin f s
  | .vmax f => Sys2Proof.Machine.execVmax f s
  | .vabs f => Sys2Proof.Machine.execVabs f s
  | .vneg f => Sys2Proof.Machine.execVneg f s
  | .vand f => Sys2Proof.Machine.execVand f s
  | .vor f => Sys2Proof.Machine.execVor f s
  | .vxor f => Sys2Proof.Machine.execVxor f s
  | .vshl f => Sys2Proof.Machine.execVshl f s
  | .vshr f => Sys2Proof.Machine.execVshr f s
  | .vsra f => Sys2Proof.Machine.execVsra f s
  | .vcmp f => Sys2Proof.Machine.execVcmp f s
  | .vsel f => Sys2Proof.Machine.execVsel f s
  | .vcvt f => Sys2Proof.Machine.execVcvt f s
  | .vred f => Sys2Proof.Machine.execVred f s
  | .vscan f => Sys2Proof.Machine.execVscan f s
  | .vbcast f => Sys2Proof.Machine.execVbcast f s
  | .vperm f => Sys2Proof.Machine.execVperm f s
  | .vins f => Sys2Proof.Machine.execVins f s
  | .vext f => Sys2Proof.Machine.execVext f s
  | .vdot4 f => Sys2Proof.Machine.execVdot4 f s
  | .vexp2 f => Sys2Proof.Machine.execVexp2 f s
  | .vlog2 f => Sys2Proof.Machine.execVlog2 f s
  | .vrcp f => Sys2Proof.Machine.execVrcp f s
  | .vrsqrt f => Sys2Proof.Machine.execVrsqrt f s
  | .vsqrt f => Sys2Proof.Machine.execVsqrt f s
  | .vtanh f => Sys2Proof.Machine.execVtanh f s
  | .vmov f => Sys2Proof.Machine.execVmov f s
  | .vpopc f => Sys2Proof.Machine.execVpopc f s
  | .vaddScalar f => Sys2Proof.Machine.execVaddScalar f s
  | .vsubScalar f => Sys2Proof.Machine.execVsubScalar f s
  | .vmulScalar f => Sys2Proof.Machine.execVmulScalar f s
  | .vfmaScalar f => Sys2Proof.Machine.execVfmaScalar f s
  | .vminScalar f => Sys2Proof.Machine.execVminScalar f s
  | .vmaxScalar f => Sys2Proof.Machine.execVmaxScalar f s
  | .vandScalar f => Sys2Proof.Machine.execVandScalar f s
  | .vorScalar f => Sys2Proof.Machine.execVorScalar f s
  | .vxorScalar f => Sys2Proof.Machine.execVxorScalar f s
  | .vshlScalar f => Sys2Proof.Machine.execVshlScalar f s
  | .vshrScalar f => Sys2Proof.Machine.execVshrScalar f s
  | .vsraScalar f => Sys2Proof.Machine.execVsraScalar f s
  | .vcmpScalar f => Sys2Proof.Machine.execVcmpScalar f s
  | .vselScalar f => Sys2Proof.Machine.execVselScalar f s
  | .vdot4Scalar f => Sys2Proof.Machine.execVdot4Scalar f s
  | .liD f => Sys2Proof.Machine.execLiD f s
  | .liDHi f => Sys2Proof.Machine.execLiDHi f s
  | .farBeq f => Sys2Proof.Machine.execFarBeq f s
  | .farBne f => Sys2Proof.Machine.execFarBne f s
  | .farBlt f => Sys2Proof.Machine.execFarBlt f s
  | .farBge f => Sys2Proof.Machine.execFarBge f s
  | .farBltu f => Sys2Proof.Machine.execFarBltu f s
  | .farBgeu f => Sys2Proof.Machine.execFarBgeu f s
  | .farBz f => Sys2Proof.Machine.execFarBz f s
  | .farBnz f => Sys2Proof.Machine.execFarBnz f s
  | .mma f => Sys2Proof.Machine.execMma f s
  | .mmaRing f => Sys2Proof.Machine.execMmaRing f s
  | .mxLdb f => Sys2Proof.Machine.execMxLdb f s
  | .accZero f => Sys2Proof.Machine.execAccZero f s
  | .accLd f => Sys2Proof.Machine.execAccLd f s
  | .accSt f => Sys2Proof.Machine.execAccSt f s
  | .accProm f => Sys2Proof.Machine.execAccProm f s
  | .attQk f => Sys2Proof.Machine.execAttQk f s
  | .attSm f => Sys2Proof.Machine.execAttSm f s
  | .attPv f => Sys2Proof.Machine.execAttPv f s
  | .attFin f => Sys2Proof.Machine.execAttFin f s
  | .spMm f => Sys2Proof.Machine.execSpMm f s
  | .spBm f => Sys2Proof.Machine.execSpBm f s
  | .spDrop f => Sys2Proof.Machine.execSpDrop f s
  | .spGrow f => Sys2Proof.Machine.execSpGrow f s
  | .spCnt f => Sys2Proof.Machine.execSpCnt f s
  | .gath f => Sys2Proof.Machine.execGath f s
  | .gathIx f => Sys2Proof.Machine.execGathIx f s
  | .scat f => Sys2Proof.Machine.execScat f s
  | .embBag f => Sys2Proof.Machine.execEmbBag f s
  | .cp f => Sys2Proof.Machine.execCp f s
  | .cpMc f => Sys2Proof.Machine.execCpMc f s
  | .wlPush f => Sys2Proof.Machine.execWlPush f s
  | .wlPopb f => Sys2Proof.Machine.execWlPopb f s
  | .wlInsd f => Sys2Proof.Machine.execWlInsd f s
  | .launch f => Sys2Proof.Machine.execLaunch f s
  | .barInit f => Sys2Proof.Machine.execBarInit f s
  | .illegalOpcode => Sys2Proof.Machine.execIllegalOpcode s
  | .codeFetchFault => Sys2Proof.Machine.execCodeFetchFault s
  | .thermalLimit => Sys2Proof.Machine.execThermalLimit s
  | .railOvercurrent => Sys2Proof.Machine.execRailOvercurrent s
  | .ualinkPortDark => Sys2Proof.Machine.execUalinkPortDark s
  | .fabricInterfaceDark => Sys2Proof.Machine.execFabricInterfaceDark s
  | .sliceGoesDark => Sys2Proof.Machine.execSliceGoesDark s
  | .hub89Dark => Sys2Proof.Machine.execHub89Dark s

end Sys2Proof.Machine
end

