-- ==== Sys2Proof/Machine/Issue.lean ====
section
/-! DEFINITION. Issue of bundles: both slots of a bundle as one unit (R184), the choice of a context (R142), and the counts of R101
that issue makes. -/

namespace Sys2Proof.Machine

/-! ### Running one word -/

/-- Run a decoded instruction; what does not decode faults in its slot (R276). -/
def runSlot (slotA : Bool) (r : Except Cause Instr) (s : State) : Out :=
  match r with
  | .ok i => exec i s
  | .error c => if slotA then s.faultA c else s.faultC c

/-- Run the A-slot instruction of a word. -/
noncomputable def runA (w : Nat) (s : State) : Out := runSlot true (decodeA w) s

/-- Run a two-operand AR word of the last constructors. -/
def runAr (op w : Nat) (f : FmtAR) (g : FmtAR → State → Out) (s : State) : Out :=
  if op * 2 ^ 24 + f.enc = w then g f s else s.faultA .reservedField

/-- The instructions that `rawALate` holds, without building them. -/
def runLate (w : Nat) (s : State) : Option Out :=
  match w / 2 ^ 24 % 256 with
  | 0x17 => some (runAr 0x17 w (.dec w) execSlt s)
  | 0x18 => some (runAr 0x18 w (.dec w) execSltu s)
  | 0x19 => some (runAr 0x19 w (.dec w) execSeq s)
  | 0x54 => some (runAr 0x54 w (.dec w) execFminH s)
  | 0x55 => some (runAr 0x55 w (.dec w) execFmaxH s)
  | 0x56 => some (runAr 0x56 w (.dec w) execFeqH s)
  | 0x57 => some (runAr 0x57 w (.dec w) execFltH s)
  | 0x58 => some (runAr 0x58 w (.dec w) execFleH s)
  | 0x59 => some (runAr 0x59 w (.dec w) execFsgnjH s)
  | 0xB7 => some (let f := FmtAVX.dec w
      if 0xB7 * 2 ^ 24 + f.enc = w then execVdot4Scalar f s else s.faultA .reservedField)
  | _ => none

/-- `runA` by opcode. -/
def runAFast (w : Nat) (s : State) : Out :=
  match runLate w s with
  | some o => o
  | none => runSlot true (match rawAMost w with
    | none => .error .illegalOpcode
    | some i => if encodeA i = some w then .ok i else .error .reservedField) s

theorem runAr_eq (i : Instr) (f : FmtAR) (op w : Nat) (g : FmtAR → State → Out) (s : State) (he : encodeA i = some (op * 2 ^ 24 + f.enc))
    (hg : exec i s = g f s) : runAr op w f g s = runSlot true (if encodeA i = some w then .ok i else .error .reservedField) s := by
  simp only [he, Option.some.injEq, runAr]
  split
  · exact hg.symm
  · rfl

theorem runLate_eq (w : Nat) (s : State) :
    runLate w s = (rawALate w).map (fun i => runSlot true (if encodeA i = some w then .ok i else .error .reservedField) s) := by
  unfold runLate rawALate
  generalize w / 2 ^ 24 % 256 = op
  split <;> simp only [Option.map_some, Option.map_none, Option.some.injEq]
  · exact runAr_eq (.slt (.dec w)) _ _ w _ s rfl rfl
  · exact runAr_eq (.sltu (.dec w)) _ _ w _ s rfl rfl
  · exact runAr_eq (.seq (.dec w)) _ _ w _ s rfl rfl
  · exact runAr_eq (.fminH (.dec w)) _ _ w _ s rfl rfl
  · exact runAr_eq (.fmaxH (.dec w)) _ _ w _ s rfl rfl
  · exact runAr_eq (.feqH (.dec w)) _ _ w _ s rfl rfl
  · exact runAr_eq (.fltH (.dec w)) _ _ w _ s rfl rfl
  · exact runAr_eq (.fleH (.dec w)) _ _ w _ s rfl rfl
  · exact runAr_eq (.fsgnjH (.dec w)) _ _ w _ s rfl rfl
  · have he : encodeA (.vdot4Scalar (.dec w)) = some (0xB7 * 2 ^ 24 + (FmtAVX.dec w).enc) := rfl
    simp only [he, Option.some.injEq]
    split
    · rfl
    · rfl

@[csimp] theorem runA_eq : @runA = @runAFast := by
  funext w s
  unfold runA runAFast decodeA rawA
  rw [runLate_eq w s]
  cases rawALate w <;> rfl

/-! ### Both slots (R184) -/

/-- The entries of a map that changed between two states, put into a third. -/
def mergeMap {α : Type} [DecidableEq α] (old new base : KMap α) : KMap α :=
  new.foldl (fun b e => if old.find? e.1 = some e.2 then b else b.put e.1 e.2) base

/-- What an A-slot instruction changed in its context. -/
def Ctx.withA (old new base : Ctx) : Ctx :=
  { base with x := mergeMap old.x new.x base.x, v := mergeMap old.v new.v base.v, k := mergeMap old.k new.k base.k }

/-- What it changed in its tile: pacing (R50) and the long registers (R201). -/
def Tile.withA (old new base : Tile) : Tile :=
  let mem := fun (e : Engine) => { e with mem := mergeMap old.eng.mem new.eng.mem e.mem }
  { base with
    nextok := if new.nextok = old.nextok then base.nextok else new.nextok, stalls := if new.stalls = old.stalls then base.stalls else new.stalls, stallCyc := if new.stallCyc = old.stallCyc then base.stallCyc else new.stallCyc,
    lastPaced := if new.lastPaced = old.lastPaced then base.lastPaced else new.lastPaced,
    eng := mem base.eng, engShown := base.engShown.map mem }

/-- What it changed in its core: streams, each advanced once by both slots together (R184 point 5), and the generator (R267). -/
def Core.withA (old new base : Core) : Core :=
  { base with
    streams := new.streams.foldl (fun b e => if old.streams.find? e.1 = some e.2 ∨ b.find? e.1 ≠ old.streams.find? e.1 then b else b.put e.1 e.2)
      base.streams,
    seed := new.seed }

/-- The effects of the A slot, as they took the state from `old` to `new`, added to `base`. -/
def State.withA (old new base : State) : State :=
  let i := old.cur
  ((base.updCtx i (fun c => (old.ctxOf i).withA (new.ctxOf i) c)).updTile (tileOfCtx i) (fun t => (old.tileOf (tileOfCtx i)).withA (new.tileOf (tileOfCtx i)) t)).updCore
    (coreOfCtx i) (fun k => (old.coreOf (coreOfCtx i)).withA (new.coreOf (coreOfCtx i)) k)

/-- How an attempt of a context's bundle ended. -/
def State.isFrozen (s : State) (i : Nat) : Bool := (s.ctxOf i).st = 1
def State.isStalled (s : State) (i : Nat) : Bool := (s.ctxOf i).stall.isSome

/-- The firing of a context still runs there. -/
def State.sameFiring (s s' : State) (i : Nat) : Bool := (s'.ctxOf i).firing = (s.ctxOf i).firing && (s'.ctxOf i).st = 0

/-- The C slot is `done` or `park`, whose A slot takes effect first (R309, R310). -/
def endsFiring (w : Nat) : Bool := w / 2 ^ 24 % 128 = 0x12 || w / 2 ^ 24 % 128 = 0x13

/-- The C slot is `mts` of SEED, whose value stands after the bundle. -/
def writesSeed (w : Nat) : Bool := match decodeC w with
  | .ok (.mts f) => f.spr = 0x2D
  | _ => false

/-- `done` or `park` with the A slot before it. -/
def State.endPair (s : State) (wc wa : Nat) : Out :=
  let runC := runSlot false (decodeC wc)
  if s.cx.aDone then runC s
  else match runA wa s with
    | .next sA =>
      if sA.isFrozen s.cur then (match runC s with
        | .next sC => if sC.isFrozen s.cur then .next sC else .next sA
        | o => o)
      else if sA.isStalled s.cur then .next sA
      else
        let base := (s.withA sA s).upd (fun c => { c with aDone := true })
        (match runC base with
        | .next s2 => if s2.isFrozen s.cur && (s2.ctxOf s.cur).cause ≠ Cause.storeFailed then runC s else .next s2
        | o => o)
    | o => o

/-- A pair of slots as one unit (R184): a fault of either leaves no effect of the other, the C slot's first; a stall of either stalls both.
The draws of the C slot come before those of the A slot. -/
def State.slotPair (s : State) (wc wa : Nat) : Out :=
  let runC := runSlot false (decodeC wc)
  match runC s with
  | .next sC =>
    if sC.isFrozen s.cur then .next sC
    else
      let own := writesSeed wc
      let seed := (sC.coreOf (coreOfCtx s.cur)).seed
      (match runA wa (if own then s else s.updCurCore (fun k => { k with seed := seed })) with
      | .next sA =>
        if sA.isFrozen s.cur || sA.isStalled s.cur then .next (sA.updCore (coreOfCtx s.cur) (fun k => { k with seed := s.core.seed }))
        else if sC.isStalled s.cur || !s.sameFiring sC s.cur then .next sC
        else
          let s2 := s.withA sA sC
          .next (if own then s2.updCore (coreOfCtx s.cur) (fun k => { k with seed := seed }) else s2)
      | o => o)
  | o => o

/-- Issue the bundle of a doubleword in the issuing context. -/
def State.runBundle (s : State) (d : Nat) : Out :=
  match bundleCause d s.cx.long s.level with
  | some e => .next (s.freeze s.cur e)
  | none =>
    let w0 := d % 2 ^ 32
    let w1 := d / 2 ^ 32 % 2 ^ 32
    if w0 / 2 ^ 31 = 1 then runSlot false (decodeWide w0 w1) s
    else if endsFiring w0 then s.endPair w0 w1 else s.slotPair w0 w1

/-! ### One context, one core -/

/-- STEP runs one bundle and freezes the context again (R242). -/
def State.endStep (s s' : State) : State :=
  if s.cx.stepping && s.sameFiring s' s.cur && !s'.isStalled s.cur then s'.freeze s.cur { cause := .debugStop } else s'

/-- A bundle that holds for a reply issues when its access leaves (R142, R323, R420): between the two states context i began to hold. -/
def State.newHold (s s' : State) (i : Nat) : Bool := (s.ctxOf i).hold.isNone && (s'.ctxOf i).hold.isSome

/-- The core events of R101 that an issued bundle is: bundles, engine instructions, messages sent and taken, remote stores, parks. A bundle that held for
a reply counted when its access left. -/
def State.countIssue (s : State) (d : Nat) (s' : State) : State :=
  let i := s.cur
  let core := coreOfCtx i
  if (s.coreOf core).counters.isEmpty then s'
  else
    let c := s.ctxOf i
    let c' := s'.ctxOf i
    let count := fun ev n (s : State) => s.countCore core (some (i % 8)) ev n
    let sent := s'.net.drop s.net.length
    let cold := (sent.filter (fun a => !(s.coreOf core).utlb.any (fun e => e.covers a.tag a.va))).length
    let remote := (sent.filter (fun a => a.reach ≠ 0 && (match a.kind with
      | .store => true
      | .release _ => true
      | .reduce _ => true
      | _ => false))).length
    if s'.isFrozen i then s'
    else if s.newHold s' i then count 0x0A cold (count 0x0B remote (count 0x02 1 s'))
    else if s'.isStalled i then
      count 0x05 (natOfBool (c'.stall.any (fun w => w.2 = Cause.waitStream))) (count 0x04 ((s'.tileOf (tileOfCtx i)).stalls - (s.tileOf (tileOfCtx i)).stalls) s')
    else
      let parked := c.occ && !s.sameFiring s' i && ((s'.coreOf core).parked.any (fun e => e.2.firing = c.firing) || c'.st = 2)
      let wide := d % 2 ^ 32 / 2 ^ 31 = 1
      let op := d % 2 ^ 32 / 2 ^ 24 % 128
      let sends := ((s'.coreOf core).sendq.map (fun e => e.2.length)).sum - ((s.coreOf core).sendq.map (fun e => e.2.length)).sum
      let took := !wide && op = 0x64 && !((s'.coreOf core).actorAt c.act = (s.coreOf core).actorAt c.act)
      count 0x0A cold <| count 0x0C (natOfBool parked) (count 0x0B remote (count 0x08 (natOfBool took) (count 0x07 sends
        (count 0x06 (natOfBool (wide && 0x10 ≤ op && op < 0x28)) (count 0x02 (natOfBool c.hold.isNone) s')))))

/-- A context may be asked to issue in this cycle; in a field without a partition only the platform's firings run (R92). -/
def State.mayIssue (s : State) (i : Nat) : Bool :=
  let c := s.ctxOf i
  c.occ && c.st = 0 && c.ready ≤ s.cycOf (fieldOfCtx i) && s.tagRuns (tileOfCtx i) c.tag

/-- Attempt the next bundle of a context: sections and loop nests first (R196, R203), then fetch, checks and effect. A pre-emption or STOP that waited for
the bundle boundary takes effect after it (R242, R248). -/
def State.issueCtx (s0 : State) (i : Nat) : Out :=
  let s := { s0 with cur := i }
  if s.sectionLong then .next (s.freeze i { cause := .npTooLong })
  else if !s.cx.nestOk then .next (s.freeze i { cause := .loopNest })
  else match s.fetch with
    | .bad e => .next (s.freeze i e)
    | .wait => .next ((s.stallOn 0).settlePreempt i)
    | .ok d s1 =>
      match s1.runBundle d with
      | .next s2 => .next ((s1.endStep (s1.countIssue d s2)).settlePreempt i)
      | o => o

/-- The contexts of a core in issue order (R142). -/
def State.issueOrder (s : State) (core : Nat) : List Nat :=
  let last := (s.coreOf core).last
  (List.range 8).map (fun j => 8 * core + (last + 1 + j) % 8)

/-- A core records a bundle that context i has issued: the context, the cycle, and what it changed of the tile's special registers (R142, R321). A bundle
whose reply is back has issued before, and takes the core's turn of a cycle to complete (DESIGN CHOICE; log 144). -/
def State.issuedBy (s : State) (core i : Nat) (s' : State) : State :=
  s'.updCore core (fun k => { k with last := if (s.ctxOf i).hold.isSome then k.last else i % 8, issued := some (s.cycOf (fieldOfTile (tileOfCore core))), before := s.changedSprs s' (tileOfCore core) })

/-- The first context whose bundle can issue issues; those passed over stall (R142). -/
def State.issueFirst (core : Nat) : List Nat → State → Out
  | [], s => .next s
  | i :: is, s =>
    if !s.mayIssue i then State.issueFirst core is s
    else match s.issueCtx i with
      | .next s' =>
        if s'.isStalled i && !s.newHold s' i then State.issueFirst core is s'
        else .next (s.issuedBy core i s')
      | o => o

/-- A core may issue now: not in a relock of its field (R19), and one bundle in an arithmetic cycle at most (R142). -/
def State.issueOpen (s : State) (core : Nat) : Bool :=
  (s.hubOf (fieldOfTile (tileOfCore core))).locking.isNone && (s.coreOf core).issued ≠ some (s.cycOf (fieldOfTile (tileOfCore core)))

/-- One issue cycle of a core (R142). -/
def State.issueCore (s : State) (core : Nat) : Out :=
  if !s.issueOpen core then .next s
  else State.issueFirst core (s.issueOrder core) s

end Sys2Proof.Machine
end

