-- ==== Sys2Proof/Machine/Run.lean ====
section
/-! DEFINITION. What a step can be: a move of the agenda, an event that the machine brings about by itself, or one issue cycle (log 1). Then how one instruction
is laid before the step (the host's `withFetchWord`). -/

namespace Sys2Proof.Machine

/-! ### Moves of the agenda -/

/-- How many units there are of the kind that an event names in `arg.unit`; none where it names no unit of the device. -/
def unitCount : Instr → Option Nat
  | .startupRailsStable | .imageVerify | .startupIdentityAtlas | .rookStartupPass | .startupLinksUp | .fclkctlWrite | .relockEnd
  | .railswMove | .atlasStatusWrite | .linkRetryLimit | .rookPassStart | .rookPreempt | .rookTestDone | .rookTestAbandon | .bankerGrant
  | .shortfallCover | .leaseRequest | .leaseAnswer | .leaseRenewal | .leaseEnd | .bkshareWrite | .bkgshareWrite | .ballastUpdate
  | .wakeStart | .quantumEnd | .qlimExpiry | .quiesceEnd | .switchRestoreEnd | .hwMessageDeferred | .barrierTimeout | .faultQueueDrain
  | .tlbinvLowWrite | .tlbinvHighWrite | .tlbinvDone => some 90
  | .revocationEffect | .tileIdleGate | .gatingHoldEnd | .tilepwrWakeWrite | .wakePromotion | .wakeComplete | .dormantStart
  | .engineOccupancyEnd | .operationPiece | .operationComplete | .offloadReply | .offloadTimeout | .barrierDelivery | .opcmdResume
  | .opcmdFail | .opcmdBad | .thermalLimit | .sliceGoesDark => some 10800
  | .messageInject | .bounceQueueDeliver | .firingStart | .parkResume | .poolFiringStart | .taskStart | .ticketPull | .ticketSteal
  | .taskSteal | .footprintCopy | .streamInputFill | .streamOutputStore | .pageWalk | .coreHang | .dqcfgWrite | .actcfgWrite
  | .parkcfgWrite => some 21600
  | .npTooLong | .wdogReport | .dbgAttach | .dbgStop | .dbgResume | .dbgRestart | .dbgSkip | .dbgStep | .dbgKill | .dbgCmdBad
  | .illegalOpcode | .codeFetchFault | .doublesMismatch => some 172800
  | .railvWrite | .railSlewEnd | .railOvercurrent => some 4
  | .pshareWrite | .shuffleStep => some 16
  | _ => none

/-- The unit of an event exists. -/
def unitOk (i : Instr) (a : EvArg) : Bool := match unitCount i with
  | some n => decide (a.unit < n)
  | none => true

/-- An event of the device happens; a slot instruction is none. -/
def State.happen (s : State) (i : Instr) (a : EvArg) : Out :=
  if (encode i).isSome then .next s
  else if unitOk i a then exec i { s with arg := a }
  else .fault (.noSuchUnit a.unit)

/-- Stores of a tile to itself that would be later than 64 arithmetic cycles from their retirement when `u` units have passed are performed first
(R207). -/
def State.settleOwn (s : State) (u : Nat) : State :=
  let after := s.passTime u
  (s.net.filter (fun a => a.reach = 0 && a.silent && a.result.isNone && a.cyc + 64 ≤ after.cycOf (fieldOfCtx a.ctx))).foldl (fun s a =>
    match s.accOf a.id with
    | some b => if s.performable b then s.perform b else s
    | none => s) s

/-- n arithmetic cycles of field f are counted by event 0x01; a wrap in them has the RTIME of its own cycle (R101, R103). -/
def State.countTime (s : State) (f n : Nat) (c : Counter) : Counter :=
  let c1 := c.count 0x01 n
  let h := s.hubOf f
  if c.value < 2 ^ 48 ∧ 2 ^ 48 ≤ c1.value then
    { c1 with wrapAt := some (s.passTime (h.anchor + (s.cyclesSince h + (2 ^ 48 - c.value)) * Config.cycleUnits h.curn - s.now)).rtime }
  else c1

/-- Time passes, and the cycles in which a core has an occupied context are counted (R101). -/
def State.advance (s : State) (u : Nat) : State :=
  let s0 := if s.net.isEmpty then s else s.settleOwn u
  let s1 := s0.passTime u
  s1.cores.foldl (fun s e =>
    if e.2.counters.isEmpty then s
    else
      let f := fieldOfTile (tileOfCore e.1)
      let busy := (List.range 8).foldl (fun n c => if (s.ctxOf (8 * e.1 + c)).occ then n + 2 ^ c else n) 0
      let n := s1.cycOf f - s0.cycOf f
      if n = 0 ∨ (s1.hubOf f).locking.isSome then s
      else s.updCore e.1 (fun k => { k with counters := k.counters.map (fun q => (q.1, if Nat.land q.2.ctxm busy ≠ 0 then s0.countTime f n q.2 else q.2)) })) s1

/-! ### Events that come about by themselves -/

/-- An event with its payload. -/
abbrev Due := Instr × EvArg

/-- An event that brings nothing. -/
def noArg : EvArg := {}

/-- What a field hub may do now. -/
def Hub.events (f : Nat) (h : Hub) : List Due :=
  [Instr.relockEnd, .bankerGrant, .shortfallCover, .leaseRequest, .leaseAnswer, .ballastUpdate, .wakeStart, .rookPassStart, .rookPreempt, .rookTestDone,
    .rookTestAbandon, .quantumEnd, .qlimExpiry, .quiesceEnd, .switchRestoreEnd, .faultQueueDrain, .tlbinvDone].map (fun i => (i, { unit := f })) ++
    h.leases.flatMap (fun e => [(Instr.leaseRenewal, { unit := f, other := e.1 }), (Instr.leaseEnd, { unit := f, other := e.1 })]) ++
    (List.range h.waiting.length).map (fun i => (Instr.hwMessageDeferred, { unit := f, value := i })) ++
    h.barriers.map (fun e => (Instr.barrierTimeout, { unit := f, other := e.1 })) ++ h.launches.map (fun e => (Instr.launchComplete, { unit := e.2.id })) ++
    h.counters.map (fun e => (Instr.counterOverflow, { unit := f, other := e.1, level := 2 }))

/-- What a tile may do now; an answer of a Fjoval chip comes when it is asked for. -/
def Tile.events (t : Nat) (x : Tile) : List Due :=
  [Instr.revocationEffect, .tileIdleGate, .gatingHoldEnd, .wakePromotion, .wakeComplete, .engineOccupancyEnd].map (fun i => (i, { unit := t })) ++
    x.ops.flatMap (fun e => [Instr.operationPiece, .barrierDelivery, .operationComplete, .dormantStart].map (fun i => (i, { unit := t, other := e.1 })) ++
      e.2.offload.map (fun p => (Instr.offloadReply, { unit := t, other := e.1, value := p.1 }))) ++
    x.sliceCounters.map (fun e => (Instr.counterOverflow, { unit := t, other := e.1, level := 1 }))

/-- What a core may do now. -/
def Core.events (k : Nat) (c : Core) : List Due :=
  c.streams.flatMap (fun e => [Instr.streamInputFill, .streamOutputStore].map (fun i => (i, { unit := k, other := e.1 }))) ++
    c.sendq.map (fun e => (Instr.messageInject, { unit := k, other := e.1 })) ++ [(Instr.bounceQueueDeliver, { unit := k })] ++
    c.parked.map (fun e => (Instr.parkResume, { unit := k, other := e.1 })) ++ (List.range 8).map (fun j => (Instr.parkResume, { unit := k, other := 64 + j })) ++
    [Instr.firingStart, .footprintCopy, .poolFiringStart, .taskStart, .ticketPull, .ticketSteal, .taskSteal, .coreHang].map (fun i => (i, { unit := k })) ++
    c.counters.map (fun e => (Instr.counterOverflow, { unit := k, other := e.1 }))

/-- What may become of an access now; what another device answers comes from outside. -/
def Access.events (a : Access) : List Due :=
  (if a.reach = 3 ∧ a.result.isNone then [Instr.accessPerformed, .barrierArrival, .respTimeout] else [.accessPerformed, .barrierArrival, .accessReply, .storeAck]).map
    (fun i => (i, { value := a.id }))

/-- Issue cores that may run a launch: those of its acceptance, and those whose units have changed their status since (R136). -/
def State.launchCores (s : State) : List Nat :=
  s.hubs.flatMap (fun h => h.2.launches.flatMap (fun e => e.2.runners.map (fun t => 2 * (t % 10800) + 1) ++
    e.2.mask.flatMap (fun f => (s.hubOf f).atlas.filterMap (fun r => (unitOfNode f r.1).map (fun u => 2 * u.1 + 1)))))

/-- Everything that may come about now, in the order in which it is tried. -/
def State.events (s : State) : List Due :=
  s.net.flatMap Access.events ++ s.misses.map (fun e => (Instr.sliceFill, { value := e.1 })) ++ s.syncs.map (fun r => (Instr.syncRecordClear, { value := r.line })) ++
    (List.range s.flying.length).flatMap (fun i => [(Instr.routePacket, { value := i }), (Instr.messageArrival, { value := i })]) ++
    (List.range s.ctls.length).flatMap (fun i => [(Instr.wakeDelivery, { value := i }), (Instr.haltDelivery, { value := i })]) ++
    (List.range s.rings.length).map (fun i => (Instr.ringTransfer, { unit := i })) ++
    s.tiles.flatMap (fun e => e.2.events e.1) ++ s.hubs.flatMap (fun e => e.2.events e.1) ++ s.cores.flatMap (fun e => e.2.events e.1) ++
    (s.launchCores.eraseDups.filter (fun k => !s.cores.has k)).flatMap (fun k => ({} : Core).events k) ++
    s.ctxs.flatMap (fun e => [(Instr.npTooLong, { unit := e.1 }), (Instr.wdogReport, { unit := e.1 })]) ++
    s.rails.map (fun e => (Instr.railSlewEnd, { unit := e.1 })) ++ s.parts.map (fun e => (Instr.shuffleStep, { unit := e.1 })) ++ [(Instr.pacerReport, noArg)] ++
    (List.range s.migrations.length).flatMap (fun i => (Instr.migrationCopy, { value := i }) ::
      ((match s.migrations[i]? with
        | some g => g.markers.map (fun e => (Instr.migrationMarker, { value := i, unit := e.1, other := e.2 }))
        | none => []) ++ [(Instr.migrationRelease, { value := i })])) ++
    [(Instr.routeDrainComplete, noArg), (Instr.routeDrainTimeout, noArg)] ++ s.loith.sessions.map (fun e => (Instr.sequenceGapTimeout, { unit := e.1 })) ++
    [(Instr.rtimeSyncLost, noArg), (Instr.pkgPowerLimit, noArg), (Instr.powerLimitClear, noArg)] ++ (if s.takeoverDue then [(Instr.hub0Takeover, noArg)] else [])

/-- The event changes something. -/
def State.effective (s : State) (d : Due) : Bool :=
  let t := { s with arg := d.2 }
  match s.happen d.1 d.2 with
  | .next s' => s' ≠ t
  | _ => false

/-- The first event that comes about now. -/
def State.due (s : State) : Option Due := s.events.find? s.effective

/-! ### Issue in turn -/

/-- Cores with a running context. -/
def State.runningCores (s : State) : List Nat := ((s.ctxs.filter (fun e => e.2.occ && e.2.st = 0)).map (fun e => coreOfCtx e.1)).eraseDups

/-- The core after one, in rising order and round again. -/
def State.nextCore (s : State) (k : Nat) : Nat :=
  match leastOf (s.runningCores.filter (· > k)), leastOf s.runningCores with
  | some j, _ => j
  | none, some j => j
  | none, none => k

/-- One issue cycle at the focus; one cycle of its field passes when the turn begins again (log 1). -/
def State.turn (s : State) : Out :=
  match s.issueCore s.focus with
  | .next s1 =>
    let k := s1.nextCore s.focus
    let s2 : State := { s1 with focus := k }
    .next (if k ≤ s.focus then s2.advance (Config.cycleUnits (s.hubOf (fieldOfTile (tileOfCore s.focus))).curn) else s2)
  | o => o

/-! ### The step -/

/-- What every change of the machine brings with it: counters that wrap, triggers that hold, tiles that fall idle, rook tests that find their gap (R43, R66, R67, R140). -/
def State.noted (s : State) : State := s.wrapAll.noteActors.noteIdle.rooksAdvance

/-- One move. -/
def State.move (s : State) : Out :=
  match s.agenda with
  | .event i a :: rest => ({ s with agenda := rest } : State).happen i a
  | .issue k :: rest => if k < 21600 then ({ s with agenda := rest } : State).issueCore k else .fault (.noSuchUnit k)
  | .advance u :: rest => .next (({ s with agenda := rest } : State).advance u)
  | .measure a p c :: rest => if a < 4 then .next (({ s with agenda := rest } : State).measure a p c) else .fault (.noSuchUnit a)
  | [] => match s.due with
    | some (i, a) => s.happen i a
    | none => s.turn

/-- A step: one move, then what it brings with it. -/
def State.stepOnce (s : State) : Out := match s.move with
  | .next t => .next t.noted
  | o => o

/-! ### An instruction before the step -/

/-- Where the instruction stands: the context, its VA and that of its bundle, the tag, the HBM offsets of the two page tables. -/
def fetchVa : Nat := 0x40000
def hbmGpa (o : Nat) : Nat := 0x3FF * 2 ^ 54 + 2 ^ 52 + o

/-- Memory with a bundle at HBM offset 0x40000 and tables that map VA 0 there for tag 1: a root, and a leaf of 1 TiB (R116, R117). -/
def placeBundle (m : Memory) (d : Nat) : Memory :=
  ((m.writeLE (gpaKey (hbmGpa 0x10000)) 16 (hbmGpa 0x20000 + 3)).writeLE (gpaKey (hbmGpa 0x20000)) 16 (2 ^ 120 + hbmGpa 0 + 0x3D)).writeLE
    (gpaKey (hbmGpa fetchVa)) 8 d

/-- The context that issues first at a core (R142). -/
def State.firstCtx (s : State) (k : Nat) : Nat := 8 * k + ((s.coreOf k).last + 1) % 8

/-- A firing that runs at the bundle, of tag 1. -/
def fetchCtx (c : Ctx) : Ctx :=
  { c with occ := true, st := 0, pc := BitVec.ofNat 64 fetchVa, codelo := BitVec.ofNat 64 fetchVa, codehi := BitVec.ofNat 64 (fetchVa + 8), tag := 1, lc := [],
           np := false, hold := none, reply := none, stall := none, ready := 0, stepping := false, preempt := 0, firing := if c.firing = 0 then 1 else c.firing }

/-- A field that runs partition 0 of tag 1, its page tables in place. -/
def fetchHub (h : Hub) : Hub :=
  { h with startup := 7, dark := false, locking := none, run := some 0, runTag := 1, group := if h.group.contains 0 then h.group else 0 :: h.group, sw := {}, tlb := [],
           troots := h.troots.put 0 (hbmGpa 0x10000 + 1) }

/-- Everything that makes the next step issue the bundle `d` at the focus. -/
def State.placeDoubleword (s : State) (d : Nat) : State :=
  let k := s.focus
  let i := s.firstCtx k
  let f := fieldOfTile (tileOfCore k)
  let s1 : State := { s with agenda := .issue k :: s.agenda, cur := i, mem := placeBundle s.mem d, poison := [] }
  (((s1.updPart 0 (fun p => { p with valid := true, state := 1, tag := 1, fields := if p.fields.contains f then p.fields else f :: p.fields })).updHub f fetchHub).updCore k
    (fun c => { c with issued := none, utlb := [], ibuf := [] })).updTile (tileOfCore k) (fun t => { t with pwr := 0 }) |>.updCtx i fetchCtx

end Sys2Proof.Machine
end

