-- ==== Sys2Proof/Machine/Step.lean ====
section
/-! DEFINITION. One step of the machine, and the instruction that the host lays before it. -/

namespace Sys2Proof.Machine

/-- One step: a move of the agenda, or, without one, what the machine does by itself. -/
def step (s : State) : Host.Outcome State Fault Refusal := s.stepOnce

/-- The state with an instruction of the opcode table, given by its word, at the place that the next step fetches from: a firing runs there (log 1). -/
def State.withFetchWord (s : State) (nbits w : Nat) : State := s.placeDoubleword (tableWords nbits w).doubleword

end Sys2Proof.Machine
end

