-- ==== Sys2Proof/Safety.lean ====
section
/-! DEFINITION. What the claims call safe, and the words in which they are stated: a step that goes on, the forms of the state that every step
should keep, what an instruction gives, and what a state keeps of the one before it. -/

namespace Sys2Proof.Machine

/-- A step from a state answers a next state: it meets no fault and no refusal. -/
def State.goesOn (s : State) : Prop := ∃ t, step s = .next t

/-- Memory has its canonical form: addresses strictly rising, and no entry that reads as an unlisted byte does (log 3). -/
def State.memOk (s : State) : Prop := s.mem.wf = true

/-- A predicate that every step keeps, from every state. -/
def Kept (inv : State → Prop) : Prop := ∀ s t, inv s → step s = .next t → inv t

/-- A predicate that one instruction keeps, from every state. -/
def KeptBy (i : Instr) (inv : State → Prop) : Prop := ∀ s t, inv s → exec i s = .next t → inv t

/-- The issuing context may run an instruction: it passes steps 2 to 5 of R276. -/
def State.accepts (s : State) (i : Instr) : Prop := slotCause i s.cx.long s.level = none

/-- The instruction answers a next state, whenever it is accepted, in which XD holds the value that `v` gives and the bundle has retired with
the next address (R184). What `setX` and `fall` change and keep is stated on its own. -/
def Gives (i : Instr) (xd : BitVec 5) (v : State → Word) : Prop := ∀ s : State, s.accepts i → exec i s = .next ((s.setX xd (v s)).fall)

/-- All but the issuing context and its core is as before, and so is the core but for its record of retirement (R253). -/
def State.keepsRest (s t : State) : Prop :=
  (∀ i, i ≠ s.cur → t.ctxOf i = s.ctxOf i) ∧ (∀ k, k ≠ coreOfCtx s.cur → t.coreOf k = s.coreOf k) ∧
    t.core = { s.core with retired := s.rtime, hung := false } ∧ { t with ctxs := s.ctxs, cores := s.cores } = s ∧ (∀ a, t.mem.read a = s.mem.read a)

/-- A retired bundle wrote no register but `x` registers that `dest` names: the context keeps its other `x` registers, its `v` and `k` registers, its
special registers, its status and its firing; PC and the loop counters may change (R184, R197). -/
def State.writesOnly (s t : State) (dest : BitVec 5 → Prop) : Prop :=
  (∀ r, ¬ dest r → t.x r = s.x r) ∧
    t.cx = { s.cx with x := t.cx.x, pc := t.cx.pc, lc := t.cx.lc, stall := none, reported := false, hold := none, reply := none, refusedArr := false, aDone := false } ∧
    s.keepsRest t

/-- What follows the effect `t` of the bundle `d` that context `i` issued in `s`: core events are counted (R101), a debug STEP ends (R242), and a
pre-emption or STOP that waited takes effect (R248). -/
def State.afterIssue (s t : State) (i d : Nat) : State := (s.endStep (s.countIssue d t)).settlePreempt i

/-- The state in which the A slot of a pair runs: as before the bundle, but that draws follow those of the C slot, which left `c` (R184, R267). -/
def State.beforeA (s c : State) : State := s.updCurCore (fun k => { k with seed := (c.coreOf (coreOfCtx s.cur)).seed })

/-- A slot of the issuing context has run: its firing still runs in its slot, and its bundle does not stall. -/
def State.ranOn (s t : State) : Prop := (t.ctxOf s.cur).st = 0 ∧ (t.ctxOf s.cur).stall = none ∧ (t.ctxOf s.cur).firing = s.cx.firing

end Sys2Proof.Machine
end

