-- ==== Sys2Proof/Certificates/Slice0/Obligations.lean ====
section
/-! DEFINITION. The statements for the provers. A statement of an instruction's result says that `exec` answers a next state and what that state holds; `Occurs` says the
same of an event of the device. Free values (log 1) stand on both sides of an equation: every such statement holds for every value. -/

open Sys2Proof Sys2Proof.Machine

/-! ### Encoding (R275 to R285) -/

/-- R275 to R285: the decoder reads from the words of an instruction that instruction, with every operand at every value that its format holds;
`encode` gives words for every row of the opcode maps and for no event of the device. -/
def Obligations.DecodeOfEncodeIsTheInstruction : Prop :=
  ∀ (i : Instr) (w : Words), encode i = some w → decode w = .ok i

/-- R275 to R285: what the decoder accepts is the encoding of what it answers, so no two words are one instruction. -/
def Obligations.EncodeOfDecodeIsTheWords : Prop :=
  (∀ (w : Words) (i : Instr), decode w = .ok i → encode i = some w) ∧
    ∀ (v w : Words) (i : Instr), decode v = .ok i → decode w = .ok i → v = w

/-- Words written out from R275, R278 to R285 and R287 decode to the instructions they stand for, and the pairs of R276's examples are read as it says. -/
def sampleWordsDecode : Prop :=
  decode (.c 0x1E184000) = .ok (.ldD { rt := 3, base := 1, disp := 0 }) ∧
  decode (.a 0x0118C400) = .ok (.add { xd := 3, xa := 3, xb := 2, xc := 0, rm := 0, tr := 0 }) ∧
  decode (.c 0x01FFFFFE) = .ok (.br { off := 0xFFFFFE }) ∧
  decode (.c 0x77000007) = .ok (.trap { imm := 7 }) ∧
  decode (.c 0x67110000) = .ok (.capMint { xd := 2, xa := 4, xb := 0, opt := 0 }) ∧
  decode (.a 0x80123800) = .ok (.vadd { vd := 1, va := 2, vb := 3, me := 1, km := 0, t := 0, mod := 0, sub := 0 }) ∧
  decode (.wide 0x80280000 7) = .ok (.liD { xd := 5, immh := 0, imml := 7 }) ∧
  decode (.wide 0x81081800 0xFFFFFFFF) = .ok (.farBge { xa := 1, xb := 0, off := 0xFFFFFFFF }) ∧
  decode (.a 0x1F000000) = .error .illegalOpcode ∧
  decode (.wide 0xFF000000 0) = .error .illegalOpcode ∧
  decode (.a 0x00000001) = .error .reservedField

/-- R276 step 1: a slot whose opcode is unassigned in the map of its space (R283 to R285) has the cause `ILLEGAL_OPCODE`. -/
def unassignedOpcodesAreIllegal : Prop :=
  (∀ w : Nat, w / 2 ^ 24 % 128 ∈ [0x16, 0x17, 0x1F, 0x2E, 0x2F, 0x30, 0x31, 0x32, 0x33, 0x34, 0x35, 0x36, 0x37, 0x3F, 0x44, 0x45, 0x5E, 0x5F, 0x6F, 0x7F] →
    decode (.c w) = .error .illegalOpcode) ∧
  (∀ w : Nat, w / 2 ^ 24 % 256 ∈ [0x1F, 0x26, 0x27, 0x2F, 0x3F, 0x4F, 0x5B, 0x7F, 0xA6, 0xA7, 0xB0, 0xB6, 0xB8, 0xFF] → decode (.a w) = .error .illegalOpcode) ∧
  (∀ w v : Nat, w / 2 ^ 24 % 128 ∈ [0x02, 0x0F, 0x17, 0x1C, 0x1F, 0x25, 0x27, 0x2C, 0x2F, 0x32, 0x37, 0x3B, 0x3F, 0x42, 0x7F] → decode (.wide w v) = .error .illegalOpcode)

/-- R275, R276, R278 to R287: sample words decode to the instructions they stand for, and every unassigned opcode of the three maps is `ILLEGAL_OPCODE`. -/
def Obligations.SampleWordsAndUnassignedOpcodes : Prop := sampleWordsDecode ∧ unassignedOpcodesAreIllegal

/-! ### Reset -/

/-- R29 step 1, R20, R22, R188: at power-on reset every field is in start-up step 1 with FCLKCTL at its reset value (CURN = NEWN = 20, the other bits 0),
all tiles are gated, RTIME is zero, and CYC and NCYC are zero. -/
def resetGatesTilesAndZeroesTime : Prop :=
  State.reset.rtimeWord = 0 ∧
  (∀ f, (State.reset.hubOf f).startup = 1 ∧ (State.reset.hubOf f).fclkctl = 20 * 2 ^ 8 + 20 ∧ State.reset.cycOf f = 0 ∧ State.reset.ncycOf f = 0) ∧
  (∀ t, (State.reset.tileOf t).pwr = 2 ∧ (State.reset.tileOf t).h = 0) ∧
  (∀ r, (State.reset.railOf r).cur = 740)

/-- The reset memory has the canonical form, and reads as zero everywhere: the model's choice of log 3, for bytes to which the spec gives no value. -/
def resetMemoryIsCanonical : Prop := State.reset.memOk ∧ ∀ a, State.reset.mem.read a = 0

/-- R20, R22, R29, R188: the state after power-on reset; that its memory reads as zero is the model's choice (log 3). -/
def Obligations.ResetGatesTilesAndListsNoMemory : Prop := resetGatesTilesAndZeroesTime ∧ resetMemoryIsCanonical

/-! ### Memory -/

/-- R314: a write of one byte is read back, leaves every other byte as it was, and keeps the canonical form; a little-endian write of n bytes is read back
as one number and leaves every byte outside them as it was. Memory is in the canonical form of log 3. -/
def Obligations.WritesAreReadBack : Prop :=
  ∀ (m : Memory) (a : Nat), m.wf = true →
    (∀ b : Byte, (m.write a b).wf = true ∧ ∀ c, (m.write a b).read c = if c = a then b else m.read c) ∧
    (∀ n v : Nat, (m.writeLE a n v).wf = true ∧ (m.writeLE a n v).readLE a n = v % 2 ^ (8 * n) ∧ ∀ c, c < a ∨ a + n ≤ c → (m.writeLE a n v).read c = m.read c)

/-- Every step keeps the canonical form of memory, from every state. -/
def Obligations.StepsKeepMemoryCanonical : Prop := Kept State.memOk

/-! ### A step runs the decoded instruction -/

/-- R142, R184, R275: when the agenda asks a core to issue that has issued no bundle in this arithmetic cycle, its field is in no relock, and the first context in issue order may issue, the step issues the bundle `d`
that the fetch at its PC gives, `s1` being the state after the fetch. A wide bundle has the effect of its decoded instruction on `s1`. A pair has the effects
of both decoded slots, each of which reads registers as they stood in `s1`; where the C slot is `done` or `park`, the A slot takes effect first (R309, R310).
A bundle that puts an access in flight and holds for its reply issues
then, and its A slot waits with it (R323, R420). Around the effect a step does what `afterIssue` and `noted` say, and the core records which context issued, in which cycle, and what the bundle changed of the tile's special registers (R321). The agenda is the model's form (log 1), and the two slots are joined as log 10 says. -/
def Obligations.AStepRunsTheDecodedInstruction : Prop :=
  ∀ (s s1 : State) (rest : List Move) (k d : Nat),
    s.agenda = .issue k :: rest → k < 21600 → (s.hubOf (fieldOfTile (tileOfCore k))).locking = none →
    (s.coreOf k).issued ≠ some (s.cycOf (fieldOfTile (tileOfCore k))) →
    let i := 8 * k + ((s.coreOf k).last + 1) % 8
    let s0 : State := { s with agenda := rest, cur := i }
    let w0 := d % 2 ^ 32
    let w1 := d / 2 ^ 32 % 2 ^ 32
    s0.mayIssue i = true → s0.sectionLong = false → s0.cx.nestOk = true → s0.fetch = .ok d s1 → bundleCause d s1.cx.long s1.level = none →
    (∀ instr t, 2 ^ 31 ≤ w0 → decodeWide w0 w1 = .ok instr → exec instr s1 = .next t → (s1.afterIssue t i d).isStalled i = false →
      step s = .next (({ s with agenda := rest } : State).issuedBy k i (s1.afterIssue t i d)).noted) ∧
    (∀ ic ia tc ta, w0 < 2 ^ 31 → endsFiring w0 = false → writesSeed w0 = false → decodeC w0 = .ok ic → decodeA w1 = .ok ia →
      exec ic s1 = .next tc → s1.ranOn tc → exec ia (s1.beforeA tc) = .next ta → s1.ranOn ta → (s1.afterIssue (s1.withA ta tc) i d).isStalled i = false →
      step s = .next (({ s with agenda := rest } : State).issuedBy k i (s1.afterIssue (s1.withA ta tc) i d)).noted) ∧
    (∀ ic ia tc ta, w0 < 2 ^ 31 → endsFiring w0 = true → s1.cx.aDone = false → decodeC w0 = .ok ic → decodeA w1 = .ok ia →
      exec ia s1 = .next ta → s1.ranOn ta → exec ic ((s1.withA ta s1).upd (fun c => { c with aDone := true })) = .next tc → (tc.ctxOf i).st ≠ 1 →
      (s1.afterIssue tc i d).isStalled i = false →
      step s = .next (({ s with agenda := rest } : State).issuedBy k i (s1.afterIssue tc i d)).noted) ∧
    (∀ ic ia tc ta, w0 < 2 ^ 31 → endsFiring w0 = false → writesSeed w0 = false → decodeC w0 = .ok ic → decodeA w1 = .ok ia →
      exec ic s1 = .next tc → (tc.ctxOf i).st ≠ 1 → tc.isStalled i = true → exec ia (s1.beforeA tc) = .next ta → s1.ranOn ta →
      ({ s with agenda := rest } : State).newHold (s1.afterIssue tc i d) i = true →
      step s = .next (({ s with agenda := rest } : State).issuedBy k i (s1.afterIssue tc i d)).noted)

/-! ### Scalar integer instructions -/

/-- R180: `x0` reads zero and a write to it is discarded; any other register holds what was last written to it, and a write to it changes no other register. -/
def Obligations.RegisterZeroDiscardsWrites : Prop :=
  ∀ (s : State) (r : BitVec 5) (v : Word),
    s.x 0 = 0 ∧ s.setX 0 v = s ∧ (r ≠ 0 → (s.setX r v).x r = v) ∧ (∀ q, q ≠ r → (s.setX r v).x q = s.x q) ∧
      (∀ i, i ≠ s.cur → (s.setX r v).ctxOf i = s.ctxOf i) ∧ ({ s.setX r v with ctxs := s.ctxs } : State) = s

/-- R297: every register-register form writes the value of its row to XD and falls through; `nop.a` writes nothing. A field that is not named must be zero,
which `accepts` requires. -/
def registerFormsGiveTheirResults : Prop :=
  (∀ s : State, s.accepts .nopA → exec .nopA s = .next s.fall) ∧
  ∀ f : FmtAR,
    Gives (.add f) f.xd (fun s => s.x f.xa + s.x f.xb) ∧
    Gives (.sub f) f.xd (fun s => s.x f.xa - s.x f.xb) ∧
    Gives (.mul f) f.xd (fun s => ((s.x f.xa).setWidth 128 * (s.x f.xb).setWidth 128).extractLsb' 0 64) ∧
    Gives (.mulh f) f.xd (fun s => ((s.x f.xa).signExtend 128 * (s.x f.xb).signExtend 128).extractLsb' 64 64) ∧
    Gives (.mulhu f) f.xd (fun s => ((s.x f.xa).setWidth 128 * (s.x f.xb).setWidth 128).extractLsb' 64 64) ∧
    Gives (.and f) f.xd (fun s => s.x f.xa &&& s.x f.xb) ∧
    Gives (.or f) f.xd (fun s => s.x f.xa ||| s.x f.xb) ∧
    Gives (.xor f) f.xd (fun s => s.x f.xa ^^^ s.x f.xb) ∧
    Gives (.andn f) f.xd (fun s => s.x f.xa &&& ~~~(s.x f.xb)) ∧
    Gives (.orn f) f.xd (fun s => s.x f.xa ||| ~~~(s.x f.xb)) ∧
    Gives (.shl f) f.xd (fun s => BitVec.ofNat 64 ((s.x f.xa).toNat * 2 ^ ((s.x f.xb).extractLsb' 0 6).toNat)) ∧
    Gives (.shr f) f.xd (fun s => BitVec.ofNat 64 ((s.x f.xa).toNat / 2 ^ ((s.x f.xb).extractLsb' 0 6).toNat)) ∧
    Gives (.sra f) f.xd (fun s => BitVec.ofInt 64 ((s.x f.xa).toInt / 2 ^ ((s.x f.xb).extractLsb' 0 6).toNat)) ∧
    Gives (.rol f) f.xd (fun s => (s.x f.xa).rotateLeft ((s.x f.xb).extractLsb' 0 6).toNat) ∧
    Gives (.min f) f.xd (fun s => if (s.x f.xb).toInt < (s.x f.xa).toInt then s.x f.xb else s.x f.xa) ∧
    Gives (.max f) f.xd (fun s => if (s.x f.xa).toInt < (s.x f.xb).toInt then s.x f.xb else s.x f.xa) ∧
    Gives (.minu f) f.xd (fun s => if (s.x f.xb).toNat < (s.x f.xa).toNat then s.x f.xb else s.x f.xa) ∧
    Gives (.maxu f) f.xd (fun s => if (s.x f.xa).toNat < (s.x f.xb).toNat then s.x f.xb else s.x f.xa) ∧
    Gives (.slt f) f.xd (fun s => if (s.x f.xa).toInt < (s.x f.xb).toInt then 1 else 0) ∧
    Gives (.sltu f) f.xd (fun s => if (s.x f.xa).toNat < (s.x f.xb).toNat then 1 else 0) ∧
    Gives (.seq f) f.xd (fun s => if s.x f.xa = s.x f.xb then 1 else 0) ∧
    Gives (.sel f) f.xd (fun s => if s.x f.xc ≠ 0 then s.x f.xa else s.x f.xb) ∧
    Gives (.sextB f) f.xd (fun s => ((s.x f.xa).extractLsb' 0 8).signExtend 64) ∧
    Gives (.sextH f) f.xd (fun s => ((s.x f.xa).extractLsb' 0 16).signExtend 64) ∧
    Gives (.sextW f) f.xd (fun s => ((s.x f.xa).extractLsb' 0 32).signExtend 64) ∧
    Gives (.zextB f) f.xd (fun s => ((s.x f.xa).extractLsb' 0 8).setWidth 64) ∧
    Gives (.zextH f) f.xd (fun s => ((s.x f.xa).extractLsb' 0 16).setWidth 64) ∧
    Gives (.zextW f) f.xd (fun s => ((s.x f.xa).extractLsb' 0 32).setWidth 64)

/-- R297, the bit counts and the byte swap: the results of `clz`, `ctz`, `popc` and `bswap` by the bits of a. -/
def bitCountsAndByteSwap : Prop :=
  ∀ (f : FmtAR) (s : State),
    let a := s.x f.xa
    (s.accepts (.clz f) → ∃ n, n ≤ 64 ∧ exec (.clz f) s = .next ((s.setX f.xd (BitVec.ofNat 64 n)).fall) ∧
      (∀ i, 64 - n ≤ i → a.getLsbD i = false) ∧ (n < 64 → a.getLsbD (63 - n) = true)) ∧
    (s.accepts (.ctz f) → ∃ n, n ≤ 64 ∧ exec (.ctz f) s = .next ((s.setX f.xd (BitVec.ofNat 64 n)).fall) ∧
      (∀ i, i < n → a.getLsbD i = false) ∧ (n < 64 → a.getLsbD n = true)) ∧
    (s.accepts (.popc f) →
      exec (.popc f) s = .next ((s.setX f.xd (BitVec.ofNat 64 ((List.range 64).filter (fun i => a.getLsbD i)).length)).fall)) ∧
    (s.accepts (.bswap f) → ∃ v : Word, exec (.bswap f) s = .next ((s.setX f.xd v).fall) ∧
      ∀ i, i < 8 → v.extractLsb' (8 * i) 8 = a.extractLsb' (8 * (7 - i)) 8)

/-- R297: every register-register form. -/
def Obligations.RegisterFormsGiveTheirValues : Prop := registerFormsGiveTheirResults ∧ bitCountsAndByteSwap

/-- R298: the four division forms, with their corners, and the trapping forms, which take `INT_DIVZERO` (0x92) in the A slot with nothing written. -/
def Obligations.DivisionFollowsItsCorners : Prop :=
  ∀ (f : FmtAR) (s : State),
    let a := s.x f.xa
    let b := s.x f.xb
    (s.accepts (.div f) → exec (.div f) s =
      if b = 0 ∧ f.tr = 1 then s.faultA .intDivzero
      else .next ((s.setX f.xd (if b = 0 then BitVec.ofNat 64 (2 ^ 64 - 1) else if a.toInt = -2 ^ 63 ∧ b.toInt = -1 then a
        else BitVec.ofInt 64 (a.toInt.tdiv b.toInt))).fall)) ∧
    (s.accepts (.rem f) → exec (.rem f) s =
      if b = 0 ∧ f.tr = 1 then s.faultA .intDivzero
      else .next ((s.setX f.xd (if b = 0 then a else if a.toInt = -2 ^ 63 ∧ b.toInt = -1 then 0
        else BitVec.ofInt 64 (a.toInt - b.toInt * a.toInt.tdiv b.toInt))).fall)) ∧
    (s.accepts (.divu f) → exec (.divu f) s =
      if b = 0 ∧ f.tr = 1 then s.faultA .intDivzero
      else .next ((s.setX f.xd (if b = 0 then BitVec.ofNat 64 (2 ^ 64 - 1) else BitVec.ofNat 64 (a.toNat / b.toNat))).fall)) ∧
    (s.accepts (.remu f) → exec (.remu f) s =
      if b = 0 ∧ f.tr = 1 then s.faultA .intDivzero
      else .next ((s.setX f.xd (if b = 0 then a else BitVec.ofNat 64 (a.toNat % b.toNat))).fall)) ∧
    Cause.intDivzero = 0x92

/-- R279, R281, R299: the immediate forms and the long immediate. A shift outside 0 to 63 has the cause `IMM_RANGE` (0x0A), which R276 raises for the slot. -/
def Obligations.ImmediateFormsGiveTheirResults : Prop :=
  (∀ f : FmtAI,
    Gives (.addi f) f.xd (fun s => s.x f.xa + f.imm.signExtend 64) ∧
    Gives (.andi f) f.xd (fun s => s.x f.xa &&& f.imm.setWidth 64) ∧
    Gives (.ori f) f.xd (fun s => s.x f.xa ||| f.imm.setWidth 64) ∧
    Gives (.xori f) f.xd (fun s => s.x f.xa ^^^ f.imm.setWidth 64) ∧
    Gives (.shli f) f.xd (fun s => BitVec.ofNat 64 ((s.x f.xa).toNat * 2 ^ f.imm.toNat)) ∧
    Gives (.shri f) f.xd (fun s => BitVec.ofNat 64 ((s.x f.xa).toNat / 2 ^ f.imm.toNat)) ∧
    Gives (.srai f) f.xd (fun s => BitVec.ofInt 64 ((s.x f.xa).toInt / 2 ^ f.imm.toNat)) ∧
    (∀ i, i = .shli f ∨ i = .shri f ∨ i = .srai f → ∀ s : State, slotCause i s.cx.long s.level = if f.imm.toNat < 64 then none else some Cause.immRange) ∧
    (∀ i, i = .addi f ∨ i = .andi f ∨ i = .ori f ∨ i = .xori f → ∀ s : State, s.accepts i) ∧ Cause.immRange = 0x0A) ∧
  (∀ f : FmtAL,
    Gives (.li f) f.xd (fun _ => f.imm.signExtend 64) ∧
    Gives (.lih f) f.xd (fun s => (BitVec.ofNat 32 (f.imm.toNat * 2 ^ 13 + (s.x f.xd).toNat % 2 ^ 13)).signExtend 64)) ∧
  (∀ f : FmtWL,
    Gives (.liD f) f.xd (fun _ => (f.immh ++ f.imml : BitVec 48).signExtend 64) ∧
    Gives (.liDHi f) f.xd (fun s => BitVec.ofNat 64 (f.imml.toNat * 2 ^ 48 + (s.x f.xd).toNat % 2 ^ 48)) ∧
    (∀ s : State, s.accepts (.liDHi f) ↔ f.immh = 0 ∧ f.imml.toNat < 2 ^ 16))

/-- The destination of an instruction whose only effect is the value of one `x` register, or nothing to write. -/
def scalarDest : Instr → Option (BitVec 5)
  | .add f | .sub f | .mul f | .mulh f | .mulhu f | .div f | .divu f | .rem f | .remu f | .and f | .or f | .xor f | .andn f | .orn f | .shl f | .shr f | .sra f
  | .rol f | .min f | .max f | .minu f | .maxu f | .slt f | .sltu f | .seq f | .sel f | .clz f | .ctz f | .popc f | .bswap f | .sextB f | .sextH f | .sextW f
  | .zextB f | .zextH f | .zextW f | .fminS f | .fmaxS f | .feqS f | .fltS f | .fleS f | .fsgnjS f | .fclassS f | .fcvtWS f | .fcvtSH f | .fminH f | .fmaxH f
  | .feqH f | .fltH f | .fleH f | .fsgnjH f | .fclassH f => some f.xd
  | .addi f | .andi f | .ori f | .xori f | .shli f | .shri f | .srai f => some f.xd
  | .li f | .lih f => some f.xd
  | .liD f | .liDHi f => some f.xd
  | .nopA | .nopC => some 0
  | _ => none

/-- R184, R296: an integer, immediate, comparison or conversion form, or a no-operation, that does not freeze its context changes XD and nothing else of the machine: no other register, special
register, status or byte of memory. PC, the loop counters and the core's record of retirement may change. -/
def Obligations.ScalarFormsWriteOnlyTheirDestination : Prop :=
  ∀ (i : Instr) (xd : BitVec 5) (s t : State), scalarDest i = some xd → exec i s = .next t → t.cx.st ≠ 1 → s.writesOnly t (fun r => r = xd ∧ r ≠ 0)

/-! ### Scalar floating point -/

/-- The state of the generator after one draw, and the draw (R267). -/
def drawState (s : Word) : Word :=
  let a := s ^^^ (s <<< 13)
  let b := a ^^^ (a >>> 7)
  b ^^^ (b <<< 17)
def drawValue (s : Word) : Nat := ((drawState s * 0x2545F4914F6CDD1D).extractLsb' 48 16).toNat

/-- R264, R267, R300: a form rounds an exact value into XD once, in the rounding mode that its RM field names. Under SR it draws once from the core's generator, or faults
with `SR_SEED` (0x9F) in the A slot when the generator is zero. -/
def RoundsTo (i : Instr) (F : FloatFmt) (xd : BitVec 5) (rm : State → RoundMode) (v : State → XNum) : Prop :=
  ∀ s : State, s.accepts i →
    (rm s ≠ .sr → exec i s = .next ((s.setX xd (BitVec.ofNat 64 (F.round (v s) (rm s)))).fall)) ∧
    (rm s = .sr → s.core.seed = 0 → exec i s = s.faultA .srSeed) ∧
    (rm s = .sr → s.core.seed ≠ 0 →
      exec i s = .next (((s.updCurCore (fun k => { k with seed := drawState s.core.seed })).setX xd (BitVec.ofNat 64 (F.round (v s) .sr (drawValue s.core.seed)))).fall))

/-- The number of a format in the low bits of a register (R301). -/
def lowBits (F : FloatFmt) (s : State) (r : BitVec 5) : XNum := F.decode ((s.x r).toNat % 2 ^ (1 + F.e + F.m))

/-- R300, R301: the rounding forms compute exactly and round once; a rounding-mode field of 7 takes MODE.RM. -/
def Obligations.FloatFormsRoundOnce : Prop :=
  ∀ f : FmtAR,
    let rm := fun s : State => RoundMode.ofCode s.cx.rm f.rm.toNat
    let down := fun s : State => decide (rm s = .rdn)
    let a := fun (F : FloatFmt) (s : State) => lowBits F s f.xa
    let b := fun (F : FloatFmt) (s : State) => lowBits F s f.xb
    let c := fun (F : FloatFmt) (s : State) => lowBits F s f.xc
    RoundsTo (.faddS f) fp32 f.xd rm (fun s => XNum.add (down s) (a fp32 s) (b fp32 s)) ∧
    RoundsTo (.fsubS f) fp32 f.xd rm (fun s => XNum.add (down s) (a fp32 s) (b fp32 s).neg) ∧
    RoundsTo (.fmulS f) fp32 f.xd rm (fun s => XNum.mul (a fp32 s) (b fp32 s)) ∧
    RoundsTo (.fmaS f) fp32 f.xd rm (fun s => XNum.add (down s) (XNum.mul (a fp32 s) (b fp32 s)) (c fp32 s)) ∧
    RoundsTo (.faddH f) bf16 f.xd rm (fun s => XNum.add (down s) (a bf16 s) (b bf16 s)) ∧
    RoundsTo (.fsubH f) bf16 f.xd rm (fun s => XNum.add (down s) (a bf16 s) (b bf16 s).neg) ∧
    RoundsTo (.fmulH f) bf16 f.xd rm (fun s => XNum.mul (a bf16 s) (b bf16 s)) ∧
    RoundsTo (.fmaH f) bf16 f.xd rm (fun s => XNum.add (down s) (XNum.mul (a bf16 s) (b bf16 s)) (c bf16 s)) ∧
    RoundsTo (.fcvtSW f) fp32 f.xd rm (fun s => XNum.ofInt ((s.x f.xa).extractLsb' 0 32).toInt) ∧
    RoundsTo (.fcvtHS f) bf16 f.xd rm (fun s => a fp32 s) ∧
    (∀ s : State, s.accepts (.fcvtWS f) →
      (rm s = .sr → exec (.fcvtWS f) s = s.faultA .rmUnsupported) ∧
      (rm s ≠ .sr → f.tr = 1 → intOverflows (a fp32 s) 32 (rm s) = true → exec (.fcvtWS f) s = s.faultA .cvtOverflow) ∧
      (rm s ≠ .sr → f.tr = 0 ∨ intOverflows (a fp32 s) 32 (rm s) = false →
        exec (.fcvtWS f) s = .next ((s.setX f.xd (BitVec.ofInt 64 (roundInt (a fp32 s) 32 (rm s)))).fall)))

/-- R268, R301, R302: comparisons write 0 or 1, minimum and maximum pick an operand, `fsgnj` takes the sign bit of the second operand, `fcvt.s.h` is exact, and `fclass`
sets the one bit of the class of its operand. -/
def floatTestsAndPicks : Prop :=
  ∀ f : FmtAR,
    let num := fun (F : FloatFmt) (i : Instr) (op : XNum → XNum → XNum) =>
      Gives i f.xd (fun s => BitVec.ofNat 64 (F.round (op (lowBits F s f.xa) (lowBits F s f.xb)) .rne))
    let test := fun (F : FloatFmt) (i : Instr) (op : XNum → XNum → Bool) =>
      Gives i f.xd (fun s => if op (lowBits F s f.xa) (lowBits F s f.xb) then 1 else 0)
    num fp32 (.fminS f) XNum.minNum ∧ num fp32 (.fmaxS f) XNum.maxNum ∧ num bf16 (.fminH f) XNum.minNum ∧ num bf16 (.fmaxH f) XNum.maxNum ∧
    test fp32 (.feqS f) XNum.eq ∧ test fp32 (.fltS f) XNum.lt ∧ test fp32 (.fleS f) (fun a b => XNum.lt a b || XNum.eq a b) ∧
    test bf16 (.feqH f) XNum.eq ∧ test bf16 (.fltH f) XNum.lt ∧ test bf16 (.fleH f) (fun a b => XNum.lt a b || XNum.eq a b) ∧
    Gives (.fsgnjS f) f.xd (fun s => ((s.x f.xb).extractLsb' 31 1 ++ (s.x f.xa).extractLsb' 0 31 : BitVec 32).setWidth 64) ∧
    Gives (.fsgnjH f) f.xd (fun s => ((s.x f.xb).extractLsb' 15 1 ++ (s.x f.xa).extractLsb' 0 15 : BitVec 16).setWidth 64) ∧
    Gives (.fcvtSH f) f.xd (fun s => BitVec.ofNat 64 (fp32.round (lowBits bf16 s f.xa) .rne)) ∧
    Gives (.fclassS f) f.xd (fun s => BitVec.ofNat 64 (2 ^ classBit fp32 (s.x f.xa).toNat)) ∧
    Gives (.fclassH f) f.xd (fun s => BitVec.ofNat 64 (2 ^ classBit bf16 (s.x f.xa).toNat))

/-- R302: the class of a code by its sign S, exponent field E and mantissa field M, for FP32 and BF16; the bits of the register above the format play no part. -/
def classOfEveryCode : Prop :=
  ∀ F : FloatFmt, F = fp32 ∨ F = bf16 → (∀ c, classBit F c = classBit F (c % 2 ^ (1 + F.e + F.m))) ∧
    ∀ neg : Bool, ∀ e m : Nat, e < 2 ^ F.e → m < 2 ^ F.m →
    classBit F ((if neg then 2 ^ (F.e + F.m) else 0) + e * 2 ^ F.m + m) =
      if e = 2 ^ F.e - 1 then (if m = 0 then (if neg then 0 else 7) else if m < 2 ^ (F.m - 1) then 8 else 9)
      else if e = 0 then (if m = 0 then (if neg then 3 else 4) else if neg then 2 else 5)
      else if neg then 1 else 6

/-- R268, R301, R302: comparisons, minimum and maximum, sign injection and classification. -/
def Obligations.ComparisonsPicksAndClasses : Prop := floatTestsAndPicks ∧ classOfEveryCode

/-- R264: rounding a value that the format holds gives the code of that value again, in every rounding mode, for every float format with infinities. A NaN gives the canonical
NaN. -/
def Obligations.RepresentableValuesRoundToThemselves : Prop :=
  ∀ F : FloatFmt, F = fp32 ∨ F = bf16 ∨ F = fp16 ∨ F = e5m2 → ∀ (rm : RoundMode) (r c : Nat), c < 2 ^ (1 + F.e + F.m) →
    ((F.decode c).isNan = true → F.round (F.decode c) rm r = F.qnan) ∧ ((F.decode c).isNan = false → F.round (F.decode c) rm r = c)

/-! ### Control flow -/

/-- A branch: whenever it is accepted it goes to its target A + 8 sext(OFF) when the condition holds, and falls through to A + 8 otherwise (R304). -/
def Branches (i : Instr) {n : Nat} (off : BitVec n) (taken : State → Prop) : Prop :=
  ∀ s : State, s.accepts i →
    (taken s → exec i s = .next (s.branch (s.cx.pc + 8 * off.signExtend 64))) ∧ (¬ taken s → exec i s = .next s.fall)

/-- R282, R304: the near branches and the far branches, on registers as they stood before the bundle. -/
def branchesGoWhereTheirConditionSays : Prop :=
  (∀ f : FmtCJ, Branches (.br f) f.off (fun _ => True)) ∧
  (∀ f : FmtCB,
    Branches (.beq f) f.off (fun s => s.x f.xa = s.x f.xb) ∧ Branches (.bne f) f.off (fun s => s.x f.xa ≠ s.x f.xb) ∧
    Branches (.blt f) f.off (fun s => (s.x f.xa).toInt < (s.x f.xb).toInt) ∧ Branches (.bge f) f.off (fun s => (s.x f.xb).toInt ≤ (s.x f.xa).toInt) ∧
    Branches (.bltu f) f.off (fun s => (s.x f.xa).toNat < (s.x f.xb).toNat) ∧ Branches (.bgeu f) f.off (fun s => (s.x f.xb).toNat ≤ (s.x f.xa).toNat)) ∧
  (∀ f : FmtCZ, Branches (.bz f) f.off (fun s => s.x f.xa = 0) ∧ Branches (.bnz f) f.off (fun s => s.x f.xa ≠ 0)) ∧
  (∀ f : FmtWB,
    Branches (.farBeq f) f.off (fun s => s.x f.xa = s.x f.xb) ∧ Branches (.farBne f) f.off (fun s => s.x f.xa ≠ s.x f.xb) ∧
    Branches (.farBlt f) f.off (fun s => (s.x f.xa).toInt < (s.x f.xb).toInt) ∧ Branches (.farBge f) f.off (fun s => (s.x f.xb).toInt ≤ (s.x f.xa).toInt) ∧
    Branches (.farBltu f) f.off (fun s => (s.x f.xa).toNat < (s.x f.xb).toNat) ∧ Branches (.farBgeu f) f.off (fun s => (s.x f.xb).toNat ≤ (s.x f.xa).toNat) ∧
    Branches (.farBz f) f.off (fun s => s.x f.xa = 0) ∧ Branches (.farBnz f) f.off (fun s => s.x f.xa ≠ 0) ∧
    (∀ s : State, s.accepts (.farBz f) ↔ f.xb = 0))

/-- R305: calls and indirect jumps. The link is the address of the next bundle; a target that is not a multiple of 8 faults with `TARGET_ALIGN` and writes no link; the target of
`ret` is `x31` before the bundle. -/
def callsLinkAndJumpsAlign : Prop :=
  ∀ s : State,
    (∀ f : FmtCJ, s.accepts (.call f) → exec (.call f) s = .next ((s.setX 31 (s.cx.pc + 8)).retire (s.cx.pc + 8 * f.off.signExtend 64))) ∧
    (∀ f : FmtCR, s.accepts (.callr f) → exec (.callr f) s =
      if (s.x f.xa).toNat % 8 = 0 then .next ((s.setX f.xd (s.cx.pc + 8)).retire (s.x f.xa)) else s.faultC .targetAlign) ∧
    (∀ f : FmtCR, s.accepts (.jr f) → exec (.jr f) s =
      if (s.x f.xa).toNat % 8 = 0 then .next (s.branch (s.x f.xa)) else s.faultC .targetAlign) ∧
    (s.accepts .ret → exec .ret s = if (s.x 31).toNat % 8 = 0 then .next (s.retire (s.x 31)) else s.faultC .targetAlign) ∧
    (s.accepts .nopC → exec .nopC s = .next s.fall)

/-- R304, R305: branches, calls and jumps. -/
def Obligations.BranchesCallsAndJumps : Prop := branchesGoWhereTheirConditionSays ∧ callsLinkAndJumpsAlign

/-- R306: the checks of `loop` and `loopi` in their order, the body skipped on a count of zero, and the counter that a started loop holds; PC and the counter are the only changes besides
retirement. -/
def loopsStartAsTheirChecksAllow : Prop :=
  ∀ (s : State) (i : Instr) (lenm1 count : Nat),
    ((∃ f : FmtCL, i = .loop f ∧ lenm1 = f.lenm1.toNat ∧ count = (s.x f.xa).toNat % 2 ^ 32) ∨ (∃ f : FmtCLI, i = .loopi f ∧ lenm1 = f.lenm1.toNat ∧ count = f.count.toNat)) →
    s.accepts i →
    let a := s.cx.pc.toNat
    let d := s.cx.depthOf
    (a + 8 * (lenm1 + 2) > s.cx.codehi.toNat → exec i s = s.faultC .loopBody) ∧
    (a + 8 * (lenm1 + 2) ≤ s.cx.codehi.toNat → (d = 3 ∨ (1 ≤ d ∧ a + 8 * (lenm1 + 1) > s.cx.bodyLast (d - 1))) → exec i s = s.faultC .loopNest) ∧
    (a + 8 * (lenm1 + 2) ≤ s.cx.codehi.toNat → d < 3 → (d = 0 ∨ a + 8 * (lenm1 + 1) ≤ s.cx.bodyLast (d - 1)) →
      (count = 0 → exec i s = .next (s.retire (BitVec.ofNat 64 (a + 8 * (lenm1 + 2))))) ∧
      (count ≠ 0 → ∃ t w, exec i s = .next t ∧ t.cx.pc = s.cx.pc + 8 ∧ t.cx.lc = s.cx.lc.put d w ∧
        lcActive w = true ∧ lcLen w = lenm1 ∧ lcCount w = count ∧ lcStart w = (a + 8 - s.cx.codelo.toNat) / 8 % 2 ^ 21 ∧
        s.writesOnly t (fun _ => False)))

/-- R197: loop control after a bundle retires. Falling through the last bundle of the innermost body goes back to its first bundle with COUNT less one while COUNT is above 1, and ends the loop
otherwise; a taken branch ends the loops whose body does not hold its target, from the innermost on; `lbrk` ends the innermost loop and goes on after its body (where
the body around it ends at the same bundle, its own end test follows), or faults with `LOOP_NEST` without one; a call ends none. -/
def loopControlFollowsRetirement : Prop :=
  ∀ s : State,
    let d := s.cx.depthOf
    let w := s.cx.lcAt (d - 1)
    (d ≠ 0 → s.cx.pc.toNat = s.cx.bodyLast (d - 1) → 1 < lcCount w →
      s.fall.cx.pc = BitVec.ofNat 64 (s.cx.bodyFirst (d - 1)) ∧ lcCount (s.fall.cx.lcAt (d - 1)) = lcCount w - 1 ∧ lcActive (s.fall.cx.lcAt (d - 1)) = true ∧
        lcStart (s.fall.cx.lcAt (d - 1)) = lcStart w ∧ lcLen (s.fall.cx.lcAt (d - 1)) = lcLen w ∧ ∀ j, j ≠ d - 1 → s.fall.cx.lcAt j = s.cx.lcAt j) ∧
    (d ≠ 0 → s.cx.pc.toNat = s.cx.bodyLast (d - 1) → lcCount w ≤ 1 →
      s.fall.cx.pc = s.cx.pc + 8 ∧ s.fall.cx.lcAt (d - 1) = 0 ∧ ∀ j, j ≠ d - 1 → s.fall.cx.lcAt j = s.cx.lcAt j) ∧
    (d = 0 ∨ s.cx.pc.toNat ≠ s.cx.bodyLast (d - 1) → s.fall.cx.pc = s.cx.pc + 8 ∧ s.fall.cx.lc = s.cx.lc) ∧
    (∀ target : Word, target ≠ s.cx.pc + 8 →
      let holds := fun j => s.cx.bodyFirst j ≤ target.toNat ∧ target.toNat ≤ s.cx.bodyLast j
      (s.branch target).cx.pc = target ∧
      ∀ j, j < 3 → ((∀ n, j ≤ n → n < d → ¬ holds n) → j < d → (s.branch target).cx.lcAt j = 0) ∧
        ((∃ n, j ≤ n ∧ n < d ∧ holds n) → (s.branch target).cx.lcAt j = s.cx.lcAt j)) ∧
    (∀ target : Word, target ≠ s.cx.pc + 8 → (s.retire target).cx.pc = target ∧ (s.retire target).cx.lc = s.cx.lc) ∧
    (s.accepts .lbrk → d = 0 → exec .lbrk s = s.faultC .loopNest) ∧
    (s.accepts .lbrk → d ≠ 0 → d = 1 ∨ s.cx.bodyLast (d - 2) ≠ s.cx.pc.toNat → ∃ t, exec .lbrk s = .next t ∧ t.cx.lcAt (d - 1) = 0 ∧
      t.cx.pc = BitVec.ofNat 64 (s.cx.codelo.toNat + 8 * (lcStart w + lcLen w + 1)) ∧ ∀ j, j ≠ d - 1 → t.cx.lcAt j = s.cx.lcAt j)

/-- R196, R197, R306: hardware loops. The end test is read as log 15 says. -/
def Obligations.LoopsStartAndEnd : Prop := loopsStartAsTheirChecksAllow ∧ loopControlFollowsRetirement

/-! ### Memory access -/

/-- The parts of a load: register, effective address, bytes, sign extension, kind. -/
structure LoadForm where
  rt : BitVec 5
  va : Nat
  size : Nat
  signed : Bool
  kind : AccKind

/-- R312, R314, R317: the scalar loads. Displacements are in units of the access size; an index is shifted by SH. -/
def loadForm (i : Instr) (s : State) : Option LoadForm :=
  let cm := fun (f : FmtCM) (n : Nat) (sg : Bool) => some (LoadForm.mk f.rt (s.x f.base + BitVec.ofNat 64 n * f.disp.signExtend 64).toNat n sg .load)
  let cx := fun (f : FmtCX) (n : Nat) (sg : Bool) => some (LoadForm.mk f.rt (s.x f.base + s.x f.idx <<< f.sh.toNat).toNat n sg .load)
  match i with
  | .ldB f => cm f 1 true
  | .ldBu f => cm f 1 false
  | .ldH f => cm f 2 true
  | .ldHu f => cm f 2 false
  | .ldW f => cm f 4 true
  | .ldWu f => cm f 4 false
  | .ldD f => cm f 8 true
  | .ldBIndexed f => cx f 1 true
  | .ldBuIndexed f => cx f 1 false
  | .ldHIndexed f => cx f 2 true
  | .ldHuIndexed f => cx f 2 false
  | .ldWIndexed f => cx f 4 true
  | .ldWuIndexed f => cx f 4 false
  | .ldDIndexed f => cx f 8 true
  | .ldAcq f =>
    let n := if f.sz = 1 then 8 else 4
    some ⟨f.rt, (s.x f.base + BitVec.ofNat 64 n * f.disp.signExtend 64).toNat, n, true, .acquire f.sc.toNat⟩
  | _ => none

/-- A loaded number as a register holds it. -/
def extended (size : Nat) (signed : Bool) (v : Nat) : Word := if signed then (BitVec.ofNat (8 * size) v).signExtend 64 else BitVec.ofNat 64 v

/-- R312 to R314, R317: a scalar load that is accepted puts one access in flight when its address passes the checks, and its context holds at the bundle; when the reply is there it
writes the extended value to XD and falls through; a reply that failed freezes the context; an address that fails its checks freezes it with the cause, nothing sent. -/
def Obligations.LoadsHoldForTheirReplyAndWriteIt : Prop :=
  ∀ (i : Instr) (s : State) (l : LoadForm), loadForm i s = some l → s.accepts i →
    (∀ v, s.cx.reply = some (.value v) → v < 2 ^ (8 * l.size) → exec i s = .next ((s.setX l.rt (extended l.size l.signed v)).fall)) ∧
    (∀ c n, s.cx.reply = some (.failed c n) → exec i s = s.faultC c l.va (accSyndrome c .read l.size 0)) ∧
    (s.cx.reply = none → s.cx.hold.isSome → exec i s = .next (s.stallOn 0)) ∧
    (s.cx.reply = none → s.cx.hold = none →
      (∀ c y, s.checkAccess s.cur l.va l.size l.size .read false = .bad c y → exec i s = s.faultC c l.va y) ∧
      (∀ g e, s.checkAccess s.cur l.va l.size l.size .read false = .ok g e → ∃ t a, exec i s = .next t ∧
        t.net = s.net ++ [a] ∧ a.id = s.nextAcc ∧ a.kind = l.kind ∧ a.gpa = g ∧ a.va = l.va ∧ a.firing = s.cx.firing ∧ a.result = none ∧
        (a.size + (a.more.map (fun p => p.2)).sum = l.size) ∧
        t.cx.hold = some s.nextAcc ∧ t.cx.pc = s.cx.pc ∧ (∀ r, t.x r = s.x r) ∧ (∀ b, t.mem.read b = s.mem.read b)))

/-- The parts of a store: register, effective address, bytes, kind. -/
structure StoreForm where
  rt : BitVec 5
  va : Nat
  size : Nat

/-- R312, R314: the scalar stores. -/
def storeForm (i : Instr) (s : State) : Option StoreForm :=
  let cm := fun (f : FmtCM) (n : Nat) => some (StoreForm.mk f.rt (s.x f.base + BitVec.ofNat 64 n * f.disp.signExtend 64).toNat n)
  let cx := fun (f : FmtCX) (n : Nat) => some (StoreForm.mk f.rt (s.x f.base + s.x f.idx <<< f.sh.toNat).toNat n)
  match i with
  | .stB f => cm f 1
  | .stH f => cm f 2
  | .stW f => cm f 4
  | .stD f => cm f 8
  | .stBIndexed f => cx f 1
  | .stHIndexed f => cx f 2
  | .stWIndexed f => cx f 4
  | .stDIndexed f => cx f 8
  | _ => none

/-- R207, R209, R241, R314, R320: a scalar store whose address passes the checks, and that can leave, puts one access with the low bytes of XT in flight at the physical address of its
VA and retires, the bundle that follows being next; it is performed later. Its bundle changes no register and no byte of memory; a store homed outside the tile counts in UNACK. A store that fails its
checks freezes the context. The store of DBGCAP's high half holds its context until the target tile has answered: it retires, or freezes the context. A naturally aligned store lies in one page, so it is
one access. -/
def Obligations.StoresLeaveAndRetire : Prop :=
  ∀ (i : Instr) (s : State) (l : StoreForm), storeForm i s = some l → s.accepts i →
    (∀ v, s.cx.reply = some (.value v) → exec i s = .next s.fall) ∧
    (∀ c n, s.cx.reply = some (.failed c n) → c < 0x30 ∨ 0x4F < c → exec i s = s.faultC c l.va (accSyndrome c .write l.size 0)) ∧
    (s.cx.reply = none → s.cx.hold.isSome → exec i s = .next (s.stallOn 0)) ∧
    (s.cx.reply = none → s.cx.hold = none →
    (∀ c y, s.checkAccess s.cur l.va l.size l.size .write false = .bad c y → exec i s = s.faultC c l.va y) ∧
    (∀ g e, s.checkAccess s.cur l.va l.size l.size .write false = .ok g e → isDbgAttach g = true →
      exec i s = .next (s.holdFor { kind := .store, va := l.va, gpa := g, size := l.size, data := (s.x l.rt).toNat % 2 ^ (8 * l.size) })) ∧
    (∀ g e, s.checkAccess s.cur l.va l.size l.size .write false = .ok g e → isDbgAttach g = false →
      (s.unackFull g = true → exec i s = .next (s.stallOn 0)) ∧
      (s.unackFull g = false → ∃ t a, exec i s = .next t ∧ t.net = s.net ++ [a] ∧ a.kind = .store ∧ a.gpa = g ∧ a.va = l.va ∧ a.size = l.size ∧
        a.data = (s.x l.rt).toNat % 2 ^ (8 * l.size) ∧ a.id = s.nextAcc ∧ a.firing = s.cx.firing ∧ a.result = none ∧ a.more = [] ∧
        t.cx.unack = s.cx.unack + (match s.reachGpa g with | 1 => 1 | 2 => 2 ^ 16 | 3 => 2 ^ 32 | _ => 0) ∧
        t.cx.pc = s.fall.cx.pc ∧ t.cx.lc = s.fall.cx.lc ∧
        (∀ r, t.x r = s.x r) ∧ (∀ r, t.cx.v.get 0 r = s.cx.v.get 0 r) ∧ t.cx.k = s.cx.k ∧ t.cx.fstat = s.cx.fstat ∧
        (∀ c, c ≠ s.cur → t.ctxOf c = s.ctxOf c) ∧ t.tiles = s.tiles ∧ t.hubs = s.hubs ∧ (∀ b, t.mem.read b = s.mem.read b))))

/-- R210, R213, R215, R308, R317 to R319: release stores, prefetches, fences and waits. A release store waits for the stores within the wider of its scope and its home's, then leaves as a store; `fence`
waits for the stores within its scope and returns FSTAT, which it clears; `wait` returns a count of outstanding work once it is at most the limit; `pf` retires whatever its address. -/
def Obligations.ReleasesFencesAndWaits : Prop :=
  ∀ s : State,
    (∀ (f : FmtCMS) g e, s.accepts (.stRel f) →
      let n := if f.sz = 1 then 8 else 4
      let va := (s.x f.base + BitVec.ofNat 64 n * f.disp.signExtend 64).toNat
      let sc := max f.sc.toNat (homeScope (s.reachGpa g))
      s.cx.reply = none → s.cx.hold = none → s.checkAccess s.cur va n n .write false = .ok g e → isDbgAttach g = false → s.unackFull g = false →
      (s.storesDone sc = false → exec (.stRel f) s = .next (s.stallOn .waitFence)) ∧
      (s.storesDone sc = true → ∃ t a, exec (.stRel f) s = .next t ∧ a ∈ t.net ∧ a.id = s.nextAcc ∧ a.kind = .release sc ∧ a.gpa = g ∧ a.size = n ∧
        a.data = (s.x f.rt).toNat % 2 ^ (8 * n) ∧ t.cx.pc = s.fall.cx.pc ∧ (∀ r, t.x r = s.x r) ∧ (∀ b, t.mem.read b = s.mem.read b))) ∧
    (∀ f : FmtCF, s.accepts (.fence f) →
      (s.storesDone f.sc.toNat = false → exec (.fence f) s = .next (s.stallOn .waitFence)) ∧
      (s.storesDone f.sc.toNat = true → ∃ t, exec (.fence f) s = .next t ∧ t.x f.xd = (if f.xd = 0 then 0 else BitVec.ofNat 64 s.cx.fstat) ∧ t.cx.fstat = 0 ∧
        (∀ r, r ≠ f.xd → t.x r = s.x r) ∧ t.cx.unack = s.cx.unack ∧ t.net = s.net)) ∧
    (∀ f : FmtCR, s.accepts (.wait f) →
      let n := if f.opt = 0 then s.cx.unFld + s.cx.unWaf + s.cx.unDom else if f.opt = 1 then s.slotsHeld else s.queuedSends
      (n ≤ (s.x f.xa).toNat → exec (.wait f) s = .next ((s.setX f.xd (BitVec.ofNat 64 n)).fall)) ∧
      ((s.x f.xa).toNat < n → exec (.wait f) s = .next (s.stallOn (if f.opt = 0 then .waitFence else if f.opt = 1 then 0 else .waitSendq)))) ∧
    (∀ f : FmtCM, s.accepts (.pf f) → ∃ t, exec (.pf f) s = .next t ∧ t.cx = s.fall.cx ∧ (∀ c, c ≠ s.cur → t.ctxOf c = s.ctxOf c) ∧ t.net = s.net ∧ (∀ b, t.mem.read b = s.mem.read b))

/-- An access homed on this device whose runs lie in plain memory: HBM, the capacity tier or the local store of a tile, and no line of them is poisoned. -/
def plainAccess (s : State) (a : Access) : Prop :=
  a.reach ≠ 3 ∧ ∀ p ∈ a.runs, s.gpaLocal p.1 = true ∧ s.runPoisoned p = false ∧
    ((gpaSpace p.1 = 1 ∧ gpaOffset p.1 + p.2 ≤ hbmSize) ∨ (gpaSpace p.1 = 2 ∧ gpaOffset p.1 + p.2 ≤ capSize) ∨
      (gpaSpace p.1 = 0 ∧ regionOf (gpaWindow p.1) = .localStore ∧ gpaWindow p.1 + p.2 ≤ 0x300000))

/-- The bytes of runs in plain memory as one number, the first run lowest (R112, R314). -/
def runsValue (m : Memory) : List (Nat × Nat) → Nat
  | [] => 0
  | (g, n) :: ps => m.readLE (gpaKey g) n + 2 ^ (8 * n) * runsValue m ps

/-- What an atomic or integer reduction makes of b bits (R334). -/
def atomicValue (op : AmoOp) (b : Nat) (old v new : BitVec b) : BitVec b :=
  match op with
  | .add => old + v
  | .and => old &&& v
  | .or => old ||| v
  | .xor => old ^^^ v
  | .min => if old.toInt ≤ v.toInt then old else v
  | .max => if old.toInt ≤ v.toInt then v else old
  | .minu => if old.toNat ≤ v.toNat then old else v
  | .maxu => if old.toNat ≤ v.toNat then v else old
  | .swap => v
  | .cas => if old = v then new else old
  | .faddS => BitVec.ofNat b (fp32.round (XNum.add false (fp32.decode old.toNat) (fp32.decode v.toNat)) .rne)
  | .faddH => BitVec.ofNat b (fp16.round (XNum.add false (fp16.decode old.toNat) (fp16.decode v.toNat)) .rne)

/-- R205, R206, R214, R314, R334: an access that can be performed and whose way is free takes effect at its home, in plain memory. A load reads the bytes of its runs and changes no memory, and so does an acquire
that every sync record of its line covers; one that a record does not cover fails with `SCOPE_MISMATCH`. A store or release writes its bytes at its address and no other byte; an atomic or reduction reads the
old value and writes the new one in one step. A refused way fails the access and changes no memory. -/
def Obligations.AccessesTakeEffectAtTheirHome : Prop :=
  ∀ (s : State) (a : Access), s.accOf s.arg.value = some a → s.performable a = true →
    let resultOf := fun (t : State) => (t.accOf a.id).bind (fun b => b.result)
    (∀ c, a.runs.findSome? (fun p => s.wayCause (tileOfCtx a.ctx) p.1) = some c → ∃ t, exec .accessPerformed s = .next t ∧ (a.silent = false → resultOf t = some (.failed c 2)) ∧
      ∀ b, t.mem.read b = s.mem.read b) ∧
    (a.runs.findSome? (fun p => s.wayCause (tileOfCtx a.ctx) p.1) = none → plainAccess s a →
      let covered := fun (sc : Nat) => s.syncs.all (fun r => r.line ≠ lineOf (gpaKey a.gpa) || r.covers sc a.ctx)
      (a.kind = .load ∨ (∃ sc, a.kind = .acquire sc ∧ covered sc = true) →
        ∃ t, exec .accessPerformed s = .next t ∧ resultOf t = some (.value (runsValue s.mem a.runs)) ∧ ∀ b, t.mem.read b = s.mem.read b) ∧
      (∀ sc, a.kind = .acquire sc → covered sc = false →
        ∃ t, exec .accessPerformed s = .next t ∧ resultOf t = some (.failed .scopeMismatch 0) ∧ ∀ b, t.mem.read b = s.mem.read b) ∧
      (a.kind = .store ∨ (∃ sc, a.kind = .release sc) → isDbgAttach a.gpa = false → ∃ t, exec .accessPerformed s = .next t ∧
        t.mem.readLE (gpaKey a.gpa) a.size = a.data % 2 ^ (8 * a.size) ∧ ∀ b, b < gpaKey a.gpa ∨ gpaKey a.gpa + a.size ≤ b → t.mem.read b = s.mem.read b) ∧
      (∀ op, a.kind = .atomic op ∨ a.kind = .reduce op → a.size = 2 ∨ a.size = 4 ∨ a.size = 8 →
        let b := 8 * a.size
        let old := BitVec.ofNat b (s.mem.readLE (gpaKey a.gpa) a.size)
        a.data < 2 ^ b → a.data2 < 2 ^ b → ∃ t, exec .accessPerformed s = .next t ∧
          BitVec.ofNat b (t.mem.readLE (gpaKey a.gpa) a.size) = atomicValue op b old (BitVec.ofNat b a.data) (BitVec.ofNat b a.data2) ∧
          (a.kind = .atomic op → resultOf t = some (.value old.toNat)) ∧
          ∀ c, c < gpaKey a.gpa ∨ gpaKey a.gpa + a.size ≤ c → t.mem.read c = s.mem.read c))

/-! ### Vectors -/

/-- The lanes of a vector instruction can run now: in long mode no other actor claims the engine and the pace allows it (R50, R351), and no operand is bound to a stream. -/
def vecReady (s : State) (regs : List Nat) : Prop :=
  (s.cx.long = true → s.claimedByOther 15 = false ∧ s.tile.h ≠ 0 ∧ s.tile.nextok ≤ s.cyc) ∧ ∀ r ∈ regs, s.streamOf r = none

/-- A vector instruction wrote no register but the vector registers that `dest` names. -/
def vecFrame (s u : State) (dest : Nat → Prop) : Prop :=
  (∀ r, u.x r = s.x r) ∧ (∀ r, u.k r = s.k r) ∧ (∀ r, ¬ dest r → u.ownVec r = s.ownVec r) ∧ u.cx.pc = s.fall.cx.pc ∧ u.cx.fstat = s.cx.fstat ∧ u.cx.st = s.cx.st ∧
    (∀ c, c ≠ s.cur → u.ctxOf c = s.ctxOf c) ∧ u.core.streams = s.core.streams ∧ (∀ a, u.mem.read a = s.mem.read a)

/-- Lane l of a register, as it stands. -/
def laneOf (s : State) (t : BitVec 2) (r l : Nat) : Nat := laneAt (laneBits t) (s.ownVec r) l

/-- The generator after n draws (R267). -/
def drawAt (seed : Word) : Nat → Word
  | 0 => seed
  | n + 1 => drawState (drawAt seed n)

/-- How many of the first n lanes take part. -/
def onCount (on : Nat → Bool) (n : Nat) : Nat := ((List.range n).filter on).length

/-- R348: a lane takes part unless ME is set and its bit of KM is 0; in long mode a mask bit governs L / 64 lanes. -/
def laneEnabled (me : BitVec 1) (km : BitVec 3) (t : BitVec 2) (s : State) (l : Nat) : Bool :=
  decide (me = 0) || (s.k km).getLsbD (if s.cx.long then l / (lanesOf s.cx.long t / 64) else l)

/-- A vector instruction that is accepted, ready and `ok` writes `val` to each lane of VD that takes part, and leaves the others as they were; a paired form does so for VD + 1 too. Under SR each lane
that takes part draws once, in ascending order, and a generator of zero faults. A lane without a value freezes the context with `c`, nothing written. -/
def VecGives (i : Instr) (vd : Nat) (ins : List Nat) (t : BitVec 2) (pair : Bool) (c : Cause) (ok : State → Prop) (sr : State → Bool) (on : State → Nat → Bool)
    (val : State → Nat → Nat → Nat → Option Nat) : Prop :=
  ∀ s : State, s.accepts i → vecReady s (ins ++ [vd]) → ok s →
    let n := lanesOf s.cx.long t
    let parts := if pair then 2 else 1
    let all := onCount (on s) n
    let draw := fun (e l : Nat) => if sr s then drawValue (drawAt s.core.seed (e * all + onCount (on s) l)) else 0
    (sr s = true → s.core.seed = 0 → all ≠ 0 → ∃ u, exec i s = .next u ∧ u.cx.st = 1 ∧ u.cx.cause = Cause.srSeed) ∧
    (sr s = false ∨ s.core.seed ≠ 0 →
      ((∃ e l, e < parts ∧ l < n ∧ on s l = true ∧ val s e l (draw e l) = none) →
        ∃ u, exec i s = .next u ∧ u.cx.st = 1 ∧ u.cx.cause = c ∧ (∀ r, u.ownVec r = s.ownVec r) ∧ ∀ a, u.mem.read a = s.mem.read a) ∧
      ((∀ e l, e < parts → l < n → on s l = true → (val s e l (draw e l)).isSome) →
        ∃ u, exec i s = .next u ∧
          (∀ e l, e < parts → l < n → some (laneOf u t (vd + e) l) = if on s l then val s e l (draw e l) else some (laneOf s t (vd + e) l)) ∧
          vecFrame s u (fun r => vd ≤ r ∧ r < vd + parts) ∧ u.core.seed = if sr s then drawAt s.core.seed (parts * all) else s.core.seed))

/-- R354: an exact integer result in a lane of b bits. S saturates, to the unsigned range with U, and TR faults where it would; without S it wraps. -/
def satValue (b : Nat) (mod : BitVec 3) (r : Int) : Option Nat :=
  let lo : Int := if mod.getLsbD 1 then 0 else -2 ^ (b - 1)
  let hi : Int := if mod.getLsbD 1 then 2 ^ b - 1 else 2 ^ (b - 1) - 1
  if mod.getLsbD 0 = false ∨ (lo ≤ r ∧ r ≤ hi) then some (BitVec.ofInt b r).toNat
  else if mod.getLsbD 2 then none
  else some (BitVec.ofInt b (if r < lo then lo else hi)).toNat

/-- An integer lane, signed or with U unsigned (R354). -/
def intValue (b : Nat) (mod : BitVec 3) (v : Nat) : Int := if mod.getLsbD 1 then (v : Int) else (BitVec.ofNat b v).toInt

/-- One lane of `vadd`, `vsub`, `vmul` or `vfma` (R353). -/
def arithValue (t : BitVec 2) (mod : BitVec 3) (rm : RoundMode) (fop : Bool → XNum → XNum → XNum → XNum) (iop : Int → Int → Int → Int) (a b d r : Nat) : Option Nat :=
  if t = 0 ∨ t = 1 then
    let F := if t = 0 then fp32 else bf16
    some (F.round (fop (decide (rm = .rdn)) (F.decode a) (F.decode b) (F.decode d)) rm r)
  else
    let w := laneBits t
    satValue w mod (iop (intValue w mod a) (intValue w mod b) (intValue w mod d))

/-- R347 to R354: addition, subtraction, multiplication and fused multiply-add of lanes, with a vector or a broadcast scalar second operand, single and paired. Float lanes compute exactly and round once in
the mode that MOD names; integer lanes follow S, U and TR of MOD. -/
def Obligations.VectorArithmeticByLanes : Prop :=
  (∀ f : FmtAV,
    let rm := fun s : State => RoundMode.ofCode s.cx.rm f.mod.toNat
    let go := fun (i : Instr) (acc : List Nat) fop iop =>
      VecGives i f.vd.toNat ([f.va.toNat, f.vb.toNat] ++ acc) f.t (decide (f.sub = 1)) .vecSat (fun _ => True) (fun s => decide ((f.t = 0 ∨ f.t = 1) ∧ rm s = .sr)) (laneEnabled f.me f.km f.t)
        (fun s e l r => arithValue f.t f.mod (rm s) fop iop (laneOf s f.t (f.va.toNat + e) l) (laneOf s f.t (f.vb.toNat + e) l) (laneOf s f.t (f.vd.toNat + e) l) r)
    go (.vadd f) [] (fun dn a b _ => XNum.add dn a b) (fun a b _ => a + b) ∧
    go (.vsub f) [] (fun dn a b _ => XNum.add dn a b.neg) (fun a b _ => a - b) ∧
    go (.vmul f) [] (fun _ a b _ => XNum.mul a b) (fun a b _ => a * b) ∧
    go (.vfma f) [f.vd.toNat] (fun dn a b d => XNum.add dn (XNum.mul a b) d) (fun a b d => a * b + d)) ∧
  (∀ f : FmtAVX,
    let rm := fun s : State => RoundMode.ofCode s.cx.rm f.mod.toNat
    let go := fun (i : Instr) (acc : List Nat) fop iop =>
      VecGives i f.vd.toNat ([f.va.toNat] ++ acc) f.t (decide (f.sub = 1)) .vecSat (fun _ => True) (fun s => decide ((f.t = 0 ∨ f.t = 1) ∧ rm s = .sr)) (laneEnabled f.me f.km f.t)
        (fun s e l r => arithValue f.t f.mod (rm s) fop iop (laneOf s f.t (f.va.toNat + e) l) ((s.x f.xb).toNat % 2 ^ laneBits f.t) (laneOf s f.t (f.vd.toNat + e) l) r)
    go (.vaddScalar f) [] (fun dn a b _ => XNum.add dn a b) (fun a b _ => a + b) ∧
    go (.vsubScalar f) [] (fun dn a b _ => XNum.add dn a b.neg) (fun a b _ => a - b) ∧
    go (.vmulScalar f) [] (fun _ a b _ => XNum.mul a b) (fun a b _ => a * b) ∧
    go (.vfmaScalar f) [f.vd.toNat] (fun dn a b d => XNum.add dn (XNum.mul a b) d) (fun a b d => a * b + d))

/-- Minimum and maximum of lanes: floats by R268, integers signed or with U unsigned (R353). -/
def pickValue (t : BitVec 2) (mod : BitVec 3) (wantMax : Bool) (a b : Nat) : Nat :=
  if t = 0 ∨ t = 1 then
    let F := if t = 0 then fp32 else bf16
    F.round (if wantMax then XNum.maxNum (F.decode a) (F.decode b) else XNum.minNum (F.decode a) (F.decode b)) .rne
  else
    let x := intValue (laneBits t) mod a
    let y := intValue (laneBits t) mod b
    if wantMax then (if x ≤ y then b else a) else if x ≤ y then a else b

/-- R357: four products of bytes, each operand's bytes signed or unsigned, added to the lane of VD; with S the sum saturates. -/
def dotValue (mod : BitVec 3) (a b d : Nat) : Nat :=
  let byte := fun (u : Bool) (v j : Nat) => if u then ((v / 256 ^ j % 256 : Nat) : Int) else (BitVec.ofNat 8 (v / 256 ^ j)).toInt
  let p := fun (j : Nat) => byte (mod.getLsbD 1) a j * byte (mod.getLsbD 2) b j
  let r := (BitVec.ofNat 32 d).toInt + (p 0 + p 1 + p 2 + p 3)
  (BitVec.ofInt 32 (if mod.getLsbD 0 then max (-2 ^ 31) (min (2 ^ 31 - 1) r) else r)).toNat

/-- R350, R353 to R357, R359, R364: the lane functions that do not round: minimum, maximum, sign, bitwise, shift, dot product, selection, movement, counting and insertion. A shift amount at or above the width
shifts everything out, and `vsra` by it leaves copies of the sign. -/
def Obligations.VectorLaneFunctions : Prop :=
  (∀ f : FmtAV,
    let b := laneBits f.t
    let m := fun (s : State) => lanesOf s.cx.long f.t
    let on := laneEnabled f.me f.km f.t
    let one := fun (i : Instr) (g : Nat → Option Nat) =>
      VecGives i f.vd.toNat [f.va.toNat] f.t false .vecSat (fun _ => True) (fun _ => false) on (fun s _ l _ => g (laneOf s f.t f.va.toNat l))
    let two := fun (i : Instr) (g : Nat → Nat → Nat) =>
      VecGives i f.vd.toNat [f.va.toNat, f.vb.toNat] f.t false 0 (fun _ => True) (fun _ => false) on (fun s _ l _ => some (g (laneOf s f.t f.va.toNat l) (laneOf s f.t f.vb.toNat l)))
    two (.vmin f) (pickValue f.t f.mod false) ∧ two (.vmax f) (pickValue f.t f.mod true) ∧
    two (.vand f) (fun a c => a &&& c) ∧ two (.vor f) (fun a c => a ||| c) ∧ two (.vxor f) (fun a c => a ^^^ c) ∧
    two (.vshl f) (fun a c => a * 2 ^ c % 2 ^ b) ∧ two (.vshr f) (fun a c => a / 2 ^ c) ∧ two (.vsra f) (fun a c => (BitVec.ofInt b ((BitVec.ofNat b a).toInt / 2 ^ c)).toNat) ∧
    one (.vabs f) (fun a => if f.t = 0 ∨ f.t = 1 then some (a % 2 ^ (b - 1)) else satValue b f.mod |(BitVec.ofNat b a).toInt|) ∧
    one (.vneg f) (fun a => if f.t = 0 ∨ f.t = 1 then some (a ^^^ 2 ^ (b - 1)) else satValue b f.mod (-(BitVec.ofNat b a).toInt)) ∧
    one (.vmov f) some ∧ one (.vpopc f) (fun a => some ((List.range b).filter (fun j => a.testBit j)).length) ∧
    VecGives (.vdot4 f) f.vd.toNat [f.va.toNat, f.vb.toNat, f.vd.toNat] f.t false 0 (fun _ => True) (fun _ => false) on
      (fun s _ l _ => some (dotValue f.mod (laneOf s f.t f.va.toNat l) (laneOf s f.t f.vb.toNat l) (laneOf s f.t f.vd.toNat l))) ∧
    VecGives (.vsel f) f.vd.toNat [f.va.toNat, f.vb.toNat] f.t false 0 (fun _ => True) (fun _ => false) (fun _ _ => true)
      (fun s _ l _ => some (if on s l then laneOf s f.t f.va.toNat l else laneOf s f.t f.vb.toNat l)) ∧
    VecGives (.vperm f) f.vd.toNat [f.va.toNat, f.vb.toNat] f.t false 0 (fun _ => True) (fun _ => false) on
      (fun s _ l _ => let j := laneOf s f.t f.vb.toNat l; some (if j < m s then laneOf s f.t f.va.toNat j else 0))) ∧
  (∀ f : FmtAVX,
    let b := laneBits f.t
    let on := laneEnabled f.me f.km f.t
    let y := fun s : State => (s.x f.xb).toNat % 2 ^ b
    let two := fun (i : Instr) (c : State → Nat) (g : Nat → Nat → Nat) =>
      VecGives i f.vd.toNat [f.va.toNat] f.t false 0 (fun _ => True) (fun _ => false) on (fun s _ l _ => some (g (laneOf s f.t f.va.toNat l) (c s)))
    two (.vminScalar f) y (pickValue f.t f.mod false) ∧ two (.vmaxScalar f) y (pickValue f.t f.mod true) ∧
    two (.vandScalar f) y (fun a c => a &&& c) ∧ two (.vorScalar f) y (fun a c => a ||| c) ∧ two (.vxorScalar f) y (fun a c => a ^^^ c) ∧
    two (.vshlScalar f) (fun s => (s.x f.xb).toNat) (fun a c => a * 2 ^ c % 2 ^ b) ∧ two (.vshrScalar f) (fun s => (s.x f.xb).toNat) (fun a c => a / 2 ^ c) ∧
    two (.vsraScalar f) (fun s => (s.x f.xb).toNat) (fun a c => (BitVec.ofInt b ((BitVec.ofNat b a).toInt / 2 ^ c)).toNat) ∧
    VecGives (.vdot4Scalar f) f.vd.toNat [f.va.toNat, f.vd.toNat] f.t false 0 (fun _ => True) (fun _ => false) on
      (fun s _ l _ => some (dotValue f.mod (laneOf s f.t f.va.toNat l) (y s) (laneOf s f.t f.vd.toNat l))) ∧
    VecGives (.vselScalar f) f.vd.toNat [f.va.toNat] f.t false 0 (fun _ => True) (fun _ => false) (fun _ _ => true)
      (fun s _ l _ => some (if on s l then laneOf s f.t f.va.toNat l else y s)) ∧
    VecGives (.vbcast f) f.vd.toNat [] f.t false 0 (fun _ => True) (fun _ => false) on (fun s _ _ _ => some (y s))) ∧
  (∀ f : FmtAVI,
    VecGives (.vins f) f.vd.toNat [f.va.toNat] f.t false 0 (fun _ => True) (fun _ => false) (fun _ _ => true)
      (fun s _ l _ => some (if l = f.imm.toNat then (s.x f.xb).toNat % 2 ^ laneBits f.t else laneOf s f.t f.va.toNat l)))

/-- The condition C of R358 on lanes a and b. -/
def condHolds (t : BitVec 2) (c a b : Nat) : Prop :=
  if t = 0 ∨ t = 1 then
    let F := if t = 0 then fp32 else bf16
    let x := F.decode a
    let y := F.decode b
    match c with
    | 0 => XNum.eq x y = true
    | 1 => XNum.eq x y = false
    | 2 => XNum.lt x y = true
    | 3 => XNum.lt x y = true ∨ XNum.eq x y = true
    | 4 => XNum.lt y x = true
    | _ => XNum.lt y x = true ∨ XNum.eq y x = true
  else
    let x := (BitVec.ofNat (laneBits t) a).toInt
    let y := (BitVec.ofNat (laneBits t) b).toInt
    match c with
    | 0 => a = b
    | 1 => a ≠ b
    | 2 => x < y
    | 3 => x ≤ y
    | 4 => y < x
    | 5 => y ≤ x
    | 6 => a < b
    | _ => a ≤ b

/-- R358, R364: `vcmp` writes a mask register: bit i is 1 where lane i takes part and the condition holds, and every bit from the number of lanes on is 0; `vext` writes one lane to XD, an integer lane sign-extended. They
write no other register. -/
def Obligations.VectorComparesAndExtracts : Prop :=
  (∀ (f : FmtAV) (s : State), s.accepts (.vcmp f) → vecReady s [f.va.toNat, f.vb.toNat] →
    ∃ u, exec (.vcmp f) s = .next u ∧ (∀ j, j < 64 → ((u.cx.k.get 0 f.vd.toNat).getLsbD j = true ↔ j < lanesOf s.cx.long f.t ∧ laneEnabled f.me f.km f.t s j = true ∧
      condHolds f.t f.mod.toNat (laneOf s f.t f.va.toNat j) (laneOf s f.t f.vb.toNat j))) ∧ (∀ r, r ≠ f.vd.toNat → u.cx.k.get 0 r = s.cx.k.get 0 r) ∧ vecFrame s { u with ctxs := u.ctxs.put s.cur { u.cx with k := s.cx.k } } (fun _ => False)) ∧
  (∀ (f : FmtAVX) (s : State), s.accepts (.vcmpScalar f) → vecReady s [f.va.toNat] →
    ∃ u, exec (.vcmpScalar f) s = .next u ∧ (∀ j, j < 64 → ((u.cx.k.get 0 f.vd.toNat).getLsbD j = true ↔ j < lanesOf s.cx.long f.t ∧ laneEnabled f.me f.km f.t s j = true ∧
      condHolds f.t f.mod.toNat (laneOf s f.t f.va.toNat j) ((s.x f.xb).toNat % 2 ^ laneBits f.t))) ∧ (∀ r, r ≠ f.vd.toNat → u.cx.k.get 0 r = s.cx.k.get 0 r) ∧
      vecFrame s { u with ctxs := u.ctxs.put s.cur { u.cx with k := s.cx.k } } (fun _ => False)) ∧
  (∀ (f : FmtAVS) (s : State), s.accepts (.vext f) → vecReady s [f.va.toNat] →
    let v := laneOf s f.t f.va.toNat f.imm.toNat
    ∃ u, exec (.vext f) s = .next u ∧ (f.xd ≠ 0 → u.x f.xd = if f.t = 0 ∨ f.t = 1 then BitVec.ofNat 64 v else (BitVec.ofNat (laneBits f.t) v).signExtend 64) ∧
      (∀ r, r ≠ f.xd → u.x r = s.x r) ∧ u.x 0 = 0 ∧ (∀ r, u.k r = s.k r) ∧ (∀ r, u.ownVec r = s.ownVec r) ∧ ∀ a, u.mem.read a = s.mem.read a)

/-- One lane of `vcvt` from type t to type d (R360): floats round once; a float to an integer rounds and saturates, an integer to an integer saturates, and with TR a value that does not fit has no result. -/
def convertValue (t d : BitVec 2) (tr : Bool) (rm : RoundMode) (a r : Nat) : Option Nat :=
  let b := laneBits d
  let fit := fun (v : Int) => (BitVec.ofInt b (max (-2 ^ (b - 1)) (min (2 ^ (b - 1) - 1) v))).toNat
  let v := (BitVec.ofNat (laneBits t) a).toInt
  match decide (t = 0 ∨ t = 1), decide (d = 0 ∨ d = 1) with
  | true, true => some ((laneFmt d).round ((laneFmt t).decode a) rm r)
  | true, false => if tr && intOverflows ((laneFmt t).decode a) b rm r then none else some (BitVec.ofInt b (roundInt ((laneFmt t).decode a) b rm r)).toNat
  | false, true => some ((laneFmt d).round (XNum.ofInt v) rm r)
  | false, false => if tr && decide (v < -2 ^ (b - 1) ∨ 2 ^ (b - 1) - 1 < v) then none else some (fit v)

/-- R355, R360, R361: `vcvt` fills part j of a longer destination, or reads part j of a longer source; it rounds in the mode that MOD names only where the value may not fit exactly. The special functions round one function of each lane once,
in a mode other than SR, and with TR a domain case faults with `SPFN_DOMAIN`. -/
def Obligations.VectorConversionsAndFunctions : Prop :=
  ∀ f : FmtAV,
    (let d : BitVec 2 := f.sub.extractLsb' 0 2
     let j := f.vb.toNat
     let lt := fun s : State => lanesOf s.cx.long f.t
     let ld := fun s : State => lanesOf s.cx.long d
     let rounds := (f.t = 0 ∧ d = 1) ∨ ((f.t = 0 ∨ f.t = 1) ∧ (d = 2 ∨ d = 3)) ∨ (f.t = 3 ∧ (d = 0 ∨ d = 1))
     let rm := fun s : State => if rounds then RoundMode.ofCode s.cx.rm f.mod.toNat else .rne
     VecGives (.vcvt f) f.vd.toNat [f.va.toNat] d false .cvtOverflow (fun _ => True) (fun s => decide (rm s = .sr))
       (fun s l => laneEnabled f.me f.km d s l && (decide (ld s < lt s) || decide (j * lt s ≤ l ∧ l < (j + 1) * lt s)))
       (fun s _ l r => convertValue f.t d (decide (4 ≤ f.sub.toNat)) (rm s) (laneOf s f.t f.va.toNat (if ld s < lt s then j * ld s + l else l - j * lt s)) r)) ∧
    (let fn := fun (i : Instr) (g : SpecialFn) =>
       (∀ s : State, s.accepts i → vecReady s [f.va.toNat, f.vd.toNat] → RoundMode.ofCode s.cx.rm f.mod.toNat = .sr → ∃ u, exec i s = .next u ∧ u.cx.st = 1 ∧ u.cx.cause = Cause.rmUnsupported) ∧
       VecGives i f.vd.toNat [f.va.toNat] f.t false .spfnDomain (fun s => RoundMode.ofCode s.cx.rm f.mod.toNat ≠ .sr) (fun _ => false) (laneEnabled f.me f.km f.t)
         (fun s _ l _ =>
           let F := if f.t = 0 then fp32 else bf16
           let x := F.decode (laneOf s f.t f.va.toNat l)
           if f.sub = 1 ∧ (g = .log2 ∨ g = .rsqrt ∨ g = .sqrt) ∧ x.isNan = false ∧ x.isZero = false ∧ x.sign = true then none
           else some (specialValue g F (RoundMode.ofCode s.cx.rm f.mod.toNat) x))
     fn (.vexp2 f) .exp2 ∧ fn (.vlog2 f) .log2 ∧ fn (.vrcp f) .rcp ∧ fn (.vrsqrt f) .rsqrt ∧ fn (.vsqrt f) .sqrt ∧ fn (.vtanh f) .tanh)

/-- The lanes of a register that take part, in ascending order, as R362 extends integers to 64 bits. -/
def enabledLanes (f : BitVec 1 × BitVec 3) (t : BitVec 2) (s : State) (r n : Nat) (ext : Nat → Nat) : List Nat :=
  ((List.range n).filter (laneEnabled f.1 f.2 t s)).map (fun l => ext (laneOf s t r l))

/-- R273, R362, R363: `vred` of integer lanes gives the sum modulo 2^64, least, greatest, and, or or exclusive or of the lanes that take part, and 0 of none, whatever the order; of float lanes it gives the pairwise tree. `vscan` gives each
lane that takes part the chain of the lanes that take part up to it, in ascending order, and leaves the others as they were. -/
def Obligations.ReductionsAndScans : Prop :=
  (∀ (f : FmtAVS) (s : State), s.accepts (.vred f) → vecReady s [f.va.toNat] →
    let op := f.imm.toNat
    let rm := RoundMode.ofCode s.cx.rm f.mod.toNat
    (f.t = 0 ∨ f.t = 1) ∧ op = 0 ∧ rm = .sr → ∃ u, exec (.vred f) s = .next u ∧ u.cx.st = 1 ∧ u.cx.cause = Cause.rmUnsupported) ∧
  (∀ (f : FmtAVS) (s : State), s.accepts (.vred f) → vecReady s [f.va.toNat] →
    let op := f.imm.toNat
    let n := lanesOf s.cx.long f.t
    let rm := RoundMode.ofCode s.cx.rm f.mod.toNat
    let b := laneBits f.t
    let sx := fun v : Nat => ((BitVec.ofNat b v).signExtend 64).toNat
    ¬ ((f.t = 0 ∨ f.t = 1) ∧ op = 0 ∧ rm = .sr) → ∃ u v, exec (.vred f) s = .next u ∧ (∀ r, r ≠ f.xd → u.x r = s.x r) ∧ u.x f.xd = (if f.xd = 0 then 0 else BitVec.ofNat 64 v) ∧
      (∀ r, u.k r = s.k r) ∧ (∀ r, u.ownVec r = s.ownVec r) ∧ (∀ a, u.mem.read a = s.mem.read a) ∧
      ((f.t = 0 ∨ f.t = 1) → v = (pairTree (reduceStep f.t op rm 64) 8 ((List.range n).map (fun l => if laneEnabled f.me f.km f.t s l then some (laneOf s f.t f.va.toNat l) else none))).getD 0) ∧
      ((f.t = 2 ∨ f.t = 3) →
        let raw := enabledLanes (f.me, f.km) f.t s f.va.toNat n id
        let low := enabledLanes (f.me, f.km) f.t s f.va.toNat n sx
        (op = 0 → v = low.sum % 2 ^ 64) ∧
        (op = 1 → ∀ x ∈ low, (BitVec.ofNat 64 v).toInt ≤ (BitVec.ofNat 64 x).toInt) ∧ (op = 1 → low ≠ [] → v ∈ low) ∧
        (op = 2 → ∀ x ∈ low, (BitVec.ofNat 64 x).toInt ≤ (BitVec.ofNat 64 v).toInt) ∧ (op = 2 → low ≠ [] → v ∈ low) ∧
        (op = 3 → ∀ x ∈ raw, v ≤ x) ∧ (op = 3 → raw ≠ [] → v ∈ raw) ∧ (op = 4 → ∀ x ∈ raw, x ≤ v) ∧ (op = 4 → raw ≠ [] → v ∈ raw) ∧
        (op = 5 → raw ≠ [] → ∀ j, v.testBit j = raw.all (fun x => x.testBit j)) ∧ (op = 6 → ∀ j, v.testBit j = raw.any (fun x => x.testBit j)) ∧
        (op = 7 → ∀ j, v.testBit j = decide ((raw.filter (fun x => x.testBit j)).length % 2 = 1)) ∧ (raw = [] → v = 0))) ∧
  (∀ (f : FmtAV) (s : State), s.accepts (.vscan f) → vecReady s [f.va.toNat, f.vd.toNat] →
    let op := f.sub.toNat
    let n := lanesOf s.cx.long f.t
    let rm := RoundMode.ofCode s.cx.rm f.mod.toNat
    let on := laneEnabled f.me f.km f.t s
    let src := laneOf s f.t f.va.toNat
    ¬ ((f.t = 0 ∨ f.t = 1) ∧ op = 0 ∧ rm = .sr) → ∃ u, exec (.vscan f) s = .next u ∧ vecFrame s u (fun r => r = f.vd.toNat) ∧
      (∀ l, l < n → on l = false → laneOf u f.t f.vd.toNat l = laneOf s f.t f.vd.toNat l) ∧
      (∀ l, l < n → on l = true → onCount on l = 0 → laneOf u f.t f.vd.toNat l = src l) ∧
      (∀ l p, l < n → p < l → on l = true → on p = true → (∀ q, p < q → q < l → on q = false) →
        laneOf u f.t f.vd.toNat l = reduceStep f.t op rm (laneBits f.t) (laneOf u f.t f.vd.toNat p) (src l)))

/-! ### Vector loads and stores, atomics, line maintenance -/

/-- The data of accesses as one number, the first access lowest. -/
def accessData : List Access → Nat
  | [] => 0
  | a :: l => a.data % 2 ^ (8 * a.size) + 2 ^ (8 * a.size) * accessData l

/-- The data of rows of bytes one after another: a row of n bytes holds the low bytes of its number. -/
def rowsData : List Nat → List Nat → Nat
  | [], _ => 0
  | n :: ns, vs => vs.headD 0 % 2 ^ (8 * n) + 2 ^ (8 * n) * rowsData ns (vs.drop 1)

/-- Accesses of the issuing firing in flight that the step put there. -/
def sentBy (s t : State) (kind : AccKind) (l : List Access) : Prop :=
  t.net = s.net ++ l ∧ ∀ a ∈ l, a.kind = kind ∧ a.firing = s.cx.firing ∧ a.ctx = s.cur ∧ a.result = none

/-- Every context but the issuing one is as before; of a doubles pair (R46) a read of the one may use up what the other read before it. -/
def othersKept (s t : State) : Prop :=
  ∀ c, c ≠ s.cur → ({ t.ctxOf c with pairReads := (s.ctxOf c).pairReads } : Ctx) = s.ctxOf c ∧ (s.cx.pairFiring = none → t.ctxOf c = s.ctxOf c)

/-- A bundle changed no register, no context but its own and no byte of memory. -/
def quiet (s t : State) : Prop :=
  (∀ r, t.x r = s.x r) ∧ (∀ r, t.k r = s.k r) ∧ (∀ r, t.ownVec r = s.ownVec r) ∧ t.cx.fstat = s.cx.fstat ∧ othersKept s t ∧ ∀ b, t.mem.read b = s.mem.read b

/-- Register and effective address of a vector load or store (R312, R315). -/
def vecForm (i : Instr) (s : State) : Option (Bool × BitVec 5 × Nat) :=
  match i with
  | .ldV f => some (true, f.rt, (s.x f.base + 32 * f.disp.signExtend 64).toNat)
  | .ldVIndexed f => some (true, f.rt, (s.x f.base + s.x f.idx <<< f.sh.toNat).toNat)
  | .stV f => some (false, f.rt, (s.x f.base + 32 * f.disp.signExtend 64).toNat)
  | .stVIndexed f => some (false, f.rt, (s.x f.base + s.x f.idx <<< f.sh.toNat).toNat)
  | _ => none

/-- R312 to R315: `ld.v` moves 32 bytes, 256 in long mode, at a multiple of 32: it sends one load and holds, and with the bytes back writes the register. `st.v` sends the bytes of the register as stores and retires. A failed check freezes
the context. The registers concerned are bound to no stream. -/
def Obligations.VectorLoadsAndStoresMoveBytes : Prop :=
  ∀ (i : Instr) (s : State) (ld : Bool) (rt : BitVec 5) (va : Nat), vecForm i s = some (ld, rt, va) → s.accepts i → s.streamOf rt.toNat = none →
    let n := if s.cx.long then 256 else 32
    (s.cx.reply = none → s.cx.hold = none → ∀ c y, s.checkAccess s.cur va n 32 (if ld then .read else .write) true = .bad c y → exec i s = s.faultC c va y) ∧
    (ld = true →
      (∀ v, s.cx.reply = some (.value v) → v < 2 ^ (8 * n) → ∃ t, exec i s = .next t ∧ t.ownVec rt.toNat = v ∧ (∀ r, r ≠ rt.toNat → t.ownVec r = s.ownVec r) ∧
        (∀ r, t.x r = s.x r) ∧ (∀ r, t.k r = s.k r) ∧ t.cx.pc = s.fall.cx.pc ∧ ∀ b, t.mem.read b = s.mem.read b) ∧
      (∀ g e, s.cx.reply = none → s.cx.hold = none → s.checkAccess s.cur va n 32 .read true = .ok g e → ∃ t a, exec i s = .next t ∧ sentBy s t .load [a] ∧
        a.gpa = g ∧ a.size + (a.more.map (fun p => p.2)).sum = n ∧ t.cx.hold = some a.id ∧ t.cx.pc = s.cx.pc ∧ quiet s t)) ∧
    (ld = false → ∀ g e, s.cx.reply = none → s.cx.hold = none → s.checkAccess s.cur va n 32 .write true = .ok g e → isDbgAttach g = false →
      (s.piecesOf va n g .write).all (fun p => !s.unackFull p.1) = true →
      ∃ t l, exec i s = .next t ∧ sentBy s t .store l ∧ l.map (fun a => (a.gpa, a.size)) = s.piecesOf va n g .write ∧ accessData l = s.ownVec rt.toNat % 2 ^ (8 * n) ∧
        t.cx.pc = s.fall.cx.pc ∧ quiet s t)

/-- Register, lane type and effective address of a typed load or store (R278, R316). -/
def typedForm (i : Instr) (s : State) : Option (Bool × BitVec 5 × BitVec 2 × Nat) :=
  match i with
  | .ldVt f => some (true, f.rt, f.disp.extractLsb' 12 2, (s.x f.base + 32 * (f.disp.extractLsb' 0 12).signExtend 64).toNat)
  | .ldVtIndexed f => some (true, f.rt, f.t, (s.x f.base + s.x f.idx <<< f.sh.toNat).toNat)
  | .stVt f => some (false, f.rt, f.disp.extractLsb' 12 2, (s.x f.base + 32 * (f.disp.extractLsb' 0 12).signExtend 64).toNat)
  | .stVtIndexed f => some (false, f.rt, f.t, (s.x f.base + s.x f.idx <<< f.sh.toNat).toNat)
  | _ => none

/-- R365 to R369: a typed load or store of the elements of one register, once its access is planned by the page's format; a plan that fails its checks freezes the context. A load sends its pieces, keeps the page's format and the lookup table
of its issue, and holds; with the bytes back, a page of format 0 gives raw bytes, any other page decodes each element by that table, times its scale, into a float lane by round to nearest even, or saturates an integer into an integer lane.
A store sends the bytes that its codes and scales make. -/
def Obligations.TypedAccessesConvertElements : Prop :=
  ∀ (i : Instr) (s : State) (ld : Bool) (rt : BitVec 5) (ty : BitVec 2) (va : Nat), typedForm i s = some (ld, rt, ty, va) → s.accepts i → s.streamOf rt.toNat = none →
    let n := lanesOf s.cx.long ty
    let b := laneBits ty
    let plan := s.typedPlan s.cur va n ty (if s.cx.long then 256 else 32) (!ld)
    (∀ c a y, plan = .error (.bad c a y) → (ld = true → s.cx.reply = none ∧ s.cx.hold = none) → exec i s = s.faultC c a y) ∧
    (ld = true →
      (s.cx.reply = none → s.cx.hold.isSome → exec i s = .next (s.stallOn 0)) ∧
      (∀ p, plan = .ok p → s.cx.reply = none → s.cx.hold = none → s.homeRuns (p.pieces.map (fun q => (q.gpa, q.len))) ≠ [] →
        ∃ t a, exec i s = .next t ∧ sentBy s t .load [a] ∧ a.runs = s.homeRuns (p.pieces.map (fun q => (q.gpa, q.len))) ∧ t.cx.hold = some a.id ∧ t.cx.typed = p.held s.core ∧
          t.cx.pc = s.cx.pc ∧ quiet s t) ∧
      (∀ v, s.cx.reply = some (.value v) →
        let h := s.cx.typed
        let value := fun (c : Nat) => decodeElem h.fmt (lutOf h.lutlo h.luthi) c
        ∃ t, exec i s = .next t ∧ (∀ r, r ≠ rt.toNat → t.ownVec r = s.ownVec r) ∧ (∀ r, t.x r = s.x r) ∧ t.cx.pc = s.fall.cx.pc ∧ (∀ a, t.mem.read a = s.mem.read a) ∧
        (h.fmt = 0 → ∀ l, l < n → laneOf t ty rt.toNat l = v / 2 ^ (b * l) % 2 ^ b) ∧
        (h.fmt ≠ 0 → h.geo = 0 → ∀ l, l < n →
          let c := v / 2 ^ (fmtBits h.fmt * l) % 2 ^ fmtBits h.fmt
          (ty = 0 ∨ ty = 1 → laneOf t ty rt.toNat l = (if ty = 0 then fp32 else bf16).round (value c) .rne) ∧
          (ty = 2 ∨ ty = 3 → h.fmt ≠ 0x0D →
            laneOf t ty rt.toNat l = (BitVec.ofInt b (max (-2 ^ (b - 1)) (min (2 ^ (b - 1) - 1) (BitVec.ofNat (fmtBits h.fmt) c).toInt))).toNat)) ∧
        (h.fmt ≠ 0 → h.geo ≠ 0 → ty = 0 ∨ ty = 1 → ∀ l, l < n → l / 32 < h.nscales →
          let c := v / 2 ^ (fmtBits h.fmt * l) % 2 ^ fmtBits h.fmt
          let scale := v / 2 ^ (8 * (h.dataLen + l / 32)) % 256
          (scale = 255 → laneOf t ty rt.toNat l = (if ty = 0 then fp32 else bf16).qnan) ∧
          (scale ≠ 255 → laneOf t ty rt.toNat l = (if ty = 0 then fp32 else bf16).round ((value c).scale ((scale : Int) - 127)) .rne)))) ∧
    (ld = false → ∀ p, plan = .ok p →
      let ps := s.homeCuts (p.pieces.map (fun q => (q.va, q.gpa, q.len)))
      let bytes := typedBytes p ty (RoundMode.ofCode s.cx.rm s.cx.rm) n s.seed (s.ownVec rt.toNat)
      (bytes = none → exec i s = s.faultC .srSeed) ∧
      (∀ v seed, bytes = some (v, seed) →
        (ps.any (fun q => s.unackFull q.2.1) = true → exec i s = .next (s.stallOn 0)) ∧
        (ps.any (fun q => s.unackFull q.2.1) = false → ∃ t l, exec i s = .next t ∧ sentBy s t .store l ∧ l.map (fun a => (a.va, a.gpa, a.size)) = ps ∧
          accessData l = v % 2 ^ (8 * (ps.map (fun q => q.2.2)).sum) ∧ t.core.seed = BitVec.ofNat 64 seed ∧ t.cx.pc = s.fall.cx.pc ∧ quiet s t ∧
          (p.fmt = 0 → v = s.ownVec rt.toNat ∧ seed = s.seed))))

/-- Operation, bytes and sign of the atomics (R334); the reductions give none. -/
def atomicForm (i : Instr) : Option (FmtCA × AmoOp × Nat × Bool) :=
  let n := fun f : FmtCA => if f.sz = 1 then 8 else 4
  match i with
  | .amoAdd f => some (f, .add, n f, true)
  | .amoAnd f => some (f, .and, n f, true)
  | .amoOr f => some (f, .or, n f, true)
  | .amoXor f => some (f, .xor, n f, true)
  | .amoMin f => some (f, .min, n f, true)
  | .amoMax f => some (f, .max, n f, true)
  | .amoMinu f => some (f, .minu, n f, false)
  | .amoMaxu f => some (f, .maxu, n f, false)
  | .amoSwap f => some (f, .swap, n f, true)
  | .amoCas f => some (f, .cas, n f, true)
  | .amoFaddS f => some (f, .faddS, 4, false)
  | _ => none

/-- Operation and bytes of the reductions (R335). -/
def reductionForm (i : Instr) : Option (FmtCA × AmoOp × Nat) :=
  match i with
  | .redAdd f => some (f, .add, if f.sz = 1 then 8 else 4)
  | .redFaddS f => some (f, .faddS, 4)
  | .redFaddH f => some (f, .faddH, 2)
  | _ => none

/-- R223, R313, R323, R334, R335: an atomic sends its operand, and for `amo.cas` the new value of XC, to the home of its naturally aligned address and holds; the reply writes the old value to XD, extended. A reduction sends its operand, retires at once,
writes no register and counts in UNACK as a store of its reach does. -/
def Obligations.AtomicsAndReductionsIssue : Prop :=
  (∀ (i : Instr) (s : State) (f : FmtCA) (op : AmoOp) (n : Nat) (sg : Bool), atomicForm i = some (f, op, n, sg) → s.accepts i →
    let va := (s.x f.base).toNat
    (∀ v, s.cx.reply = some (.value v) → v < 2 ^ (8 * n) → exec i s = .next ((s.setX f.xd (if sg then (BitVec.ofNat (8 * n) v).signExtend 64 else BitVec.ofNat 64 v)).fall)) ∧
    (∀ c m, s.cx.reply = some (.failed c m) → exec i s = s.faultC c va (accSyndrome c .atomic n 0)) ∧
    (s.cx.reply = none → s.cx.hold.isSome → exec i s = .next (s.stallOn 0)) ∧
    (s.cx.reply = none → s.cx.hold = none →
      (∀ c y, s.checkAccess s.cur va n n .atomic false = .bad c y → exec i s = s.faultC c va y) ∧
      (∀ g e, s.checkAccess s.cur va n n .atomic false = .ok g e → ∃ t a, exec i s = .next t ∧ sentBy s t (.atomic op) [a] ∧ a.gpa = g ∧ a.size = n ∧
        a.data = (s.x f.xb).toNat % 2 ^ (8 * n) ∧ a.data2 = (s.x f.xc).toNat % 2 ^ (8 * n) ∧ t.cx.hold = some a.id ∧ t.cx.pc = s.cx.pc ∧ quiet s t))) ∧
  (∀ (i : Instr) (s : State) (f : FmtCA) (op : AmoOp) (n : Nat), reductionForm i = some (f, op, n) → s.accepts i →
    let va := (s.x f.base).toNat
    (∀ c y, s.checkAccess s.cur va n n .atomic false = .bad c y → exec i s = s.faultC c va y) ∧
    (∀ g e, s.checkAccess s.cur va n n .atomic false = .ok g e →
      (s.unackFull g = true → exec i s = .next (s.stallOn 0)) ∧
      (s.unackFull g = false → ∃ t a, exec i s = .next t ∧ sentBy s t (.reduce op) [a] ∧ a.gpa = g ∧ a.size = n ∧ a.data = (s.x f.xb).toNat % 2 ^ (8 * n) ∧
        t.cx.unack = s.cx.unack + (match s.reachGpa g with | 1 => 1 | 2 => 2 ^ 16 | 3 => 2 ^ 32 | _ => 0) ∧ t.cx.pc = s.fall.cx.pc ∧ quiet s t)))

/-- A bundle changed no register, no byte of memory, and of another context at most the lines that its loop buffer keeps (R195). -/
def quietButLoops (s t : State) : Prop :=
  (∀ r, t.x r = s.x r) ∧ (∀ r, t.k r = s.k r) ∧ (∀ r, t.ownVec r = s.ownVec r) ∧ t.cx.fstat = s.cx.fstat ∧
    (∀ c, c ≠ s.cur → ({ t.ctxOf c with loopBuf := (s.ctxOf c).loopBuf } : Ctx) = s.ctxOf c) ∧ ∀ b, t.mem.read b = s.mem.read b

/-- R195, R342, R343: `cln` writes a line of a cached page of this device back and keeps it, so that it is no longer dirty; `inv` drops the line from the core's fetch buffer, and a context that has the line in an active loop body keeps it in its loop buffer; on this device `inv.h` also cleans the line
and evicts it from its home unless the line has a sync record; a translation fault freezes the context. `lut.ld` reads 16 bytes into LUTLO and LUTHI. None of them changes another register or a byte of memory. -/
def Obligations.LineMaintenanceAndTables : Prop :=
  ∀ (f : FmtCR) (s : State),
    let va := (s.x f.xa).toNat
    (∀ i, i = .cln f ∨ i = .inv f → s.accepts i →
      (∀ c lvl, s.translateLine va = .bad c lvl → exec i s = s.faultC c va (accSyndrome c .read 128 lvl)) ∧ (s.translateLine va = .wait → exec i s = .next (s.stallOn 0))) ∧
    (∀ g e, s.accepts (.cln f) → s.translateLine va = .ok g e → ∃ t, exec (.cln f) s = .next t ∧ quiet s t ∧ t.cx.pc = s.fall.cx.pc ∧ t.cached = s.cached ∧
      (e.kind = 0 ∧ s.gpaLocal g = true → ∀ l, l ∈ t.dirty ↔ l ∈ s.dirty ∧ l ≠ lineOf (gpaKey g)) ∧ (¬ (e.kind = 0 ∧ s.gpaLocal g = true) → t.dirty = s.dirty)) ∧
    (∀ g e, s.accepts (.inv f) → s.translateLine va = .ok g e → ∃ t, exec (.inv f) s = .next t ∧ quietButLoops s t ∧ t.cx.pc = s.fall.cx.pc ∧ t.core.ibuf.has (s.fetchKey g) = false ∧
      (∀ c bytes, c ≠ s.cur → coreOfCtx c = coreOfCtx s.cur → (s.ctxOf c).occ = true → (s.ctxOf c).lineInBody va = true → s.core.ibuf.find? (s.fetchKey g) = some bytes →
        ∃ e ∈ (t.ctxOf c).loopBuf, e.1 = s.fetchKey g) ∧
      (f.opt ≠ 1 ∨ s.gpaLocal g = false → t.dirty = s.dirty ∧ t.cached = s.cached) ∧
      (f.opt = 1 → s.gpaLocal g = true → (∀ l, l ∈ t.dirty ↔ l ∈ s.dirty ∧ l ≠ lineOf (gpaKey g)) ∧
        t.cached.has (lineOf (gpaKey g)) = (s.cached.has (lineOf (gpaKey g)) && s.syncs.any (fun r => r.line = lineOf (gpaKey g))))) ∧
    (s.accepts (.lutLd f) →
      (∀ v, s.cx.reply = some (.value v) → v < 2 ^ 128 → ∃ t, exec (.lutLd f) s = .next t ∧ quiet s t ∧ t.cx.pc = s.fall.cx.pc ∧
        t.core.lutlo = BitVec.ofNat 64 (v % 2 ^ 64) ∧ t.core.luthi = BitVec.ofNat 64 (v / 2 ^ 64)) ∧
      (∀ g e, s.cx.reply = none → s.cx.hold = none → s.checkAccess s.cur va 16 16 .read true = .ok g e → ∃ t a, exec (.lutLd f) s = .next t ∧ sentBy s t .load [a] ∧
        a.gpa = g ∧ a.size + (a.more.map (fun p => p.2)).sum = 16 ∧ t.cx.hold = some a.id ∧ quiet s t))

/-- R189 to R192: with a short register bound to an input stream, an instruction that reads it takes the oldest entry once, or takes the fault held in its place; one that writes a register bound to an output stream appends an entry with the runs and
bytes that its step stores, translated and encoded now, or takes the fault of that step; with no entry or no room it stalls with no effect; the wrong direction and the end of a stream fault. Shown for `vmov`. -/
def Obligations.StreamsFeedVectorOperands : Prop :=
  ∀ (f : FmtAV) (s : State), s.accepts (.vmov f) → s.cx.long = false → f.me = 0 →
    (∀ n t, s.streamOf f.va.toNat = some (n, t) → s.streamOf f.vd.toNat = none → t.output = false →
      (∀ v r, t.fifo = v :: r → ∃ u, exec (.vmov f) s = .next u ∧ u.ownVec f.vd.toNat = v.toNat ∧ (u.core.streamAt n).fifo = r ∧ (u.core.streamAt n).taken = t.taken + 1 ∧
        (∀ j, j ≠ n → u.core.streamAt j = s.core.streamAt j) ∧ ∀ q, q ≠ f.vd.toNat → u.ownVec q = s.ownVec q) ∧
      (∀ c a, t.fifo = [] → t.fault = some (c, a) → exec (.vmov f) s = s.faultA c a t.faultSynd) ∧
      (t.fifo = [] → t.fault = none → t.taken < t.total → exec (.vmov f) s = .next (s.stallOn .waitStream)) ∧
      (t.fifo = [] → t.fault = none → t.total ≤ t.taken → exec (.vmov f) s = s.faultA .streamEnd)) ∧
    (∀ n t, s.streamOf f.va.toNat = none → s.streamOf f.vd.toNat = some (n, t) →
      (t.output = false → exec (.vmov f) s = s.faultA .streamDir) ∧
      (t.output = true → t.total ≤ t.taken → exec (.vmov f) s = s.faultA .streamEnd) ∧
      (t.output = true → t.taken < t.total →
        (8 ≤ t.fifo.length → exec (.vmov f) s = .next (s.stallOn .waitStream)) ∧
        (t.fifo.length < 8 →
          (∀ c a y, s.outStep t 0 = .error (.bad c a y) → exec (.vmov f) s = s.faultA c a y) ∧
          (∀ ps b seed, (∃ r, s.outStep t 0 = .ok r) → s.outStep t (s.ownVec f.va.toNat) = .ok (ps, b, seed) →
            ∃ u, exec (.vmov f) s = .next u ∧ (u.core.streamAt n).fifo = t.fifo ++ [BitVec.ofNat 256 (s.ownVec f.va.toNat)] ∧ (u.core.streamAt n).outs = t.outs ++ [(ps, b)] ∧
              (u.core.streamAt n).taken = t.taken + 1 ∧ u.core.seed = BitVec.ofNat 64 seed ∧ ∀ q, u.ownVec q = s.ownVec q)))) ∧
    (∀ n t, s.streamOf f.va.toNat = some (n, t) → t.output = true → exec (.vmov f) s = s.faultA .streamDir)

/-! ### Special registers, modes, capabilities, traps and the end of firings -/

/-- R185, R321: `mfs` writes the special register of its number to XD, in the state at issue: a register of the tile that the other core changed in this same arithmetic cycle reads as it was before that cycle; a number that R185 does not list faults with `SPR_UNDEF` (0x04). -/
def moveFromSpecialReadsTheList : Prop :=
  ∀ (f : FmtCS) (s : State), s.accepts (.mfs f) →
    let n := f.spr.toNat
    let t := s.tileOf (tileOfCtx s.cur)
    let gives := fun (v : Word) => exec (.mfs f) s = .next ((s.setX f.x v).fall)
    let other := s.coreOf (4 * tileOfCtx s.cur + 1 - coreOfCtx s.cur)
    let late := if other.issued = some (s.cycOf (fieldOfCtx s.cur)) then other.before.lookup n else none
    let shared := fun (v : Nat) => gives (late.getD (BitVec.ofNat 64 v))
    (n = 0x00 → gives s.cx.wid) ∧ (n = 0x01 → gives s.cx.widf) ∧ (2 ≤ n → n ≤ 7 → gives (s.cx.grid.get 0 (n - 2))) ∧ (n = 0x09 → gives s.cx.senderLo) ∧ (n = 0x0A → gives s.cx.senderHi) ∧
    (n = 0x0B → gives s.cx.port) ∧ (n = 0x08 → gives (s.selfWord 0)) ∧ (n = 0x0C → gives (BitVec.ofNat 64 (s.ctxidOf s.cur))) ∧ (n = 0x10 → gives (BitVec.ofNat 64 s.rtime)) ∧ (n = 0x11 → gives (BitVec.ofNat 64 s.cyc)) ∧
    (n = 0x12 → gives (BitVec.ofNat 64 (s.ncycOf (fieldOfCtx s.cur)))) ∧ (n = 0x18 → shared (s.pips (tileOfCtx s.cur))) ∧ (n = 0x19 → shared (s.pipiv (tileOfCtx s.cur))) ∧
    (n = 0x1A → t.notices = [] → shared 0) ∧
    (n = 0x20 → gives (BitVec.ofNat 64 (s.cx.unDom * 2 ^ 32 + s.cx.unWaf * 2 ^ 16 + s.cx.unFld))) ∧
    (n = 0x21 → gives (BitVec.ofNat 64 (s.cx.perm * 2 ^ 48 + s.cx.dead * 2 ^ 32 + s.cx.pois * 2 ^ 16 + s.cx.scope))) ∧
    (n = 0x28 → t.engShown = none → shared (t.eng.accst (s.engBusy (tileOfCtx s.cur)))) ∧ (n = 0x29 → shared t.eng.promo) ∧
    (n = 0x2A → gives s.core.lutlo) ∧ (n = 0x2B → gives s.core.luthi) ∧ (n = 0x2C → gives (BitVec.ofNat 64 (2 * s.cx.rm + if s.cx.long then 1 else 0))) ∧ (n = 0x2D → gives s.core.seed) ∧
    (n = 0x30 → gives s.cx.codelo) ∧ (n = 0x31 → gives s.cx.codehi) ∧ (n = 0x32 → gives s.cx.lbase) ∧ (0x33 ≤ n → n ≤ 0x35 → gives (s.cx.lcAt (n - 0x33))) ∧
    (n = 0x38 → shared ((List.range 8).map (fun i => t.sems.get 0 i * 2 ^ (8 * i))).sum) ∧
    ((0x0D ≤ n ∧ n ≤ 0x0F) ∨ (0x13 ≤ n ∧ n ≤ 0x17) ∨ (0x1B ≤ n ∧ n ≤ 0x1F) ∨ (0x22 ≤ n ∧ n ≤ 0x27) ∨ n = 0x2E ∨ n = 0x2F ∨ n = 0x36 ∨ n = 0x37 ∨ 0x38 < n →
      exec (.mfs f) s = s.faultC .sprUndef)

/-- R322: `mts` by register. Each write changes that register only and the bundle retires; the illegal uses of the table fault, and a read-only register faults with `SPR_READONLY` (0x05). -/
def moveToSpecialWritesByRegister : Prop :=
  ∀ (f : FmtCS) (s : State), s.accepts (.mts f) →
    let n := f.spr.toNat
    let a := s.x f.x
    (n = 0x2C → if 5 ≤ a.toNat / 2 % 8 ∨ 16 ≤ a.toNat then exec (.mts f) s = s.faultC .reservedField
      else exec (.mts f) s = .next (s.upd (fun c => { c with rm := a.toNat / 2 })).fall) ∧
    (n = 0x32 → exec (.mts f) s = .next (s.upd (fun c => { c with lbase := a })).fall) ∧
    (n = 0x2D → exec (.mts f) s = .next (s.updCurCore (fun k => { k with seed := a })).fall) ∧
    (n = 0x2A → exec (.mts f) s = .next (s.updCurCore (fun k => { k with lutlo := a })).fall) ∧
    (n = 0x2B → exec (.mts f) s = .next (s.updCurCore (fun k => { k with luthi := a })).fall) ∧
    (n = 0x29 →
      (tileKind (tileOfCtx s.cur) ≠ 0 → exec (.mts f) s = s.faultC .engineKind) ∧
      (tileKind (tileOfCtx s.cur) = 0 → isIssueCore (coreOfCtx s.cur) = false → exec (.mts f) s = s.faultC .engineFeed) ∧
      (tileKind (tileOfCtx s.cur) = 0 → isIssueCore (coreOfCtx s.cur) = true → s.claimedByOther 15 = false →
        if 128 ≤ a.toNat then exec (.mts f) s = s.faultC .reservedField
        else ∃ t, exec (.mts f) s = .next t ∧ t.eng.promo = a.toNat ∧ (∀ r, t.x r = s.x r) ∧ t.cx.pc = s.fall.cx.pc)) ∧
    (n = 0x28 →
      (isIssueCore (coreOfCtx s.cur) = false → exec (.mts f) s = s.faultC .engineFeed) ∧
      (isIssueCore (coreOfCtx s.cur) = true → s.claimedByOther 15 = false → ∃ t, exec (.mts f) s = .next t ∧
        (∀ j, j < 4 → t.eng.sat.getLsbD j = (s.eng.sat.getLsbD j && !a.getLsbD j)) ∧ (∀ j, j < 4 → t.eng.err.getLsbD j = (s.eng.err.getLsbD j && !a.getLsbD (4 + j))) ∧
        t.eng.sprow = (s.eng.sprow && !a.getLsbD 20) ∧ t.eng.inner = s.eng.inner ∧ (∀ r, t.x r = s.x r) ∧ t.cx.pc = s.fall.cx.pc)) ∧
    ((n ≤ 0x0C ∨ (0x10 ≤ n ∧ n ≤ 0x12) ∨ (0x18 ≤ n ∧ n ≤ 0x1A) ∨ n = 0x20 ∨ n = 0x21 ∨ n = 0x30 ∨ n = 0x31 ∨ (0x33 ≤ n ∧ n ≤ 0x35) ∨ n = 0x38) → exec (.mts f) s = s.faultC .sprReadonly) ∧
    (0x38 < n → exec (.mts f) s = s.faultC .sprUndef)

/-- R180 to R188, R343: moves from and to special registers. -/
def Obligations.SpecialRegistersMove : Prop := moveFromSpecialReadsTheList ∧ moveToSpecialWritesByRegister

/-- R200, R201, R344: `mode.l` on a V-tile's issue core takes the long-vector unit when it is free, with every long register zero and no other register changed, and waits while another firing owns it; `mode.s` gives it up and never faults. -/
def Obligations.LongModeTakesTheUnit : Prop :=
  ∀ s : State,
    (s.accepts .modeL → tileKind (tileOfCtx s.cur) ≠ 3 → exec .modeL s = s.faultC .engineKind) ∧
    (s.accepts .modeL → tileKind (tileOfCtx s.cur) = 3 → isIssueCore (coreOfCtx s.cur) = false → exec .modeL s = s.faultC .engineFeed) ∧
    (s.accepts .modeL → tileKind (tileOfCtx s.cur) = 3 → isIssueCore (coreOfCtx s.cur) = true → s.claimedByOther 15 = true → exec .modeL s = s.faultC .engineClaim) ∧
    (s.accepts .modeL → s.engineRole 3 15 = none → s.hasStream = true → exec .modeL s = s.faultC .streamBusy) ∧
    (s.accepts .modeL → s.engineRole 3 15 = none → s.hasStream = false → s.cx.long = false → (∃ n, s.eng.lown = some n ∧ n ≠ s.cx.firing) → exec .modeL s = .next (s.stallOn .waitLong)) ∧
    (s.accepts .modeL → s.engineRole 3 15 = none → s.hasStream = false → s.cx.long = false → s.eng.lown = none → ∃ t, exec .modeL s = .next t ∧
      t.cx.long = true ∧ t.eng.lown = some s.cx.firing ∧ (∀ r, r < 16 → t.ownVec r = 0) ∧ t.cx.v = s.cx.v ∧ t.cx.pc = s.fall.cx.pc ∧ (∀ r, t.x r = s.x r) ∧ ∀ a, t.mem.read a = s.mem.read a) ∧
    (s.accepts .modeL → s.engineRole 3 15 = none → s.hasStream = false → s.cx.long = true → exec .modeL s = .next s.fall) ∧
    (s.accepts .modeS → ∃ t, exec .modeS s = .next t ∧ t.cx.long = false ∧ (s.cx.long = true → s.eng.lown = some s.cx.firing → t.eng.lown = none) ∧ (s.cx.long = false → t = s.fall) ∧
      (∀ r, t.x r = s.x r) ∧ t.cx.v = s.cx.v ∧ ∀ a, t.mem.read a = s.mem.read a)

/-- R168 to R170, R323, R329: the capability instructions write a sealed pair to XD and XD + 1, or fault as the table says. The high half of what they write is the seal of its low half. -/
def capabilityInstructionsSealTheirResult : Prop :=
  ∀ (f : FmtCR) (s : State),
    let a := s.x f.xa
    let hi := s.x (f.xa + 1)
    let b := (s.x f.xb).toNat
    let pair := fun (i : Instr) (lo : Word) => exec i s = .next (((s.setX f.xd lo).setX (f.xd + 1) (s.sealWord lo)).fall)
    (s.accepts (.capMint f) → a.toNat % 2 ^ 14 ≠ 0 ∨ (a.getLsbD 28 = true ∧ a.toNat / 2 ^ 22 % 64 ≠ 0) → exec (.capMint f) s = s.faultC .capTarget 0 a.toNat) ∧
    (s.accepts (.capMint f) → a.toNat % 2 ^ 14 = 0 → a.getLsbD 28 = false ∨ a.toNat / 2 ^ 22 % 64 = 0 →
      (2 ≤ s.level → pair (.capMint f) a) ∧
      (s.level < 2 → s.tag < 256 → ∃ lo, pair (.capMint f) lo ∧ lo.toNat / 2 ^ 46 % 256 = s.tag ∧ lo.toNat / 2 ^ 54 = a.toNat / 2 ^ 54 ∧ lo.toNat % 2 ^ 46 = a.toNat % 2 ^ 46)) ∧
    (s.accepts (.capNarrow f) → a.toNat % 2 ^ 14 ≠ 0 ∨ hi ≠ s.sealWord a → exec (.capNarrow f) s = s.faultC .capForged 0 a.toNat) ∧
    (s.accepts (.capNarrow f) → a.toNat % 2 ^ 14 = 0 → hi = s.sealWord a →
      let rights := a.toNat / 2 ^ 14 % 16
      let ports := a.toNat / 2 ^ 18 % 16
      (256 ≤ b ∨ b % 16 &&& rights ≠ b % 16 ∨ b / 16 % 16 &&& ports ≠ b / 16 % 16 → exec (.capNarrow f) s = s.faultC .capRights 0 a.toNat) ∧
      (b < 256 → b % 16 &&& rights = b % 16 → b / 16 &&& ports = b / 16 → ∃ lo, pair (.capNarrow f) lo ∧
        lo.toNat / 2 ^ 14 % 16 = b % 16 ∧ lo.toNat / 2 ^ 18 % 16 = b / 16 ∧ lo.toNat / 2 ^ 22 = a.toNat / 2 ^ 22 ∧ lo.toNat % 2 ^ 14 = 0)) ∧
    (s.accepts (.capSelf f) → pair (.capSelf f) (s.selfWord 2))

/-- R169, R330: `wake` and `halt` need a genuine capability with their right; then a control packet with the pair leaves, and the bundle retires with nothing else changed. -/
def wakeAndHaltSendControlPackets : Prop :=
  ∀ (f : FmtCR) (s : State) (i : Instr) (wake : Bool), (i = .wake f ∧ wake = true) ∨ (i = .halt f ∧ wake = false) → s.accepts i →
    let lo := s.x f.xb
    let hi := s.x (f.xb + 1)
    (lo.toNat % 2 ^ 14 ≠ 0 ∨ hi ≠ s.sealWord lo → exec i s = s.faultC .capForged 0 lo.toNat) ∧
    (lo.toNat % 2 ^ 14 = 0 → hi = s.sealWord lo → lo.getLsbD (if wake then 15 else 16) = false → exec i s = s.faultC .capRights 0 lo.toNat) ∧
    (lo.toNat % 2 ^ 14 = 0 → hi = s.sealWord lo → lo.getLsbD (if wake then 15 else 16) = true → ∃ t c, exec i s = .next t ∧ t.ctls = s.ctls ++ [c] ∧
      c.wake = wake ∧ c.capLo = lo ∧ c.capHi = hi ∧ c.srcCore = coreOfCtx s.cur ∧ t = { s.fall with ctls := t.ctls })

/-- R168 to R170, R329, R330: capabilities, and the control packets sent with them. -/
def Obligations.CapabilitiesAndControlPackets : Prop := capabilityInstructionsSealTheirResult ∧ wakeAndHaltSendControlPackets

/-- R235, R237, R242, R253: taking a fault. The context is frozen at its own PC with the cause, its non-pre-emptible section ends, and it keeps every register, its UNACK and its FSTAT; every other context, every core's registers and
every byte of memory are as before; the firing no longer waits at a barrier; the hub's fault sequence number advances, by one for each packet made. -/
def freezingKeepsTheContext : Prop :=
  ∀ (s : State) (i : Nat) (e : FaultAt),
    let t := s.freeze i e
    let c := t.ctxOf i
    c.st = 1 ∧ c.cause = e.cause ∧ c.np = false ∧ c.pc = (s.ctxOf i).pc ∧ c.frozenPc = (s.ctxOf i).pc ∧ c.x = (s.ctxOf i).x ∧ c.v = (s.ctxOf i).v ∧ c.k = (s.ctxOf i).k ∧ c.lc = (s.ctxOf i).lc ∧
    c.unack = (s.ctxOf i).unack ∧ c.fstat = (s.ctxOf i).fstat ∧ c.firing = (s.ctxOf i).firing ∧ c.occ = (s.ctxOf i).occ ∧ (∀ j, j ≠ i → t.ctxOf j = s.ctxOf j) ∧
    t.cores = s.cores ∧ t.net = s.net ∧ (∀ a, t.mem.read a = s.mem.read a) ∧ (∀ f, f ≠ fieldOfCtx i → ({ t.hubOf f with barriers := (s.hubOf f).barriers } : Hub) = s.hubOf f) ∧
    (∀ f b, t.barAt f b = { s.barAt f b with waiters := (s.barAt f b).waiters.filter (fun w => w.1 ≠ (s.ctxOf i).firing) }) ∧
    ∃ n, 1 ≤ n ∧ n ≤ 3 ∧ (t.hubOf (fieldOfCtx i)).fseq = ((s.hubOf (fieldOfCtx i)).fseq + n) % 2 ^ 32

/-- R242: a return from the freeze runs the context again from the PC given, with its registers as the freeze left them. -/
def unfreezingRunsFromThePc : Prop :=
  ∀ (s : State) (i : Nat) (pc : Word) (step : Bool),
    let t := s.unfreeze i pc step
    let c := t.ctxOf i
    c.st = 0 ∧ c.pc = pc ∧ c.x = (s.ctxOf i).x ∧ c.v = (s.ctxOf i).v ∧ c.k = (s.ctxOf i).k ∧ c.lc = (s.ctxOf i).lc ∧ c.stepping = step ∧ (∀ j, j ≠ i → t.ctxOf j = s.ctxOf j) ∧ ({ t with ctxs := s.ctxs } : State) = s

/-- R341: `trap` and `brk` freeze their context with `TRAP` (0x0F) and `BREAKPOINT` (0x0E) and IMM24 as the syndrome, whatever else the state holds. -/
def trapsFreezeTheirContext : Prop :=
  ∀ (f : FmtCU) (s : State),
    exec (.trap f) s = .next (s.freeze s.cur { cause := 0x0F, slotA := false, addr := 0, synd := f.imm.toNat }) ∧
    exec (.brk f) s = .next (s.freeze s.cur { cause := 0x0E, slotA := false, addr := 0, synd := f.imm.toNat })

/-- R235, R237, R242, R341: taking a fault, the trap instruction, and the return from a freeze. -/
def Obligations.FreezesTrapsAndReturns : Prop := freezingKeepsTheContext ∧ unfreezingRunsFromThePc ∧ trapsFreezeTheirContext

/-- The issuing firing left its context free and stands in its core's park area, with its registers, a reason and the PC it goes on at (R182, R249). -/
def inParkArea (s t : State) (reason : Cause) (pc : Word) : Prop :=
  t.cx = {} ∧ ∃ n, let k := t.core.parked.get {} n; k.st = 2 ∧ k.reason = reason ∧ k.pc = pc ∧ k.x = s.cx.x ∧ k.firing = s.cx.firing

/-- R202, R212, R309 to R311: `done` waits for UNACK and the output streams, freezes with `STORE_FAILED` (0x54) where FSTAT is not zero, and otherwise frees the slot; `park` clears a pending wake and goes on, or parks after the bundle with `PARK_EXPLICIT` (0x3F); `np.on`
and `np.off` open and close the section, and fault with `NP_STATE` (0x5F) where it is open, or not. Log 19 says how the A slot of a waiting `done` is read. -/
def Obligations.FiringsEndParkAndHoldSections : Prop :=
  ∀ s : State,
    (s.accepts .done → s.cx.unack ≠ 0 ∨ s.outputLeft = true → exec .done s = .next (s.stallOn .waitFence)) ∧
    (s.accepts .done → s.cx.unack = 0 → s.outputLeft = false → s.cx.fstat ≠ 0 → exec .done s = s.faultC .storeFailed 0 s.cx.fstat) ∧
    (s.accepts .done → s.cx.unack = 0 → s.outputLeft = false → s.cx.fstat = 0 → ∃ t, exec .done s = .next t ∧ t.cx.occ = false ∧ t.cx.lc = [] ∧ t.cx.np = false ∧ t.cx.long = false ∧
      t.eng.lown ≠ some s.cx.firing ∧ (∀ n, (s.core.streamAt n).bound = true → (s.core.streamAt n).firing = s.cx.firing → (t.core.streamAt n).bound = false) ∧
      (∀ c, c ≠ s.cur → t.ctxOf c = s.ctxOf c) ∧ ∀ a, t.mem.read a = s.mem.read a) ∧
    (s.accepts .park → s.cx.np = true → exec .park s = s.faultC .npState) ∧
    (s.accepts .park → s.cx.np = false → s.cx.wakeBit = true → exec .park s = .next ((s.upd (fun c => { c with wakeBit := false })).fall)) ∧
    (s.accepts .park → s.cx.np = false → s.cx.wakeBit = false → ∃ t, exec .park s = .next t ∧
      (s.core.parkRoom = false → t.cx.st = 2 ∧ t.cx.reason = 0x3F ∧ t.cx.pc = s.fall.cx.pc ∧ t.cx.x = s.cx.x) ∧
      (s.core.parkRoom = true → inParkArea s t 0x3F s.fall.cx.pc) ∧ (∀ c, c ≠ s.cur → t.ctxOf c = s.ctxOf c) ∧ ∀ a, t.mem.read a = s.mem.read a) ∧
    (s.accepts .npOn → exec .npOn s = if s.cx.np then s.faultC .npState else .next ((s.upd (fun c => { c with np := true, npstart := s.cyc })).fall)) ∧
    (s.accepts .npOff → exec .npOff s = if s.cx.np then .next ((s.upd (fun c => { c with np := false })).fall) else s.faultC .npState)

/-! ### Synchronisation and messages -/

/-- R198, R199, R338: `sem.post` waits for the tile-scope stores before it, then adds its amount, 1 to 255, or faults; `sem.wt` takes its amount when it is first in the queue and the count allows, and otherwise stands in the queue, in order of arrival. -/
def Obligations.SemaphoresCount : Prop :=
  ∀ (f : FmtCR) (s : State),
    let a := (s.x f.xa).toNat % 256
    let n := f.opt.toNat
    let c := s.tile.sems.get 0 n
    (∀ i, i = .semPost f ∨ i = .semWt f → s.accepts i → a = 0 → exec i s = s.faultC .semAmount) ∧
    (s.accepts (.semPost f) → a ≠ 0 → s.storesDone 2 = false → exec (.semPost f) s = .next (s.stallOn 0)) ∧
    (s.accepts (.semPost f) → a ≠ 0 → s.storesDone 2 = true → 255 < c + a → ∃ t, exec (.semPost f) s = .next t ∧ t.cx.st = 1 ∧ t.cx.cause = Cause.semOverflow ∧ t.tile.sems = s.tile.sems) ∧
    (s.accepts (.semPost f) → a ≠ 0 → s.storesDone 2 = true → c + a ≤ 255 → ∃ t, exec (.semPost f) s = .next t ∧ t.tile.sems.get 0 n = c + a ∧
      (∀ m, m ≠ n → t.tile.sems.get 0 m = s.tile.sems.get 0 m) ∧ t.tile.semq = s.tile.semq ∧ t.cx.pc = s.fall.cx.pc ∧ (∀ r, t.x r = s.x r) ∧ ∀ b, t.mem.read b = s.mem.read b) ∧
    (s.accepts (.semWt f) → a ≠ 0 → ((s.tile.semq.get [] n).head?.map (fun w => w.2.1) = none ∨ (s.tile.semq.get [] n).head?.map (fun w => w.2.1) = some s.cx.firing) → a ≤ c →
      ∃ t, exec (.semWt f) s = .next t ∧ t.tile.sems.get 0 n = c - a ∧ (∀ m, m ≠ n → t.tile.sems.get 0 m = s.tile.sems.get 0 m) ∧ (∀ w ∈ t.tile.semq.get [] n, w.2.1 ≠ s.cx.firing) ∧
        t.cx.pc = s.fall.cx.pc ∧ (∀ r, t.x r = s.x r) ∧ ∀ b, t.mem.read b = s.mem.read b) ∧
    (s.accepts (.semWt f) → a ≠ 0 → (∃ w q, s.tile.semq.get [] n = w :: q ∧ w.2.1 ≠ s.cx.firing) ∨ c < a →
      ∃ t, exec (.semWt f) s = .next t ∧ t.tile.sems = s.tile.sems ∧ (∃ w ∈ t.tile.semq.get [] n, w.2.1 = s.cx.firing) ∧ (∃ tail, t.tile.semq.get [] n = s.tile.semq.get [] n ++ tail) ∧
        t.cx.pc = s.cx.pc ∧ t.cx.stall.isSome ∧ ∀ r, t.x r = s.x r)

/-- R189 to R194, R339: binding, freeing and reading the status of a stream. A bind reads its descriptor of 64 bytes at a multiple of 64 in the context's own store order, refuses a bad one, and leaves an empty stream of the issuing firing. -/
def Obligations.StreamsAreBoundAndFreed : Prop :=
  ∀ (f : FmtCR) (s : State),
    let n := f.opt.toNat
    let va := (s.x f.xa).toNat
    let t0 := s.core.streamAt n
    let s1 := s.afterRead va 64
    (s.accepts (.strBind f) → va % 64 ≠ 0 → exec (.strBind f) s = s.faultC .descAlign va) ∧
    (∀ d, s.accepts (.strBind f) → s.readDesc va 8 = .ok d → streamBad d = true → exec (.strBind f) s = s1.faultC .streamBad) ∧
    (∀ d, s.accepts (.strBind f) → s.readDesc va 8 = .ok d → streamBad d = false → s.cx.long = true ∨ t0.bound = true → exec (.strBind f) s = s1.faultC .streamBusy) ∧
    (∀ d, s.accepts (.strBind f) → s.readDesc va 8 = .ok d → streamBad d = false → s.cx.long = false → t0.bound = false → ∃ t, exec (.strBind f) s = .next t ∧
      (t.core.streamAt n).bound = true ∧ (t.core.streamAt n).firing = s.cx.firing ∧ (t.core.streamAt n).desc = d ∧ (t.core.streamAt n).fifo = [] ∧ (t.core.streamAt n).taken = 0 ∧
      (∀ m, m ≠ n → t.core.streamAt m = s.core.streamAt m) ∧ t.cx.pc = s.fall.cx.pc ∧ quiet s t) ∧
    (s.accepts (.strFree f) → t0.bound = false → exec (.strFree f) s = .next s.fall) ∧
    (s.accepts (.strFree f) → t0.bound = true → t0.firing ≠ s.cx.firing → exec (.strFree f) s = s.faultC .streamBusy) ∧
    (s.accepts (.strFree f) → t0.bound = true → t0.firing = s.cx.firing → t0.output = true → t0.fifo ≠ [] → exec (.strFree f) s = .next (s.stallOn .waitStream)) ∧
    (s.accepts (.strFree f) → t0.bound = true → t0.firing = s.cx.firing → t0.output = false ∨ t0.fifo = [] → ∃ t, exec (.strFree f) s = .next t ∧ (t.core.streamAt n).bound = false ∧
      (∀ m, m ≠ n → t.core.streamAt m = s.core.streamAt m) ∧ t.cx.pc = s.fall.cx.pc ∧ quiet s t) ∧
    (s.accepts (.strStat f) → exec (.strStat f) s = .next ((s.setX f.xd (BitVec.ofNat 64 ((if t0.bound then 2 ^ 63 else 0) + t0.ctx % 8 * 2 ^ 60 + t0.fifo.length % 16 * 2 ^ 56 +
      ((t0.fault.map (fun p => p.1 % 256)).getD 0) * 2 ^ 48 + min (2 ^ 32 - 1) t0.taken))).fall))

/-- A barrier reference that names object b of field fl for the issuing tag (R226, R227). -/
def barNamed (s : State) (ref : Word) (fl b : Nat) : Prop := s.barRef s.tag ref = some (fl, b)

/-- R226 to R233, R336, R337: the barrier instructions at their core. `bar.init` makes an object with its members, scope and period, its history empty; `bar.arr` and `bar.arrx` release once, as wide as the object's home (R215), send one arrival and hold for its ply; a refused arrival is sent again when its member's lead is below 3; `bar.tst` answers at once with the status of a ply, and `bar.wt` waits while it is open. -/
def Obligations.BarrierInstructions : Prop :=
  (∀ (f : FmtWE) (s : State) (fl b : Nat), s.accepts (.barInit f) → barNamed s (s.x f.xa) fl b →
    let o := s.barAt fl b
    let n := (s.x f.xb).toNat
    let sc := f.opt.toNat % 8
    ((o.valid = true ∧ o.owner ≠ s.tag) ∨ n = 0 ∨ 1024 < n ∨ sc < 2 ∨ 4 < sc → exec (.barInit f) s = s.faultC .barBad 0 (s.x f.xa).toNat) ∧
    (o.valid = false ∨ o.owner = s.tag → 1 ≤ n → n ≤ 1024 → 2 ≤ sc → sc ≤ 4 → ∃ t, exec (.barInit f) s = .next t ∧
      let p := t.barAt fl b
      p.valid = true ∧ p.owner = s.tag ∧ p.mm1 + 1 = n ∧ p.scope = sc ∧ p.tmo = f.ext.toNat ∧ p.pace = f.opt.getLsbD 3 ∧ p.oldest = (if o.valid then (o.oldest + 4) % 2 ^ 32 else 0) ∧
      p.arr = [] ∧ p.bal = [] ∧ p.lead = [] ∧ t.cx.pc = s.fall.cx.pc ∧ (∀ r, t.x r = s.x r) ∧ ∀ a, t.mem.read a = s.mem.read a)) ∧
  (∀ (f : FmtCR) (s : State) (i : Instr) (e : Nat) (fl b : Nat), (i = .barArr f ∧ e = 0) ∨ (i = .barArrx f ∧ e = (s.x f.xd).toNat) → s.accepts i → barNamed s (s.x f.xa) fl b →
    let o := s.barAt fl b
    let m := (s.x f.xb).toNat
    let g := 0x3FF * 2 ^ 54 + 3 * 2 ^ 52 + fl * 2 ^ 45 + 0x300000 + 0x400 * b
    let wide := max o.scope (homeScope (s.reachGpa g))
    let sends := ∃ t a, exec i s = .next t ∧ a ∈ t.net ∧ a.id = s.nextAcc ∧ a.kind = .arrival ∧ a.gpa = g ∧ a.data = e ∧ a.data2 = m ∧ t.cx.hold = some a.id ∧ t.cx.pc = s.cx.pc ∧ ∀ r, t.x r = s.x r
    (∀ p, s.cx.reply = some (.value p) → exec i s = .next ((s.setX f.xd (BitVec.ofNat 64 p)).fall)) ∧
    (∀ c y, s.cx.reply = some (.failed c y) → exec i s = s.faultC c 0 (s.x f.xa).toNat) ∧
    (s.cx.reply = none → s.cx.hold.isSome → exec i s = .next (s.stallOn 0)) ∧
    (s.cx.reply = none → s.cx.hold = none →
      (o.valid = false ∨ o.owner ≠ s.tag ∨ o.mm1 < m → exec i s = s.faultC .barBad 0 (s.x f.xa).toNat) ∧
      (o.valid = true → o.owner = s.tag → m ≤ o.mm1 →
        (2 ^ 39 ≤ e → exec i s = s.faultC .barRange 0 (s.x f.xa).toNat) ∧
        (e < 2 ^ 39 → s.cx.refusedArr = false → (s.storesDone wide = false → exec i s = .next (s.stallOn .waitFence)) ∧ (s.storesDone wide = true → sends)) ∧
        (e < 2 ^ 39 → s.cx.refusedArr = true → (3 ≤ o.lead.get 0 m → exec i s = .next (s.stallOn .waitBar)) ∧ (o.lead.get 0 m < 3 → sends))))) ∧
  (∀ (f : FmtCR) (s : State) (i : Instr) (fl b : Nat), i = .barTst f ∨ i = .barWt f → s.accepts i → barNamed s (s.x f.xa) fl b → s.cx.reply = none →
    let o := s.barAt fl b
    let d := ((s.x f.xb).toNat % 2 ^ 32 + 2 ^ 32 - o.oldest) % 2 ^ 32
    let answers := fun (v : Nat) => exec i s = .next ((s.setX f.xd (BitVec.ofNat 64 v)).fall)
    (o.valid = false ∨ o.owner ≠ s.tag → exec i s = s.faultC .barBad 0 (s.x f.xa).toNat) ∧
    (o.valid = true → o.owner = s.tag →
      (4 ≤ d → d < 2 ^ 31 → exec i s = s.faultC .barPly 0 (s.x f.xa).toNat) ∧ (2 ^ 31 ≤ d → d ≤ 2 ^ 32 - 5 → answers 4) ∧
      (2 ^ 32 - 5 < d → answers (o.hist / 8 ^ (2 ^ 32 - 1 - d) % 8)) ∧
      (d < 4 → i = .barTst f → answers 5) ∧
      (d < 4 → i = .barWt f → ∃ t, exec i s = .next t ∧ t.cx.stall.isSome ∧ t.cx.pc = s.cx.pc ∧ (s.cx.firing, (s.x f.xb).toNat % 2 ^ 32) ∈ (t.barAt fl b).waiters ∧ ∀ r, t.x r = s.x r))) ∧
  (∀ (f : FmtCR) (s : State) (st : Nat) (fl b : Nat), s.accepts (.barWt f) → barNamed s (s.x f.xa) fl b → s.cx.reply = some (.value st) → exec (.barWt f) s = .next ((s.setX f.xd (BitVec.ofNat 64 st)).fall))

/-- Port p holds the messages `l` of port q, oldest first, some in its hardware part and the rest in its overflow part. A message that came into the hardware part from an entry of the overflow queue has the words
that local store holds there (R153). -/
def portHolds (s : State) (u : Nat) (q p : Port) (l : List Msg) : Prop :=
  let bare := fun (m : Msg) => { m with slot := none, words := [] }
  (p.hwPart ++ p.oq).map bare = l.map bare ∧ (∃ n, p.oq = q.oq.drop n) ∧
    ∀ (j : Nat) (m : Msg), p.hwPart[j]? = some m → ∃ m0, l[j]? = some m0 ∧ m.words = (match m0.slot with
      | some n => doublewords m0.words.length (s.mem.readLE (gpaKey (tileGpa u (portOqBase q.word + 64 * n))) (8 * m0.words.length))
      | none => m0.words)

/-- R153, R161, R323, R328: the port instructions of an actor firing's enabled port q. `peek` reads a word of the oldest message, `mcnt` the counts, `mdrop` discards the oldest, and `mtake` takes the oldest with its sender into two vector registers; an empty port makes `mtake` wait, or with its try form give length 0. -/
def Obligations.PortInstructionsReadAndTake : Prop :=
  ∀ (f : FmtCR) (s : State),
    (∀ i n, (i = .peek f ∧ n = f.opt.toNat) ∨ (i = .mcnt f ∧ n = f.opt.toNat) ∨ (i = .mdrop f ∧ n = f.opt.toNat) ∨ (i = .mtake f ∧ n = f.opt.toNat % 4) → s.accepts i → s.ownPort n = none → exec i s = s.faultC .badRegister) ∧
    (∀ q, s.accepts (.peek f) → s.ownPort f.opt.toNat = some q → exec (.peek f) s = .next ((s.setX f.xd (match q.hwPart with
      | m :: _ => if (s.x f.xa).toNat < 8 then m.words.getD (s.x f.xa).toNat 0 else 0
      | [] => 0)).fall)) ∧
    (∀ q, s.accepts (.mcnt f) → s.ownPort f.opt.toNat = some q →
      exec (.mcnt f) s = .next ((s.setX f.xd (BitVec.ofNat 64 (q.hwPart.length + q.oq.length + (if q.word.toNat / 2 ^ 61 % 4 = 1 then q.resv.length else 0) * 2 ^ 16 + (if q.spill then 2 ^ 32 else 0)))).fall)) ∧
    (∀ q, s.accepts (.mdrop f) → s.ownPort f.opt.toNat = some q →
      let n := min (s.x f.xa).toNat (q.hwPart.length + q.oq.length)
      ∃ t p, exec (.mdrop f) s = .next t ∧ t.ownPort f.opt.toNat = some p ∧ portHolds s (tileOfCtx s.cur) q p ((q.hwPart ++ q.oq).drop n) ∧ t.x f.xd = (if f.xd = 0 then 0 else BitVec.ofNat 64 n) ∧ (∀ r, r ≠ f.xd → t.x r = s.x r) ∧
        t.cx.pc = s.fall.cx.pc) ∧
    (∀ q m rest, s.accepts (.mtake f) → s.ownPort (f.opt.toNat % 4) = some q → q.hwPart = m :: rest → s.streamOf f.xd.toNat = none → s.streamOf (f.xd.toNat + 1) = none →
      ∃ t p, exec (.mtake f) s = .next t ∧ t.ownPort (f.opt.toNat % 4) = some p ∧ portHolds s (tileOfCtx s.cur) q p (rest ++ q.oq) ∧
        (∀ j, j < 4 → BitVec.ofNat 64 (t.ownVec f.xd.toNat / 2 ^ (64 * j)) = m.words.getD j 0) ∧ (∀ j, j < 4 → BitVec.ofNat 64 (t.ownVec (f.xd.toNat + 1) / 2 ^ (64 * j)) = m.words.getD (4 + j) 0) ∧
        t.x f.xa = (if f.xa = 0 then 0 else BitVec.ofNat 64 m.words.length) ∧ t.cx.senderLo = m.scapLo ∧ t.cx.senderHi = m.scapHi ∧ t.cx.pc = s.fall.cx.pc) ∧
    (∀ q, s.accepts (.mtake f) → s.ownPort (f.opt.toNat % 4) = some q → q.hwPart = [] → s.streamOf f.xd.toNat = none → s.streamOf (f.xd.toNat + 1) = none →
      (f.opt.toNat < 4 → exec (.mtake f) s = .next (s.stallOn 0)) ∧
      (4 ≤ f.opt.toNat → ∃ t, exec (.mtake f) s = .next t ∧ t.ownVec f.xd.toNat = 0 ∧ t.ownVec (f.xd.toNat + 1) = 0 ∧ t.x f.xa = 0 ∧ t.cx.pc = s.fall.cx.pc))

/-- What a send takes: form, vector register, port, class, capability, whether it asks for a reply, network, and release scope plus one (R325). -/
structure SendParts where
  len : Nat
  port : Nat
  lo : Word
  hi : Word
  vn : Nat
  rq : Bool
  rel : Nat

/-- The parts of a send that R325 names, for a vector register VM that is bound to no stream. -/
def sendParts (i : Instr) (f : FmtCR) (s : State) : Option SendParts :=
  let len := s.ownVec f.xa.toNat % 8 + 1
  let own := decide (f.xb = 0)
  let low := fun (m : Nat) => if m % 2 = 1 then 0 else if m / 2 % 2 = 1 then 1 else if m / 4 % 2 = 1 then 2 else 3
  let p := f.opt.toNat / 4 % 4
  match i with
  | .send _ => some ⟨len, p, s.x f.xb, s.x (f.xb + 1), if f.opt.getLsbD 4 then 3 else 0, f.opt.getLsbD 5, f.opt.toNat / 64⟩
  | .sendSys _ => some ⟨len, p, s.x f.xb, s.x (f.xb + 1), 2, false, f.opt.toNat / 64⟩
  | .sendr _ =>
    let lo := if own then s.cx.senderLo else s.x f.xb
    some ⟨len, low (lo.toNat / 2 ^ 18 % 16), lo, if own then s.cx.senderHi else s.x (f.xb + 1), 1, false, f.opt.toNat / 64⟩
  | _ => none

/-- R155, R156, R158, R166, R169, R325, R326: a send whose checks pass, with room in its queue and no release to wait for, appends one message with the words of its vector registers, the capability and the port to the queue of its network, reserves a reply place where it asks for one,
writes XD and retires. A forged capability or a missing right freezes the context, nothing sent. -/
def sendsAppendOneMessage : Prop :=
  ∀ (i : Instr) (f : FmtCR) (s : State) (p : SendParts), i = .send f ∨ i = .sendSys f ∨ i = .sendr f → sendParts i f s = some p → s.accepts i →
    s.streamOf f.xa.toNat = none → s.streamOf (f.xa.toNat + 1) = none → p.len ≤ 4 ∨ f.xa.toNat ≠ 15 →
    let w0 := s.ownVec f.xa.toNat % 2 ^ 64
    s.level ≥ 2 ∨ reservedClass (w0 / 2 ^ 48) = false →
    (i = .sendr f → ¬ (p.lo = 0 ∧ p.hi = 0) ∧ (if f.xb = 0 then s.cx.port else s.x f.xd).toNat / 2 ^ 6 % 4 = 1) →
    (s.capGenuine p.lo p.hi = false → exec i s = s.faultC .capForged 0 p.lo.toNat) ∧
    (s.capGenuine p.lo p.hi = true → p.lo.getLsbD 14 = false ∨ p.lo.getLsbD 28 = true ∨ p.lo.getLsbD (18 + p.port) = false → exec i s = s.faultC .capRights 0 p.lo.toNat) ∧
    (s.capGenuine p.lo p.hi = true → p.lo.getLsbD 14 = true → p.lo.getLsbD 28 = false → p.lo.getLsbD (18 + p.port) = true → p.rq = true → s.replyRoom = none → exec i s = s.faultC .replyNoslot 0 p.lo.toNat) ∧
    (s.capGenuine p.lo p.hi = true → p.lo.getLsbD 14 = true → p.lo.getLsbD 28 = false → p.lo.getLsbD (18 + p.port) = true → p.rq = false ∨ s.replyRoom.isSome →
      p.rel = 0 ∨ s.storesDone (max (p.rel - 1) (s.destScope p.lo)) = true → s.declaredSend p.vn = true ∨ s.core.queueRoom p.vn = true →
      ∃ t m, exec i s = .next t ∧ t.core.queue p.vn = s.core.queue p.vn ++ [m] ∧ (∀ v, v ≠ p.vn → t.core.queue v = s.core.queue v) ∧ m.capLo = p.lo ∧ m.port = p.port ∧ m.vn = p.vn ∧ m.tag = s.tag ∧
        m.firing = s.cx.firing ∧ m.words.length = p.len ∧
        (∀ j, j < p.len → m.words.getD j 0 = BitVec.ofNat 64 (if j < 4 then s.ownVec f.xa.toNat / 2 ^ (64 * j) else s.ownVec (f.xa.toNat + 1) / 2 ^ (64 * (j - 4)))) ∧
        t.x f.xd = (if f.xd = 0 ∨ p.rq = false then 0 else BitVec.ofNat 64 m.rtag) ∧ (∀ r, r ≠ f.xd → t.x r = s.x r) ∧ t.cx.pc = s.fall.cx.pc ∧ ∀ a, t.mem.read a = s.mem.read a)

/-- R158, R159, R326: a send that finds no room in its queue waits, answers 2^63, or parks its firing with reason `SENDQ_FULL`, as its FULL field says; nothing is sent. -/
def fullSendQueuesWaitAnswerOrPark : Prop :=
  ∀ (i : Instr) (f : FmtCR) (s : State) (p : SendParts), i = .send f ∨ i = .sendSys f → sendParts i f s = some p → s.accepts i → s.streamOf f.xa.toNat = none → s.streamOf (f.xa.toNat + 1) = none →
    p.len ≤ 4 ∨ f.xa.toNat ≠ 15 → s.level ≥ 2 ∨ reservedClass (s.ownVec f.xa.toNat % 2 ^ 64 / 2 ^ 48) = false → s.capGenuine p.lo p.hi = true →
    p.lo.getLsbD 14 = true → p.lo.getLsbD 28 = false → p.lo.getLsbD (18 + p.port) = true → p.rq = false ∨ s.replyRoom.isSome → p.rel = 0 →
    s.declaredSend p.vn = false → s.core.queueRoom p.vn = false →
    (f.opt.toNat % 4 = 0 → exec i s = .next (s.stallOn .waitSendq)) ∧
    (f.opt.toNat % 4 = 1 → exec i s = .next ((s.setX f.xd (BitVec.ofNat 64 (2 ^ 63))).fall)) ∧
    (f.opt.toNat % 4 = 2 → s.cx.np = true → exec i s = s.faultC .npState) ∧
    (f.opt.toNat % 4 = 2 → s.cx.np = false → s.core.parkRoom = false → ∃ t, exec i s = .next t ∧ t.cx.st = 2 ∧ t.cx.reason = Cause.sendqFull ∧ t.cx.pc = s.cx.pc ∧ t.core.sendq = s.core.sendq) ∧
    (f.opt.toNat % 4 = 2 → s.cx.np = false → s.core.parkRoom = true → ∃ t, exec i s = .next t ∧ inParkArea s t Cause.sendqFull s.cx.pc ∧ t.core.sendq = s.core.sendq)

/-- R156 to R159, R327, R328: sends. -/
def Obligations.SendsQueueOrWait : Prop := sendsAppendOneMessage ∧ fullSendQueuesWaitAnswerOrPark

/-- R53, R54, R60, R340: the pip instructions. A request of 1 to F pips by the issue core at a class of at most its own is noted unless the tile holds as much; a release lowers the holding at once; a lease by supervisor level stands in both bankers; the status is the banker's. -/
def Obligations.PipInstructions : Prop :=
  ∀ (f : FmtCR) (s : State),
    let t := tileOfCtx s.cur
    let n := (s.x f.xa).toNat
    let c := f.opt.toNat % 4
    (∀ i, i = .pipReq f ∨ i = .pipRel f → s.accepts i → isIssueCore (coreOfCtx s.cur) = false → exec i s = s.faultC .pipNotIssue) ∧
    (s.accepts (.pipReq f) → isIssueCore (coreOfCtx s.cur) = true → n = 0 ∨ fullRate (tileKind t) < n → exec (.pipReq f) s = s.faultC .pipRange) ∧
    (s.accepts (.pipReq f) → isIssueCore (coreOfCtx s.cur) = true → n ≠ 0 → n ≤ fullRate (tileKind t) → s.cx.cls < c → exec (.pipReq f) s = s.faultC .pipClass) ∧
    (s.accepts (.pipReq f) → isIssueCore (coreOfCtx s.cur) = true → n ≠ 0 → n ≤ fullRate (tileKind t) → c ≤ s.cx.cls → ∃ u, exec (.pipReq f) s = .next u ∧
      u.tile.req = (if n ≤ s.tile.h then s.tile.req else some { target := n, cls := c, notify := decide (4 ≤ f.opt.toNat), age := s.rtime }) ∧ u.tile.h = s.tile.h ∧ u.cx.pc = s.fall.cx.pc ∧ ∀ r, u.x r = s.x r) ∧
    (s.accepts (.pipRel f) → isIssueCore (coreOfCtx s.cur) = true → s.tile.h < n → exec (.pipRel f) s = s.faultC .pipRange) ∧
    (s.accepts (.pipRel f) → isIssueCore (coreOfCtx s.cur) = true → n ≤ s.tile.h → ∃ u, exec (.pipRel f) s = .next u ∧ u.tile.h = n ∧ (n = 0 → u.tile.hclass = 0) ∧
      (∀ r, u.tile.req = some r → r.target ≤ n) ∧ u.cx.pc = s.fall.cx.pc ∧ ∀ r, u.x r = s.x r) ∧
    (s.accepts (.pipLend f) → s.level = 0 → exec (.pipLend f) s = s.faultC .pipPriv) ∧
    (∀ i j p, s.accepts (.pipLend f) → 1 ≤ s.level → s.bankPaused = false → s.hub.freeLease = some i → (s.hubOf n).freeLease = some j → 100 ≤ (s.x f.xd).toNat → (s.x f.xd).toNat < 2 ^ 32 →
      s.partOfTag s.tag = some p → n ∈ (s.partOf p).fields → n ≠ fieldOfCtx s.cur → 1 ≤ (s.x f.xb).toNat → (s.x f.xb).toNat ≤ s.freeOf (fieldOfCtx s.cur) →
      ∃ u, exec (.pipLend f) s = .next u ∧ (u.hub.leases.get {} i).valid = true ∧ (u.hub.leases.get {} i).peer = n ∧ (u.hub.leases.get {} i).count = (s.x f.xb).toNat ∧
        ((u.hubOf n).leases.get {} j).valid = true ∧ ((u.hubOf n).leases.get {} j).peer = fieldOfCtx s.cur ∧ ((u.hubOf n).leases.get {} j).count = (s.x f.xb).toNat ∧
        u.x f.xd = (if f.xd = 0 then 0 else BitVec.ofNat 64 i) ∧ ∀ r, r ≠ f.xd → u.x r = s.x r) ∧
    (s.accepts (.pipStat f) → exec (.pipStat f) s = .next ((s.setX f.xd (BitVec.ofNat 64 (s.bkstat (fieldOfCtx s.cur)))).fall))

/-! ### Engines -/

/-- The tile kind that an engine instruction needs, and the resource bits that it uses (R178, R179): 0 D, 1 S, 2 A, 3 V. -/
def engineNeeds : Instr → Option (Nat × Nat)
  | .mma f | .mmaRing f | .accZero f | .accLd f | .accSt f | .accProm f => some (0, 2 ^ (f.opt.toNat % 4))
  | .mxLdb _ => some (0, 0)
  | .spMm _ | .spBm _ | .spDrop _ | .spGrow _ | .spCnt _ => some (1, 15)
  | .attQk _ | .attSm _ | .attPv _ | .attFin _ => some (2, 15)
  | .modeL => some (3, 15)
  | _ => none

/-- R178, R179: an engine instruction on a tile of another kind faults with `ENGINE_KIND` (0x60), on a feed core with `ENGINE_FEED` (0x61), and where another actor of the tile claims a resource that it uses with `ENGINE_CLAIM` (0x62), in this order. -/
def engineInstructionsCheckTheirTile : Prop :=
  ∀ (i : Instr) (s : State) (kind mask : Nat), engineNeeds i = some (kind, mask) → s.accepts i →
    (tileKind (tileOfCtx s.cur) ≠ kind → exec i s = s.faultC 0x60) ∧
    (tileKind (tileOfCtx s.cur) = kind → isIssueCore (coreOfCtx s.cur) = false → exec i s = s.faultC 0x61) ∧
    (tileKind (tileOfCtx s.cur) = kind → isIssueCore (coreOfCtx s.cur) = true → mask ≠ 0 → s.claimedByOther mask = true → exec i s = s.faultC 0x62)

/-- The state after a paced instruction of weight 4 has set NEXTOK (R50, R52). -/
def pacedBy4 (s : State) : State :=
  s.updCurTile (fun t => { t with nextok := s.cyc + issueInterval s.tile.h (fullRate (tileKind (tileOfCtx s.cur))), lastPaced := s.rtime })

/-- An engine instruction may start: its role is right, the engine is not occupied, and the pace allows it. -/
def engineReady (s : State) (kind mask : Nat) : Prop := s.engineRole kind mask = none ∧ s.eng.busyUntil ≤ s.cyc ∧ s.tile.h ≠ 0 ∧ s.tile.nextok ≤ s.cyc

/-- A bundle changed no register of its context, no other context and no byte of memory. -/
def calm (s t : State) : Prop :=
  (∀ r, t.x r = s.x r) ∧ (∀ r, t.k r = s.k r) ∧ t.cx.v = s.cx.v ∧ t.cx.fstat = s.cx.fstat ∧ othersKept s t ∧ ∀ b, t.mem.read b = s.mem.read b

/-- An engine instruction took effect: the engine holds `e` and is occupied for some cycles, its window still shows the old contents, and the bundle retired without touching a register, another context or memory. -/
def engineEffect (s t : State) (e : Engine) (cycles : Nat) : Prop :=
  t.eng = { e with busyUntil := s.cyc + cycles, inFlight := true } ∧ t.tile.engShown = some s.tile.shown ∧ t.cx.pc = s.fall.cx.pc ∧ (∀ r, t.x r = s.x r) ∧ (∀ r, t.k r = s.k r) ∧ t.cx.v = s.cx.v ∧
    othersKept s t ∧ ∀ a, t.mem.read a = s.mem.read a

/-- R50, R52, R370: an engine instruction with its role in order waits while the engine is occupied; a paced one waits at holding 0 and before NEXTOK. Nothing but the stall, and the count of stalls, changes. -/
def engineInstructionsWaitTheirTurn : Prop :=
  ∀ (i : Instr) (f : FmtWE) (s : State), s.accepts i →
    (i = .accZero f ∧ s.engineRole 0 (2 ^ (f.opt.toNat % 4)) = none) ∨ (i = .spMm f ∧ s.engineRole 1 15 = none) ∨ (i = .spBm f ∧ s.engineRole 1 15 = none) ∨ (i = .spDrop f ∧ s.engineRole 1 15 = none) ∨
      (i = .spGrow f ∧ s.engineRole 1 15 = none) ∨ (i = .spCnt f ∧ s.engineRole 1 15 = none) →
    (s.cyc < s.eng.busyUntil → exec i s = .next (s.stallOn 0)) ∧
    (s.eng.busyUntil ≤ s.cyc → i = .spMm f ∨ i = .spBm f ∨ i = .spDrop f ∨ i = .spGrow f →
      (s.tile.h = 0 → exec i s = .next (s.heldByPace .waitPip)) ∧ (s.tile.h ≠ 0 → s.cyc < s.tile.nextok → exec i s = .next (s.heldByPace 0)))

/-- R178, R179, R370: what every engine instruction checks and waits for. -/
def Obligations.EngineInstructionsCheckAndWait : Prop := engineInstructionsCheckTheirTile ∧ engineInstructionsWaitTheirTurn

/-- The operands of a dense multiply (R376 to R378): the rows of A as planned, the columns of latch `l`, the depth that KV names, and the row mask of XC. -/
def denseArgs (s : State) (f : FmtWE) (p : RowPlan) (l : Latch) : MulArgs :=
  { fa := p.fmt, fb := l.fmt, k := l.k, kv := if f.ext.toNat = 0 then l.k else f.ext.toNat, rowm := if f.xc = 0 then 2 ^ 32 - 1 else (s.x f.xc).toNat % 2 ^ 32,
    rows := (s.readRows p l.k).map (fun r => (r.values p.fmt s.core.lut, r.scales)),
    cols := (List.range 32).map (fun c => ((l.column c).values l.fmt s.core.lut, (l.column c).scales)) }

/-- What a dense multiply accepts of a page beside R263: a format of the group of the latch's. -/
def denseTakes (s : State) (l : Latch) (fmt geo : Nat) : Option Cause :=
  match s.denseAccepts .fmtUnsupported fmt geo with
  | some c => some c
  | none => if denseGroup fmt ≠ denseGroup l.fmt then some .mmaFmt else none

/-- R270, R271, R376 to R381: `mma` and `mma.ring`, once the engine, the latch and the rows of A are there. The accumulator takes the products of its blocks: float lanes add the rounded contribution of each block in turn, rows that the mask leaves out keep their lanes; with no trap pending it is
occupied as R374 says, and the context issues again four cycles later at the earliest. `mma.ring` also sends the latch to the next live stage. The promotion before a block of another exponent is read as log 23 says. -/
def Obligations.DenseMultiplyAddsBlocks : Prop :=
  ∀ (f : FmtWE) (s : State) (i : Instr) (ring : Bool) (p : RowPlan), (i = .mma f ∧ ring = false) ∨ (i = .mmaRing f ∧ ring = true) → s.accepts i →
    let n := f.opt.toNat % 4
    let j := f.opt.toNat / 4 % 2
    let l := s.eng.latchAt j
    let s1 := pacedBy4 s
    let m := denseArgs s1 f p l
    let a := (s.eng.accum n).multiply m s.eng.period
    engineReady s 0 (2 ^ n) → s.eng.pois.getLsbD n = false → (ring = true → 2 ≤ (s.ringLive (tileOfCtx s.cur)).length) → l.valid = true → l.pend = false → l.ready ≤ s.cyc →
    s1.rowPlan .read (s.x f.xa).toNat (s.x f.xb).toNat 32 (fun _ => l.k) (denseTakes s1 l) (if m.kv > l.k then some .immRange else none) = .ok p → s1.rowsOpen p = true →
    mulChecks (f.opt.getLsbD 3) (f.opt.getLsbD 4) m a = none →
    ∃ t, exec i s = .next t ∧ t.cx.pc = s.fall.cx.pc ∧ calm s t ∧ s.cyc + 4 ≤ t.cx.ready ∧ t.eng.busyUntil = s.cyc + (l.k * 1024 / denseRate p.fmt l.fmt * issueInterval s.tile.h 4 + 3) / 4 ∧
      (∀ q, q < 1024 → (t.eng.mem.get 0 (0x400 * n + q)).toNat = (a.lanes.getD q {}).v % 2 ^ 32) ∧ (∀ q, q < 0x400 * n ∨ 0x400 * n + 1024 ≤ q → t.eng.mem.get 0 q = s.eng.mem.get 0 q) ∧
      (denseGroup p.fmt = 1 ∨ denseGroup p.fmt = 3 → s.eng.inner.getLsbD n = false → ∀ r c, r < 32 → c < 32 → (a.lanes.getD (32 * r + c) {}).v =
        if m.rowm.testBit r then
          (List.range (l.k / 32)).foldl (fun v b => addContrib v (blockContrib (m.sa r b) (m.sb c b)
            (List.zip (((m.rows.getD r ([], [])).1.drop (32 * b)).take (min 32 (m.kv - 32 * b))) (((m.cols.getD c ([], [])).1.drop (32 * b)).take 32)))) (s.eng.mem.get 0 (0x400 * n + 32 * r + c)).toNat
        else (s.eng.mem.get 0 (0x400 * n + 32 * r + c)).toNat) ∧
      (ring = false → t.rings = s.rings) ∧
      (ring = true → ∃ x, t.rings = s.rings ++ [x] ∧ x.src = tileOfCtx s.cur ∧ x.srcLatch = j ∧ x.latch = 1 - j ∧ x.contents = l ∧ (t.eng.latchAt j).send = true)

/-- R373, R375, R380, R382: `mx.ldb` fills a latch with 32 columns of the planned rows, which can be read four cycles later (R414); `acc.zero` clears an accumulator, `acc.ld` reads its lanes from FP32 or BF16 rows, `acc.prom` promotes it, and `acc.st` stores its lanes, promoted, as rows. ACCST.SAT stays but for what a promotion leaves. -/
def Obligations.AccumulatorsLoadStoreAndClear : Prop :=
  ∀ (f : FmtWE) (s : State),
    let n := f.opt.toNat % 4
    let j := f.opt.toNat / 4 % 2
    let ts := f.opt.getLsbD 3
    let free := s.engineRole 0 (2 ^ n) = none ∧ s.eng.busyUntil ≤ s.cyc
    (∀ p, s.accepts (.mxLdb f) → s.engineRole 0 0 = none → (s.eng.latchAt j).send = false → (s.eng.latchAt j).pend = false → s.eng.busyUntil ≤ s.cyc →
      s.rowPlan .read (s.x f.xa).toNat (s.x f.xb).toNat 32 latchDepth (s.denseAccepts .latchFmt) none = .ok p → s.rowsOpen p = true →
      ∃ t, exec (.mxLdb f) s = .next t ∧ t.cx.pc = s.fall.cx.pc ∧ calm s t ∧ (t.eng.latchAt j).valid = true ∧ (t.eng.latchAt j).fmt = p.fmt ∧ (t.eng.latchAt j).geo = p.geo ∧
        (t.eng.latchAt j).k = latchDepth p.fmt ∧ (t.eng.latchAt j).ready = s.cyc + 4 ∧ s.cyc + 4 ≤ t.cx.ready ∧ t.eng.latchAt (1 - j) = s.eng.latchAt (1 - j) ∧ t.eng.mem = s.eng.mem) ∧
    (s.accepts (.accZero f) → free → ∃ t, exec (.accZero f) s = .next t ∧ t.cx.pc = s.fall.cx.pc ∧ calm s t ∧ t.eng.busyUntil = s.cyc + 1 ∧
      (∀ q, q < 1024 → t.eng.mem.get 0 (0x400 * n + q) = 0) ∧ (∀ q, q < 0x400 * n ∨ 0x400 * n + 1024 ≤ q → t.eng.mem.get 0 q = s.eng.mem.get 0 q) ∧
      t.eng.inner.getLsbD n = false ∧ t.eng.pois.getLsbD n = false ∧ t.eng.sat = s.eng.sat ∧ t.eng.blk.get 0 n = 0) ∧
    (∀ p, s.accepts (.accLd f) → free → s.accPlan .read f = .ok p → s.rowsOpen p = true → ∃ t, exec (.accLd f) s = .next t ∧ t.cx.pc = s.fall.cx.pc ∧ calm s t ∧ t.eng.busyUntil = s.cyc + 4 ∧
      (∀ r c, r < 32 → c < 32 →
        let code := ((s.readRows p 32).getD r ⟨[], []⟩).codes.getD c 0
        (t.eng.mem.get 0 (0x400 * n + 32 * r + c)).toNat = (if p.fmt = 5 then code else fp32.round (bf16.decode code) .rne) % 2 ^ 32) ∧
      (∀ q, q < 0x400 * n ∨ 0x400 * n + 1024 ≤ q → t.eng.mem.get 0 q = s.eng.mem.get 0 q) ∧ t.eng.pois.getLsbD n = false) ∧
    (s.accepts (.accProm f) → free → s.eng.pois.getLsbD n = false → (ts = true → ((s.eng.accum n).promote).trap = none) → ∃ t, exec (.accProm f) s = .next t ∧ t.cx.pc = s.fall.cx.pc ∧ calm s t ∧
      t.eng.busyUntil = s.cyc + 1 ∧ t.eng.inner.getLsbD n = false ∧ t.eng.blk.get 0 n = 0 ∧
      (∀ q, q < 1024 → (s.eng.lanes.get {} (1024 * n + q)).nanp = false → (t.eng.mem.get 0 (0x400 * n + q)).toNat =
        fp32.round (XNum.add false (fp32.decode (s.eng.mem.get 0 (0x400 * n + q)).toNat) ((XNum.ofInt (s.eng.lanes.get {} (1024 * n + q)).i).scale (s.eng.lanes.get {} (1024 * n + q)).x)) .rne % 2 ^ 32)) ∧
    (∀ p, s.accepts (.accSt f) → free → s.eng.pois.getLsbD n = false → s.accPlan .write f = .ok p → s.rowsFull p = false →
      let a0 := s.eng.accum n
      let a := if a0.inner then a0.promote else a0
      let rm := RoundMode.ofCode s.cx.rm (f.opt.extractLsb' 4 3).toNat
      (ts = true → a.trap = none) → ¬ (p.fmt = 6 ∧ rm = .sr ∧ s.core.seed = 0) → ∃ t l, exec (.accSt f) s = .next t ∧ sentBy s t .store l ∧ t.cx.pc = s.fall.cx.pc ∧
        l.map (fun x => (x.va, x.gpa, x.size)) = p.data.flatMap s.cutPieces ∧
        accessData l = rowsData (p.data.map (fun ps => (ps.map (fun q => q.len)).sum))
          ((List.range 32).map (fun r => packLanes (fmtBits p.fmt) (((accCodes p.fmt rm s.seed (a.lanes.map (fun x => x.v))).1.drop (32 * r)).take 32))) ∧
        t.eng.busyUntil = s.cyc + 4 ∧ (∀ r, t.x r = s.x r) ∧ ∀ b, t.mem.read b = s.mem.read b)

/-- R384 to R390: the attention steps in the order of R385. `att.qk` loads a query block with its LOADQ form and forms scores from the planned keys; `att.sm` leaves zero for every key that is masked and sets the state 3; `att.pv` adds the planned values to the output and counts a block; `att.fin` stores the divided rows and sets the state 0. A step
out of order faults with `ATT_ORDER`. -/
def Obligations.AttentionStepsInOrder : Prop :=
  ∀ (f : FmtWE) (s : State),
    let s1 := pacedBy4 s
    let loads := f.opt.getLsbD 0
    let ok := fun (states : List Nat) (reads : BitVec 4) => engineReady s 2 15 ∧ s.eng.attPois &&& reads = 0 ∧ s.eng.attState ∈ states
    (∀ i states reads, (i = .attQk f ∧ states = (if loads then [0, 1, 2, 3, 4] else [1, 4]) ∧ reads = (if loads then 0 else 8)) ∨ (i = .attSm f ∧ states = [2] ∧ reads = 7) ∨ (i = .attPv f ∧ states = [3] ∧ reads = 7) ∨
        (i = .attFin f ∧ states = [4] ∧ reads = 3) → s.accepts i → s.engineRole 2 15 = none → s.eng.attPois &&& reads = 0 → s.eng.attState ∉ states → exec i s = s.faultC .attOrder) ∧
    (∀ kp, s.accepts (.attQk f) → loads = false → ok [1, 4] 8 →
      let nk := if f.ext.toNat / 2 ^ 16 % 2 ^ 7 = 0 then 64 else f.ext.toNat / 2 ^ 16 % 2 ^ 7
      s1.rowPlan .read (s.x f.xa).toNat (s.x f.xb).toNat (min nk 64) (fun _ => s.eng.attD) (s1.attAccepts [6, 8, 9] [0, 1, 2] (if nk > 64 then some .attLen else none)) none = .ok kp → s1.rowsOpen kp = true →
      ∃ t, exec (.attQk f) s = .next t ∧ engineEffect s t (s.eng.formScores kp.fmt nk s.eng.attD (s1.readRows kp s.eng.attD)) (occupancyOf ((16 * nk * s.eng.attD + 2047) / 2048) s.tile.h 2) ∧ t.eng.attState = 2 ∧ t.eng.attNk = nk) ∧
    (∀ qp kp, s.accepts (.attQk f) → loads = true → ok [0, 1, 2, 3, 4] 0 →
      let d := f.ext.toNat % 256
      let qn := if f.ext.toNat / 256 % 32 = 0 then 16 else f.ext.toNat / 256 % 32
      let nk := if f.ext.toNat / 2 ^ 16 % 2 ^ 7 = 0 then 64 else f.ext.toNat / 2 ^ 16 % 2 ^ 7
      d = 32 ∨ d = 64 ∨ d = 96 ∨ d = 128 → qn ≤ 16 →
      s1.rowPlan .read (s.x f.xc).toNat (2 * d) qn (fun _ => d) (s1.attAccepts [6] [0] none) none = .ok qp →
      s1.rowPlan .read (s.x f.xa).toNat (s.x f.xb).toNat (min nk 64) (fun _ => d) (s1.attAccepts [6, 8, 9] [0, 1, 2] (if nk > 64 then some .attLen else none)) none = .ok kp →
      s1.rowsOpen qp = true → s1.rowsOpen kp = true → ∃ t, exec (.attQk f) s = .next t ∧
        engineEffect s t ((s.eng.loadQueries d qn (s1.readRows qp d)).formScores kp.fmt nk d (s1.readRows kp d)) (occupancyOf ((16 * nk * d + 2047) / 2048 + 4) s.tile.h 2) ∧
        t.eng.attState = 2 ∧ t.eng.attD = d ∧ t.eng.attQn = qn ∧ t.eng.attBlocks = 0) ∧
    (s.accepts (.attSm f) → ok [2] 7 → (s.x f.xb).toNat ≤ 64 → ∃ t, exec (.attSm f) s = .next t ∧ t.eng.attState = 3 ∧ t.cx.pc = s.fall.cx.pc ∧ calm s t ∧ t.eng.busyUntil = s.cyc + occupancyOf 16 s.tile.h 2 ∧
      ∀ r k, r < 16 → k < 64 → s.eng.attNk ≤ k ∨ (s.x f.xb).toNat ≤ k ∨ (loads = true ∧ (s.x f.xc).toNat % 2 ^ 32 + r < (s.x f.xc).toNat / 2 ^ 32 + k) → t.eng.mem.get 0 (0x400 + 64 * r + k) = 0) ∧
    (∀ p, s.accepts (.attPv f) → ok [3] 7 →
      s1.rowPlan .read (s.x f.xa).toNat (s.x f.xb).toNat s.eng.attNk (fun _ => s.eng.attD) (s1.attAccepts [6, 8, 9] [0, 1, 2] none) none = .ok p → s1.rowsOpen p = true →
      ∃ t, exec (.attPv f) s = .next t ∧ t.eng.attState = 4 ∧ t.eng.attBlocks = (s.eng.attBlocks + 1) % 2 ^ 32 ∧ t.cx.pc = s.fall.cx.pc ∧ calm s t ∧
        (∀ q, q < 0x1800 → t.eng.mem.get 0 q = s.eng.mem.get 0 q)) ∧
    (∀ p mp, s.accepts (.attFin f) → ok [4] 3 → (loads = false → mp = []) →
      (loads = true → ∃ q, mp = q.data ∧ s1.rowPlan .write (s.x f.xc).toNat 128 1 (fun _ => 32) (fun fmt geo => match finAccepts [5] (s.x f.xc).toNat 128 fmt geo with
        | some c => some c
        | none => if (s.x f.xc).toNat % 128 ≠ 0 then some .misaligned else none) none = .ok q) → s1.piecesFull mp.flatten = false →
      s1.rowPlan .write (s.x f.xa).toNat (s.x f.xb).toNat s.eng.attQn (fun _ => s.eng.attD) (finAccepts [5, 6] (s.x f.xa).toNat (s.x f.xb).toNat) none = .ok p → s1.rowsFull p = false →
      ∃ t l, exec (.attFin f) s = .next t ∧ sentBy s t .store l ∧ l.map (fun x => (x.va, x.gpa, x.size)) = p.data.flatMap s1.cutPieces ++ mp.flatMap s1.cutPieces ∧
        (let sizes := fun (d : List (List Piece)) => d.map (fun ps => (ps.map (fun q => q.len)).sum)
        accessData l = rowsData (sizes p.data) ((List.range s.eng.attQn).map (fun r => packLanes (fmtBits p.fmt) (s.eng.finRow (if p.fmt = 5 then fp32 else bf16) r))) +
          2 ^ (8 * (sizes p.data).sum) * rowsData (sizes mp) [packLanes 32 ((List.range 32).map (fun q => (s.eng.mem.get 0 (0x800 + q)).toNat))]) ∧ t.eng.attState = 0 ∧ t.eng.mem = s.eng.mem ∧ t.cx.pc = s.fall.cx.pc ∧
        (∀ r, t.x r = s.x r) ∧ ∀ b, t.mem.read b = s.mem.read b)

/-- R408 to R412: the sparse steps, once their operands are planned. `sp.mm` and `sp.bm` add each row's runs of at most 32 products to the lanes of its row of SACC and touch no other row; `sp.drop` and `sp.grow` count rows and positions and send stores; `sp.cnt` reads a counter and with its clear form clears it. -/
def Obligations.SparseStepsWorkOnRows : Prop :=
  ∀ (f : FmtWE) (s : State),
    let s1 := pacedBy4 s
    let zero := f.opt.getLsbD 1
    let row := fun (t : State) (q c : Nat) => (t.eng.mem.get 0 (64 * q + c)).toNat
    (∀ dps rps rows, s.accepts (.spMm f) → engineReady s 1 15 →
      let nr := f.ext.toNat % 64 + 1
      let row0 := f.ext.toNat / 64 % 64
      let d := doublewords 4 (s1.piecesValue dps)
      let rp := unpackLanes 32 (nr + 1) (s1.piecesValue rps)
      s1.rawRun .read (s.x f.xa).toNat 32 = .ok dps → s1.piecesOpen dps = true → (d.getD 3 0).toNat < 2 ^ 32 →
      s1.rawRun .read (d.getD 0 0).toNat (4 * (nr + 1)) = .ok rps → s1.piecesOpen rps = true →
      s1.readCols (d.getD 1 0).toNat ((List.range nr).map (fun r => (rp.getD r 0, rp.getD (r + 1) 0))) = .ok rows → nr + row0 ≤ 64 → f.opt.getLsbD 0 = false ∨ (∀ r ∈ rows, r.fallen = false) →
      ((∀ r ∈ rows, r.cols = []) → ∃ t, exec (.spMm f) s = .next t ∧ t.cx.pc = s.fall.cx.pc ∧ calm s t ∧ t.eng.busyUntil = s.cyc + occupancyOf 1 s.tile.h 1 ∧
        (∀ q c, c < 64 → row t q c = if row0 ≤ q ∧ q < row0 + nr ∧ zero = true then 0 else row s q c)) ∧
      (∀ vfmt vgeo vps bp, s1.csrVals (d.getD 2 0).toNat rows = .ok (some (vfmt, vgeo, vps)) →
        (∀ r ∈ rows, ∀ q ∈ r.cols, q < (d.getD 3 0).toNat) → (d.getD 2 0).toNat % (fmtBits vfmt / 8) = 0 →
        let used := (rows.flatMap (fun r => r.cols)).eraseDups
        s1.sparseAccepts [0] none vfmt vgeo = none →
        s1.planAt .read (s.x f.xb).toNat (s.x f.xc).toNat (used.map (fun q => ((s.x f.xb).toNat + q * (s.x f.xc).toNat) % 2 ^ 64)) (fun _ => 64)
          (fun fmt geo => match s1.sparseAccepts [0] none vfmt vgeo with
            | some c => some c
            | none => s1.sparseAccepts [0, 1, 2] (sparsePair vfmt fmt) fmt geo) none = .ok bp →
        s1.piecesOpen vps.flatten = true → s1.rowsOpen bp = true → ∃ t, exec (.spMm f) s = .next t ∧ t.cx.pc = s.fall.cx.pc ∧ calm s t ∧
          (∀ q c, c < 64 → q < row0 ∨ row0 + nr ≤ q → row t q c = row s q c) ∧
          (∀ r c, r < nr → c < 64 →
            let cells := rows.getD r ⟨true, 0, [], []⟩
            let vals := (unpackLanes (fmtBits vfmt) cells.cols.length (s1.piecesValue (vps.getD r []))).map (decodeElem vfmt (fun _ => 0))
            let brow := fun (q : Nat) => KMap.get [] (List.zip used ((s1.readRows bp 64).map (bRow bp.fmt))) q
            row t (row0 + r) c = (sparseRow (if zero then List.replicate 64 0 else (List.range 64).map (row s (row0 + r))) (List.zip vals (cells.cols.map brow))).getD c 0 % 2 ^ 32))) ∧
    (∀ dps ap mp bp, s.accepts (.spBm f) → engineReady s 1 15 →
      let half := f.ext.toNat % 2
      let d := doublewords 4 (s1.piecesValue dps)
      let kept := (unpackLanes 64 32 (s1.piecesValue mp)).map keptAt
      s1.rawRun .read (s.x f.xa).toNat 32 = .ok dps → s1.piecesOpen dps = true →
      s1.rowPlan .read (d.getD 0 0).toNat ((d.getD 3 0).toNat % 2 ^ 32) 32 (fun _ => 32) (s1.sparseAccepts [3] none) none = .ok ap → s1.rawRun .read (d.getD 1 0).toNat 256 = .ok mp →
      s1.rowPlan .read (d.getD 2 0).toNat ((d.getD 3 0).toNat / 2 ^ 32) 64 (fun _ => 64) (fun fmt geo => s1.sparseAccepts [0, 1, 2] (sparsePair ap.fmt fmt) fmt geo) none = .ok bp →
      s1.piecesOpen mp = true → (∀ k ∈ kept, k.isSome) → s1.rowsOpen ap = true → s1.rowsOpen bp = true → ∃ t, exec (.spBm f) s = .next t ∧ t.cx.pc = s.fall.cx.pc ∧ calm s t ∧
        t.eng.busyUntil = s.cyc + occupancyOf 16 s.tile.h 1 ∧ (∀ q c, c < 64 → q < 32 * half ∨ 32 * half + 32 ≤ q → row t q c = row s q c) ∧
        (∀ r c, r < 32 → c < 64 →
          let vals := ((s1.readRows ap 32).getD r ⟨[], []⟩).values ap.fmt (fun _ => 0)
          let brow := fun (q : Nat) => ((s1.readRows bp 64).map (bRow bp.fmt)).getD q []
          r < (s1.readRows ap 32).length →
          row t (32 * half + r) c = (sparseRow (if zero then List.replicate 64 0 else (List.range 64).map (row s (32 * half + r))) (List.zip vals (((kept.getD r none).getD []).map brow))).getD c 0 % 2 ^ 32)) ∧
    (∀ i drop p q mp mw, (i = .spDrop f ∧ drop = true) ∨ (i = .spGrow f ∧ drop = false) → s.accepts i → engineReady s 1 15 →
      let nr := f.ext.toNat % 64 + 1
      let k := f.ext.toNat / 64 % 128
      let va := (s.x f.xa).toNat
      let accepts := s1.sparseAccepts [0] (if k > 64 then some .spKRange else none)
      s1.rawRun .read (s.x f.xc).toNat (8 * nr) = .ok mp → s1.rawRun .write (s.x f.xc).toNat (8 * nr) = .ok mw → s1.rowPlan .read va (s.x f.xb).toNat nr (fun _ => 64) accepts none = .ok p →
      s1.rowPlan (if drop then .write else .read) va (s.x f.xb).toNat nr (fun _ => 64) accepts none = .ok q → s1.rowsOpen p = true → s1.piecesOpen mp = true → s1.rowsFull q = false →
      s1.piecesFull mw = false → ∃ t l, exec i s = .next t ∧ t.net = s.net ++ l ∧ (∀ a ∈ l, a.kind = .store ∧ a.firing = s.cx.firing) ∧ t.cx.pc = s.fall.cx.pc ∧ (∀ r, t.x r = s.x r) ∧ (∀ a, t.mem.read a = s.mem.read a) ∧
        t.eng.mem = s.eng.mem ∧ t.eng.busyUntil = s.cyc + occupancyOf nr s.tile.h 1 ∧
        (s.eng.spcnt.get 0 2 < 2 ^ 48 → t.eng.spcnt.get 0 2 = (s.eng.spcnt.get 0 2 + nr) % 2 ^ 48) ∧ (k = 0 → l = [])) ∧
    (s.accepts (.spCnt f) → s.engineRole 1 15 = none → s.eng.busyUntil ≤ s.cyc → ∃ t, exec (.spCnt f) s = .next t ∧ t.cx.pc = s.fall.cx.pc ∧ t.x f.xa = (if f.xa = 0 then 0 else BitVec.ofNat 64 (s.eng.spcnt.get 0 (f.opt.toNat % 4))) ∧
      (∀ r, r ≠ f.xa → t.x r = s.x r) ∧ (∀ m, t.eng.spcnt.get 0 m = if m = f.opt.toNat % 4 ∧ f.opt.getLsbD 2 = true then 0 else s.eng.spcnt.get 0 m) ∧ t.eng.mem = s.eng.mem)

/-! ### Operations, work-lists, actors, tasks and launches -/

/-- The kind of an operation and its descriptor check (R394, R397, R401, R403, R404). -/
def operationOf (i : Instr) : Option (FmtWE × Nat × (State → List Word → Option Cause)) :=
  match i with
  | .gath f => some (f, 1, fun _ d => if gathBad false d then some .gathDesc else none)
  | .gathIx f => some (f, 2, fun _ d => if gathBad true d then some .gathDesc else none)
  | .scat f => some (f, 3, fun _ d => if gathBad false d then some .gathDesc else none)
  | .embBag f => some (f, 4, State.embCause)
  | .cp f => some (f, 5, State.copyCause)
  | .cpMc f => some (f, 6, State.mcastCause)
  | _ => none

/-- R244, R392 to R394: an operation whose descriptor of 64 bytes reads, is well formed and names a status record and a completion that pass their checks takes the lowest free of the tile's 16 slots and its bundle retires; without a free slot it waits. The slot runs, or in a quiesce of the field is saved to run later (R97), with the descriptor, the firing and the PC of the issue.
A failed check freezes the context and starts nothing. -/
def Obligations.OperationsTakeASlot : Prop :=
  ∀ (i : Instr) (s : State) (f : FmtWE) (kind : Nat) (check : State → List Word → Option Cause) (v : Nat), operationOf i = some (f, kind, check) → s.accepts i →
    let va := (s.x f.xa).toNat
    let d := doublewords 8 v
    let s1 := s.afterRead va 64
    s.readNow va 64 1 = .ok v →
    (va % 64 ≠ 0 → exec i s = s.faultC .descAlign va) ∧
    (va % 64 = 0 → s1.tailBad d = true → exec i s = s1.faultC .descBad va) ∧
    (va % 64 = 0 → s1.tailBad d = false → (tailStat d = 0 ∨ ∃ ps, s1.mapRange s.cur (tailStat d) (statBytes d) .write 32 = .ok ps) →
      (∀ c, check s1 d = some c → exec i s = s1.faultC c va) ∧
      (∀ c, check s1 d = none → s1.completionCause f = some c → exec i s = s1.faultC c 0 (if c = Cause.msgClass then s.x f.xc else s.x f.xb).toNat) ∧
      (check s1 d = none → s1.completionCause f = none → s.tile.freeSlot = none → exec i s = .next (s.stallOn 0)) ∧
      (∀ j, check s1 d = none → s1.completionCause f = none → s.tile.freeSlot = some j → ∃ t, exec i s = .next t ∧ t.cx.pc = s.fall.cx.pc ∧ quiet s t ∧
        let o := t.tile.ops.get {} j
        (if (s.hubOf (fieldOfTile (tileOfCtx s.cur))).sw.step = 1 then o.state = 4 ∧ o.saved = 1 else o.state = 1) ∧ o.kind = kind ∧ o.desc = d ∧ o.firing = s.cx.firing ∧ o.tag = s.tag ∧ o.pc = s.cx.pc ∧ o.cursor = 0 ∧ o.failed = 0 ∧ (o.word = if f.xc = 0 then none else some (s.x f.xc)) ∧ o.ord = s.cx.opOrd ∧ t.cx.opOrd = s.cx.opOrd + 1 ∧
        (∀ m, m ≠ j → t.tile.ops.get {} m = s.tile.ops.get {} m)))

/-- The work-list object w stands at VA `va`, whose first byte has key g, and the issuing core owns it and may use it (R406, R407). -/
def workListAt (s : State) (va : Nat) (writes : Bool) (w : WorkList) (g : Nat) : Prop :=
  s.ownPending = false ∧ va % 64 = 0 ∧ (∃ p ps, s.mapRange s.cur va 1 .read 8 = .ok (p :: ps) ∧ s.ownStore p.gpa = true ∧ g = gpaKey p.gpa) ∧
    (writes = true → ∃ ps, s.mapRange s.cur va 64 .write 64 = .ok ps) ∧ s.poison.contains (lineOf g) = false ∧ w = workListOf (doublewords 8 (s.mem.readLE g 64)) ∧ w.core = s.cur / 8 % 2 ∧ w.bad = false

/-- The object that stands at a key of memory. -/
def objectAt (t : State) (g : Nat) : WorkList := workListOf (doublewords 8 (t.mem.readLE g 64))

/-- R345, R406, R407: work-lists that no spill is needed for. A push puts the value behind the ring's last and counts it; an insertion into the set does so only for a value that the set does not hold; a pop takes from the ring's head into the buffer; the status is read. XC gets the result. Each is one step in the order of the core's own stores. Logs 24 and 25 say how the set and a full ring are read. -/
def Obligations.WorkListsPushAndPop : Prop :=
  (∀ (f : FmtWE) (s : State) (w : WorkList) (g : Nat), s.accepts (.wlPush f) → workListAt s (s.x f.xa).toNat true w g → w.scnt = 0 → w.rcnt < 1024 → s.poison.contains (lineOf (s.ownKey (w.ringAt w.rcnt))) = false →
    s.ownKey w.ring + 8192 ≤ g ∨ g + 64 ≤ s.ownKey w.ring → ∃ t, exec (.wlPush f) s = .next t ∧ t.cx.pc = s.fall.cx.pc ∧ t.x f.xc = 0 ∧ (∀ r, r ≠ f.xc → t.x r = s.x r) ∧
      (objectAt t g).rcnt = w.rcnt + 1 ∧ (objectAt t g).head = w.head ∧ (objectAt t g).dcnt = w.dcnt ∧ t.localDouble (w.ringAt w.rcnt) = (s.x f.xb).toNat ∧
      (∀ a, (a < g ∨ g + 64 ≤ a) → (a < s.ownKey (w.ringAt w.rcnt) ∨ s.ownKey (w.ringAt w.rcnt) + 8 ≤ a) → t.mem.read a = s.mem.read a)) ∧
  (∀ (f : FmtWE) (s : State) (w : WorkList) (g : Nat), s.accepts (.wlInsd f) → workListAt s (s.x f.xa).toNat true w g →
    (w.dd = false → exec (.wlInsd f) s = s.faultC .wlBad (s.x f.xa).toNat) ∧
    (∀ o, w.dd = true → s.localPoison w.dedupOffs = some o →
      let c := s.poisonCause [(tileGpa (tileOfCtx s.cur) o, 8)]
      exec (.wlInsd f) s = s.faultC c (s.x f.xa).toNat (accSyndrome c .read 8 0)) ∧
    (w.dd = true → s.localPoison w.dedupOffs = none → (s.x f.xb).toNat ∈ (List.range w.dcnt).map (fun i => s.localDouble (w.dtab + 8 * i)) → exec (.wlInsd f) s = .next ((s.setX f.xc 1).fall)) ∧
    (w.dd = true → s.localPoison w.dedupOffs = none → (s.x f.xb).toNat ∉ (List.range w.dcnt).map (fun i => s.localDouble (w.dtab + 8 * i)) → w.scnt = 0 → w.rcnt < 1024 → w.dcnt < 4096 →
      ∃ t, exec (.wlInsd f) s = .next t ∧ t.cx.pc = s.fall.cx.pc ∧ t.x f.xc = 0 ∧ (∀ r, r ≠ f.xc → t.x r = s.x r) ∧ (objectAt t g).rcnt = w.rcnt + 1 ∧ (objectAt t g).dcnt = w.dcnt + 1)) ∧
  (∀ (f : FmtWE) (i : Instr) (s : State) (w : WorkList) (g : Nat), (i = .wlPush f ∨ (i = .wlInsd f ∧ w.dd = true ∧ s.localPoison w.dedupOffs = none ∧ (s.x f.xb).toNat ∉ (List.range w.dcnt).map (fun i => s.localDouble (w.dtab + 8 * i)))) → s.accepts i →
    workListAt s (s.x f.xa).toNat true w g → 0 < w.scnt ∨ w.rcnt = 1024 → w.scnt = w.spillCap →
    (f.opt.getLsbD 0 = true → exec i s = s.faultC .wlSpill (s.x f.xa).toNat) ∧ (f.opt.getLsbD 0 = false → exec i s = .next ((s.setX f.xc (BitVec.ofNat 64 (0x71 * 2 ^ 56))).fall))) ∧
  (∀ (f : FmtWE) (s : State) (w : WorkList) (g : Nat), s.accepts (.wlPopb f) → workListAt s (s.x f.xa).toNat true w g →
    let want := (s.x f.xc).toNat
    (want = 0 ∨ 1024 < want → exec (.wlPopb f) s = s.faultC .immRange) ∧
    (1 ≤ want → want ≤ 1024 → w.rcnt = 0 → w.scnt = 0 → exec (.wlPopb f) s = .next ((s.setX f.xc (BitVec.ofNat 64 (0x70 * 2 ^ 56))).fall)) ∧
    (∀ bps, 1 ≤ want → want ≤ 1024 → w.rcnt ≠ 0 → w.scnt = 0 → (s.x f.xb).toNat % 8 = 0 →
      let m := min want w.rcnt
      s.mapRanges s.cur .write 8 (pagesOf (s.x f.xb).toNat (8 * m)) = .ok bps → s.piecesFull bps = false → s.localPoison ((List.range m).map w.ringAt ++ (if w.dd then w.dedupOffs else [])) = none → ∃ t l, exec (.wlPopb f) s = .next t ∧ t.cx.pc = s.fall.cx.pc ∧
        (f.xc ≠ 0 → t.x f.xc = BitVec.ofNat 64 m) ∧ (∀ r, r ≠ f.xc → t.x r = s.x r) ∧ sentBy s t .store l ∧ l.map (fun a => (a.va, a.gpa, a.size)) = s.cutPieces bps ∧
        accessData l = packLanes 64 ((List.range m).map (fun i => s.localDouble (w.ringAt i))) % 2 ^ (8 * (bps.map (fun p => p.len)).sum) ∧
        (objectAt t g).rcnt = w.rcnt - m ∧ (objectAt t g).head = (w.head + m) % 1024 ∧ (w.dd = false → ∀ a, a < g ∨ g + 64 ≤ a → t.mem.read a = s.mem.read a))) ∧
  (∀ (f : FmtCR) (s : State) (w : WorkList) (g : Nat), s.accepts (.wlStat f) → workListAt s (s.x f.xa).toNat false w g →
    exec (.wlStat f) s = .next ((s.setX f.xd (BitVec.ofNat 64 ((if w.v then 2 ^ 63 else 0) + w.core * 2 ^ 62 + (if w.dd then 2 ^ 61 else 0) + w.rcnt * 2 ^ 50 + w.dcnt * 2 ^ 37))).fall))

/-- R150 to R153, R163, R331, R332: `act.new` reads a descriptor of 64 bytes and registers it at the core that it names, at the lowest free of 64 actors, with the descriptor written to the core's table and the new actor's sealed capability in XD; `act.del` with a genuine capability for an idle actor of a reachable core removes it. -/
def actorsAreRegisteredAndDeleted : Prop :=
  (∀ (f : FmtCR) (s : State) (d : List Word) (core : Nat), s.accepts (.actNew f) →
    let lo := s.x f.xb
    let own := coreOfCtx s.cur
    ((f.xb = 0 ∧ core = if f.opt = 1 then 2 * (own / 2) + 1 - own % 2 else own) ∨
      (f.xb ≠ 0 ∧ s.capGenuine lo (s.x (f.xb + 1)) = true ∧ lo.getLsbD 28 = true ∧ lo.getLsbD 15 = true ∧ lo.getLsbD 16 = true ∧ s.destOf lo = .core core)) →
    s.readDesc (s.x f.xa).toNat 8 = .ok d →
    let a := (s.coreOf core).freeActor
    let s1 := s.afterRead (s.x f.xa).toNat 64
    let presented := if f.xb = 0 then 0 else lo.toNat
    (64 ≤ a → exec (.actNew f) s = s1.faultC .actFull 0 presented) ∧
    (a < 64 → s1.descRefused core d s.tag s.level = true → exec (.actNew f) s = s1.faultC .actBad 0 presented) ∧
    (a < 64 → s1.descRefused core d s.tag s.level = false → ∃ t cap, exec (.actNew f) s = .next t ∧ t.cx.pc = s.fall.cx.pc ∧
      let k := (t.coreOf core).actorAt a
      k.valid = true ∧ k.owner = descOwner d ∧ k.claim = descClaim d ∧ k.cls = descClass d ∧ k.busy = false ∧ (∀ p, p < 4 → (k.portAt p).word = descPort d p ∧ (k.portAt p).hwPart = []) ∧
      t.x f.xd = cap ∧ t.x (f.xd + 1) = s.sealWord cap ∧ (∀ r, r ≠ f.xd → r ≠ f.xd + 1 → t.x r = s.x r) ∧ cap.toNat / 2 ^ 22 % 64 = a ∧ (∀ b, b ≠ a → (t.coreOf core).actorAt b = (s.coreOf core).actorAt b) ∧
      let at_ := gpaKey (tileGpa (tileOfCore core) ((s.coreOf core).actBase + 64 * a))
      (∀ j, j < 8 → BitVec.ofNat 64 (t.mem.readLE (at_ + 8 * j) 8) = d.getD j 0) ∧ ∀ b, b < at_ ∨ at_ + 64 ≤ b → t.mem.read b = s.mem.read b)) ∧
  (∀ (f : FmtCR) (s : State), s.accepts (.actDel f) →
    let lo := s.x f.xb
    (s.capGenuine lo (s.x (f.xb + 1)) = false → exec (.actDel f) s = s.faultC .capForged 0 lo.toNat) ∧
    (∀ core, s.capGenuine lo (s.x (f.xb + 1)) = true → lo.getLsbD 28 = false → lo.getLsbD 16 = true → s.destOf lo = .core core →
      let a := lo.toNat / 2 ^ 22 % 64
      let k := (s.coreOf core).actorAt a
      (k.valid = false ∨ k.owner ≠ lo.toNat / 2 ^ 46 % 256 → exec (.actDel f) s = s.faultC .destGone 0 lo.toNat) ∧
      (k.valid = true → k.owner = lo.toNat / 2 ^ 46 % 256 → k.held = false → k.busy = true → exec (.actDel f) s = s.faultC .actBusy 0 lo.toNat) ∧
      (k.valid = true → k.owner = lo.toNat / 2 ^ 46 % 256 → k.held = false → k.busy = false → ∃ t, exec (.actDel f) s = .next t ∧ t.cx.pc = s.fall.cx.pc ∧ ((t.coreOf core).actorAt a).valid = false ∧
        (∀ b, b ≠ a → (t.coreOf core).actorAt b = (s.coreOf core).actorAt b) ∧ (∀ r, t.x r = s.x r) ∧ ∀ b, t.mem.read b = s.mem.read b)))

/-- R143, R333: `spawn` pushes a task record of the four words of its vector register at the front of the core's deque, for a handler inside the firing's code; a full deque whose spill ring has no room faults. -/
def spawnPushesATask : Prop :=
  ∀ (f : FmtCR) (s : State), s.accepts (.spawn f) → s.streamOf f.xa.toNat = none →
    let h : Word := BitVec.ofNat 64 (s.ownVec f.xa.toNat)
    let rel := f.opt.toNat / 64
    (h.toNat / 2 ^ 60 ≠ 0 ∨ h.toNat % 8 ≠ 0 ∨ h < s.cx.codelo ∨ s.cx.codehi ≤ h → exec (.spawn f) s = s.faultC .badHandler 0 h.toNat) ∧
    (h.toNat / 2 ^ 60 = 0 → h.toNat % 8 = 0 → s.cx.codelo ≤ h → h < s.cx.codehi →
      (s.core.deque.length = 32 → s.core.spillCap ≤ s.core.spill.length → exec (.spawn f) s = s.faultC .dequeFull 0 h.toNat) ∧
      (s.core.deque.length = 32 → s.core.spill.length < s.core.spillCap → rel = 0 ∨ s.storesDone (rel - 1) = true → ∃ t r, exec (.spawn f) s = .next t ∧
        let n := min 16 (s.core.spillCap - s.core.spill.length)
        t.core.deque = r :: s.core.deque.take (32 - n) ∧ t.core.spill.length = s.core.spill.length + n ∧ t.cx.pc = s.fall.cx.pc ∧ (∀ q, t.x q = s.x q)) ∧
      (s.core.deque.length < 32 → rel = 0 ∨ s.storesDone (rel - 1) = true → ∃ t r, exec (.spawn f) s = .next t ∧ t.core.deque = r :: s.core.deque ∧ t.core.spill = s.core.spill ∧ t.cx.pc = s.fall.cx.pc ∧
        (∀ j, j < 4 → r.words.getD j 0 = BitVec.ofNat 64 (s.ownVec f.xa.toNat / 2 ^ (64 * j))) ∧ r.tag = s.cx.tag ∧ r.launch = s.cx.launch ∧ r.depth = s.cx.depth ∧ r.codelo = s.cx.codelo ∧ r.codehi = s.cx.codehi ∧
        (∀ q, t.x q = s.x q) ∧ ∀ a, t.mem.read a = s.mem.read a))

/-- R143, R149, R152, R339, R340: actors and tasks. Log 60 says how the OWNER check is read. -/
def Obligations.ActorsRegisterAndTasksSpawn : Prop := actorsAreRegisteredAndDeleted ∧ spawnPushesATask

/-- R131 to R133, R405: a nested launch waits for the firing's stores at scope `waf`, reads its header, refuses it by the first check that fails, and with a place of its depth enters the launch queue of the firing's field, its identifier in XC; without a place it answers all ones, or with its waiting form parks. -/
def Obligations.LaunchEntersTheQueue : Prop :=
  ∀ (f : FmtWE) (s : State) (d : List Word), s.accepts (.launch f) →
    let own := fieldOfCtx s.cur
    let mask := if f.xb = 0 then [own] else (List.range 90).filter (fun n => if n < 64 then (s.x f.xb).getLsbD n else (s.x (f.xb + 1)).getLsbD (n - 64))
    let maskBad := decide (f.xb ≠ 0 ∧ (s.x (f.xb + 1)).toNat / 2 ^ 26 ≠ 0)
    (s.storesDone 4 = false → exec (.launch f) s = .next (s.stallOn .waitFence)) ∧
    let s1 := s.afterRead (s.x f.xa).toNat 64
    (s.storesDone 4 = true → s.readDesc (s.x f.xa).toNat 8 = .ok d →
      (∀ c, s1.launchCause d mask maskBad = some c → exec (.launch f) s = s1.faultC c) ∧
      (∀ shared, s1.launchCause d mask maskBad = none → s.hub.launchRoom (s.cx.depth + 1) = some shared → own < 90 → (∃ n, n < 64 ∧ s.hub.launches.has n = false) → ∃ t id e, exec (.launch f) s = .next t ∧ t.cx.pc = s.fall.cx.pc ∧
        t.x f.xc = (if f.xc = 0 then 0 else BitVec.ofNat 64 id) ∧ (∀ r, r ≠ f.xc → t.x r = s.x r) ∧ t.launchOf id = some e ∧ e.id = id ∧ e.header = d ∧ e.mask = mask ∧ e.depth = s.cx.depth + 1 ∧
        e.host = false ∧ e.parentCore = coreOfCtx s.cur ∧ ∀ a, t.mem.read a = s.mem.read a) ∧
      (s1.launchCause d mask maskBad = none → s.hub.launchRoom (s.cx.depth + 1) = none → f.opt = 0 → ∃ t, exec (.launch f) s = .next t ∧ t.cx.pc = s.fall.cx.pc ∧ (f.xc ≠ 0 → t.x f.xc = BitVec.ofNat 64 (2 ^ 64 - 1)) ∧
        (∀ r, r ≠ f.xc → t.x r = s.x r) ∧ t.hub.launches = s.hub.launches) ∧
      (s1.launchCause d mask maskBad = none → s.hub.launchRoom (s.cx.depth + 1) = none → f.opt ≠ 0 → s.cx.np = true → exec (.launch f) s = s1.faultC .npState) ∧
      (s1.launchCause d mask maskBad = none → s.hub.launchRoom (s.cx.depth + 1) = none → f.opt ≠ 0 → s.cx.np = false → ∃ t, exec (.launch f) s = .next t ∧ s.cx.firing ∈ t.hub.lwaiters ∧
        (s.core.parkRoom = false → t.cx.st = 2 ∧ t.cx.reason = Cause.launchQfull ∧ t.cx.pc = s.cx.pc) ∧ (s.core.parkRoom = true → inParkArea s t Cause.launchQfull s.cx.pc)))

/-! ### Events of the device -/

/-- From every state of its occasion, an event answers a next state that `post` relates to the state before. -/
def Occurs (i : Instr) (occ : State → Prop) (post : State → State → Prop) : Prop := ∀ s : State, occ s → ∃ t, exec i s = .next t ∧ post s t

/-- R27, R29, R57: the steps of start-up, each in a field that is in the step before it. Power-on reset gives every part of the machine its reset value and keeps the flash; a field goes dark where no image is valid or a step fails, and a node that its seed does not name is dark; the last step makes the device ready. -/
def startUpGoesStepByStep : Prop :=
  Occurs .powerOnReset (fun _ => True) (fun s t => t.rtime = State.reset.rtime ∧ t.ctxs = State.reset.ctxs ∧ t.cores = State.reset.cores ∧ t.tiles = State.reset.tiles ∧ t.hubs = State.reset.hubs ∧
    t.rails = State.reset.rails ∧ t.parts = State.reset.parts ∧ t.mem = State.reset.mem ∧ t.net = State.reset.net ∧ t.bank = State.reset.bank ∧ t.loith = State.reset.loith ∧ t.images = s.images) ∧
  Occurs .startupRailsStable (fun s => s.inStep s.arg.unit 1 = true ∧ s.arg.level ≠ 1) (fun s t => (t.hubOf s.arg.unit).startup = 2 ∧ ∀ g, g ≠ s.arg.unit → t.hubOf g = s.hubOf g) ∧
  (∀ i n, (i = .startupRailsStable ∧ n = 1) ∨ (i = .startupIdentityAtlas ∧ n = 3) ∨ (i = .rookStartupPass ∧ n = 4) ∨ (i = .startupLinksUp ∧ n = 5) →
    Occurs i (fun s => s.inStep s.arg.unit n = true ∧ s.arg.level = 1) (fun s t => (t.hubOf s.arg.unit).dark = true ∧ (t.hubOf s.arg.unit).startup = n)) ∧
  (∀ b, Occurs .imageVerify (fun s => s.inStep s.arg.unit 2 = true ∧ s.bestImage s.arg.value = some b) (fun s t =>
    (t.hubOf s.arg.unit).startup = 3 ∧ (t.hubOf s.arg.unit).image = some (imageVersion b) ∧ (t.hubOf s.arg.unit).dark = false)) ∧
  Occurs .imageVerify (fun s => s.inStep s.arg.unit 2 = true ∧ s.bestImage s.arg.value = none) (fun s t => (t.hubOf s.arg.unit).dark = true ∧ (t.hubOf s.arg.unit).startup = 2) ∧
  Occurs .startupIdentityAtlas (fun s => s.inStep s.arg.unit 3 = true ∧ s.arg.level ≠ 1) (fun s t => (t.hubOf s.arg.unit).startup = 4 ∧
    (s.loith.ready = false → (t.hubOf s.arg.unit).unlisted = 2 ∧ (t.hubOf s.arg.unit).atlcnt = (s.hubOf s.arg.unit).atlcnt) ∧ (s.arg.unit = 0 → s.loith.ready = false → t.loith.device = s.arg.value % 1024)) ∧
  Occurs .rookStartupPass (fun s => s.inStep s.arg.unit 4 = true ∧ s.arg.level ≠ 1) (fun s t => (t.hubOf s.arg.unit).startup = (if s.loith.ready then 7 else 5) ∧ (t.hubOf s.arg.unit).rgen = 1) ∧
  Occurs .startupLinksUp (fun s => s.inStep s.arg.unit 5 = true ∧ s.arg.level ≠ 1) (fun s t => (t.hubOf s.arg.unit).startup = 6 ∧ t.rtime = if s.loith.ready = true ∨ s.loith.epoch = true then s.rtime else max s.rtime s.arg.value) ∧
  Occurs .deviceReady (fun s => s.canBeReady = true) (fun s t => t.loith.ready = true ∧ ∀ f, s.hubs.has f = true → (s.hubOf f).dark = false →
    (t.hubOf f).startup = 7 ∧ (t.hubOf f).share = if s.arg.list.sum ≤ 20000 then s.arg.list.getD f 0 else (s.hubOf f).share)

/-- R19 to R25, R70, R71, R253: field clocks, rails and the package limit. A write of FCLKCTL outside 10 to 25 or above the field's ceiling sets BADN; another N starts a relock of 3,000 ns, or waits while one runs. A rail takes a target of 550 to 900 mV that breaks no ceiling and slews at 10 mV a microsecond. Power above 32 kW for more
than 20 microseconds stops all ballast and sets LIMIT, which clears when it has stayed at or below for 1 ms. -/
def clocksRailsAndPowerLimits : Prop :=
  Occurs .fclkctlWrite (fun s => s.arg.value % 32 < 10 ∨ 25 < s.arg.value % 32 ∨ s.ceilingWith s.arg.unit none < s.arg.value % 32) (fun s t =>
    (t.hubOf s.arg.unit).badn = true ∧ (t.hubOf s.arg.unit).curn = (s.hubOf s.arg.unit).curn ∧ (t.hubOf s.arg.unit).newn = (s.hubOf s.arg.unit).newn) ∧
  Occurs .fclkctlWrite (fun s => 10 ≤ s.arg.value % 32 ∧ s.arg.value % 32 ≤ 25 ∧ s.arg.value % 32 ≤ s.ceilingWith s.arg.unit none) (fun s t =>
    let n := s.arg.value % 32
    let h := s.hubOf s.arg.unit
    let k := t.hubOf s.arg.unit
    k.newn = n ∧ (h.locking.isSome → k.pendn = some n ∧ k.curn = h.curn ∧ k.locking = h.locking) ∧ (h.locking = none → n = h.curn → k.curn = n ∧ k.locking = none) ∧
      (h.locking = none → n ≠ h.curn → k.curn = n ∧ k.locking = some (s.rtime + 3000) ∧ t.cycOf s.arg.unit = s.cycOf s.arg.unit)) ∧
  Occurs .relockEnd (fun s => s.relockDue s.arg.unit = true ∧ (s.hubOf s.arg.unit).pendn = none) (fun s t => (t.hubOf s.arg.unit).locking = none ∧ (t.hubOf s.arg.unit).curn = (s.hubOf s.arg.unit).curn) ∧
  (∀ n, Occurs .relockEnd (fun s => s.relockDue s.arg.unit = true ∧ (s.hubOf s.arg.unit).pendn = some n ∧ n ≠ (s.hubOf s.arg.unit).curn ∧ n ≤ s.ceilingWith s.arg.unit none) (fun s t =>
    (t.hubOf s.arg.unit).locking = some (s.rtime + 3000) ∧ (t.hubOf s.arg.unit).curn = n ∧ (t.hubOf s.arg.unit).pendn = none)) ∧
  Occurs .railvWrite (fun s => s.arg.value % 1024 < 550 ∨ 900 < s.arg.value % 1024) (fun s t => (t.railOf s.arg.unit).refused = true ∧ (t.railOf s.arg.unit).set = (s.railOf s.arg.unit).set) ∧
  Occurs .railvWrite (fun s => 550 ≤ s.arg.value % 1024 ∧ s.arg.value % 1024 ≤ 900 ∧
      ∀ f, f < 90 → (s.hubOf f).curn ≤ s.ceilingWith f (some (s.arg.unit, min (s.railNow s.arg.unit) (s.arg.value % 1024)))) (fun s t =>
    let n := s.arg.value % 1024
    let now := s.railNow s.arg.unit
    (t.railOf s.arg.unit).set = n ∧ (t.railOf s.arg.unit).cur = now ∧ (t.railOf s.arg.unit).busy = if n = now then none else some (s.rtime + 100 * (max n now - min n now))) ∧
  Occurs .railSlewEnd (fun s => s.slewDue s.arg.unit = true) (fun s t => (t.railOf s.arg.unit).busy = none ∧ (t.railOf s.arg.unit).cur = (s.railOf s.arg.unit).set) ∧
  Occurs .railswMove (fun s => s.arg.value.testBit 31 = true ∧ s.arg.value % 128 < 120 ∧ (s.tileOf (tileOfLocal s.arg.unit (s.arg.value % 128))).powered = false) (fun s t =>
    (t.tileOf (tileOfLocal s.arg.unit (s.arg.value % 128))).rail = s.arg.value / 2 ^ 8 % 4 ∧ (t.hubOf s.arg.unit).railRefused = ((s.hubOf s.arg.unit).railRefused && !s.arg.value.testBit 30)) ∧
  Occurs .railswMove (fun s => s.arg.value.testBit 31 = true ∧ (s.tileOf (tileOfLocal s.arg.unit (s.arg.value % 128))).powered = true) (fun s t =>
    (t.hubOf s.arg.unit).railRefused = true ∧ t.tiles = s.tiles) ∧
  Occurs .pkgPowerLimit (fun s => s.limitDue = true) (fun _ t => t.bank.limit = true ∧ ∀ f, (t.hubOf f).ball = 0 ∧ (t.hubOf f).fill = 0) ∧
  Occurs .powerLimitClear (fun s => s.clearDue = true) (fun _ t => t.bank.limit = false) ∧
  Occurs .thermalLimit (fun _ => True) (fun s t => (t.tileOf s.arg.unit).throttled = true) ∧
  Occurs .railOvercurrent (fun _ => True) (fun s t => (t.railOf s.arg.unit).current = s.arg.value ∧ (t.railOf s.arg.unit).power = s.arg.other)

/-- R19 to R29, R57, R70, R71: start-up, clocks, rails and the power limits. Each event completes: it answers a next state, from every state of its occasion. That these come about as events with `arg` as their payload is the model's form; its choices are in logs 1 and 75. -/
def Obligations.StartUpClocksAndRails : Prop := startUpGoesStepByStep ∧ clocksRailsAndPowerLimits

/-! ### Messages on their way -/

/-- A port of this device takes a message that the hardware generated, or that it redirects, now: the port after it (R154, R165). -/
def TakenNow (s : State) (m : Msg) (core a p owner : Nat) (q : Port) : Prop :=
  s.tileStill (tileOfCore core) = false ∧ s.coreDark core = false ∧ (s.hubOf (fieldOfTile (tileOfCore core))).runTag = owner ∧ s.restored (fieldOfTile (tileOfCore core)) = true ∧
    ∃ spilt, (((s.coreOf core).actorAt a).portAt p).takeIn (s.withHandler m core a p) = some (q, spilt)

/-- A bounce of a message, as it sets out for the core where the sender is now (R173). -/
def IsBounce (s : State) (b m : Msg) (cause : Nat) : Prop := b.words = bounceWords m cause 1 false s.rtime ∧ b.vn = 1 ∧ b.chan = 3 ∧ b.core = s.senderCore m

/-- R38, R46, R158, R171, R173: the head of a send queue leaves for the core that its capability names, with the queue heads of both cores of a pair, or bounces to its sender. -/
def sendQueuesInject : Prop :=
  (∀ m d, Occurs .messageInject (fun s => ((s.coreOf s.arg.unit).queue s.arg.other).head? = some m ∧ m.pair = 0 ∧ s.masked s.arg.other = false ∧ s.netFull s.arg.unit s.arg.other = false ∧ s.injectTo m = .core d) (fun s t =>
    (t.coreOf s.arg.unit).queue s.arg.other = ((s.coreOf s.arg.unit).queue s.arg.other).drop 1 ∧
    t.flying = s.flying ++ [{ m with itime := s.rtime, act := capAct m.capLo, core := d, dev := s.loith.device, router := some (tileOfCore s.arg.unit), gen := s.loith.flips }])) ∧
  (∀ m n d, Occurs .messageInject (fun s => ((s.coreOf s.arg.unit).queue s.arg.other).head? = some m ∧ m.pair = 1 ∧ s.partnerHead s.arg.unit s.arg.other m = some n ∧ s.masked s.arg.other = false ∧ s.netFull s.arg.unit s.arg.other = false ∧
      s.injectTo m = .core d) (fun s t =>
    (t.coreOf s.arg.unit).queue s.arg.other = ((s.coreOf s.arg.unit).queue s.arg.other).drop 1 ∧ (t.coreOf (s.arg.unit + 2)).queue s.arg.other = ((s.coreOf (s.arg.unit + 2)).queue s.arg.other).drop 1 ∧
    t.flying = s.flying ++ [{ m with itime := s.rtime, pair := 0, act := capAct m.capLo, core := d, dev := s.loith.device, router := some (tileOfCore s.arg.unit), gen := s.loith.flips }])) ∧
  (∀ m c, Occurs .messageInject (fun s => ((s.coreOf s.arg.unit).queue s.arg.other).head? = some m ∧ m.pair = 0 ∧ m.hw = false ∧ m.vn ≠ 1 ∧ m.srcCore < 21600 ∧ s.masked s.arg.other = false ∧
      s.netFull s.arg.unit s.arg.other = false ∧ s.injectTo m = .refused c) (fun s t =>
    (t.coreOf s.arg.unit).queue s.arg.other = ((s.coreOf s.arg.unit).queue s.arg.other).drop 1 ∧ ∃ b, t.flying = s.flying ++ [b] ∧ IsBounce s b { m with itime := s.rtime } c))

/-- R36 to R39, R76: a packet that no earlier one of its network holds up moves one hop to the next router, leaves the mesh at its tile, leaves for another device by its port, or bounces with `LINK_DEAD` where the link does not carry it. -/
def packetsMoveHopByHop : Prop :=
  (∀ m u, Occurs .routePacket (fun s => s.arg.flag = false ∧ s.flying[s.arg.value]? = some m ∧ m.router = some u ∧ m.hops < 255 ∧ s.behindAnother s.arg.value u (s.packetPort u m) m = false ∧
      s.packetPort u m < 4 ∧ s.linkUp u (s.packetPort u m) = true) (fun s t =>
    t.flying = setAt s.flying s.arg.value (some { m with router := some (stepTile u (s.packetPort u m)), hops := m.hops + 1 }))) ∧
  (∀ m, Occurs .routePacket (fun s => s.arg.flag = false ∧ s.flying[s.arg.value]? = some m ∧ m.router = some (tileOfCore m.core) ∧ m.hops < 255 ∧ s.behindAnother s.arg.value (tileOfCore m.core) 4 m = false ∧
      s.packetPort (tileOfCore m.core) m = 4) (fun s t =>
    (m.exit = none → t.flying = setAt s.flying s.arg.value (some { m with router := none, reached := s.nextReached })) ∧ (∀ p, m.exit = some p → s.portDark p = false → t.flying = setAt s.flying s.arg.value none))) ∧
  (∀ m u, Occurs .routePacket (fun s => s.arg.flag = false ∧ s.flying[s.arg.value]? = some m ∧ m.router = some u ∧ m.hops < 255 ∧ m.vn ≠ 1 ∧ m.hw = false ∧ m.srcCore < 21600 ∧
      s.behindAnother s.arg.value u (s.packetPort u m) m = false ∧ s.packetPort u m < 4 ∧ s.linkUp u (s.packetPort u m) = false) (fun s t =>
    ∃ b, t.flying = setAt s.flying s.arg.value none ++ [b] ∧ IsBounce s b m Cause.linkDead))

/-- R153, R154, R164, R172, R173: a message that passes every check of R172 joins the hardware part of its port, or an entry of its overflow queue, whose bytes then stand in local store; a full SYS port bounces it, and a full REQ or BULK port makes it wait. -/
def messagesJoinTheirPorts : Prop :=
  ∀ m q, Occurs .messageArrival (fun s => s.arg.flag = false ∧ s.flying[s.arg.value]? = some m ∧ m.router = none ∧ (s.flying.take s.arg.value).any (sameFlow m) = false ∧ s.outrun m = false ∧ m.hw = false ∧ m.chan ≠ 3 ∧ m.vn ≠ 1 ∧
      s.coreDark m.core = false ∧ s.tileStill (tileOfCore m.core) = false ∧ (s.hubOf (fieldOfTile (tileOfCore m.core))).runTag = capOwner m.capLo ∧ s.restored (fieldOfTile (tileOfCore m.core)) = true ∧
      s.stubAt m.core m (capOwner m.capLo) = none ∧ ((s.coreOf m.core).actorAt m.act).valid = true ∧ ((s.coreOf m.core).actorAt m.act).owner = capOwner m.capLo ∧ q = ((s.coreOf m.core).actorAt m.act).portAt m.port ∧
      portEnabled q.word = true ∧ portKind q.word = m.vn ∧ m.words.length ≤ portSize q.word + 1) (fun s t =>
    (q.oq = [] → q.hwPart.length < portDepth q.word → (q.spill = false ∨ q.hwPart = []) → t.flying = setAt s.flying s.arg.value none ∧
      ((t.coreOf m.core).actorAt m.act).portAt m.port = { q with hwPart := q.hwPart ++ [m], arr := (q.arr + 1) % 2 ^ 32 }) ∧
    (q.oq ≠ [] ∨ portDepth q.word ≤ q.hwPart.length → q.oq.length < portOqCap q.word → t.flying = setAt s.flying s.arg.value none ∧ ∃ n,
      (((t.coreOf m.core).actorAt m.act).portAt m.port).oq = q.oq ++ [{ m with slot := some n }] ∧ (((t.coreOf m.core).actorAt m.act).portAt m.port).hwPart = q.hwPart ∧
      (s.memOk → t.mem.readLE (gpaKey (tileGpa (tileOfCore m.core) (portOqBase q.word + 64 * n))) (8 * m.words.length) = packLanes 64 (m.words.map BitVec.toNat))) ∧
    (q.takeIn m = none → m.vn = 2 → m.srcCore < 21600 → (∃ b, t.flying = setAt s.flying s.arg.value none ++ [b] ∧ IsBounce s b m Cause.portFull) ∧ t.cores = s.cores) ∧
    (q.takeIn m = none → m.vn ≠ 2 → t = s))

/-- R62, R154, R165, R173, R240: hardware messages that wait, packets of a fault queue and bounces join the ports they go to, in the order in which they were made. -/
def waitingMessagesAreDelivered : Prop :=
  (∀ m k a p owner q, Occurs .hwMessageDeferred (fun s => let h := s.hubOf s.arg.unit
      h.waiting[s.arg.value]? = some m ∧ (h.waiting.take s.arg.value ++ h.faultq.filter (fun w => w.made < m.made)).any (fun w => s.sameTarget w m) = false ∧ msgClass m ≠ 0xFF85 ∧ msgClass m ≠ 0xFF80 ∧
      s.hwOnWay m = false ∧ s.hwTarget m = some (k, a, p, owner) ∧ s.hubWay s.arg.unit k = true ∧ TakenNow s m k a p owner q) (fun s t =>
    ((t.coreOf k).actorAt a).portAt p = q ∧ (t.hubOf s.arg.unit).waiting = setAt (s.hubOf s.arg.unit).waiting s.arg.value none)) ∧
  (∀ m r k a p owner q, Occurs .faultQueueDrain (fun s => let h := s.hubOf s.arg.unit
      h.faultq = m :: r ∧ h.dropped = [] ∧ isFaultClass m = true ∧ h.waiting.any (fun w => w.made < m.made && s.sameTarget w m) = false ∧ s.hwOnWay m = false ∧
      s.hwTarget m = some (k, a, p, owner) ∧ s.hubWay s.arg.unit k = true ∧ TakenNow s m k a p owner q) (fun s t => ((t.coreOf k).actorAt a).portAt p = q ∧ (t.hubOf s.arg.unit).faultq = r)) ∧
  (∀ m r k a p owner q, Occurs .bounceQueueDeliver (fun s => (s.coreOf s.arg.unit).bounceq = m :: r ∧ (s.coreOf s.arg.unit).bsum = 0 ∧ s.bounceWaits s.arg.unit m = false ∧ s.bouncePort s.arg.unit m = some (k, a, p, owner) ∧
      s.tileStill (tileOfCore s.arg.unit) = false ∧ s.busWay (tileOfCore s.arg.unit) k = true ∧
      TakenNow s m k a p owner q) (fun s t => ((t.coreOf k).actorAt a).portAt p = q ∧ (t.coreOf s.arg.unit).bounceq = r))

/-- R169, R172, R310, R330: a wake or halt packet that reaches the actor that its capability names clears or sets its halted state, and a wake sets the wake-pending bit of the actor's firing. -/
def controlPacketsWakeAndHalt : Prop :=
  ∀ (c : CtlPkt) (k : Nat) (w : Bool), Occurs (if w then .wakeDelivery else .haltDelivery) (fun s => s.ctls[s.arg.value]? = some c ∧ c.wake = w ∧ s.ctlReady c = true ∧ s.masked 2 = false ∧ s.onTheWay c.capLo = false ∧
      s.tileStill (tileOfCore k) = false ∧ s.capCoreId c.capLo = some k ∧ s.injectTo c.asMsg = .core k ∧ s.pathCause (tileOfCore c.srcCore) (tileOfCore k) 2 = none ∧ (s.hubOf (fieldOfTile (tileOfCore k))).runTag = capOwner c.capLo ∧
      s.restored (fieldOfTile (tileOfCore k)) = true ∧ capWhole c.capLo = false ∧ ((s.coreOf k).actorAt (capAct c.capLo)).valid = true ∧ ((s.coreOf k).actorAt (capAct c.capLo)).owner = capOwner c.capLo) (fun s t =>
    t.ctls = setAt s.ctls s.arg.value none ∧ ((t.coreOf k).actorAt (capAct c.capLo)).halted = !w ∧
    (w = true → ∀ i, coreOfCtx i = k → (s.ctxOf i).occ = true → (s.ctxOf i).isFiringOf (capAct c.capLo) = true → t.ctxOf i = { s.ctxOf i with wakeBit := true }))

/-- R36 to R39, R153, R154, R158, R165, R171 to R173, R240, R330: messages and control packets on their way and at their ports. Each event completes: it answers a next state, from every state of its occasion. That these come about as events with `arg` as their payload is
the model's form; its choices are in logs 1, 46, 48 and 61. -/
def Obligations.MessagesTravelAndArrive : Prop :=
  sendQueuesInject ∧ packetsMoveHopByHop ∧ messagesJoinTheirPorts ∧ waitingMessagesAreDelivered ∧ controlPacketsWakeAndHalt

/-! ### Work comes to the cores -/

/-- Nothing holds back the firings of a core (R19, R33, R43, R97, R175). -/
def coreFree (s : State) (k : Nat) : Prop :=
  s.unitWorks (tileOfCore k) (k % 2) = true ∧ s.underTest k = false ∧ s.tileStill (tileOfCore k) = false ∧ s.leaving (tileOfCore k) = false ∧ (s.hubOf (fieldOfTile (tileOfCore k))).sw.step = 0

/-- A spilled task record with the words that its entry of the ring in local store holds (R143; the slot of a record is log 112's). -/
def ringRecord (s : State) (k : Nat) (r : TaskRec) : TaskRec :=
  { r with words := doublewords 4 (s.mem.readLE (gpaKey (tileGpa (tileOfCore k) ((s.coreOf k).spillBase + 32 * r.slot))) 32) }

/-- R133 to R147, R158 to R163, R183, R186, R310, R396: what starts and resumes firings, and how work reaches a core. The candidate that is first by R140 starts in the lowest free context with the registers its kind of firing gets: an actor's
takes the head of its port, an item's every core that the item runs on, a task's the newest of the deque, a dormant start the context its descriptor names. A firing outside its code range freezes with `BAD_HANDLER`. Pulls and steals move
items and tasks to a core whose tile is on; a footprint's region is copied whole or fails its item; a parked firing whose wait has ended runs again at its PC; a completed host launch frees its entry. Each event completes: it answers a next state, from every state of its occasion. That these come about as events with `arg` as their payload is the model's form; its choices are in logs 1, 17 and 56. -/
def Obligations.WorkStartsOnCores : Prop :=
  (∀ a i p m, Occurs .firingStart (fun s => s.firstCand s.arg.unit = some (.actor a) ∧ s.freeSlot s.arg.unit = some i ∧ ((s.coreOf s.arg.unit).actorAt a).trigger = some p ∧
      (((s.coreOf s.arg.unit).actorAt a).portAt p).head = some m ∧ ((s.coreOf s.arg.unit).actorAt a).descStale (s.descAt s.arg.unit a) = false) (fun s t =>
    let x := (s.coreOf s.arg.unit).actorAt a
    let c := actorCtx (s.descAt s.arg.unit a) a p (s.actorLevel s.arg.unit a) x.owner m
    portHolds s (tileOfCore s.arg.unit) (x.portAt p) (((t.coreOf s.arg.unit).actorAt a).portAt p) (((x.portAt p).hwPart ++ (x.portAt p).oq).drop 1) ∧ ((t.coreOf s.arg.unit).actorAt a).busy = true ∧ t.nextFiring = s.nextFiring + 1 ∧
    (c.codelo ≤ c.pc → c.pc < c.codehi → t.ctxOf i = { c with occ := true, firing := s.nextFiring }) ∧
    (c.pc < c.codelo ∨ c.codehi ≤ c.pc → (t.ctxOf i).st = 1 ∧ (t.ctxOf i).cause = Cause.badHandler ∧ (t.ctxOf i).pc = c.pc))) ∧
  (∀ id n e, Occurs .poolFiringStart (fun s => s.firstCand s.arg.unit = some (.pool id n) ∧ s.launchOf id = some e) (fun s t =>
    (t.coreOf s.arg.unit).held = (s.coreOf s.arg.unit).held.filter (fun r => !(r.1 = id && r.2.1 = n)) ∧
    ∀ j i, j ∈ Header.itemCores e.header (tileOfCore s.arg.unit) → s.freeSlot j = some i → ∃ f g, t.ctxOf i = { poolCtx e n (j % 2 = 0) with
      occ := true, firing := f, pairFiring := if Header.dbl e.header then some g else none, pairCtx := if Header.dbl e.header then s.freeSlot (if tileOfCore j = leaderOf (tileOfCore s.arg.unit) then j + 2 else j - 2) else none })) ∧
  (∀ i r rs, Occurs .taskStart (fun s => s.firstCand s.arg.unit = some .task ∧ s.freeSlot s.arg.unit = some i ∧ (s.coreOf s.arg.unit).deque = r :: rs) (fun s t =>
    t.ctxOf i = { taskCtx r (if r.tag = 0 then 2 else 0) with occ := true, firing := s.nextFiring } ∧
    (rs ≠ [] → (t.coreOf s.arg.unit).deque = rs) ∧ (rs = [] → (t.coreOf s.arg.unit).deque = ((s.coreOf s.arg.unit).spill.take 32).map (ringRecord s s.arg.unit)))) ∧
  (∀ m k, Occurs .dormantStart (fun s => let o := s.opAt s.arg.unit s.arg.other
      o.sending = some m ∧ o.dorm = true ∧ s.tileStill s.arg.unit = false ∧ capDev m.capLo = s.loith.device ∧ s.injectTo m = .core k ∧ (s.hubOf (fieldOfTile (tileOfCore k))).runTag = capOwner m.capLo ∧
      (s.hubOf (fieldOfTile (tileOfCore k))).sw.step = 0 ∧ s.tileStill (tileOfCore k) = false ∧ (s.ctxOf (8 * k + o.dctx)).occ = false ∧ (s.tileOf (tileOfCore k)).powered = true ∧ (s.tileOf (tileOfCore k)).pwr ≠ 3) (fun s t =>
    let i := 8 * k + (s.opAt s.arg.unit s.arg.other).dctx
    let c := dormantCtx (s.ctxOf i) m (if capOwner m.capLo = 0 then 2 else 0)
    (c.codelo ≤ c.pc → c.pc < c.codehi → t.ctxOf i = { c with occ := true, firing := s.nextFiring } ∧ (t.opAt s.arg.unit s.arg.other).state = 0))) ∧
  (∀ e items e', Occurs .ticketPull (fun s => s.pullOf s.arg.unit = some (e, items, e') ∧ (s.tileOf (tileOfCore s.arg.unit)).pwr = 0) (fun s t =>
    (t.coreOf s.arg.unit).held = (s.coreOf s.arg.unit).held ++ items.map (fun n => (e.id, n, s.rtime)))) ∧
  (∀ e items e', Occurs .ticketSteal (fun s => s.ticketSteal s.arg.unit = some (e, items, e') ∧ (s.tileOf (tileOfCore s.arg.unit)).pwr = 0) (fun s t =>
    (t.coreOf s.arg.unit).held = (s.coreOf s.arg.unit).held ++ items.map (fun n => (e.id, n, s.rtime)))) ∧
  (∀ v r, Occurs .taskSteal (fun s => s.taskVictim s.arg.unit = some v ∧ v ≠ s.arg.unit ∧ ((s.coreOf v).deque ++ (s.coreOf v).spill).getLast? = some r ∧ (s.tileOf (tileOfCore s.arg.unit)).pwr = 0) (fun s t =>
    (t.coreOf s.arg.unit).deque = (if (s.coreOf v).spill = [] then r else ringRecord s v r) :: (s.coreOf s.arg.unit).deque ∧ (t.coreOf v).deque ++ (t.coreOf v).spill = ((s.coreOf v).deque ++ (s.coreOf v).spill).dropLast)) ∧
  (∀ id item u r e m, Occurs .footprintCopy (fun s => s.footWanted s.arg.unit = some (id, item, u, r) ∧ s.launchOf id = some e ∧ s.tileStill u = false ∧
      s.copyRun (2 * u + 1) e.tag e.level ((Header.region e.header r).len / 0x1000 + 2) (Header.region e.header r).va (gpaKey (tileGpa u (Header.regionAt e.header r))) (Header.region e.header r).len s.mem = .ok m) (fun s t =>
    t.mem = m ∧ (t.tileOf u).foot = (s.tileOf u).foot ++ [(id, r, Header.regionAt e.header r / 0x1000, (Header.region e.header r).len / 0x1000, (Header.region e.header r).pin)])) ∧
  (∀ id item u r e c, Occurs .footprintCopy (fun s => s.footWanted s.arg.unit = some (id, item, u, r) ∧ s.launchOf id = some e ∧ s.tileStill u = false ∧
      s.copyRun (2 * u + 1) e.tag e.level ((Header.region e.header r).len / 0x1000 + 2) (Header.region e.header r).va (gpaKey (tileGpa u (Header.regionAt e.header r))) (Header.region e.header r).len s.mem = .error (some c)) (fun s t =>
    (t.coreOf s.arg.unit).held = (s.coreOf s.arg.unit).held.filter (fun x => !(x.1 = id && x.2.1 = item)) ∧ t.mem = s.mem)) ∧
  Occurs .parkResume (fun s => (s.resumable s.arg.unit).contains s.arg.other = true ∧ (s.tileOf (tileOfCore s.arg.unit)).pwr = 0 ∧ coreFree s s.arg.unit ∧ 64 ≤ s.arg.other) (fun s t =>
    let i := 8 * s.arg.unit + (s.arg.other - 64)
    t.ctxOf i = (s.ctxOf i).resumed) ∧
  (∀ i, Occurs .parkResume (fun s => (s.resumable s.arg.unit).contains s.arg.other = true ∧ (s.tileOf (tileOfCore s.arg.unit)).pwr = 0 ∧ coreFree s s.arg.unit ∧ s.arg.other < 64 ∧ s.freeSlot s.arg.unit = some i) (fun s t =>
    t.ctxOf i = ((s.coreOf s.arg.unit).parked.get {} s.arg.other).resumed ∧ (t.coreOf s.arg.unit).parked = (s.coreOf s.arg.unit).parked.drop s.arg.other)) ∧
  (∀ e, Occurs .launchComplete (fun s => s.launchOver s.arg.unit = true ∧ s.launchOf s.arg.unit = some e ∧ e.host = true) (fun s t => t.loith.events = s.loith.events + 1 ∧ launchIn (t.hubOf (launchField s.arg.unit)).launches s.arg.unit = none)) ∧
  Occurs .coreHang (fun s => s.hangDue s.arg.unit = true) (fun s t => (t.coreOf s.arg.unit).hung = true ∧ ∃ p, t.plat = s.plat ++ [p] ∧ msgClass p = 0xFE00 + Cause.coreHang) ∧
  Occurs .wdogReport (fun s => s.wdogDue s.arg.unit = true) (fun s t => t.ctxOf s.arg.unit = { s.ctxOf s.arg.unit with reported := true })

/-! ### Engines, operations and barriers after their issue -/

/-- The operation at the cursor of a slot may be worked on now (R398, R403). -/
def pieceDue (s : State) (u j : Nat) : Prop :=
  (s.opAt u j).state = 1 ∧ (s.opAt u j).cursor < (s.opAt u j).total ∧ (s.opAt u j).offload = [] ∧ (s.opAt u j).deliv = [] ∧ s.copyTurn u (s.opAt u j) = true ∧ s.tileStill u = false

/-- A state in which the destinations of a multicast that are dark now are one failed item each, and have left the multicast (R41, R404). -/
def withoutDark (s : State) (u j : Nat) : State :=
  let dark := s.mcastDark (s.opAt u j)
  if dark = [] then s else s.updOp u j (fun o => dark.foldl (fun o i => { o.failItems (2 ^ 63 + i) 1 Cause.destDark with gone := i :: o.gone }) o)

/-- The items of a piece have failed with a cause, and the cursor has passed them (R244, R245). -/
def PieceFails (o o' : Op) (c : Nat) : Prop := o'.failed = o.failed + o.width ∧ o'.cursor = o.cursor + o.width ∧ (o.failed = 0 → o'.firstCause = c)

/-- The item at the cursor is done in `s1`, `n` items and `b` bytes of it. What goes to another device waits for its delivery there; else the cursor passes it
with its delivery, which the barrier may refuse (R229, R245). -/
def ItemDone (s1 t : State) (u j n b : Nat) : Prop :=
  let o1 := s1.opAt u j
  let o := t.opAt u j
  let later := o1.away && tailDelivers o1.desc && !o1.shadow
  t.mem = s1.mem ∧ o.offload = [] ∧ (later = true → o.deliv = [(o1.cursor, b)] ∧ o.cursor = o1.cursor) ∧
    (later = false → (s1.opDeliver u j b).1 = none → o.cursor = o1.cursor + n ∧ o.okItems = o1.okItems + n) ∧
    (∀ c, later = false → (s1.opDeliver u j b).1 = some c → PieceFails o1 o c)

/-- R370, R381: the occupancy of an engine ends; a ring transfer takes the link, leaves its sender's latch and fills the receiver's. -/
def engineOccupancyAndRingTransfers : Prop :=
  Occurs .engineOccupancyEnd (fun s => s.occupancyOver s.arg.unit = true) (fun s t => (t.tileOf s.arg.unit).eng = { (s.tileOf s.arg.unit).eng with inFlight := false } ∧ (t.tileOf s.arg.unit).engShown = none) ∧
  (∀ x, Occurs .ringTransfer (fun s => s.rings[s.arg.unit]? = some x ∧ s.ringDue s.arg.unit = true) (fun s t =>
    (x.phase = 0 → (∃ y, t.rings = setAt s.rings s.arg.unit (some y) ∧ y.phase = 1 ∧ y.leaves = s.now + (x.contents.bytes + 127) / 128 * meshUnits ∧ y.arrives = y.leaves + (2 + (s.ringNext x.src).2) * meshUnits ∧ y.contents = x.contents) ∧
      ((t.tileOf x.dst).eng.latchAt x.latch).pend = true) ∧
    (x.phase = 1 → t.rings = setAt s.rings s.arg.unit (some { x with phase := 2 }) ∧ ((t.tileOf x.src).eng.latchAt x.srcLatch).send = false ∧ ((t.tileOf x.src).eng.latchAt x.srcLatch).valid = false) ∧
    (2 ≤ x.phase → t.rings = setAt s.rings s.arg.unit none ∧
      let l := (t.tileOf x.dst).eng.latchAt x.latch
      l.valid = true ∧ l.ring = true ∧ l.pend = false ∧ l.rseq = (((s.tileOf x.dst).eng.latchAt x.latch).rseq + 1) % 65536 ∧ l.fmt = x.contents.fmt ∧ l.geo = x.contents.geo ∧ l.k = x.contents.k ∧ l.data = x.contents.data ∧
        l.scales = x.contents.scales)))

/-- R41, R244, R245, R398, R400, R403, R404: the item at an operation's cursor is done and passed, fails and is passed, waits for its chips, or suspends the operation at the cursor; a chip that refuses, or gives no answer in 10 ms, fails the item.
Destinations of a multicast that have gone dark fail first, one item each. -/
def operationItemsAreDone : Prop :=
  (∀ s1 n b, Occurs .operationPiece (fun s => let s0 := withoutDark s s.arg.unit s.arg.other
      pieceDue s s.arg.unit s.arg.other ∧ s0.opItem s.arg.unit (s0.opAt s.arg.unit s.arg.other) false = .ok (s1, n, b)) (fun s t =>
    ItemDone s1 t s.arg.unit s.arg.other n b)) ∧
  (∀ c, Occurs .operationPiece (fun s => let s0 := withoutDark s s.arg.unit s.arg.other
      pieceDue s s.arg.unit s.arg.other ∧ s0.opItem s.arg.unit (s0.opAt s.arg.unit s.arg.other) false = .error (.fail c)) (fun s t =>
    PieceFails ((withoutDark s s.arg.unit s.arg.other).opAt s.arg.unit s.arg.other) (t.opAt s.arg.unit s.arg.other) c ∧ t.mem = s.mem)) ∧
  (∀ c m s1, Occurs .operationPiece (fun s => let s0 := withoutDark s s.arg.unit s.arg.other
      pieceDue s s.arg.unit s.arg.other ∧ s0.opItem s.arg.unit (s0.opAt s.arg.unit s.arg.other) false = .error (.part c m s1)) (fun s t =>
    PieceFails (s1.opAt s.arg.unit s.arg.other) (t.opAt s.arg.unit s.arg.other) c ∧ t.mem = s1.mem ∧ ∀ f b, t.barAt f b = (s1.opDeliver s.arg.unit s.arg.other m).2.barAt f b)) ∧
  Occurs .operationPiece (fun s => let s0 := withoutDark s s.arg.unit s.arg.other
      pieceDue s s.arg.unit s.arg.other ∧ s0.opItem s.arg.unit (s0.opAt s.arg.unit s.arg.other) false = .error .wait) (fun s t =>
    t = withoutDark s s.arg.unit s.arg.other) ∧
  (∀ c a y, Occurs .operationPiece (fun s => let s0 := withoutDark s s.arg.unit s.arg.other
      pieceDue s s.arg.unit s.arg.other ∧ s0.opItem s.arg.unit (s0.opAt s.arg.unit s.arg.other) false = .error (.suspend c a y)) (fun s t =>
    let o := t.opAt s.arg.unit s.arg.other
    o.state = 2 ∧ o.cause = c ∧ o.addr = a ∧ o.cursor = (s.opAt s.arg.unit s.arg.other).cursor ∧ t.mem = s.mem ∧ t.ctxs = s.ctxs)) ∧
  Occurs .operationPiece (fun s => let s0 := withoutDark s s.arg.unit s.arg.other
      pieceDue s s.arg.unit s.arg.other ∧ s0.opItem s.arg.unit (s0.opAt s.arg.unit s.arg.other) false = .error .offload) (fun s t =>
    let o := (withoutDark s s.arg.unit s.arg.other).opAt s.arg.unit s.arg.other
    t.opAt s.arg.unit s.arg.other = { o with offload := [(o.cursor, 1, s.rtime)] } ∧ t.mem = s.mem) ∧
  Occurs .offloadReply (fun s => (s.opAt s.arg.unit s.arg.other).state = 1 ∧ (s.opAt s.arg.unit s.arg.other).offload.any (fun e => e.1 = s.arg.value) = true ∧ s.tileStill s.arg.unit = false ∧ s.arg.flag = true) (fun s t =>
    PieceFails (s.opAt s.arg.unit s.arg.other) (t.opAt s.arg.unit s.arg.other) Cause.offloadReject) ∧
  (∀ s1 n b, Occurs .offloadReply (fun s => (s.opAt s.arg.unit s.arg.other).state = 1 ∧ (s.opAt s.arg.unit s.arg.other).offload.any (fun e => e.1 = s.arg.value) = true ∧ s.tileStill s.arg.unit = false ∧ s.arg.flag = false ∧
      s.opItem s.arg.unit (s.opAt s.arg.unit s.arg.other) true = .ok (s1, n, b)) (fun s t =>
    ItemDone s1 t s.arg.unit s.arg.other n b)) ∧
  Occurs .offloadTimeout (fun s => (s.opAt s.arg.unit s.arg.other).state = 1 ∧ ∃ i n d, (i, n, d) ∈ (s.opAt s.arg.unit s.arg.other).offload ∧ d + 10000000 ≤ s.rtime) (fun s t =>
    PieceFails (s.opAt s.arg.unit s.arg.other) (t.opAt s.arg.unit s.arg.other) Cause.offloadTimeout)

/-- An operation has no more to write, and its completion is not made yet (R222, R395). -/
def opEnds (s : State) : Prop :=
  let o := s.opAt s.arg.unit s.arg.other
  s.tileStill s.arg.unit = false ∧ o.sending = none ∧ o.deliv = [] ∧ (o.state = 3 ∨ (o.state = 1 ∧ o.total ≤ o.cursor))

/-- The state in which its status record is written and its completion is made. -/
def ending (s : State) : State := s.updOp s.arg.unit s.arg.other (fun o => { o with state := 3 })

/-- The four words of a completion (R395). -/
def completionWords (s : State) (w : Word) : List Word :=
  let o := s.opAt s.arg.unit s.arg.other
  [BitVec.ofNat 64 (w.toNat / 8 * 8 + 3), BitVec.ofNat 64 (o.outcome s.arg.other), BitVec.ofNat 64 o.cursor, s.rtimeWord]

/-- R222, R394 to R396: an operation at its end writes its status record, makes its completion of four words where its tail has one, and becomes free; the follower of a doubles pair makes none; a completion of a dormant start waits for its context. -/
def operationsComplete : Prop :=
  Occurs .operationComplete (fun s => opEnds s ∧ tailStat (s.opAt s.arg.unit s.arg.other).desc = 0 ∧ ((s.opAt s.arg.unit s.arg.other).word = none ∨ (s.opAt s.arg.unit s.arg.other).shadow = true)) (fun s t =>
    t.opAt s.arg.unit s.arg.other = { cmderr := (s.opAt s.arg.unit s.arg.other).cmderr } ∧ t.mem = s.mem) ∧
  (∀ ps s1, Occurs .operationComplete (fun s => let o := (ending s).opAt s.arg.unit s.arg.other
      opEnds s ∧ tailStat o.desc ≠ 0 ∧ (o.word = none ∨ o.shadow = true) ∧ (ending s).opMap s.arg.unit o (tailStat o.desc) (32 + 16 * o.errs.length) .write = .ok ps ∧
      (ending s).opWrite s.arg.unit o ps (o.record s.arg.other s.rtime) = .ok s1) (fun s t =>
    t.mem = s1.mem ∧ t.opAt s.arg.unit s.arg.other = { cmderr := (s1.opAt s.arg.unit s.arg.other).cmderr })) ∧
  (∀ w, Occurs .operationComplete (fun s => let o := s.opAt s.arg.unit s.arg.other
      opEnds s ∧ tailStat o.desc = 0 ∧ o.word = some w ∧ o.shadow = false ∧ o.dorm = true) (fun s t =>
    ∃ m, (t.opAt s.arg.unit s.arg.other).sending = some m ∧ m.capLo = (s.opAt s.arg.unit s.arg.other).capLo ∧ m.words = completionWords s w)) ∧
  (∀ w m s2 k a p vn d, Occurs .operationComplete (fun s => let o := s.opAt s.arg.unit s.arg.other
      opEnds s ∧ tailStat o.desc = 0 ∧ o.word = some w ∧ o.shadow = false ∧ o.dorm = false ∧ m = (ending s).completion s.arg.unit s.arg.other w ∧ capDev m.capLo = s.loith.device ∧
      s2 = (ending s).updOp s.arg.unit s.arg.other (fun o => { o with sending := some m }) ∧ s2.completionPort m = some (k, a, p, vn) ∧ vn ≠ 2 ∧ s2.masked vn = false ∧
      s2.injectTo { m with core := k, act := a, port := p, vn := vn, dev := s.loith.device, router := some s.arg.unit } = .core d) (fun s t =>
    t.flying = s.flying ++ [{ m with core := k, act := a, port := p, vn := vn, dev := s.loith.device, router := some s.arg.unit }] ∧ m.words = completionWords s w ∧
    t.opAt s.arg.unit s.arg.other = { cmderr := (s.opAt s.arg.unit s.arg.other).cmderr }))

/-- R228, R229, R231, R232: an arrival joins its member's next ply, whose number it returns, and adds to the balance; a delivery takes its bytes from the balance; an error of either changes no barrier; and the oldest ply leaves the barrier once it is due. -/
def barriersCountArrivalsAndBytes : Prop :=
  (∀ a, Occurs .barrierArrival (fun s => s.accOf s.arg.value = some a ∧ a.kind = .arrival ∧ a.result = none ∧ a.reach ≠ 3 ∧ s.masked 0 = false ∧ (s.hubOf (fieldOfTile (tileOfCtx a.ctx))).locking = none ∧
      s.wayCause (tileOfCtx a.ctx) a.gpa = none) (fun s t =>
    let f := gpaHub a.gpa
    let b := (gpaHubOff a.gpa - 0x300000) / 0x400
    let o := s.barAt f b
    let l := o.lead.get 0 a.data2
    let p := (o.oldest + l) % 2 ^ 32
    let o1 := { o with bal := o.bal.put (p % 4) (o.bal.get 0 (p % 4) + a.data), arr := o.arr.put (p % 4) (o.arr.get 0 (p % 4) + 1), lead := o.lead.put a.data2 (l + 1), last := o.last.put (p % 4) s.rtime }
    let res := (t.accOf s.arg.value).bind (fun x => x.result)
    (o.valid = false ∨ o.owner ≠ a.tag ∨ o.mm1 < a.data2 → res = some (.failed Cause.barBad 0) ∧ t.barAt f b = o) ∧
    (o.valid = true → o.owner = a.tag → a.data2 ≤ o.mm1 → 3 ≤ l → t.accOf s.arg.value = none ∧ t.barAt f b = o) ∧
    (o.valid = true → o.owner = a.tag → a.data2 ≤ o.mm1 → l < 3 → 2 ^ 39 - 1 < o.bal.get 0 (p % 4) + (a.data : Int) → res = some (.failed Cause.barRange 0) ∧ t.barAt f b = o) ∧
    (o.valid = true → o.owner = a.tag → a.data2 ≤ o.mm1 → l < 3 → o.bal.get 0 (p % 4) + (a.data : Int) ≤ 2 ^ 39 - 1 → res = some (.value p) ∧
      (o1.oldestStatus s.rtime = none → t.barAt f b = if o.pace then o1.recordField (p % 4) (fieldOfTile (tileOfCtx a.ctx)) (s.rtime % 2 ^ 56) else o1)))) ∧
  (∀ item n rest, Occurs .barrierDelivery (fun s => (s.opAt s.arg.unit s.arg.other).deliv = (item, n) :: rest) (fun s t =>
    let o := s.opAt s.arg.unit s.arg.other
    let f := tailRef o.desc / 256
    let b := tailRef o.desc % 256
    let r := s.barAt f b
    let slot := tailPly o.desc % 4
    let r1 := { r with bal := r.bal.put slot (r.bal.get 0 slot - (n : Int)) }
    let refused := fun (c : Nat) => (t.opAt s.arg.unit s.arg.other).failed = o.failed + o.widthAt item ∧ t.barAt f b = r ∧ (o.failed = 0 → (t.opAt s.arg.unit s.arg.other).firstCause = c)
    (t.opAt s.arg.unit s.arg.other).deliv = rest ∧ (t.opAt s.arg.unit s.arg.other).cursor = item + o.widthAt item ∧
    (r.valid = true → r.owner = o.tag → (tailPly o.desc + 2 ^ 32 - r.oldest) % 2 ^ 32 ≤ 3 → -2 ^ 39 ≤ r.bal.get 0 slot - (n : Int) → t.opAt s.arg.unit s.arg.other = { o with deliv := rest, cursor := item + o.widthAt item, okItems := o.okItems + o.widthAt item } ∧
      (r1.oldestStatus s.rtime = none → t.barAt f b = r1)) ∧
    (r.valid = false ∨ r.owner ≠ o.tag → refused Cause.barBad) ∧
    (r.valid = true → r.owner = o.tag → 3 < (tailPly o.desc + 2 ^ 32 - r.oldest) % 2 ^ 32 → refused Cause.barPly) ∧
    (r.valid = true → r.owner = o.tag → (tailPly o.desc + 2 ^ 32 - r.oldest) % 2 ^ 32 ≤ 3 → r.bal.get 0 slot - (n : Int) < -2 ^ 39 → refused Cause.barRange))) ∧
  (∀ st, Occurs .barrierTimeout (fun s => let o := s.barAt s.arg.unit s.arg.other
      o.valid = true ∧ o.oldestStatus s.rtime = some st ∧ ({ o.finishPly st s.rtime with waiters := o.waiters.filter (fun w => w.2 ≠ o.oldest) } : Barrier).oldestStatus s.rtime = none) (fun s t =>
    let o := s.barAt s.arg.unit s.arg.other
    t.barAt s.arg.unit s.arg.other = { o.finishPly st s.rtime with waiters := o.waiters.filter (fun w => w.2 ≠ o.oldest) }))

/-- R222, R228 to R232, R244, R245, R370, R381, R394 to R400, R404: what follows an engine instruction, an operation and an arrival at a barrier. Each event completes: it answers a next state, from every state of its occasion. That these come about as events with
`arg` as their payload is the model's form; its choices are in logs 1 and 65. -/
def Obligations.EnginesOperationsAndBarriersProgress : Prop :=
  engineOccupancyAndRingTransfers ∧ operationItemsAreDone ∧ operationsComplete ∧ barriersCountArrivalsAndBytes

/-! ### What comes back, translation, streams and errors -/

/-- A reply finds its context holding for it (R313). -/
def waitsFor (s : State) (a : Access) : Prop := (s.ctxOf a.ctx).occ = true ∧ (s.ctxOf a.ctx).firing = a.firing ∧ (s.ctxOf a.ctx).hold = some a.id

/-- No firing is being killed (R243). -/
def noKill (s : State) : Prop := (∀ e ∈ s.ctxs, e.2.killed = 0) ∧ ∀ e ∈ s.cores, ∀ q ∈ e.2.parked, q.2.killed = 0

/-- R113, R118 to R122, R125, R187, R191 to R193, R211, R216, R247, R313: what comes back to a core. A reply gives its value to the bundle that holds for it, or freezes the context with the cause of the failed access; without a reply from another device
for 10 ms the cause is `RESP_TIMEOUT`. An acknowledgement lowers UNACK and counts a failure in FSTAT. A line fill serves every reader of its line; a walk fills both TLBs and an invalidation empties them of the pages it names; a sync record goes
once its stores are acknowledged; an input stream's step joins its FIFO or holds its fault; an output step leaves as a store; an uncorrectable error poisons its line, freezes its context, bounces its message, or empties its barrier. Each event completes: it answers a next state, from every state of its occasion. That these come about as events with `arg` as their payload is the model's form; its choices are in logs 1, 18, 22, 28, 66 and 67. -/
def Obligations.RepliesFillsWalksAndErrors : Prop :=
  (∀ a r, Occurs .accessReply (fun s => s.accOf s.arg.value = some a ∧ waitsFor s a ∧ s.tileStill (tileOfCtx a.ctx) = false ∧ a.reach < 3 ∧ a.result = some r ∧ a.fills = [] ∧ s.wayBack a = true) (fun s t =>
    t.accOf s.arg.value = none ∧
    (∀ v, r = .value v → t.ctxOf a.ctx = { s.ctxOf a.ctx with reply := some (.value v) }) ∧
    (∀ c n, r = .failed c n → (t.ctxOf a.ctx).st = 1 ∧ (t.ctxOf a.ctx).cause = c ∧ (t.ctxOf a.ctx).pc = (s.ctxOf a.ctx).pc ∧ (t.ctxOf a.ctx).x = (s.ctxOf a.ctx).x))) ∧
  (∀ a, Occurs .accessReply (fun s => s.accOf s.arg.value = some a ∧ waitsFor s a ∧ s.tileStill (tileOfCtx a.ctx) = false ∧ a.reach = 3 ∧ a.result = none ∧ s.arg.flag = false) (fun s t =>
    t.accOf s.arg.value = none ∧ (t.ctxOf a.ctx).reply = some (.value (s.arg.list.headD 0)))) ∧
  (∀ a, Occurs .respTimeout (fun s => s.accOf s.arg.value = some a ∧ waitsFor s a ∧ a.reach = 3 ∧ a.result = none ∧ a.since + 10000000 ≤ s.rtime) (fun s t =>
    t.accOf s.arg.value = none ∧ (t.ctxOf a.ctx).st = 1 ∧ (t.ctxOf a.ctx).cause = Cause.respTimeout)) ∧
  (∀ a r i, Occurs .storeAck (fun s => s.accOf s.arg.value = some a ∧ a.silent = true ∧ (s.ctxOf a.ctx).hold ≠ some a.id ∧ s.tileStill (tileOfCtx a.ctx) = false ∧ a.reach < 3 ∧ a.result = some r ∧ s.wayBack a = true ∧ noKill s ∧
      (s.ctxOf i).occ = true ∧ (s.ctxOf i).firing = a.firing) (fun s t =>
    t.accOf s.arg.value = none ∧ (∀ v, r = .value v → t.ctxOf i = (s.ctxOf i).unackDown a.reach) ∧ (∀ c n, r = .failed c n → t.ctxOf i = ((s.ctxOf i).unackDown a.reach).countFailure n))) ∧
  Occurs .sliceFill (fun s => s.misses.has s.arg.value = true ∧ s.homeStill (lineGpa s.arg.value) = false ∧ s.fillWay (lineGpa s.arg.value) = true) (fun s t =>
    t.cached.has s.arg.value = true ∧ t.misses.has s.arg.value = false ∧ ∀ a ∈ t.net, s.arg.value ∉ a.fills) ∧
  (∀ p e lvl, Occurs .pageWalk (fun s => s.partOfTag s.arg.tag = some p ∧ bitAt ((s.hubOf (fieldOfTile (tileOfCore s.arg.unit))).troots.get 0 p) 0 = true ∧ s.arg.addr < 2 ^ 60 ∧
      s.walk s.arg.addr s.arg.tag (accOfCode s.arg.level) 4 (bitsAt ((s.hubOf (fieldOfTile (tileOfCore s.arg.unit))).troots.get 0 p) 63 16) 3 = .ok (e, lvl) ∧ e.kind ≠ 4) (fun s t =>
    let x : TlbEntry := { tag := s.arg.tag, va := s.arg.addr / 2 ^ levelShift lvl * 2 ^ levelShift lvl, level := lvl, pte := e.raw, tile := 0 }
    x ∈ (t.hubOf (fieldOfTile (tileOfCore s.arg.unit))).tlb ∧ x ∈ (t.coreOf s.arg.unit).utlb)) ∧
  Occurs .tlbinvLowWrite (fun _ => True) (fun s t => (t.hubOf s.arg.unit).tlbLow.get 0 (s.tlbKey s.arg.tag) = s.arg.value ∧ (t.hubOf s.arg.unit).tlbq = (s.hubOf s.arg.unit).tlbq) ∧
  Occurs .tlbinvHighWrite (fun _ => True) (fun s t => (t.hubOf s.arg.unit).tlbIssued = ((s.hubOf s.arg.unit).tlbIssued + 1) % 2 ^ 32 ∧
    let low := (s.hubOf s.arg.unit).tlbLow.get 0 (s.tlbKey s.arg.tag)
    (t.hubOf s.arg.unit).tlbq = (s.hubOf s.arg.unit).tlbq ++ [(s.arg.tag, s.arg.value, max 1 (low / 2 ^ 24 % 2 ^ 16), low / 2 ^ 22 % 4)]) ∧
  (∀ r rest p, Occurs .tlbinvDone (fun s => (s.hubOf s.arg.unit).tlbq = r :: rest ∧ s.tlbDue s.arg.unit = true ∧ s.partOfTag r.1 = some p) (fun s t =>
    (t.hubOf s.arg.unit).tlbq = rest ∧ (t.hubOf s.arg.unit).tlbDone = ((s.hubOf s.arg.unit).tlbDone + 1) % 2 ^ 32 ∧
    (∀ f ∈ (s.partOf p).fields, ∀ x ∈ (t.hubOf f).tlb, x.hitBy r = false) ∧ ∀ k, fieldOfTile (tileOfCore k) ∈ (s.partOf p).fields → ∀ x ∈ (t.coreOf k).utlb, x.hitBy r = false)) ∧
  Occurs .syncRecordClear (fun _ => True) (fun s t => ∀ r, r ∈ t.syncs ↔ r ∈ s.syncs ∧ (r.line ≠ s.arg.value ∨ s.syncClear r = false)) ∧
  (∀ q s1, Occurs .streamInputFill (fun s => let x := (s.coreOf s.arg.unit).streamAt s.arg.other
      s.tileStill (tileOfCore s.arg.unit) = false ∧ x.bound = true ∧ x.output = false ∧ x.fault = none ∧ x.fifo.length < 8 ∧ x.fetched < x.total ∧ s.streamOpen x = true ∧ s.inputStep s.arg.unit s.arg.other x = some (q, s1)) (fun s t =>
    let x := (s.coreOf s.arg.unit).streamAt s.arg.other
    (∀ v, q = .ok v → (t.coreOf s.arg.unit).streamAt s.arg.other = { x with fifo := x.fifo ++ [BitVec.ofNat 256 v], fetched := x.fetched + 1 }) ∧
    (∀ c y, q = .error (c, y) → (t.coreOf s.arg.unit).streamAt s.arg.other = { x with fault := some (c, x.addr x.fetched), faultSynd := y }))) ∧
  (∀ ps b rest, Occurs .streamOutputStore (fun s => let x := (s.coreOf s.arg.unit).streamAt s.arg.other
      s.tileStill (tileOfCore s.arg.unit) = false ∧ x.bound = true ∧ x.output = true ∧ s.streamOpen x = true ∧ x.outs = (ps, b) :: rest ∧ noKill s ∧
      ∀ r ∈ s.homeCuts ps, s.unackRoom x.ctx x.firing (State.reachOf (tileOfCore s.arg.unit) (s.homeOf r.2.1)) = true) (fun s t =>
    let x := (s.coreOf s.arg.unit).streamAt s.arg.other
    (t.coreOf s.arg.unit).streamAt s.arg.other = { x with fifo := x.fifo.drop 1, outs := rest, fetched := x.fetched + 1 } ∧
    ∃ l, t.net = s.net ++ l ∧ (∀ a ∈ l, a.kind = .store ∧ a.firing = x.firing) ∧ l.map (fun a => (a.va, a.gpa, a.size)) = s.homeCuts ps ∧
      accessData l = b % 2 ^ (8 * (l.map (fun a => a.size)).sum))) ∧
  Occurs .ueDetect (fun s => s.arg.level ≤ 1) (fun s t => s.arg.addr ∈ t.poison ∧ t.mem = s.mem ∧ t.ctxs = s.ctxs) ∧
  Occurs .ueDetect (fun s => s.arg.level = 2 ∧ s.arg.flag = false ∧ (s.ctxOf s.arg.unit).occ = true ∧ (s.ctxOf s.arg.unit).st = 0 ∧ (s.ctxOf s.arg.unit).killed = 0 ∧ ∃ l ∈ s.arg.list, l < 16) (fun s t =>
    (t.ctxOf s.arg.unit).st = 1 ∧ (t.ctxOf s.arg.unit).cause = Cause.ueRegcache ∧ (t.ctxOf s.arg.unit).pc = (s.ctxOf s.arg.unit).pc) ∧
  (∀ m, Occurs .ueDetect (fun s => s.arg.level = 4 ∧ (((s.coreOf s.arg.unit).actorAt s.arg.other).portAt s.arg.addr).hwPart[s.arg.value]? = some m ∧ m.hw = false ∧ m.vn ≠ 1 ∧ m.srcCore < 21600) (fun s t =>
    let q := ((s.coreOf s.arg.unit).actorAt s.arg.other).portAt s.arg.addr
    portHolds s (tileOfCore s.arg.unit) q (((t.coreOf s.arg.unit).actorAt s.arg.other).portAt s.arg.addr) (setAt q.hwPart s.arg.value none ++ q.oq) ∧
    ∃ b, t.flying = s.flying ++ [b] ∧ IsBounce s b m Cause.uePort)) ∧
  Occurs .ueDetect (fun s => s.arg.level = 3) (fun s t =>
    (tileKind s.arg.unit = 0 → (t.tileOf s.arg.unit).eng.pois = (s.tileOf s.arg.unit).eng.pois ||| BitVec.ofNat 4 (2 ^ (s.arg.other % 4))) ∧
    (tileKind s.arg.unit = 2 → (t.tileOf s.arg.unit).eng.attPois = (s.tileOf s.arg.unit).eng.attPois ||| BitVec.ofNat 4 (2 ^ (s.arg.other % 4)))) ∧
  Occurs .ueDetect (fun s => s.arg.level = 5 ∧ s.arg.flag = false ∧ (s.barAt s.arg.unit s.arg.other).valid = true) (fun s t => t.barAt s.arg.unit s.arg.other = {})

/-! ### Registers and the debug page -/

/-- A debug command of this code is accepted for a firing in its slot (R242). -/
def dbgTakes (s : State) (c : Ctx) : Prop :=
  s.dbgPends s.arg.unit s.arg.tag = false ∧ s.pageFiring s.arg.unit = some (.slot, c) ∧ c.killed = 0 ∧ c.ueLines = []

/-- The page shows the command as the last one accepted (R241). -/
def dbgShows (s t : State) (code : Nat) : Prop :=
  (t.dbgOf s.arg.unit).result = 0 ∧ (t.dbgOf s.arg.unit).lastcmd = code ∧ (t.dbgOf s.arg.unit).ncmd = ((s.dbgOf s.arg.unit).ncmd + 1) % 2 ^ 32

/-- R100, R101, R106, R143, R149, R183, R241 to R244, R399: registers that software writes by address. A counter takes its configuration with an event code of its kind, else 0; DQCFG, ACTCFG and PARKCFG take a base and a capacity inside the
local store while nothing uses them, else keep theirs; a capacity stripe is taken if it is legal, else refused; OPCMD resumes or fails a suspended operation, one that it resumes in a quiesce of the field being saved to run later (R97), else sets CMDERR; the debug commands stop a running firing, and make a frozen one run from
its PC, from the frozen bundle, or past it, or end it; a command that the state does not allow leaves its result. Each event completes: it answers a next state, from every state of its occasion. That these come about as events with `arg` as their payload is the model's form; its choices are in logs 1 and 57. -/
def Obligations.RegistersAndDebugCommandsAct : Prop :=
  Occurs .registerWrite (fun s => gpaSpace s.arg.addr = 3 ∧ s.gpaLocal s.arg.addr = true ∧ s.arg.other = 8 ∧ (gpaHubOff s.arg.addr = 0x20 ∨ gpaHubOff s.arg.addr = 0x18) ∧ (s.bankPaused = false ∨ shareRegister s.arg.addr = false) ∧
      s.gpaRefuses s.arg.addr 8 .write false 0 s.arg.tag s.arg.level = none) (fun s t =>
    let h := t.hubOf (gpaHub s.arg.addr)
    (gpaHubOff s.arg.addr = 0x20 → h.idle = s.arg.value % 2 ^ 16) ∧ (gpaHubOff s.arg.addr = 0x18 → h.rookEn = bitAt s.arg.value 31 ∧ h.rookPeriod = s.arg.value % 2 ^ 16) ∧ t.mem = s.mem) ∧
  Occurs .cntcfgWrite (fun _ => True) (fun s t =>
    let c := (s.countersOf s.arg.level s.arg.unit).get {} s.arg.other
    let c' := (t.countersOf s.arg.level s.arg.unit).get {} s.arg.other
    c'.en = bitAt s.arg.value 63 ∧ c'.ovf = (c.ovf && !bitAt s.arg.value 62) ∧ c'.omsg = bitAt s.arg.value 61 ∧ c'.value = c.value ∧ (s.arg.level = 0 → c'.ctxm = s.arg.value / 2 ^ 16 % 2 ^ 8) ∧
      c'.event = if eventOk s.arg.level (s.arg.value % 256) then s.arg.value % 256 else 0) ∧
  Occurs .counterOverflow (fun s => 2 ^ 48 ≤ ((s.countersOf s.arg.level s.arg.unit).get {} s.arg.other).value) (fun s t =>
    let c' := (t.countersOf s.arg.level s.arg.unit).get {} s.arg.other
    c'.value = ((s.countersOf s.arg.level s.arg.unit).get {} s.arg.other).value - 2 ^ 48 ∧ c'.ovf = true) ∧
  Occurs .dqcfgWrite (fun _ => True) (fun s t =>
    let cap := s.arg.value / 2 ^ 22 % 2 ^ 12
    let base := s.arg.value % 2 ^ 22 / 32 * 32
    ((s.coreOf s.arg.unit).spill = [] → base + 32 * cap ≤ 0x300000 → (t.coreOf s.arg.unit).spillCap = cap ∧ (t.coreOf s.arg.unit).spillBase = base) ∧
      ((s.coreOf s.arg.unit).spill ≠ [] ∨ 0x300000 < base + 32 * cap → t = s)) ∧
  Occurs .actcfgWrite (fun _ => True) (fun s t =>
    let base := s.arg.value % 2 ^ 22
    ((∀ a ∈ (s.coreOf s.arg.unit).actors, a.2.valid = false) → base % 0x1000 = 0 → base + 0x1000 ≤ 0x300000 → (t.coreOf s.arg.unit).actBase = base) ∧
      ((∃ a ∈ (s.coreOf s.arg.unit).actors, a.2.valid = true) ∨ base % 0x1000 ≠ 0 ∨ 0x300000 < base + 0x1000 → t = s)) ∧
  Occurs .parkcfgWrite (fun _ => True) (fun s t =>
    let cap := s.arg.value / 2 ^ 22 % 2 ^ 7
    let base := s.arg.value % 2 ^ 22 / 1024 * 1024
    ((s.coreOf s.arg.unit).parked = [] → base + 1024 * min 64 cap ≤ 0x300000 → (t.coreOf s.arg.unit).parkCap = cap ∧ (t.coreOf s.arg.unit).parkBase = base) ∧
      ((s.coreOf s.arg.unit).parked ≠ [] ∨ 0x300000 < base + 1024 * min 64 cap → t = s)) ∧
  Occurs .capstripeWrite (fun s => bitAt s.arg.value 63 = true ∧ (s.stripes.get {} s.arg.unit).valid = false) (fun s t =>
    let lg := s.arg.value / 2 ^ 24 % 2 ^ 5
    let len := s.arg.value / 2 ^ 10 % 2 ^ 10
    let base := s.arg.value % 2 ^ 10
    let e := t.stripes.get {} s.arg.unit
    (8 ≤ lg → lg ≤ 30 → len ≠ 0 → base + len ≤ 953 → (∀ x ∈ s.stripes, x.1 ≠ s.arg.unit → x.2.valid = true → overlaps x.2.base x.2.len base len = false) → e.valid = true ∧ e.log2u = lg ∧ e.len = len ∧ e.base = base) ∧
      (lg < 8 ∨ 30 < lg ∨ len = 0 ∨ 953 < base + len → e = { s.stripes.get {} s.arg.unit with refused := true })) ∧
  Occurs .opcmdResume (fun _ => True) (fun s t =>
    let o := s.opAt s.arg.unit s.arg.other
    (o.state = 2 → t.opAt s.arg.unit s.arg.other = (if (s.hubOf (fieldOfTile s.arg.unit)).sw.step = 1 then { o with state := 4, saved := 1, cause := 0, addr := 0 } else { o with state := 1, saved := 0, cause := 0, addr := 0 })) ∧ (o.state ≠ 2 → t.opAt s.arg.unit s.arg.other = { o with cmderr := true })) ∧
  Occurs .opcmdFail (fun _ => True) (fun s t =>
    let o := s.opAt s.arg.unit s.arg.other
    (o.state = 2 → t.opAt s.arg.unit s.arg.other = { o with state := 3, stop := o.cause, cause := 0 }) ∧ (o.state ≠ 2 → t.opAt s.arg.unit s.arg.other = { o with cmderr := true })) ∧
  Occurs .opcmdBad (fun s => (s.opAt s.arg.unit s.arg.other).state ≠ 2 ∨ s.arg.value % 4 = 0 ∨ s.arg.value % 4 = 3) (fun s t =>
    t.opAt s.arg.unit s.arg.other = { s.opAt s.arg.unit s.arg.other with cmderr := true }) ∧
  Occurs .dbgAttach (fun s => ¬ ((s.dbgOf s.arg.unit).capLow = 0 ∧ BitVec.ofNat 64 s.arg.value = 0#64) ∧ s.attachCause s.arg.unit (s.dbgOf s.arg.unit).capLow (BitVec.ofNat 64 s.arg.value) s.arg.tag = none) (fun s t =>
    (t.dbgOf s.arg.unit).att = some (s.arg.other, (s.ctxOf s.arg.other).firing) ∧ (t.dbgOf s.arg.unit).halt = capHas (s.dbgOf s.arg.unit).capLow rightHalt) ∧
  (∀ c, Occurs .dbgStop (fun s => dbgTakes s c ∧ c.st = 0 ∧ s.mustHold c = true) (fun s t => dbgShows s t 1 ∧ t.ctxOf s.arg.unit = { c with preempt := 3 })) ∧
  (∀ c, Occurs .dbgStop (fun s => dbgTakes s c ∧ c.st ≠ 1 ∧ s.mustHold c = false) (fun s t => dbgShows s t 1 ∧ (t.ctxOf s.arg.unit).st = 1 ∧ (t.ctxOf s.arg.unit).cause = Cause.debugStop ∧ (t.ctxOf s.arg.unit).pc = c.pc ∧ (t.ctxOf s.arg.unit).x = c.x)) ∧
  (∀ c, Occurs .dbgResume (fun s => dbgTakes s c ∧ c.st = 1) (fun s t => dbgShows s t 2 ∧ (t.ctxOf s.arg.unit).st = 0 ∧ (t.ctxOf s.arg.unit).pc = c.pc ∧ (t.ctxOf s.arg.unit).stepping = false)) ∧
  (∀ c, Occurs .dbgRestart (fun s => dbgTakes s c ∧ c.st = 1) (fun s t => dbgShows s t 3 ∧ (t.ctxOf s.arg.unit).st = 0 ∧ (t.ctxOf s.arg.unit).pc = c.frozenPc)) ∧
  (∀ c, Occurs .dbgSkip (fun s => dbgTakes s c ∧ c.st = 1) (fun s t => dbgShows s t 4 ∧ (t.ctxOf s.arg.unit).st = 0 ∧ (t.ctxOf s.arg.unit).pc = c.pc + 8)) ∧
  (∀ c, Occurs .dbgStep (fun s => dbgTakes s c ∧ c.st = 1) (fun s t => dbgShows s t 5 ∧ (t.ctxOf s.arg.unit).st = 0 ∧ (t.ctxOf s.arg.unit).pc = c.pc ∧ (t.ctxOf s.arg.unit).stepping = true)) ∧
  (∀ c, Occurs .dbgKill (fun s => dbgTakes s c ∧ c.st ≠ 0) (fun s t =>
    (s.killReady s.arg.unit c = true → (t.dbgOf s.arg.unit).fst = BitVec.ofNat 64 c.fstat ∧ (t.ctxOf s.arg.unit).occ = false) ∧
    (s.killReady s.arg.unit c = false → t.ctxOf s.arg.unit = { c with killed := (if c.st = 1 then c.cause else Cause.firingKilled) + 1, st := 1 }))) ∧
  Occurs .dbgCmdBad (fun s => s.dbgPends s.arg.unit s.arg.tag = false ∧ s.dbgVerdict s.arg.unit s.arg.value ≠ 0) (fun s t =>
    t = s.updDbg s.arg.unit (fun d => { d with result := s.dbgVerdict s.arg.unit s.arg.value, lastcmd := s.arg.value % 16 }))

/-! ### The atlas, the rook, doubles, time, and faults at the fetch -/

/-- R17, R34, R39, R42, R101, R112, R422: the platform retires a node, which ATLCNT counts, or restores it, which waits for a test of it; a link that makes more than 64 retries in 1 µs loses lanes and is degraded, or dark with none left; a dark slice drops its lines and poisons the ones it
loses; a dark port, interface or chip leaves the atlas. A retired node stays retired. -/
def nodesChangeStatus : Prop :=
  Occurs .atlasStatusWrite (fun s => s.arg.value = 3 ∧ (s.atlasRec s.arg.unit s.arg.other).status ≤ 2) (fun s t =>
    (t.atlasRec s.arg.unit s.arg.other).status = 3 ∧ (t.hubOf s.arg.unit).atlcnt = (s.hubOf s.arg.unit).atlcnt + 1) ∧
  Occurs .atlasStatusWrite (fun s => s.arg.value ≠ 3 ∧ (s.atlasRec s.arg.unit s.arg.other).status = 3) (fun s t =>
    (t.atlasRec s.arg.unit s.arg.other).status = 3 ∧ (t.hubOf s.arg.unit).atlcnt = (s.hubOf s.arg.unit).atlcnt ∧
    ∃ e ∈ (t.hubOf s.arg.unit).rookFirst, (e.1, e.2.1) = testedAs s.arg.unit s.arg.other ∧ e.2.2.1 = 1) ∧
  Occurs .linkRetryLimit (fun s => ((s.atlasRec s.arg.unit s.arg.other).kind = 0x09 ∨ (s.atlasRec s.arg.unit s.arg.other).kind = 0x0A) ∧ (s.atlasRec s.arg.unit s.arg.other).status < 2) (fun s t =>
    let left := (s.atlasRec s.arg.unit s.arg.other).caps - s.arg.value
    (64 < s.arg.level → (t.atlasRec s.arg.unit s.arg.other).caps = left ∧ (t.atlasRec s.arg.unit s.arg.other).status = if left = 0 then 2 else 1) ∧
    (s.arg.level ≤ 64 → t.atlasRec s.arg.unit s.arg.other = s.atlasRec s.arg.unit s.arg.other)) ∧
  Occurs .sliceGoesDark (fun s => (s.atlasRec (fieldOfTile s.arg.unit) (nodeOfUnit s.arg.unit 3)).status ≠ 3) (fun s t =>
    (t.atlasRec (fieldOfTile s.arg.unit) (nodeOfUnit s.arg.unit 3)).status = 2 ∧ (∀ l ∈ t.dirty, s.homeOf (lineGpa l) ≠ .tile s.arg.unit) ∧ (∀ e ∈ t.cached, s.homeOf (lineGpa e.1) ≠ .tile s.arg.unit) ∧
    ∀ l ∈ s.arg.list, l ∈ s.dirty → s.homeOf (lineGpa l) = .tile s.arg.unit → l ∈ t.poison) ∧
  Occurs .ualinkPortDark (fun s => (s.atlasRec s.rimHub (57 + s.arg.unit)).status ≠ 3) (fun s t =>
    s.arg.unit ∈ t.loith.darkPorts ∧ (t.atlasRec s.rimHub (57 + s.arg.unit)).status = 2 ∧ (t.atlasRec s.rimHub (57 + s.arg.unit)).caps = (s.atlasRec s.rimHub (57 + s.arg.unit)).caps) ∧
  Occurs .fabricInterfaceDark (fun _ => True) (fun s t =>
    (s.arg.flag = true → s.arg.unit ∈ t.loith.darkChips ∧ (t.atlasRec s.rimHub (177 + s.arg.unit)).kind = 0xFF) ∧
    (s.arg.flag = false → s.arg.unit ∈ t.loith.darkIfs ∧ (∀ j, j < 4 → 4 * s.arg.unit + j ∈ t.loith.darkChips) ∧ ∀ j, j < 9 → 9 * s.arg.unit + j ∈ t.loith.darkPorts))

/-- R34, R43, R44, R46, R47, R422: the rook starts a pass, counts a deferral of the core under test or of none for an engine, pre-empts a firing that has kept it waiting for 2 ms, and ends or abandons a test; a doubles mismatch ends both firings. -/
def rookAndDoublesProgress : Prop :=
  Occurs .rookPassStart (fun s => s.passDue s.arg.unit = true) (fun s t => (t.hubOf s.arg.unit).rookPass = s.rtime ∧ (t.hubOf s.arg.unit).rookRan = true) ∧
  (∀ u n b, Occurs .rookPreempt (fun s => s.rookWaited s.arg.unit = true ∧ s.rookDue s.arg.unit = some (u, n, b) ∧ ∃ e ∈ s.ctxs, coreOfCtx e.1 = rookCore u n ∧ e.2.occ = true ∧ (s.ctxOf e.1).np = true) (fun s t =>
    (t.coreOf (rookCore u n)).deferrals = (s.coreOf (rookCore u n)).deferrals + (if n < 2 then 1 else 0) ∧ t.ctxs = s.ctxs)) ∧
  (∀ u n b i, Occurs .rookPreempt (fun s => s.rookWaited s.arg.unit = true ∧ s.rookDue s.arg.unit = some (u, n, b) ∧ (s.ctxs.filter (fun e => coreOfCtx e.1 = rookCore u n && e.2.occ)).map (fun e => e.1) = [i] ∧
      (∀ j ∈ s.withPartner i, (s.ctxOf j).np = false ∧ s.mustHold (s.ctxOf j) = false) ∧ (s.ctxOf i).st = 0 ∧ 1 + (s.coreOf (rookCore u n)).parked.length ≤ min 64 (s.coreOf (rookCore u n)).parkCap) (fun _ t => (t.ctxOf i).occ = false)) ∧
  Occurs .rookTestDone (fun s => s.testDone s.arg.unit = true) (fun s t =>
    let u := ((s.hubOf s.arg.unit).rookAt s.arg.unit).1
    let j := (s.hubOf s.arg.unit).rookUnit
    let n := testedNode u j
    ((s.hubOf s.arg.unit).rookAgain = some 1 → s.arg.level = 0 → s.arg.value = 0 → (s.atlasRec s.arg.unit n).status = 3 → (t.atlasRec s.arg.unit n).status = 0) ∧
    (j < 2 → (t.coreOf (2 * u + j)).deferrals = 0 ∧ (t.coreOf (2 * u + j)).tested = s.rtime) ∧
    (2 ≤ s.arg.level → s.arg.value = 0 → (s.atlasRec s.arg.unit n).status ≠ 3 → (t.atlasRec s.arg.unit n).status = 2)) ∧
  Occurs .rookTestAbandon (fun s => s.abandonDue s.arg.unit = true) (fun s t => (t.hubOf s.arg.unit).rookBusy = false) ∧
  Occurs .doublesMismatch (fun s => s.isPair s.arg.unit s.arg.other = true ∧ (s.arg.flag = true ∨ s.pairDiffers s.arg.unit s.arg.other = true)) (fun s t => (t.ctxOf s.arg.unit).occ = false ∧ (t.ctxOf s.arg.other).occ = false)

/-- R22, R57, R79, R82, R88, R91: the first exchange in step 5 of the start-up sets the time, forward only, and a later one gives the offset to slew; a device without one for 100 ms says so once. Hub 89 stands in for a dark hub 0, and then takes the
frames that waited; a bridge is announced; a gap in a session is told once. -/
def timeAndHubsAreStoodInFor : Prop :=
  Occurs .timeExchange (fun _ => True) (fun s t =>
    let d := timeOffset s.arg.list s.arg.flag
    (s.loith.epoch = false → s.loith.ready = false → (∃ f, f < 90 ∧ s.inStep f 5 = true) → t.loith.epoch = true ∧ t.rtime = max s.rtime ((s.rtime : Int) + d / (Config.unitsPerNs : Int)).toNat) ∧
    (s.loith.epoch = false → s.loith.ready = false → (∀ f, f < 90 → s.inStep f 5 = false) → t = s) ∧
    (s.loith.epoch = true ∨ s.loith.ready = true → t.rtime = s.rtime ∧ t.loith.offset = d ∧ t.loith.synced = s.rtime ∧ t.loith.lost = false)) ∧
  Occurs .rtimeSyncLost (fun s => s.syncLostDue = true) (fun s t => t.loith.lost = true ∧ t.loith.offset = 0 ∧ t.rtime = s.rtime) ∧
  Occurs .hub0Takeover (fun s => s.loith.ready = true ∧ s.loith.hub0Dark = false) (fun s t => t.loith.hub0Dark = true ∧ t.bank.mirrok = false ∧ (s.loith.hub89Dark = false → t.bank.takeoverAt = some s.rtime)) ∧
  Occurs .hub0Takeover (fun s => s.loith.ready = true ∧ s.loith.hub0Dark = true ∧ s.bank.takeoverAt.isSome = true) (fun s t =>
    ∃ u : State, u.bank.onmirror = true ∧ u.bank.takeoverAt = none ∧ u.loith.atDoor = [] ∧ t = s.loith.atDoor.foldl (fun s e => s.receive e.1 e.2) u) ∧
  Occurs .hub89Dark (fun s => s.loith.ready = true ∧ s.loith.hub89Dark = false) (fun s t => t.loith.hub89Dark = true ∧ t.bank.mirrok = false ∧ (s.loith.hub0Dark = true → t.loith.darkPorts = List.range 72)) ∧
  Occurs .bridgeTakeover (fun s => s.arg.flag = true ∨ (s.loith.bridge ≠ some s.loith.device ∧ s.ueUp = true)) (fun s t => t.loith.bridge = some (if s.arg.flag then s.arg.value % 1024 else s.loith.device)) ∧
  Occurs .sequenceGapTimeout (fun s => s.gapDue s.arg.unit = true) (fun s t =>
    (t.sessionOf s.arg.unit).gapSince = none ∧ (t.sessionOf s.arg.unit).gapTold = (s.sessionOf s.arg.unit).next ∧ t.loith.events = s.loith.events + 1)

/-- R203, R276, R303: an overlong section, an unassigned opcode and a faulting fetch freeze their context at its PC. -/
def issueFaultsFreeze : Prop :=
  Occurs .npTooLong (fun s => (s.ctxOf s.arg.unit).occ = true ∧ (s.ctxOf s.arg.unit).st = 0 ∧ ({ s with cur := s.arg.unit } : State).sectionLong = true) (fun s t =>
    (t.ctxOf s.arg.unit).st = 1 ∧ (t.ctxOf s.arg.unit).cause = Cause.npTooLong ∧ (t.ctxOf s.arg.unit).np = false) ∧
  (∀ d s' e, Occurs .illegalOpcode (fun s => (s.ctxOf s.arg.unit).occ = true ∧ (s.ctxOf s.arg.unit).st = 0 ∧ ({ s with cur := s.arg.unit } : State).fetch = .ok d s' ∧
      bundleCause d (s.ctxOf s.arg.unit).long (s.ctxOf s.arg.unit).level = some e ∧ e.cause = .illegalOpcode) (fun s t => (t.ctxOf s.arg.unit).st = 1 ∧ (t.ctxOf s.arg.unit).cause = Cause.illegalOpcode)) ∧
  (∀ e, Occurs .codeFetchFault (fun s => (s.ctxOf s.arg.unit).occ = true ∧ (s.ctxOf s.arg.unit).st = 0 ∧ ({ s with cur := s.arg.unit } : State).fetch = .bad e) (fun s t =>
    (t.ctxOf s.arg.unit).st = 1 ∧ (t.ctxOf s.arg.unit).cause = e.cause ∧ (t.ctxOf s.arg.unit).pc = (s.ctxOf s.arg.unit).pc)) ∧
  (∀ d s', Occurs .codeFetchFault (fun s => (s.ctxOf s.arg.unit).occ = true ∧ (s.ctxOf s.arg.unit).st = 0 ∧ ({ s with cur := s.arg.unit } : State).fetch = .ok d s' ∧ s.arg.flag = true) (fun s t =>
    (t.ctxOf s.arg.unit).st = 1 ∧ (t.ctxOf s.arg.unit).cause = Cause.ueCode ∧ (t.ctxOf s.arg.unit).pc = (s.ctxOf s.arg.unit).pc))

/-- R17, R22, R34, R39, R43, R44, R47, R57, R79, R82, R88, R91, R112, R145, R203, R276, R303, R422: the events of the fabric and of start of issue. Each event completes: it answers a next state, from every state of its occasion. That these come about as
events with `arg` as their payload is the model's form; its choices are in logs 1, 88, 89, 90 and 101. -/
def Obligations.FabricEventsAct : Prop := nodesChangeStatus ∧ rookAndDoublesProgress ∧ timeAndHubsAreStoodInFor ∧ issueFaultsFreeze

/-! ### Pips, leases, gating -/

/-- R54 to R56, R58, R60, R423: a grant raises the head request's tile by what is granted; a shortfall that nothing covers yet asks the other fields of the partition; an answer makes a lease, which borrower and lender hold alike, and renew or end. -/
def bankersGrantAndLease : Prop :=
  (∀ u r n ball, Occurs .bankerGrant (fun s => s.grantNow s.arg.unit = some (u, r, n, ball) ∧ n ≠ 0) (fun s t =>
    (t.tileOf u).h = (s.tileOf u).h + n ∧ (t.tileOf u).hclass = (if (s.tileOf u).h = 0 then r.cls else max (s.tileOf u).hclass r.cls) ∧ (t.tileOf u).req = (if r.target ≤ (s.tileOf u).h + n then none else some r))) ∧
  (∀ u r n, Occurs .shortfallCover (fun s => s.shortfall s.arg.unit = some (u, r, n) ∧ s.recallable s.arg.unit = [] ∧ s.inProgress s.arg.unit u < n ∧ (s.hubOf s.arg.unit).coverFor ≠ some (u, r.target, r.age) ∧
      (s.hubOf s.arg.unit).borrow = true ∧ s.otherFields s.arg.unit ≠ [] ∧ (s.hubOf s.arg.unit).freeLease.isSome = true) (fun s t =>
    (t.hubOf s.arg.unit).asks = s.otherFields s.arg.unit ∧ (t.hubOf s.arg.unit).coverLeft = n - s.inProgress s.arg.unit u ∧ (t.hubOf s.arg.unit).coverFor = some (u, r.target, r.age))) ∧
  (∀ g rest, Occurs .leaseRequest (fun s => s.bankPaused = false ∧ (s.hubOf s.arg.unit).asks = g :: rest ∧ (s.hubOf s.arg.unit).answer = none) (fun s t =>
    let n := min (s.availOf g) (s.hubOf s.arg.unit).coverLeft
    let dur := max 100 (s.hubOf g).lease
    (t.hubOf s.arg.unit).asks = rest ∧
    (∀ i, s.mayLend g s.arg.unit = true → n ≠ 0 → (s.hubOf g).freeLease = some i → (t.hubOf s.arg.unit).answer = some (g, n, dur, s.rtime) ∧
      (t.hubOf g).leases.get {} i = { valid := true, dir := 0, peer := s.arg.unit, count := n, dur := dur, start := s.rtime }) ∧
    (s.mayLend g s.arg.unit = false ∨ n = 0 ∨ (s.hubOf g).freeLease = none → (t.hubOf s.arg.unit).answer = some (g, 0, dur, s.rtime) ∧ (t.hubOf g).leases = (s.hubOf g).leases))) ∧
  (∀ g n dur start j, Occurs .leaseAnswer (fun s => s.bankPaused = false ∧ (s.hubOf s.arg.unit).answer = some (g, n, dur, start) ∧ n ≠ 0 ∧ (s.hubOf s.arg.unit).coverLeft ≤ n ∧ (s.hubOf s.arg.unit).freeLease = some j) (fun s t =>
    (t.hubOf s.arg.unit).answer = none ∧ (t.hubOf s.arg.unit).asks = [] ∧ (t.hubOf s.arg.unit).leases.get {} j = { valid := true, dir := 1, peer := g, count := n, dur := dur, start := start })) ∧
  (∀ i, Occurs .leaseRenewal (fun s => let l := (s.hubOf s.arg.unit).leases.get {} s.arg.other
      l.renewalDue s.rtime = true ∧ s.bankPaused = false ∧ (s.hubOf l.peer).leaseLike 0 s.arg.unit l = some i ∧ s.mayLend l.peer s.arg.unit = true) (fun s t =>
    let l := (s.hubOf s.arg.unit).leases.get {} s.arg.other
    let l' := (t.hubOf s.arg.unit).leases.get {} s.arg.other
    l'.valid = true ∧ l'.count = l.count ∧ l'.start = l.start + 1000 * l.dur)) ∧
  Occurs .leaseEnd (fun s => let l := (s.hubOf s.arg.unit).leases.get {} s.arg.other
      s.leaseEndDue l = true ∨ s.aloneEndDue s.arg.unit l = true) (fun s t => ((t.hubOf s.arg.unit).leases.get {} s.arg.other).valid = false)

/-- R57 to R59, R62, R65, R69: a notice that is due lowers its tile's holding; the share registers, the ramp and the floor take what their own rules allow, and show what those refuse. -/
def noticesAndShareRegisters : Prop :=
  (∀ n rest, Occurs .revocationEffect (fun s => (s.tileOf s.arg.unit).notices = n :: rest ∧ s.noticeDue s.arg.unit = true) (fun s t =>
    (t.tileOf s.arg.unit).h = min (s.tileOf s.arg.unit).h n.newh ∧ (t.tileOf s.arg.unit).notices = rest)) ∧
  Occurs .pshareWrite (fun s => s.bankPaused = false) (fun s t =>
    let others := s.allocated - (if s.bank.pvalid.get false s.arg.unit then s.bank.pshare.get 0 s.arg.unit else 0)
    let n := s.arg.value % 2 ^ 16
    (bitAt s.arg.value 31 = false ∨ others + n ≤ 20000 → t.bank.pshare.get 0 s.arg.unit = n ∧ t.bank.pvalid.get false s.arg.unit = bitAt s.arg.value 31) ∧
    (bitAt s.arg.value 31 = true → 20000 < others + n → t.bank.prefused.get false s.arg.unit = true ∧ t.bank.pshare = s.bank.pshare ∧ t.bank.pvalid = s.bank.pvalid)) ∧
  Occurs .bkshareWrite (fun s => s.bankPaused = false) (fun s t => (t.hubOf s.arg.unit).share = s.arg.value % 2 ^ 16) ∧
  Occurs .bkgshareWrite (fun s => s.bankPaused = false) (fun s t => (t.hubOf s.arg.unit).gshares.get 0 s.arg.other = s.arg.value % 2 ^ 16 ∧
    (t.hubOf s.arg.unit).share = if (s.hubOf s.arg.unit).runIndex = some s.arg.other then s.arg.value % 2 ^ 16 else (s.hubOf s.arg.unit).share) ∧
  Occurs .rampwWrite (fun _ => True) (fun s t =>
    let n := s.arg.value % 2 ^ 16
    (1 ≤ n → n ≤ 99 → t.bank.rampBad = true ∧ t.bank.ramp = s.bank.ramp) ∧ (n = 0 ∨ 100 ≤ n → t.bank.ramp = n)) ∧
  Occurs .floorwWrite (fun _ => True) (fun s t =>
    let n := s.arg.value % 2 ^ 16
    (24000 < n → t.bank.floorBad = true ∧ t.bank.floor = s.bank.floor) ∧ (n ≤ 24000 → t.bank.floor = n))

/-- R68, R69, R72, R89: ballast is metered to the present microsecond; the pacer takes the oldest ply report, tells the other devices of one of its own barriers that spans devices, and with PACE shows the slack and the length of a ply in its field; a report of another device that is not later than the last one is
discarded. -/
def ballastAndPacerProgress : Prop :=
  Occurs .ballastUpdate (fun s => s.ballastDue s.arg.unit = true) (fun s t =>
    (t.hubOf s.arg.unit).tick = s.rtime / 1000 ∧ (t.hubOf s.arg.unit).ball ≤ s.ballastRoom s.arg.unit ∧
    ((s.hubOf s.arg.unit).ballastEn = false ∨ s.bank.limit = true → (t.hubOf s.arg.unit).ball = 0 ∧ (t.hubOf s.arg.unit).fill = 0)) ∧
  (∀ r rest, Occurs .pacerReport (fun s => s.arg.flag = false ∧ s.bankPaused = false ∧ s.bank.plyReports = r :: rest ∧ s.bank.paceEn = false) (fun s t =>
    t.bank.plyReports = rest ∧ t.hubs = s.hubs ∧ ∃ l, t.flying = s.flying ++ l ∧ l.map (fun m => m.dev) = (if r.device = s.loith.device ∧ r.spans = true then s.otherDevices else []) ∧ ∀ m ∈ l, msgClass m = 0xFF90)) ∧
  (∀ r rest f arr, Occurs .pacerReport (fun s => s.arg.flag = false ∧ s.bankPaused = false ∧ s.bank.plyReports = r :: rest ∧ r.arrivals = [(f, arr)] ∧ s.bank.paceEn = true ∧ (s.hubOf f).pace = true) (fun s t =>
    (t.hubOf f).slack = min 65535 ((max r.others arr - arr) / 1000) ∧ (t.hubOf f).plydur = min 65535 ((arr - r.since) / 1000) ∧ (t.hubOf f).plies = ((s.hubOf f).plies + 1) % 256)) ∧
  Occurs .pacerReport (fun s => s.arg.flag = true) (fun s t =>
    let fields := triples s.arg.list
    let latest := (fields.map (fun e => e.getD 2 0)).foldl max 0
    (s.bank.lastPly s.arg.unit s.arg.other = none → t.bank.plyReports = s.bank.plyReports ∧ t.bank.lastPly s.arg.unit s.arg.other = some (s.arg.value, latest)) ∧
    (∀ p before, s.bank.lastPly s.arg.unit s.arg.other = some (p, before) →
      ((s.arg.value + 2 ^ 32 - p) % 2 ^ 32 = 0 ∨ 2 ^ 31 ≤ (s.arg.value + 2 ^ 32 - p) % 2 ^ 32 → t = s) ∧
      ((s.arg.value + 2 ^ 32 - p) % 2 ^ 32 ≠ 0 → (s.arg.value + 2 ^ 32 - p) % 2 ^ 32 < 2 ^ 31 → t.bank.lastPly s.arg.unit s.arg.other = some (s.arg.value, latest) ∧
        ∃ r, t.bank.plyReports = s.bank.plyReports ++ [r] ∧ r.since = before ∧ r.others = latest ∧ r.ply = s.arg.value)))

/-- R23, R66, R67, R71, R73: an idle tile is gated with its holding and its request recorded, waits 20 µs, queues its wake, which reaches class E3 after 200 µs, wakes in 5 µs where its ceiling allows it, and asks for its holding again; the shuffle steps to the places of its next step, or counts a
skip. -/
def tilesGateWakeAndShuffle : Prop :=
  Occurs .tileIdleGate (fun s => s.gateDue s.arg.unit = true) (fun s t =>
    (t.tileOf s.arg.unit).pwr = 1 ∧ (t.tileOf s.arg.unit).gatedAt = s.rtime ∧ (t.tileOf s.arg.unit).recH = (s.tileOf s.arg.unit).h ∧ (t.tileOf s.arg.unit).recReq = (s.tileOf s.arg.unit).req ∧ (t.tileOf s.arg.unit).h = 0 ∧
      (t.tileOf s.arg.unit).req = none ∧ (t.tileOf s.arg.unit).notices = []) ∧
  Occurs .gatingHoldEnd (fun s => (s.tileOf s.arg.unit).pwr = 1 ∧ (s.tileOf s.arg.unit).gatedAt + 20000 ≤ s.rtime) (fun s t => t.tileOf s.arg.unit = { s.tileOf s.arg.unit with pwr := 2 }) ∧
  Occurs .tilepwrWakeWrite (fun s => bitAt s.arg.value 2 = true ∧ ((s.tileOf s.arg.unit).pwr = 1 ∨ (s.tileOf s.arg.unit).pwr = 2) ∧ (s.tileOf s.arg.unit).wake = none) (fun s t => (t.tileOf s.arg.unit).wake = some (1, s.rtime)) ∧
  (∀ c e, Occurs .wakePromotion (fun s => s.promotionDue s.arg.unit = true ∧ (s.tileOf s.arg.unit).wake = some (c, e)) (fun s t => t.tileOf s.arg.unit = { s.tileOf s.arg.unit with promoted := some s.rtime, wake := some (3, e) })) ∧
  (∀ u, Occurs .wakeStart (fun s => s.wakeStartDue s.arg.unit = some u) (fun s t =>
    (s.wakeBreaksCeiling u = false → (t.tileOf u).pwr = 3 ∧ (t.tileOf u).wakingTo = s.rtime + 5000 ∧ (t.tileOf u).wake = none) ∧
    (s.wakeBreaksCeiling u = true → (t.tileOf u).wakeRefused = true ∧ (t.tileOf u).pwr = (s.tileOf u).pwr ∧ (t.hubOf s.arg.unit).railRefused = true))) ∧
  Occurs .wakeComplete (fun s => s.wakeDone s.arg.unit = true) (fun s t => (t.tileOf s.arg.unit).pwr = 0 ∧ (t.tileOf s.arg.unit).req = (s.tileOf s.arg.unit).requeued s.rtime) ∧
  Occurs .shuffleStep (fun s => s.shuffleDue s.arg.unit = true) (fun s t =>
    let busy := s.migrations.any (fun g => g.shuffle && g.tag = (s.partOf s.arg.unit).tag)
    let k := s.bank.shufStep.get 0 s.arg.unit + 1
    t.bank.shufLast.get 0 s.arg.unit = s.rtime ∧
    (busy = true → t.bank.shufSkips.get 0 s.arg.unit = min 127 (s.bank.shufSkips.get 0 s.arg.unit + 1) ∧ t.migrations = s.migrations) ∧
    (busy = false → t.bank.shufStep.get 0 s.arg.unit = k ∧
      t.migrations = s.migrations ++ ((List.range 4).flatMap (s.shuffleKind s.arg.unit k)).map (fun g => { g with step := if s.canBegin s.migrations.length g then 1 else 0 })))

/-- R54 to R62, R65 to R69, R71 to R73, R89, R423: the bankers, the pacer, the gating of tiles and the shuffle. Each event completes: it answers a next state, from every state of its occasion. That these come about as events with `arg` as their payload is the model's form; its choices are in
logs 1, 63, 93 and 108 to 110. -/
def Obligations.BankersLeasesAndGating : Prop := bankersGrantAndLease ∧ noticesAndShareRegisters ∧ ballastAndPacerProgress ∧ tilesGateWakeAndShuffle

/-! ### Commands, flips, switches, migrations -/

/-- A frame for this device arrives in order on its bound session, and nothing holds it back (R79 to R82, R85, R91). -/
def frameGoes (s : State) (op : Nat) : Prop :=
  let b := s.frameArg
  let q := s.sessionOf (frameSession b)
  frameOp b = op ∧ s.answers = true ∧ s.bank.takeoverAt = none ∧ s.passesOn b = false ∧ s.frameMine b = true ∧ s.loith.imageBad = false ∧ s.loith.ready = true ∧ q.valid = true ∧ q.endpoint = s.arg.value ∧ frameSeq b = q.next ∧ q.held = [] ∧
    q.outstanding.length < 64 ∧ s.mayRun op = true

/-- A good frame of a command, of a session of the platform where the command needs one (R83). -/
def commandGoes (s : State) (op : Nat) : Prop := frameGoes s op ∧ frameBad s.frameArg = false ∧ (6 ≤ op → op ≤ 11 → (s.sessionOf (frameSession s.frameArg)).tag = 0)

/-- The session expects the next number. -/
def frameTaken (s t : State) : Prop := (t.sessionOf (frameSession s.frameArg)).next = (s.sessionOf (frameSession s.frameArg)).next + 1

/-- A frame is a reply to the command, with a status (R81). -/
def IsReply (s : State) (status : Nat) (f : Frame) : Prop :=
  f.session = frameSession s.frameArg ∧ f.seq = frameSeq s.frameArg ∧ f.opcode = (frameOp s.frameArg + 0x8000) % 0x10000 ∧ f.status = status ∧ f.rtime = s.rtime

/-- The last frame sent is the reply to the command, with a status (R81). -/
def repliesWith (s t : State) (status : Nat) : Prop := ∃ f, t.loith.out.getLast? = some f ∧ IsReply s status f

/-- R83 to R87, R90, R131, R148: the commands that any session may send. A launch enters its queue, and OK bears its identifier; a copy within one line copies the bytes and nothing else; QUERY, RESYNC, ATLAS.READ and ATTEST answer OK, where their session may read the records and a hub holds keys. -/
def commandsOfSessions : Prop :=
  (∀ h mask, Occurs .loithLaunch (fun s => commandGoes s opLaunch ∧ h = bodyHeader (frameBody s.frameArg) ∧ mask = fieldSet (leAt (frameBody s.frameArg) 0x40 16) ∧ Header.malformed h = false ∧
      Header.owner h = (s.sessionOf (frameSession s.frameArg)).tag ∧ (∀ f ∈ mask, f ∈ s.fieldsOfTag (Header.owner h)) ∧ s.runTiles h mask ≠ [] ∧ s.savedMember (mask.headD 0) (Header.owner h) = none ∧
      ((s.hubOf (mask.headD 0)).launchRoom 0).isSome = true ∧ ∃ n, n < 64 ∧ (s.hubOf (mask.headD 0)).launches.has n = false) (fun s t =>
    frameTaken s t ∧ ∃ f id e, (t.loith.out.drop s.loith.out.length).head? = some f ∧ IsReply s stOk f ∧ f.body = leBytes 8 id ∧ t.launchOf id = some e ∧ e.header = h ∧ e.mask = mask ∧ e.host = true)) ∧
  (∀ src dst n, Occurs .copy (fun s => let body := frameBody s.frameArg
      let tag := (s.sessionOf (frameSession s.frameArg)).tag
      commandGoes s opCopy ∧ src = leAt body 0 8 ∧ dst = leAt body 8 8 ∧ n = leAt body 0x10 8 ∧ leAt body 0x18 2 = 0xFFFF ∧ src % 128 + n ≤ 128 ∧ dst % 128 + n ≤ 128 ∧ s.ownsRun tag src n = true ∧ s.ownsRun tag dst n = true ∧
        s.ownerOut tag = false ∧ s.gpaLocal src = true ∧ s.gpaLocal dst = true ∧ gpaSpace src = 1 ∧ gpaSpace dst = 1 ∧ s.runPoisoned (dst, n) = false ∧ s.copyStop tag src n .read = none ∧ s.copyStop tag dst n .write = none ∧ s.memOk) (fun s t =>
    repliesWith s t stOk ∧ frameTaken s t ∧ t.mem.readLE (gpaKey dst) n = s.mem.readLE (gpaKey src) n ∧ ∀ a, a < gpaKey dst ∨ gpaKey dst + n ≤ a → t.mem.read a = s.mem.read a)) ∧
  Occurs .query (fun s => commandGoes s opQuery) (fun s t => repliesWith s t stOk ∧ frameTaken s t ∧ (t.loith.out.getLast?.map (fun f => f.body)) = some s.queryBody) ∧
  Occurs .resync (fun s => commandGoes s opResync) (fun s t => repliesWith s t stOk ∧ frameTaken s t) ∧
  Occurs .atlasRead (fun s => commandGoes s opAtlasRead) (fun s t =>
    let first := leAt (frameBody s.frameArg) 0 4
    let tag := (s.sessionOf (frameSession s.frameArg)).tag
    let mine := tag = 0 ∨ ∀ i, i < leAt (frameBody s.frameArg) 4 2 → 256 ≤ first + i ∧ s.atlasHub (first + i) ∈ s.fieldsOfTag tag
    frameTaken s t ∧ (mine → repliesWith s t stOk) ∧ (¬ mine → repliesWith s t stDenied)) ∧
  Occurs .attest (fun s => commandGoes s opAttest) (fun s t => frameTaken s t ∧ (s.signingHub ≠ none → repliesWith s t stOk) ∧ (s.signingHub = none → repliesWith s t stFailed))

/-- R37, R40, R58, R80, R83 to R85, R93, R425: the commands of the platform, and a frame that is no command. A staged entry stands in the staged bank; a flip stops injection until its limit, or fails where a staged entry or the generation is not valid; a partition is created or begins to switch; a policy
write takes effect; a field reset goes back to step 3; a bad frame answers BAD_COMMAND. -/
def commandsOfThePlatform : Prop :=
  Occurs .routeStage (fun s => commandGoes s opRouteStage ∧ (frameBody s.frameArg).length = 16 ∧ s.stageable (frameBody s.frameArg) = true) (fun s t =>
    let r := frameBody s.frameArg
    repliesWith s t stOk ∧ frameTaken s t ∧ (t.hubOf (leAt r 0 2)).staged.get 0 (16 * leAt r 2 2 + leAt r 4 2) = overrideBits (leAt r 8 8)) ∧
  Occurs .routeFlip (fun s => commandGoes s opRouteFlip) (fun s t =>
    let body := frameBody s.frameArg
    let good := ∀ f, f < 90 → s.badStaged f = none
    let next := leAt body 0 4 = (s.genNow + 1) % 2 ^ 32
    frameTaken s t ∧
    (good → next → (∀ f, f < 90 → (t.hubOf f).rstate = 2) ∧
      t.flip = some { gen := leAt body 0 4, mask := leAt body 4 1 % 16, deadline := s.rtime + 1000 * (if leAt body 8 4 = 0 then 1000 else leAt body 8 4), session := frameSession s.frameArg, seq := frameSeq s.frameArg }) ∧
    (¬ good ∨ ¬ next → repliesWith s t stFailed ∧ t.flip = s.flip ∧ ∀ f, f < 90 → s.badStaged f ≠ none → (t.hubOf f).rresult = 2)) ∧
  Occurs .partCreate (fun s => commandGoes s opPartCreate) (fun s t =>
    let b := partBody (frameBody s.frameArg)
    frameTaken s t ∧ (s.partRefused b ≠ none → repliesWith s t stFailed ∧ t.parts = s.parts) ∧
    (s.partRefused b = none → repliesWith s t stOk ∧ (t.partOf b.p).valid = true ∧ (t.partOf b.p).tag = b.tag ∧ (t.partOf b.p).fields = b.fields ∧ (t.partOf b.p).quant = b.quant ∧ t.bank.pshare.get 0 b.p = b.share)) ∧
  (∀ fs q, Occurs .partSwitch (fun s => commandGoes s opPartSwitch ∧ fs = fieldSet (leAt (frameBody s.frameArg) 0 16) ∧ q = leAt (frameBody s.frameArg) 16 1 ∧ fs ≠ [] ∧ (s.partOf q).valid = true ∧ (s.partOf q).fields = fs ∧
      (∀ f ∈ fs, (s.hubOf f).sw.step = 0) ∧ ∃ f ∈ fs, (s.hubOf f).run ≠ some q) (fun s t => frameTaken s t ∧ ∀ f ∈ fs, (t.hubOf f).sw = { step := 1, start := s.rtime, incoming := q, expired := false })) ∧
  Occurs .pipPolicy (fun s => let r := frameBody s.frameArg
      commandGoes s opPipPolicy ∧ r.length = 16 ∧ leAt r 0 3 = 0x10008 ∧ s.policyRegister (leAt r 3 1) 0x10008 = true) (fun s t =>
    let r := frameBody s.frameArg
    repliesWith s t stOk ∧ frameTaken s t ∧ (t.hubOf (leAt r 3 1)).share = leAt r 8 8 % 2 ^ 16) ∧
  (∀ f, Occurs .fieldReset (fun s => commandGoes s opFieldReset ∧ f = leAt (frameBody s.frameArg) 0 1 ∧ s.loith.resetting.any (fun r => r.2.2 = f) = false ∧ (s.hubOf f).image.isSome = true) (fun s t =>
    frameTaken s t ∧ (t.hubOf f).startup = 3 ∧ (t.hubOf f).dark = false ∧ (t.hubOf f).cyc0 = 0 ∧ (t.hubOf f).anchor = s.now ∧ (frameSession s.frameArg, frameSeq s.frameArg, f) ∈ t.loith.resetting)) ∧
  (∀ op, Occurs .loithBadCommand (fun s => frameGoes s op ∧ frameBad s.frameArg = true) (fun s t => repliesWith s t stBadCommand ∧ frameTaken s t))

/-- R40, R85, R97, R99: a drained flip swaps the banks that differ and sets the generation, and a late one keeps them, and then the commands that waited go on. A switch begins in every field of the group at the end of the quantum, pre-empts at the end of QLIM what still runs, saves its image and swaps the
tag when the field is quiet, and ends with the restore, after which replies and copies that waited go on. -/
def flipsAndSwitchesEnd : Prop :=
  (∀ p, Occurs .routeDrainComplete (fun s => s.flip = some p ∧ s.drained = true) (fun s t =>
    ∃ u : State, t = u.wakeCommands ∧ u.flip = none ∧ (∃ r, u.loith.out.getLast? = some r ∧ r.session = p.session ∧ r.seq = p.seq ∧ r.status = stOk) ∧
      ∀ f, f < 90 → (u.hubOf f).rstate = 0 ∧ ((s.hubOf f).dark = false → (u.hubOf f).rgen = p.gen) ∧
        (sameBank (s.hubOf f).active (s.hubOf f).staged = false → (u.hubOf f).active = (s.hubOf f).staged ∧ (u.hubOf f).staged = (s.hubOf f).active))) ∧
  (∀ p, Occurs .routeDrainTimeout (fun s => s.flip = some p ∧ s.drainLate = true) (fun s t =>
    ∃ u : State, t = u.wakeCommands ∧ u.flip = none ∧ (∃ r, u.loith.out.getLast? = some r ∧ r.session = p.session ∧ r.seq = p.seq ∧ r.status = stFailed) ∧
      ∀ f, f < 90 → (u.hubOf f).rresult = 1 ∧ (u.hubOf f).active = (s.hubOf f).active ∧ (u.hubOf f).rgen = (s.hubOf f).rgen)) ∧
  (∀ p q, Occurs .quantumEnd (fun s => (s.hubOf s.arg.unit).run = some p ∧ (s.hubOf s.arg.unit).nextMember = some q ∧ s.quantumOver s.arg.unit = true) (fun s t =>
    ∀ f ∈ (s.partOf p).fields, (s.hubOf f).sw.step = 0 → (t.hubOf f).sw = { step := 1, start := s.rtime, incoming := q, expired := false })) ∧
  Occurs .qlimExpiry (fun s => s.qlimDue s.arg.unit = true) (fun s t => (t.hubOf s.arg.unit).sw = { (s.hubOf s.arg.unit).sw with expired := true }) ∧
  (∀ i, Occurs .qlimExpiry (fun s => s.qlimDue s.arg.unit = true ∧ s.runningIn s.arg.unit = [i] ∧ ∀ g ∈ s.migrations, g.oldTile ≠ tileOfCtx i) (fun s t =>
    let waits := ∃ j ∈ s.withPartner i, (s.ctxOf j).np = true ∨ s.mustHold (s.ctxOf j) = true
    (waits → (t.ctxOf i).preempt = (if (s.ctxOf i).preempt = 3 then 3 else 2) ∧ (t.ctxOf i).st = 0) ∧
    (¬ waits → (t.ctxOf i).occ = true ∧ (t.ctxOf i).st = 3 ∧ (t.ctxOf i).pc = (s.ctxOf i).pc ∧ (t.ctxOf i).x = (s.ctxOf i).x))) ∧
  (∀ p, Occurs .quiesceEnd (fun s => s.quiet s.arg.unit = true ∧ s.bankPaused = false ∧ s.arg.flag = false ∧ (s.hubOf s.arg.unit).run = some p) (fun s t =>
    let q := (s.hubOf s.arg.unit).sw.incoming
    (t.hubOf s.arg.unit).saved.get {} p = s.fieldImage s.arg.unit ∧ (t.hubOf s.arg.unit).run = some q ∧ (t.hubOf s.arg.unit).runTag = (s.partOf q).tag ∧ (t.hubOf s.arg.unit).sw.step = 3 ∧
    (t.partOf p).state = if (s.partOf p).fields.any (fun g => g ≠ s.arg.unit && (s.hubOf g).run = some p) then 3 else 2)) ∧
  Occurs .switchRestoreEnd (fun s => s.restoreDue s.arg.unit = true ∧ ∀ e ∈ s.dbgs, e.2.pend = none) (fun s t =>
    ∃ u : State, t = (u.switchReplies s.arg.unit).resumeCopies ∧ (u.hubOf s.arg.unit).sw = {} ∧ (u.hubOf s.arg.unit).quantumFrom = s.rtime ∧ (u.hubOf s.arg.unit).swCount = ((s.hubOf s.arg.unit).swCount + 1) % 2 ^ 32)

/-- R42, R65, R73, R164, R175, R176: a migration that the platform asks for, or that waited for its partition, holds the logical tile's actors; once its firings have ended its state leaves the old tile, and stands whole at the new one, or again at the old one where the new one has gone dark; every interface that
had looked the tile up sends a marker on each network; the stub sends on what came to it; and the release ends the hold. -/
def migrationsMoveLogicalTiles : Prop :=
  (∀ w new, Occurs .migrationCopy (fun s => let q := s.partOf s.arg.unit
      s.arg.flag = true ∧ new = s.arg.other ∧ w = s.cttEntry q.tag (s.arg.value / 2 ^ 14) (s.arg.value % 2 ^ 14) ∧ q.valid = true ∧ cttValid w = true ∧ cttOwner w = q.tag ∧ cttTile w ≠ new ∧ new < 10800 ∧ tileKind new = tileKind (cttTile w) ∧
        s.tileWorks new = true ∧ (∀ e ∈ s.hubs, ∀ c ∈ e.2.ctt, cttValid c.2 = true → cttTile c.2 ≠ new) ∧ fieldOfTile new ∈ q.fields ∧
        ∀ g ∈ s.migrations, ¬ (g.tag = q.tag ∧ g.lkind = s.arg.value / 2 ^ 14 ∧ g.lidx = s.arg.value % 2 ^ 14)) (fun s t =>
    let g : Migration := { lkind := s.arg.value / 2 ^ 14, lidx := s.arg.value % 2 ^ 14, tag := (s.partOf s.arg.unit).tag, oldTile := cttTile w, newTile := new }
    t.migrations = s.migrations ++ [{ g with step := if s.canBegin s.migrations.length g then 1 else 0 }])) ∧
  (∀ g, Occurs .migrationCopy (fun s => s.arg.flag = false ∧ s.migrations[s.arg.value]? = some g ∧ s.tileStill g.oldTile = false ∧ s.tileStill g.newTile = false) (fun s t =>
    (g.step = 0 → s.canBegin s.arg.value g = true → t.migrations[s.arg.value]? = some { g with step := 1 }) ∧
    (1 ≤ g.step → g.step < 4 → s.tileBusy g.oldTile g.tag = false → s.masked 3 = false → t.migrations[s.arg.value]? = some { g with step := 4, image := some (s.imageOfTile g.oldTile g.tag) } ∧ t.tileOf g.oldTile = ({} : Tile).atSite (s.tileOf g.oldTile)) ∧
    (∀ m s1, 4 ≤ g.step → s.tileDark g.newTile = false → s.tileWorks g.newTile = true → g.image = some m → s.masked 3 = false → (s.tileOf g.newTile).pwr = 0 → s.vacated g.newTile s.arg.value = true → s.putImage g g.newTile m = some s1 →
      t.mem = s1.mem ∧ t.migrations[s.arg.value]? = some { g with step := 6, image := none, markers := (s1.cttLooked g.tag g.lkind g.lidx).flatMap (fun u => (List.range 4).map (fun n => (u, n))) }) ∧
    (∀ m s1, 4 ≤ g.step → s.tileWorks g.newTile = false → g.image = some m → (∀ o ∈ s.migrations, o.newTile = g.oldTile → o.step < 6) → s.putImage g g.oldTile m = some s1 → t.mem = s1.mem ∧ t.migrations = setAt s.migrations s.arg.value none) ∧
    (4 ≤ g.step → s.tileDark g.newTile = false → g.image = none → g.stub ≠ [] → t.migrations[s.arg.value]? = some { g with stub := g.stub.filter (fun m => s.masked m.vn) } ∧
      t.flying = s.flying ++ (g.stub.filter (fun m => !s.masked m.vn)).map (fun m => { m with core := 2 * g.newTile + m.core % 2, fwd := true, router := some g.oldTile, hops := 0, gen := s.loith.flips })))) ∧
  (∀ g, Occurs .migrationMarker (fun s => s.migrations[s.arg.value]? = some g ∧ s.markerDue g s.arg.unit s.arg.other = true) (fun s t =>
    t.migrations[s.arg.value]? = some { g with markers := g.markers.filter (fun v => v ≠ (s.arg.unit, s.arg.other)) })) ∧
  (∀ g p, Occurs .migrationRelease (fun s => s.migrations[s.arg.value]? = some g ∧ s.releaseDue g = true ∧ s.partOfTag g.tag = some p) (fun s t =>
    t.migrations = (setAt s.migrations s.arg.value none).map (fun o => if o.key = g.key then { o with oldTile := g.newTile } else o) ∧ t.cttEntry g.tag g.lkind g.lidx = s.cttEntry g.tag g.lkind g.lidx &&& ~~~(BitVec.ofNat 64 (2 ^ 62))))

/-- R37, R40, R42, R79 to R87, R90, R91, R93, R97, R99, R131, R148, R175, R176, R425: the twelve Loith commands in order of their sequence numbers, a frame that is none, the ends of a flip, the world switch, and the migration of a logical tile. Each event completes: it answers a next state, from every state of its
occasion. That these come about as events with `arg` as their payload is the model's form; its choices are in logs 1, 59, 71, 73, 78, 79 and 107. -/
def Obligations.CommandsSwitchesAndMigrations : Prop := commandsOfSessions ∧ commandsOfThePlatform ∧ flipsAndSwitchesEnd ∧ migrationsMoveLogicalTiles
end

