-- ==== Sys2Proof/Laws/Keccak.lean ====
section
/-! SUPPORT. The two packed numbers of Keccak are those that FIPS 202 computes: the turns of rho along its walk of the lanes, and the constants of iota from
its shift register. -/

namespace Sys2Proof.Machine

/-- FIPS 202's walk of the lanes, n steps on from (x, y), at step t: each lane with the turn it gets. -/
def rhoWalk : Nat → Nat → Nat → Nat → List (Nat × Nat)
  | 0, _, _, _ => []
  | n + 1, t, x, y => (x + 5 * y, (t + 1) * (t + 2) / 2 % 64) :: rhoWalk n (t + 1) y ((2 * x + 3 * y) % 5)

/-- The walk meets every lane but (0, 0), which does not turn, and gives each the turn that the packed number holds. -/
theorem rhoTurn_is_the_walk : (rhoWalk 24 0 1 0).all (fun e => rhoTurn e.1 = e.2) = true ∧ rhoTurn 0 = 0 ∧
    (List.range 24).all (fun i => (rhoWalk 24 0 1 0).any (fun e => e.1 = i + 1)) = true := by decide +kernel

/-- The register rc: n outputs from a value of its eight bits, by the polynomial x^8 + x^6 + x^5 + x^4 + 1. -/
def rcBits : Nat → Nat → List Nat
  | 0, _ => []
  | n + 1, r => r % 2 :: rcBits n (if 2 * r < 256 then 2 * r else (2 * r) ^^^ 0x171)

/-- The packed bits are the first 168 outputs of the register, seven for each of the 24 rounds. -/
theorem iotaBits_are_rc : (rcBits 168 1).zipIdx.all (fun e => iotaBits / 2 ^ e.2 % 2 = e.1) = true ∧ iotaBits < 2 ^ 168 := by decide +kernel

/-- The constants of the first and the last round. -/
theorem iotaOf_ends : iotaOf 0 = 1 ∧ iotaOf 23 = 0x8000000080008008 := by decide +kernel

end Sys2Proof.Machine
end

