-- ==== Sys2Proof/Laws/State.lean ====
section
/-! SUPPORT. The small lemmas of the finite maps and of the updates of `State`: for each update, the fields that it leaves and the part that it sets. All
but those of the maps are true by definition, so that no later proof unfolds an update. -/

namespace Sys2Proof.Machine

/-! ### Finite maps -/

@[simp] theorem KMap.get_nil {α : Type} (d : α) (k : Nat) : KMap.get d [] k = d := rfl

@[simp] theorem KMap.get_put_self {α : Type} (d a : α) (m : KMap α) (k : Nat) : (m.put k a).get d k = a := by
  induction m with
  | nil => simp [KMap.put, KMap.get]
  | cons e m ih =>
    obtain ⟨j, b⟩ := e
    by_cases h1 : k < j
    · simp [KMap.put, KMap.get, h1]
    · by_cases h2 : k = j
      · simp [KMap.put, KMap.get, h2]
      · have h3 : j ≠ k := fun h => h2 h.symm
        simp [KMap.put, KMap.get, h1, h2, h3, ih]

theorem KMap.get_put_other {α : Type} (d a : α) (m : KMap α) {k i : Nat} (h : i ≠ k) : (m.put k a).get d i = m.get d i := by
  have hk : k ≠ i := fun e => h e.symm
  induction m with
  | nil => simp [KMap.put, KMap.get, hk]
  | cons e m ih =>
    obtain ⟨j, b⟩ := e
    by_cases h1 : k < j
    · simp [KMap.put, KMap.get, h1, hk]
    · by_cases h2 : k = j
      · subst h2
        simp [KMap.put, KMap.get, hk]
      · simp [KMap.put, KMap.get, h1, h2, ih]

/-- What a map holds at any key after a write: the new value at that key, and at every other what it held. -/
theorem KMap.get_put {α : Type} (d a : α) (m : KMap α) (k i : Nat) : (m.put k a).get d i = if i = k then a else m.get d i := by
  by_cases h : i = k
  · subst h
    simp
  · simp [h, KMap.get_put_other]

theorem KMap.get_drop {α : Type} (d : α) (m : KMap α) (k i : Nat) : (m.drop k).get d i = if i = k then d else m.get d i := by
  induction m with
  | nil => simp [KMap.drop, KMap.get]
  | cons e m ih =>
    obtain ⟨j, b⟩ := e
    by_cases h : j = k
    · by_cases hi : i = k
      · subst hi
        simpa [KMap.drop, h] using ih
      · have hj : ¬k = i := fun x => hi x.symm
        simpa [KMap.drop, KMap.get, h, hi, hj] using ih
    · by_cases hj : j = i
      · subst hj
        simp [KMap.drop, KMap.get, h]
      · simpa [KMap.drop, KMap.get, h, hj] using ih

/-! ### The updates of one part: every other field stays -/

@[simp] theorem State.updCtx_fields (s : State) (i : Nat) (g : Ctx → Ctx) : (s.updCtx i g).agenda = s.agenda ∧ (s.updCtx i g).focus = s.focus ∧
    (s.updCtx i g).cur = s.cur ∧ (s.updCtx i g).arg = s.arg ∧ (s.updCtx i g).fresh = s.fresh ∧ (s.updCtx i g).nextAcc = s.nextAcc ∧ (s.updCtx i
    g).nextFiring = s.nextFiring ∧ (s.updCtx i g).now = s.now ∧ (s.updCtx i g).rtime = s.rtime ∧ (s.updCtx i g).rfrac = s.rfrac ∧ (s.updCtx i g).dbgs
    = s.dbgs ∧ (s.updCtx i g).cores = s.cores ∧ (s.updCtx i g).tiles = s.tiles ∧ (s.updCtx i g).hubs = s.hubs ∧ (s.updCtx i g).mem = s.mem ∧ (s.updCtx
    i g).poison = s.poison ∧ (s.updCtx i g).latent = s.latent ∧ (s.updCtx i g).dirty = s.dirty ∧ (s.updCtx i g).cached = s.cached ∧ (s.updCtx i
    g).misses = s.misses ∧ (s.updCtx i g).net = s.net ∧ (s.updCtx i g).syncs = s.syncs ∧ (s.updCtx i g).flying = s.flying ∧ (s.updCtx i g).ctls =
    s.ctls ∧ (s.updCtx i g).rings = s.rings ∧ (s.updCtx i g).bank = s.bank ∧ (s.updCtx i g).parts = s.parts ∧ (s.updCtx i g).rails = s.rails ∧
    (s.updCtx i g).loith = s.loith ∧ (s.updCtx i g).stripes = s.stripes ∧ (s.updCtx i g).keys = s.keys ∧ (s.updCtx i g).images = s.images ∧ (s.updCtx
    i g).migrations = s.migrations ∧ (s.updCtx i g).flip = s.flip ∧ (s.updCtx i g).plat = s.plat ∧ (s.updCtx i g).recent = s.recent := by
  simp [State.updCtx]

@[simp] theorem State.updDbg_fields (s : State) (i : Nat) (g : Dbg → Dbg) : (s.updDbg i g).agenda = s.agenda ∧ (s.updDbg i g).focus = s.focus ∧
    (s.updDbg i g).cur = s.cur ∧ (s.updDbg i g).arg = s.arg ∧ (s.updDbg i g).fresh = s.fresh ∧ (s.updDbg i g).nextAcc = s.nextAcc ∧ (s.updDbg i
    g).nextFiring = s.nextFiring ∧ (s.updDbg i g).now = s.now ∧ (s.updDbg i g).rtime = s.rtime ∧ (s.updDbg i g).rfrac = s.rfrac ∧ (s.updDbg i g).ctxs
    = s.ctxs ∧ (s.updDbg i g).cores = s.cores ∧ (s.updDbg i g).tiles = s.tiles ∧ (s.updDbg i g).hubs = s.hubs ∧ (s.updDbg i g).mem = s.mem ∧ (s.updDbg
    i g).poison = s.poison ∧ (s.updDbg i g).latent = s.latent ∧ (s.updDbg i g).dirty = s.dirty ∧ (s.updDbg i g).cached = s.cached ∧ (s.updDbg i
    g).misses = s.misses ∧ (s.updDbg i g).net = s.net ∧ (s.updDbg i g).syncs = s.syncs ∧ (s.updDbg i g).flying = s.flying ∧ (s.updDbg i g).ctls =
    s.ctls ∧ (s.updDbg i g).rings = s.rings ∧ (s.updDbg i g).bank = s.bank ∧ (s.updDbg i g).parts = s.parts ∧ (s.updDbg i g).rails = s.rails ∧
    (s.updDbg i g).loith = s.loith ∧ (s.updDbg i g).stripes = s.stripes ∧ (s.updDbg i g).keys = s.keys ∧ (s.updDbg i g).images = s.images ∧ (s.updDbg
    i g).migrations = s.migrations ∧ (s.updDbg i g).flip = s.flip ∧ (s.updDbg i g).plat = s.plat ∧ (s.updDbg i g).recent = s.recent := by
  simp [State.updDbg]

@[simp] theorem State.updCore_fields (s : State) (i : Nat) (g : Core → Core) : (s.updCore i g).agenda = s.agenda ∧ (s.updCore i g).focus = s.focus ∧
    (s.updCore i g).cur = s.cur ∧ (s.updCore i g).arg = s.arg ∧ (s.updCore i g).fresh = s.fresh ∧ (s.updCore i g).nextAcc = s.nextAcc ∧ (s.updCore i
    g).nextFiring = s.nextFiring ∧ (s.updCore i g).now = s.now ∧ (s.updCore i g).rtime = s.rtime ∧ (s.updCore i g).rfrac = s.rfrac ∧ (s.updCore i
    g).ctxs = s.ctxs ∧ (s.updCore i g).dbgs = s.dbgs ∧ (s.updCore i g).tiles = s.tiles ∧ (s.updCore i g).hubs = s.hubs ∧ (s.updCore i g).mem = s.mem ∧
    (s.updCore i g).poison = s.poison ∧ (s.updCore i g).latent = s.latent ∧ (s.updCore i g).dirty = s.dirty ∧ (s.updCore i g).cached = s.cached ∧
    (s.updCore i g).misses = s.misses ∧ (s.updCore i g).net = s.net ∧ (s.updCore i g).syncs = s.syncs ∧ (s.updCore i g).flying = s.flying ∧ (s.updCore
    i g).ctls = s.ctls ∧ (s.updCore i g).rings = s.rings ∧ (s.updCore i g).bank = s.bank ∧ (s.updCore i g).parts = s.parts ∧ (s.updCore i g).rails =
    s.rails ∧ (s.updCore i g).loith = s.loith ∧ (s.updCore i g).stripes = s.stripes ∧ (s.updCore i g).keys = s.keys ∧ (s.updCore i g).images =
    s.images ∧ (s.updCore i g).migrations = s.migrations ∧ (s.updCore i g).flip = s.flip ∧ (s.updCore i g).plat = s.plat ∧ (s.updCore i g).recent =
    s.recent := by
  simp [State.updCore]

@[simp] theorem State.updTile_fields (s : State) (i : Nat) (g : Tile → Tile) : (s.updTile i g).agenda = s.agenda ∧ (s.updTile i g).focus = s.focus ∧
    (s.updTile i g).cur = s.cur ∧ (s.updTile i g).arg = s.arg ∧ (s.updTile i g).fresh = s.fresh ∧ (s.updTile i g).nextAcc = s.nextAcc ∧ (s.updTile i
    g).nextFiring = s.nextFiring ∧ (s.updTile i g).now = s.now ∧ (s.updTile i g).rtime = s.rtime ∧ (s.updTile i g).rfrac = s.rfrac ∧ (s.updTile i
    g).ctxs = s.ctxs ∧ (s.updTile i g).dbgs = s.dbgs ∧ (s.updTile i g).cores = s.cores ∧ (s.updTile i g).hubs = s.hubs ∧ (s.updTile i g).mem = s.mem ∧
    (s.updTile i g).poison = s.poison ∧ (s.updTile i g).latent = s.latent ∧ (s.updTile i g).dirty = s.dirty ∧ (s.updTile i g).cached = s.cached ∧
    (s.updTile i g).misses = s.misses ∧ (s.updTile i g).net = s.net ∧ (s.updTile i g).syncs = s.syncs ∧ (s.updTile i g).flying = s.flying ∧ (s.updTile
    i g).ctls = s.ctls ∧ (s.updTile i g).rings = s.rings ∧ (s.updTile i g).bank = s.bank ∧ (s.updTile i g).parts = s.parts ∧ (s.updTile i g).rails =
    s.rails ∧ (s.updTile i g).loith = s.loith ∧ (s.updTile i g).stripes = s.stripes ∧ (s.updTile i g).keys = s.keys ∧ (s.updTile i g).images =
    s.images ∧ (s.updTile i g).migrations = s.migrations ∧ (s.updTile i g).flip = s.flip ∧ (s.updTile i g).plat = s.plat ∧ (s.updTile i g).recent =
    s.recent := by
  simp [State.updTile]

@[simp] theorem State.updHub_fields (s : State) (i : Nat) (g : Hub → Hub) : (s.updHub i g).agenda = s.agenda ∧ (s.updHub i g).focus = s.focus ∧
    (s.updHub i g).cur = s.cur ∧ (s.updHub i g).arg = s.arg ∧ (s.updHub i g).fresh = s.fresh ∧ (s.updHub i g).nextAcc = s.nextAcc ∧ (s.updHub i
    g).nextFiring = s.nextFiring ∧ (s.updHub i g).now = s.now ∧ (s.updHub i g).rtime = s.rtime ∧ (s.updHub i g).rfrac = s.rfrac ∧ (s.updHub i g).ctxs
    = s.ctxs ∧ (s.updHub i g).dbgs = s.dbgs ∧ (s.updHub i g).cores = s.cores ∧ (s.updHub i g).tiles = s.tiles ∧ (s.updHub i g).mem = s.mem ∧ (s.updHub
    i g).poison = s.poison ∧ (s.updHub i g).latent = s.latent ∧ (s.updHub i g).dirty = s.dirty ∧ (s.updHub i g).cached = s.cached ∧ (s.updHub i
    g).misses = s.misses ∧ (s.updHub i g).net = s.net ∧ (s.updHub i g).syncs = s.syncs ∧ (s.updHub i g).flying = s.flying ∧ (s.updHub i g).ctls =
    s.ctls ∧ (s.updHub i g).rings = s.rings ∧ (s.updHub i g).bank = s.bank ∧ (s.updHub i g).parts = s.parts ∧ (s.updHub i g).rails = s.rails ∧
    (s.updHub i g).loith = s.loith ∧ (s.updHub i g).stripes = s.stripes ∧ (s.updHub i g).keys = s.keys ∧ (s.updHub i g).images = s.images ∧ (s.updHub
    i g).migrations = s.migrations ∧ (s.updHub i g).flip = s.flip ∧ (s.updHub i g).plat = s.plat ∧ (s.updHub i g).recent = s.recent := by
  simp [State.updHub]

@[simp] theorem State.updPart_fields (s : State) (i : Nat) (g : Partition → Partition) : (s.updPart i g).agenda = s.agenda ∧ (s.updPart i g).focus =
    s.focus ∧ (s.updPart i g).cur = s.cur ∧ (s.updPart i g).arg = s.arg ∧ (s.updPart i g).fresh = s.fresh ∧ (s.updPart i g).nextAcc = s.nextAcc ∧
    (s.updPart i g).nextFiring = s.nextFiring ∧ (s.updPart i g).now = s.now ∧ (s.updPart i g).rtime = s.rtime ∧ (s.updPart i g).rfrac = s.rfrac ∧
    (s.updPart i g).ctxs = s.ctxs ∧ (s.updPart i g).dbgs = s.dbgs ∧ (s.updPart i g).cores = s.cores ∧ (s.updPart i g).tiles = s.tiles ∧ (s.updPart i
    g).hubs = s.hubs ∧ (s.updPart i g).mem = s.mem ∧ (s.updPart i g).poison = s.poison ∧ (s.updPart i g).latent = s.latent ∧ (s.updPart i g).dirty =
    s.dirty ∧ (s.updPart i g).cached = s.cached ∧ (s.updPart i g).misses = s.misses ∧ (s.updPart i g).net = s.net ∧ (s.updPart i g).syncs = s.syncs ∧
    (s.updPart i g).flying = s.flying ∧ (s.updPart i g).ctls = s.ctls ∧ (s.updPart i g).rings = s.rings ∧ (s.updPart i g).bank = s.bank ∧ (s.updPart i
    g).rails = s.rails ∧ (s.updPart i g).loith = s.loith ∧ (s.updPart i g).stripes = s.stripes ∧ (s.updPart i g).keys = s.keys ∧ (s.updPart i
    g).images = s.images ∧ (s.updPart i g).migrations = s.migrations ∧ (s.updPart i g).flip = s.flip ∧ (s.updPart i g).plat = s.plat ∧ (s.updPart i
    g).recent = s.recent := by
  simp [State.updPart]

@[simp] theorem State.updRail_fields (s : State) (i : Nat) (g : Rail → Rail) : (s.updRail i g).agenda = s.agenda ∧ (s.updRail i g).focus = s.focus ∧
    (s.updRail i g).cur = s.cur ∧ (s.updRail i g).arg = s.arg ∧ (s.updRail i g).fresh = s.fresh ∧ (s.updRail i g).nextAcc = s.nextAcc ∧ (s.updRail i
    g).nextFiring = s.nextFiring ∧ (s.updRail i g).now = s.now ∧ (s.updRail i g).rtime = s.rtime ∧ (s.updRail i g).rfrac = s.rfrac ∧ (s.updRail i
    g).ctxs = s.ctxs ∧ (s.updRail i g).dbgs = s.dbgs ∧ (s.updRail i g).cores = s.cores ∧ (s.updRail i g).tiles = s.tiles ∧ (s.updRail i g).hubs =
    s.hubs ∧ (s.updRail i g).mem = s.mem ∧ (s.updRail i g).poison = s.poison ∧ (s.updRail i g).latent = s.latent ∧ (s.updRail i g).dirty = s.dirty ∧
    (s.updRail i g).cached = s.cached ∧ (s.updRail i g).misses = s.misses ∧ (s.updRail i g).net = s.net ∧ (s.updRail i g).syncs = s.syncs ∧ (s.updRail
    i g).flying = s.flying ∧ (s.updRail i g).ctls = s.ctls ∧ (s.updRail i g).rings = s.rings ∧ (s.updRail i g).bank = s.bank ∧ (s.updRail i g).parts =
    s.parts ∧ (s.updRail i g).loith = s.loith ∧ (s.updRail i g).stripes = s.stripes ∧ (s.updRail i g).keys = s.keys ∧ (s.updRail i g).images =
    s.images ∧ (s.updRail i g).migrations = s.migrations ∧ (s.updRail i g).flip = s.flip ∧ (s.updRail i g).plat = s.plat ∧ (s.updRail i g).recent =
    s.recent := by
  simp [State.updRail]

/-! ### The part that an update sets -/

theorem State.ctxOf_updCtx (s : State) (i k : Nat) (g : Ctx → Ctx) : (s.updCtx i g).ctxOf k = if k = i then g (s.ctxOf i) else s.ctxOf k := by
  simp [State.ctxOf, State.updCtx, KMap.get_put]

@[simp] theorem State.ctxOf_updCtx_self (s : State) (i : Nat) (g : Ctx → Ctx) : (s.updCtx i g).ctxOf i = g (s.ctxOf i) := by
  simp [State.ctxOf_updCtx]

theorem State.ctxOf_updCtx_other (s : State) (g : Ctx → Ctx) {i k : Nat} (h : k ≠ i) : (s.updCtx i g).ctxOf k = s.ctxOf k := by
  simp [State.ctxOf_updCtx, h]

theorem State.dbgOf_updDbg (s : State) (i k : Nat) (g : Dbg → Dbg) : (s.updDbg i g).dbgOf k = if k = i then g (s.dbgOf i) else s.dbgOf k := by
  simp [State.dbgOf, State.updDbg, KMap.get_put]

@[simp] theorem State.dbgOf_updDbg_self (s : State) (i : Nat) (g : Dbg → Dbg) : (s.updDbg i g).dbgOf i = g (s.dbgOf i) := by
  simp [State.dbgOf_updDbg]

theorem State.dbgOf_updDbg_other (s : State) (g : Dbg → Dbg) {i k : Nat} (h : k ≠ i) : (s.updDbg i g).dbgOf k = s.dbgOf k := by
  simp [State.dbgOf_updDbg, h]

theorem State.coreOf_updCore (s : State) (i k : Nat) (g : Core → Core) : (s.updCore i g).coreOf k = if k = i then g (s.coreOf i) else s.coreOf k := by
  simp [State.coreOf, State.updCore, KMap.get_put]

@[simp] theorem State.coreOf_updCore_self (s : State) (i : Nat) (g : Core → Core) : (s.updCore i g).coreOf i = g (s.coreOf i) := by
  simp [State.coreOf_updCore]

theorem State.coreOf_updCore_other (s : State) (g : Core → Core) {i k : Nat} (h : k ≠ i) : (s.updCore i g).coreOf k = s.coreOf k := by
  simp [State.coreOf_updCore, h]

theorem State.tileOf_updTile (s : State) (i k : Nat) (g : Tile → Tile) : (s.updTile i g).tileOf k = if k = i then g (s.tileOf i) else s.tileOf k := by
  simp [State.tileOf, State.updTile, KMap.get_put]

@[simp] theorem State.tileOf_updTile_self (s : State) (i : Nat) (g : Tile → Tile) : (s.updTile i g).tileOf i = g (s.tileOf i) := by
  simp [State.tileOf_updTile]

theorem State.tileOf_updTile_other (s : State) (g : Tile → Tile) {i k : Nat} (h : k ≠ i) : (s.updTile i g).tileOf k = s.tileOf k := by
  simp [State.tileOf_updTile, h]

theorem State.hubOf_updHub (s : State) (i k : Nat) (g : Hub → Hub) : (s.updHub i g).hubOf k = if k = i then g (s.hubOf i) else s.hubOf k := by
  simp [State.hubOf, State.updHub, KMap.get_put]

@[simp] theorem State.hubOf_updHub_self (s : State) (i : Nat) (g : Hub → Hub) : (s.updHub i g).hubOf i = g (s.hubOf i) := by
  simp [State.hubOf_updHub]

theorem State.hubOf_updHub_other (s : State) (g : Hub → Hub) {i k : Nat} (h : k ≠ i) : (s.updHub i g).hubOf k = s.hubOf k := by
  simp [State.hubOf_updHub, h]

theorem State.partOf_updPart (s : State) (i k : Nat) (g : Partition → Partition) : (s.updPart i g).partOf k = if k = i then g (s.partOf i) else s.partOf k := by
  simp [State.partOf, State.updPart, KMap.get_put]

@[simp] theorem State.partOf_updPart_self (s : State) (i : Nat) (g : Partition → Partition) : (s.updPart i g).partOf i = g (s.partOf i) := by
  simp [State.partOf_updPart]

theorem State.partOf_updPart_other (s : State) (g : Partition → Partition) {i k : Nat} (h : k ≠ i) : (s.updPart i g).partOf k = s.partOf k := by
  simp [State.partOf_updPart, h]

theorem State.railOf_updRail (s : State) (i k : Nat) (g : Rail → Rail) : (s.updRail i g).railOf k = if k = i then g (s.railOf i) else s.railOf k := by
  simp [State.railOf, State.updRail, KMap.get_put]

@[simp] theorem State.railOf_updRail_self (s : State) (i : Nat) (g : Rail → Rail) : (s.updRail i g).railOf i = g (s.railOf i) := by
  simp [State.railOf_updRail]

theorem State.railOf_updRail_other (s : State) (g : Rail → Rail) {i k : Nat} (h : k ≠ i) : (s.updRail i g).railOf k = s.railOf k := by
  simp [State.railOf_updRail, h]

/-! ### The parts that an update leaves -/

@[simp] theorem State.updCtx_parts (s : State) (i k : Nat) (g : Ctx → Ctx) : (s.updCtx i g).dbgOf k = s.dbgOf k ∧ (s.updCtx i g).coreOf k = s.coreOf k
    ∧ (s.updCtx i g).tileOf k = s.tileOf k ∧ (s.updCtx i g).hubOf k = s.hubOf k ∧ (s.updCtx i g).partOf k = s.partOf k ∧ (s.updCtx i g).railOf k =
    s.railOf k := by
  simp [State.updCtx, State.dbgOf, State.coreOf, State.tileOf, State.hubOf, State.partOf, State.railOf]

@[simp] theorem State.updDbg_parts (s : State) (i k : Nat) (g : Dbg → Dbg) : (s.updDbg i g).ctxOf k = s.ctxOf k ∧ (s.updDbg i g).coreOf k = s.coreOf k
    ∧ (s.updDbg i g).tileOf k = s.tileOf k ∧ (s.updDbg i g).hubOf k = s.hubOf k ∧ (s.updDbg i g).partOf k = s.partOf k ∧ (s.updDbg i g).railOf k =
    s.railOf k := by
  simp [State.updDbg, State.ctxOf, State.coreOf, State.tileOf, State.hubOf, State.partOf, State.railOf]

@[simp] theorem State.updCore_parts (s : State) (i k : Nat) (g : Core → Core) : (s.updCore i g).ctxOf k = s.ctxOf k ∧ (s.updCore i g).dbgOf k =
    s.dbgOf k ∧ (s.updCore i g).tileOf k = s.tileOf k ∧ (s.updCore i g).hubOf k = s.hubOf k ∧ (s.updCore i g).partOf k = s.partOf k ∧ (s.updCore i
    g).railOf k = s.railOf k := by
  simp [State.updCore, State.ctxOf, State.dbgOf, State.tileOf, State.hubOf, State.partOf, State.railOf]

@[simp] theorem State.updTile_parts (s : State) (i k : Nat) (g : Tile → Tile) : (s.updTile i g).ctxOf k = s.ctxOf k ∧ (s.updTile i g).dbgOf k =
    s.dbgOf k ∧ (s.updTile i g).coreOf k = s.coreOf k ∧ (s.updTile i g).hubOf k = s.hubOf k ∧ (s.updTile i g).partOf k = s.partOf k ∧ (s.updTile i
    g).railOf k = s.railOf k := by
  simp [State.updTile, State.ctxOf, State.dbgOf, State.coreOf, State.hubOf, State.partOf, State.railOf]

@[simp] theorem State.updHub_parts (s : State) (i k : Nat) (g : Hub → Hub) : (s.updHub i g).ctxOf k = s.ctxOf k ∧ (s.updHub i g).dbgOf k = s.dbgOf k ∧
    (s.updHub i g).coreOf k = s.coreOf k ∧ (s.updHub i g).tileOf k = s.tileOf k ∧ (s.updHub i g).partOf k = s.partOf k ∧ (s.updHub i g).railOf k =
    s.railOf k := by
  simp [State.updHub, State.ctxOf, State.dbgOf, State.coreOf, State.tileOf, State.partOf, State.railOf]

@[simp] theorem State.updPart_parts (s : State) (i k : Nat) (g : Partition → Partition) : (s.updPart i g).ctxOf k = s.ctxOf k ∧ (s.updPart i g).dbgOf
    k = s.dbgOf k ∧ (s.updPart i g).coreOf k = s.coreOf k ∧ (s.updPart i g).tileOf k = s.tileOf k ∧ (s.updPart i g).hubOf k = s.hubOf k ∧ (s.updPart i
    g).railOf k = s.railOf k := by
  simp [State.updPart, State.ctxOf, State.dbgOf, State.coreOf, State.tileOf, State.hubOf, State.railOf]

@[simp] theorem State.updRail_parts (s : State) (i k : Nat) (g : Rail → Rail) : (s.updRail i g).ctxOf k = s.ctxOf k ∧ (s.updRail i g).dbgOf k =
    s.dbgOf k ∧ (s.updRail i g).coreOf k = s.coreOf k ∧ (s.updRail i g).tileOf k = s.tileOf k ∧ (s.updRail i g).hubOf k = s.hubOf k ∧ (s.updRail i
    g).partOf k = s.partOf k := by
  simp [State.updRail, State.ctxOf, State.dbgOf, State.coreOf, State.tileOf, State.hubOf, State.partOf]

/-! ### The issuing context and its core, tile and hub -/

theorem State.upd_eq (s : State) (g : Ctx → Ctx) : s.upd g = s.updCtx s.cur g := rfl
theorem State.updCurCore_eq (s : State) (g : Core → Core) : s.updCurCore g = s.updCore (coreOfCtx s.cur) g := rfl
theorem State.updCurTile_eq (s : State) (g : Tile → Tile) : s.updCurTile g = s.updTile (tileOfCtx s.cur) g := rfl
theorem State.updCurHub_eq (s : State) (g : Hub → Hub) : s.updCurHub g = s.updHub (fieldOfCtx s.cur) g := rfl

@[simp] theorem State.upd_fields (s : State) (g : Ctx → Ctx) : (s.upd g).agenda = s.agenda ∧ (s.upd g).focus = s.focus ∧ (s.upd g).cur = s.cur ∧
    (s.upd g).arg = s.arg ∧ (s.upd g).fresh = s.fresh ∧ (s.upd g).nextAcc = s.nextAcc ∧ (s.upd g).nextFiring = s.nextFiring ∧ (s.upd g).now = s.now ∧
    (s.upd g).rtime = s.rtime ∧ (s.upd g).rfrac = s.rfrac ∧ (s.upd g).dbgs = s.dbgs ∧ (s.upd g).cores = s.cores ∧ (s.upd g).tiles = s.tiles ∧ (s.upd
    g).hubs = s.hubs ∧ (s.upd g).mem = s.mem ∧ (s.upd g).poison = s.poison ∧ (s.upd g).latent = s.latent ∧ (s.upd g).dirty = s.dirty ∧ (s.upd
    g).cached = s.cached ∧ (s.upd g).misses = s.misses ∧ (s.upd g).net = s.net ∧ (s.upd g).syncs = s.syncs ∧ (s.upd g).flying = s.flying ∧ (s.upd
    g).ctls = s.ctls ∧ (s.upd g).rings = s.rings ∧ (s.upd g).bank = s.bank ∧ (s.upd g).parts = s.parts ∧ (s.upd g).rails = s.rails ∧ (s.upd g).loith =
    s.loith ∧ (s.upd g).stripes = s.stripes ∧ (s.upd g).keys = s.keys ∧ (s.upd g).images = s.images ∧ (s.upd g).migrations = s.migrations ∧ (s.upd
    g).flip = s.flip ∧ (s.upd g).plat = s.plat ∧ (s.upd g).recent = s.recent := by
  simp [State.upd_eq]

@[simp] theorem State.updCurCore_fields (s : State) (g : Core → Core) : (s.updCurCore g).agenda = s.agenda ∧ (s.updCurCore g).focus = s.focus ∧
    (s.updCurCore g).cur = s.cur ∧ (s.updCurCore g).arg = s.arg ∧ (s.updCurCore g).fresh = s.fresh ∧ (s.updCurCore g).nextAcc = s.nextAcc ∧
    (s.updCurCore g).nextFiring = s.nextFiring ∧ (s.updCurCore g).now = s.now ∧ (s.updCurCore g).rtime = s.rtime ∧ (s.updCurCore g).rfrac = s.rfrac ∧
    (s.updCurCore g).ctxs = s.ctxs ∧ (s.updCurCore g).dbgs = s.dbgs ∧ (s.updCurCore g).tiles = s.tiles ∧ (s.updCurCore g).hubs = s.hubs ∧
    (s.updCurCore g).mem = s.mem ∧ (s.updCurCore g).poison = s.poison ∧ (s.updCurCore g).latent = s.latent ∧ (s.updCurCore g).dirty = s.dirty ∧
    (s.updCurCore g).cached = s.cached ∧ (s.updCurCore g).misses = s.misses ∧ (s.updCurCore g).net = s.net ∧ (s.updCurCore g).syncs = s.syncs ∧
    (s.updCurCore g).flying = s.flying ∧ (s.updCurCore g).ctls = s.ctls ∧ (s.updCurCore g).rings = s.rings ∧ (s.updCurCore g).bank = s.bank ∧
    (s.updCurCore g).parts = s.parts ∧ (s.updCurCore g).rails = s.rails ∧ (s.updCurCore g).loith = s.loith ∧ (s.updCurCore g).stripes = s.stripes ∧
    (s.updCurCore g).keys = s.keys ∧ (s.updCurCore g).images = s.images ∧ (s.updCurCore g).migrations = s.migrations ∧ (s.updCurCore g).flip = s.flip
    ∧ (s.updCurCore g).plat = s.plat ∧ (s.updCurCore g).recent = s.recent := by
  simp [State.updCurCore_eq]

@[simp] theorem State.updCurTile_fields (s : State) (g : Tile → Tile) : (s.updCurTile g).agenda = s.agenda ∧ (s.updCurTile g).focus = s.focus ∧
    (s.updCurTile g).cur = s.cur ∧ (s.updCurTile g).arg = s.arg ∧ (s.updCurTile g).fresh = s.fresh ∧ (s.updCurTile g).nextAcc = s.nextAcc ∧
    (s.updCurTile g).nextFiring = s.nextFiring ∧ (s.updCurTile g).now = s.now ∧ (s.updCurTile g).rtime = s.rtime ∧ (s.updCurTile g).rfrac = s.rfrac ∧
    (s.updCurTile g).ctxs = s.ctxs ∧ (s.updCurTile g).dbgs = s.dbgs ∧ (s.updCurTile g).cores = s.cores ∧ (s.updCurTile g).hubs = s.hubs ∧
    (s.updCurTile g).mem = s.mem ∧ (s.updCurTile g).poison = s.poison ∧ (s.updCurTile g).latent = s.latent ∧ (s.updCurTile g).dirty = s.dirty ∧
    (s.updCurTile g).cached = s.cached ∧ (s.updCurTile g).misses = s.misses ∧ (s.updCurTile g).net = s.net ∧ (s.updCurTile g).syncs = s.syncs ∧
    (s.updCurTile g).flying = s.flying ∧ (s.updCurTile g).ctls = s.ctls ∧ (s.updCurTile g).rings = s.rings ∧ (s.updCurTile g).bank = s.bank ∧
    (s.updCurTile g).parts = s.parts ∧ (s.updCurTile g).rails = s.rails ∧ (s.updCurTile g).loith = s.loith ∧ (s.updCurTile g).stripes = s.stripes ∧
    (s.updCurTile g).keys = s.keys ∧ (s.updCurTile g).images = s.images ∧ (s.updCurTile g).migrations = s.migrations ∧ (s.updCurTile g).flip = s.flip
    ∧ (s.updCurTile g).plat = s.plat ∧ (s.updCurTile g).recent = s.recent := by
  simp [State.updCurTile_eq]

@[simp] theorem State.updCurHub_fields (s : State) (g : Hub → Hub) : (s.updCurHub g).agenda = s.agenda ∧ (s.updCurHub g).focus = s.focus ∧
    (s.updCurHub g).cur = s.cur ∧ (s.updCurHub g).arg = s.arg ∧ (s.updCurHub g).fresh = s.fresh ∧ (s.updCurHub g).nextAcc = s.nextAcc ∧ (s.updCurHub
    g).nextFiring = s.nextFiring ∧ (s.updCurHub g).now = s.now ∧ (s.updCurHub g).rtime = s.rtime ∧ (s.updCurHub g).rfrac = s.rfrac ∧ (s.updCurHub
    g).ctxs = s.ctxs ∧ (s.updCurHub g).dbgs = s.dbgs ∧ (s.updCurHub g).cores = s.cores ∧ (s.updCurHub g).tiles = s.tiles ∧ (s.updCurHub g).mem = s.mem
    ∧ (s.updCurHub g).poison = s.poison ∧ (s.updCurHub g).latent = s.latent ∧ (s.updCurHub g).dirty = s.dirty ∧ (s.updCurHub g).cached = s.cached ∧
    (s.updCurHub g).misses = s.misses ∧ (s.updCurHub g).net = s.net ∧ (s.updCurHub g).syncs = s.syncs ∧ (s.updCurHub g).flying = s.flying ∧
    (s.updCurHub g).ctls = s.ctls ∧ (s.updCurHub g).rings = s.rings ∧ (s.updCurHub g).bank = s.bank ∧ (s.updCurHub g).parts = s.parts ∧ (s.updCurHub
    g).rails = s.rails ∧ (s.updCurHub g).loith = s.loith ∧ (s.updCurHub g).stripes = s.stripes ∧ (s.updCurHub g).keys = s.keys ∧ (s.updCurHub
    g).images = s.images ∧ (s.updCurHub g).migrations = s.migrations ∧ (s.updCurHub g).flip = s.flip ∧ (s.updCurHub g).plat = s.plat ∧ (s.updCurHub
    g).recent = s.recent := by
  simp [State.updCurHub_eq]

theorem State.updEng_eq (s : State) (g : Engine → Engine) :
    s.updEng g = s.updTile (tileOfCtx s.cur) (fun t => { t with eng := g t.eng, engShown := t.engShown.map g }) := rfl

@[simp] theorem State.updEng_fields (s : State) (g : Engine → Engine) : (s.updEng g).agenda = s.agenda ∧ (s.updEng g).focus = s.focus ∧ (s.updEng
    g).cur = s.cur ∧ (s.updEng g).arg = s.arg ∧ (s.updEng g).fresh = s.fresh ∧ (s.updEng g).nextAcc = s.nextAcc ∧ (s.updEng g).nextFiring =
    s.nextFiring ∧ (s.updEng g).now = s.now ∧ (s.updEng g).rtime = s.rtime ∧ (s.updEng g).rfrac = s.rfrac ∧ (s.updEng g).ctxs = s.ctxs ∧ (s.updEng
    g).dbgs = s.dbgs ∧ (s.updEng g).cores = s.cores ∧ (s.updEng g).hubs = s.hubs ∧ (s.updEng g).mem = s.mem ∧ (s.updEng g).poison = s.poison ∧
    (s.updEng g).latent = s.latent ∧ (s.updEng g).dirty = s.dirty ∧ (s.updEng g).cached = s.cached ∧ (s.updEng g).misses = s.misses ∧ (s.updEng g).net
    = s.net ∧ (s.updEng g).syncs = s.syncs ∧ (s.updEng g).flying = s.flying ∧ (s.updEng g).ctls = s.ctls ∧ (s.updEng g).rings = s.rings ∧ (s.updEng
    g).bank = s.bank ∧ (s.updEng g).parts = s.parts ∧ (s.updEng g).rails = s.rails ∧ (s.updEng g).loith = s.loith ∧ (s.updEng g).stripes = s.stripes ∧
    (s.updEng g).keys = s.keys ∧ (s.updEng g).images = s.images ∧ (s.updEng g).migrations = s.migrations ∧ (s.updEng g).flip = s.flip ∧ (s.updEng
    g).plat = s.plat ∧ (s.updEng g).recent = s.recent := by
  simp [State.updEng_eq]

@[simp] theorem State.cx_upd (s : State) (g : Ctx → Ctx) : (s.upd g).cx = g s.cx := by
  simp [State.cx, State.upd]

@[simp] theorem State.core_updCurCore (s : State) (g : Core → Core) : (s.updCurCore g).core = g s.core := by
  simp [State.core, State.updCurCore]

@[simp] theorem State.tile_updCurTile (s : State) (g : Tile → Tile) : (s.updCurTile g).tile = g s.tile := by
  simp [State.tile, State.updCurTile]

@[simp] theorem State.hub_updCurHub (s : State) (g : Hub → Hub) : (s.updCurHub g).hub = g s.hub := by
  simp [State.hub, State.updCurHub]

@[simp] theorem State.eng_updEng (s : State) (g : Engine → Engine) : (s.updEng g).eng = g s.eng := by
  simp [State.eng, State.updEng]

@[simp] theorem State.cx_updCurCore (s : State) (g : Core → Core) : (s.updCurCore g).cx = s.cx := rfl
@[simp] theorem State.cx_updCurTile (s : State) (g : Tile → Tile) : (s.updCurTile g).cx = s.cx := rfl
@[simp] theorem State.cx_updCurHub (s : State) (g : Hub → Hub) : (s.updCurHub g).cx = s.cx := rfl
@[simp] theorem State.cx_updEng (s : State) (g : Engine → Engine) : (s.updEng g).cx = s.cx := rfl

/-! ### Registers (R180) -/

@[simp] theorem State.x_zero (s : State) : s.x 0 = 0 := rfl
@[simp] theorem State.setX_zero (s : State) (v : Word) : s.setX 0 v = s := rfl

theorem State.setX_of_ne (s : State) (v : Word) {r : BitVec 5} (h : r ≠ 0) : s.setX r v = s.upd (fun c => { c with x := c.x.put r.toNat v }) := by
  rw [State.setX, if_neg h]

end Sys2Proof.Machine
end

