-- ==== Sys2Proof/Laws/Memory.lean ====
section
/-! SUPPORT. Memory keeps its canonical form in every operation that writes it. -/

namespace Sys2Proof.Machine

theorem Memory.wfFrom_cons (n j : Nat) (b : Byte) (m : Memory) : Memory.wfFrom n ((j, b) :: m) = true ↔ n ≤ j ∧ b ≠ 0 ∧ m.wfFrom (j + 1) = true := by
  simp [Memory.wfFrom, and_assoc]

theorem Memory.wfFrom_mono {n k : Nat} (h : k ≤ n) : ∀ {m : Memory}, m.wfFrom n = true → m.wfFrom k = true
  | [], _ => rfl
  | (j, b) :: m, hm => by
    rw [Memory.wfFrom_cons] at hm ⊢
    exact ⟨h.trans hm.1, hm.2⟩

/-- Leaving entries out keeps the form. -/
theorem Memory.filter_wfFrom (p : Host.Cell → Bool) : ∀ (n : Nat) (m : Memory), m.wfFrom n = true → Memory.wfFrom n (m.filter p) = true
  | _, [], _ => rfl
  | n, (j, b) :: m, hm => by
    rw [Memory.wfFrom_cons] at hm
    have ih := Memory.filter_wfFrom p (j + 1) m hm.2.2
    by_cases hp : p (j, b) = true
    · rw [List.filter_cons_of_pos hp, Memory.wfFrom_cons]
      exact ⟨hm.1, hm.2.1, ih⟩
    · rw [List.filter_cons_of_neg hp]
      exact Memory.wfFrom_mono (hm.1.trans (Nat.le_succ j)) ih

theorem Memory.insert_wfFrom {a : Nat} {b : Byte} (hb : b ≠ 0) : ∀ (n : Nat) (m : Memory), n ≤ a → m.wfFrom n = true → Memory.wfFrom n (m.insert a b) = true
  | n, [], h, _ => (Memory.wfFrom_cons n a b []).2 ⟨h, hb, rfl⟩
  | n, (j, c) :: m, h, hm => by
    rw [Memory.wfFrom_cons] at hm
    unfold Memory.insert
    split
    · exact (Memory.wfFrom_cons ..).2 ⟨h, hb, (Memory.wfFrom_cons ..).2 ⟨‹a < j›, hm.2⟩⟩
    · split
      · subst a
        exact (Memory.wfFrom_cons ..).2 ⟨h, hb, hm.2.2⟩
      · exact (Memory.wfFrom_cons ..).2 ⟨hm.1, hm.2.1, Memory.insert_wfFrom hb (j + 1) m (by omega) hm.2.2⟩

/-- Leaving entries out of a memory keeps its form. -/
theorem Memory.filter_wf (p : Host.Cell → Bool) {m : Memory} (h : m.wf = true) : Memory.wf (m.filter p) = true := Memory.filter_wfFrom p 0 m h

theorem Memory.write_wf {m : Memory} (a : Nat) (b : Byte) (h : m.wf = true) : (m.write a b).wf = true := by
  unfold Memory.write
  split
  · exact Memory.filter_wf _ h
  · exact Memory.insert_wfFrom ‹_› 0 m (Nat.zero_le a) h

theorem Memory.writeLE_wf {m : Memory} (a n v : Nat) (h : m.wf = true) : (m.writeLE a n v).wf = true := by
  induction n generalizing m a v with
  | zero => exact h
  | succ n ih => exact ih (a + 1) (v / 256) (Memory.write_wf a _ h)

/-- A fold of writes keeps the form. -/
theorem Memory.foldl_wf {α : Type} (g : Memory → α → Memory) (hg : ∀ m x, Memory.wf m = true → Memory.wf (g m x) = true) (l : List α) {m : Memory}
    (h : m.wf = true) : Memory.wf (l.foldl g m) = true := by
  induction l generalizing m with
  | nil => exact h
  | cons x l ih => exact ih (hg m x h)

/-! ### The operations of the machine on memory -/

/-- What overflows from a port stands in local store, of a member that is not restored in its field image (R98, R153). -/
theorem Core.keepOq_wf (c : Core) {m : Memory} (k a p : Nat) (spilt : Bool) (h : m.wf = true) : (c.keepOq m k a p spilt).wf = true := by
  unfold Core.keepOq
  simp only
  split
  · exact Memory.writeLE_wf _ _ _ h
  · exact h

theorem Core.keepSaved_wf (c : Core) (s : State) (member k : Nat) (place : Option (Nat × Nat)) (spilt : Bool) (h : s.mem.wf = true) :
    (c.keepSaved s member k place spilt).wf = true := by
  unfold Core.keepSaved
  split
  · exact h
  · simp only
    split
    · exact Memory.writeLE_wf _ _ _ h
    · exact h

/-- Moving bytes to other addresses gives the form (R399). -/
theorem State.restripe_mem_wf (s t : State) : (s.restripe t).mem.wf = true :=
  Memory.foldl_wf _ (fun _ _ h => Memory.write_wf _ _ h) s.mem rfl

theorem State.reset_mem_wf : Memory.wf State.reset.mem = true := rfl

/-- The local store of a tile leaves it, and stands in another (R175). -/
theorem dropStore_wf {m : Memory} (t : Nat) (h : m.wf = true) : (dropStore m t).wf = true := Memory.filter_wf _ h

theorem putStore_wf {m : Memory} (t : Nat) (d : Memory) (h : m.wf = true) : (putStore m t d).wf = true := by
  refine Memory.foldl_wf _ (fun m e hm => ?_) d (dropStore_wf t h)
  split
  · exact Memory.write_wf _ _ hm
  · exact hm

/-- The local stores of a field go to its image in HBM, and come back from there (R95, R97). -/
theorem State.saveStores_mem_wf (s : State) (f p : Nat) (h : s.mem.wf = true) : (s.saveStores f p).mem.wf = true :=
  Memory.foldl_wf _ (fun _ _ hm => Memory.write_wf _ _ hm) _ (Memory.filter_wf _ h)

theorem State.loadImage_mem_wf (s : State) (f : Nat) (m : FieldImage) (store : Memory) (h : s.mem.wf = true) : (s.loadImage f m store).mem.wf = true := by
  refine Memory.foldl_wf _ (fun c e hm => ?_) store (Memory.filter_wf _ h)
  split
  · exact Memory.write_wf _ _ hm
  · exact hm

/-- The words of a work list, and an object in local store (R406). -/
theorem State.putDouble_mem_wf (s : State) (key v : Nat) (h : s.mem.wf = true) : (s.putDouble key v).mem.wf = true := by
  unfold State.putDouble
  split
  · exact h
  · exact Memory.writeLE_wf _ _ _ h

theorem State.setLocal_mem_wf (s : State) (off v : Nat) (h : s.mem.wf = true) : (s.setLocal off v).mem.wf = true := State.putDouble_mem_wf s _ v h

theorem State.putObject_mem_wf (s : State) (g : Nat) (w : WorkList) (h : s.mem.wf = true) : (s.putObject g w).mem.wf = true := Memory.writeLE_wf _ _ _ h

end Sys2Proof.Machine
end

