-- ==== Sys2Proof/Laws/Ops.lean ====
section
/-! SUPPORT. What the shared operations of the instructions can do, once for each: the checks of a slot, the registers, retirement, a branch, a stall. -/

namespace Sys2Proof.Machine

/-! ### The checks of a slot (R276) -/

/-- An accepted instruction has its effect; another takes the fault of its slot. -/
theorem State.slotC_of_accepts {s : State} {i : Instr} (h : s.accepts i) (k : State → Out) : s.slotC i k = k s := by
  rw [State.accepts] at h
  simp [State.slotC, h]

theorem State.slotA_of_accepts {s : State} {i : Instr} (h : s.accepts i) (k : State → Out) : s.slotA i k = k s := by
  rw [State.accepts] at h
  simp [State.slotA, h]

theorem State.slotC_cases (s : State) (i : Instr) (k : State → Out) :
    (s.accepts i ∧ s.slotC i k = k s) ∨ ∃ c, slotCause i s.cx.long s.level = some c ∧ s.slotC i k = s.faultC c := by
  unfold State.accepts State.slotC
  cases h : slotCause i s.cx.long s.level with
  | none => exact .inl ⟨rfl, rfl⟩
  | some c => exact .inr ⟨c, rfl, rfl⟩

theorem State.slotA_cases (s : State) (i : Instr) (k : State → Out) :
    (s.accepts i ∧ s.slotA i k = k s) ∨ ∃ c, slotCause i s.cx.long s.level = some c ∧ s.slotA i k = s.faultA c := by
  unfold State.accepts State.slotA
  cases h : slotCause i s.cx.long s.level with
  | none => exact .inl ⟨rfl, rfl⟩
  | some c => exact .inr ⟨c, rfl, rfl⟩

/-! ### Registers (R180) -/

theorem State.setX_cases (s : State) (r : BitVec 5) (v : Word) :
    (r = 0 ∧ s.setX r v = s) ∨ (r ≠ 0 ∧ s.setX r v = s.upd (fun c => { c with x := c.x.put r.toNat v })) := by
  by_cases h : r = 0
  · exact .inl ⟨h, by rw [h, State.setX_zero]⟩
  · exact .inr ⟨h, s.setX_of_ne v h⟩

/-- A register write changes the issuing context alone. -/
theorem State.setX_keeps (s : State) (r : BitVec 5) (v : Word) : ({ s.setX r v with ctxs := s.ctxs } : State) = s := by
  obtain ⟨-, h⟩ | ⟨-, h⟩ := s.setX_cases r v <;> rw [h]
  rfl

/-- Of that context it changes one register. -/
theorem State.cx_setX (s : State) (r : BitVec 5) (v : Word) : (s.setX r v).cx = { s.cx with x := (s.setX r v).cx.x } := by
  obtain ⟨-, h⟩ | ⟨-, h⟩ := s.setX_cases r v <;> rw [h]
  rw [State.cx_upd]

@[simp] theorem State.cur_setX (s : State) (r : BitVec 5) (v : Word) : (s.setX r v).cur = s.cur := by
  obtain ⟨-, h⟩ | ⟨-, h⟩ := s.setX_cases r v <;> simp [h]

@[simp] theorem State.mem_setX (s : State) (r : BitVec 5) (v : Word) : (s.setX r v).mem = s.mem := by
  obtain ⟨-, h⟩ | ⟨-, h⟩ := s.setX_cases r v <;> simp [h]

/-! ### Retirement and stalls (R184) -/

/-- The context after its bundle retired. -/
theorem State.cx_retire (s : State) (npc : Word) : (s.retire npc).cx =
    { s.cx.retireTo npc with stall := none, reported := false, hold := none, reply := none, refusedArr := false, aDone := false } := by
  rw [State.retire, State.cx_updCurCore, State.cx_upd]

/-- Retirement changes the issuing context and its core's record of retirement (R253), and nothing else. -/
theorem State.retire_keeps (s : State) (npc : Word) : ({ s.retire npc with ctxs := s.ctxs, cores := s.cores } : State) = s := rfl

@[simp] theorem State.retire_fields (s : State) (npc : Word) : (s.retire npc).mem = s.mem ∧ (s.retire npc).cur = s.cur ∧ (s.retire npc).tiles = s.tiles ∧
    (s.retire npc).hubs = s.hubs ∧ (s.retire npc).net = s.net ∧ (s.retire npc).flying = s.flying := ⟨rfl, rfl, rfl, rfl, rfl, rfl⟩

theorem State.fall_eq (s : State) : s.fall = s.retire (s.cx.pc + 8) := rfl

theorem State.fall_keeps (s : State) : ({ s.fall with ctxs := s.ctxs, cores := s.cores } : State) = s := rfl

theorem State.result_eq (s : State) (xd : BitVec 5) (v : Word) : s.result xd v = .next (s.setX xd v).fall := rfl

/-- A stall records its start and its wait in the issuing context, and nothing else. -/
theorem State.stallOn_keeps (s : State) (w : Cause) : ({ s.stallOn w with ctxs := s.ctxs } : State) = s := rfl

/-- The time of a stall goes on from the one that the bundle has (R250). -/
theorem State.cx_stallOn (s : State) (w : Cause) : (s.stallOn w).cx = { s.cx with stall := some ((s.cx.stall.map (fun p => p.1)).getD s.rtime, w) } := by
  rw [State.stallOn, State.cx_upd]

/-- A taken branch changes the issuing context and its core's record of retirement, and nothing else (R197, R304). -/
theorem State.branch_keeps (s : State) (target : Word) : ({ s.branch target with ctxs := s.ctxs, cores := s.cores } : State) = s := rfl

end Sys2Proof.Machine
end

