-- ==== Sys2Proof/Tests/Slice0.lean ====
section
/-! SUPPORT. The tests of the model: ill-formed terms that WellFormed refuses, words written out from the spec's encodings and what they decode to, small
steps whose results the spec gives, and for each statement that has hypotheses a state and operands that meet them. -/

set_option Elab.async false

open Sys2Proof Sys2Proof.Machine

/-! ### Well-formed instructions: each check refuses an ill-formed term (R276 steps 2 to 4) -/

theorem test_wf_reserved_control_and_memory : ∀ i ∈ ([
    .callr { xd := 0, xa := 0, xb := 1, opt := 0 }, .jr { xd := 1, xa := 0, xb := 0, opt := 0 }, .wait { xd := 0, xa := 0, xb := 0, opt := 3 },
    .pf { rt := 1, base := 0, disp := 0 }, .ldAcq { rt := 0, base := 0, sc := 6, sz := 0, disp := 0 }, .stRel { rt := 0, base := 0, sc := 7, sz := 0, disp := 0 },
    .fence { xd := 0, sc := 6 }, .ldBIndexed { rt := 0, base := 0, idx := 0, sh := 0, t := 1 }, .stVIndexed { rt := 0, base := 0, idx := 0, sh := 0, t := 1 },
    .barArr { xd := 0, xa := 0, xb := 0, opt := 1 }, .capNarrow { xd := 2, xa := 4, xb := 0, opt := 1 }, .pipLend { xd := 0, xa := 0, xb := 0, opt := 1 },
    .semPost { xd := 0, xa := 0, xb := 0, opt := 8 }, .semWt { xd := 1, xa := 0, xb := 0, opt := 0 }, .amoAdd { xd := 0, base := 0, xb := 0, xc := 1, sz := 0 },
    .amoFaddS { xd := 0, base := 0, xb := 0, xc := 0, sz := 1 }, .redAdd { xd := 1, base := 0, xb := 0, xc := 0, sz := 0 },
    .redFaddH { xd := 0, base := 0, xb := 0, xc := 0, sz := 1 }, .send { xd := 0, xa := 0, xb := 2, opt := 448 }, .send { xd := 0, xa := 0, xb := 2, opt := 3 },
    .sendr { xd := 0, xa := 0, xb := 0, opt := 4 }, .sendSys { xd := 0, xa := 0, xb := 2, opt := 16 }, .peek { xd := 0, xa := 0, xb := 0, opt := 4 },
    .mtake { xd := 0, xa := 0, xb := 0, opt := 8 }, .mcnt { xd := 0, xa := 0, xb := 0, opt := 4 }, .capMint { xd := 2, xa := 0, xb := 0, opt := 1 },
    .capSelf { xd := 2, xa := 1, xb := 0, opt := 0 }, .wake { xd := 0, xa := 0, xb := 2, opt := 1 }, .actNew { xd := 2, xa := 0, xb := 0, opt := 2 },
    .actNew { xd := 2, xa := 0, xb := 4, opt := 1 }, .spawn { xd := 0, xa := 0, xb := 0, opt := 1 }, .spawn { xd := 0, xa := 0, xb := 0, opt := 448 },
    .strBind { xd := 0, xa := 0, xb := 0, opt := 4 }, .strFree { xd := 0, xa := 1, xb := 0, opt := 0 }, .pipReq { xd := 0, xa := 0, xb := 0, opt := 8 },
    .pipRel { xd := 0, xa := 0, xb := 0, opt := 1 }, .inv { xd := 0, xa := 0, xb := 0, opt := 2 }] : List Instr), check i = some .reservedField := by decide +kernel

theorem test_wf_reserved_scalar_and_vector : ∀ i ∈ ([
    .add { xd := 0, xa := 0, xb := 0, xc := 1, rm := 0, tr := 0 }, .fminS { xd := 0, xa := 0, xb := 0, xc := 0, rm := 1, tr := 0 },
    .div { xd := 0, xa := 0, xb := 0, xc := 0, rm := 1, tr := 0 }, .sel { xd := 0, xa := 0, xb := 0, xc := 0, rm := 1, tr := 0 },
    .clz { xd := 0, xa := 0, xb := 1, xc := 0, rm := 0, tr := 0 }, .faddS { xd := 0, xa := 0, xb := 0, xc := 0, rm := 5, tr := 0 },
    .fmaS { xd := 0, xa := 0, xb := 0, xc := 0, rm := 0, tr := 1 }, .fcvtSW { xd := 0, xa := 0, xb := 1, xc := 0, rm := 0, tr := 0 },
    .fcvtWS { xd := 0, xa := 0, xb := 0, xc := 1, rm := 0, tr := 0 }, .vadd { vd := 0, va := 0, vb := 0, me := 0, km := 1, t := 0, mod := 0, sub := 0 },
    .vadd { vd := 0, va := 0, vb := 0, me := 0, km := 0, t := 0, mod := 5, sub := 0 },
    .vadd { vd := 0, va := 0, vb := 0, me := 0, km := 0, t := 0, mod := 0, sub := 2 },
    .vaddScalar { vd := 0, va := 0, xb := 0, me := 0, km := 0, t := 2, mod := 2, sub := 0 },
    .vmin { vd := 0, va := 0, vb := 0, me := 0, km := 0, t := 0, mod := 1, sub := 0 },
    .vminScalar { vd := 0, va := 0, xb := 0, me := 0, km := 0, t := 0, mod := 0, sub := 1 },
    .vabs { vd := 0, va := 0, vb := 0, me := 0, km := 0, t := 0, mod := 2, sub := 0 },
    .vand { vd := 0, va := 0, vb := 0, me := 0, km := 0, t := 0, mod := 0, sub := 1 },
    .vandScalar { vd := 0, va := 0, xb := 0, me := 0, km := 0, t := 0, mod := 1, sub := 0 },
    .vcmp { vd := 0, va := 0, vb := 0, me := 0, km := 0, t := 0, mod := 0, sub := 1 },
    .vcmpScalar { vd := 0, va := 0, xb := 0, me := 0, km := 0, t := 0, mod := 0, sub := 1 },
    .vsel { vd := 0, va := 0, vb := 0, me := 0, km := 0, t := 0, mod := 0, sub := 0 },
    .vselScalar { vd := 0, va := 0, xb := 0, me := 1, km := 0, t := 0, mod := 1, sub := 0 },
    .vcvt { vd := 0, va := 0, vb := 0, me := 0, km := 0, t := 0, mod := 6, sub := 0 }, .vred { xd := 0, va := 0, me := 0, km := 0, t := 0, mod := 0, imm := 8 },
    .vred { xd := 0, va := 0, me := 0, km := 0, t := 0, mod := 1, imm := 1 }, .vscan { vd := 0, va := 0, vb := 0, me := 0, km := 0, t := 0, mod := 0, sub := 5 },
    .vbcast { vd := 0, va := 1, xb := 0, me := 0, km := 0, t := 0, mod := 0, sub := 0 }, .vext { xd := 0, va := 0, me := 1, km := 0, t := 0, mod := 0, imm := 0 },
    .vdot4 { vd := 0, va := 0, vb := 0, me := 0, km := 0, t := 0, mod := 0, sub := 1 },
    .vdot4Scalar { vd := 0, va := 0, xb := 0, me := 0, km := 1, t := 0, mod := 0, sub := 0 },
    .vexp2 { vd := 0, va := 0, vb := 0, me := 0, km := 0, t := 0, mod := 0, sub := 2 },
    .vmov { vd := 0, va := 0, vb := 1, me := 0, km := 0, t := 0, mod := 0, sub := 0 }] : List Instr), check i = some .reservedField := by decide +kernel

theorem test_wf_reserved_wide : ∀ i ∈ ([
    .liDHi { xd := 0, immh := 1, imml := 0 }, .liDHi { xd := 0, immh := 0, imml := 2 ^ 16 }, .farBz { xa := 0, xb := 1, off := 0 },
    .mma { xa := 0, xb := 0, xc := 0, opt := 32, ext := 0 }, .mma { xa := 0, xb := 0, xc := 0, opt := 0, ext := 128 },
    .mxLdb { xa := 0, xb := 0, xc := 0, opt := 1, ext := 0 }, .accZero { xa := 1, xb := 0, xc := 0, opt := 0, ext := 0 },
    .accLd { xa := 0, xb := 0, xc := 1, opt := 0, ext := 0 }, .accSt { xa := 0, xb := 0, xc := 0, opt := 4, ext := 0 },
    .accSt { xa := 0, xb := 0, xc := 0, opt := 80, ext := 0 }, .accProm { xa := 0, xb := 0, xc := 0, opt := 4, ext := 0 },
    .attQk { xa := 0, xb := 0, xc := 0, opt := 2, ext := 0 }, .attQk { xa := 0, xb := 0, xc := 0, opt := 0, ext := 2 ^ 13 },
    .attSm { xa := 0, xb := 0, xc := 1, opt := 0, ext := 0 }, .attPv { xa := 0, xb := 0, xc := 0, opt := 1, ext := 0 },
    .spMm { xa := 0, xb := 0, xc := 0, opt := 4, ext := 0 }, .spBm { xa := 0, xb := 0, xc := 0, opt := 1, ext := 0 },
    .spDrop { xa := 0, xb := 0, xc := 0, opt := 1, ext := 0 }, .spCnt { xa := 0, xb := 0, xc := 0, opt := 8, ext := 0 },
    .gath { xa := 0, xb := 0, xc := 0, opt := 1, ext := 0 }, .gath { xa := 0, xb := 2, xc := 0, opt := 0, ext := 0 },
    .scat { xa := 0, xb := 2, xc := 1, opt := 0, ext := 5 }, .wlPush { xa := 0, xb := 0, xc := 0, opt := 2, ext := 0 },
    .wlPopb { xa := 0, xb := 0, xc := 0, opt := 1, ext := 0 }, .launch { xa := 0, xb := 0, xc := 0, opt := 0, ext := 1 },
    .barInit { xa := 0, xb := 0, xc := 1, opt := 0, ext := 0 }, .barInit { xa := 0, xb := 0, xc := 0, opt := 6, ext := 0 }] : List Instr), check i = some .reservedField := by decide +kernel

theorem test_wf_registers : ∀ i ∈ ([
    .ldV { rt := 16, base := 0, disp := 0 }, .stVt { rt := 31, base := 0, disp := 0 }, .ldVIndexed { rt := 16, base := 0, idx := 0, sh := 0, t := 0 },
    .send { xd := 0, xa := 16, xb := 2, opt := 0 }, .send { xd := 0, xa := 0, xb := 1, opt := 0 }, .send { xd := 0, xa := 0, xb := 0, opt := 0 },
    .sendr { xd := 0, xa := 0, xb := 1, opt := 0 }, .mtake { xd := 15, xa := 0, xb := 0, opt := 0 }, .capMint { xd := 3, xa := 0, xb := 0, opt := 0 },
    .capSelf { xd := 0, xa := 0, xb := 0, opt := 0 }, .capNarrow { xd := 2, xa := 0, xb := 0, opt := 0 }, .wake { xd := 0, xa := 0, xb := 0, opt := 0 },
    .actDel { xd := 0, xa := 0, xb := 3, opt := 0 }, .actNew { xd := 2, xa := 0, xb := 3, opt := 0 }, .spawn { xd := 0, xa := 16, xb := 0, opt := 0 },
    .vcmp { vd := 8, va := 0, vb := 0, me := 0, km := 0, t := 0, mod := 0, sub := 0 },
    .vcmpScalar { vd := 9, va := 0, xb := 0, me := 0, km := 0, t := 0, mod := 0, sub := 0 },
    .vadd { vd := 1, va := 0, vb := 0, me := 0, km := 0, t := 0, mod := 0, sub := 1 },
    .vfma { vd := 0, va := 0, vb := 1, me := 0, km := 0, t := 0, mod := 0, sub := 1 },
    .vaddScalar { vd := 0, va := 1, xb := 0, me := 0, km := 0, t := 0, mod := 0, sub := 1 }, .gath { xa := 0, xb := 3, xc := 1, opt := 0, ext := 0 },
    .launch { xa := 0, xb := 5, xc := 0, opt := 0, ext := 0 }] : List Instr), check i = some .badRegister := by decide +kernel

theorem test_wf_immediates : ∀ i ∈ ([
    .shli { xd := 0, xa := 0, imm := 64 }, .shri { xd := 0, xa := 0, imm := 64 }, .srai { xd := 0, xa := 0, imm := 16383 },
    .vcvt { vd := 0, va := 0, vb := 2, me := 0, km := 0, t := 0, mod := 0, sub := 1 }, .mma { xa := 0, xb := 0, xc := 0, opt := 0, ext := 65 },
    .mmaRing { xa := 0, xb := 0, xc := 0, opt := 0, ext := 127 }] : List Instr), check i = some .immRange := by decide +kernel

/-! ### Decoding: for every encodable row, a word laid out by hand from the formats and opcodes of R278 to R285 -/

def wordsControl : List (Nat × Instr) := [
    (0x00000000, .nopC), (0x010015A5, .br { off := 0x15a5 }), (0x029195A5, .beq { xa := 18, xb := 6, off := 0x15a5 }),
    (0x039195A5, .bne { xa := 18, xb := 6, off := 0x15a5 }), (0x049195A5, .blt { xa := 18, xb := 6, off := 0x15a5 }),
    (0x059195A5, .bge { xa := 18, xb := 6, off := 0x15a5 }), (0x069195A5, .bltu { xa := 18, xb := 6, off := 0x15a5 }),
    (0x079195A5, .bgeu { xa := 18, xb := 6, off := 0x15a5 }), (0x089015A5, .bz { xa := 18, off := 0x15a5 }), (0x099015A5, .bnz { xa := 18, off := 0x15a5 }),
    (0x0A0015A5, .call { off := 0x15a5 }), (0x0D000000, .ret), (0x0E953000, .loop { xa := 18, lenm1 := 166 }), (0x0FBEEFA6, .loopi { count := 0xbeef, lenm1 := 166 }),
    (0x10000000, .lbrk), (0x12000000, .done), (0x13000000, .park), (0x14000000, .npOn), (0x15000000, .npOff), (0x2B630000, .fence { xd := 12, sc := 3 }),
    (0x2C5D8000, .mfs { x := 11, spr := 44 }), (0x2D5D8000, .mts { x := 11, spr := 44 }), (0x77ABCDEF, .trap { imm := 0xabcdef }),
    (0x78123456, .brk { imm := 0x123456 }), (0x7C000000, .modeL), (0x7D000000, .modeS)]

theorem test_decode_control : ∀ p ∈ wordsControl, decodeC p.1 = .ok p.2 := by decide +kernel

def wordsSystem : List (Nat × Instr) := [
    (0x0B648000, .callr { xd := 12, xa := 18, xb := 0, opt := 0 }), (0x0C048000, .jr { xd := 0, xa := 18, xb := 0, opt := 0 }),
    (0x11648002, .wait { xd := 12, xa := 18, xb := 0, opt := 2 }), (0x4A648C00, .barArr { xd := 12, xa := 18, xb := 6, opt := 0 }),
    (0x4B648C00, .barArrx { xd := 12, xa := 18, xb := 6, opt := 0 }), (0x4C648C00, .barWt { xd := 12, xa := 18, xb := 6, opt := 0 }),
    (0x4D648C00, .barTst { xd := 12, xa := 18, xb := 6, opt := 0 }), (0x4E048005, .semPost { xd := 0, xa := 18, xb := 0, opt := 5 }),
    (0x4F048007, .semWt { xd := 0, xa := 18, xb := 0, opt := 7 }), (0x60628C6D, .send { xd := 12, xa := 10, xb := 6, opt := 109 }),
    (0x61628C82, .sendr { xd := 12, xa := 10, xb := 6, opt := 130 }), (0x62628C85, .sendSys { xd := 12, xa := 10, xb := 6, opt := 133 }),
    (0x63648003, .peek { xd := 12, xa := 18, xb := 0, opt := 3 }), (0x64648005, .mtake { xd := 12, xa := 18, xb := 0, opt := 5 }),
    (0x65600001, .mcnt { xd := 12, xa := 0, xb := 0, opt := 1 }), (0x66648002, .mdrop { xd := 12, xa := 18, xb := 0, opt := 2 }),
    (0x67648000, .capMint { xd := 12, xa := 18, xb := 0, opt := 0 }), (0x68648C00, .capNarrow { xd := 12, xa := 18, xb := 6, opt := 0 }),
    (0x69600000, .capSelf { xd := 12, xa := 0, xb := 0, opt := 0 }), (0x6A000C00, .wake { xd := 0, xa := 0, xb := 6, opt := 0 }),
    (0x6B000C00, .halt { xd := 0, xa := 0, xb := 6, opt := 0 }), (0x6C648C00, .actNew { xd := 12, xa := 18, xb := 6, opt := 0 }),
    (0x6D000C00, .actDel { xd := 0, xa := 0, xb := 6, opt := 0 }), (0x6E0280C0, .spawn { xd := 0, xa := 10, xb := 0, opt := 192 }),
    (0x70048003, .strBind { xd := 0, xa := 18, xb := 0, opt := 3 }), (0x71000001, .strFree { xd := 0, xa := 0, xb := 0, opt := 1 }),
    (0x72600002, .strStat { xd := 12, xa := 0, xb := 0, opt := 2 }), (0x73048006, .pipReq { xd := 0, xa := 18, xb := 0, opt := 6 }),
    (0x74048000, .pipRel { xd := 0, xa := 18, xb := 0, opt := 0 }), (0x75648C00, .pipLend { xd := 12, xa := 18, xb := 6, opt := 0 }),
    (0x76600000, .pipStat { xd := 12, xa := 0, xb := 0, opt := 0 }), (0x79048000, .cln { xd := 0, xa := 18, xb := 0, opt := 0 }),
    (0x7A048001, .inv { xd := 0, xa := 18, xb := 0, opt := 1 }), (0x7B048000, .lutLd { xd := 0, xa := 18, xb := 0, opt := 0 }),
    (0x7E648000, .wlStat { xd := 12, xa := 18, xb := 0, opt := 0 })]

theorem test_decode_system : ∀ p ∈ wordsSystem, decodeC p.1 = .ok p.2 := by decide +kernel

def wordsMemory : List (Nat × Instr) := [
    (0x182C6AA5, .ldB { rt := 5, base := 17, disp := 0x2aa5 }), (0x192C6AA5, .ldBu { rt := 5, base := 17, disp := 0x2aa5 }),
    (0x1A2C6AA5, .ldH { rt := 5, base := 17, disp := 0x2aa5 }), (0x1B2C6AA5, .ldHu { rt := 5, base := 17, disp := 0x2aa5 }),
    (0x1C2C6AA5, .ldW { rt := 5, base := 17, disp := 0x2aa5 }), (0x1D2C6AA5, .ldWu { rt := 5, base := 17, disp := 0x2aa5 }),
    (0x1E2C6AA5, .ldD { rt := 5, base := 17, disp := 0x2aa5 }), (0x202C6AA5, .stB { rt := 5, base := 17, disp := 0x2aa5 }),
    (0x212C6AA5, .stH { rt := 5, base := 17, disp := 0x2aa5 }), (0x222C6AA5, .stW { rt := 5, base := 17, disp := 0x2aa5 }),
    (0x232C6AA5, .stD { rt := 5, base := 17, disp := 0x2aa5 }), (0x242C5EA5, .ldAcq { rt := 5, base := 17, sc := 3, sz := 1, disp := 0x2a5 }),
    (0x252C6FFF, .stRel { rt := 5, base := 17, sc := 5, sz := 1, disp := 0x3ff }), (0x262C6AA5, .ldV { rt := 5, base := 17, disp := 0x2aa5 }),
    (0x272C6AA5, .stV { rt := 5, base := 17, disp := 0x2aa5 }), (0x282C7FF1, .ldVt { rt := 5, base := 17, disp := 0x3ff1 }),
    (0x292C6AA5, .stVt { rt := 5, base := 17, disp := 0x2aa5 }), (0x2A046AA5, .pf { rt := 0, base := 17, disp := 0x2aa5 }),
    (0x382C6B00, .ldBIndexed { rt := 5, base := 17, idx := 21, sh := 2, t := 0 }), (0x392C6B00, .ldBuIndexed { rt := 5, base := 17, idx := 21, sh := 2, t := 0 }),
    (0x3A2C6B00, .ldHIndexed { rt := 5, base := 17, idx := 21, sh := 2, t := 0 }), (0x3B2C6B00, .ldHuIndexed { rt := 5, base := 17, idx := 21, sh := 2, t := 0 }),
    (0x3C2C6B00, .ldWIndexed { rt := 5, base := 17, idx := 21, sh := 2, t := 0 }), (0x3D2C6B00, .ldWuIndexed { rt := 5, base := 17, idx := 21, sh := 2, t := 0 }),
    (0x3E2C6B00, .ldDIndexed { rt := 5, base := 17, idx := 21, sh := 2, t := 0 }), (0x402C6B00, .stBIndexed { rt := 5, base := 17, idx := 21, sh := 2, t := 0 }),
    (0x412C6B00, .stHIndexed { rt := 5, base := 17, idx := 21, sh := 2, t := 0 }), (0x422C6B00, .stWIndexed { rt := 5, base := 17, idx := 21, sh := 2, t := 0 }),
    (0x432C6B00, .stDIndexed { rt := 5, base := 17, idx := 21, sh := 2, t := 0 }), (0x462C6B00, .ldVIndexed { rt := 5, base := 17, idx := 21, sh := 2, t := 0 }),
    (0x472C6B00, .stVIndexed { rt := 5, base := 17, idx := 21, sh := 2, t := 0 }), (0x482C6B20, .ldVtIndexed { rt := 5, base := 17, idx := 21, sh := 2, t := 1 }),
    (0x492C6B20, .stVtIndexed { rt := 5, base := 17, idx := 21, sh := 2, t := 1 })]

theorem test_decode_memory : ∀ p ∈ wordsMemory, decodeC p.1 = .ok p.2 := by decide +kernel

def wordsAtomics : List (Nat × Instr) := [
    (0x50644C08, .amoAdd { xd := 12, base := 17, xb := 6, xc := 0, sz := 1 }), (0x51644C08, .amoAnd { xd := 12, base := 17, xb := 6, xc := 0, sz := 1 }),
    (0x52644C08, .amoOr { xd := 12, base := 17, xb := 6, xc := 0, sz := 1 }), (0x53644C08, .amoXor { xd := 12, base := 17, xb := 6, xc := 0, sz := 1 }),
    (0x54644C08, .amoMin { xd := 12, base := 17, xb := 6, xc := 0, sz := 1 }), (0x55644C08, .amoMax { xd := 12, base := 17, xb := 6, xc := 0, sz := 1 }),
    (0x56644C08, .amoMinu { xd := 12, base := 17, xb := 6, xc := 0, sz := 1 }), (0x57644C08, .amoMaxu { xd := 12, base := 17, xb := 6, xc := 0, sz := 1 }),
    (0x58644C08, .amoSwap { xd := 12, base := 17, xb := 6, xc := 0, sz := 1 }), (0x59644C98, .amoCas { xd := 12, base := 17, xb := 6, xc := 9, sz := 1 }),
    (0x5A644C00, .amoFaddS { xd := 12, base := 17, xb := 6, xc := 0, sz := 0 }), (0x5B044C08, .redAdd { xd := 0, base := 17, xb := 6, xc := 0, sz := 1 }),
    (0x5C044C00, .redFaddS { xd := 0, base := 17, xb := 6, xc := 0, sz := 0 }), (0x5D044C00, .redFaddH { xd := 0, base := 17, xb := 6, xc := 0, sz := 0 })]

theorem test_decode_atomics : ∀ p ∈ wordsAtomics, decodeC p.1 = .ok p.2 := by decide +kernel

noncomputable def wordsScalar : List (Nat × Instr) := [
    (0x00000000, .nopA), (0x01648C00, .add { xd := 12, xa := 18, xb := 6, xc := 0, rm := 0, tr := 0 }),
    (0x02648C00, .sub { xd := 12, xa := 18, xb := 6, xc := 0, rm := 0, tr := 0 }), (0x03648C00, .mul { xd := 12, xa := 18, xb := 6, xc := 0, rm := 0, tr := 0 }),
    (0x04648C00, .mulh { xd := 12, xa := 18, xb := 6, xc := 0, rm := 0, tr := 0 }), (0x05648C00, .mulhu { xd := 12, xa := 18, xb := 6, xc := 0, rm := 0, tr := 0 }),
    (0x06648C01, .div { xd := 12, xa := 18, xb := 6, xc := 0, rm := 0, tr := 1 }), (0x07648C01, .divu { xd := 12, xa := 18, xb := 6, xc := 0, rm := 0, tr := 1 }),
    (0x08648C01, .rem { xd := 12, xa := 18, xb := 6, xc := 0, rm := 0, tr := 1 }), (0x09648C01, .remu { xd := 12, xa := 18, xb := 6, xc := 0, rm := 0, tr := 1 }),
    (0x0A648C00, .and { xd := 12, xa := 18, xb := 6, xc := 0, rm := 0, tr := 0 }), (0x0B648C00, .or { xd := 12, xa := 18, xb := 6, xc := 0, rm := 0, tr := 0 }),
    (0x0C648C00, .xor { xd := 12, xa := 18, xb := 6, xc := 0, rm := 0, tr := 0 }), (0x0D648C00, .andn { xd := 12, xa := 18, xb := 6, xc := 0, rm := 0, tr := 0 }),
    (0x0E648C00, .orn { xd := 12, xa := 18, xb := 6, xc := 0, rm := 0, tr := 0 }), (0x0F648C00, .shl { xd := 12, xa := 18, xb := 6, xc := 0, rm := 0, tr := 0 }),
    (0x10648C00, .shr { xd := 12, xa := 18, xb := 6, xc := 0, rm := 0, tr := 0 }), (0x11648C00, .sra { xd := 12, xa := 18, xb := 6, xc := 0, rm := 0, tr := 0 }),
    (0x12648C00, .rol { xd := 12, xa := 18, xb := 6, xc := 0, rm := 0, tr := 0 }), (0x13648C00, .min { xd := 12, xa := 18, xb := 6, xc := 0, rm := 0, tr := 0 }),
    (0x14648C00, .max { xd := 12, xa := 18, xb := 6, xc := 0, rm := 0, tr := 0 }), (0x15648C00, .minu { xd := 12, xa := 18, xb := 6, xc := 0, rm := 0, tr := 0 }),
    (0x16648C00, .maxu { xd := 12, xa := 18, xb := 6, xc := 0, rm := 0, tr := 0 }), (0x17648C00, .slt { xd := 12, xa := 18, xb := 6, xc := 0, rm := 0, tr := 0 }),
    (0x18648C00, .sltu { xd := 12, xa := 18, xb := 6, xc := 0, rm := 0, tr := 0 }), (0x19648C00, .seq { xd := 12, xa := 18, xb := 6, xc := 0, rm := 0, tr := 0 }),
    (0x1A648C90, .sel { xd := 12, xa := 18, xb := 6, xc := 9, rm := 0, tr := 0 }), (0x1B648000, .clz { xd := 12, xa := 18, xb := 0, xc := 0, rm := 0, tr := 0 }),
    (0x1C648000, .ctz { xd := 12, xa := 18, xb := 0, xc := 0, rm := 0, tr := 0 }), (0x1D648000, .popc { xd := 12, xa := 18, xb := 0, xc := 0, rm := 0, tr := 0 }),
    (0x1E648000, .bswap { xd := 12, xa := 18, xb := 0, xc := 0, rm := 0, tr := 0 }), (0x20648000, .sextB { xd := 12, xa := 18, xb := 0, xc := 0, rm := 0, tr := 0 }),
    (0x21648000, .sextH { xd := 12, xa := 18, xb := 0, xc := 0, rm := 0, tr := 0 }), (0x22648000, .sextW { xd := 12, xa := 18, xb := 0, xc := 0, rm := 0, tr := 0 }),
    (0x23648000, .zextB { xd := 12, xa := 18, xb := 0, xc := 0, rm := 0, tr := 0 }), (0x24648000, .zextH { xd := 12, xa := 18, xb := 0, xc := 0, rm := 0, tr := 0 }),
    (0x25648000, .zextW { xd := 12, xa := 18, xb := 0, xc := 0, rm := 0, tr := 0 }), (0x2864ABCD, .addi { xd := 12, xa := 18, imm := 0x2bcd }),
    (0x2964BFFF, .andi { xd := 12, xa := 18, imm := 0x3fff }), (0x2A64802B, .ori { xd := 12, xa := 18, imm := 43 }),
    (0x2B64802B, .xori { xd := 12, xa := 18, imm := 43 }), (0x2C64802B, .shli { xd := 12, xa := 18, imm := 43 }),
    (0x2D64802B, .shri { xd := 12, xa := 18, imm := 43 }), (0x2E64802B, .srai { xd := 12, xa := 18, imm := 43 }), (0x3065ABCD, .li { xd := 12, imm := 0x5abcd }),
    (0x3167FFFF, .lih { xd := 12, imm := 0x7ffff })]

theorem test_decode_scalar : ∀ p ∈ wordsScalar, decodeA p.1 = .ok p.2 := by decide +kernel

noncomputable def wordsFloat : List (Nat × Instr) := [
    (0x40648C06, .faddS { xd := 12, xa := 18, xb := 6, xc := 0, rm := 3, tr := 0 }), (0x41648C06, .fsubS { xd := 12, xa := 18, xb := 6, xc := 0, rm := 3, tr := 0 }),
    (0x42648C06, .fmulS { xd := 12, xa := 18, xb := 6, xc := 0, rm := 3, tr := 0 }), (0x43648C96, .fmaS { xd := 12, xa := 18, xb := 6, xc := 9, rm := 3, tr := 0 }),
    (0x44648C00, .fminS { xd := 12, xa := 18, xb := 6, xc := 0, rm := 0, tr := 0 }), (0x45648C00, .fmaxS { xd := 12, xa := 18, xb := 6, xc := 0, rm := 0, tr := 0 }),
    (0x46648C00, .feqS { xd := 12, xa := 18, xb := 6, xc := 0, rm := 0, tr := 0 }), (0x47648C00, .fltS { xd := 12, xa := 18, xb := 6, xc := 0, rm := 0, tr := 0 }),
    (0x48648C00, .fleS { xd := 12, xa := 18, xb := 6, xc := 0, rm := 0, tr := 0 }), (0x49648C00, .fsgnjS { xd := 12, xa := 18, xb := 6, xc := 0, rm := 0, tr := 0 }),
    (0x4A648000, .fclassS { xd := 12, xa := 18, xb := 0, xc := 0, rm := 0, tr := 0 }),
    (0x4B648006, .fcvtSW { xd := 12, xa := 18, xb := 0, xc := 0, rm := 3, tr := 0 }),
    (0x4C648007, .fcvtWS { xd := 12, xa := 18, xb := 0, xc := 0, rm := 3, tr := 1 }),
    (0x4D648000, .fcvtSH { xd := 12, xa := 18, xb := 0, xc := 0, rm := 0, tr := 0 }),
    (0x4E648006, .fcvtHS { xd := 12, xa := 18, xb := 0, xc := 0, rm := 3, tr := 0 }), (0x50648C06, .faddH { xd := 12, xa := 18, xb := 6, xc := 0, rm := 3, tr := 0 }),
    (0x51648C06, .fsubH { xd := 12, xa := 18, xb := 6, xc := 0, rm := 3, tr := 0 }), (0x52648C06, .fmulH { xd := 12, xa := 18, xb := 6, xc := 0, rm := 3, tr := 0 }),
    (0x53648C96, .fmaH { xd := 12, xa := 18, xb := 6, xc := 9, rm := 3, tr := 0 }), (0x54648C00, .fminH { xd := 12, xa := 18, xb := 6, xc := 0, rm := 0, tr := 0 }),
    (0x55648C00, .fmaxH { xd := 12, xa := 18, xb := 6, xc := 0, rm := 0, tr := 0 }), (0x56648C00, .feqH { xd := 12, xa := 18, xb := 6, xc := 0, rm := 0, tr := 0 }),
    (0x57648C00, .fltH { xd := 12, xa := 18, xb := 6, xc := 0, rm := 0, tr := 0 }), (0x58648C00, .fleH { xd := 12, xa := 18, xb := 6, xc := 0, rm := 0, tr := 0 }),
    (0x59648C00, .fsgnjH { xd := 12, xa := 18, xb := 6, xc := 0, rm := 0, tr := 0 }),
    (0x5A648000, .fclassH { xd := 12, xa := 18, xb := 0, xc := 0, rm := 0, tr := 0 })]

theorem test_decode_float : ∀ p ∈ wordsFloat, decodeA p.1 = .ok p.2 := by decide +kernel

def wordsVectors : List (Nat × Instr) := [
    (0x804A6D49, .vadd { vd := 4, va := 10, vb := 6, me := 1, km := 5, t := 1, mod := 1, sub := 1 }),
    (0x814A6D49, .vsub { vd := 4, va := 10, vb := 6, me := 1, km := 5, t := 1, mod := 1, sub := 1 }),
    (0x824A6D49, .vmul { vd := 4, va := 10, vb := 6, me := 1, km := 5, t := 1, mod := 1, sub := 1 }),
    (0x834A6D49, .vfma { vd := 4, va := 10, vb := 6, me := 1, km := 5, t := 1, mod := 1, sub := 1 }),
    (0x844A6D90, .vmin { vd := 4, va := 10, vb := 6, me := 1, km := 5, t := 2, mod := 2, sub := 0 }),
    (0x854A6D90, .vmax { vd := 4, va := 10, vb := 6, me := 1, km := 5, t := 2, mod := 2, sub := 0 }),
    (0x864A0DA8, .vabs { vd := 4, va := 10, vb := 0, me := 1, km := 5, t := 2, mod := 5, sub := 0 }),
    (0x874A0D88, .vneg { vd := 4, va := 10, vb := 0, me := 1, km := 5, t := 2, mod := 1, sub := 0 }),
    (0x884A6D40, .vand { vd := 4, va := 10, vb := 6, me := 1, km := 5, t := 1, mod := 0, sub := 0 }),
    (0x894A6D40, .vor { vd := 4, va := 10, vb := 6, me := 1, km := 5, t := 1, mod := 0, sub := 0 }),
    (0x8A4A6D40, .vxor { vd := 4, va := 10, vb := 6, me := 1, km := 5, t := 1, mod := 0, sub := 0 }),
    (0x8B4A6D80, .vshl { vd := 4, va := 10, vb := 6, me := 1, km := 5, t := 2, mod := 0, sub := 0 }),
    (0x8C4A6D80, .vshr { vd := 4, va := 10, vb := 6, me := 1, km := 5, t := 2, mod := 0, sub := 0 }),
    (0x8D4A6D80, .vsra { vd := 4, va := 10, vb := 6, me := 1, km := 5, t := 2, mod := 0, sub := 0 }),
    (0x8E4A6DB0, .vcmp { vd := 4, va := 10, vb := 6, me := 1, km := 5, t := 2, mod := 6, sub := 0 }),
    (0x8F4A6D40, .vsel { vd := 4, va := 10, vb := 6, me := 1, km := 5, t := 1, mod := 0, sub := 0 }),
    (0x904A1D26, .vcvt { vd := 4, va := 10, vb := 1, me := 1, km := 5, t := 0, mod := 4, sub := 6 }),
    (0x924A0D58, .vscan { vd := 4, va := 10, vb := 0, me := 1, km := 5, t := 1, mod := 3, sub := 0 }),
    (0x944A6D40, .vperm { vd := 4, va := 10, vb := 6, me := 1, km := 5, t := 1, mod := 0, sub := 0 }),
    (0x974A6DF8, .vdot4 { vd := 4, va := 10, vb := 6, me := 1, km := 5, t := 3, mod := 7, sub := 0 }),
    (0x984A0D49, .vexp2 { vd := 4, va := 10, vb := 0, me := 1, km := 5, t := 1, mod := 1, sub := 1 }),
    (0x994A0D49, .vlog2 { vd := 4, va := 10, vb := 0, me := 1, km := 5, t := 1, mod := 1, sub := 1 }),
    (0x9A4A0D49, .vrcp { vd := 4, va := 10, vb := 0, me := 1, km := 5, t := 1, mod := 1, sub := 1 }),
    (0x9B4A0D49, .vrsqrt { vd := 4, va := 10, vb := 0, me := 1, km := 5, t := 1, mod := 1, sub := 1 }),
    (0x9C4A0D49, .vsqrt { vd := 4, va := 10, vb := 0, me := 1, km := 5, t := 1, mod := 1, sub := 1 }),
    (0x9D4A0D49, .vtanh { vd := 4, va := 10, vb := 0, me := 1, km := 5, t := 1, mod := 1, sub := 1 }),
    (0x9E4A0D40, .vmov { vd := 4, va := 10, vb := 0, me := 1, km := 5, t := 1, mod := 0, sub := 0 }),
    (0x9F4A0D80, .vpopc { vd := 4, va := 10, vb := 0, me := 1, km := 5, t := 2, mod := 0, sub := 0 })]

theorem test_decode_vectors : ∀ p ∈ wordsVectors, decodeA p.1 = .ok p.2 := by decide +kernel

noncomputable def wordsVectorScalars : List (Nat × Instr) := [
    (0x91656A40, .vred { xd := 12, va := 10, me := 1, km := 5, t := 1, mod := 1, imm := 0 }),
    (0x934036A0, .vbcast { vd := 4, va := 0, xb := 6, me := 1, km := 5, t := 1, mod := 0, sub := 0 }),
    (0x954A32B0, .vins { vd := 4, va := 10, xb := 6, imm := 21, t := 2 }), (0x96650207, .vext { xd := 12, va := 10, me := 0, km := 0, t := 1, mod := 0, imm := 7 }),
    (0xA04A36A5, .vaddScalar { vd := 4, va := 10, xb := 6, me := 1, km := 5, t := 1, mod := 1, sub := 1 }),
    (0xA14A36A5, .vsubScalar { vd := 4, va := 10, xb := 6, me := 1, km := 5, t := 1, mod := 1, sub := 1 }),
    (0xA24A36A5, .vmulScalar { vd := 4, va := 10, xb := 6, me := 1, km := 5, t := 1, mod := 1, sub := 1 }),
    (0xA34A36A5, .vfmaScalar { vd := 4, va := 10, xb := 6, me := 1, km := 5, t := 1, mod := 1, sub := 1 }),
    (0xA44A36C8, .vminScalar { vd := 4, va := 10, xb := 6, me := 1, km := 5, t := 2, mod := 2, sub := 0 }),
    (0xA54A36C8, .vmaxScalar { vd := 4, va := 10, xb := 6, me := 1, km := 5, t := 2, mod := 2, sub := 0 }),
    (0xA84A36A0, .vandScalar { vd := 4, va := 10, xb := 6, me := 1, km := 5, t := 1, mod := 0, sub := 0 }),
    (0xA94A36A0, .vorScalar { vd := 4, va := 10, xb := 6, me := 1, km := 5, t := 1, mod := 0, sub := 0 }),
    (0xAA4A36A0, .vxorScalar { vd := 4, va := 10, xb := 6, me := 1, km := 5, t := 1, mod := 0, sub := 0 }),
    (0xAB4A36C0, .vshlScalar { vd := 4, va := 10, xb := 6, me := 1, km := 5, t := 2, mod := 0, sub := 0 }),
    (0xAC4A36C0, .vshrScalar { vd := 4, va := 10, xb := 6, me := 1, km := 5, t := 2, mod := 0, sub := 0 }),
    (0xAD4A36C0, .vsraScalar { vd := 4, va := 10, xb := 6, me := 1, km := 5, t := 2, mod := 0, sub := 0 }),
    (0xAE4A36C8, .vcmpScalar { vd := 4, va := 10, xb := 6, me := 1, km := 5, t := 2, mod := 2, sub := 0 }),
    (0xAF4A36A0, .vselScalar { vd := 4, va := 10, xb := 6, me := 1, km := 5, t := 1, mod := 0, sub := 0 }),
    (0xB74A36F8, .vdot4Scalar { vd := 4, va := 10, xb := 6, me := 1, km := 5, t := 3, mod := 6, sub := 0 })]

theorem test_decode_vectorScalars : ∀ p ∈ wordsVectorScalars, decodeA p.1 = .ok p.2 := by decide +kernel

def wordsWide : List ((Nat × Nat) × Instr) := [
    ((0x80608123, 0x89ABCDEF), .liD { xd := 12, immh := 0x8123, imml := 0x89abcdef }), ((0x80640000, 0x0000FEDC), .liDHi { xd := 12, immh := 0, imml := 0xfedc }),
    ((0x81918000, 0xFFFF1234), .farBeq { xa := 18, xb := 6, off := 0xffff1234 }), ((0x81918800, 0xFFFF1234), .farBne { xa := 18, xb := 6, off := 0xffff1234 }),
    ((0x81919000, 0xFFFF1234), .farBlt { xa := 18, xb := 6, off := 0xffff1234 }), ((0x81919800, 0xFFFF1234), .farBge { xa := 18, xb := 6, off := 0xffff1234 }),
    ((0x8191A000, 0xFFFF1234), .farBltu { xa := 18, xb := 6, off := 0xffff1234 }), ((0x8191A800, 0xFFFF1234), .farBgeu { xa := 18, xb := 6, off := 0xffff1234 }),
    ((0x81903000, 0xFFFF1234), .farBz { xa := 18, xb := 0, off := 0xffff1234 }), ((0x81903800, 0xFFFF1234), .farBnz { xa := 18, xb := 0, off := 0xffff1234 })]

theorem test_decode_wide : ∀ p ∈ wordsWide, decodeWide p.1.1 p.1.2 = .ok p.2 := by decide +kernel

def wordsEngines : List ((Nat × Nat) × Instr) := [
    ((0x9091981D, 0x00000040), .mma { xa := 18, xb := 6, xc := 12, opt := 29, ext := 64 }),
    ((0x91919806, 0x00000021), .mmaRing { xa := 18, xb := 6, xc := 12, opt := 6, ext := 33 }),
    ((0x92918004, 0x00000000), .mxLdb { xa := 18, xb := 6, xc := 0, opt := 4, ext := 0 }),
    ((0x93000003, 0x00000000), .accZero { xa := 0, xb := 0, xc := 0, opt := 3, ext := 0 }),
    ((0x94918002, 0x00000000), .accLd { xa := 18, xb := 6, xc := 0, opt := 2, ext := 0 }),
    ((0x9591804B, 0x00000000), .accSt { xa := 18, xb := 6, xc := 0, opt := 75, ext := 0 }),
    ((0x96000009, 0x00000000), .accProm { xa := 0, xb := 0, xc := 0, opt := 9, ext := 0 }),
    ((0x98919801, 0x00401080), .attQk { xa := 18, xb := 6, xc := 12, opt := 1, ext := 0x401080 }),
    ((0x99919801, 0x00000000), .attSm { xa := 18, xb := 6, xc := 12, opt := 1, ext := 0 }),
    ((0x9A918000, 0x00000000), .attPv { xa := 18, xb := 6, xc := 0, opt := 0, ext := 0 }),
    ((0x9B918000, 0x00000000), .attFin { xa := 18, xb := 6, xc := 0, opt := 0, ext := 0 }),
    ((0xA0919803, 0x00000ABC), .spMm { xa := 18, xb := 6, xc := 12, opt := 3, ext := 0xabc }),
    ((0xA1900002, 0x00000001), .spBm { xa := 18, xb := 0, xc := 0, opt := 2, ext := 1 }),
    ((0xA2919800, 0x00001ABC), .spDrop { xa := 18, xb := 6, xc := 12, opt := 0, ext := 0x1abc }),
    ((0xA3919800, 0x00000123), .spGrow { xa := 18, xb := 6, xc := 12, opt := 0, ext := 0x123 }),
    ((0xA4900005, 0x00000000), .spCnt { xa := 18, xb := 0, xc := 0, opt := 5, ext := 0 }),
    ((0xA8919800, 0x00000003), .gath { xa := 18, xb := 6, xc := 12, opt := 0, ext := 3 }),
    ((0xA9901800, 0x00000000), .gathIx { xa := 18, xb := 0, xc := 12, opt := 0, ext := 0 }),
    ((0xAA900000, 0x00000000), .scat { xa := 18, xb := 0, xc := 0, opt := 0, ext := 0 }),
    ((0xAB919800, 0x0000003C), .embBag { xa := 18, xb := 6, xc := 12, opt := 0, ext := 60 }),
    ((0xB0919800, 0x00000001), .cp { xa := 18, xb := 6, xc := 12, opt := 0, ext := 1 }),
    ((0xB1919800, 0x00000024), .cpMc { xa := 18, xb := 6, xc := 12, opt := 0, ext := 36 }),
    ((0xB8919801, 0x00000000), .wlPush { xa := 18, xb := 6, xc := 12, opt := 1, ext := 0 }),
    ((0xB9919800, 0x00000000), .wlPopb { xa := 18, xb := 6, xc := 12, opt := 0, ext := 0 }),
    ((0xBA919801, 0x00000000), .wlInsd { xa := 18, xb := 6, xc := 12, opt := 1, ext := 0 }),
    ((0xC0919801, 0x00000000), .launch { xa := 18, xb := 6, xc := 12, opt := 1, ext := 0 }),
    ((0xC191800D, 0x00002710), .barInit { xa := 18, xb := 6, xc := 0, opt := 13, ext := 0x2710 })]

theorem test_decode_engines : ∀ p ∈ wordsEngines, decodeWide p.1.1 p.1.2 = .ok p.2 := by decide +kernel

/-! ### Small states for the tests -/

/-- A firing of tag 5 with code at 0x10000 to 0x20000. -/
def user : Ctx :=
  { occ := true, firing := 7, tag := 5, codelo := 0x10000, codehi := 0x20000, pc := 0x10100,
    x := [(1, 5), (2, 7), (3, 0xFFFFFFFFFFFFFFF9), (4, 0x100040), (5, 0x8000000000000000), (6, 0xFFFFFFFFFFFFFFFF), (7, 64), (8, 0x10207)] }

/-- A translation of the page at VA 0x100000 for tag 5: `frame` is the GPA of the page, `bits` the flags, format and geometry of its entry (R117). -/
def page (frame bits : Nat) : TlbEntry := { tag := 5, va := 0x100000, level := 0, pte := 5 * 2 ^ 120 + frame + bits }

/-- The page is in the local store of a tile: readable, writable, for atomics, kind 3. -/
def localPage (t : Nat) : TlbEntry := page (tileGpa t 0) 0xED

/-- The page is in HBM, at offset 0x10000: kind 0. -/
def hbmPage (bits : Nat := 0x2D) : TlbEntry := page (0x3FF * 2 ^ 54 + 2 ^ 52 + 0x10000) bits

/-- The context i issues, on a tile and a core as given. -/
def on (i : Nat) (c : Ctx := user) (k : Core := {}) (t : Tile := {}) : State :=
  { State.reset with cur := i, ctxs := [(i, c)], cores := [(coreOfCtx i, k)], tiles := [(tileOfCtx i, t)], nextAcc := 3, nextFiring := 20 }

/-- Context 8 is context 0 of the issue core of tile 0, a D tile; 9608, 9672 and 9736 are those of an S, an A and a V tile. -/
def onD (c : Ctx := user) (k : Core := {}) (t : Tile := {}) : State := on 8 c k t
def onS (c : Ctx := user) (k : Core := {}) (t : Tile := {}) : State := on 9608 c k t
def onA (c : Ctx := user) (k : Core := {}) (t : Tile := {}) : State := on 9672 c k t
def onV (c : Ctx := user) (k : Core := {}) (t : Tile := {}) : State := on 9736 c k t

/-- An instruction passes the checks of R276 in a state. -/
def runs (s : State) (i : Instr) : Bool := decide (slotCause i s.cx.long s.level = none)

/-- The next state of an outcome meets a test. -/
def after (o : Out) (p : State → Bool) : Bool :=
  match o with
  | .next t => p t
  | .fault _ => false
  | .refused _ => false

/-- The next state of an outcome has its issuing context frozen with a cause. -/
def froze (o : Out) (c : Cause) : Bool := after o (fun t => t.cx.st = 1 && t.cx.cause = c)

/-- The next state of an outcome has its issuing context stalled at its bundle. -/
def waits (o : Out) : Bool := after o (fun t => t.cx.stall.isSome && t.cx.st = 0)

/-- The value of an `x` register in the next state. -/
def gets (o : Out) (r : BitVec 5) (v : Word) : Bool := after o (fun t => t.x r = v && t.cx.st = 0)

theorem test_places : tileKind (tileOfCtx 8) = 0 ∧ tileKind (tileOfCtx 9608) = 1 ∧ tileKind (tileOfCtx 9672) = 2 ∧ tileKind (tileOfCtx 9736) = 3 ∧
    isIssueCore (coreOfCtx 8) = true ∧ isIssueCore (coreOfCtx 9608) = true ∧ isIssueCore (coreOfCtx 9672) = true ∧ isIssueCore (coreOfCtx 9736) = true := by
  decide +kernel

/-! ### Witnesses: `accepts` holds for an instruction of every encodable row -/

theorem witness_accepts_control : ∀ p ∈ wordsControl ++ wordsSystem ++ wordsMemory ++ wordsAtomics, runs (onD { user with level := 1 }) p.2 = true := by decide +kernel
theorem witness_accepts_scalar : ∀ p ∈ wordsScalar ++ wordsFloat, runs (onD) p.2 = true := by decide +kernel
theorem witness_accepts_vector : ∀ p ∈ wordsVectors ++ wordsVectorScalars, runs (onD) p.2 = true ∨ runs (onV { user with long := true }) p.2 = true := by decide +kernel
theorem witness_accepts_wide : ∀ p ∈ wordsWide ++ wordsEngines, runs (onD) p.2 = true := by decide +kernel

/-! ### Witnesses: encoding, reset, memory, the step -/

theorem witness_DecodeOfEncodeIsTheInstruction :
    (match encode (.addi { xd := 31, xa := 0, imm := 0x3FFF }) with
      | some w => decide (decode w = .ok (.addi { xd := 31, xa := 0, imm := 0x3FFF }))
      | none => false) = true := by decide +kernel
theorem witness_EncodeOfDecodeIsTheWords : decode (.c 0x77FFFFFF) = .ok (.trap { imm := 0xFFFFFF }) := by decide +kernel
theorem witness_SampleWordsAndUnassignedOpcodes : 0x6FFFFFFF / 2 ^ 24 % 128 ∈ [0x6F, 0x7F] ∧ 0x1F000000 / 2 ^ 24 % 256 ∈ [0x1F] ∧ 0xFF000000 / 2 ^ 24 % 128 ∈ [0x7F] := by decide
theorem witness_WritesAreReadBack : Memory.wf [] = true ∧ Memory.wf [(0, 1), (127, 0xFF)] = true ∧ Memory.wf [(5, 1), (5, 2)] = false ∧ Memory.wf [(5, 0)] = false := by decide +kernel
theorem witness_StepsKeepMemoryCanonical :
    ({ State.reset with agenda := [.advance 5] } : State).mem.wf = true ∧ after (step { State.reset with agenda := [.advance 5] }) (fun _ => true) = true := by
  decide +kernel

/-- What AStepRunsTheDecodedInstruction asks of the state before a bundle is issued; `p` is given the bundle, its context and the state after the fetch. -/
def issuesBundle (s : State) (p : Nat → Nat → State → Bool) : Bool :=
  match s.agenda with
  | .issue k :: rest =>
    let i := 8 * k + ((s.coreOf k).last + 1) % 8
    let s0 : State := { s with agenda := rest, cur := i }
    decide (k < 21600) && (s.hubOf (fieldOfTile (tileOfCore k))).locking.isNone && s0.mayIssue i && !s0.sectionLong && s0.cx.nestOk &&
      (match s0.fetch with
      | .ok d s1 => decide (bundleCause d s1.cx.long s1.level = none) && p d i s1
      | _ => false)
  | _ => false

def ranOnB (s t : State) : Bool := (t.ctxOf s.cur).st = 0 && (t.ctxOf s.cur).stall.isNone && (t.ctxOf s.cur).firing = s.cx.firing

/-- The wide bundle `li.d x5, 7`, the pair `addi x3, x0, 9` beside `br` to the next bundle, and the pair `addi` beside `done`. -/
theorem witness_AStepRunsTheDecodedInstruction :
    issuesBundle (State.reset.placeDoubleword (0x7 * 2 ^ 32 + 0x80280000)) (fun d i s1 =>
      decide (2 ^ 31 ≤ d % 2 ^ 32) && decide (decodeWide (d % 2 ^ 32) (d / 2 ^ 32) = .ok (.liD { xd := 5, immh := 0, imml := 7 })) &&
        after (exec (.liD { xd := 5, immh := 0, imml := 7 }) s1) (fun t => !(s1.afterIssue t i d).isStalled i)) = true ∧
    issuesBundle (State.reset.placeDoubleword (0x28180009 * 2 ^ 32 + 0x01000001)) (fun d i s1 =>
      decide (d % 2 ^ 32 < 2 ^ 31) && !endsFiring (d % 2 ^ 32) && !writesSeed (d % 2 ^ 32) && decide (decodeC (d % 2 ^ 32) = .ok (.br { off := 1 })) &&
        decide (decodeA (d / 2 ^ 32) = .ok (.addi { xd := 3, xa := 0, imm := 9 })) &&
        after (exec (.br { off := 1 }) s1) (fun tc => ranOnB s1 tc &&
          after (exec (.addi { xd := 3, xa := 0, imm := 9 }) (s1.beforeA tc)) (fun ta => ranOnB s1 ta && !(s1.afterIssue (s1.withA ta tc) i d).isStalled i))) = true ∧
    issuesBundle (State.reset.placeDoubleword (0x28180009 * 2 ^ 32 + 0x12000000)) (fun d i s1 =>
      endsFiring (d % 2 ^ 32) && !s1.cx.aDone && decide (decodeC (d % 2 ^ 32) = .ok .done) && decide (decodeA (d / 2 ^ 32) = .ok (.addi { xd := 3, xa := 0, imm := 9 })) &&
        after (exec (.addi { xd := 3, xa := 0, imm := 9 }) s1) (fun ta => ranOnB s1 ta &&
          after (exec .done ((s1.withA ta s1).upd (fun c => { c with aDone := true }))) (fun tc => decide ((tc.ctxOf i).st ≠ 1) && !(s1.afterIssue tc i d).isStalled i))) = true := by
  decide +kernel

/-- The pair `addi x3, x0, 9` beside `ld.d x9, [x0]`, at a page of the tile's own store: the load leaves, and the bundle holds. -/
def sendingLoad : State :=
  let s := State.reset.placeDoubleword (0x28180009 * 2 ^ 32 + 0x1E480000)
  s.updCore s.focus (fun k => { k with utlb := [{ tag := 1, va := 0, level := 0, pte := 1 * 2 ^ 120 + tileGpa 0 0 + 0xED }] })
theorem witness_AStepRunsTheDecodedInstruction_holding :
    issuesBundle sendingLoad (fun d i s1 =>
      decide (d % 2 ^ 32 < 2 ^ 31) && !endsFiring (d % 2 ^ 32) && !writesSeed (d % 2 ^ 32) && decide (decodeC (d % 2 ^ 32) = .ok (.ldD { rt := 9, base := 0, disp := 0 })) &&
        decide (decodeA (d / 2 ^ 32) = .ok (.addi { xd := 3, xa := 0, imm := 9 })) &&
        after (exec (.ldD { rt := 9, base := 0, disp := 0 }) s1) (fun tc => decide ((tc.ctxOf i).st ≠ 1) && tc.isStalled i &&
          (({ sendingLoad with agenda := [] } : State).newHold (s1.afterIssue tc i d) i) &&
          after (exec (.addi { xd := 3, xa := 0, imm := 9 }) (s1.beforeA tc)) (fun ta => ranOnB s1 ta))) = true := by
  decide +kernel

/-- The step of the pair writes `x3` and goes to the branch's target. -/
theorem test_step_runs_both_slots :
    after (step (State.reset.placeDoubleword (0x28180009 * 2 ^ 32 + 0x01000001))) (fun t => t.x 3 = 9 && t.cx.pc = 0x40008) = true := by decide +kernel

/-! ### Scalar instructions: results by hand from R297 to R302, and witnesses -/

theorem witness_RegisterZeroDiscardsWrites : (31 : BitVec 5) ≠ 0 ∧ (0 : BitVec 5) ≠ 31 ∧ (onD).cur ≠ 9 := by decide +kernel

/-- The forms write `x9` from `x3` = -7 and `x2` = 7. -/
def two : FmtAR := { xd := 9, xa := 3, xb := 2, xc := 0, rm := 0, tr := 0 }
def one (r : BitVec 5) : FmtAR := { xd := 9, xa := r, xb := 0, xc := 0, rm := 0, tr := 0 }

/-- R297, worked by hand. -/
theorem test_scalar_two_operands : ∀ p ∈ ([(.add two, 0), (.sub two, 0xFFFFFFFFFFFFFFF2), (.mul two, 0xFFFFFFFFFFFFFFCF), (.mulh two, 0xFFFFFFFFFFFFFFFF), (.mulhu two, 6),
    (.and two, 1), (.or two, 0xFFFFFFFFFFFFFFFF), (.xor two, 0xFFFFFFFFFFFFFFFE), (.andn two, 0xFFFFFFFFFFFFFFF8), (.orn two, 0xFFFFFFFFFFFFFFF9), (.shl two, 0xFFFFFFFFFFFFFC80),
    (.shr two, 0x01FFFFFFFFFFFFFF), (.sra two, 0xFFFFFFFFFFFFFFFF), (.rol two, 0xFFFFFFFFFFFFFCFF), (.min two, 0xFFFFFFFFFFFFFFF9), (.max two, 7), (.minu two, 7),
    (.maxu two, 0xFFFFFFFFFFFFFFF9), (.slt two, 1), (.sltu two, 0), (.seq two, 0), (.sel { two with xc := 1 }, 0xFFFFFFFFFFFFFFF9), (.sel two, 7)] : List (Instr × Word)),
    gets (exec p.1 onD) 9 p.2 = true := by decide +kernel
theorem test_scalar_one_operand : ∀ p ∈ ([(.clz (one 3), 0), (.clz (one 2), 61), (.clz (one 0), 64), (.ctz (one 7), 6), (.ctz (one 0), 64), (.popc (one 3), 62), (.bswap (one 4), 0x4000100000000000),
    (.sextB (one 3), 0xFFFFFFFFFFFFFFF9), (.sextH (one 8), 0x207), (.sextW (one 5), 0), (.sextW (one 6), 0xFFFFFFFFFFFFFFFF), (.zextB (one 3), 0xF9), (.zextH (one 3), 0xFFF9),
    (.zextW (one 3), 0xFFFFFFF9)] : List (Instr × Word)), gets (exec p.1 onD) 9 p.2 = true := by decide +kernel
theorem test_zero_register_discards : after (exec (.add { two with xd := 0 }) onD) (fun t => t.x 0 = 0 && t.cx.x = user.x) = true := by decide +kernel
theorem test_nops_fall_through : ∀ i ∈ ([.nopA, .nopC] : List Instr), after (exec i onD) (fun t => t.cx.pc = 0x10108 && t.cx.x = user.x) = true := by decide +kernel

/-- The example of R298, its corners, and the trapping forms. -/
def quotient (a b : BitVec 5) : FmtAR := { xd := 9, xa := a, xb := b, xc := 0, rm := 0, tr := 0 }
def withTwo : State := onD { user with x := user.x ++ [(10, 2)] }
theorem test_division : ∀ p ∈ ([(.div (quotient 3 10), 0xFFFFFFFFFFFFFFFD), (.rem (quotient 3 10), 0xFFFFFFFFFFFFFFFF), (.divu (quotient 3 10), 0x7FFFFFFFFFFFFFFC), (.remu (quotient 3 10), 1),
    (.div (quotient 3 0), 0xFFFFFFFFFFFFFFFF), (.rem (quotient 3 0), 0xFFFFFFFFFFFFFFF9), (.divu (quotient 3 0), 0xFFFFFFFFFFFFFFFF), (.remu (quotient 3 0), 0xFFFFFFFFFFFFFFF9),
    (.div (quotient 5 6), 0x8000000000000000), (.rem (quotient 5 6), 0)] : List (Instr × Word)), gets (exec p.1 withTwo) 9 p.2 = true := by decide +kernel
theorem test_division_traps : ∀ i ∈ ([.div { quotient 3 0 with tr := 1 }, .divu { quotient 3 0 with tr := 1 }, .rem { quotient 3 0 with tr := 1 }, .remu { quotient 3 0 with tr := 1 }] : List Instr),
    froze (exec i withTwo) 0x92 = true := by decide +kernel
theorem witness_DivisionFollowsItsCorners : runs withTwo (.div { quotient 3 0 with tr := 1 }) = true ∧ runs withTwo (.remu (quotient 5 6)) = true := by decide +kernel

/-- R279 and R281, worked by hand; the example of R279 for `lih`. -/
theorem test_immediates : ∀ p ∈ ([(.addi { xd := 9, xa := 2, imm := 0x3FFF }, 6), (.andi { xd := 9, xa := 3, imm := 0x3FFF }, 0x3FF9), (.ori { xd := 9, xa := 2, imm := 0x3FF8 }, 0x3FFF),
    (.xori { xd := 9, xa := 3, imm := 0x3FFF }, 0xFFFFFFFFFFFFC006), (.shli { xd := 9, xa := 1, imm := 63 }, 0x8000000000000000), (.shri { xd := 9, xa := 5, imm := 63 }, 1),
    (.srai { xd := 9, xa := 5, imm := 63 }, 0xFFFFFFFFFFFFFFFF), (.li { xd := 9, imm := 0x7FFFF }, 0xFFFFFFFFFFFFFFFF), (.liD { xd := 9, immh := 0x8000, imml := 1 }, 0xFFFF800000000001)] : List (Instr × Word)),
    gets (exec p.1 onD) 9 p.2 = true := by decide +kernel
theorem test_long_immediates : gets (exec (.lih { xd := 1, imm := 0x7FFFF }) onD) 1 0xFFFFFFFFFFFFE005 = true ∧
    gets (exec (.liDHi { xd := 3, immh := 0, imml := 0x1234 }) onD) 3 0x1234FFFFFFFFFFF9 = true ∧ froze (exec (.shli { xd := 9, xa := 1, imm := 64 }) onD) 0x0A = true := by decide +kernel

theorem witness_ScalarFormsWriteOnlyTheirDestination : ((onD).cx.st = 0) ∧ after (exec (.add two) onD) (fun t => t.cx.st ≠ 1) = true := by decide +kernel

/-- The examples of R301, under rounding-mode codes 0 (RNE), 3 (RUP) and 4 (SR). -/
def floats : State := onD { user with x := [(1, 0x3F800000), (2, 0x33800000), (3, 0x40200000), (4, 0x4F32D05E), (5, 0x7FC00001), (6, 0xBF800000), (7, 0x40A0), (8, 3)] } { seed := 1 }
theorem test_float_rounding : ∀ p ∈ ([(.faddS { xd := 9, xa := 1, xb := 2, xc := 0, rm := 0, tr := 0 }, 0x3F800000), (.faddS { xd := 9, xa := 1, xb := 2, xc := 0, rm := 3, tr := 0 }, 0x3F800001),
    (.fsubS { xd := 9, xa := 1, xb := 1, xc := 0, rm := 0, tr := 0 }, 0), (.fmulS { xd := 9, xa := 3, xb := 6, xc := 0, rm := 0, tr := 0 }, 0xC0200000),
    (.fmaS { xd := 9, xa := 3, xb := 6, xc := 3, rm := 0, tr := 0 }, 0), (.fcvtWS { xd := 9, xa := 3, xb := 0, xc := 0, rm := 0, tr := 0 }, 2),
    (.fcvtWS { xd := 9, xa := 3, xb := 0, xc := 0, rm := 3, tr := 0 }, 3), (.fcvtWS { xd := 9, xa := 4, xb := 0, xc := 0, rm := 0, tr := 0 }, 0x7FFFFFFF),
    (.fcvtSW { xd := 9, xa := 8, xb := 0, xc := 0, rm := 0, tr := 0 }, 0x40400000), (.fcvtHS { xd := 9, xa := 3, xb := 0, xc := 0, rm := 0, tr := 0 }, 0x4020),
    (.fcvtSH { xd := 9, xa := 7, xb := 0, xc := 0, rm := 0, tr := 0 }, 0x40A00000), (.faddH { xd := 9, xa := 7, xb := 7, xc := 0, rm := 0, tr := 0 }, 0x4120),
    (.fsubH { xd := 9, xa := 7, xb := 7, xc := 0, rm := 0, tr := 0 }, 0), (.fmulH { xd := 9, xa := 7, xb := 7, xc := 0, rm := 0, tr := 0 }, 0x41C8),
    (.fmaH { xd := 9, xa := 7, xb := 7, xc := 7, rm := 0, tr := 0 }, 0x41F0)] : List (Instr × Word)), gets (exec p.1 floats) 9 p.2 = true := by decide +kernel
theorem test_float_tests : ∀ p ∈ ([(.fminS { xd := 9, xa := 1, xb := 5, xc := 0, rm := 0, tr := 0 }, 0x3F800000), (.fmaxS { xd := 9, xa := 1, xb := 6, xc := 0, rm := 0, tr := 0 }, 0x3F800000),
    (.feqS { xd := 9, xa := 5, xb := 5, xc := 0, rm := 0, tr := 0 }, 0), (.fltS { xd := 9, xa := 6, xb := 1, xc := 0, rm := 0, tr := 0 }, 1), (.fleS { xd := 9, xa := 1, xb := 1, xc := 0, rm := 0, tr := 0 }, 1),
    (.fsgnjS { xd := 9, xa := 5, xb := 6, xc := 0, rm := 0, tr := 0 }, 0xFFC00001), (.fclassS (one 5), 0x200), (.fclassS (one 6), 2), (.fclassH (one 7), 0x40), (.fclassH (one 0), 0x10),
    (.fminH { xd := 9, xa := 7, xb := 0, xc := 0, rm := 0, tr := 0 }, 0), (.fmaxH { xd := 9, xa := 7, xb := 0, xc := 0, rm := 0, tr := 0 }, 0x40A0),
    (.feqH { xd := 9, xa := 7, xb := 7, xc := 0, rm := 0, tr := 0 }, 1), (.fltH { xd := 9, xa := 7, xb := 0, xc := 0, rm := 0, tr := 0 }, 0), (.fleH { xd := 9, xa := 0, xb := 7, xc := 0, rm := 0, tr := 0 }, 1),
    (.fsgnjH { xd := 9, xa := 7, xb := 4, xc := 0, rm := 0, tr := 0 }, 0xC0A0)] : List (Instr × Word)), gets (exec p.1 floats) 9 p.2 = true := by decide +kernel
theorem test_float_traps : froze (exec (.fcvtWS { xd := 9, xa := 4, xb := 0, xc := 0, rm := 0, tr := 1 }) floats) 0x94 = true ∧
    froze (exec (.faddS { xd := 9, xa := 1, xb := 2, xc := 0, rm := 4, tr := 0 }) (onD)) 0x9F = true ∧ froze (exec (.fcvtWS { xd := 9, xa := 3, xb := 0, xc := 0, rm := 4, tr := 0 }) floats) 0x96 = true := by
  decide +kernel
/-- A rounding mode that is not SR, SR with a generator of zero, SR with one that draws, and the three cases of `fcvt.w.s`. -/
theorem witness_FloatFormsRoundOnce : RoundMode.ofCode 0 7 ≠ .sr ∧ RoundMode.ofCode 0 4 = .sr ∧ RoundMode.ofCode 4 7 = .sr ∧ (onD).core.seed = 0 ∧ floats.core.seed ≠ 0 ∧
    intOverflows (fp32.decode 0x4F32D05E) 32 .rne = true ∧ intOverflows (fp32.decode 0x40200000) 32 .rne = false ∧
    runs floats (.fcvtWS { xd := 9, xa := 4, xb := 0, xc := 0, rm := 0, tr := 1 }) = true := by decide +kernel
/-- Codes at the ends of the exponent and the mantissa. -/
theorem witness_ComparisonsPicksAndClasses : (255 : Nat) < 2 ^ fp32.e ∧ 0x7FFFFF < 2 ^ fp32.m ∧ (255 : Nat) < 2 ^ bf16.e ∧ 0x7F < 2 ^ bf16.m ∧ classBit fp32 0x7FC00000 = 9 ∧ classBit bf16 0xFF80 = 0 := by decide +kernel
theorem witness_RepresentableValuesRoundToThemselves : 0xFFFFFFFF < 2 ^ (1 + fp32.e + fp32.m) ∧ (fp32.decode 0xFFFFFFFF).isNan = true ∧ (fp32.decode 0x7F800000).isNan = false ∧ (e5m2.decode 0x7B).isNan = false := by decide +kernel

/-! ### Branches, calls and loops (R304 to R306) -/

/-- Each branch with an offset of -2 bundles: taken, it goes from 0x10100 to 0x100F0; not taken, on to 0x10108. -/
theorem test_branches : ∀ p ∈ ([(.br { off := 0xFFFFFE }, true), (.beq { xa := 1, xb := 1, off := 0x3FFE }, true), (.beq { xa := 1, xb := 2, off := 0x3FFE }, false), (.bne { xa := 1, xb := 2, off := 0x3FFE }, true),
    (.bne { xa := 1, xb := 1, off := 0x3FFE }, false), (.blt { xa := 3, xb := 1, off := 0x3FFE }, true), (.blt { xa := 1, xb := 1, off := 0x3FFE }, false), (.bge { xa := 1, xb := 1, off := 0x3FFE }, true),
    (.bge { xa := 3, xb := 1, off := 0x3FFE }, false), (.bltu { xa := 1, xb := 3, off := 0x3FFE }, true), (.bltu { xa := 3, xb := 1, off := 0x3FFE }, false), (.bgeu { xa := 3, xb := 1, off := 0x3FFE }, true),
    (.bgeu { xa := 1, xb := 3, off := 0x3FFE }, false), (.bz { xa := 0, off := 0x7FFFE }, true), (.bz { xa := 1, off := 0x7FFFE }, false), (.bnz { xa := 1, off := 0x7FFFE }, true),
    (.bnz { xa := 0, off := 0x7FFFE }, false)] : List (Instr × Bool)), after (exec p.1 onD) (fun t => t.cx.pc = if p.2 then 0x100F0 else 0x10108) = true := by decide +kernel
theorem test_far_branches : ∀ p ∈ ([(.farBeq { xa := 1, xb := 1, off := 0xFFFFFFFE }, true), (.farBne { xa := 1, xb := 1, off := 0xFFFFFFFE }, false), (.farBlt { xa := 3, xb := 1, off := 0xFFFFFFFE }, true),
    (.farBge { xa := 3, xb := 1, off := 0xFFFFFFFE }, false), (.farBltu { xa := 3, xb := 1, off := 0xFFFFFFFE }, false), (.farBgeu { xa := 3, xb := 1, off := 0xFFFFFFFE }, true),
    (.farBz { xa := 0, xb := 0, off := 0xFFFFFFFE }, true), (.farBnz { xa := 0, xb := 0, off := 0xFFFFFFFE }, false)] : List (Instr × Bool)),
    after (exec p.1 onD) (fun t => t.cx.pc = if p.2 then 0x100F0 else 0x10108) = true := by decide +kernel
theorem test_calls : after (exec (.call { off := 2 }) onD) (fun t => t.cx.pc = 0x10110 && t.x 31 = 0x10108) = true ∧
    after (exec (.callr { xd := 9, xa := 4, xb := 0, opt := 0 }) onD) (fun t => t.cx.pc = 0x100040 && t.x 9 = 0x10108) = true ∧
    after (exec (.jr { xd := 0, xa := 4, xb := 0, opt := 0 }) onD) (fun t => t.cx.pc = 0x100040) = true ∧ froze (exec (.jr { xd := 0, xa := 8, xb := 0, opt := 0 }) onD) 0x06 = true ∧
    after (exec .ret (onD { user with x := [(31, 0x10008)] })) (fun t => t.cx.pc = 0x10008) = true := by decide +kernel
/-- Targets that are multiples of 8 and that are not, for each of the indirect jumps. -/
theorem witness_BranchesCallsAndJumps : ((onD).x 4).toNat % 8 = 0 ∧ ((onD).x 8).toNat % 8 = 7 ∧ ((onD).x 31).toNat % 8 = 0 ∧ runs onD (.callr { xd := 9, xa := 8, xb := 0, opt := 0 }) = true ∧ runs onD .ret = true ∧
    ¬ ((onD).x 1 = (onD).x 2) ∧ ((onD).x 3).toInt < ((onD).x 1).toInt ∧ ¬ ((onD).x 3).toNat < ((onD).x 1).toNat := by decide +kernel

/-- A loop of two bundles at 0x10108 with a count of 3, and one inside it that ends with it. -/
def inLoop (count : Nat) : Ctx := { user with lc := [(0, lcMake 1 33 count)], pc := 0x10110 }
def nested : Ctx := { user with lc := [(0, lcMake 9 33 3), (1, lcMake 2 34 2)], pc := 0x10120 }
theorem test_loops : after (exec (.loopi { count := 3, lenm1 := 1 }) onD) (fun t => t.cx.pc = 0x10108 && t.cx.lcAt 0 = lcMake 1 33 3) = true ∧
    after (exec (.loop { xa := 0, lenm1 := 1 }) onD) (fun t => t.cx.pc = 0x10118 && t.cx.lcAt 0 = 0) = true ∧
    after (exec .nopC (onD (inLoop 3))) (fun t => t.cx.pc = 0x10108 && lcCount (t.cx.lcAt 0) = 2) = true ∧ after (exec .nopC (onD (inLoop 1))) (fun t => t.cx.pc = 0x10118 && t.cx.lcAt 0 = 0) = true ∧
    after (exec .lbrk (onD nested)) (fun t => t.cx.pc = 0x10128 && t.cx.lcAt 1 = 0 && t.cx.lcAt 0 = lcMake 9 33 3) = true ∧ froze (exec .lbrk onD) 0x08 = true := by decide +kernel
/-- Each check of R306: a body past CODEHI; a fourth loop; a body that ends past the one around it; a count of zero and another. Then the ends of R197: a count above 1, a
count of 1, no loop, and branches inside and outside the bodies of a nest. -/
theorem witness_LoopsStartAndEnd :
    0x10100 + 8 * (255 + 2) ≤ 0x20000 ∧ ({ user with pc := 0x1FFF8 } : Ctx).pc.toNat + 8 * (0 + 2) > user.codehi.toNat ∧
    ({ user with lc := [(0, lcMake 9 33 3), (1, lcMake 9 33 2), (2, lcMake 9 33 2)] } : Ctx).depthOf = 3 ∧ user.depthOf = 0 ∧
    (inLoop 3).depthOf = 1 ∧ 0x10110 + 8 * (0 + 1) > (inLoop 3).bodyLast 0 ∧ nested.depthOf = 2 ∧ 0x10120 + 8 * (0 + 1) ≤ nested.bodyLast 0 ∧
    (inLoop 3).pc.toNat = (inLoop 3).bodyLast 0 ∧ 1 < lcCount ((inLoop 3).lcAt 0) ∧ lcCount ((inLoop 1).lcAt 0) ≤ 1 ∧ nested.pc.toNat = nested.bodyLast 1 ∧ nested.bodyLast 0 ≠ nested.pc.toNat ∧
    (0x10110 : Word) ≠ nested.pc + 8 ∧ nested.bodyFirst 1 ≤ 0x10110 ∧ 0x10110 ≤ nested.bodyLast 1 ∧ ¬ (nested.bodyFirst 0 ≤ 0x10000) ∧
    runs onD (.loopi { count := 65535, lenm1 := 255 }) = true ∧ runs (onD nested) .lbrk = true := by decide +kernel

/-! ### Scalar loads and stores (R312 to R319) -/

/-- A D-tile context whose page at VA 0x100000 is the tile's local store, and one whose page is HBM. -/
def memUser : Ctx := { user with x := [(1, 0x8182838485868788), (4, 0x100040), (5, 2), (6, 0x10FFF8), (7, 0x100041), (8, 0x200000), (9, 2 ^ 60 - 4), (10, 7)] }
def localState (c : Ctx := memUser) : State := on 8 c { utlb := [localPage 0] }
def hbmState (c : Ctx := memUser) : State := on 8 c { utlb := [hbmPage] }
def withReply (v : Nat) : State := localState { memUser with reply := some (.value v), hold := some 3 }
def fits (s : State) (va size align : Nat) (acc : Acc) (vector : Bool := false) : Bool :=
  match s.checkAccess s.cur va size align acc vector with
  | .ok _ _ => true
  | _ => false
def misfits (s : State) (va size align : Nat) (acc : Acc) (c : Cause) : Bool :=
  match s.checkAccess s.cur va size align acc false with
  | .bad d _ => decide (d = c)
  | _ => false

def cm (rt : BitVec 5) : FmtCM := { rt := rt, base := 4, disp := 0x3FFF }
def cxf (rt : BitVec 5) : FmtCX := { rt := rt, base := 4, idx := 5, sh := 3, t := 0 }

/-- The replies of the loads, extended by hand; the holding bundle completes with its reply (R313, R314). -/
theorem test_loads_extend : ∀ p ∈ ([(.ldB (cm 9), 0x80, 0xFFFFFFFFFFFFFF80), (.ldBu (cm 9), 0x80, 0x80), (.ldH (cm 9), 0x8000, 0xFFFFFFFFFFFF8000), (.ldHu (cm 9), 0x8000, 0x8000),
    (.ldW (cm 9), 0x80000000, 0xFFFFFFFF80000000), (.ldWu (cm 9), 0x80000000, 0x80000000), (.ldD (cm 9), 0x8000000000000001, 0x8000000000000001),
    (.ldBIndexed (cxf 9), 0xFF, 0xFFFFFFFFFFFFFFFF), (.ldBuIndexed (cxf 9), 0xFF, 0xFF), (.ldHIndexed (cxf 9), 0xFFFF, 0xFFFFFFFFFFFFFFFF), (.ldHuIndexed (cxf 9), 0xFFFF, 0xFFFF),
    (.ldWIndexed (cxf 9), 0xFFFFFFFF, 0xFFFFFFFFFFFFFFFF), (.ldWuIndexed (cxf 9), 0xFFFFFFFF, 0xFFFFFFFF), (.ldDIndexed (cxf 9), 5, 5),
    (.ldAcq { rt := 9, base := 4, sc := 2, sz := 0, disp := 1 }, 0x80000000, 0xFFFFFFFF80000000)] : List (Instr × Nat × Word)),
    after (exec p.1 (withReply p.2.1)) (fun t => t.x 9 = p.2.2 && t.cx.pc = 0x10108 && t.cx.hold = none) = true := by decide +kernel
/-- The addresses of the loads: a displacement of -1 unit of the access size, and an index of 2 shifted by 3 (R278). -/
theorem test_load_addresses : ∀ p ∈ ([(.ldB (cm 9), 0x10003F, 1), (.ldBu (cm 9), 0x10003F, 1), (.ldH (cm 9), 0x10003E, 2), (.ldHu (cm 9), 0x10003E, 2), (.ldW (cm 9), 0x10003C, 4), (.ldWu (cm 9), 0x10003C, 4),
    (.ldD (cm 9), 0x100038, 8), (.ldBIndexed (cxf 9), 0x100050, 1), (.ldBuIndexed (cxf 9), 0x100050, 1), (.ldHIndexed (cxf 9), 0x100050, 2), (.ldHuIndexed (cxf 9), 0x100050, 2), (.ldWIndexed (cxf 9), 0x100050, 4),
    (.ldWuIndexed (cxf 9), 0x100050, 4), (.ldDIndexed (cxf 9), 0x100050, 8), (.ldAcq { rt := 9, base := 4, sc := 2, sz := 1, disp := 1 }, 0x100048, 8)] : List (Instr × Nat × Nat)),
    after (exec p.1 localState) (fun t => t.cx.hold = some 3 && t.net.map (fun a => (a.va, a.gpa, a.size)) = [(p.2.1, tileGpa 0 (p.2.1 - 0x100000), p.2.2)]) = true := by decide +kernel
/-- R420: a load of a counter of its own core returns the count at its issue. -/
theorem test_count_at_issue : ((on 8 user { counters := [(1, { value := 77 })] }).withCount { gpa := tileGpa 0 0xC01118, size := 8 }).snap = some 77 := by decide +kernel
/-- A reply, a failed reply, a wait, an access at the end of its page, and one that is not aligned. -/
theorem witness_LoadsHoldForTheirReplyAndWriteIt :
    (withReply 0xFF).cx.reply = some (.value 0xFF) ∧ (localState { memUser with reply := some (.failed .linePoison 3) }).cx.reply = some (.failed .linePoison 3) ∧
    (localState { memUser with hold := some 3 }).cx.hold.isSome = true ∧ (localState).cx.reply = none ∧ (localState).cx.hold = none ∧
    fits localState 0x10FFF8 8 8 .read = true ∧ misfits localState 0x100041 8 8 .read .misaligned = true ∧ misfits localState (2 ^ 60 - 4) 8 8 .read .vaWrap = true ∧
    runs localState (.ldD { rt := 9, base := 6, disp := 0 }) = true := by decide +kernel

/-- The data and addresses of the stores. -/
theorem test_stores : ∀ p ∈ ([(.stB (cm 1), 0x10003F, 1, 0x88), (.stH (cm 1), 0x10003E, 2, 0x8788), (.stW (cm 1), 0x10003C, 4, 0x85868788), (.stD (cm 1), 0x100038, 8, 0x8182838485868788),
    (.stBIndexed (cxf 1), 0x100050, 1, 0x88), (.stHIndexed (cxf 1), 0x100050, 2, 0x8788), (.stWIndexed (cxf 1), 0x100050, 4, 0x85868788), (.stDIndexed (cxf 1), 0x100050, 8, 0x8182838485868788),
    (.stRel { rt := 1, base := 4, sc := 2, sz := 1, disp := 0 }, 0x100040, 8, 0x8182838485868788)] : List (Instr × Nat × Nat × Nat)),
    after (exec p.1 localState) (fun t => t.net.map (fun a => (a.va, a.size, a.data)) = [p.2] && t.cx.pc = 0x10108 && t.mem = []) = true := by decide +kernel
/-- A store that is checked and leaves, one homed outside the tile counted in UNACK, one that finds UNACK full, and one that is not aligned. -/
theorem witness_StoresLeaveAndRetire :
    fits localState 0x10FFF8 8 8 .write = true ∧ isDbgAttach (tileGpa 0 0xFFF8) = false ∧ localState.unackFull (tileGpa 0 0xFFF8) = false ∧
    after (exec (.stD (cm 1)) hbmState) (fun t => t.cx.unFld + t.cx.unWaf = 1) = true ∧ misfits localState 0x100041 8 8 .write .misaligned = true ∧
    waits (exec (.stD (cm 1)) (hbmState { memUser with unFld := 65535, unWaf := 65535 })) = true ∧ runs localState (.stD (cm 1)) = true := by decide +kernel

/-- Stores of the firing are pending in the tile, or outside it. -/
def storing : State := { localState with net := [{ id := 2, kind := .store, ctx := 8, firing := 7, gpa := tileGpa 0 0, size := 8 }] }
def remoteStoring : State := localState { memUser with unFld := 1, perm := 3 }
theorem test_fences : waits (exec (.fence { xd := 9, sc := 2 }) storing) = true ∧ after (exec (.fence { xd := 9, sc := 2 }) remoteStoring) (fun t => t.x 9 = 3 * 2 ^ 48 && t.cx.perm = 0) = true ∧
    waits (exec (.fence { xd := 9, sc := 3 }) remoteStoring) = true ∧ gets (exec (.wait { xd := 9, xa := 5, xb := 0, opt := 0 }) remoteStoring) 9 1 = true ∧
    waits (exec (.wait { xd := 9, xa := 0, xb := 0, opt := 0 }) remoteStoring) = true ∧ after (exec (.pf { rt := 0, base := 8, disp := 0 }) localState) (fun t => t.cx.pc = 0x10108) = true := by decide +kernel
theorem witness_ReleasesFencesAndWaits :
    fits localState 0x100040 8 8 .write = true ∧ localState.storesDone 2 = true ∧ storing.storesDone 2 = false ∧ remoteStoring.storesDone 2 = true ∧ remoteStoring.storesDone 3 = false ∧
    runs localState (.stRel { rt := 1, base := 4, sc := 5, sz := 1, disp := 0 }) = true ∧ runs localState (.wait { xd := 9, xa := 5, xb := 0, opt := 2 }) = true ∧
    remoteStoring.cx.unFld ≤ (remoteStoring.x 5).toNat ∧ (remoteStoring.x 0).toNat < remoteStoring.cx.unFld := by decide +kernel

/-- One access of each kind, sent by the context to its own tile's local store at offset 0x40. -/
def inFlight (kind : AccKind) (size data : Nat) : State :=
  { localState with
    arg := { value := 2 }, mem := [(gpaKey (tileGpa 0 0x40), 5)],
    net := [{ id := 2, kind := kind, ctx := 8, firing := 7, va := 0x100040, gpa := tileGpa 0 0x40, size := size, data := data, data2 := 9, tag := 5 }] }
/-- The access that the event names can be performed, its way is as `free` says, and it lies in plain memory. -/
def performs (s : State) (free : Bool) : Bool :=
  match s.accOf s.arg.value with
  | none => false
  | some a => s.performable a && decide ((a.runs.findSome? (fun p => s.wayCause (tileOfCtx a.ctx) p.1)).isNone = free) &&
      a.runs.all (fun p => s.gpaLocal p.1 && !s.runPoisoned p && decide (gpaSpace p.1 = 0) && decide (regionOf (gpaWindow p.1) = .localStore))
/-- The same access after its tile went dark. -/
def darkTile (s : State) : State := s.updHub 0 (fun h => { h with atlas := h.atlas.put (nodeOfTile 0) { kind := 1, status := 2 } })
theorem test_accesses_take_effect :
    after (exec .accessPerformed (inFlight .load 8 0)) (fun t => t.net.map (fun a => a.result) = [some (.value 5)] && t.mem = [(gpaKey (tileGpa 0 0x40), 5)]) = true ∧
    after (exec .accessPerformed (inFlight .store 2 0x0607)) (fun t => t.mem = [(gpaKey (tileGpa 0 0x40), 7), (gpaKey (tileGpa 0 0x41), 6)]) = true ∧
    (∀ p ∈ ([(.add, 8), (.and, 1), (.or, 7), (.xor, 6), (.min, 3), (.max, 5), (.minu, 3), (.maxu, 5), (.swap, 3), (.cas, 5)] : List (AmoOp × BitVec 8)),
      after (exec .accessPerformed (inFlight (.atomic p.1) 4 3)) (fun t => t.mem.read (gpaKey (tileGpa 0 0x40)) = p.2 && t.net.map (fun a => a.result) = [some (.value 5)]) = true) := by
  decide +kernel
theorem witness_AccessesTakeEffectAtTheirHome :
    performs (inFlight .load 8 0) true = true ∧ performs (inFlight .store 8 (2 ^ 64 - 1)) true = true ∧ performs (inFlight (.release 2) 4 3) true = true ∧
    performs (inFlight (.atomic .cas) 8 5) true = true ∧ performs (inFlight (.reduce .faddH) 2 0x3C00) true = true ∧ performs (darkTile (inFlight .store 8 1)) false = true := by
  decide +kernel

/-! ### Vectors (R347 to R364) -/

/-- 32-bit lanes as a register of 256 bits. -/
def vec32 (l : List Nat) : Vec := BitVec.ofNat 256 (packLanes 32 l)
def vecUser : Ctx :=
  { memUser with
    x := [(1, 0x8182838485868788), (2, 3), (4, 0x100040), (5, 2)], k := [(1, 2)], rm := 0,
    v := [(1, vec32 [0x7FFFFFFF, 0xFFFFFFFF, 5]), (2, vec32 [1, 1, 3]), (3, vec32 [0x40800000, 0x3F800000, 0x3E800000]), (9, vec32 [1, 1, 1])] }
def vecState : State := localState vecUser
/-- Long mode on a V tile that may issue. -/
def longState : State := on 9736 { vecUser with long := true } {} { h := 2 }
def readyFor (s : State) (regs : List Nat) : Bool :=
  (!s.cx.long || (!s.claimedByOther 15 && decide (s.tile.h ≠ 0) && decide (s.tile.nextok ≤ s.cyc))) && regs.all (fun r => (s.streamOf r).isNone)

/-- The first three lanes of `v9` after an instruction. -/
def lanes9 (o : Out) (l : List Nat) : Bool := after o (fun t => ((List.range 3).map (laneAt 32 (t.ownVec 9))) = l && t.cx.st = 0)
def av (vb : BitVec 4) (mod : BitVec 3) : FmtAV := { vd := 9, va := 1, vb := vb, me := 0, km := 0, t := 3, mod := mod, sub := 0 }
def avx (xb : BitVec 5) (mod : BitVec 3) : FmtAVX := { vd := 9, va := 1, xb := xb, me := 0, km := 0, t := 3, mod := mod, sub := 0 }

/-- INT32 lanes 0x7FFFFFFF, -1 and 5 with 1, 1 and 3 by hand from R353 to R357 and R364. -/
theorem test_vector_integer_lanes : ∀ p ∈ ([(.vadd (av 2 0), [0x80000000, 0, 8]), (.vadd (av 2 1), [0x7FFFFFFF, 0, 8]), (.vsub (av 2 0), [0x7FFFFFFE, 0xFFFFFFFE, 2]), (.vmul (av 2 0), [0x7FFFFFFF, 0xFFFFFFFF, 15]),
    (.vfma (av 2 0), [0x80000000, 0, 16]), (.vmin (av 2 0), [1, 0xFFFFFFFF, 3]), (.vmin (av 2 2), [1, 1, 3]), (.vmax (av 2 0), [0x7FFFFFFF, 1, 5]), (.vand (av 2 0), [1, 1, 1]),
    (.vor (av 2 0), [0x7FFFFFFF, 0xFFFFFFFF, 7]), (.vxor (av 2 0), [0x7FFFFFFE, 0xFFFFFFFE, 6]), (.vperm (av 2 0), [0xFFFFFFFF, 0xFFFFFFFF, 0]), (.vdot4 (av 2 0), [0, 0, 16]),
    (.vabs (av 0 0), [0x7FFFFFFF, 1, 5]), (.vneg (av 0 0), [0x80000001, 1, 0xFFFFFFFB]), (.vmov (av 0 0), [0x7FFFFFFF, 0xFFFFFFFF, 5]),
    (.vsel { av 2 0 with me := 1, km := 1 }, [1, 0xFFFFFFFF, 3]), (.vadd { av 2 0 with me := 1, km := 1 }, [1, 0, 1])] : List (Instr × List Nat)),
    lanes9 (exec p.1 vecState) p.2 = true := by decide +kernel
/-- INT8 lanes: bytes 0xFF, 0xFF, 0xFF and 0x7F shifted by 1, 0, 0 and 0; their bit counts. -/
theorem test_vector_byte_lanes : ∀ p ∈ ([(.vshl { av 2 0 with t := 2 }, 0x7FFFFFFE), (.vshr { av 2 0 with t := 2 }, 0x7FFFFF7F), (.vsra { av 2 0 with t := 2 }, 0x7FFFFFFF), (.vpopc { av 0 0 with t := 2 }, 0x07080808),
    (.vshlScalar { avx 2 0 with t := 2 }, 0xF8F8F8F8), (.vshrScalar { avx 2 0 with t := 2 }, 0x0F1F1F1F), (.vsraScalar { avx 2 0 with t := 2 }, 0x0FFFFFFF)] : List (Instr × Nat)),
    after (exec p.1 vecState) (fun t => laneAt 32 (t.ownVec 9) 0 = p.2) = true := by decide +kernel
theorem test_vector_scalar_operand : ∀ p ∈ ([(.vaddScalar (avx 2 0), [0x80000002, 2, 8]), (.vsubScalar (avx 2 0), [0x7FFFFFFC, 0xFFFFFFFC, 2]), (.vmulScalar (avx 2 0), [0x7FFFFFFD, 0xFFFFFFFD, 15]),
    (.vfmaScalar (avx 2 0), [0x7FFFFFFE, 0xFFFFFFFE, 16]), (.vminScalar (avx 2 0), [3, 0xFFFFFFFF, 3]), (.vmaxScalar (avx 2 0), [0x7FFFFFFF, 3, 5]), (.vandScalar (avx 2 0), [3, 3, 1]),
    (.vorScalar (avx 2 0), [0x7FFFFFFF, 0xFFFFFFFF, 7]), (.vxorScalar (avx 2 0), [0x7FFFFFFC, 0xFFFFFFFC, 6]), (.vdot4Scalar (avx 2 0), [0xFFFFFFFE, 0xFFFFFFFE, 16]),
    (.vselScalar { avx 2 0 with me := 1, km := 1 }, [3, 0xFFFFFFFF, 3]), (.vbcast { avx 1 0 with va := 0 }, [0x85868788, 0x85868788, 0x85868788]),
    (.vins { vd := 9, va := 1, xb := 1, imm := 2, t := 3 }, [0x7FFFFFFF, 0xFFFFFFFF, 0x85868788])] : List (Instr × List Nat)), lanes9 (exec p.1 vecState) p.2 = true := by decide +kernel
theorem test_vector_compares : after (exec (.vcmp { av 2 2 with vd := 5 }) vecState) (fun t => t.cx.k.get 0 5 = 2) = true ∧
    after (exec (.vcmpScalar { avx 2 4 with vd := 5 }) vecState) (fun t => t.cx.k.get 0 5 = 5) = true ∧
    gets (exec (.vext { xd := 9, va := 1, me := 0, km := 0, t := 3, mod := 0, imm := 1 }) vecState) 9 0xFFFFFFFFFFFFFFFF = true := by decide +kernel
/-- FP32 lanes 4.0, 1.0 and 0.25. -/
theorem test_vector_functions : ∀ p ∈ ([(.vlog2 { av 0 0 with va := 3, t := 0 }, [0x40000000, 0, 0xC0000000]), (.vrcp { av 0 0 with va := 3, t := 0 }, [0x3E800000, 0x3F800000, 0x40800000]),
    (.vrsqrt { av 0 0 with va := 3, t := 0 }, [0x3F000000, 0x3F800000, 0x40000000]), (.vsqrt { av 0 0 with va := 3, t := 0 }, [0x40000000, 0x3F800000, 0x3F000000]),
    (.vcvt { av 0 0 with sub := 0 }, [0x4F000000, 0xBF800000, 0x40A00000])] : List (Instr × List Nat)), lanes9 (exec p.1 vecState) p.2 = true := by decide +kernel
theorem test_vector_exp2_tanh : after (exec (.vexp2 { av 0 0 with va := 3, t := 0, me := 1, km := 1 }) vecState) (fun t => laneAt 32 (t.ownVec 9) 1 = 0x40000000) = true ∧
    after (exec (.vtanh { av 0 0 with va := 3, t := 0, me := 1, km := 1 }) vecState) (fun t => laneAt 32 (t.ownVec 9) 1 = 0x3F42F7D6) = true := by decide +kernel
theorem test_reductions : gets (exec (.vred { xd := 9, va := 1, me := 0, km := 0, t := 3, mod := 0, imm := 0 }) vecState) 9 0x80000003 = true ∧
    gets (exec (.vred { xd := 9, va := 1, me := 0, km := 0, t := 3, mod := 0, imm := 1 }) vecState) 9 0xFFFFFFFFFFFFFFFF = true ∧
    lanes9 (exec (.vscan (av 0 0)) vecState) [0x7FFFFFFF, 0x7FFFFFFE, 0x80000003] = true := by decide +kernel

/-- Ready in short and in long mode; SR with and without a generator; a lane that saturates under TR, and lanes that all have values; a paired form. -/
theorem witness_VectorArithmeticByLanes :
    readyFor vecState [1, 2, 9] = true ∧ readyFor longState [2, 4, 14, 15] = true ∧ runs vecState (.vadd (av 2 5)) = true ∧ froze (exec (.vadd (av 2 5)) vecState) 0x9B = true ∧
    satValue 32 5 (0x7FFFFFFF + 1) = none ∧ satValue 32 5 0x7FFFFFFF = some 0x7FFFFFFF ∧ runs longState (.vfma { vd := 14, va := 2, vb := 4, me := 0, km := 0, t := 3, mod := 0, sub := 1 }) = true ∧
    froze (exec (.vadd { av 2 4 with t := 0 }) vecState) 0x9F = true ∧ vecState.core.seed = 0 ∧ after (exec (.vadd { av 2 4 with t := 0 }) (vecState.setSeed 1)) (fun t => t.cx.st = 0) = true ∧
    onCount (laneEnabled 0 0 0 vecState) 8 = 8 := by decide +kernel
theorem witness_VectorLaneFunctions : readyFor vecState [1, 2, 9] = true ∧ satValue 32 5 (2 ^ 31) = none ∧ runs vecState (.vneg { av 0 5 with t := 3 }) = true ∧ runs vecState (.vdot4Scalar (avx 2 7)) = true ∧
    runs longState (.vperm (av 2 0)) = true ∧ runs vecState (.vins { vd := 9, va := 1, xb := 1, imm := 31, t := 2 }) = true := by decide +kernel
theorem witness_VectorComparesAndExtracts : readyFor vecState [1, 2] = true ∧ runs vecState (.vcmp { av 2 7 with vd := 7 }) = true ∧ runs longState (.vcmpScalar { avx 2 2 with vd := 0 }) = true ∧
    runs vecState (.vext { xd := 9, va := 15, me := 0, km := 0, t := 2, mod := 0, imm := 31 }) = true := by decide +kernel
/-- A conversion that rounds under SR, one that saturates with TR, a longer destination and a longer source; a function under SR and one in its domain case. -/
theorem witness_VectorConversionsAndFunctions : runs vecState (.vcvt { av 0 4 with t := 0, sub := 1 }) = true ∧ runs vecState (.vcvt { av 3 0 with t := 2, sub := 0 }) = true ∧
    convertValue 0 2 true .rne 0x7F800000 0 = none ∧ runs vecState (.vcvt { av 3 0 with t := 0, sub := 6 }) = true ∧ froze (exec (.vexp2 { av 0 4 with va := 3, t := 0 }) vecState) 0x96 = true ∧
    froze (exec (.vsqrt { av 0 0 with va := 1, t := 0, sub := 1 }) (localState { vecUser with v := [(1, vec32 [0xBF800000])] })) 0x9A = true ∧ runs longState (.vtanh { av 0 0 with t := 1 }) = true := by decide +kernel
theorem witness_ReductionsAndScans : runs vecState (.vred { xd := 9, va := 1, me := 0, km := 0, t := 0, mod := 4, imm := 0 }) = true ∧ RoundMode.ofCode 0 4 = .sr ∧
    runs vecState (.vred { xd := 9, va := 1, me := 1, km := 1, t := 3, mod := 0, imm := 7 }) = true ∧ laneEnabled 1 1 3 vecState 1 = true ∧ laneEnabled 1 1 3 vecState 0 = false ∧
    runs vecState (.vscan { av 0 0 with sub := 4 }) = true ∧ onCount (laneEnabled 1 1 3 vecState) 1 = 0 ∧ readyFor vecState [1, 9] = true := by decide +kernel

/-! ### Vector memory, typed elements, atomics, lines, streams -/

/-- The tile's local store read through a page of a format and geometry (R117). -/
def formatState (fmt geo : Nat) (c : Ctx := vecUser) : State := on 8 c { utlb := [page (tileGpa 0 0) (0xED + fmt * 2 ^ 115 + geo * 2 ^ 112)], seed := 1 }
def planned (s : State) (va n : Nat) (t : BitVec 2) (store : Bool) : Bool :=
  match s.typedPlan s.cur va n t 32 store with
  | .ok p => !p.pieces.isEmpty
  | .error _ => false

theorem test_vector_load_and_store :
    after (exec (.ldV { rt := 9, base := 4, disp := 0x3FFE }) vecState) (fun t => t.cx.hold = some 3 && t.net.map (fun a => (a.va, a.size)) = [(0x100000, 32)]) = true ∧
    after (exec (.ldVIndexed { rt := 9, base := 4, idx := 0, sh := 0, t := 0 }) (localState { vecUser with reply := some (.value 77), hold := some 3 })) (fun t => t.ownVec 9 = 77 && t.cx.pc = 0x10108) = true ∧
    after (exec (.stV { rt := 1, base := 4, disp := 0 }) vecState) (fun t => t.net.map (fun a => (a.va, a.data)) = [(0x100040, packLanes 32 [0x7FFFFFFF, 0xFFFFFFFF, 5])]) = true ∧
    after (exec (.stVIndexed { rt := 1, base := 4, idx := 0, sh := 0, t := 0 }) vecState) (fun t => t.net.length = 1 && t.cx.pc = 0x10108) = true := by decide +kernel
theorem witness_VectorLoadsAndStoresMoveBytes :
    vecState.streamOf 15 = none ∧ vecState.cx.reply = none ∧ misfits vecState 0x100041 32 32 .read .misaligned = true ∧ fits vecState 0x10FFE0 32 32 .read true = true ∧ fits vecState 0x10FFE0 32 32 .write true = true ∧
    ((vecState.piecesOf 0x10FFE0 32 (tileGpa 0 0xFFE0) .write).all (fun p => !vecState.unackFull p.1)) = true ∧ runs vecState (.ldV { rt := 15, base := 4, disp := 0 }) = true ∧
    runs vecState (.stVIndexed { rt := 15, base := 4, idx := 5, sh := 3, t := 0 }) = true := by decide +kernel

/-- Eight BF16 elements 1.0 of a page of format 6, and raw bytes of format 0. -/
def replyThen (i : Instr) (v : Nat) (s : State) : Out :=
  match exec i s with
  | .next t => exec i (t.upd (fun c => { c with reply := some (.value v) }))
  | o => o
theorem test_typed : after (replyThen (.ldVt { rt := 9, base := 4, disp := 0 }) (packLanes 16 (List.replicate 8 0x3F80)) (formatState 6 0))
      (fun t => (List.range 3).map (laneAt 32 (t.ownVec 9)) = [0x3F800000, 0x3F800000, 0x3F800000]) = true ∧
    after (replyThen (.ldVtIndexed { rt := 9, base := 4, idx := 0, sh := 0, t := 0 }) 5 (formatState 0 0)) (fun t => t.ownVec 9 = 5) = true ∧
    after (exec (.stVt { rt := 3, base := 4, disp := 0 }) (formatState 6 0)) (fun t => t.net.map (fun a => (a.size, a.data)) = [(16, packLanes 16 [0x4080, 0x3F80, 0x3E80])]) = true ∧
    after (exec (.stVtIndexed { rt := 3, base := 4, idx := 0, sh := 0, t := 3 }) (formatState 0 0)) (fun t => t.net.map (fun a => a.size) = [32]) = true := by decide +kernel
/-- Plans of raw bytes, of one format without scales, of an integer format, and of blocks of 32 with scales, for loads and stores; a store that would draw with a generator of zero. -/
theorem witness_TypedAccessesConvertElements :
    planned (formatState 0 0) 0x100040 8 0 false = true ∧ planned (formatState 6 0) 0x100040 8 0 false = true ∧ planned (formatState 1 0) 0x100040 32 2 false = true ∧ planned (formatState 8 1) 0x100001 8 0 false = true ∧
    planned (formatState 6 0) 0x100040 8 0 true = true ∧ runs vecState (.ldVt { rt := 9, base := 4, disp := 0x2000 }) = true ∧ (formatState 6 0).streamOf 9 = none ∧
    froze (exec (.stVt { rt := 3, base := 4, disp := 0 }) ((formatState 6 0 { vecUser with rm := 4 }).setSeed 0)) 0x9F = true ∧
    after (exec (.stVt { rt := 3, base := 4, disp := 0 }) (formatState 6 0 { vecUser with rm := 4 })) (fun t => t.net.length = 1) = true := by decide +kernel

def ca (c : BitVec 5) : FmtCA := { xd := 9, base := 4, xb := 5, xc := c, sz := 0 }
theorem test_atomics_extend : ∀ p ∈ ([(.amoAdd (ca 0), 0xFFFFFFFF80000000), (.amoAnd (ca 0), 0xFFFFFFFF80000000), (.amoOr (ca 0), 0xFFFFFFFF80000000), (.amoXor (ca 0), 0xFFFFFFFF80000000),
    (.amoMin (ca 0), 0xFFFFFFFF80000000), (.amoMax (ca 0), 0xFFFFFFFF80000000), (.amoMinu (ca 0), 0x80000000), (.amoMaxu (ca 0), 0x80000000), (.amoSwap (ca 0), 0xFFFFFFFF80000000),
    (.amoCas (ca 2), 0xFFFFFFFF80000000), (.amoFaddS (ca 0), 0x80000000)] : List (Instr × Word)),
    gets (exec p.1 (localState { vecUser with reply := some (.value 0x80000000), hold := some 3 })) 9 p.2 = true := by decide +kernel
theorem test_atomics_send : (∀ p ∈ ([(.amoAdd (ca 0), .atomic .add, 2, 0), (.amoCas (ca 2), .atomic .cas, 2, 3), (.amoFaddS (ca 0), .atomic .faddS, 2, 0)] : List (Instr × AccKind × Nat × Nat)),
      after (exec p.1 vecState) (fun t => t.cx.hold = some 3 && t.net.map (fun a => (a.kind, a.data, a.data2)) = [p.2]) = true) ∧
    (∀ p ∈ ([(.redAdd { ca 0 with xd := 0, sz := 1 }, .reduce .add, 8), (.redFaddS { ca 0 with xd := 0 }, .reduce .faddS, 4), (.redFaddH { ca 0 with xd := 0 }, .reduce .faddH, 2)] : List (Instr × AccKind × Nat)),
      after (exec p.1 vecState) (fun t => t.cx.pc = 0x10108 && t.net.map (fun a => (a.kind, a.size)) = [p.2]) = true) := by decide +kernel
theorem witness_AtomicsAndReductionsIssue : fits vecState 0x10FFF8 8 8 .atomic = true ∧ misfits vecState 0x100044 8 8 .atomic .misaligned = true ∧ vecState.unackFull (tileGpa 0 0x40) = false ∧
    waits (exec (.redAdd { ca 0 with xd := 0 }) (on 8 { vecUser with unFld := 65535, unWaf := 65535 } { utlb := [hbmPage] })) = true ∧ runs vecState (.amoCas (ca 31)) = true ∧ runs vecState (.redFaddH { ca 0 with xd := 0 }) = true := by
  decide +kernel

/-- The line of x4 in HBM: dirty and cached at its home, and kept by the fetch buffer. -/
def lineState (c : Ctx := vecUser) : State :=
  let l := lineOf (2 ^ 52 + 0x10040)
  { on 8 c { utlb := [hbmPage 0x3D], ibuf := [(l, [])] } with dirty := [l], cached := [(l, 5)] }
def crAt (opt : BitVec 9) : FmtCR := { xd := 0, xa := 4, xb := 0, opt := opt }
theorem test_lines : after (exec (.cln (crAt 0)) lineState) (fun t => t.dirty = [] && t.cached = lineState.cached) = true ∧ after (exec (.inv (crAt 1)) lineState) (fun t => t.core.ibuf = [] && t.dirty = []) = true ∧
    after (exec (.lutLd (crAt 0)) (localState { vecUser with reply := some (.value (5 + 6 * 2 ^ 64)), hold := some 3 })) (fun t => t.core.lutlo = 5 && t.core.luthi = 6) = true := by decide +kernel
def linesUp (s : State) (va : Nat) : Bool :=
  match s.translateLine va with
  | .ok _ _ => true
  | _ => false
theorem witness_LineMaintenanceAndTables : linesUp lineState 0x100040 = true ∧ linesUp lineState 0x200000 = false ∧ froze (exec (.cln { crAt 0 with xa := 1 }) lineState) 0x10 = true ∧
    (lineState.ctxs.any (fun x => coreOfCtx x.1 = coreOfCtx lineState.cur && x.2.occ && x.2.lineInBody 0x100040)) = false ∧ runs lineState (.inv (crAt 1)) = true ∧ runs lineState (.lutLd (crAt 0)) = true ∧
    fits vecState 0x10FFF0 16 16 .read true = true := by decide +kernel

/-- Stream 2 of the core, bound to `v14` by the firing: input or output, with steps left and entries. -/
def streamDesc (output : Nat) (n : Nat) : List Word := [0x100040, BitVec.ofNat 64 output, BitVec.ofNat 64 (n - 1), 32, 0, 0, 0, 0]
def streamed (output n taken : Nat) (fifo : List Vec) : State :=
  on 8 vecUser { utlb := [localPage 0], streams := [(2, { bound := true, ctx := 8, firing := 7, desc := streamDesc output n, fifo := fifo, taken := taken, fetched := taken })] }
def mov (d a : BitVec 4) : Instr := .vmov { vd := d, va := a, vb := 0, me := 0, km := 0, t := 3, mod := 0, sub := 0 }
theorem test_streams : after (exec (mov 9 14) (streamed 0 4 0 [6, 7])) (fun t => t.ownVec 9 = 6 && (t.core.streamAt 2).fifo = [7] && (t.core.streamAt 2).taken = 1) = true ∧
    waits (exec (mov 9 14) (streamed 0 4 0 [])) = true ∧ froze (exec (mov 9 14) (streamed 0 4 4 [])) 0x29 = true ∧
    after (exec (mov 14 2) (streamed 1 4 0 [])) (fun t => (t.core.streamAt 2).fifo = [vec32 [1, 1, 3]]) = true ∧ waits (exec (mov 14 2) (streamed 1 9 0 (List.replicate 8 1))) = true ∧
    froze (exec (mov 9 14) (streamed 1 4 0 [])) 0x2B = true := by decide +kernel
theorem witness_StreamsFeedVectorOperands :
    (((streamed 0 4 0 [6]).streamOf 14).map (fun p => (p.1, p.2.output, decide (p.2.taken < p.2.total)))) = some (2, false, true) ∧ (streamed 0 4 0 [6]).streamOf 9 = none ∧
    (((streamed 0 4 4 []).streamOf 14).map (fun p => decide (p.2.total ≤ p.2.taken))) = some true ∧ (((streamed 1 9 0 (List.replicate 8 1)).streamOf 14).map (fun p => (p.2.output, decide (p.2.taken < p.2.total), p.2.fifo.length))) = some (true, true, 8) ∧
    fits (streamed 1 4 0 []) 0x100040 32 1 .write true = true ∧ runs (streamed 1 4 0 []) (mov 14 2) = true ∧ vecUser.long = false := by decide +kernel

/-! ### Special registers, modes, capabilities, traps, the end of firings -/

def sprUser : Ctx :=
  { memUser with
    wid := 11, widf := 12, grid := [(0, 20), (5, 25)], senderLo := 31, senderHi := 32, port := 33, lbase := 34, lc := [(0, 41), (1, 42), (2, 43)], rm := 3, perm := 1, dead := 2, pois := 3, scope := 4,
    unDom := 5, unWaf := 6, unFld := 7 }
def sprState : State := on 8 sprUser { lutlo := 51, luthi := 52, seed := 53 } { h := 9, sems := [(0, 1), (7, 2)], eng := { promo := 61 } }
def mfsGives (n : BitVec 6) (v : Word) : Bool := gets (exec (.mfs { x := 9, spr := n }) sprState) 9 v
def mfsFaults (n : BitVec 6) (c : Cause) : Bool := froze (exec (.mfs { x := 9, spr := n }) sprState) c
def mtsFaults (n : BitVec 6) (c : Cause) : Bool := froze (exec (.mts { x := 9, spr := n }) sprState) c
/-- The values of special registers by hand from R185, for the state above. -/
theorem test_move_from_special_low : mfsGives 0 11 = true ∧ mfsGives 1 12 = true ∧ mfsGives 2 20 = true ∧ mfsGives 7 25 = true ∧ mfsGives 9 31 = true ∧ mfsGives 10 32 = true ∧ mfsGives 11 33 = true ∧ mfsGives 0x1A 0 = true ∧ mfsGives 0x20 0x0000000500060007 = true ∧ mfsGives 0x21 0x0001000200030004 = true ∧ mfsGives 0x29 61 = true := by decide +kernel
theorem test_move_from_special_high : mfsGives 0x2A 51 = true ∧ mfsGives 0x2B 52 = true ∧ mfsGives 0x2C 6 = true ∧ mfsGives 0x2D 53 = true ∧ mfsGives 0x30 0x10000 = true ∧ mfsGives 0x31 0x20000 = true ∧ mfsGives 0x32 34 = true ∧ mfsGives 0x33 41 = true ∧ mfsGives 0x35 43 = true ∧ mfsGives 0x38 0x0200000000000001 = true := by decide +kernel
theorem test_move_to_special :
    after (exec (.mts { x := 10, spr := 0x2D }) sprState) (fun t => t.core.seed = 7) = true ∧ after (exec (.mts { x := 5, spr := 0x2C }) sprState) (fun t => t.cx.rm = 1) = true := by decide +kernel
/-- Both moves are accepted for every number of a register; a boundary value of each of the ranges, and the states of the clauses. -/
theorem witness_SpecialRegistersMove :
    (∀ n ∈ ([0, 7, 0x0C, 0x0D, 0x0F, 0x10, 0x12, 0x13, 0x17, 0x1A, 0x1B, 0x1F, 0x20, 0x21, 0x22, 0x27, 0x28, 0x29, 0x2E, 0x2F, 0x33, 0x35, 0x36, 0x37, 0x38, 0x39, 0x3F] : List (BitVec 6)),
      runs sprState (.mfs { x := 9, spr := n }) = true ∧ runs sprState (.mts { x := 9, spr := n }) = true) ∧
    sprState.tile.notices = [] ∧ sprState.tile.engShown = none ∧ mfsFaults 0x0D 4 = true ∧ mfsFaults 0x13 4 = true ∧ mfsFaults 0x17 4 = true ∧ mfsFaults 0x1B 4 = true ∧ mfsFaults 0x22 4 = true ∧ mfsFaults 0x2F 4 = true ∧ mfsFaults 0x37 4 = true ∧ mfsFaults 0x39 4 = true ∧ mfsFaults 0x3F 4 = true ∧
    mtsFaults 0 5 = true ∧ mtsFaults 0x0C 5 = true ∧ mtsFaults 0x10 5 = true ∧ mtsFaults 0x12 5 = true ∧ mtsFaults 0x18 5 = true ∧ mtsFaults 0x1A 5 = true ∧ mtsFaults 0x20 5 = true ∧ mtsFaults 0x21 5 = true ∧ mtsFaults 0x30 5 = true ∧ mtsFaults 0x31 5 = true ∧ mtsFaults 0x33 5 = true ∧ mtsFaults 0x35 5 = true ∧ mtsFaults 0x38 5 = true ∧
    mtsFaults 0x39 4 = true ∧ mtsFaults 0x3F 4 = true ∧ froze (exec (.mts { x := 1, spr := 0x2C }) sprState) 2 = true ∧ froze (exec (.mts { x := 1, spr := 0x29 }) sprState) 2 = true ∧
    sprState.claimedByOther 15 = false ∧ after (exec (.mts { x := 4, spr := 0x28 }) sprState) (fun t => t.cx.st = 0) = true ∧ tileKind (tileOfCtx 9736) ≠ 0 ∧ tileKind (tileOfCtx 16) = 0 ∧ isIssueCore (coreOfCtx 16) = false ∧
    froze (exec (.mts { x := 5, spr := 0x29 }) (on 16)) 0x61 = true := by decide +kernel

/-- An actor of the same core claims the tile's engines; another firing owns the long-vector unit. -/
def claimed (i : Nat) (c : Ctx := user) : State := on i { c with act := 1 } { actors := [(1, { valid := true }), (2, { valid := true, owner := 5, claim := 15 })] } { h := 2 }
def longOwned : State := on 9736 user {} { h := 2, eng := { lown := some 8, lctx := 9737 } }
def bound : State := on 9736 user { streams := [(1, { bound := true, ctx := 9736, firing := 7, desc := streamDesc 0 4 })] } { h := 2 }
theorem test_long_mode : after (exec .modeL (onV)) (fun t => t.cx.long && t.eng.lown = some 7 && t.ownVec 3 = 0) = true ∧ after (exec .modeS longState) (fun t => !t.cx.long) = true := by decide +kernel
theorem witness_LongModeTakesTheUnit :
    runs onD .modeL = true ∧ runs onD .modeS = true ∧ tileKind (tileOfCtx 8) ≠ 3 ∧ isIssueCore (coreOfCtx 9744) = false ∧ tileKind (tileOfCtx 9744) = 3 ∧ froze (exec .modeL (on 9744)) 0x61 = true ∧
    (claimed 9736).claimedByOther 15 = true ∧ froze (exec .modeL (claimed 9736)) 0x62 = true ∧ (onV).engineRole 3 15 = none ∧ (bound.engineRole 3 15 = none ∧ bound.hasStream = true) ∧ (onV).hasStream = false ∧
    (longOwned.eng.lown = some 8 ∧ longOwned.cx.firing = 7 ∧ longOwned.engineRole 3 15 = none ∧ waits (exec .modeL longOwned) = true) ∧ (onV).eng.lown = none ∧
    (longState.cx.long = true ∧ longState.engineRole 3 15 = none ∧ longState.hasStream = false ∧ runs longState .modeL = true ∧ runs longState .modeS = true) := by decide +kernel

/-- A capability to core 1 of the device 0x3FF with rights and ports, owner 5, and its seal in the next register. -/
def capLow (rights ports : Nat) : Word := BitVec.ofNat 64 (0x3FF * 2 ^ 54 + 5 * 2 ^ 46 + ports * 2 ^ 18 + rights * 2 ^ 14)
def capUser (rights ports : Nat) : Ctx := { user with x := [(2, 0x11), (4, capLow rights ports), (5, (State.reset).sealWord (capLow rights ports)), (7, 0x101), (8, 1)] }
def capState (rights ports : Nat) (level : Nat := 1) : State := onD { capUser rights ports with level := level }
def capR : FmtCR := { xd := 10, xa := 4, xb := 2, opt := 0 }
theorem test_capabilities :
    after (exec (.capMint { capR with xb := 0 }) (capState 7 3 2)) (fun t => t.x 10 = capLow 7 3) = true ∧ after (exec (.capSelf { capR with xa := 0, xb := 0 }) (capState 7 3)) (fun t => t.x 10 ≠ 0) = true := by decide +kernel
/-- A pair whose second half is the seal of its first is genuine (R169). -/
theorem witness_genuine (rights ports : Nat) : ((capState rights ports).x 5 = (capState rights ports).sealWord ((capState rights ports).x 4)) := rfl
theorem witness_CapabilitiesAndControlPackets :
    runs (capState 7 3) (.capMint { capR with xb := 0 }) = true ∧ runs (capState 7 3) (.capNarrow { capR with xd := 30 }) = true ∧ runs (capState 7 3) (.capSelf { capR with xa := 0, xb := 0 }) = true ∧
    (capState 7 3).level = 1 ∧ (capState 7 3 2).level = 2 ∧ (capState 7 3).tag = 5 ∧ froze (exec (.capMint { capR with xa := 8, xb := 0 }) (capState 7 3)) 0x42 = true ∧
    ((capState 7 3).x 4).toNat % 2 ^ 14 = 0 ∧ ((capState 7 3).x 4).getLsbD 28 = false ∧ ((capState 7 3).x 8).toNat % 2 ^ 14 ≠ 0 ∧ ((capState 7 3).x 7).toNat = 257 ∧ (∀ i ∈ ([.wake { xd := 0, xa := 0, xb := 4, opt := 0 }, .halt { xd := 0, xa := 0, xb := 4, opt := 0 }] : List Instr), runs (capState 7 3) i = true) ∧
    (capLow 6 0).getLsbD 15 = true ∧ (capLow 6 0).getLsbD 16 = true ∧ (capLow 1 0).getLsbD 15 = false ∧ (capLow 1 0).getLsbD 16 = false := by decide +kernel

theorem test_traps : after (exec (.trap { imm := 0xFFFFFF }) onD) (fun t => t.cx.st = 1 && t.cx.cause = 0x0F && t.cx.frozenPc = 0x10100 && t.cx.pc = 0x10100) = true ∧ froze (exec (.brk { imm := 1 }) onD) 0x0E = true := by decide +kernel
theorem test_unfreeze : ((onD { user with st := 1, cause := 15 }).unfreeze 8 0x10200 false).cx.st = 0 ∧ ((onD { user with st := 1 }).unfreeze 8 0x10200 false).cx.pc = 0x10200 := by decide +kernel
theorem witness_FreezesTrapsAndReturns : (onD).cx.st = 0 ∧ ((onD).freeze 8 { cause := 0x0F, slotA := false, addr := 0, synd := 1 }).cx.st = 1 ∧ (9 : Nat) ≠ 8 ∧ (1 : Nat) ≠ fieldOfCtx 8 := by decide +kernel

def fullPark : Core := { parkCap := 0 }
def roomyPark : Core := { parkCap := 4, parkBase := 0x1000 }
theorem test_done_and_park : after (exec .done onD) (fun t => !t.cx.occ) = true ∧ waits (exec .done (onD { user with unFld := 1 })) = true ∧ after (exec .park (onD)) (fun t => t.cx.st = 2 && t.cx.reason = 0x3F) = true := by decide +kernel
theorem test_sections : after (exec .npOn onD) (fun t => t.cx.np) = true ∧ froze (exec .npOff onD) 0x5F = true ∧ after (exec .npOff (onD { user with np := true })) (fun t => !t.cx.np) = true := by decide +kernel
theorem witness_FiringsEndParkAndHoldSections :
    (∀ i ∈ ([.done, .park, .npOn, .npOff] : List Instr), runs onD i = true) ∧ (onD).cx.unack = 0 ∧ (onD).outputLeft = false ∧ (onD).cx.fstat = 0 ∧ (onD { user with unDom := 1 }).cx.unack ≠ 0 ∧
    (streamed 1 4 0 [1]).outputLeft = true ∧ (onD { user with scope := 1 }).cx.fstat ≠ 0 ∧ froze (exec .done (onD { user with scope := 1 })) 0x54 = true ∧ froze (exec .park (onD { user with np := true })) 0x5F = true ∧
    after (exec .park (onD { user with wakeBit := true })) (fun t => t.cx.st = 0 && !t.cx.wakeBit) = true ∧ (onD user fullPark).core.parkRoom = false ∧ (onD user roomyPark).core.parkRoom = true ∧
    after (exec .park (onD user roomyPark)) (fun t => t.cx = {}) = true := by decide +kernel

/-! ### Semaphores, streams, barriers, ports, sends, pips -/

def semUser : Ctx := { user with x := [(4, 3), (5, 0), (6, 255)] }
def semState (sems : KMap Nat := [(1, 3), (2, 253)]) (q : KMap (List (Nat × Nat × Nat)) := []) : State := on 8 semUser {} { sems := sems, semq := q }
def semOf (xa : BitVec 5) (n : BitVec 9) : FmtCR := { xd := 0, xa := xa, xb := 0, opt := n }
theorem test_semaphores : after (exec (.semPost (semOf 4 1)) (semState)) (fun t => t.tile.sems.get 0 1 = 6) = true ∧ after (exec (.semWt (semOf 4 1)) (semState)) (fun t => t.tile.sems.get 0 1 = 0 && t.cx.pc = 0x10108) = true ∧
    waits (exec (.semWt (semOf 4 0)) (semState)) = true := by decide +kernel
theorem witness_SemaphoresCount :
    (∀ n ∈ ([0, 7] : List (BitVec 9)), runs semState (.semPost (semOf 4 n)) = true ∧ runs semState (.semWt (semOf 6 n)) = true) ∧ ((semState).x 5).toNat % 256 = 0 ∧ ((semState).x 6).toNat % 256 = 255 ∧
    (semState).storesDone 2 = true ∧ storing.storesDone 2 = false ∧ 255 < (semState).tile.sems.get 0 2 + 3 ∧ (semState).tile.sems.get 0 1 + 3 ≤ 255 ∧ froze (exec (.semPost (semOf 4 2)) (semState)) Cause.semOverflow = true ∧
    ((semState).tile.semq.get [] 1).head?.map (fun w => w.2.1) = none ∧ ((semState [(1, 3)] [(1, [(8, 7, 3)])]).tile.semq.get [] 1).head?.map (fun w => w.2.1) = some 7 ∧
    (semState [(1, 3)] [(1, [(9, 6, 3)])]).tile.semq.get [] 1 = [(9, 6, 3)] ∧ waits (exec (.semWt (semOf 4 1)) (semState [(1, 3)] [(1, [(9, 6, 3)])])) = true := by decide +kernel

/-- A stream's descriptor of 64 bytes in local store at 0x100040. -/
def descMem (ws : List Nat) : Memory := (ws.zipIdx.foldl (fun m p => m.writeLE (gpaKey (tileGpa 0 (0x40 + 8 * p.2))) 8 p.1) [])
def withDesc (ws : List Nat) (c : Ctx := memUser) (k : Core := { utlb := [localPage 0] }) : State := { on 8 c k with mem := descMem ws }
def bindR : FmtCR := { xd := 9, xa := 4, xb := 0, opt := 2 }
def reads (s : State) (bad : Bool) : Bool :=
  match s.readDesc 0x100040 8 with
  | .ok d => decide (streamBad d = bad)
  | .error _ => false
def boundAs (firing : Nat) (output : Nat) (fifo : List Vec) : Core := { utlb := [localPage 0], streams := [(2, { bound := true, ctx := 8, firing := firing, desc := streamDesc output 4, fifo := fifo, taken := 1 })] }
theorem test_stream_bind : after (exec (.strBind { bindR with xd := 0 }) (withDesc [0x100080, 0, 3, 32])) (fun t => (t.core.streamAt 2).bound && (t.core.streamAt 2).firing = 7 && (t.core.streamAt 2).total = 4) = true ∧
    gets (exec (.strStat { bindR with xa := 0 }) (on 8 memUser (boundAs 7 0 [1, 2]))) 9 0x8200000000000001 = true ∧ after (exec (.strFree { bindR with xa := 0, xd := 0 }) (on 8 memUser (boundAs 7 0 [1, 2]))) (fun t => !(t.core.streamAt 2).bound) = true := by
  decide +kernel
theorem witness_StreamsAreBoundAndFreed :
    (∀ n ∈ ([0, 3] : List (BitVec 9)), runs localState (.strBind { bindR with xd := 0, opt := n }) = true ∧ runs localState (.strFree { bindR with xd := 0, xa := 0, opt := n }) = true ∧ runs localState (.strStat { bindR with xa := 0, opt := n }) = true) ∧
    ((localState).x 7).toNat % 64 ≠ 0 ∧ reads (withDesc [0x100080, 0, 3, 32]) false = true ∧ reads (withDesc [0x100080, 0xFFFF, 3, 32]) true = true ∧ (withDesc []).cx.long = false ∧
    froze (exec (.strBind { bindR with xd := 0 }) (withDesc [0x100080, 0, 3, 32] memUser (boundAs 7 0 []))) 0x2A = true ∧ ((withDesc []).core.streamAt 2).bound = false ∧ ((on 8 memUser (boundAs 6 0 [])).core.streamAt 2).firing ≠ 7 ∧
    waits (exec (.strFree { bindR with xa := 0, xd := 0 }) (on 8 memUser (boundAs 7 1 [1]))) = true ∧ ((on 8 memUser (boundAs 7 1 [1])).core.streamAt 2).output = true ∧ ((on 8 memUser (boundAs 7 1 [])).core.streamAt 2).fifo = [] := by decide +kernel

/-- Barrier 255 of field 0, in the partition of tag 5; member x5 = 2, ply x6, imbalance x7. -/
def barUser : Ctx := { user with x := [(4, 255), (5, 2), (6, 10), (7, 0x7FFFFFFFFF), (8, 0x8000000000), (9, 3), (10, 1024), (11, 1025), (12, 14), (13, 9), (14, 5), (15, 0x8000000A)] }
def barObj : Barrier := { valid := true, owner := 5, mm1 := 2, scope := 3, oldest := 10, hist := 0x0AB }
def barState (o : Barrier := barObj) (c : Ctx := barUser) : State :=
  { on 8 c with hubs := [(0, { barriers := [(255, o)] })], parts := [(0, { valid := true, state := 1, tag := 5, fields := [0] })] }
def barE (xb : BitVec 5) (opt : BitVec 9) : FmtWE := { xa := 4, xb := xb, xc := 0, opt := opt, ext := 7 }
def barR (xb : BitVec 5) (xd : BitVec 5 := 20) : FmtCR := { xd := xd, xa := 4, xb := xb, opt := 0 }
theorem test_barrier_init : after (exec (.barInit (barE 10 12)) (barState {})) (fun t => (t.barAt 0 255).mm1 = 1023 && (t.barAt 0 255).scope = 4 && (t.barAt 0 255).pace && (t.barAt 0 255).tmo = 7) = true := by decide +kernel
theorem test_barrier_arrive : after (exec (.barArr (barR 5)) (barState)) (fun t => t.cx.hold = some 3 && t.net.map (fun a => (a.kind, a.data, a.data2)) = [(.arrival, 0, 2)]) = true ∧
    after (exec (.barArrx (barR 5 7)) (barState)) (fun t => t.net.map (fun a => (a.data, a.data2)) = [(0x7FFFFFFFFF, 2)]) = true := by decide +kernel
theorem test_barrier_status : gets (exec (.barTst (barR 6)) (barState)) 20 5 = true ∧ gets (exec (.barTst (barR 13)) (barState)) 20 3 = true ∧ gets (exec (.barWt (barR 13)) (barState)) 20 3 = true := by decide +kernel
def dist (s : State) (r : BitVec 5) : Nat := ((s.x r).toNat % 2 ^ 32 + 2 ^ 32 - (s.barAt 0 255).oldest) % 2 ^ 32
theorem witness_BarrierInstructions :
    (barState).barRef 5 255 = some (0, 255) ∧ (∀ i ∈ ([.barInit (barE 10 4), .barArr (barR 5), .barArrx (barR 5 7), .barTst (barR 6), .barWt (barR 6)] : List Instr), runs (barState) i = true) ∧
    ((barState).x 10).toNat = 1024 ∧ ((barState).x 11).toNat = 1025 ∧ (barState { barObj with owner := 6 }).tag = 5 ∧ (barE 5 4).opt.toNat % 8 = 4 ∧ (barE 5 5).opt.toNat % 8 = 5 ∧ (barE 5 10).opt.toNat % 8 = 2 ∧ (barE 5 1).opt.toNat % 8 = 1 ∧
    barObj.mm1 < ((barState).x 9).toNat ∧ ((barState).x 5).toNat = barObj.mm1 ∧ ((barState).x 8).toNat = 2 ^ 39 ∧ ((barState).x 7).toNat = 2 ^ 39 - 1 ∧
    (barState).cx.reply = none ∧ (barState).storesDone 3 = true ∧ (barState barObj { barUser with unFld := 1 }).storesDone 3 = false ∧ waits (exec (.barArr (barR 5)) (barState barObj { barUser with unFld := 1 })) = true ∧
    gets (exec (.barArr (barR 5)) (barState barObj { barUser with reply := some (.value 10), hold := some 3 })) 20 10 = true ∧ gets (exec (.barWt (barR 6)) (barState barObj { barUser with reply := some (.value 2) })) 20 2 = true ∧
    dist (barState) 12 = 4 ∧ dist (barState) 6 = 0 ∧ dist (barState) 14 = 2 ^ 32 - 5 ∧ dist (barState) 15 = 2 ^ 31 ∧ dist (barState) 13 = 2 ^ 32 - 1 ∧ waits (exec (.barWt (barR 6)) (barState)) = true := by
  decide +kernel

/-- An actor with a port of four kinds: port 0 REQ holding two messages, port 1 RSP, port 2 SYS empty, port 3 not enabled. -/
def msgA : Msg := { words := [11, 12, 13, 14, 15], scapLo := 21, scapHi := 22 }
def portsOf (q0 : List Msg) : KMap Port := [(0, { word := 0x8010000000000000, hwPart := q0 }), (1, { word := 0xA000000000000000 }), (2, { word := 0xC000000000000000 })]
def actUser : Ctx := { user with act := 2, x := [(1, 5), (2, 0), (3, 4), (4, 1)], v := [(1, 3), (2, 0x77)] }
def portState (q0 : List Msg := [msgA, { words := [9] }]) (c : Ctx := actUser) : State := onD c { actors := [(2, { valid := true, ports := portsOf q0 })] }
def portR (xd xa : BitVec 5) (opt : BitVec 9) : FmtCR := { xd := xd, xa := xa, xb := 0, opt := opt }
theorem test_ports : gets (exec (.peek (portR 9 3 0)) (portState)) 9 15 = true ∧ gets (exec (.peek (portR 9 1 0)) (portState)) 9 0 = true ∧ gets (exec (.mcnt (portR 9 0 0)) (portState)) 9 2 = true ∧
    after (exec (.mdrop (portR 9 4 0)) (portState)) (fun t => t.x 9 = 1 && ((t.ownPort 0).map (fun q => q.hwPart.length)) = some 1) = true ∧
    after (exec (.mtake (portR 4 9 0)) (portState)) (fun t => t.ownVec 4 = 11 + 12 * 2 ^ 64 + 13 * 2 ^ 128 + 14 * 2 ^ 192 && t.ownVec 5 = 15 && t.x 9 = 5 && t.cx.senderLo = 21) = true ∧
    waits (exec (.mtake (portR 4 9 2)) (portState)) = true ∧ after (exec (.mtake (portR 4 9 6)) (portState)) (fun t => t.ownVec 4 = 0 && t.x 9 = 0 && t.cx.pc = 0x10108) = true := by decide +kernel
theorem witness_PortInstructionsReadAndTake :
    runs (portState) (.peek (portR 9 3 3)) = true ∧ runs (portState) (.mcnt (portR 9 0 3)) = true ∧ runs (portState) (.mdrop (portR 9 4 0)) = true ∧ runs (portState) (.mtake (portR 14 9 7)) = true ∧
    (portState).ownPort 3 = none ∧ ((portState).ownPort 0).map (fun q => q.hwPart.length) = some 2 ∧ ((portState).ownPort 2).map (fun q => q.hwPart) = some [] ∧ (portState).streamOf 14 = none ∧ (portState).streamOf 15 = none ∧
    (portState).streamOf 4 = none ∧ ((portState).x 3).toNat = 4 := by decide +kernel

/-- A firing that sends the two words of `v1` or the eight of `v2` and `v3` to port 1 of an actor of core 1, with the capability of x4, its seal in x5; and the forms. -/
def sendCap : Word := BitVec.ofNat 64 (0x3FF * 2 ^ 54 + 5 * 2 ^ 46 + 2 * 2 ^ 18 + 2 ^ 14)
def sendUser : Ctx := { user with act := 2, x := [(4, sendCap), (5, State.reset.sealWord sendCap), (6, 0x40)], v := [(1, 3), (2, 7)], senderLo := sendCap, senderHi := State.reset.sealWord sendCap, port := 0x141 }
def sendState (q : KMap (List Msg) := []) (req : Nat := 0) (c : Ctx := sendUser) : State := onD c { actors := [(2, { valid := true, ports := portsOf [] })], sendq := q, reqRsv := req }
def sendR (xa : BitVec 5) (opt : BitVec 9) : FmtCR := { xd := 10, xa := xa, xb := 4, opt := opt }
def partsOf (i : Instr) (f : FmtCR) (s : State) (len port vn rel : Nat) (rq : Bool) : Bool :=
  match sendParts i f s with
  | some p => p.len = len && p.port = port && p.vn = vn && p.rel = rel && p.rq = rq && p.lo = sendCap && p.hi = s.sealWord p.lo
  | none => false
/-- The pair that the sender holds is genuine: its low bits are zero and its second half is the seal. -/
theorem witness_send_genuine (q : KMap (List Msg)) (req : Nat) : (sendState q req).capGenuine sendCap (State.reset.sealWord sendCap) = true := by
  have h : (sendState q req).sealWord sendCap = State.reset.sealWord sendCap := rfl
  have h0 : bitsOf sendCap 13 0 = 0 := by decide +kernel
  simp [State.capGenuine, h, h0]
theorem witness_SendsQueueOrWait :
    runs (sendState) (.send (sendR 1 0x24)) = true ∧ runs (sendState) (.sendSys (sendR 2 4)) = true ∧ runs (sendState) (.sendr { sendR 1 0 with xb := 0, xd := 0 }) = true ∧ (sendState).level = 0 ∧
    (sendState).streamOf 1 = none ∧ (sendState).streamOf 2 = none ∧ reservedClass 0 = false ∧ (sendState).cx.port.toNat / 2 ^ 6 % 4 = 1 ∧ ((sendState).x 6).toNat / 2 ^ 6 % 4 = 1 ∧
    sendCap ≠ 0 ∧ sendCap.getLsbD 14 = true ∧ sendCap.getLsbD 28 = false ∧ sendCap.getLsbD 19 = true ∧ sendCap.getLsbD 18 = false ∧ (sendState).replyRoom = some 1 ∧ (onD sendUser).replyRoom = none ∧
    (sendState).declaredSend 0 = false ∧ (sendState).core.queueRoom 0 = true ∧ (sendState [] 32).core.queueRoom 0 = false ∧ (sendState [] 0 { sendUser with prod := 1 }).declaredSend 0 = true ∧ (sendState).storesDone 5 = true ∧ (sendState).cx.np = false ∧
    (sendState).core.parkRoom = false := by decide +kernel

/-- What `sendParts` gives for the forms, by hand from R325; the seals are the same term on both sides. -/
theorem witness_send_parts : (sendParts (.send (sendR 1 0x24)) (sendR 1 0x24) (sendState)).map (fun p => (p.len, p.port, p.vn, p.rq, p.rel)) = some (4, 1, 0, true, 0) ∧
    (sendParts (.send (sendR 2 0x190)) (sendR 2 0x190) (sendState)).map (fun p => (p.len, p.port, p.vn, p.rq, p.rel)) = some (8, 0, 3, false, 6) ∧
    (sendParts (.sendr { sendR 1 0 with xb := 0 }) { sendR 1 0 with xb := 0 } (sendState)).map (fun p => (p.len, p.port, p.vn)) = some (4, 1, 1) := by decide +kernel

/-- A tile at 2 pips of a class E2 firing; and two fields of a partition with shares. -/
def pipUser : Ctx := { user with cls := 2, level := 1, x := [(4, 3), (5, 1), (6, 0), (7, 99), (8, 100), (10, 9)] }
def pipState (c : Ctx := pipUser) : State :=
  { on 8 c {} { h := 2, hclass := 1 } with hubs := [(0, { share := 10 }), (1, { share := 5 })], parts := [(0, { valid := true, state := 1, tag := 5, fields := [0, 1] })] }
def pipR (xd xa xb : BitVec 5) (opt : BitVec 9) : FmtCR := { xd := xd, xa := xa, xb := xb, opt := opt }
theorem test_pips : after (exec (.pipReq (pipR 0 4 0 6)) (pipState)) (fun t => t.tile.req = some { target := 3, cls := 2, notify := true, age := t.rtime }) = true ∧
    after (exec (.pipRel (pipR 0 5 0 0)) (pipState)) (fun t => t.tile.h = 1) = true ∧ gets (exec (.pipStat (pipR 9 0 0 0)) (pipState)) 9 0x0008000200000000 = true := by decide +kernel
theorem test_lend : after (exec (.pipLend (pipR 8 5 5 0)) (pipState)) (fun t => (t.hub.leases.get {} 0).valid && (t.hub.leases.get {} 0).peer = 1 && ((t.hubOf 1).leases.get {} 0).dir = 1 && t.x 8 = 0) = true := by decide +kernel
theorem witness_PipInstructions :
    runs (pipState) (.pipReq (pipR 0 4 0 7)) = true ∧ runs (pipState) (.pipRel (pipR 0 4 0 0)) = true ∧ runs (pipState) (.pipLend (pipR 8 5 5 0)) = true ∧ runs (pipState) (.pipStat (pipR 9 0 0 0)) = true ∧
    isIssueCore (coreOfCtx 16) = false ∧ isIssueCore (coreOfCtx 8) = true ∧ fullRate (tileKind 0) < ((pipState).x 10).toNat ∧ ((pipState).x 6).toNat = 0 ∧ ((pipState).x 4).toNat ≤ fullRate (tileKind 0) ∧ (pipState).cx.cls < 3 ∧
    (pipState).tile.h < ((pipState).x 4).toNat ∧ ((pipState).x 5).toNat ≤ (pipState).tile.h ∧ (onD).level = 0 ∧ (pipState).level = 1 ∧ (pipState).hub.freeLease = some 0 ∧ ((pipState).hubOf 1).freeLease = some 0 ∧ (pipState).partOfTag 5 = some 0 ∧
    ((pipState).x 5).toNat ∈ ((pipState).partOf 0).fields ∧ ((pipState).x 8).toNat = 100 ∧ ((pipState).x 5).toNat ≤ (pipState).freeOf 0 := by decide +kernel

/-! ### Engines -/

/-- The page at `va` is at offset `off` of the local store of tile t, with elements of a format and geometry. -/
def pageAt (t va off fmt geo : Nat) : TlbEntry := { tag := 5, va := va, level := 0, pte := 5 * 2 ^ 120 + tileGpa t off + 0xED + fmt * 2 ^ 115 + geo * 2 ^ 112 }
/-- Raw bytes at 0x100000, BF16 at 0x110000, FP32 at 0x120000. -/
def enginePages (t : Nat) : Core := { utlb := [pageAt t 0x100000 0 0 0, pageAt t 0x110000 0x10000 6 0, pageAt t 0x120000 0x20000 5 0, pageAt t 0x130000 0x30000 6 3] }
def engineUser : Ctx := { user with x := [(1, 0x110000), (2, 0x100), (3, 0x120000), (4, 0x100000), (5, 0x100040), (6, 64), (7, 0xFFFFFFFF), (8, 65)] }
def engineState (i : Nat) (e : Engine) (mem : Memory := []) (h : Nat := 2) (c : Ctx := engineUser) : State := { on i c (enginePages (tileOfCtx i)) { h := h, eng := e } with mem := mem, hubs := [(fieldOfTile (tileOfCtx i), { unlisted := 0, tlb := (enginePages (tileOfCtx i)).utlb })] }
def engR (xa xb xc : BitVec 5) (opt : BitVec 9) (ext : BitVec 32 := 0) : FmtWE := { xa := xa, xb := xb, xc := xc, opt := opt, ext := ext }
def plans (r : Except Halt RowPlan) (p : RowPlan → Bool) : Bool :=
  match r with
  | .ok q => p q
  | .error _ => false
def runsOf (r : Except Halt (List Piece)) (p : List Piece → Bool) : Bool :=
  match r with
  | .ok q => p q
  | .error _ => false
def ready (s : State) (kind mask : Nat) : Bool := (s.engineRole kind mask).isNone && decide (s.eng.busyUntil ≤ s.cyc) && decide (s.tile.h ≠ 0) && decide (s.tile.nextok ≤ s.cyc)
def bLatch : Latch := { valid := true, fmt := 6, k := 32 }
def denseState : State := engineState 8 { latches := [(0, bLatch), (1, bLatch)], mem := [(0x400, 0x3F800000), (0x7FF, 0x40000000)] }
def dense (opt : BitVec 9) : FmtWE := engR 1 2 0 opt

theorem test_engine_roles : froze (exec (.mma (dense 0)) (engineState 9608 {})) 0x60 = true ∧ froze (exec (.attSm (engR 0 6 0 0)) (engineState 8 {})) 0x60 = true ∧ froze (exec (.spCnt (engR 9 0 0 0)) (engineState 9616 {})) 0x61 = true := by decide +kernel
theorem witness_EngineInstructionsCheckAndWait :
    (∀ i ∈ ([.mma (dense 3), .mmaRing (dense 0), .accZero (engR 0 0 0 3), .accLd (engR 3 2 0 0), .accSt (engR 3 2 0 0), .accProm (engR 0 0 0 0), .mxLdb (engR 1 2 0 4), .spMm (engR 4 1 2 0), .spBm (engR 4 0 0 0), .spDrop (engR 1 2 4 0),
      .spGrow (engR 1 2 4 0), .spCnt (engR 9 0 0 7), .attQk (engR 1 2 0 0), .attSm (engR 0 6 0 0), .attPv (engR 1 2 0 0), .attFin (engR 1 2 0 0), .modeL] : List Instr), runs denseState i = true) ∧
    tileKind (tileOfCtx 8) = 0 ∧ tileKind (tileOfCtx 9608) = 1 ∧ tileKind (tileOfCtx 9672) = 2 ∧ tileKind (tileOfCtx 9736) = 3 ∧ tileKind (tileOfCtx 16) = 0 ∧ tileKind (tileOfCtx 9616) = 1 ∧ tileKind (tileOfCtx 9680) = 2 ∧
    isIssueCore (coreOfCtx 16) = false ∧ isIssueCore (coreOfCtx 9616) = false ∧ isIssueCore (coreOfCtx 9680) = false ∧ (claimed 8).claimedByOther 4 = true ∧ (claimed 8).claimedByOther 0 = false ∧ (claimed 9608).claimedByOther 15 = true ∧
    (claimed 9672).claimedByOther 15 = true ∧ denseState.engineRole 0 8 = none ∧ (engineState 9608 {}).engineRole 1 15 = none ∧
    (engineState 9608 { busyUntil := 1 }).cyc = 0 ∧ waits (exec (.accZero (engR 0 0 0 0)) (engineState 8 { busyUntil := 1 })) = true ∧ waits (exec (.spCnt (engR 9 0 0 0)) (engineState 9608 { busyUntil := 1 })) = true ∧
    waits (exec (.spDrop (engR 1 2 4 0)) (engineState 9608 {} [] 0)) = true ∧ waits (exec (.spMm (engR 4 1 2 0)) ((engineState 9608 {}).updCurTile (fun t => { t with nextok := 5 }))) = true := by decide +kernel

/-- `mma` and `mma.ring` on BF16 rows and a BF16 latch; a plan of the 32 rows; checks of neither trap. -/
theorem witness_DenseMultiplyAddsBlocks :
    runs denseState (.mma (dense 1)) = true ∧ runs denseState (.mmaRing (dense 5)) = true ∧ ready denseState 0 2 = true ∧ denseState.eng.pois = 0 ∧ 2 ≤ (denseState.ringLive (tileOfCtx 8)).length ∧ (denseState.eng.latchAt 1) = bLatch ∧
    plans ((pacedBy4 denseState).rowPlan .read 0x110000 0x100 32 (fun _ => 32) (denseTakes (pacedBy4 denseState) bLatch) none) (fun p => p.fmt = 6 && p.data.length = 32 && (pacedBy4 denseState).rowsOpen p) = true := by
  decide +kernel
theorem witness_multiply_checks (m : MulArgs) (a : Accum) : mulChecks ((1 : BitVec 9).getLsbD 3) ((1 : BitVec 9).getLsbD 4) m a = none := rfl

/-- R414: an engine instruction with operands in memory keeps its context until cycle c + 4, when the latch that it fills is there. -/
theorem test_operand_cycles : after (exec (.mxLdb (engR 1 2 0 4)) denseState) (fun t => (t.eng.latchAt 1).ready = 4 && t.cx.ready = 4) = true := by decide +kernel
theorem test_accumulators : after (exec (.accZero (engR 0 0 0 1)) denseState) (fun t => t.eng.busyUntil = 1 && t.cx.pc = 0x10108) = true := by decide +kernel
theorem witness_AccumulatorsLoadStoreAndClear :
    runs denseState (.mxLdb (engR 1 2 0 4)) = true ∧ runs denseState (.accZero (engR 0 0 0 3)) = true ∧ runs denseState (.accLd (engR 3 2 0 1)) = true ∧ runs denseState (.accProm (engR 0 0 0 9)) = true ∧ runs denseState (.accSt (engR 3 2 0 1)) = true ∧
    denseState.engineRole 0 0 = none ∧ denseState.engineRole 0 8 = none ∧ denseState.eng.busyUntil ≤ denseState.cyc ∧ (denseState.eng.latchAt 1).send = false ∧ (denseState.eng.latchAt 1).pend = false ∧
    plans (denseState.rowPlan .read 0x110000 0x100 32 latchDepth (denseState.denseAccepts .latchFmt) none) (fun p => p.fmt = 6 && denseState.rowsOpen p) = true ∧
    plans (denseState.accPlan .read (engR 3 2 0 1)) (fun p => p.fmt = 5 && denseState.rowsOpen p) = true ∧ plans (denseState.accPlan .read (engR 1 2 0 1)) (fun p => p.fmt = 6) = true ∧
    plans (denseState.accPlan .write (engR 3 2 0 1)) (fun p => p.fmt = 5 && !denseState.rowsFull p) = true ∧ denseState.eng.pois.getLsbD 3 = false ∧ (9 : BitVec 9).getLsbD 3 = true ∧ denseState.eng.inner = 0 := by decide +kernel

/-- An A tile in a state of R385 with a head size of 32 and 3 keys. -/
def attAt (st : Nat) : State := engineState 9672 { attState := st, attD := 32, attQn := 1, attNk := 3 }
def attP (st : Nat) (xa xb : Nat) (write : Bool) (fmts : List Nat) (rows : Nat) : Bool :=
  plans ((pacedBy4 (attAt st)).rowPlan (if write then .write else .read) xa xb rows (fun _ => 32) (if write then finAccepts [5, 6] xa xb else (pacedBy4 (attAt st)).attAccepts fmts [0, 1, 2] none) none)
    (fun p => (pacedBy4 (attAt st)).rowsOpen p && !(pacedBy4 (attAt st)).rowsFull p)
theorem test_attention_order : froze (exec (.attSm (engR 0 6 0 0)) (attAt 1)) 0x68 = true ∧ after (exec (.attQk (engR 1 2 0 0 0x30000)) (attAt 1)) (fun t => t.eng.attState = 2 && t.eng.attNk = 3) = true ∧
    after (exec (.attFin (engR 3 2 0 0)) (attAt 4)) (fun t => t.eng.attState = 0 && t.net.length = 1) = true := by decide +kernel
theorem witness_AttentionStepsInOrder :
    (∀ i ∈ ([.attQk (engR 1 2 0 0), .attQk (engR 1 2 3 1 0x30120), .attSm (engR 0 6 7 1), .attPv (engR 1 2 0 0), .attFin (engR 3 2 0 0), .attFin (engR 3 2 4 1)] : List Instr), runs (attAt 1) i = true) ∧ ready (attAt 1) 2 15 = true ∧
    (attAt 4).eng.attPois = 0 ∧ ((attAt 2).x 6).toNat = 64 ∧ ((attAt 2).x 8).toNat = 65 ∧ attP 1 0x110000 0x100 false [6, 8, 9] 3 = true ∧ attP 3 0x110000 0x100 false [6, 8, 9] 3 = true ∧ attP 4 0x120000 0x100 true [] 1 = true ∧
    plans ((pacedBy4 (attAt 0)).rowPlan .read 0x110000 64 1 (fun _ => 32) ((pacedBy4 (attAt 0)).attAccepts [6] [0] none) none) (fun p => (pacedBy4 (attAt 0)).rowsOpen p) = true ∧
    plans ((pacedBy4 (attAt 4)).rowPlan .write 0x120000 128 1 (fun _ => 32) (fun fmt geo => match finAccepts [5] 0x120000 128 fmt geo with
        | some c => some c
        | none => if 0x120000 % 128 ≠ 0 then some .misaligned else none) none) (fun q => !(q.data.flatten.any (fun x => (pacedBy4 (attAt 4)).unackFull x.gpa))) = true := by decide +kernel

/-- An S tile whose local store has, in raw bytes, a row list at 0x100040 that the descriptor at 0x100000 names with 2 columns. -/
def sparseMem (cells : List (Nat × Nat × Nat)) : Memory := cells.foldl (fun m p => m.writeLE (gpaKey (tileGpa (tileOfCtx 9608) p.1)) p.2.1 p.2.2) []
def csrMem (n : Nat) : Memory := sparseMem [(0, 8, 0x100040), (8, 8, 0x100080), (16, 8, 0x110000), (24, 8, 2), (0x40, 4, 0), (0x44, 4, n), (0x80, 4, 1), (0x84, 4, 0), (0x10000, 2, 0x4000), (0x10002, 2, 0x3F80)]
def spState (mem : Memory := csrMem 0) : State := engineState 9608 { mem := [(5, 0x3F800000), (64, 7)], spcnt := [(0, 17), (2, 2 ^ 48 - 1)] } mem
theorem test_sparse_counters : after (exec (.spCnt (engR 9 0 0 4)) (spState)) (fun t => t.x 9 = 17 && t.eng.spcnt.get 0 0 = 0) = true ∧ after (exec (.spDrop (engR 1 2 4 0)) (spState)) (fun t => t.eng.spcnt.get 0 2 = 0 && t.net = []) = true := by decide +kernel
theorem test_sparse_empty_rows : after (exec (.spMm (engR 4 1 2 2)) (spState)) (fun t => t.eng.mem.get 0 5 = 0 && t.eng.mem.get 0 64 = 7) = true := by decide +kernel
def colsOf (s : State) (l : List (Nat × Nat)) (p : List CsrRow → Bool) : Bool :=
  match s.readCols 0x100080 l with
  | .ok rows => p rows
  | .error _ => false
def valsOf (s : State) (rows : List CsrRow) (p : Nat → Nat → List (List Piece) → Bool) : Bool :=
  match s.csrVals 0x110000 rows with
  | .ok (some (a, b, l)) => p a b l
  | _ => false
theorem witness_SparseStepsWorkOnRows :
    (∀ i ∈ ([.spMm (engR 4 1 2 2 0xFFF), .spBm (engR 4 0 0 2 1), .spDrop (engR 1 2 4 0 0xFFF), .spGrow (engR 1 2 4 0), .spCnt (engR 9 0 0 7)] : List Instr), runs (spState) i = true) ∧ ready (spState) 1 15 = true ∧
    runsOf ((pacedBy4 (spState)).rawRun .read 0x100000 32) (fun p => (pacedBy4 (spState)).piecesOpen p && (doublewords 4 ((pacedBy4 (spState)).piecesValue p)) = [0x100040, 0x100080, 0x110000, 2]) = true ∧
    runsOf ((pacedBy4 (spState (csrMem 2))).rawRun .read 0x100040 8) (fun p => (pacedBy4 (spState)).piecesOpen p && unpackLanes 32 2 ((pacedBy4 (spState (csrMem 2))).piecesValue p) = [0, 2]) = true ∧
    colsOf (pacedBy4 (spState)) [(0, 0)] (fun r => r.all (fun x => x.cols = [] && !x.fallen)) = true ∧ colsOf (pacedBy4 (spState (csrMem 2))) [(0, 2)] (fun r => r.map (fun x => x.cols) = [[1, 0]]) = true ∧
    valsOf (pacedBy4 (spState (csrMem 2))) [⟨false, 0, [1, 0], []⟩] (fun f g l => f = 6 && g = 0 && (pacedBy4 (spState)).piecesOpen l.flatten) = true ∧ (pacedBy4 (spState)).sparseAccepts [0] none 6 0 = none ∧
    plans ((pacedBy4 (spState)).planAt .read 0x110000 0x100 [0x110100, 0x110000] (fun _ => 64) (fun fmt geo => match (pacedBy4 (spState)).sparseAccepts [0] none 6 0 with
            | some c => some c
            | none => (pacedBy4 (spState)).sparseAccepts [0, 1, 2] (sparsePair 6 fmt) fmt geo) none) (fun p => (pacedBy4 (spState)).rowsOpen p) = true ∧
    plans ((pacedBy4 (spState)).rowPlan .write 0x110000 0x100 1 (fun _ => 64) ((pacedBy4 (spState)).sparseAccepts [0] none) none) (fun p => !(pacedBy4 (spState)).rowsFull p) = true ∧
    runsOf ((pacedBy4 (spState)).rawRun .write 0x100000 8) (fun p => !(p.any (fun x => (pacedBy4 (spState)).unackFull x.gpa))) = true ∧ keptAt 0x4444444444444444 ≠ none ∧ (spState).eng.spcnt.get 0 2 < 2 ^ 48 ∧
    plans ((pacedBy4 (spState)).rowPlan .read 0x130000 0x80 32 (fun _ => 32) ((pacedBy4 (spState)).sparseAccepts [3] none) none) (fun p => p.fmt = 6 && (pacedBy4 (spState)).rowsOpen p) = true ∧
    plans ((pacedBy4 (spState)).rowPlan .read 0x110000 0x80 64 (fun _ => 64) (fun fmt geo => (pacedBy4 (spState)).sparseAccepts [0, 1, 2] (sparsePair 6 fmt) fmt geo) none) (fun p => (pacedBy4 (spState)).rowsOpen p) = true ∧
    fmtBits 6 / 8 = 2 ∧ 0x110000 % 2 = 0 := by decide +kernel

/-! ### Operations, work-lists, actors, tasks, launches -/

def opUser : Ctx := { memUser with x := [(4, 0x100040), (5, 2), (6, 0x100041), (7, 3), (8, 0x100100), (9, 1024), (10, 1025)], v := [(1, vec32 [0x10008, 0, 9]), (2, vec32 [0x10001])] }
/-- The firing's partition has field 0, which its tag runs; local store holds the words given from offset 0x40 on. -/
def opState (ws : List Nat) (c : Ctx := opUser) (t : Tile := {}) (k : Core := { utlb := [localPage 0] }) (h : Hub := { unlisted := 0, runTag := 5, startup := 7 }) : State :=
  { on 8 c k t with mem := descMem ws, hubs := [(0, h)], parts := [(0, { valid := true, state := 1, tag := 5, fields := [0] })] }
def opR (xb xc : BitVec 5) (ext : BitVec 32 := 0) : FmtWE := { xa := 4, xb := xb, xc := xc, opt := 0, ext := ext }
/-- Descriptors by hand from R397, R401, R403, R404: a gather of 4 rows of 8 bytes, a bag, a copy of 16 bytes and a multicast to tile (0, 0). -/
def gathDesc : List Nat := [0x100000, 0x100800, 0x100400, 4, 8, 0, 0, 0]
def gathIxDesc : List Nat := [0x100000, 0x100800, 0x100400, 4, 8, 0x100C00, 0, 0]
def bagDesc : List Nat := [0x100000, 0x100800, 0x100400, 0, 0x100C00, 31 * 2 ^ 52 + 2 ^ 32 + 1, 0, 0]
def copyDesc : List Nat := [0x100000, 0x100800, 16, 0, 0, 0, 0, 0]
def castDesc : List Nat := [0x100000, 0x400, 16, 0, 1, 0, 0, 0]
def opOk (s : State) (check : State → List Word → Option Cause) : Bool :=
  match s.readNow 0x100040 64 1 with
  | .ok v => !s.tailBad (doublewords 8 v) && decide (tailStat (doublewords 8 v) = 0) && (check s (doublewords 8 v)).isNone
  | .error _ => false
def opFull : Tile := { ops := (List.range 16).map (fun j => (j, { state := 1 })) }
theorem test_operations_start : after (exec (.gath (opR 0 0)) (opState gathDesc)) (fun t => (t.tile.ops.get {} 0).state = 1 && (t.tile.ops.get {} 0).kind = 1 && t.cx.pc = 0x10108) = true ∧
    after (exec (.scat (opR 0 0)) (opState gathDesc opUser { ops := [(0, { state := 1 })] })) (fun t => (t.tile.ops.get {} 1).kind = 3) = true ∧ after (exec (.cp (opR 0 0)) (opState copyDesc)) (fun t => (t.tile.ops.get {} 0).kind = 5) = true ∧
    waits (exec (.gath (opR 0 0)) (opState gathDesc opUser opFull)) = true := by decide +kernel
theorem witness_OperationsTakeASlot :
    (∀ i ∈ ([.gath (opR 0 0), .gathIx (opR 0 5), .scat (opR 4 5 3), .embBag (opR 0 0), .cp (opR 0 0), .cpMc (opR 0 0)] : List Instr), runs (opState gathDesc) i = true) ∧ opOk (opState gathDesc) (fun _ d => if gathBad false d then some .gathDesc else none) = true ∧
    opOk (opState gathIxDesc) (fun _ d => if gathBad true d then some .gathDesc else none) = true ∧ opOk (opState bagDesc) State.embCause = true ∧ opOk (opState copyDesc) State.copyCause = true ∧ opOk (opState castDesc) State.mcastCause = true ∧
    ((opState []).x 6).toNat % 64 ≠ 0 ∧ ((opState []).x 4).toNat % 64 = 0 ∧ (opState []).tailBad [0, 0, 0, 0, 0, 0, 0x8000000000000000, 0] = true ∧ (gathBad false [0, 0, 0, 0, 8, 0]) = true ∧ (opState copyDesc).copyCause [0x100000, 0x100000, 16, 0, 0, 0, 0, 0] = some Cause.copyOverlap ∧
    (opState gathDesc).completionCause (opR 0 0) = none ∧ (opState gathDesc { opUser with pool := true }).completionCause (opR 0 5) = some Cause.capTarget ∧ (opState gathDesc).tile.freeSlot = some 0 ∧ (opState [] opUser opFull).tile.freeSlot = none := by decide +kernel

/-- A work-list object of the issuing core at 0x100040: its ring at offset 0x2000, its table at 0x8000, a spill ring of `cap` entries. -/
def objDesc (dd : Bool) (rcnt dcnt head cap scnt : Nat) : List Nat := [2 ^ 63 + (if dd then 2 ^ 61 else 0) + 2 ^ 62 * (8 / 8 % 2) + rcnt * 2 ^ 50 + dcnt * 2 ^ 37, head * 2 ^ 32 + 0x2000, 0x8000, 0x100C00, cap, 0, scnt, 0]
def wlState (dd : Bool) (rcnt dcnt head cap scnt : Nat) : State := opState (objDesc dd rcnt dcnt head cap scnt)
def listAt (s : State) (p : WorkList → Bool) : Bool :=
  let g := gpaKey (tileGpa 0 0x40)
  let w := workListOf (doublewords 8 (s.mem.readLE g 64))
  !s.ownPending && !s.poison.contains (lineOf g) && decide (w.core = s.cur / 8 % 2) && !w.bad && p w &&
    (match s.mapRange s.cur 0x100040 1 .read 8 with
    | .ok (p :: _) => s.ownStore p.gpa && decide (gpaKey p.gpa = g)
    | _ => false) &&
    (match s.mapRange s.cur 0x100040 64 .write 64 with
    | .ok _ => true
    | .error _ => false)
theorem test_work_list_push : after (exec (.wlPush (opR 7 11)) (wlState false 1 0 1023 0 0)) (fun t => t.localDouble 0x2000 = 3 && t.localDouble 0x40 / 2 ^ 50 % 2048 = 2 && t.x 11 = 0) = true ∧
    gets (exec (.wlStat { xd := 11, xa := 4, xb := 0, opt := 0 }) (wlState true 3 7 0 0 0)) 11 (BitVec.ofNat 64 (2 ^ 63 + 2 ^ 62 + 2 ^ 61 + 3 * 2 ^ 50 + 7 * 2 ^ 37)) = true := by decide +kernel
theorem test_work_list_pop : gets (exec (.wlPopb (opR 8 9)) (wlState false 0 0 0 0 0)) 9 0x7000000000000000 = true ∧ gets (exec (.wlPush (opR 7 11)) (wlState false 1024 0 0 0 0)) 11 0x7100000000000000 = true := by decide +kernel
theorem witness_WorkListsPushAndPop :
    (∀ i ∈ ([.wlPush (opR 7 11), .wlInsd (opR 7 11), .wlPopb (opR 8 9), .wlStat { xd := 11, xa := 4, xb := 0, opt := 0 }] : List Instr), runs (wlState true 0 0 0 0 0) i = true) ∧ ((wlState true 0 0 0 0 0).x 4).toNat % 64 = 0 ∧
    listAt (wlState false 1023 0 1023 0 0) (fun w => w.scnt = 0 && w.rcnt < 1024 && !w.dd) = true ∧ (wlState false 0 0 0 0 0).ownKey 0x40 + 64 ≤ (wlState false 0 0 0 0 0).ownKey 0x2000 ∧
    listAt (wlState true 1 1 0 0 0) (fun w => w.dd && decide (0 ∈ (List.range w.dcnt).map (fun i => (wlState true 1 1 0 0 0).localDouble (w.dtab + 8 * i)))) = true ∧
    listAt (wlState true 1 1 0 0 0) (fun w => w.dd && decide (3 ∉ (List.range w.dcnt).map (fun i => (wlState true 1 1 0 0 0).localDouble (w.dtab + 8 * i)))) = true ∧
    listAt (wlState false 1024 0 0 0 0) (fun w => w.rcnt = 1024 && w.scnt = w.spillCap) = true ∧ listAt (wlState false 5 0 0 4 4) (fun w => 0 < w.scnt && w.scnt = w.spillCap) = true ∧
    ((wlState false 0 0 0 0 0).x 9).toNat = 1024 ∧ ((wlState false 0 0 0 0 0).x 10).toNat = 1025 ∧ listAt (wlState false 0 0 0 0 0) (fun w => w.rcnt = 0) = true ∧
    listAt (wlState false 1 0 1023 0 0) (fun w => w.rcnt ≠ 0) = true ∧ ((wlState false 0 0 0 0 0).x 8).toNat % 8 = 0 ∧
    (match (wlState false 1 0 1023 0 0).mapRanges 8 .write 8 (pagesOf 0x100100 8) with
    | .ok ps => !(ps.any (fun p => (wlState false 1 0 1023 0 0).unackFull p.gpa))
    | .error _ => false) = true := by decide +kernel

/-- An actor descriptor of owner 5 with 256 bytes of code and no port; a full table. -/
def actDesc : List Nat := [2 ^ 63 + 0x10000, 5 * 2 ^ 56 + 256 * 2 ^ 24, 0, 0, 0, 0, 0, 0]
def fullTable : Core := { utlb := [localPage 0], actors := (List.range 64).map (fun a => (a, { valid := true })) }
def actR (opt : BitVec 9) : FmtCR := { xd := 12, xa := 4, xb := 0, opt := opt }
def descOk (s : State) (core : Nat) (bad : Bool) : Bool :=
  match s.readDesc 0x100040 8 with
  | .ok d => s.descRefused core d s.tag s.level = bad
  | .error _ => false
theorem test_actor_new : after (exec (.actNew (actR 0)) (opState actDesc)) (fun t => (t.core.actorAt 0).valid && (t.core.actorAt 0).owner = 5 && t.cx.pc = 0x10108) = true ∧ froze (exec (.actNew { actR 0 with xa := 6 }) (on 8 opUser { utlb := [localPage 0] })) 0x22 = true := by decide +kernel
theorem test_spawn : after (exec (.spawn { xd := 0, xa := 1, xb := 0, opt := 0 }) (opState [])) (fun t => t.core.deque.length = 1 && ((t.core.deque.head?.map (fun r => r.words.getD 0 0)) = some 0x10008)) = true := by decide +kernel
theorem witness_ActorsRegisterAndTasksSpawn :
    runs (opState actDesc) (.actNew (actR 1)) = true ∧ runs (opState actDesc) (.actNew { actR 0 with xb := 4 }) = true ∧ runs (opState actDesc) (.actDel { xd := 0, xa := 0, xb := 4, opt := 0 }) = true ∧ runs (opState actDesc) (.spawn { xd := 0, xa := 15, xb := 0, opt := 0x180 }) = true ∧
    descOk (opState actDesc) 1 false = true ∧ descOk (opState [5]) 1 true = true ∧ ((opState actDesc).coreOf 1).freeActor = 0 ∧ ((opState actDesc opUser {} fullTable).coreOf 1).freeActor = 64 ∧
    (opState actDesc).streamOf 1 = none ∧ ((opState actDesc).ownVec 1 % 2 ^ 64) = 0x10008 ∧ (opState actDesc).cx.codelo = 0x10000 ∧ (opState actDesc).cx.codehi = 0x20000 ∧ ((opState actDesc).ownVec 2 % 2 ^ 64) % 8 ≠ 0 ∧
    (opState []).core.deque.length < 32 ∧ (opState [] opUser {} { deque := List.replicate 32 {} }).core.deque.length = 32 ∧ (opState []).core.spillCap = 0 ∧ (opState []).storesDone 2 = true := by decide +kernel
/-- A whole-core capability of tag 5 to core 1 that is dispatched there: the field runs the tag. -/
def coreCap : Word := BitVec.ofNat 64 (5 * 2 ^ 46 + 2 ^ 28 + 15 * 2 ^ 14)
def boundHub : Hub := { unlisted := 0, runTag := 5, startup := 7, ctt := [(0, BitVec.ofNat 64 (2 ^ 63 + 5 * 2 ^ 54))] }
def atCore (r : Dest) : Bool :=
  match r with
  | .core _ => true
  | _ => false
theorem witness_capability_destinations : atCore ((opState [] opUser {} {} boundHub).destOf coreCap) = true ∧ coreCap.getLsbD 28 = true ∧ coreCap.getLsbD 15 = true ∧ coreCap.getLsbD 16 = true ∧ atCore ((opState [] opUser {} {} boundHub).destOf (capLow 15 0 &&& 0x003FFFFFFFFFFFFF)) = true := by decide +kernel
theorem witness_act_del (core : Nat) (s : State) (lo : Word) (h : bitsOf lo 13 0 = 0) (_ : s.destOf lo = .core core) : s.capGenuine lo (s.sealWord lo) = true := by simp [State.capGenuine, h]

/-- A launch header of owner 5 with 256 bytes of code and one item; a queue without a place. -/
def launchDesc : List Nat := [0x10000, 5 * 2 ^ 56 + 256 * 2 ^ 24, 0, 0, 0, 0, 0, 0]
def fullQueue : Hub := { unlisted := 0, runTag := 5, startup := 7, launches := (List.range 48).map (fun i => (i, { id := i })) ++ (List.range 4).map (fun i => (48 + i, { shared := false, depth := 1 })) }
def launchOk (s : State) (mask : List Nat) (c : Option Cause) : Bool :=
  match s.readDesc 0x100040 8 with
  | .ok d => s.launchCause d mask false = c
  | .error _ => false
theorem test_launch : after (exec (.launch (opR 0 11)) (opState launchDesc)) (fun t => t.hub.launches.length = 1 && (t.launchOf (t.x 11).toNat).isSome && t.cx.pc = 0x10108) = true := by decide +kernel
theorem witness_LaunchEntersTheQueue :
    runs (opState launchDesc) (.launch (opR 4 11)) = true ∧ runs (opState launchDesc) (.launch { opR 0 11 with opt := 1 }) = true ∧ (opState launchDesc).storesDone 4 = true ∧ (opState launchDesc { opUser with unFld := 1 }).storesDone 4 = false ∧
    launchOk (opState launchDesc) [0] none = true ∧ launchOk (opState launchDesc) [1] (some Cause.ownerMismatch) = true ∧ (opState launchDesc).hub.launchRoom 1 = some true ∧ (opState launchDesc opUser {} {} fullQueue).hub.launchRoom 1 = none ∧
    (opState launchDesc).cx.np = false ∧ (opState launchDesc).core.parkRoom = false ∧ fieldOfCtx 8 < 90 ∧ (opState launchDesc).hub.launches.has 0 = false := by decide +kernel

/-! ### Events: one state for every occasion -/

/-- The state whose event is about a payload. -/
def about (a : EvArg) (s : State) : State := { s with arg := a }
/-- Field 0 is in a start-up step. -/
def stepping (n : Nat) (a : EvArg := {}) : State := about a { State.reset with hubs := [(0, { startup := n })] }
/-- An image of one section by R26: magic, version, no payload beyond the table, and room for the signatures. -/
def image : List Nat :=
  [0x56, 0x4B, 0x43, 0x49, 1, 0, 1, 0, 7, 0, 0, 0, 0, 0, 0, 0, 0x30, 0, 0, 0, 0, 0, 0, 0, 0, 0, 0, 0, 0, 0, 0, 0] ++ [1, 0, 0, 0, 0x30, 0, 0, 0, 0, 0, 0, 0, 0, 0, 0, 0] ++ List.replicate (64 + 3309) 0
theorem witness_image_layout : imageLayoutOk image = true ∧ imageVersion image = 7 := by decide +kernel
/-- The image is the best one where its signatures verify, which `Config.imageSigned` leaves open (log 1). -/
theorem witness_best_image (h : Config.imageSigned image = true) : ({ stepping 2 with images := [(0, image)] } : State).bestImage 0 = some image := by
  have h1 : imageOk image = true := by simp [imageOk, witness_image_layout.1, h]
  have h2 : ((List.range 2).filter (fun i => !bitAt 0 i)) = [0, 1] := by decide +kernel
  simp [State.bestImage, h2, KMap.find?, Option.filter, h1]
theorem test_start_up : after (exec .startupRailsStable (stepping 1)) (fun t => (t.hubOf 0).startup = 2) = true ∧ after (exec .startupIdentityAtlas (stepping 3 { value := 1029 })) (fun t => (t.hubOf 0).startup = 4 && t.loith.device = 5) = true ∧
    after (exec .startupLinksUp (stepping 5 { value := 77 })) (fun t => t.rtime = 77) = true ∧ after (exec .powerOnReset (onD)) (fun t => t.ctxs = [] && t.rtime = 0) = true := by decide +kernel
def readyToRun : State := { State.reset with hubs := (List.range 90).map (fun f => (f, { startup := 6 })), arg := { list := [100, 50] } }
theorem test_device_ready : after (exec .deviceReady readyToRun) (fun t => t.loith.ready && (t.hubOf 1).startup = 7 && (t.hubOf 0).share = 100) = true := by decide +kernel
/-- Field 0 runs at N = 20 with a relock that ends at 3,000 ns and the rails as reset leaves them; tile 0 is powered. -/
def clockState (a : EvArg) (h : Hub := { unlisted := 0, startup := 7 }) : State := about a { State.reset with hubs := [(0, h)], tiles := [(0, { pwr := 0 })], rtime := 3000 }
theorem test_clock_write : after (exec .fclkctlWrite (clockState { value := 15 })) (fun t => (t.hubOf 0).curn = 15 && (t.hubOf 0).locking = some 6000) = true ∧ after (exec .fclkctlWrite (clockState { value := 9 })) (fun t => (t.hubOf 0).badn && (t.hubOf 0).curn = 20) = true ∧
    after (exec .relockEnd (clockState {} { locking := some 3000, pendn := some 12 })) (fun t => (t.hubOf 0).curn = 12 && (t.hubOf 0).locking = some 6000) = true := by decide +kernel
theorem test_rails : after (exec .railvWrite (clockState { value := 549 })) (fun t => (t.railOf 0).refused) = true ∧
    after (exec .pkgPowerLimit ({ clockState {} with bank := { overSince := some 0 }, rtime := 20001 } : State)) (fun t => t.bank.limit) = true ∧ after (exec .thermalLimit (clockState { unit := 5 })) (fun t => (t.tileOf 5).throttled) = true ∧
    after (exec .railOvercurrent (clockState { unit := 2, value := 9, other := 8 })) (fun t => (t.railOf 2).current = 9 && (t.railOf 2).power = 8) = true := by decide +kernel
theorem witness_StartUpClocksAndRails :
    (stepping 1).inStep 0 1 = true ∧ (State.reset).inStep 89 1 = true ∧ (State.reset).inStep 90 1 = false ∧ (stepping 2).inStep 0 2 = true ∧ (stepping 2).bestImage 0 = none ∧ (stepping 3).inStep 0 3 = true ∧ (stepping 4).inStep 0 4 = true ∧
    (stepping 5).inStep 0 5 = true ∧ readyToRun.canBeReady = true ∧
    (clockState {}).ceilingWith 0 none = 21 ∧ (9 < 10 ∧ 25 < 26 ∧ 21 % 32 = 21) ∧ (clockState {}).relockDue 0 = false ∧ (clockState {} { locking := some 3000 }).relockDue 0 = true ∧ (clockState {} { locking := some 3001 }).relockDue 0 = false ∧
    (clockState {} { locking := some 3000, pendn := some 12 }).relockDue 0 = true ∧ (List.range 90).all (fun f => ((clockState { unit := 1, value := 900 }).hubOf f).curn ≤ (clockState { unit := 1, value := 900 }).ceilingWith f (some (1, 740))) = true ∧
    (clockState { unit := 1 }).railNow 1 = 740 ∧ ({ clockState { unit := 1 } with rails := [(1, { busy := some 3000, set := 700 })] } : State).slewDue 1 = true ∧ (((clockState {}).tileOf (tileOfLocal 0 5)).powered = false ∧ (2 ^ 31 + 5).testBit 31 = true ∧ (2 ^ 31 + 5) % 128 < 120) ∧
    ((clockState {}).tileOf (tileOfLocal 0 0)).powered = true ∧ (clockState {}).bank.limit = false ∧ ({ clockState { value := 32000 } with bank := { limit := true } } : State).bank.limit = true := by decide +kernel

/-! Messages: field 0 runs tag 5, whose actor 0 of core 1 owns a REQ port 0 and a SYS port 2; the binding of its partition names tile 0. -/

def sysActor : Actor := { valid := true, owner := 5, ports := [(0, { word := 0x8010000000000000 + 7 * 2 ^ 58 }), (2, { word := 0xC000000000000000 + 7 * 2 ^ 58 })] }
def netState (a : EvArg) (k : Core := { actors := [(0, sysActor)] }) (h : Hub := boundHub) (c : KMap Ctx := []) : State :=
  about a { State.reset with hubs := [(0, h)], cores := [(1, k)], ctxs := c, parts := [(0, { valid := true, state := 1, tag := 5, fields := [0] })] }
/-- The message goes to port p of actor 0 of core 1 of its tag. -/
def actorCapTo : Word := BitVec.ofNat 64 (5 * 2 ^ 46 + 2 ^ 22 * 0 + 15 * 2 ^ 18 + 15 * 2 ^ 14 + 2 ^ 29)
def packet (vn port : Nat) (router : Option Nat := none) : Msg := { words := [1, 2], vn := vn, port := port, capLo := actorCapTo, core := 1, act := 0, tag := 5, srcCore := 3, router := router }
def hwPacket (cls : Nat) : Msg := { words := [BitVec.ofNat 64 (cls * 2 ^ 48)], hw := true, vn := 2, port := 2, capLo := actorCapTo, tag := 5 }
def destIs (d : Dest) (k : Nat) : Bool :=
  match d with
  | .core j => j = k
  | _ => false
def destRefused (d : Dest) : Bool :=
  match d with
  | .refused _ => true
  | _ => false
def taken (s : State) (m : Msg) (k a p owner : Nat) : Bool :=
  !s.tileStill (tileOfCore k) && decide ((s.hubOf (fieldOfTile (tileOfCore k))).runTag = owner) && s.restored (fieldOfTile (tileOfCore k)) && ((((s.coreOf k).actorAt a).portAt p).takeIn (s.withHandler m k a p)).isSome
def flyState (m : Msg) (h : Hub := boundHub) : State := { netState {} { actors := [(0, sysActor)] } h with flying := [m] }
theorem test_message_arrives : after (exec .messageArrival (flyState (packet 0 0))) (fun t => t.flying = [] && (((t.coreOf 1).actorAt 0).portAt 0).hwPart.length = 1) = true := by decide +kernel
/-- R417: a message waits for one that reached the same port before it. R166: a reply that waits in its port keeps its reservation's tag. -/
theorem test_port_order : (let early : Msg := { packet 0 0 with srcCore := 5, reached := 1 }
    ({ flyState { packet 0 0 with reached := 2 } with flying := [{ packet 0 0 with reached := 2 }, early] } : State).outrun { packet 0 0 with reached := 2 }) = true ∧
    Port.liveTags { word := BitVec.ofNat 64 (2 ^ 63 + 2 ^ 61), hwPart := [{ chan := 2, rtag := 6 }], resv := [4] } = [4, 6] := by decide +kernel
theorem test_packet_routes : after (exec .routePacket (flyState (packet 0 0 (some 3)))) (fun t => t.flying.map (fun m => (m.router, m.hops)) = [(some 2, 1)]) = true ∧ after (exec .routePacket (flyState (packet 0 0 (some 0)))) (fun t => t.flying.map (fun m => m.router) = [none]) = true := by
  decide +kernel
def injectable (m : Msg) : State := netState { unit := 1 } { actors := [(0, sysActor)], sendq := [(0, [m])] }
theorem witness_MessagesTravelAndArrive :
    (((injectable (packet 0 0)).coreOf 1).queue 0).head? = some (packet 0 0) ∧ (injectable (packet 0 0)).masked 0 = false ∧ (injectable (packet 0 0)).netFull 1 0 = false ∧ destIs ((injectable (packet 0 0)).injectTo (packet 0 0)) 1 = true ∧
    destRefused ((netState {}).injectTo { packet 0 0 with capLo := 0x4000 }) = true ∧ ((flyState (packet 0 0 (some 3))).routePort 3 0 0 = 3 ∧ (flyState (packet 0 0 (some 3))).linkUp 3 3 = true ∧ (flyState (packet 0 0 (some 3))).behindAnother 0 3 3 (packet 0 0 (some 3)) = false) ∧
    (flyState (packet 0 0 (some 0))).routePort 0 0 0 = 4 ∧ (flyState (packet 0 0 (some 3)) { boundHub with deadRouters := [2] }).linkUp 3 3 = false ∧ (3 : Nat) < 21600 ∧
    ((flyState (packet 0 0)).coreDark 1 = false ∧ (flyState (packet 0 0)).tileStill 0 = false ∧ ((flyState (packet 0 0)).hubOf 0).runTag = capOwner actorCapTo ∧ (flyState (packet 0 0)).restored 0 = true ∧ (flyState (packet 0 0)).stubAt 1 (packet 0 0) 5 = none ∧ (flyState (packet 0 0)).outrun (packet 0 0) = false) ∧
    ((((flyState (packet 0 0)).coreOf 1).actorAt 0).valid = true ∧ portEnabled (sysActor.portAt 0).word = true ∧ portKind (sysActor.portAt 0).word = 0 ∧ portKind (sysActor.portAt 2).word = 2 ∧ 2 ≤ portSize (sysActor.portAt 0).word + 1) ∧
    ({ sysActor.portAt 2 with hwPart := [packet 2 2] } : Port).takeIn (packet 2 2) = none ∧ ({ sysActor.portAt 0 with hwPart := [packet 0 0, packet 0 0] } : Port).takeIn (packet 0 0) = none ∧
    (netState {}).onTheWay actorCapTo = false ∧ (netState {}).hwTarget (hwPacket 0xFF90) = some (1, 0, 2, 5) ∧ taken (netState {}) (hwPacket 0xFF90) 1 0 2 5 = true ∧ (msgClass (hwPacket 0xFF90) ≠ 0xFF85 ∧ msgClass (hwPacket 0xFF90) ≠ 0xFF80) ∧
    isFaultClass (hwPacket 0xFE0F) = true ∧ (netState {}).bouncePort 1 { packet 1 2 with srcAct := some 0 } = some (1, 0, 2, 5) ∧ taken (netState {}) (packet 1 2) 1 0 2 5 = true ∧
    ((netState {}).ctlReady { wake := true, capLo := actorCapTo, srcCore := 3 } = true ∧ (netState {}).masked 2 = false ∧ (netState {}).capCoreId actorCapTo = some 1 ∧ destIs ((netState {}).injectTo ({ wake := true, capLo := actorCapTo, srcCore := 3 } : CtlPkt).asMsg) 1 = true ∧
      (netState {}).pathCause 1 0 2 = none ∧ capWhole actorCapTo = false ∧ capAct actorCapTo = 0) := by decide +kernel
theorem test_wake_delivery : after (exec .haltDelivery ({ netState {} with ctls := [{ wake := false, capLo := actorCapTo, srcCore := 3 }] } : State)) (fun t => t.ctls = [] && ((t.coreOf 1).actorAt 0).halted) = true := by decide +kernel
theorem test_hardware_messages : after (exec .hwMessageDeferred (netState {} { actors := [(0, sysActor)] } { boundHub with waiting := [hwPacket 0xFF90] })) (fun t => (((t.coreOf 1).actorAt 0).portAt 2).hwPart.length = 1 && (t.hubOf 0).waiting = []) = true ∧
    after (exec .faultQueueDrain (netState {} { actors := [(0, sysActor)] } { boundHub with faultq := [hwPacket 0xFE0F] })) (fun t => (t.hubOf 0).faultq = []) = true := by decide +kernel

/-! Work at core 1 of tile 0, whose field runs tag 5 and whose tile is on. -/

def wordsOf (l : List Nat) : List Word := l.map (BitVec.ofNat 64)
def coreState (a : EvArg) (k : Core := {}) (h : Hub := boundHub) (c : KMap Ctx := []) (more : KMap Core := []) : State :=
  { netState a k h c with tiles := [(0, { pwr := 0 }), (1, { pwr := 0 })], cores := (1, k) :: more }
def readyActor : Actor := { sysActor with ports := [(0, { word := 0x8011000000000000 + 7 * 2 ^ 58, hwPart := [{ words := [0x10008] }] })] }
def tableMem : Memory := actDesc.zipIdx.foldl (fun m p => m.writeLE (gpaKey (tileGpa 0 (8 * p.2))) 8 p.1) []
def actorReady : State := { coreState { unit := 1 } { actors := [(0, readyActor)] } with mem := tableMem }
theorem test_actor_starts : after (exec .firingStart actorReady) (fun t => (t.ctxOf 8).occ && (t.ctxOf 8).pc = 0x10008 && (t.ctxOf 8).codehi = 0x10100 && ((t.core.actorAt 0).busy)) = true := by decide +kernel
def lEntry (ranges : List (Nat × Nat × Nat)) (mask : List Nat := [0]) : Launch := { id := 9, header := wordsOf launchDesc, tag := 5, mask := mask, runners := [0], ranges := ranges, open_ := 4, host := true }
def launchHub (e : Launch) : Hub := { boundHub with launches := [(0, e)] }
theorem test_items_and_tasks_start : after (exec .poolFiringStart (coreState { unit := 1 } { held := [(9, 0, 0)] } (launchHub (lEntry [])))) (fun t => (t.ctxOf 8).occ && (t.ctxOf 8).pc = 0x10000 && t.core.held = []) = true ∧
    after (exec .taskStart (coreState { unit := 1 } { deque := [{ words := [0x10010], tag := 5, codelo := 0x10000, codehi := 0x20000 }] })) (fun t => (t.ctxOf 8).occ && (t.ctxOf 8).pc = 0x10010 && t.core.deque = []) = true := by decide +kernel
theorem test_pull_and_steal : after (exec .ticketPull (coreState { unit := 1 } {} (launchHub (lEntry [(0, 0, 4)])))) (fun t => t.core.held = [(9, 0, 0)]) = true ∧
    after (exec .ticketSteal (coreState { unit := 1 } {} (launchHub (lEntry [(1, 0, 4)] [0, 1])))) (fun t => t.core.held = [(9, 3, 0)]) = true ∧
    after (exec .taskSteal (coreState { unit := 1 } {} boundHub [] [(3, { deque := [{ tag := 5 }] })])) (fun t => t.core.deque.length = 1 && (t.coreOf 3).deque = []) = true := by decide +kernel
def footHeader : List Nat := [0x10000, 5 * 2 ^ 56 + 256 * 2 ^ 24, 0x100 * 2 ^ 36, 0, 0x1000 + 2 ^ 53, 0, 0, 0]
def footState : State := coreState { unit := 1 } { held := [(9, 0, 0)], utlb := [localPage 0] } { launchHub { lEntry [] with header := wordsOf footHeader } with tlb := [localPage 0] }
def parkedIn (st : Nat) : State := coreState { unit := 1, other := 64 } {} boundHub [(8, { user with st := st })]
def parkedAway : State := coreState { unit := 1, other := 5 } { parked := [(5, { user with st := 3 })] }
theorem test_resume : after (exec .parkResume (parkedIn 3)) (fun t => (t.ctxOf 8).st = 0 && (t.ctxOf 8).pc = 0x10100) = true ∧ after (exec .parkResume parkedAway) (fun t => (t.ctxOf 8).occ && (t.core.parked = [])) = true := by decide +kernel
def dormantOp : Op := { state := 3, dorm := true, dctx := 2, capLo := actorCapTo, sending := some { words := [0x10008], capLo := actorCapTo } }
def dormantState : State := { coreState { unit := 0, other := 4 } {} boundHub [(10, { codelo := 0x10000, codehi := 0x20000 })] with tiles := [(0, { pwr := 0, ops := [(4, dormantOp)] })] }
def overLaunch : State := coreState { unit := 9 } {} (launchHub { lEntry [] with open_ := 0 })
def hungState : State := { coreState { unit := 1 } {} boundHub [(8, user)] with rtime := 1000000 }
def stalledState : State := { coreState { unit := 8 } { wdogEn := true, wdogLimit := 1 } boundHub [(8, { user with stall := some (0, 1) })] with rtime := 1000 }
theorem test_reports : after (exec .wdogReport stalledState) (fun t => (t.ctxOf 8).reported) = true ∧ after (exec .dormantStart dormantState) (fun t => (t.ctxOf 10).occ && (t.ctxOf 10).pc = 0x10008 && (t.opAt 0 4).state = 0) = true ∧
    after (exec .launchComplete overLaunch) (fun t => t.loith.events = 1 && (t.hubOf 0).launches = []) = true := by decide +kernel
theorem witness_WorkStartsOnCores :
    actorReady.firstCand 1 = some (.actor 0) ∧ actorReady.freeSlot 1 = some 8 ∧ readyActor.trigger = some 0 ∧ ((readyActor.portAt 0).head).isSome = true ∧ readyActor.descStale (actorReady.descAt 1 0) = false ∧
    (coreState { unit := 1 } { held := [(9, 0, 0)] } (launchHub (lEntry []))).firstCand 1 = some (.pool 9 0) ∧ ((coreState { unit := 1 } {} (launchHub (lEntry []))).launchOf 9).isSome = true ∧ Header.dbl (lEntry []).header = false ∧
    (coreState { unit := 1 } { deque := [{ tag := 5 }] }).firstCand 1 = some .task ∧ ((coreState { unit := 1 } {} (launchHub (lEntry [(0, 0, 4)]))).pullOf 1).isSome = true ∧
    ((coreState { unit := 1 } {} (launchHub (lEntry [(1, 0, 4)] [0, 1]))).ticketSteal 1).isSome = true ∧ (coreState { unit := 1 } {} boundHub [] [(3, { deque := [{ tag := 5 }] })]).taskVictim 1 = some 3 ∧
    footState.footWanted 1 = some (9, 0, 0, 0) ∧ footState.tileStill 0 = false ∧
    (match footState.copyRun 1 5 0 3 0x100000 (gpaKey (tileGpa 0 0x100000)) 0x1000 [] with
    | .ok _ => true
    | .error _ => false) = true ∧
    ((parkedIn 3).resumable 1).contains 64 = true ∧ (parkedIn 3).underTest 1 = false ∧ ((parkedIn 3).hubOf 0).sw.step = 0 ∧ (parkedAway.resumable 1).contains 5 = true ∧ parkedAway.freeSlot 1 = some 8 ∧ (parkedAway.tileOf 0).pwr = 0 ∧
    ((dormantState.opAt 0 4).sending.isSome = true ∧ destIs (dormantState.injectTo { words := [0x10008], capLo := actorCapTo }) 1 = true ∧ capDev actorCapTo = dormantState.loith.device ∧ (dormantState.ctxOf 10).occ = false ∧ (dormantState.tileOf 0).powered = true) ∧
    overLaunch.launchOver 9 = true ∧ hungState.hangDue 1 = true ∧ stalledState.wdogDue 8 = true := by decide +kernel

/-! After the issue: engines, operations, barriers. -/

def ringState (x : RingXfer) : State := { coreState { unit := 0 } with rings := [x] }
def xfer (p : Nat) : RingXfer := { src := 0, dst := 1, latch := 1, contents := bLatch, phase := p }
theorem test_ring : after (exec .ringTransfer (ringState (xfer 0))) (fun t => (t.rings.map (fun y => y.phase) = [1]) && ((t.tileOf 1).eng.latchAt 1).pend) = true ∧ after (exec .ringTransfer (ringState (xfer 2))) (fun t => t.rings = [] && ((t.tileOf 1).eng.latchAt 1).valid) = true := by decide +kernel
def opAtWork (o : Op) (a : EvArg := { unit := 0, other := 2 }) : State :=
  { coreState a { utlb := [localPage 0] } { boundHub with tlb := [localPage 0] } with tiles := [(0, { pwr := 0, ops := [(2, o)] })], mem := [(gpaKey (tileGpa 0 0), 5)] }
def copyOp (src dst : Nat) : Op := { state := 1, kind := 5, core := 1, ctx := 0, firing := 7, tag := 5, desc := wordsOf [src, dst, 16, 0, 0, 0, 0, 0] }
def itemOk (s : State) (sent : Bool) : Bool :=
  match s.opItem 0 (s.opAt 0 2) sent with
  | .ok _ => true
  | .error _ => false
def itemFails (s : State) : Bool :=
  match s.opItem 0 (s.opAt 0 2) false with
  | .error (.fail _) => true
  | _ => false
def itemSuspends (s : State) : Bool :=
  match s.opItem 0 (s.opAt 0 2) false with
  | .error (.suspend _ _ _) => true
  | _ => false
def due (s : State) : Bool := decide ((s.opAt 0 2).state = 1) && decide ((s.opAt 0 2).cursor < (s.opAt 0 2).total) && decide ((s.opAt 0 2).offload = []) && s.copyTurn 0 (s.opAt 0 2) && !s.tileStill 0 && decide (s.mcastDark (s.opAt 0 2) = [])
/-- A gather whose first index is outside its table of no rows. -/
def failingOp : State := opAtWork { copyOp 0 0 with kind := 1, desc := wordsOf [0x100000, 0x100000, 0x100400, 4, 8, 0, 0, 0] }
def offloaded (a : EvArg := { unit := 0, other := 2, value := 1, flag := true }) (r : Nat := 0) : State := { opAtWork { copyOp 0x100000 0x100100 with offload := [(1, 0, 0)] } a with rtime := r }
theorem test_operation_pieces : after (exec .operationPiece (opAtWork (copyOp 0x100000 0x100100))) (fun t => t.mem.read (gpaKey (tileGpa 0 0x100)) = 5 && (t.opAt 0 2).okItems = (t.opAt 0 2).cursor) = true ∧
    after (exec .offloadReply (offloaded)) (fun t => (t.opAt 0 2).firstCause = Cause.offloadReject) = true ∧ after (exec .operationComplete (opAtWork { copyOp 0 0 with state := 3 })) (fun t => (t.opAt 0 2).state = 0) = true := by decide +kernel
/-- An arrival on barrier 255 of field 0; that barrier's oldest ply is ply 10. -/
def arriving (o : Barrier) (e m : Nat) : State :=
  { barState o with arg := { value := 2 }, net := [{ id := 2, kind := .arrival, ctx := 8, firing := 7, gpa := 0x3FF * 2 ^ 54 + 3 * 2 ^ 52 + 0x300000 + 0x400 * 255, size := 8, data := e, data2 := m, tag := 5 }] }
theorem test_barrier_events : after (exec .barrierArrival (arriving { barObj with lead := [(2, 1)] } 6 2)) (fun t => (t.barAt 0 255).bal.get 0 3 = 6 && t.net.map (fun a => a.result) = [some (.value 11)]) = true ∧
    after (exec .barrierTimeout (about { other := 255 } (barState { barObj with arr := [(2, 3)] }))) (fun t => (t.barAt 0 255).oldest = 11 && (t.barAt 0 255).hist % 8 = 0) = true := by decide +kernel
def delivering : State := opAtWork { copyOp 0x100000 0x100100 with desc := wordsOf [0, 0, 16, 0, 0, 0, 0, 10 * 2 ^ 32 + 2 ^ 31 + 255], deliv := [(0, 16)] }
theorem witness_EnginesOperationsAndBarriersProgress :
    ({ coreState { unit := 0 } with tiles := [(0, { eng := { inFlight := true } })] } : State).occupancyOver 0 = true ∧ (ringState (xfer 0)).ringDue 0 = true ∧ (ringState (xfer 1)).ringDue 0 = true ∧ (ringState (xfer 2)).ringDue 0 = true ∧
    due (opAtWork (copyOp 0x100000 0x100100)) = true ∧ itemOk (opAtWork (copyOp 0x100000 0x100100)) false = true ∧ due (opAtWork (copyOp 0x100000 0x300100)) = true ∧ itemSuspends (opAtWork (copyOp 0x100000 0x300100)) = true ∧
    due failingOp = true ∧ itemFails failingOp = true ∧ ((offloaded).opAt 0 2).offload.any (fun e => e.1 = 1) = true ∧ itemOk (offloaded { unit := 0, other := 2, value := 1 }) true = true ∧ ((1, 0, 0) ∈ ((offloaded {} 10000000).opAt 0 2).offload ∧ 0 + 10000000 ≤ (offloaded {} 10000000).rtime) ∧
    (tailStat ((opAtWork { copyOp 0 0 with state := 3 }).opAt 0 2).desc = 0 ∧ ((opAtWork { copyOp 0 0 with state := 3, word := some 8, dorm := true }).opAt 0 2).deliv = []) ∧
    ((arriving barObj 6 2).accOf 2).isSome = true ∧ (arriving barObj 6 2).masked 0 = false ∧ ((arriving barObj 6 2).hubOf 0).locking = none ∧ (arriving barObj 6 2).wayCause 0 (0x3FF * 2 ^ 54 + 3 * 2 ^ 52 + 0x300000 + 0x400 * 255) = none ∧
    gpaHub (0x3FF * 2 ^ 54 + 3 * 2 ^ 52 + 0x300000 + 0x400 * 255) = 0 ∧ (delivering.opAt 0 2).deliv = [(0, 16)] ∧ tailRef (delivering.opAt 0 2).desc = 255 ∧
    ({ barObj with arr := [(2, 3)] } : Barrier).oldestStatus 0 = some 0 ∧ (({ barObj with arr := [(2, 3)] } : Barrier).finishPly 0 0).oldestStatus 0 = none := by decide +kernel

/-! Replies, walks, streams and errors. -/

def replied (r : Option AccResult) (reach : Nat := 0) (kind : AccKind := .load) (hold : Option Nat := some 2) (rt : Nat := 0) : State :=
  { coreState { value := 2, list := [99] } {} boundHub [(8, { user with hold := hold, unFld := 1 })] with
    rtime := rt, net := [{ id := 2, kind := kind, ctx := 8, firing := 7, va := 0x100040, gpa := tileGpa 0 0x40, size := 8, tag := 5, reach := reach, result := r }] }
theorem test_replies : after (exec .accessReply (replied (some (.value 77)))) (fun t => (t.ctxOf 8).reply = some (.value 77) && t.net = []) = true ∧
    after (exec .storeAck (replied (some (.failed 0x11 1)) 1 .store none)) (fun t => (t.ctxOf 8).unFld = 0 && (t.ctxOf 8).perm = 1) = true := by decide +kernel
/-- Four levels of tables in HBM from the root of the partition to the page at VA 0x100000. -/
def tableFrame (n : Nat) : Nat := 0x3FF * 2 ^ 54 + 2 ^ 52 + n * 2 ^ 16
def tables : Memory :=
  [(1, 0, tableFrame 2 + 3), (2, 0, tableFrame 3 + 3), (3, 0, tableFrame 4 + 3), (4, 16, 5 * 2 ^ 120 + tileGpa 0 0 + 0xED)].foldl (fun m p => m.writeLE (gpaKey (tableFrame p.1) + 16 * p.2.1) 16 p.2.2) []
def walkState : State := { coreState { unit := 1, tag := 5, addr := 0x100040 } {} { boundHub with troots := [(0, tableFrame 1 + 1)] } with mem := tables }
theorem test_page_walk : after (exec .pageWalk walkState) (fun t => t.core.utlb.map (fun e => (e.va, e.level)) = [(0x100000, 0)] && (t.hubOf 0).tlb.length = 1) = true := by decide +kernel
def invHub : Hub := { boundHub with tlbq := [(5, 0x100, 1, 0)], tlb := [localPage 0] }
theorem test_invalidation : after (exec .tlbinvDone (coreState {} {} invHub)) (fun t => (t.hubOf 0).tlbq = [] && (t.hubOf 0).tlbDone = 1) = true ∧ after (exec .tlbinvHighWrite (coreState { tag := 5, value := 0x100 })) (fun t => (t.hubOf 0).tlbIssued = 1) = true ∧
    after (exec .tlbinvLowWrite (coreState { tag := 5, value := 0x100 })) (fun t => (t.hubOf 0).tlbLow.length = 1) = true := by decide +kernel
def filling : State := { coreState { value := 9 } with misses := [(9, {})], net := [{ id := 2, kind := .load, fills := [9], gpa := tileGpa 0 0x40, size := 8 }] }
def syncing : State := { coreState { value := 9 } with syncs := [{ line := 9 }] }
theorem test_lines_and_records : after (exec .sliceFill filling) (fun t => t.cached.has 9 && t.net.all (fun a => a.fills = [])) = true ∧ after (exec .syncRecordClear syncing) (fun t => t.syncs = []) = true := by decide +kernel
/-- The stream of the core, as bound by a firing of tag 5, and the event's payload. -/
def streamWork (s : State) : State := { (s.updCore 1 (fun k => { k with streams := k.streams.map (fun e => (e.1, { e.2 with tag := 5 })) })) with arg := { unit := 1, other := 2 } }
def inStream : State := streamWork (streamed 0 4 0 [])
def outStream : State :=
  let s := streamWork (streamed 1 4 0 [6])
  s.updCore 1 (fun k => { k with streams := k.streams.map (fun e => (e.1, { e.2 with outs := [([(0x100000, tileGpa 0 0, 32)], 6)] })) })
theorem test_stream_steps : after (exec .streamInputFill inStream) (fun t => (t.core.streamAt 2).fifo = [0] && (t.core.streamAt 2).fetched = 1) = true ∧
    after (exec .streamOutputStore outStream) (fun t => t.net.map (fun a => (a.kind, a.data, a.size)) = [(.store, 6, 32)]) = true := by decide +kernel
def errorAt (level : Nat) (a : EvArg := {}) : State := coreState { a with level := level } {} boundHub [(8, { user with tag := 9 })]
def poisonedPort : State := coreState { level := 4, unit := 1, other := 0, addr := 0 } { actors := [(0, { sysActor with ports := [(0, { word := 0x8010000000000000, hwPart := [packet 0 0] })] })] }
theorem test_errors : after (exec .ueDetect (errorAt 0 { addr := 9 })) (fun t => t.poison = [9]) = true ∧ after (exec .ueDetect (errorAt 2 { unit := 8, list := [3] })) (fun t => (t.ctxOf 8).st = 1) = true ∧
    after (exec .ueDetect poisonedPort) (fun t => t.flying.length = 1 && (((t.coreOf 1).actorAt 0).portAt 0).hwPart = []) = true ∧ after (exec .ueDetect (about { level := 5, other := 255 } (barState))) (fun t => t.barAt 0 255 = {}) = true := by decide +kernel
def waitsB (s : State) : Bool := (s.ctxOf 8).occ && (s.ctxOf 8).firing = 7 && (s.ctxOf 8).hold = some 2
def stepIn (s : State) : Bool := (s.inputStep 1 2 (s.core.streamAt 2)).isSome
theorem witness_RepliesFillsWalksAndErrors :
    waitsB (replied (some (.value 77))) = true ∧ waitsB (replied (some (.failed 0x11 0))) = true ∧ (replied none).tileStill 0 = false ∧ ((replied (some (.value 1))).accOf 2).any (fun a => (replied none).wayBack a) = true ∧ waitsB (replied none 3) = true ∧
    waitsB (replied none 3 .load (some 2) 10000000) = true ∧ ((replied (some (.value 0)) 2 .store none).accOf 2).any (fun a => a.silent && decide (a.reach < 3)) = true ∧ ((replied none).ctxs.all (fun e => e.2.killed = 0)) = true ∧
    filling.homeStill (lineGpa 9) = false ∧ walkState.partOfTag 5 = some 0 ∧ bitAt ((walkState.hubOf 0).troots.get 0 0) 0 = true ∧
    (match walkState.walk 0x100040 5 (accOfCode 0) 4 (bitsAt ((walkState.hubOf 0).troots.get 0 0) 63 16) 3 with
    | .ok (e, lvl) => decide (e.kind ≠ 4) && decide (lvl = 0)
    | .error _ => false) = true ∧ (coreState {} {} invHub).tlbDue 0 = true ∧
    (inStream.tileStill 0 = false ∧ (inStream.core.streamAt 2).fault = none ∧ (inStream.core.streamAt 2).fetched < (inStream.core.streamAt 2).total ∧ inStream.streamOpen (inStream.core.streamAt 2) = true ∧ stepIn inStream = true) ∧
    ((outStream.core.streamAt 2).output = true ∧ outStream.streamOpen (outStream.core.streamAt 2) = true ∧ (outStream.core.streamAt 2).outs.length = 1 ∧ outStream.unackRoom 8 7 0 = true) ∧
    ((errorAt 2 { unit := 8, list := [15] }).ctxOf 8).st = 0 ∧ ((((poisonedPort.coreOf 1).actorAt 0).portAt 0).hwPart[0]?).isSome = true ∧ ((barState).barAt 0 255).valid = true := by decide +kernel

/-! Registers and the debug page. -/

def hubReg (off value : Nat) : State := coreState { addr := 0x3FF * 2 ^ 54 + 3 * 2 ^ 52 + off, value := value, other := 8, tag := 0, level := 2 }
theorem test_register_writes : after (exec .registerWrite (hubReg 0x20 77)) (fun t => (t.hubOf 0).idle = 77) = true ∧ after (exec .registerWrite (hubReg 0x18 (2 ^ 31 + 5))) (fun t => (t.hubOf 0).rookEn && (t.hubOf 0).rookPeriod = 5) = true ∧
    after (exec .dqcfgWrite (coreState { unit := 1, value := 3 * 2 ^ 22 + 0x1000 })) (fun t => t.core.spillCap = 3 && t.core.spillBase = 0x1000) = true ∧ after (exec .actcfgWrite (coreState { unit := 1, value := 0x2000 })) (fun t => t.core.actBase = 0x2000) = true ∧
    after (exec .parkcfgWrite (coreState { unit := 1, value := 64 * 2 ^ 22 + 0x400 })) (fun t => t.core.parkCap = 64 && t.core.parkBase = 0x400) = true := by decide +kernel
/-- R399: chip 1 holds offset 2^30 by R114, and offset 256 under a stripe of 256 bytes. -/
theorem test_stripe_moves_data : after (exec .capstripeWrite ({ coreState { unit := 4, value := 2 ^ 63 + 8 * 2 ^ 24 + 1 * 2 ^ 10 } with mem := [(2 * 2 ^ 52 + 2 ^ 30, 9)] } : State))
    (fun t => t.mem = [(2 * 2 ^ 52 + 256, 9)]) = true := by decide +kernel
theorem test_counters_and_stripes : after (exec .cntcfgWrite (coreState { unit := 1, other := 2, value := 2 ^ 63 + 3 })) (fun t => (t.core.counters.get {} 2).en && (t.core.counters.get {} 2).event = 3) = true ∧
    after (exec .capstripeWrite (coreState { unit := 4, value := 2 ^ 63 + 30 * 2 ^ 24 + 3 * 2 ^ 10 + 950 })) (fun t => (t.stripes.get {} 4).valid && (t.stripes.get {} 4).len = 3) = true ∧
    after (exec .opcmdResume (opAtWork { copyOp 0 0 with state := 2, cause := 9 })) (fun t => (t.opAt 0 2).state = 1) = true ∧ after (exec .opcmdFail (opAtWork { copyOp 0 0 with state := 2, cause := 9 })) (fun t => (t.opAt 0 2).stop = 9) = true ∧
    after (exec .opcmdBad (opAtWork (copyOp 0 0))) (fun t => (t.opAt 0 2).cmderr) = true := by decide +kernel
def dbgState (st value : Nat) (f : Ctx → Ctx := id) : State := coreState { unit := 8, value := value, tag := 5 } {} boundHub [(8, f { user with st := st, frozenPc := 0x10080 })]
theorem test_debug_commands : after (exec .dbgStop (dbgState 0 1 (fun c => { c with tag := 9 }))) (fun t => (t.ctxOf 8).st = 1 && (t.dbgOf 8).lastcmd = 1) = true ∧ after (exec .dbgResume (dbgState 1 2)) (fun t => (t.ctxOf 8).st = 0 && (t.ctxOf 8).pc = 0x10100) = true ∧
    after (exec .dbgRestart (dbgState 1 3)) (fun t => (t.ctxOf 8).pc = 0x10080) = true ∧ after (exec .dbgSkip (dbgState 1 4)) (fun t => (t.ctxOf 8).pc = 0x10108) = true ∧ after (exec .dbgStep (dbgState 1 5)) (fun t => (t.ctxOf 8).stepping) = true ∧
    after (exec .dbgKill (dbgState 1 6)) (fun t => !(t.ctxOf 8).occ) = true ∧ after (exec .dbgCmdBad (dbgState 0 7)) (fun t => (t.dbgOf 8).result ≠ 0) = true := by decide +kernel
/-- The whole-core capability of the boundHub's core with the inspect right, its low half stored already. -/
def attachCap : Word := coreCap + 2 ^ 29
def attachState : State := { coreState { unit := 8, other := 16, tag := 5, value := (State.reset.sealWord attachCap).toNat } {} boundHub [(8, user)] with dbgs := [(8, { capLow := attachCap })] }
theorem witness_dbg_attach : attachState.attachCause 8 attachCap (attachState.sealWord attachCap) 5 = none := by
  have h : bitsOf attachCap 13 0 = 0 := by decide +kernel
  have h2 : attachState.capCoreId attachCap = some 1 := by decide +kernel
  have h3 : capHas attachCap rightInspect = true := by decide +kernel
  have h4 : capOwner attachCap = 5 := by decide +kernel
  have h5 : capWhole attachCap = true := by decide +kernel
  have h6 : coreOfCtx 8 = 1 := by decide +kernel
  simp [State.attachCause, State.capGenuine, h, h2, h3, h4, h5, h6]
theorem witness_RegistersAndDebugCommandsAct :
    (hubReg 0x20 77).gpaRefuses (0x3FF * 2 ^ 54 + 3 * 2 ^ 52 + 0x20) 8 .write false 0 0 2 = none ∧ gpaSpace (hubReg 0x20 77).arg.addr = 3 ∧ (hubReg 0x20 77).gpaLocal (hubReg 0x20 77).arg.addr = true ∧ (hubReg 0x20 77).bankPaused = false ∧
    (hubReg 0x18 7).gpaRefuses (hubReg 0x18 7).arg.addr 8 .write false 0 0 2 = none ∧ shareRegister (hubReg 0x18 7).arg.addr = false ∧ gpaHubOff (hubReg 0x18 7).arg.addr = 0x18 ∧
    (((coreState { unit := 1, other := 2 } { counters := [(2, { value := 2 ^ 48 })] }).countersOf 0 1).get {} 2).value = 2 ^ 48 ∧ (coreState {}).stripes = [] ∧ bitAt (2 ^ 63) 63 = true ∧ ((opAtWork (copyOp 0 0)).opAt 0 2).state ≠ 2 ∧
    (dbgState 0 1).dbgPends 8 5 = false ∧ ((dbgState 0 1).pageFiring 8).map (fun p => (p.1, p.2.st, p.2.hold)) = some (.slot, 0, none) ∧ ((dbgState 1 6).pageFiring 8).map (fun p => (p.1, p.2.st, p.2.unack, p.2.killed, p.2.ueLines)) = some (.slot, 1, 0, 0, []) ∧
    ((dbgState 1 6 (fun c => { c with unFld := 1 })).ctxOf 8).unack ≠ 0 ∧ (dbgState 0 7).dbgVerdict 8 7 ≠ 0 ∧ (attachState.dbgOf 8).capLow ≠ 0 := by decide +kernel

/-! The fabric and the start of issue. -/

def fabric (a : EvArg) (h : Hub := { unlisted := 0, startup := 7, rookEn := true }) (c : KMap Ctx := []) (k : Core := {}) (l : Loith := { ready := true }) (rt : Nat := 0) : State :=
  { State.reset with arg := a, hubs := [(0, { h with unlisted := 0 })], cores := [(1, k)], ctxs := c, tiles := [(0, { pwr := 0 })], loith := l, rtime := rt, cur := 8 }
theorem test_atlas : after (exec .atlasStatusWrite (fabric { value := 3, other := 260 })) (fun t => (t.atlasRec 0 260).status = 3) = true ∧ after (exec .linkRetryLimit (fabric { other := 266, value := 3, level := 65 })) (fun t => (t.atlasRec 0 266).status = 1 && (t.atlasRec 0 266).caps = 5) = true ∧
    after (exec .ualinkPortDark (fabric { unit := 3 })) (fun t => t.loith.darkPorts = [3]) = true ∧ after (exec .fabricInterfaceDark (fabric { unit := 1, flag := true })) (fun t => t.loith.darkChips = [1]) = true := by decide +kernel
theorem test_time : after (exec .rtimeSyncLost (fabric {} {} [] {} { ready := true, parent := true } 100000000)) (fun t => t.loith.lost) = true ∧ after (exec .bridgeTakeover (fabric { flag := true, value := 5 })) (fun t => t.loith.bridge = some 5) = true ∧
    after (exec .hub0Takeover (fabric {})) (fun t => t.loith.hub0Dark && t.bank.takeoverAt = some 0) = true ∧ after (exec .hub89Dark (fabric {})) (fun t => t.loith.hub89Dark) = true := by decide +kernel
/-- A rook that waited 2 ms for core 1 of tile 0; one that has tested it; one whose core has a task that waits. -/
def rookHub : Hub := { unlisted := 0, startup := 7, rookEn := true, rookFirst := [(0, 1, 1, 0)] }
def busyRook : Hub := { unlisted := 0, startup := 7, rookEn := true, rookBusy := true, rookUnit := 1 }
def rookUser (np : Bool) : Ctx := { user with np := np }
def mismatched : State :=
  { fabric { unit := 8, other := 24, flag := true } with ctxs := [(8, { user with pairCtx := some 24, pool := true }), (24, { user with pairCtx := some 8, pool := true, firing := 8 })] }
theorem test_rook : after (exec .rookPassStart (fabric {} { startup := 7, rookEn := true } [] {} { ready := true } 5)) (fun t => (t.hubOf 0).rookRan) = true ∧ after (exec .rookTestDone (fabric {} busyRook [] { deferrals := 3 } { ready := true } 9)) (fun t => t.core.deferrals = 0 && t.core.tested = 9) = true ∧
    after (exec .doublesMismatch mismatched) (fun t => !(t.ctxOf 8).occ && !(t.ctxOf 24).occ) = true := by decide +kernel
def issueFault (w : Nat) (c : Ctx → Ctx := id) : State :=
  let s := State.reset.placeDoubleword w
  { s with arg := { unit := s.cur }, ctxs := s.ctxs.map (fun e => (e.1, c e.2)) }
def fetchBad (s : State) : Bool :=
  match ({ s with cur := s.arg.unit } : State).fetch with
  | .bad _ => true
  | _ => false
def fetchIllegal (s : State) : Bool :=
  match ({ s with cur := s.arg.unit } : State).fetch with
  | .ok d _ => (bundleCause d (s.ctxOf s.arg.unit).long (s.ctxOf s.arg.unit).level).any (fun e => e.cause = .illegalOpcode)
  | _ => false
def longSection : State := { issueFault 0 (fun c => { c with np := true, npstart := 0 }) with now := 2 ^ 60, rtime := 2 ^ 50 }
theorem test_issue_faults : after (exec .codeFetchFault (issueFault 0 (fun c => { c with pc := 4, tag := 9 }))) (fun t => (t.ctxOf 8).st = 1) = true := by decide +kernel
theorem witness_FabricEventsAct :
    ((fabric {}).atlasRec 0 260).status ≤ 2 ∧ ((fabric { other := 260 } { startup := 7, atlas := [(260, { kind := 5, status := 3 })] }).atlasRec 0 260).status = 3 ∧
    ((fabric {}).atlasRec 0 266).kind = 0x09 ∧ ((fabric {}).atlasRec 0 269).kind = 0x0A ∧ ((fabric {}).atlasRec 0 269).status < 2 ∧ (fabric {} { startup := 7, rookEn := true }).passDue 0 = true ∧ (fabric {} rookHub [(8, rookUser true)] {} {} 2000000).rookWaited 0 = true ∧
    (fabric {} rookHub [] {} {} 2000000).rookDue 0 = some (0, 1, some 0) ∧ coreOfCtx 8 = rookCore 0 1 ∧ 1 + (roomyPark).parked.length ≤ min 64 roomyPark.parkCap ∧ (rookUser false).hold = none ∧ (fabric {} busyRook).testDone 0 = true ∧
    (fabric {} busyRook [] { deque := [{}] } {} 1000).abandonDue 0 = true ∧ mismatched.isPair 8 24 = true ∧ (fabric {} {} [] {} { ready := true, parent := true } 100000000).syncLostDue = true ∧ (fabric {}).loith.hub0Dark = false ∧
    ({ fabric {} {} [] {} { ready := true, hub0Dark := true } with bank := { takeoverAt := some 3 } } : State).bank.takeoverAt.isSome = true ∧ (fabric {}).loith.hub89Dark = false ∧ (fabric {} {} [] {} { device := 3 }).loith.bridge ≠ some 3 ∧
    ({ fabric { unit := 2 } with loith := { sessions := [(2, { gapSince := some 0 })] }, rtime := 100000000 } : State).gapDue 2 = true ∧ ({ longSection with cur := 8 } : State).sectionLong = true ∧ (longSection.ctxOf 8).occ = true ∧ (longSection.ctxOf 8).st = 0 ∧
    fetchIllegal (issueFault (0x1F000000 * 2 ^ 32)) = true ∧ fetchBad (issueFault 0 (fun c => { c with pc := 4 })) = true ∧ ((issueFault 0).ctxOf 8).occ = true := by decide +kernel

/-! More occasions of what follows the issue: an item on a chip, a multicast with a dark path, the record and the word of a completion. -/

def tierPage : TlbEntry := { page (0x3FF * 2 ^ 54 + 2 * 2 ^ 52 + 0x10000) 0x2D with va := 0x110000 }
def onChip : State :=
  let o := { copyOp 0 0 with kind := 1, desc := wordsOf [0x110000, 0x100000, 0x100400, 16 * 2 ^ 32 + 1, 8 * 2 ^ 40 + 8 * 2 ^ 16 + 8, 0, 0, 0] }
  { coreState { unit := 0, other := 2 } {} { boundHub with tlb := [localPage 0, tierPage] } with tiles := [(0, { pwr := 0, ops := [(2, o)] })] }
def itemStops (p : OpStop → Bool) (s : State) : Bool :=
  match s.opItem 0 (s.opAt 0 2) false with
  | .error e => p e
  | .ok _ => false
def stopOffload (e : OpStop) : Bool :=
  match e with
  | .offload => true
  | _ => false
def stopPart (e : OpStop) : Bool :=
  match e with
  | .part _ _ _ => true
  | _ => false
/-- A multicast of 16 bytes from tile 0 to those of tiles 0, 1 and 2 that a mask names; some routers are dead. -/
def castState (dead : List Nat) (mask : Nat := 7) : State :=
  let o := { copyOp 0 0 with kind := 6, desc := wordsOf [0x100000, 2 * 2 ^ 43 + 0x100, 16, 0, mask, 0, 0, 0] }
  { coreState { unit := 0, other := 2 } {} { boundHub with tlb := [localPage 0], deadRouters := dead } with
    tiles := [(0, { pwr := 0, ops := [(2, o)] }), (1, { pwr := 0 }), (2, { pwr := 0 })], mem := [(gpaKey (tileGpa 0 0), 5)] }
/-- An operation at its end, with a status record at VA 0x100200 or a word for a completion to port 0 of actor 0. -/
def endState (o : Op) : State := { opAtWork o with cores := [(1, { actors := [(0, sysActor)] })] }
def endsNow (s : State) : Bool :=
  let o := s.opAt s.arg.unit s.arg.other
  decide (s.tileStill s.arg.unit = false) && o.sending.isNone && decide (o.deliv = []) && (decide (o.state = 3) || (decide (o.state = 1) && decide (o.total ≤ o.cursor)))
def withRecord : Op := { copyOp 0 0 with state := 3, desc := wordsOf [0, 0, 16, 0, 0, 0, 0x100200, 0] }
def withWord : Op := { copyOp 0 0 with state := 3, pool := true, word := some 8, capLo := actorCapTo }
def recordGoes (s : State) : Bool :=
  let o := (ending s).opAt 0 2
  match (ending s).opMap 0 o (tailStat o.desc) (32 + 16 * o.errs.length) .write with
  | .ok ps => (match (ending s).opWrite 0 o ps (o.record 2 s.rtime) with
    | .ok _ => true
    | .error _ => false)
  | .error _ => false
theorem test_offload_and_multicast :
    after (exec .operationPiece onChip) (fun t => (t.opAt 0 2).offload = [(0, 1, 0)]) = true ∧
    after (exec .operationPiece (castState [])) (fun t => t.mem.read (gpaKey (tileGpa 2 0x100)) = 5 && (t.opAt 0 2).okItems = 16) = true ∧
    after (exec .operationPiece (castState [1] 5)) (fun t => t.mem.read (gpaKey (tileGpa 0 0x100)) = 5 && (t.opAt 0 2).failed = 16 && (t.opAt 0 2).cursor = 16) = true := by decide +kernel
theorem test_completions :
    after (exec .operationComplete (endState withRecord)) (fun t => t.mem.readLE (gpaKey (tileGpa 0 0x200)) 8 = 2 ^ 62 + 2 * 2 ^ 28 && (t.opAt 0 2).state = 0) = true ∧
    after (exec .operationComplete (endState withWord)) (fun t => t.flying.map (fun m => (m.core, m.port, m.words.getD 0 0)) = [(1, 0, 11)]) = true := by decide +kernel
theorem witness_EnginesOperationsAndBarriersProgress_stops :
    due onChip = true ∧ itemStops stopOffload onChip = true ∧ due (castState [1] 5) = true ∧ itemStops stopPart (castState [1] 5) = true ∧ (castState [1] 5).mcastDark ((castState [1] 5).opAt 0 2) = [] ∧
    endsNow (endState withRecord) = true ∧ tailStat ((endState withRecord).opAt 0 2).desc ≠ 0 ∧ recordGoes (endState withRecord) = true ∧
    endsNow (endState withWord) = true ∧ tailStat ((endState withWord).opAt 0 2).desc = 0 ∧ capDev actorCapTo = (endState withWord).loith.device ∧
    ((ending (endState withWord)).completionPort ((ending (endState withWord)).completion 0 2 8) = some (1, 0, 0, 0) ∧ (endState withWord).masked 0 = false ∧
      destIs ((ending (endState withWord)).injectTo { (ending (endState withWord)).completion 0 2 8 with core := 1, act := 0, port := 0, vn := 0, router := some 0 }) 1 = true) := by decide +kernel
theorem witness_StartUpClocksAndRails_limits :
    (State.inStep (stepping 1 { level := 1 }) 0 1 = true ∧ (stepping 1 { level := 1 }).arg.level = 1) ∧ ({ clockState {} with bank := { overSince := some 0 }, rtime := 20001 } : State).limitDue = true ∧
    ({ clockState {} with bank := { limit := true, underSince := some 0 }, rtime := 1000000 } : State).clearDue = true ∧ ({ clockState {} with bank := { limit := true, underSince := some 1 }, rtime := 1000000 } : State).clearDue = false := by decide +kernel
theorem test_startup_failure_and_limit_clear : after (exec .startupRailsStable (stepping 1 { level := 1 })) (fun t => (t.hubOf 0).dark && (t.hubOf 0).startup = 1) = true ∧
    after (exec .powerLimitClear { clockState {} with bank := { limit := true, underSince := some 0 }, rtime := 1000000 }) (fun t => !t.bank.limit) = true := by decide +kernel
/-- The first exchange of time in step 5, a hub that stands in for hub 0, and a fetch that finds poison. -/
theorem test_time_and_takeover : after (exec .timeExchange (stepping 5 { list := [0, 5000, 5000, 0] })) (fun t => t.loith.epoch) = true ∧
    after (exec .hub0Takeover { fabric {} {} [] {} { ready := true, hub0Dark := true } with bank := { takeoverAt := some 3 } }) (fun t => t.bank.onmirror && t.bank.takeoverAt = none) = true ∧
    after (exec .codeFetchFault (let s := issueFault 0; { s with arg := { s.arg with flag := true } })) (fun t => (t.ctxOf 8).cause = Cause.ueCode) = true := by decide +kernel
def fetchGood (s : State) : Bool :=
  match ({ s with cur := s.arg.unit } : State).fetch with
  | .ok _ _ => true
  | _ => false
theorem witness_FabricEventsAct_time : (stepping 5).loith.epoch = false ∧ (stepping 5).loith.ready = false ∧ (stepping 5).inStep 0 5 = true ∧ (List.range 90).all (fun f => !(stepping 4).inStep f 5) = true ∧ fetchGood (issueFault 0) = true := by decide +kernel
/-- A message of the leader's core at its queue's head, with the same one at the follower's: the two cores of a pair. -/
def paired : State :=
  let m := { packet 0 0 with pair := 1, srcCore := 1 }
  { injectable m with cores := [(1, { actors := [(0, sysActor)], sendq := [(0, [m])] }), (3, { sendq := [(0, [{ m with pair := 2, srcCore := 3 }])] })] }
theorem test_pair_injects_once : after (exec .messageInject paired) (fun t => t.flying.length = 1 && (t.coreOf 1).queue 0 = [] && (t.coreOf 3).queue 0 = []) = true := by decide +kernel
theorem witness_MessagesTravelAndArrive_pair : (((paired.coreOf 1).queue 0).head?.bind (fun m => paired.partnerHead 1 0 m)).isSome = true ∧ (((paired.coreOf 1).queue 0).head?.map (fun m => m.pair)) = some 1 ∧ paired.masked 0 = false ∧ paired.netFull 1 0 = false ∧
    destIs (paired.injectTo (packet 0 0)) 1 = true ∧ (flyState { packet 0 0 (some 0) with exit := some 3 }).portDark 3 = false := by decide +kernel

/-! Bankers, leases, ballast, the pacer, gating and the shuffle: fields 0 and 1 of partition 0, whose tag is 5; tile 0 of field 0. -/

def bankHub (share : Nat) : Hub := { unlisted := 0, startup := 7, runTag := 5, run := some 0, share := share }
def bankState (a : EvArg := {}) (h0 : Hub := bankHub 10) (h1 : Hub := bankHub 10) (x : Tile := { pwr := 0 }) (b : Bank := {}) (rt : Nat := 0) : State :=
  { State.reset with arg := a, hubs := [(0, h0), (1, h1)], tiles := [(0, x)], bank := b, rtime := rt, loith := { ready := true },
                     parts := [(0, { valid := true, state := 1, tag := 5, fields := [0, 1] })] }
def wanting (n : Nat) : Tile := { pwr := 0, req := some { target := n, cls := 1 } }
def lentLease (st until_ : Nat) : Lease := { valid := true, dir := 0, st := st, peer := 0, count := 2, dur := 100, until_ := until_ }
def borrowed : Lease := { valid := true, dir := 1, peer := 1, count := 2, dur := 100 }
def leased (a : EvArg) (st until_ rt : Nat) : State := bankState a { bankHub 0 with leases := [(3, borrowed)] } { bankHub 10 with leases := [(4, lentLease st until_)] } {} {} rt
theorem test_grants_and_shortfalls : after (exec .bankerGrant (bankState {} (bankHub 10) (bankHub 10) (wanting 2) { ramp := 0 })) (fun t => (t.tileOf 0).h = 2 && (t.tileOf 0).hclass = 1 && (t.tileOf 0).req = none) = true ∧
    after (exec .shortfallCover (bankState {} (bankHub 1) (bankHub 10) (wanting 3))) (fun t => (t.hubOf 0).asks = [1] && (t.hubOf 0).coverLeft = 2) = true := by decide +kernel
theorem test_leases_begin : after (exec .leaseRequest (bankState {} { bankHub 1 with asks := [1], coverLeft := 2 })) (fun t => (t.hubOf 0).answer = some (1, 2, 200, 0) && ((t.hubOf 1).leases.get {} 0).count = 2) = true ∧
    after (exec .leaseAnswer (bankState {} { bankHub 1 with answer := some (1, 2, 200, 0), coverLeft := 2 })) (fun t => ((t.hubOf 0).leases.get {} 0).count = 2 && (t.hubOf 0).answer = none) = true := by decide +kernel
theorem test_leases_renew_and_end : after (exec .leaseRenewal (leased { other := 3 } 0 0 98000)) (fun t => ((t.hubOf 0).leases.get {} 3).start = 100000 && ((t.hubOf 1).leases.get {} 4).start = 100000) = true ∧
    after (exec .leaseEnd (leased { unit := 1, other := 4 } 1 2000 2000)) (fun t => ((t.hubOf 1).leases.get {} 4).valid = false && ((t.hubOf 0).leases.get {} 3).valid = false) = true := by decide +kernel
def noticed (e rt : Nat) : State := bankState {} (bankHub 10) (bankHub 10) { pwr := 0, h := 3, hclass := 2, notices := [{ oldh := 3, newh := 1, effect := e, reason := 1 }] } {} rt
theorem test_notices_and_shares : after (exec .revocationEffect (noticed 5 5)) (fun t => (t.tileOf 0).h = 1 && (t.tileOf 0).notices = []) = true ∧
    after (exec .pshareWrite (bankState { unit := 3, value := 2 ^ 31 + 20001 })) (fun t => t.bank.prefused.get false 3) = true ∧ after (exec .bkshareWrite (bankState { value := 7 })) (fun t => (t.hubOf 0).share = 7) = true ∧
    after (exec .bkgshareWrite (bankState { other := 2, value := 9 })) (fun t => (t.hubOf 0).gshares.get 0 2 = 9 && (t.hubOf 0).share = 10) = true := by decide +kernel
theorem test_ramp_and_floor : after (exec .rampwWrite (bankState { value := 99 })) (fun t => t.bank.rampBad) = true ∧ after (exec .rampwWrite (bankState { value := 100 })) (fun t => t.bank.ramp = 100) = true ∧
    after (exec .floorwWrite (bankState { value := 24001 })) (fun t => t.bank.floorBad) = true ∧ after (exec .floorwWrite (bankState { value := 24000 })) (fun t => t.bank.floor = 24000) = true := by decide +kernel
/-- With FLOORW of 24,000 and a share of 200 the floor is 200 pips; the field's FREE covers 200, its one powered engine 4. -/
def ballasting : State := bankState {} (bankHub 200) (bankHub 10) { pwr := 0 } { floor := 24000 } 5000
def plyOf (d : Nat) : PlyReport := { device := d, owner := 5, ply := 9, since := 1000, arrivals := [(0, 21000)], others := 51000 }
def reported (b : Bank) (a : EvArg := {}) : State := bankState a { bankHub 10 with pace := true } (bankHub 10) {} b 60000
theorem test_ballast_and_pacer : after (exec .ballastUpdate ballasting) (fun t => (t.hubOf 0).ball = 4 && (t.hubOf 0).floorUnmet && (t.hubOf 0).tick = 5) = true ∧
    after (exec .pacerReport (reported { paceEn := true, plyReports := [plyOf 0] })) (fun t => (t.hubOf 0).slack = 30 && (t.hubOf 0).plydur = 20 && (t.hubOf 0).plies = 1) = true ∧
    after (exec .pacerReport (reported { lastPlies := [(3, 7, 8, 500)] } { flag := true, unit := 3, other := 7, value := 9, list := [0, 0, 21000, 3, 1, 51000] })) (fun t => t.bank.plyReports.map (fun r => (r.since, r.others, r.arrivals)) = [(500, 51000, [(0, 21000)])]) = true ∧
    after (exec .pacerReport (reported { lastPlies := [(3, 7, 9, 500)] } { flag := true, unit := 3, other := 7, value := 9 })) (fun t => t.bank.plyReports = []) = true := by decide +kernel
def gated (x : Tile) (rt : Nat) (a : EvArg := {}) : State := bankState a (bankHub 10) (bankHub 10) x {} rt
theorem test_gating : after (exec .tileIdleGate (gated { pwr := 0, h := 3, hclass := 2, idleSince := some 0 } 50000)) (fun t => (t.tileOf 0).pwr = 1 && (t.tileOf 0).recH = 3 && (t.tileOf 0).h = 0) = true ∧
    after (exec .gatingHoldEnd (gated { pwr := 1 } 20000)) (fun t => (t.tileOf 0).pwr = 2) = true ∧ after (exec .tilepwrWakeWrite (gated { pwr := 2 } 7 { value := 4 })) (fun t => (t.tileOf 0).wake = some (1, 7)) = true ∧
    after (exec .wakePromotion (gated { pwr := 2, wake := some (1, 0) } 200000)) (fun t => (t.tileOf 0).wake = some (3, 0)) = true := by decide +kernel
theorem test_waking : after (exec .wakeStart (gated { pwr := 2, wake := some (1, 0) } 9)) (fun t => (t.tileOf 0).pwr = 3 && (t.tileOf 0).wakingTo = 5009) = true ∧
    after (exec .wakeComplete (gated { pwr := 3, wakingTo := 9, recH := 4, recClass := 2 } 9)) (fun t => (t.tileOf 0).pwr = 0 && (t.tileOf 0).req.map (fun r => (r.target, r.cls)) = some (4, 2)) = true ∧
    after (exec .wakeStart { gated { pwr := 2, wake := some (1, 0) } 9 with rails := (List.range 4).map (fun r => (r, { cur := 550, set := 550 })) }) (fun t => (t.tileOf 0).wakeRefused && (t.hubOf 0).railRefused) = true := by decide +kernel
/-- Partition 0 shuffles every 1 ms; its logical tile 0 of the dense kind is at tile 0, whose next place is tile 1 of the two tiles in service. -/
def shuffling (ms : List Migration := []) : State :=
  { bankState {} { bankHub 10 with ctt := [(0, BitVec.ofNat 64 (2 ^ 63 + 5 * 2 ^ 54))] } (bankHub 10) { pwr := 0 } { shufEn := [(0, true)], shufPeriod := [(0, 1000)] } 1000000 with migrations := ms }
theorem test_shuffle : after (exec .shuffleStep (shuffling [{ tag := 5, shuffle := true }])) (fun t => t.bank.shufSkips.get 0 0 = 1 && t.bank.shufLast.get 0 0 = 1000000) = true := by decide +kernel
theorem witness_BankersLeasesAndGating :
    (bankState {} (bankHub 10) (bankHub 10) (wanting 2) { ramp := 0 }).grantNow 0 = some (0, { target := 2, cls := 1 }, 2, 0) ∧
    ((bankState {} (bankHub 1) (bankHub 10) (wanting 3)).shortfall 0 = some (0, { target := 3, cls := 1 }, 2) ∧ (bankState {} (bankHub 1) (bankHub 10) (wanting 3)).recallable 0 = [] ∧ (bankState {} (bankHub 1) (bankHub 10) (wanting 3)).inProgress 0 0 < 2 ∧
      (bankState {} (bankHub 1) (bankHub 10) (wanting 3)).otherFields 0 = [1] ∧ (bankHub 1).coverFor = none ∧ (bankHub 1).borrow = true ∧ (bankHub 1).freeLease = some 0) ∧
    (bankState {}).bankPaused = false ∧ (bankState {} { bankHub 1 with asks := [1], coverLeft := 2 }).mayLend 1 0 = true ∧ (bankState {} { bankHub 1 with asks := [1], coverLeft := 2 } { bankHub 10 with lend := false }).mayLend 1 0 = false ∧
    (borrowed.renewalDue 98000 = true ∧ borrowed.renewalDue 97999 = false ∧ ((leased {} 0 0 98000).hubOf 1).leaseLike 0 0 borrowed = some 4 ∧ (leased {} 0 0 98000).mayLend 1 0 = true) ∧
    (leased {} 1 2000 2000).leaseEndDue (lentLease 1 2000) = true ∧ (leased {} 1 2000 1999).leaseEndDue (lentLease 1 2000) = false ∧
    (bankState {} { bankHub 0 with leases := [(3, { borrowed with st := 2 })] } (bankHub 10) {} {} 9).aloneEndDue 0 { borrowed with st := 2 } = true ∧
    (noticed 5 5).noticeDue 0 = true ∧ (noticed 5 4).noticeDue 0 = false ∧ ballasting.ballastDue 0 = true ∧ (bankState {}).ballastDue 0 = false ∧
    ({ lastPlies := [(3, 7, 9, 500)] } : Bank).lastPly 3 7 = some (9, 500) ∧ ({} : Bank).lastPly 3 7 = none ∧
    (gated { pwr := 0, idleSince := some 0 } 50000).gateDue 0 = true ∧ (gated { pwr := 0, idleSince := some 0 } 49999).gateDue 0 = false ∧ (bitAt 4 2 = true ∧ (gated { pwr := 2 } 7).bankPaused = false) ∧
    (gated { pwr := 2, wake := some (1, 0) } 200000).promotionDue 0 = true ∧ (gated { pwr := 2, wake := some (1, 0) } 199999).promotionDue 0 = false ∧
    (gated { pwr := 2, wake := some (1, 0) } 9).wakeStartDue 0 = some 0 ∧ (gated { pwr := 2, wake := some (1, 0) } 9).wakeBreaksCeiling 0 = false ∧
    ({ gated { pwr := 2, wake := some (1, 0) } 9 with rails := (List.range 4).map (fun r => (r, { cur := 550, set := 550 })) } : State).wakeStartDue 0 = some 0 ∧
    ({ gated { pwr := 2, wake := some (1, 0) } 9 with rails := (List.range 4).map (fun r => (r, { cur := 550, set := 550 })) } : State).wakeBreaksCeiling 0 = true ∧
    (gated { pwr := 3, wakingTo := 9 } 9).wakeDone 0 = true ∧ (gated { pwr := 3, wakingTo := 9 } 8).wakeDone 0 = false ∧ (shuffling).shuffleDue 0 = true ∧ ({ shuffling with rtime := 999999 } : State).shuffleDue 0 = false := by decide +kernel

/-! Commands of session 2, bound to endpoint 4, as frames laid out by R80 and bodies by R84. -/

def frameOf (op : Nat) (body : List Nat) : List Nat := leBytes 2 op ++ leBytes 2 0 ++ leBytes 4 body.length ++ leBytes 8 1 ++ leBytes 2 0 ++ leBytes 2 2 ++ List.replicate 12 0 ++ body
def cmdState (op : Nat) (body : List Nat) (tag : Nat := 0) (h : Hub := bankHub 10) : State :=
  { bankState { value := 4, list := frameOf op body } h (bankHub 10) with
    loith := { ready := true, sessions := [(2, { valid := true, endpoint := 4, tag := tag })] },
    parts := [(0, { valid := true, state := 1, tag := 5, fields := [0, 1] }), (1, { valid := true, state := 2, tag := 6, fields := [0, 1] })] }
/-- The occasion of a frame, as `frameGoes` and `commandGoes` have it. -/
def frameArrives (s : State) (op : Nat) : Bool :=
  let b := s.frameArg
  let q := s.sessionOf (frameSession b)
  decide (frameOp b = op) && s.answers && s.bank.takeoverAt.isNone && !s.passesOn b && s.frameMine b && !s.loith.imageBad && s.loith.ready && q.valid && decide (q.endpoint = s.arg.value) && decide (frameSeq b = q.next) &&
    decide (q.held = []) && decide (q.outstanding.length < 64) && s.mayRun op
def goes (s : State) (op : Nat) : Bool := frameArrives s op && !frameBad s.frameArg && (decide (op < 6) || decide (11 < op) || decide ((s.sessionOf (frameSession s.frameArg)).tag = 0))
/-- The frames sent, as opcode and status. -/
def sent (s : State) : List (Nat × Nat) := s.loith.out.map (fun f => (f.opcode, f.status))
def launchBody : List Nat := launchDesc.flatMap (leBytes 8) ++ leBytes 16 1
def hbm (o : Nat) : Nat := 0x3FF * 2 ^ 54 + 2 ^ 52 + o
def copyCmd : State := { cmdState 2 (leBytes 8 (hbm 0x10000) ++ leBytes 8 (hbm 0x20000) ++ leBytes 8 16 ++ leBytes 2 0xFFFF ++ List.replicate 6 0) with mem := [(gpaKey (hbm 0x10000), 5)] }
def flipCmd (gen : Nat) : State := cmdState 7 (leBytes 4 gen ++ leBytes 1 15 ++ leBytes 3 0 ++ leBytes 4 0 ++ leBytes 4 0)
def stageCmd : State := cmdState 6 (leBytes 2 0 ++ leBytes 2 5 ++ leBytes 2 1 ++ leBytes 2 0 ++ leBytes 8 7)
/-- Partition 2 of tag 7 in the fields of the group, with its field images at 2 MiB in HBM. -/
def createBody (tag : Nat) : List Nat :=
  leBytes 1 2 ++ leBytes 1 tag ++ leBytes 1 10 ++ leBytes 1 0 ++ leBytes 2 0 ++ leBytes 2 0 ++ leBytes 16 3 ++ leBytes 8 (hbm (2 ^ 21)) ++ leBytes 8 0 ++ List.replicate 0xB8 0
def switchCmd : State := cmdState 9 (leBytes 16 3 ++ leBytes 1 1 ++ leBytes 7 0)
def policyCmd : State := cmdState 10 (leBytes 3 0x10008 ++ leBytes 1 1 ++ leBytes 4 0 ++ leBytes 8 77)
def resetCmd : State := cmdState 11 (leBytes 8 0) 0 { bankHub 10 with image := some 7 }
theorem test_query_and_bad_command : after (exec .query (cmdState 3 [])) (fun t => sent t = [(0x8003, 0)]) = true ∧ after (exec .loithBadCommand (cmdState 3 [1])) (fun t => sent t = [(0x8003, 4)]) = true ∧
    after (exec .atlasRead (cmdState 5 (leBytes 4 0 ++ leBytes 2 1 ++ leBytes 2 0) 5)) (fun t => sent t = [(0x8005, 5)]) = true ∧ after (exec .attest (cmdState 12 (List.replicate 32 1))) (fun t => sent t = [(0x800C, 2)]) = true := by decide +kernel
theorem test_launch_and_copy : after (exec .loithLaunch (cmdState 1 launchBody 5)) (fun t => (t.loith.out.map (fun f => (f.opcode, f.status))).head? = some (0x8001, 0) && (t.hubOf 0).launches.length = 1) = true ∧
    after (exec .copy copyCmd) (fun t => sent t = [(0x8002, 0)] && t.mem.read (gpaKey (hbm 0x20000)) = 5) = true := by decide +kernel
theorem test_routes : after (exec .routeStage stageCmd) (fun t => (t.hubOf 0).staged.get 0 81 = 7 && (t.hubOf 0).rstate = 1) = true ∧ after (exec .routeFlip (flipCmd 1)) (fun t => t.flip.map (fun p => (p.gen, p.mask, p.deadline)) = some (1, 15, 1000000)) = true ∧
    after (exec .routeFlip (flipCmd 2)) (fun t => sent t = [(0x8007, 2)]) = true := by decide +kernel
theorem test_platform_commands : after (exec .partCreate (cmdState 8 (createBody 5))) (fun t => sent t = [(0x8008, 2)]) = true ∧ after (exec .partSwitch switchCmd) (fun t => (t.hubOf 0).sw.incoming = 1 && (t.hubOf 1).sw.step = 1) = true ∧
    after (exec .pipPolicy policyCmd) (fun t => (t.hubOf 1).share = 77 && sent t = [(0x800A, 0)]) = true ∧ after (exec .fieldReset resetCmd) (fun t => (t.hubOf 0).startup = 3 && t.loith.resetting = [(2, 1, 0)]) = true := by decide +kernel
theorem test_resync : after (exec .resync (cmdState 4 [])) (fun t => (t.loith.out.head?).any (fun f => decide (f.opcode = 0x8004) && decide (f.status = 0))) = true := by decide +kernel
def flipping (p : Flip) (fly : List Msg := []) (rt : Nat := 0) : State :=
  { bankState {} { bankHub 10 with rstate := 2, active := [(1, 5)], staged := [(1, 9)] } with flip := some p, flying := fly, rtime := rt }
theorem test_flip_ends : after (exec .routeDrainComplete (flipping { gen := 4, mask := 15, session := 2, seq := 9 })) (fun t => (t.hubOf 0).active = [(1, 9)] && (t.hubOf 0).rgen = 4 && t.flip = none) = true ∧
    after (exec .routeDrainTimeout (flipping { gen := 4, mask := 15, deadline := 9 } [packet 0 0 (some 3)] 9)) (fun t => (t.hubOf 0).active = [(1, 5)] && (t.hubOf 0).rresult = 1 && (t.hubOf 0).rstate = 1) = true := by decide +kernel
/-- Fields 0 and 1 at a step of their switch from partition 0 to partition 1. -/
def switchState (w : Switch) (c : KMap Ctx := []) (rt : Nat := 1000000) (k : Core := {}) : State :=
  { cmdState 3 [] with hubs := [(0, { bankHub 10 with group := [0, 1], sw := w }), (1, { bankHub 10 with group := [0, 1] })], ctxs := c, cores := [(1, k)], rtime := rt,
                       parts := [(0, { valid := true, state := 1, tag := 5, fields := [0, 1], quant := 1 }), (1, { valid := true, state := 2, tag := 6, fields := [0, 1] })] }
theorem test_switch_begins : after (exec .quantumEnd (switchState {})) (fun t => (t.hubOf 0).sw = { step := 1, start := 1000000, incoming := 1, expired := false } && (t.hubOf 1).sw.step = 1) = true ∧
    after (exec .qlimExpiry (switchState { step := 1, incoming := 1 } [(8, user)] 100000 roomyPark)) (fun t => (t.ctxOf 8).occ && (t.ctxOf 8).st = 3 && t.core.parked = [] && (t.hubOf 0).sw.expired) = true := by decide +kernel
theorem test_switch_ends : after (exec .quiesceEnd (switchState { step := 1, incoming := 1 })) (fun t => (t.hubOf 0).runTag = 6 && (t.hubOf 0).sw.step = 3 && (t.partOf 0).state = 3) = true ∧
    after (exec .switchRestoreEnd (switchState { step := 3, incoming := 1 })) (fun t => (t.hubOf 0).sw = {} && (t.hubOf 0).swCount = 1) = true := by decide +kernel
/-- Logical tile 0 of the dense kind of tag 5, at tile 0, is to move to tile 1, whose byte 16 of local store is 3. -/
def moving (g : Migration) (a : EvArg := {}) (more : List Nat := []) : State :=
  { bankState a { bankHub 10 with ctt := [(0, BitVec.ofNat 64 (2 ^ 63 + 2 ^ 62 + 5 * 2 ^ 54))], looked := [(0, [7])] } with
    tiles := [(0, { pwr := 0, h := 2 }), (1, { pwr := 0 })], mem := [(gpaKey (tileGpa 0 16), 3)], migrations := [g], flying := more.map (fun _ => packet 0 0) }
def mig (n : Nat) : Migration := { tag := 5, oldTile := 0, newTile := 1, step := n }
def emptyMoved : Moved := { tile := { h := 2, hclass := 1 }, store := [(16, 3)] }
def arrivingTile : State := { moving { mig 4 with image := some emptyMoved } with mem := [], tiles := [(0, {}), (1, { pwr := 0 })] }
def asked : State := { moving (mig 1) { flag := true, value := 0, other := 1 } with migrations := [] }
theorem test_migration_moves : after (exec .migrationCopy asked) (fun t => t.migrations = [mig 1]) = true ∧
    after (exec .migrationCopy (moving (mig 1))) (fun t => t.migrations.map (fun g => (g.step, g.image.isSome)) = [(4, true)] && t.mem = []) = true ∧
    after (exec .migrationCopy arrivingTile) (fun t => t.migrations.map (fun g => (g.step, g.markers.length)) = [(6, 4)] && t.mem.read (gpaKey (tileGpa 1 16)) = 3 && (t.tileOf 1).h = 2) = true := by decide +kernel
theorem test_migration_ends : after (exec .migrationMarker (moving { mig 6 with markers := [(7, 0), (7, 1)] } { unit := 7, other := 1 })) (fun t => t.migrations.map (fun g => g.markers) = [[(7, 0)]]) = true ∧
    after (exec .migrationCopy (moving { mig 6 with stub := [packet 0 0] })) (fun t => t.migrations.map (fun g => g.stub) = [[]] && t.flying.map (fun m => (m.core, m.fwd)) = [(3, true)]) = true ∧
    after (exec .migrationRelease (moving (mig 6))) (fun t => t.migrations = [] && cttHold (t.cttEntry 5 0 0) = false) = true := by decide +kernel
theorem witness_CommandsSwitchesAndMigrations_sessions :
    (goes (cmdState 1 launchBody 5) 1 = true ∧ Header.malformed (bodyHeader launchBody) = false ∧ Header.owner (bodyHeader launchBody) = 5 ∧ fieldSet (leAt launchBody 0x40 16) = [0] ∧ (cmdState 1 launchBody 5).fieldsOfTag 5 = [0, 1] ∧
      (cmdState 1 launchBody 5).runTiles (bodyHeader launchBody) [0] ≠ [] ∧ (cmdState 1 launchBody 5).savedMember 0 5 = none ∧ (((cmdState 1 launchBody 5).hubOf 0).launchRoom 0).isSome = true ∧ ((cmdState 1 launchBody 5).hubOf 0).launches.has 0 = false) ∧
    (goes copyCmd 2 = true ∧ copyCmd.ownsRun 0 (hbm 0x10000) 16 = true ∧ copyCmd.ownerOut 0 = false ∧ copyCmd.gpaLocal (hbm 0x20000) = true ∧ gpaSpace (hbm 0x20000) = 1 ∧ copyCmd.runPoisoned (hbm 0x20000, 16) = false ∧
      copyCmd.copyStop 0 (hbm 0x10000) 16 .read = none ∧ copyCmd.copyStop 0 (hbm 0x20000) 16 .write = none ∧ hbm 0x10000 % 128 + 16 ≤ 128) ∧
    goes (cmdState 3 []) 3 = true ∧ goes (cmdState 4 []) 4 = true ∧ goes (cmdState 5 (leBytes 4 0 ++ leBytes 2 1 ++ leBytes 2 0) 5) 5 = true ∧ goes (cmdState 12 (List.replicate 32 1)) 12 = true ∧ (cmdState 12 (List.replicate 32 1)).signingHub = none ∧
    ({ cmdState 12 (List.replicate 32 1) with loith := { identity := [0] } } : State).signingHub = some 0 := by decide +kernel
theorem witness_CommandsSwitchesAndMigrations_platform :
    goes stageCmd 6 = true ∧ stageCmd.stageable (frameBody stageCmd.frameArg) = true ∧ goes (flipCmd 1) 7 = true ∧ (List.range 90).all (fun f => ((flipCmd 1).badStaged f).isNone) = true ∧ (flipCmd 1).genNow = 0 ∧
    ({ flipCmd 1 with hubs := [(0, { bankHub 10 with staged := [(16, 2 ^ 63 + 5 * 2 ^ 56)] })] } : State).badStaged 0 = some 16 ∧
    (goes (cmdState 8 (createBody 5)) 8 = true ∧ (cmdState 8 (createBody 5)).partRefused (partBody (createBody 5)) = some 0 ∧ (cmdState 8 (createBody 7)).partRefused (partBody (createBody 7)) = none) ∧
    (goes switchCmd 9 = true ∧ fieldSet (leAt (frameBody switchCmd.frameArg) 0 16) = [0, 1] ∧ leAt (frameBody switchCmd.frameArg) 16 1 = 1 ∧ (switchCmd.partOf 1).valid = true ∧ (switchCmd.partOf 1).fields = [0, 1] ∧ (switchCmd.hubOf 0).sw.step = 0 ∧ (switchCmd.hubOf 1).sw.step = 0 ∧
      (switchCmd.hubOf 0).run ≠ some 1) ∧
    (goes policyCmd 10 = true ∧ leAt (frameBody policyCmd.frameArg) 0 3 = 0x10008 ∧ policyCmd.policyRegister 1 0x10008 = true) ∧ (goes resetCmd 11 = true ∧ resetCmd.loith.resetting = [] ∧ (resetCmd.hubOf 0).image.isSome = true) ∧
    frameArrives (cmdState 3 [1]) 3 = true ∧ frameBad (cmdState 3 [1]).frameArg = true := by decide +kernel
theorem witness_CommandsSwitchesAndMigrations_ends :
    (flipping { gen := 4, mask := 15 }).drained = true ∧ (flipping { gen := 4, mask := 15, deadline := 9 } [packet 0 0 (some 3)] 9).drainLate = true ∧ (flipping { gen := 4, mask := 15, deadline := 9 } [packet 0 0 (some 3)] 8).drainLate = false ∧
    sameBank [(1, 5)] [(1, 9)] = false ∧ (((switchState {}).hubOf 0).nextMember = some 1 ∧ (switchState {}).quantumOver 0 = true ∧ ({ switchState {} with rtime := 999999 } : State).quantumOver 0 = false) ∧
    ((switchState { step := 1, incoming := 1 } [(8, user)] 100000 roomyPark).qlimDue 0 = true ∧ (switchState { step := 1, incoming := 1 } [(8, user)] 100000 roomyPark).runningIn 0 = [8] ∧ user.hold = none ∧
      ((switchState { step := 1, incoming := 1 } [(8, user)] 100000 roomyPark).coreOf 1).parkRoom = true ∧ (switchState {} [(8, user)]).migrations = [] ∧ (rookUser true).np = true ∧ (switchState { step := 1, incoming := 1 } [(8, user)] 99999).qlimDue 0 = false) ∧
    (switchState { step := 1, incoming := 1 }).quiet 0 = true ∧ (switchState { step := 1, incoming := 1 } [(8, user)]).quiet 0 = false ∧ ((switchState {}).hubOf 0).run = some 0 ∧ (switchState { step := 3, incoming := 1 }).restoreDue 0 = true ∧ (switchState {}).dbgs = [] := by decide +kernel
def putOk (s : State) (g : Migration) (t : Nat) (m : Moved) : Bool := (s.putImage g t m).isSome
/-- The engine of the migration's new tile has gone dark. -/
def darkNew : State := { moving { mig 4 with image := some emptyMoved } with hubs := [(0, { bankHub 10 with atlas := [(nodeOfUnit 1 2, { kind := 6, status := 2 })] }), (1, bankHub 10)] }
theorem witness_CommandsSwitchesAndMigrations_migrations :
    (asked.cttEntry 5 0 0 = BitVec.ofNat 64 (2 ^ 63 + 2 ^ 62 + 5 * 2 ^ 54) ∧ cttValid (asked.cttEntry 5 0 0) = true ∧ cttOwner (asked.cttEntry 5 0 0) = 5 ∧ cttTile (asked.cttEntry 5 0 0) = 0 ∧ tileKind 1 = tileKind 0 ∧ asked.tileWorks 1 = true ∧
      (asked.hubs.all (fun e => e.2.ctt.all (fun c => cttTile c.2 ≠ 1))) = true ∧ fieldOfTile 1 = 0 ∧ asked.migrations = [] ∧ asked.canBegin 0 (mig 1) = true) ∧
    ((moving (mig 0)).canBegin 0 (mig 0) = true ∧ (moving (mig 1)).tileStill 0 = false ∧ (moving (mig 1)).tileStill 1 = false ∧ (moving (mig 1)).tileBusy 0 5 = false ∧ (moving (mig 1)).masked 3 = false) ∧
    (arrivingTile.tileWorks 1 = true ∧ (arrivingTile.tileOf 1).pwr = 0 ∧ arrivingTile.vacated 1 0 = true ∧ putOk arrivingTile { mig 4 with image := some emptyMoved } 1 emptyMoved = true ∧ arrivingTile.cttLooked 5 0 0 = [7]) ∧
    (darkNew.tileWorks 1 = false ∧ putOk darkNew { mig 4 with image := some emptyMoved } 0 emptyMoved = true) ∧ (moving { mig 6 with markers := [(7, 1)] }).markerDue { mig 6 with markers := [(7, 1)] } 7 1 = true ∧
    (moving (mig 6)).releaseDue (mig 6) = true ∧ (moving (mig 6)).partOfTag 5 = some 0 ∧ (moving { mig 6 with stub := [packet 0 0] }).masked 0 = false := by decide +kernel

/-- R59, R96, R110: partition 0 of tag 5 has field 3. Its supervisor reads the banker of its field and its own share in hub 0, no other partition's; its users
read neither. -/
def economyState : State := State.reset.updPart 0 (fun p => { p with valid := true, tag := 5, fields := [3] })
theorem test_bank_register_levels :
    economyState.controlRefuses 3 0x10000 8 .read false 5 1 = none ∧ economyState.controlRefuses 3 0x10000 8 .read false 5 0 = some .ctlAccess ∧
    economyState.controlRefuses 0 0x20100 8 .read false 5 1 = none ∧ economyState.controlRefuses 0 0x20108 8 .read false 5 1 = some .ctlAccess ∧
    economyState.controlRefuses 3 0 8 .read false 5 0 = none := by decide

/-- R92, R93: a field whose last partition is made invalid runs platform work; of two members the other keeps its place. -/
theorem test_partition_leaves :
    (({ group := [2], run := some 2, runTag := 7 } : Hub).leave 2).runTag = 0 ∧ (({ group := [2, 4], run := some 4, runTag := 9 } : Hub).leave 2).group = [4] ∧
    (({ group := [2, 4], run := some 4, runTag := 9 } : Hub).leave 2).runTag = 9 := by decide

/-! Boundary cases of the statements' further clauses. -/

def darkNode (n : Nat) (h : Hub := boundHub) : Hub := { h with atlas := [(n, { kind := 5, status := 2 })] }
/-- Ways of a message for core 1: from hub 0 and over the bus of its own tile; and the same with the core, or its router, dark. -/
theorem witness_MessagesTravelAndArrive_ways :
    (netState {}).hubWay 0 1 = true ∧ (netState {}).hwOnWay (hwPacket 0xFF90) = false ∧ (netState {}).coreDark 1 = false ∧ (netState {}).busWay 0 1 = true ∧ (netState {}).bounceWaits 1 (packet 1 2) = false ∧
    (flyState (packet 0 0)).senderCore (packet 0 0) = 3 ∧ (netState {} {} (darkNode (nodeOfUnit 0 1))).coreDark 1 = true ∧ (netState {} {} { boundHub with deadRouters := [0] }).hubWay 0 1 = false := by decide +kernel
/-- A core of tile 0 with nothing in its way, a dark one, one whose logical tile is about to move; and a footprint whose page is poisoned. -/
theorem witness_WorkStartsOnCores_free :
    ((coreState {}).unitWorks 0 1 = true ∧ (coreState {}).underTest 1 = false ∧ (coreState {}).tileStill 0 = false ∧ (coreState {}).leaving 0 = false ∧ ((coreState {}).hubOf 0).sw.step = 0) ∧
    (coreState {} {} (darkNode (nodeOfUnit 0 1))).unitWorks 0 1 = false ∧ (moving (mig 1)).leaving 0 = true ∧ (moving (mig 4)).leaving 0 = false ∧
    (match ({ footState with poison := [lineOf (gpaKey (tileGpa 0 0))] } : State).copyRun 1 5 0 3 0x100000 (gpaKey (tileGpa 0 0x100000)) 0x1000 [] with
    | .error (some _) => true
    | _ => false) = true := by decide +kernel
/-- An operation without a delivery that waits; the follower's half of a pair; a stream of a core whose step fails; a line whose fill finds its way. -/
theorem witness_EnginesOperationsAndBarriersProgress_more :
    (opAtWork (copyOp 0x100000 0x100100)).opAt 0 2 = copyOp 0x100000 0x100100 ∧ ((opAtWork (copyOp 0x100000 0x100100)).opDeliver 0 2 16).1 = none ∧
    ((opAtWork { copyOp 0 0 with state := 3, shadow := true, word := some 8 }).opAt 0 2).deliv = [] ∧
    after (exec .operationComplete (endState { withWord with shadow := true })) (fun t => t.flying = [] && (t.opAt 0 2).state = 0) = true ∧
    filling.fillWay (lineGpa 9) = true ∧
    (match (streamWork (streamed 0 4 0 [])).updCore 1 (fun k => { k with utlb := [] }) |>.inputStep 1 2 ((streamWork (streamed 0 4 0 [])).core.streamAt 2) with
    | some (.error _, _) => true
    | none => true
    | _ => false) = true ∧ outStream.homeCuts [(0x100000, tileGpa 0 0, 32)] = [(0x100000, tileGpa 0 0, 32)] := by decide +kernel
/-- A stop that waits for the access, a stop at once, a kill that waits for the acknowledgements and one at once. -/
theorem witness_RegistersAndDebugCommandsAct_kills :
    (dbgState 0 1 (fun c => { c with hold := some 3 })).mustHold ((dbgState 0 1 (fun c => { c with hold := some 3 })).ctxOf 8) = true ∧ (dbgState 0 1).mustHold ((dbgState 0 1).ctxOf 8) = false ∧
    after (exec .dbgStop (dbgState 0 1 (fun c => { c with hold := some 3 }))) (fun t => (t.ctxOf 8).preempt = 3 && (t.ctxOf 8).st = 0) = true ∧
    (dbgState 1 6).killReady 8 ((dbgState 1 6).ctxOf 8) = true ∧ (dbgState 1 6).killReady 8 { (dbgState 1 6).ctxOf 8 with unFld := 1 } = false ∧
    after (exec .dbgKill (dbgState 1 6 (fun c => { c with unFld := 1 }))) (fun t => (t.ctxOf 8).occ && (t.ctxOf 8).killed ≠ 0) = true := by decide +kernel
/-- A restored core that passes its test on probation, and a rook that pre-empts a firing with no partner. -/
theorem witness_FabricEventsAct_restored :
    after (exec .atlasStatusWrite (fabric { unit := 0, value := 0, other := nodeOfUnit 0 1 } (darkNode (nodeOfUnit 0 1) { startup := 7, rookEn := true, atlas := [] }))) (fun t => (t.atlasRec 0 (nodeOfUnit 0 1)).status = 2) = true ∧
    after (exec .rookTestDone (fabric {} { busyRook with rookAgain := some 1, atlas := [(testedNode 0 1, { kind := 5, status := 3 })] } [] {} { ready := true } 9)) (fun t => (t.atlasRec 0 (testedNode 0 1)).status = 0) = true ∧
    (fabric {} rookHub [(8, rookUser false)] roomyPark {} 2000000).withPartner 8 = [8] ∧
    after (exec .rookPreempt (fabric {} rookHub [(8, rookUser false)] roomyPark { ready := true } 2000000)) (fun t => !(t.ctxOf 8).occ) = true := by decide +kernel
/-- A firing under the time limit of a switch goes at once, and one that holds for an access goes at its boundary. -/
theorem witness_CommandsSwitchesAndMigrations_limits :
    (switchState { step := 1, incoming := 1 } [(8, user)] 100000).runningIn 0 = [8] ∧ (switchState { step := 1, incoming := 1 } [(8, user)] 100000).qlimDue 0 = true ∧
    after (exec .qlimExpiry (switchState { step := 1, incoming := 1 } [(8, { user with np := true })] 100000)) (fun t => (t.ctxOf 8).preempt = 2 && (t.ctxOf 8).st = 0) = true ∧
    (switchState { step := 1, incoming := 1 }).bankPaused = false ∧ (switchState { step := 1, incoming := 1 }).quiet 0 = true ∧ (darkNew).tileDark 1 = false := by decide +kernel
/-- A barrier's arrival that was answered, failed, waits for its reply, or was refused by a full barrier. -/
theorem witness_BarrierInstructions_replies :
    gets (exec (.barArr (barR 5)) (barState barObj { barUser with reply := some (.value 10), hold := some 3, unFld := 1 })) 20 10 = true ∧
    froze (exec (.barArr (barR 5)) (barState barObj { barUser with reply := some (.failed Cause.barBad 0), hold := some 3 })) Cause.barBad = true ∧
    waits (exec (.barArr (barR 5)) (barState barObj { barUser with hold := some 3 })) = true ∧
    waits (exec (.barArr (barR 5)) (barState { barObj with lead := [(2, 3)] } { barUser with refusedArr := true })) = true ∧
    after (exec (.barArr (barR 5)) (barState { barObj with lead := [(2, 2)] } { barUser with refusedArr := true, unFld := 1 })) (fun t => t.net.length = 1) = true := by decide +kernel
/-- A store of DBGCAP's high half that was answered; a freeze of a firing that waits at a barrier; a poisoned ring; a full deque with room in its ring. -/
theorem witness_issue_replies :
    after (exec (.stD { rt := 1, base := 4, disp := 0 }) (localState { user with reply := some (.value 0), hold := some 3 })) (fun t => t.cx.pc = 0x10108 && t.net = []) = true ∧
    froze (exec (.stD { rt := 1, base := 4, disp := 0 }) (localState { user with reply := some (.failed 0x50 0), hold := some 3 })) 0x50 = true ∧
    waits (exec (.stD { rt := 1, base := 4, disp := 0 }) (localState { user with hold := some 3 })) = true ∧
    after (exec (.trap { imm := 1 }) (barState { barObj with waiters := [(7, 10), (9, 10)] })) (fun t => (t.barAt 0 255).waiters = [(9, 10)]) = true ∧
    after (exec (.wlPush (opR 7 11)) ({ wlState false 1 0 1023 0 0 with poison := [lineOf (gpaKey (tileGpa 0 0x2000))] } : State)) (fun t => t.localDouble 0x2000 = 0 && t.cx.fstat ≠ 0) = true ∧
    after (exec (.spawn { xd := 0, xa := 1, xb := 0, opt := 0 }) (opState [] opUser {} { deque := List.replicate 32 {}, spillCap := 20, spillBase := 0x4000 })) (fun t => t.core.deque.length = 17 && t.core.spill.length = 16) = true ∧
    after (exec (.launch { opR 0 11 with opt := 1 }) (opState launchDesc opUser {} { utlb := [localPage 0], parkCap := 4, parkBase := 0x10000 } fullQueue)) (fun t => t.cx = {} && t.core.parked.length = 1) = true ∧
    froze (exec (.launch { opR 0 11 with opt := 1 }) (opState launchDesc { opUser with np := true } {} { utlb := [localPage 0] } fullQueue)) 0x5F = true := by decide +kernel
/-- The other core of the tile changed PROMO in this cycle: `mfs` reads it as it was. -/
theorem test_mfs_shared : gets (exec (.mfs { x := 9, spr := 0x29 }) ({ sprState with cores := [(1, {}), (0, { issued := some (sprState.cycOf 0), before := [(0x29, 7)] })] } : State)) 9 7 = true ∧
    gets (exec (.mfs { x := 9, spr := 0x29 }) ({ sprState with cores := [(1, {}), (0, { before := [(0x29, 7)] })] } : State)) 9 61 = true := by decide +kernel
/-- A step of an output stream that cannot be encoded: its register's write takes the fault. -/
theorem witness_StreamSteps :
    (match (streamed 1 4 0 []).outStep ((streamed 1 4 0 []).core.streamAt 2) 5 with
    | .ok (ps, b, _) => decide (ps = [(0x100040, tileGpa 0 0x40, 32)]) && decide (b = 5)
    | .error _ => false) = true ∧
    after (exec (mov 14 2) (streamed 1 4 0 [])) (fun t => (t.core.streamAt 2).outs.length = 1) = true ∧
    after (exec (mov 14 2) ((streamed 1 4 0 []).updCurCore (fun k => { k with utlb := [page (tileGpa 0 0) 0xE5] }))) (fun t => t.cx.st = 1) = true := by decide +kernel
/-- The acquire that a record of narrower scope does not cover. -/
theorem witness_AccessesTakeEffect_acquires :
    (SyncRec.covers { line := lineOf (gpaKey (tileGpa 0 0x40)), scope := 4 } 2 8) = true ∧
    after (exec .accessPerformed ({ inFlight (.acquire 4) 8 0 with syncs := [{ line := lineOf (gpaKey (tileGpa 0 0x40)), scope := 4, ctx := 16 }] } : State)) (fun t => t.net.map (fun a => a.result) = [some (.value 5)]) = true := by decide +kernel
end

section
/-! SUPPORT. Reset, and what a report changes: the settings under which the events of start-up, clocks, rails and the fabric are proved. -/

namespace Sys2Proof.Machine

/-! ### Finite maps -/

@[simp] theorem KMap.find?_put_self {α : Type} (m : KMap α) (k : Nat) (a : α) : (m.put k a).find? k = some a := by
  induction m with
  | nil => simp [KMap.put, KMap.find?]
  | cons e m ih =>
    obtain ⟨j, b⟩ := e
    simp only [KMap.put]
    split
    · simp [KMap.find?]
    · split
      · simp [KMap.find?]
      · simp [KMap.find?, ih, Ne.symm ‹¬k = j›]

/-- The value at a key of a map whose values have all been changed. -/
theorem KMap.get_map {α : Type} {d : α} (g : Nat → α → α) {k : Nat} : ∀ {m : KMap α}, m.has k = true ∨ g k d = d →
    KMap.get d (m.map (fun e => (e.1, g e.1 e.2))) k = g k (m.get d k)
  | [], h => by simpa [KMap.has, KMap.get, eq_comm] using h
  | (j, b) :: m, h => by
    by_cases hj : j = k
    · simp [KMap.get, hj]
    · have ih := KMap.get_map g (m := m) (by simpa [KMap.has, hj] using h)
      simpa [KMap.get, hj] using ih

/-! ### Bits -/

theorem bitsAt_zero (v hi : Nat) : bitsAt v hi 0 = v % 2 ^ (hi + 1) := by simp [bitsAt]

theorem bitAt_eq_testBit (v i : Nat) : bitAt v i = v.testBit i := by simp [bitAt, Nat.testBit_eq_decide_div_mod_eq]

/-! ### What is the same in two states

A mask of the machine and one of its hubs put a fixed value in every field that may differ. Two states are the same but for these fields when the masks give
the same of both: the relation is an equality, so that it chains, and any field that the masks keep can be read off it. -/

/-- Two states are the same but for the fields that `m` masks, and their hubs but for those that `k` masks. -/
structure SameBut (m : State → State) (k : Hub → Hub) (s t : State) : Prop where
  rest : m t = m s
  hub : ∀ g, k (t.hubOf g) = k (s.hubOf g)

namespace SameBut

variable {m : State → State} {k : Hub → Hub} {s t u : State}

theorem refl (s : State) : SameBut m k s s := ⟨rfl, fun _ => rfl⟩

theorem trans (h : SameBut m k s t) (h' : SameBut m k t u) : SameBut m k s u := ⟨h'.rest.trans h.rest, fun g => (h'.hub g).trans (h.hub g)⟩

/-- Changes one after another. -/
theorem foldl {α : Type} {g : State → α → State} (hg : ∀ s x, SameBut m k s (g s x)) (l : List α) (s : State) : SameBut m k s (l.foldl g s) :=
  List.foldlRecOn l g (refl s) (fun _ h x _ => h.trans (hg _ x))

/-- A part of the machine that the mask keeps. -/
theorem part {α : Type} (h : SameBut m k s t) (p : State → α) (hp : ∀ u, p (m u) = p u) : p t = p s := by
  rw [← hp t, h.rest, hp s]

/-- A part of a hub that the mask keeps. -/
theorem hubPart {α : Type} (h : SameBut m k s t) (p : Hub → α) (hp : ∀ u, p (k u) = p u) (g : Nat) : p (t.hubOf g) = p (s.hubOf g) := by
  rw [← hp (t.hubOf g), h.hub, hp]

end SameBut

/-- A change of one hub in fields that the mask hides. -/
theorem State.sameBut_updHub (m : State → State) (k : Hub → Hub) (s : State) (f : Nat) (g : Hub → Hub) (hm : m (s.updHub f g) = m s)
    (hg : k (g (s.hubOf f)) = k (s.hubOf f)) : SameBut m k s (s.updHub f g) := by
  refine ⟨hm, fun i => ?_⟩
  rw [State.hubOf_updHub]
  split
  · subst i
    exact hg
  · rfl

/-! ### Reports

A report (R237) counts a number of the hub that sends it, and stands in the lists of what has been sent; the machine is otherwise as before. -/

/-- A hub but for the number of its next packet. -/
def Hub.mute (h : Hub) : Hub := { h with fseq := 0 }

/-- The machine but for its hubs and what it has sent. -/
def State.mute (s : State) : State := { s with hubs := [], flying := [], plat := [], recent := [], loith := { s.loith with events := 0, out := [] } }

/-- Between two states the machine has sent reports, and nothing else has changed. -/
abbrev Told : State → State → Prop := SameBut State.mute Hub.mute

section
variable (s : State) (f : Nat)

theorem State.told_takeSeq : Told s (s.takeSeq f).2 := by
  simp only [State.takeSeq]
  exact State.sameBut_updHub _ _ s f _ rfl rfl

theorem State.told_postHw (m : Msg) : Told s (s.postHw f m) := ⟨rfl, fun _ => rfl⟩
theorem State.told_keepRecent (m : Msg) : Told s (s.keepRecent m) := ⟨rfl, fun _ => rfl⟩
theorem State.told_toFirmware (m : Msg) : Told s (s.toFirmware m) := ⟨rfl, fun _ => rfl⟩
theorem State.told_toPlatform (m : Msg) : Told s (s.toPlatform m) := ⟨rfl, fun _ => rfl⟩
theorem State.told_eventFrame (tags body : List Nat) : Told s (s.eventFrame tags body) := ⟨rfl, fun _ => rfl⟩

theorem State.told_report (cause : Cause) (tag : Nat) (items tags : List Nat) : Told s (s.report f cause tag items tags) := by
  refine (s.told_takeSeq f).trans (SameBut.trans ?_ (State.told_toPlatform _ _))
  split
  · exact State.told_eventFrame _ _ _
  · exact SameBut.refl _

theorem State.told_reportTo (cause : Cause) (tag : Nat) (items : List Nat) : Told s (s.reportTo f cause tag items) := by
  unfold State.reportTo
  split
  · exact SameBut.refl s
  · exact (s.told_takeSeq f).trans ((State.told_postHw _ f _).trans (State.told_keepRecent _ _))

theorem State.told_reportField (cause : Cause) (items : List Nat) : Told s (s.reportField f cause items) :=
  (s.told_report f cause _ items _).trans (SameBut.foldl (fun s tag => s.told_reportTo f cause tag items) _ _)

theorem State.told_reportRail (a : Nat) (cause : Cause) : Told s (s.reportRail a cause) :=
  (s.told_report _ cause 0 [] _).trans (SameBut.foldl (fun s tag => s.told_reportTo _ cause tag []) _ _)

end

/-! ### Records of the atlas (R30 to R34) -/

/-- A hub but for its atlas and the number of its next packet. -/
def Hub.blank (h : Hub) : Hub := { h with fseq := 0, atlas := [], atlcnt := 0 }

/-- Between two states records of the atlas have changed, with the reports of it, and nothing else. -/
abbrev Recorded : State → State → Prop := SameBut State.mute Hub.blank

theorem Told.recorded {s t : State} (h : Told s t) : Recorded s t := ⟨h.rest, h.hubPart Hub.blank (fun _ => rfl)⟩

/-- A record depends on the atlas of its hub alone, and where the hub lists none on how it answers for such nodes. -/
theorem State.atlasRec_congr {s t : State} {f : Nat} (hl : (t.hubOf f).atlas = (s.hubOf f).atlas) (hd : (t.hubOf f).dark = (s.hubOf f).dark)
    (hu : (t.hubOf f).unlisted = (s.hubOf f).unlisted) (n : Nat) : t.atlasRec f n = s.atlasRec f n := by
  simp only [State.atlasRec, State.nodeStatus, hl, hd, hu]

theorem Told.atlasRec {s t : State} (h : Told s t) (f n : Nat) : t.atlasRec f n = s.atlasRec f n :=
  State.atlasRec_congr (h.hubPart Hub.atlas (fun _ => rfl) f) (h.hubPart Hub.dark (fun _ => rfl) f) (h.hubPart Hub.unlisted (fun _ => rfl) f) n

section
variable (s : State) (f n : Nat)

theorem State.recorded_putNode (r : AtlasRec) : Recorded s (s.putNode f n r) := by
  rw [State.putNode]
  exact State.sameBut_updHub _ _ s f _ rfl rfl

theorem State.atlasRec_putNode (r : AtlasRec) : (s.putNode f n r).atlasRec f n = { r with gen := (s.hubOf f).rgen } := by
  simp [State.putNode, State.atlasRec]

theorem State.hubOf_putNode_other (r : AtlasRec) {g : Nat} (h : g ≠ f) : (s.putNode f n r).hubOf g = s.hubOf g := State.hubOf_updHub_other _ _ h

theorem State.atlcnt_putNode (r : AtlasRec) (h : r.status ≠ (s.atlasRec f n).status) : ((s.putNode f n r).hubOf f).atlcnt = (s.hubOf f).atlcnt + 1 := by
  simp [State.putNode, h]

/-- The two hubs that hold the records of the rim are different. -/
theorem rimHubs_ne (f : Nat) : f ≠ if f = 0 then 89 else 0 := by
  split <;> omega

/-- A change of a record is written in its own hub first; what follows leaves that hub but for the number of its next packet. -/
theorem State.setNode_cases (g : AtlasRec → AtlasRec) :
    (g (s.atlasRec f n) = s.atlasRec f n ∧ s.setNode f n g = s) ∨
      (Recorded s (s.setNode f n g) ∧ ((s.setNode f n g).hubOf f).mute = ((s.putNode f n (g (s.atlasRec f n))).hubOf f).mute) := by
  by_cases hg : g (s.atlasRec f n) = s.atlasRec f n
  · exact .inl ⟨hg, by simp [State.setNode, hg]⟩
  refine .inr ?_
  let new := g (s.atlasRec f n)
  let s1 := s.putNode f n new
  let s2 := if n < 256 then s1.putNode (if f = 0 then 89 else 0) n new else s1
  have h1 : Recorded s s1 := s.recorded_putNode f n new
  have h2 : Recorded s1 s2 ∧ s2.hubOf f = s1.hubOf f := by
    by_cases hn : n < 256
    · rw [show s2 = s1.putNode (if f = 0 then 89 else 0) n new from if_pos hn]
      exact ⟨s1.recorded_putNode _ n new, s1.hubOf_putNode_other _ n new (rimHubs_ne f)⟩
    · rw [show s2 = s1 from if_neg hn]
      exact ⟨SameBut.refl s1, rfl⟩
  have h3 : Told s2 (s.setNode f n g) := by
    simp only [State.setNode, if_neg hg]
    split
    · exact SameBut.refl s2
    · exact s2.told_reportField f _ _
  exact ⟨h1.trans (h2.1.trans h3.recorded), (h3.hub f).trans (congrArg Hub.mute h2.2)⟩

theorem State.recorded_setNode (g : AtlasRec → AtlasRec) : Recorded s (s.setNode f n g) := by
  obtain ⟨-, h⟩ | ⟨h, -⟩ := s.setNode_cases f n g
  · rw [h]
    exact SameBut.refl s
  · exact h

/-- The record of a node after its change is the new one, under the generation in force (R31). -/
theorem State.atlasRec_setNode (g : AtlasRec → AtlasRec) : ∃ k, (s.setNode f n g).atlasRec f n = { g (s.atlasRec f n) with gen := k } := by
  obtain ⟨hg, h⟩ | ⟨-, h⟩ := s.setNode_cases f n g
  · exact ⟨(s.atlasRec f n).gen, by rw [h, hg]⟩
  · refine ⟨(s.hubOf f).rgen, ?_⟩
    rw [← s.atlasRec_putNode]
    exact State.atlasRec_congr (congrArg Hub.atlas h :) (congrArg Hub.dark h :) (congrArg Hub.unlisted h :) n

theorem State.status_setNode (g : AtlasRec → AtlasRec) : ((s.setNode f n g).atlasRec f n).status = (g (s.atlasRec f n)).status := by
  obtain ⟨k, h⟩ := s.atlasRec_setNode f n g
  rw [h]

/-- ATLCNT counts a change of a status (R34). -/
theorem State.atlcnt_setNode (g : AtlasRec → AtlasRec) (hs : (g (s.atlasRec f n)).status ≠ (s.atlasRec f n).status) :
    ((s.setNode f n g).hubOf f).atlcnt = (s.hubOf f).atlcnt + 1 := by
  obtain ⟨hg, -⟩ | ⟨-, h⟩ := s.setNode_cases f n g
  · exact absurd (congrArg AtlasRec.status hg) hs
  · exact (congrArg Hub.atlcnt h :).trans (s.atlcnt_putNode f n _ hs)

theorem State.recorded_testResult (fails bits src : Nat) (restored : Bool) : Recorded s (s.testResult f n fails bits src restored) := by
  unfold State.testResult
  exact s.recorded_setNode f n _

end

end Sys2Proof.Machine
end

section
/-! SUPPORT. The state after power-on reset (R20, R22, R29, R188). -/

namespace Sys2Proof.Machine

/-- Every hub has its reset value (R29). -/
theorem State.hubOf_reset (f : Nat) : State.reset.hubOf f = {} := rfl

/-- With no time passed no cycle has been counted (R188). -/
theorem State.cyclesSince_reset : State.reset.cyclesSince {} = 0 := by simp [State.cyclesSince, State.reset]

theorem State.cycOf_reset (f : Nat) : State.reset.cycOf f = 0 := by
  rw [State.cycOf, State.hubOf_reset, State.cyclesSince_reset]
  exact Nat.zero_mod _

theorem State.ncycOf_reset (f : Nat) : State.reset.ncycOf f = 0 := by
  rw [State.ncycOf, State.hubOf_reset, State.cyclesSince_reset, Nat.zero_mul]
  exact Nat.zero_mod _

/-- Settles O4: at reset every part of the machine is the default of its kind, no cycle has passed, and memory lists no byte. -/
theorem resetGatesTilesAndListsNoMemory : Obligations.ResetGatesTilesAndListsNoMemory := by
  refine ⟨⟨rfl, fun f => ⟨rfl, ?_, State.cycOf_reset f, State.ncycOf_reset f⟩, fun t => ⟨rfl, rfl⟩, fun r => rfl⟩, State.reset_mem_wf, fun a => rfl⟩
  rw [State.hubOf_reset]
  decide

end Sys2Proof.Machine
end

section
/-! SUPPORT. Field clocks, rails and the limit of the package's power: R19 to R25, R70, R71, R253. -/

namespace Sys2Proof.Machine

/-! ### Clocks (R19 to R23) -/

/-- The ceilings of the fields do not depend on their hubs. -/
@[simp] theorem State.ceilingWith_updHub (s : State) (g : Nat) (k : Hub → Hub) (f : Nat) (c : Option (Nat × Nat)) :
    (s.updHub g k).ceilingWith f c = s.ceilingWith f c := rfl

/-- The hub of a field whose relock starts: its counts stand at what they were, and its cycles at the new multiplier begin now (R19, R188). -/
theorem State.hubOf_relock (s : State) (f n : Nat) : (s.relock f n).hubOf f =
    { s.hubOf f with cyc0 := s.cycOf f, ncyc0 := s.ncycOf f, anchor := s.now, curn := n, newn := n, locking := some (s.rtime + 3000) } := by
  have h : ∀ u : State, (u.restartStalls f).hubOf f = u.hubOf f := fun _ => rfl
  simp [State.relock, h, State.settle]

/-- No cycle is counted during a relock (R19, R188). -/
theorem State.cycOf_of_locking {s : State} {f : Nat} (h : (s.hubOf f).locking.isSome = true) : s.cycOf f = (s.hubOf f).cyc0 % 2 ^ 64 := by
  simp [State.cycOf, State.cyclesSince, h]

theorem State.cycOf_relock (s : State) (f n : Nat) : (s.relock f n).cycOf f = s.cycOf f := by
  rw [State.cycOf_of_locking (by rw [State.hubOf_relock]; rfl), State.hubOf_relock]
  exact Nat.mod_mod _ _

/-- A refused multiplier is not taken (R21, R23). -/
theorem State.newnWrite_refused (s : State) {f n : Nat} (h : n < 10 ∨ 25 < n ∨ s.ceilingWith f none < n) :
    ((s.newnWrite f n).hubOf f).badn = true ∧ ((s.newnWrite f n).hubOf f).curn = (s.hubOf f).curn ∧ ((s.newnWrite f n).hubOf f).newn = (s.hubOf f).newn := by
  have ht := (s.updHub f (fun h => { h with badn := true })).told_reportField f .clkRefused []
  rw [State.newnWrite, if_pos h]
  exact ⟨by simp [ht.hubPart Hub.badn (fun _ => rfl)], by simp [ht.hubPart Hub.curn (fun _ => rfl)], by simp [ht.hubPart Hub.newn (fun _ => rfl)]⟩

/-- What an accepted multiplier does: it waits for a relock that runs, is the present one, or starts a relock (R19, R21). -/
theorem State.setClock_accepted (s : State) (f n : Nat) :
    let h := s.hubOf f
    let k := (s.setClock f n).hubOf f
    k.newn = n ∧ (h.locking.isSome → k.pendn = some n ∧ k.curn = h.curn ∧ k.locking = h.locking) ∧ (h.locking = none → n = h.curn → k.curn = n ∧ k.locking = none) ∧
      (h.locking = none → n ≠ h.curn → k.curn = n ∧ k.locking = some (s.rtime + 3000) ∧ (s.setClock f n).cycOf f = s.cycOf f) := by
  intro h k
  by_cases hl : h.locking.isSome = true
  · have hk : s.setClock f n = s.updHub f (fun h => { h with newn := n, pendn := some n }) := if_pos hl
    have hn : h.locking ≠ none := Option.isSome_iff_ne_none.1 hl
    simp [k, hk, h, show (s.hubOf f).locking ≠ none from hn]
  have hn : h.locking = none := by simpa using hl
  by_cases hc : n = h.curn
  · have hk : s.setClock f n = s.updHub f (fun h => { h with newn := n }) := by
      simp only [State.setClock]
      rw [if_neg hl, if_pos hc]
    refine ⟨by simp [k, hk], fun hs => absurd hs hl, fun _ _ => ?_, fun _ hne => absurd hc hne⟩
    simp only [k, hk, State.hubOf_updHub_self]
    exact ⟨hc.symm, hn⟩
  · have hk : s.setClock f n = s.relock f n := by
      simp only [State.setClock]
      rw [if_neg hl, if_neg hc]
    refine ⟨by simp [k, hk, State.hubOf_relock], fun hs => absurd hs hl, fun _ he => absurd he hc, fun _ _ => ?_⟩
    simp only [k, hk, State.cycOf_relock, State.hubOf_relock]
    exact ⟨trivial, trivial, trivial⟩

/-- Two states show one clock of a field: its ceiling, its count, its multipliers and its relock (R19 to R23). -/
structure SameClock (f : Nat) (s t : State) : Prop where
  rtime : t.rtime = s.rtime
  ceiling : t.ceilingWith f none = s.ceilingWith f none
  cyc : t.cycOf f = s.cycOf f
  curn : (t.hubOf f).curn = (s.hubOf f).curn
  newn : (t.hubOf f).newn = (s.hubOf f).newn
  locking : (t.hubOf f).locking = (s.hubOf f).locking

/-- A write of FCLKCTL is a write of NEWN, after BADN has been cleared where the write says so (R20). -/
theorem State.fclkctlWrite_eq (s : State) (f v : Nat) : ∃ s1, SameClock f s s1 ∧ s.fclkctlWrite f v = s1.newnWrite f (v % 32) := by
  refine ⟨if bitAt v 29 then s.updHub f (fun h => { h with badn := false }) else s, ?_, congrArg (State.newnWrite _ f) (bitsAt_zero v 4)⟩
  split
  · constructor <;> simp [State.cycOf, State.cyclesSince]
  · exact ⟨rfl, rfl, rfl, rfl, rfl, rfl⟩

theorem State.fclkctlWrite_refused (s : State) {f v : Nat} (h : v % 32 < 10 ∨ 25 < v % 32 ∨ s.ceilingWith f none < v % 32) :
    let k := (s.fclkctlWrite f v).hubOf f
    k.badn = true ∧ k.curn = (s.hubOf f).curn ∧ k.newn = (s.hubOf f).newn := by
  obtain ⟨s1, hs, he⟩ := s.fclkctlWrite_eq f v
  have hr := s1.newnWrite_refused (hs.ceiling.symm ▸ h)
  rw [hs.curn, hs.newn] at hr
  rwa [he]

theorem State.fclkctlWrite_accepted (s : State) {f v : Nat} (hlo : 10 ≤ v % 32) (hhi : v % 32 ≤ 25) (hc : v % 32 ≤ s.ceilingWith f none) :
    let n := v % 32
    let h := s.hubOf f
    let k := (s.fclkctlWrite f v).hubOf f
    k.newn = n ∧ (h.locking.isSome → k.pendn = some n ∧ k.curn = h.curn ∧ k.locking = h.locking) ∧ (h.locking = none → n = h.curn → k.curn = n ∧ k.locking = none) ∧
      (h.locking = none → n ≠ h.curn → k.curn = n ∧ k.locking = some (s.rtime + 3000) ∧ (s.fclkctlWrite f v).cycOf f = s.cycOf f) := by
  obtain ⟨s1, hs, he⟩ := s.fclkctlWrite_eq f v
  have hn : s1.newnWrite f (v % 32) = s1.setClock f (v % 32) := if_neg (by rw [hs.ceiling]; omega)
  have ha := s1.setClock_accepted f (v % 32)
  simp only [hs.curn, hs.locking, hs.rtime, hs.cyc] at ha
  rw [he, hn]
  exact ha

/-- The end of a relock (R19, R21): the state in which a multiplier that waited is looked at. -/
def State.unlocked (s : State) (f : Nat) : State :=
  s.updHub f (fun h => { h with locking := none, relocked := s.rtime, pendn := none, anchor := s.now })

theorem execRelockEnd_of_none {s : State} (hd : s.relockDue s.arg.unit = true) (hp : (s.hubOf s.arg.unit).pendn = none) :
    exec .relockEnd s = .next (s.unlocked s.arg.unit) := by
  have he : exec .relockEnd s = execRelockEnd s := rfl
  simp only [he, execRelockEnd, hd, hp, Bool.not_true, Bool.false_eq_true, if_false]
  rfl

theorem execRelockEnd_of_some {s : State} {n : Nat} (hd : s.relockDue s.arg.unit = true) (hp : (s.hubOf s.arg.unit).pendn = some n)
    (hn : n ≠ (s.hubOf s.arg.unit).curn) (hc : n ≤ s.ceilingWith s.arg.unit none) :
    exec .relockEnd s = .next ((s.unlocked s.arg.unit).relock s.arg.unit n) := by
  have he : exec .relockEnd s = execRelockEnd s := rfl
  have hc' : ¬n > (s.unlocked s.arg.unit).ceilingWith s.arg.unit none := Nat.not_lt.2 hc
  simp only [he, execRelockEnd, hd, hp, Bool.not_true, Bool.false_eq_true, if_false, if_neg hn]
  exact if_neg hc'

/-! ### Rails (R70, R71) -/

/-- Setting or clearing REFUSED of a rail leaves its voltage. -/
theorem State.railNow_refused (s : State) (a k : Nat) (b : Bool) : (s.updRail a (fun r => { r with refused := b })).railNow k = s.railNow k := by
  by_cases h : k = a
  · subst h
    simp [State.railNow]
  · simp [State.railNow, State.railOf_updRail_other _ _ h]

theorem State.railLow_refused (s : State) (a k : Nat) (b : Bool) : (s.updRail a (fun r => { r with refused := b })).railLow k = s.railLow k := by
  simp only [State.railLow, State.railNow_refused, State.railOf_updRail]
  split
  · subst k; rfl
  · rfl

theorem State.ceilingWith_refused (s : State) (a : Nat) (b : Bool) (f : Nat) (c : Option (Nat × Nat)) :
    (s.updRail a (fun r => { r with refused := b })).ceilingWith f c = s.ceilingWith f c := by
  simp only [State.ceilingWith, State.railLow_refused, State.updRail_parts]

/-- A target outside 550 to 900 mV is refused (R70). -/
theorem State.railvWrite_refused (s : State) {a v : Nat} (h : v % 1024 < 550 ∨ 900 < v % 1024) :
    ((s.railvWrite a v).railOf a).refused = true ∧ ((s.railvWrite a v).railOf a).set = (s.railOf a).set := by
  have hb : bitsAt v 9 0 = v % 1024 := bitsAt_zero v 9
  unfold State.railvWrite
  simp only [hb, if_pos (or_assoc.1 (Or.inl h))]
  have hr := fun u : State => (State.told_reportRail u a .railRefused).part (fun s => s.railOf a) (fun _ => rfl)
  rw [hr]
  split <;> simp

/-- A target in range that breaks no ceiling is taken, and the rail slews to it at 10 mV a microsecond (R70). -/
theorem State.railvWrite_taken (s : State) {a v : Nat} (hlo : 550 ≤ v % 1024) (hhi : v % 1024 ≤ 900)
    (hc : ∀ f, f < 90 → (s.hubOf f).curn ≤ s.ceilingWith f (some (a, min (s.railNow a) (v % 1024)))) :
    let n := v % 1024
    let now := s.railNow a
    let r := (s.railvWrite a v).railOf a
    r.set = n ∧ r.cur = now ∧ r.busy = if n = now then none else some (s.rtime + 100 * (max n now - min n now)) := by
  intro n now r
  let s1 := if bitAt v 30 then s.updRail a (fun r => { r with refused := false }) else s
  have hs : s1.railNow a = now ∧ (∀ f c, s1.ceilingWith f c = s.ceilingWith f c) ∧ ∀ f, s1.hubOf f = s.hubOf f := by
    simp only [s1]
    split
    · exact ⟨s.railNow_refused a a false, s.ceilingWith_refused a false, fun f => rfl⟩
    · exact ⟨rfl, fun _ _ => rfl, fun _ => rfl⟩
  obtain ⟨hnow, hceil, hhub⟩ := hs
  have hbreaks : (List.range 90).any (fun f => s1.ceilingWith f (some (a, min now n)) < (s1.hubOf f).curn &&
      s1.ceilingWith f (some (a, min now n)) < s1.ceilingWith f none) = false := by
    simp only [List.any_eq_false, List.mem_range, hceil, hhub]
    intro f hf
    rw [decide_eq_false (Nat.not_lt.2 (hc f hf))]
    simp
  have he : s.railvWrite a v = if n = now then s1.updRail a (fun r => { r with cur := n, set := n, busy := none })
      else s1.updRail a (fun r => { r with cur := now, set := n, busy := some (s.rtime + 100 * (max n now - min n now)) }) := by
    have hb : bitsAt v 9 0 = n := bitsAt_zero v 9
    unfold State.railvWrite
    simp only [hb, show (if bitAt v 30 = true then _ else s) = s1 from rfl, hnow, hbreaks]
    rw [if_neg (by simp; omega)]
  by_cases h : n = now
  · simp [r, he, h]
  · simp [r, he, h]

theorem execRailSlewEnd_of_due {s : State} (h : s.slewDue s.arg.unit = true) :
    exec .railSlewEnd s = .next (s.updRail s.arg.unit (fun r => { r with cur := r.set, busy := none })) := if_pos h

/-- A tile that draws no power changes its rail (R71). -/
theorem State.railswWrite_moves (s : State) {f v : Nat} (h31 : v.testBit 31 = true) (hi : v % 128 < 120)
    (hp : (s.tileOf (tileOfLocal f (v % 128))).powered = false) :
    ((s.railswWrite f v).tileOf (tileOfLocal f (v % 128))).rail = v / 2 ^ 8 % 4 ∧
      ((s.railswWrite f v).hubOf f).railRefused = ((s.hubOf f).railRefused && !v.testBit 30) := by
  have hb : bitsAt v 6 0 = v % 128 := bitsAt_zero v 6
  have hr : bitsAt v 9 8 = v / 2 ^ 8 % 4 := rfl
  simp [State.railswWrite, hb, hr, bitAt_eq_testBit, h31, hi, hp]

/-- A tile that draws power keeps its rail (R71). -/
theorem State.railswWrite_refused (s : State) {f v : Nat} (h31 : v.testBit 31 = true) (hp : (s.tileOf (tileOfLocal f (v % 128))).powered = true) :
    ((s.railswWrite f v).hubOf f).railRefused = true ∧ (s.railswWrite f v).tiles = s.tiles := by
  have hb : bitsAt v 6 0 = v % 128 := bitsAt_zero v 6
  have ht := fun u : State => u.told_reportField f .wakeRefused []
  simp [State.railswWrite, hb, bitAt_eq_testBit, h31, hp, (ht _).hubPart Hub.railRefused (fun _ => rfl), (ht _).part State.tiles (fun _ => rfl)]

end Sys2Proof.Machine
end

section
/-! SUPPORT. The limit of the package's power: R25, R253. -/

namespace Sys2Proof.Machine

/-- A power message counts the tile's sequence number, and is a report else (R62). -/
theorem State.told_powerMessage (s : State) (t cls reason oldh newh hclass effect : Nat) :
    Told (s.updTile t (fun x => { x with pwrseq := (x.pwrseq + 1) % 2 ^ 32 })) (s.powerMessage t cls reason oldh newh hclass effect) := by
  unfold State.powerMessage
  simp only
  split
  · exact State.told_postHw _ _ _
  · split
    · exact State.told_postHw _ _ _
    · exact (State.told_toFirmware _ _).trans (State.told_report _ _ _ _ _ _)

/-- Between two states tiles have changed and reports have been sent, and nothing else has changed. -/
abbrev ToldTiles : State → State → Prop := SameBut (fun s => { s.mute with tiles := [] }) Hub.mute

theorem Told.toldTiles {s t : State} (h : Told s t) : ToldTiles s t := ⟨congrArg (fun u : State => { u with tiles := [] }) h.rest, h.hub⟩

theorem State.toldTiles_updTile (s : State) (t : Nat) (g : Tile → Tile) : ToldTiles s (s.updTile t g) := ⟨rfl, fun _ => rfl⟩

/-- A notice changes its tile and is told (R62). -/
theorem State.toldTiles_noticeTile (s : State) (t newh reason : Nat) (forReq : Option Nat) : ToldTiles s (s.noticeTile t newh reason forReq) :=
  (s.toldTiles_updTile t _).trans ((State.toldTiles_updTile _ t _).trans (State.told_powerMessage _ t _ _ _ _ _ _).toldTiles)

/-- A revocation gives notices to tiles, and does no more (R61). -/
theorem State.toldTiles_revokeAll (s : State) (n : Nat) : ToldTiles s (s.revokeAll n) := by
  unfold State.revokeAll
  refine List.foldlRecOn _ _ (SameBut.refl s) (fun u h e _ => ?_)
  split
  · exact h.trans (u.toldTiles_noticeTile _ _ _ _)
  · exact h

/-- With the ballast stopped no hub has any (R25). -/
theorem State.hubOf_stopBallast (s : State) (f : Nat) : s.stopBallast.hubOf f = { s.hubOf f with ball := 0, fill := 0 } :=
  KMap.get_map (fun _ (h : Hub) => { h with ball := 0, fill := 0 }) (.inr rfl)

/-- The machine after its ballast has stopped and n pips have been revoked, for a package above its limit (R25). -/
def State.revoked (s : State) (n : Nat) : State := ({ s with bank := { s.bank with limit := true } } : State).stopBallast.revokeAll n

/-- The same, with the time before which no further revocation comes. -/
def State.limited (s : State) (n next : Nat) : State := { s.revoked n with bank := { (s.revoked n).bank with limitNext := next } }

theorem execPkgPowerLimit_of_due {s : State} (hd : s.limitDue = true) :
    let n := limitExcess s.packagePower s.ballastPips
    let u := s.limited n ((s.revoked n).limitEffect + 20000)
    exec .pkgPowerLimit s = .next (if n = 0 then u else u.report (if s.bank.onmirror then 89 else 0) .pkgPowerLimit 0 [s.packagePower]) :=
  if_neg (by simp [hd])

/-- The hubs do not depend on the bank's block. -/
theorem State.hubOf_withBank (s : State) (b : Bank) (f : Nat) : ({ s with bank := b } : State).hubOf f = s.hubOf f := rfl

/-- LIMIT is set and no hub has ballast (R25). -/
theorem State.limited_limits (s : State) (n next : Nat) :
    (s.limited n next).bank.limit = true ∧ ∀ f, ((s.limited n next).hubOf f).ball = 0 ∧ ((s.limited n next).hubOf f).fill = 0 := by
  have h : ToldTiles ({ s with bank := { s.bank with limit := true } } : State).stopBallast (s.revoked n) := State.toldTiles_revokeAll _ n
  refine ⟨h.part (fun u => u.bank.limit) (fun _ => rfl), fun f => ?_⟩
  rw [State.limited, State.hubOf_withBank, h.hubPart Hub.ball (fun _ => rfl), h.hubPart Hub.fill (fun _ => rfl), State.hubOf_stopBallast]
  exact ⟨rfl, rfl⟩

/-- Power above the limit stops all ballast and sets LIMIT (R25). -/
theorem execPkgPowerLimit_limits {s : State} (hd : s.limitDue = true) :
    ∃ t, exec .pkgPowerLimit s = .next t ∧ t.bank.limit = true ∧ ∀ f, (t.hubOf f).ball = 0 ∧ (t.hubOf f).fill = 0 := by
  refine ⟨_, execPkgPowerLimit_of_due hd, ?_⟩
  generalize (s.revoked _).limitEffect + 20000 = next
  generalize limitExcess s.packagePower s.ballastPips = n
  obtain ⟨hl, hb⟩ := s.limited_limits n next
  split
  · exact ⟨hl, hb⟩
  · have ht := (s.limited n next).told_report (if s.bank.onmirror then 89 else 0) .pkgPowerLimit 0 [s.packagePower] [0]
    refine ⟨by rwa [ht.part State.bank (fun _ => rfl)], fun f => ?_⟩
    rw [ht.hubPart Hub.ball (fun _ => rfl), ht.hubPart Hub.fill (fun _ => rfl)]
    exact hb f

theorem execPowerLimitClear_of_due {s : State} (hd : s.clearDue = true) :
    exec .powerLimitClear s = .next { s with bank := { s.bank with limit := false } } := if_pos hd

/-- A tile that has met its limit of heat is throttled, and a report says so (R253). -/
theorem execThermalLimit_throttles (s : State) : ∃ t, exec .thermalLimit s = .next t ∧ (t.tileOf s.arg.unit).throttled = true := by
  refine ⟨_, rfl, ?_⟩
  rw [(State.told_report _ _ _ _ _ _).part (fun u => u.tileOf s.arg.unit) (fun _ => rfl)]
  simp

/-- The current and power of a rail are those measured, and a report says so (R70, R253). -/
theorem execRailOvercurrent_measures (s : State) : ∃ t, exec .railOvercurrent s = .next t ∧ (t.railOf s.arg.unit).current = s.arg.value ∧
    (t.railOf s.arg.unit).power = s.arg.other := by
  have hm : (s.measure s.arg.unit s.arg.other s.arg.value).railOf s.arg.unit = { s.railOf s.arg.unit with power := s.arg.other, current := s.arg.value } :=
    State.railOf_updRail_self s s.arg.unit (fun r => { r with power := s.arg.other, current := s.arg.value })
  refine ⟨_, rfl, ?_⟩
  rw [(State.told_reportRail _ _ _).part (fun u => u.railOf s.arg.unit) (fun _ => rfl), hm]
  exact ⟨rfl, rfl⟩

end Sys2Proof.Machine
end

section
/-! SUPPORT. Field clocks, rails and the package limit, as the obligation states them. -/

namespace Sys2Proof.Machine

theorem clocksRailsAndPowerLimits_holds : clocksRailsAndPowerLimits := by
  refine ⟨?_, ?_, ?_, ?_, ?_, ?_, ?_, ?_, ?_, ?_, ?_, ?_, ?_⟩
  · exact fun s h => ⟨_, rfl, s.fclkctlWrite_refused h⟩
  · exact fun s ⟨hlo, hhi, hc⟩ => ⟨_, rfl, s.fclkctlWrite_accepted hlo hhi hc⟩
  · exact fun s ⟨hd, hp⟩ => ⟨_, execRelockEnd_of_none hd hp, by simp [State.unlocked], by simp [State.unlocked]⟩
  · exact fun n s ⟨hd, hp, hn, hc⟩ => ⟨_, execRelockEnd_of_some hd hp hn hc, by simp [State.hubOf_relock, State.unlocked]⟩
  · exact fun s h => ⟨_, rfl, s.railvWrite_refused h⟩
  · exact fun s ⟨hlo, hhi, hc⟩ => ⟨_, rfl, s.railvWrite_taken hlo hhi hc⟩
  · exact fun s h => ⟨_, execRailSlewEnd_of_due h, by simp⟩
  · exact fun s ⟨h31, hi, hp⟩ => ⟨_, rfl, s.railswWrite_moves h31 hi hp⟩
  · exact fun s ⟨h31, hp⟩ => ⟨_, rfl, s.railswWrite_refused h31 hp⟩
  · exact fun s h => execPkgPowerLimit_limits h
  · exact fun s h => ⟨_, execPowerLimitClear_of_due h, rfl⟩
  · exact fun s _ => execThermalLimit_throttles s
  · exact fun s _ => execRailOvercurrent_measures s

end Sys2Proof.Machine
end

section
/-! SUPPORT. Start-up: R27, R29, R57. -/

namespace Sys2Proof.Machine

theorem State.inStep_iff (s : State) (f n : Nat) : s.inStep f n = true ↔ f < 90 ∧ (s.hubOf f).startup = n ∧ (s.hubOf f).dark = false := by
  simp [State.inStep, and_assoc]

/-! ### A field goes dark (R27, R29) -/

@[simp] theorem State.deriveKeys_parts (s : State) : s.deriveKeys.hubs = s.hubs ∧ s.deriveKeys.bank = s.bank ∧ s.deriveKeys.loith.device = s.loith.device ∧
    s.deriveKeys.loith.atDoor = s.loith.atDoor := by
  unfold State.deriveKeys
  simp only
  split <;> exact ⟨rfl, rfl, rfl, rfl⟩

theorem State.hubOf_deriveKeys (s : State) (f : Nat) : s.deriveKeys.hubOf f = s.hubOf f := by
  simp [State.hubOf]

/-- The hubs do not depend on the state of the links, to which replies go. -/
theorem State.hubOf_withLoith (s : State) (l : Loith) (f : Nat) : ({ s with loith := l } : State).hubOf f = s.hubOf f := rfl

theorem State.hubOf_reply (s : State) (session seq op status : Nat) (body : List Nat) (f : Nat) : (s.reply session seq op status body).hubOf f = s.hubOf f := rfl

/-- A field that goes dark stays at its step of start-up. -/
theorem State.fieldDark_hub (s : State) (f : Nat) : ((s.fieldDark f).hubOf f).dark = true ∧ ((s.fieldDark f).hubOf f).startup = (s.hubOf f).startup := by
  have h := (s.updHub f (fun h => { h with dark := true })).recorded_setNode f (256 + 1442 * f) (fun r => r.withStatus 2 2)
  simp only [State.fieldDark, State.hubOf_withLoith, State.hubOf_deriveKeys]
  rw [h.hubPart Hub.dark (fun _ => rfl), h.hubPart Hub.startup (fun _ => rfl), State.hubOf_updHub_self]
  exact ⟨rfl, rfl⟩

/-- So does one whose FIELD.RESET ends there, after the reply of the command (R85). -/
theorem State.resetDark_hub (s : State) (f : Nat) : ((s.resetDark f).hubOf f).dark = true ∧ ((s.resetDark f).hubOf f).startup = (s.hubOf f).startup := by
  refine List.foldlRecOn (motive := fun u : State => (u.hubOf f).dark = true ∧ (u.hubOf f).startup = (s.hubOf f).startup) _ _ (s.fieldDark_hub f)
    (fun u hu r _ => ?_)
  rw [State.replyFailed, State.hubOf_reply, (State.told_report _ _ _ _ _ _).hubPart Hub.dark (fun _ => rfl), (State.told_report _ _ _ _ _ _).hubPart Hub.startup (fun _ => rfl)]
  exact hu

/-! ### Steps 1 to 3 (R27 to R29) -/

/-- Changes one after another that leave the hubs leave the hubs. -/
theorem State.hubs_foldl {α : Type} {g : State → α → State} (hg : ∀ s x, (g s x).hubs = s.hubs) (l : List α) (s : State) : (l.foldl g s).hubs = s.hubs :=
  List.foldlRecOn (motive := fun t : State => t.hubs = s.hubs) l g rfl (fun t h x _ => (hg t x).trans h)

theorem State.hubOf_congr {s t : State} (h : t.hubs = s.hubs) (f : Nat) : t.hubOf f = s.hubOf f := by
  rw [State.hubOf, State.hubOf, h]

theorem execStartupRailsStable_of_ok {s : State} (hin : s.inStep s.arg.unit 1 = true) (hl : s.arg.level ≠ 1) :
    ∃ t, exec .startupRailsStable s = .next t ∧ (t.hubOf s.arg.unit).startup = 2 ∧ ∀ g, g ≠ s.arg.unit → t.hubOf g = s.hubOf g := by
  have he : exec .startupRailsStable s = execStartupRailsStable s := rfl
  simp only [he, execStartupRailsStable, hin, Bool.not_true, Bool.false_eq_true, if_false, if_neg hl]
  refine ⟨_, rfl, by simp, fun g hg => ?_⟩
  rw [State.hubOf_updHub_other _ _ hg]
  split
  · refine State.hubOf_congr (State.hubs_foldl (fun _ _ => ?_) _ s) g
    rfl
  · rfl

/-- The steps that may fail in a field: which event, at which step (R29). -/
theorem exec_of_failed_step {i : Instr} {n : Nat} {s : State}
    (hi : (i = .startupRailsStable ∧ n = 1) ∨ (i = .startupIdentityAtlas ∧ n = 3) ∨ (i = .rookStartupPass ∧ n = 4) ∨ (i = .startupLinksUp ∧ n = 5))
    (hin : s.inStep s.arg.unit n = true) (hl : s.arg.level = 1) :
    exec i s = .next (s.fieldDark s.arg.unit) ∨ exec i s = .next (s.resetDark s.arg.unit) := by
  obtain ⟨rfl, rfl⟩ | ⟨rfl, rfl⟩ | ⟨rfl, rfl⟩ | ⟨rfl, rfl⟩ := hi
  · exact .inl ((if_neg (by simp [hin])).trans (if_pos hl))
  · exact .inr ((if_neg (by simp [hin])).trans (if_pos hl))
  · exact .inr ((if_neg (by simp [hin])).trans (if_pos hl))
  · exact .inl ((if_neg (by simp [hin])).trans (if_pos hl))

theorem exec_failed_step_goesDark {i : Instr} {n : Nat} {s : State}
    (hi : (i = .startupRailsStable ∧ n = 1) ∨ (i = .startupIdentityAtlas ∧ n = 3) ∨ (i = .rookStartupPass ∧ n = 4) ∨ (i = .startupLinksUp ∧ n = 5))
    (hin : s.inStep s.arg.unit n = true) (hl : s.arg.level = 1) :
    ∃ t, exec i s = .next t ∧ (t.hubOf s.arg.unit).dark = true ∧ (t.hubOf s.arg.unit).startup = n := by
  obtain ⟨-, hn, -⟩ := (s.inStep_iff _ _).1 hin
  obtain he | he := exec_of_failed_step hi hin hl
  · exact ⟨_, he, hn ▸ s.fieldDark_hub s.arg.unit⟩
  · exact ⟨_, he, hn ▸ s.resetDark_hub s.arg.unit⟩

/-- The reports of the slots that hold no valid image (R27). -/
theorem State.told_slotReports (s : State) (f : Nat) (slots : List Nat) : Told s (slots.foldl (fun s i => s.report f .imageSlotBad 0 [i]) s) :=
  SameBut.foldl (fun s i => s.told_report f .imageSlotBad 0 [i] [0]) slots s

theorem execImageVerify_of_some {s : State} {b : List Nat} (hin : s.inStep s.arg.unit 2 = true) (hb : s.bestImage s.arg.value = some b) :
    ∃ t, exec .imageVerify s = .next t ∧ (t.hubOf s.arg.unit).startup = 3 ∧ (t.hubOf s.arg.unit).image = some (imageVersion b) ∧ (t.hubOf s.arg.unit).dark = false := by
  obtain ⟨-, -, hd⟩ := (s.inStep_iff _ _).1 hin
  have he : exec .imageVerify s = execImageVerify s := rfl
  simp only [he, execImageVerify, hin, Bool.not_true, Bool.false_eq_true, if_false, hb]
  refine ⟨_, rfl, ?_⟩
  simp [(s.told_slotReports s.arg.unit _).hubPart Hub.dark (fun _ => rfl), hd]

theorem execImageVerify_of_none {s : State} (hin : s.inStep s.arg.unit 2 = true) (hb : s.bestImage s.arg.value = none) :
    ∃ t, exec .imageVerify s = .next t ∧ (t.hubOf s.arg.unit).dark = true ∧ (t.hubOf s.arg.unit).startup = 2 := by
  obtain ⟨-, hn, -⟩ := (s.inStep_iff _ _).1 hin
  have he : exec .imageVerify s = execImageVerify s := rfl
  simp only [he, execImageVerify, hin, Bool.not_true, Bool.false_eq_true, if_false, hb]
  refine ⟨_, rfl, ?_⟩
  obtain ⟨hd, hs⟩ := State.fieldDark_hub _ s.arg.unit
  exact ⟨hd, hs.trans (((s.told_slotReports s.arg.unit _).hubPart Hub.startup (fun _ => rfl) _).trans hn)⟩

/-- Before the device is ready the seed makes the records of a field, and no change of a status is counted (R29, R33). -/
theorem State.hubOf_seedAtlas {s : State} (hr : s.loith.ready = false) (f : Nat) (seeds : List (Nat × Nat × Nat)) :
    ((s.seedAtlas f seeds).hubOf f).unlisted = 2 ∧ ((s.seedAtlas f seeds).hubOf f).atlcnt = (s.hubOf f).atlcnt ∧ (s.seedAtlas f seeds).loith = s.loith := by
  simp [State.seedAtlas, hr]

/-- Step 3 takes what the image says of the device at a boot, seeds the atlas, and ends with the keys derived (R28 to R30). -/
theorem execStartupIdentityAtlas_eq {s : State} (hin : s.inStep s.arg.unit 3 = true) (hl : s.arg.level ≠ 1) :
    ∃ l : Loith, exec .startupIdentityAtlas s = .next (((({ s with loith := l } : State).seedAtlas s.arg.unit (seedTriples s.arg.list)).updHub s.arg.unit
        (fun h => { h with startup := 4 })).deriveKeys) ∧
      l.ready = s.loith.ready ∧ (s.arg.unit = 0 → s.loith.ready = false → l.device = s.arg.value % 1024) := by
  have he : exec .startupIdentityAtlas s = execStartupIdentityAtlas s := rfl
  simp only [he, execStartupIdentityAtlas, hin, Bool.not_true, Bool.false_eq_true, if_false, if_neg hl]
  refine ⟨_, rfl, ?_, fun h0 hr => ?_⟩
  · split_ifs <;> rfl
  · simp only [h0, hr]
    split_ifs <;> simp_all

theorem execStartupIdentityAtlas_of_ok {s : State} (hin : s.inStep s.arg.unit 3 = true) (hl : s.arg.level ≠ 1) :
    ∃ t, exec .startupIdentityAtlas s = .next t ∧ (t.hubOf s.arg.unit).startup = 4 ∧
      (s.loith.ready = false → (t.hubOf s.arg.unit).unlisted = 2 ∧ (t.hubOf s.arg.unit).atlcnt = (s.hubOf s.arg.unit).atlcnt) ∧
      (s.arg.unit = 0 → s.loith.ready = false → t.loith.device = s.arg.value % 1024) := by
  obtain ⟨l, he, hready, hdev⟩ := execStartupIdentityAtlas_eq hin hl
  have hseed := fun hr => State.hubOf_seedAtlas (s := { s with loith := l }) (hready.trans hr) s.arg.unit (seedTriples s.arg.list)
  refine ⟨_, he, by simp [State.hubOf_deriveKeys], fun hr => ?_, fun h0 hr => ?_⟩
  · obtain ⟨hu, hc, -⟩ := hseed hr
    simp only [State.hubOf_deriveKeys, State.hubOf_updHub_self]
    exact ⟨hu, hc⟩
  · obtain ⟨-, -, hlo⟩ := hseed hr
    simp only [State.deriveKeys_parts, State.updHub_fields, hlo]
    exact hdev h0 hr

/-! ### Steps 4 to 6 (R29) -/

/-- The checks of ports end in records of the atlas and reports of them (R29). -/
theorem State.recorded_checkPorts (s : State) (f : Nat) : Recorded s (s.checkPorts f) := by
  unfold State.checkPorts
  simp only
  split
  · exact (s.recorded_setNode f _ _).trans (State.told_report _ _ _ _ _ _).recorded
  · exact SameBut.refl s

theorem State.hubs_cleanLine (s : State) (l : Nat) : (s.cleanLine l).hubs = s.hubs := by
  unfold State.cleanLine
  simp only
  split
  · unfold State.countSlice
    split <;> rfl
  · rfl

/-- A field that applies a generation records it in its hub, once its slices have written back the lines whose homes move (R40, R112). -/
theorem State.applyGen_one (s : State) (f g : Nat) :
    ∃ u v : State, Recorded u (s.applyGen [f] g) ∧ u.hubs = (v.recordGen f g).hubs ∧ v.hubs = s.hubs :=
  ⟨_, _, State.recorded_checkPorts _ f, State.hubs_foldl (g := State.endMiss) (fun _ _ => rfl) _ _, State.hubs_foldl State.hubs_cleanLine _ s⟩

/-- It stays in its step of start-up. -/
theorem State.hubOf_applyGen (s : State) (f g : Nat) : ((s.applyGen [f] g).hubOf f).rgen = g ∧ ((s.applyGen [f] g).hubOf f).startup = (s.hubOf f).startup := by
  obtain ⟨u, v, hu, hv, hs⟩ := s.applyGen_one f g
  rw [hu.hubPart Hub.rgen (fun _ => rfl), hu.hubPart Hub.startup (fun _ => rfl), State.hubOf_congr hv, State.recordGen, State.hubOf_updHub_self, State.hubOf_congr hs]
  exact ⟨rfl, rfl⟩

theorem execRookStartupPass_of_ok {s : State} (hin : s.inStep s.arg.unit 4 = true) (hl : s.arg.level ≠ 1) :
    ∃ t, exec .rookStartupPass s = .next t ∧ (t.hubOf s.arg.unit).startup = (if s.loith.ready then 7 else 5) ∧ (t.hubOf s.arg.unit).rgen = 1 := by
  have he : exec .rookStartupPass s = execRookStartupPass s := rfl
  simp only [he, execRookStartupPass, hin, Bool.not_true, Bool.false_eq_true, if_false, if_neg hl]
  have hgen := fun u : State => u.hubOf_applyGen s.arg.unit 1
  split
  · refine ⟨_, rfl, ?_⟩
    rw [State.hubOf_reply, (State.told_report _ _ _ _ _ _).hubPart Hub.startup (fun _ => rfl), (State.told_report _ _ _ _ _ _).hubPart Hub.rgen (fun _ => rfl), State.hubOf_withLoith,
      (hgen _).1, (hgen _).2, State.hubOf_updHub_self]
    exact ⟨rfl, rfl⟩
  · refine ⟨_, rfl, ?_, (hgen _).1⟩
    rw [(hgen _).2, State.hubOf_updHub_self]

/-- Ports that stay untrained have no lane (R74). -/
theorem State.recorded_untrained (s : State) (ports : List Nat) :
    Recorded s (ports.foldl (fun (s : State) p => s.setNode s.rimHub (57 + p) (fun r => { r.darkened with caps := 0 })) s) :=
  SameBut.foldl (fun u _ => u.recorded_setNode _ _ _) ports s

theorem execStartupLinksUp_of_ok {s : State} (hin : s.inStep s.arg.unit 5 = true) (hl : s.arg.level ≠ 1) :
    ∃ t, exec .startupLinksUp s = .next t ∧ (t.hubOf s.arg.unit).startup = 6 ∧
      t.rtime = if s.loith.ready = true ∨ s.loith.epoch = true then s.rtime else max s.rtime s.arg.value := by
  have he : exec .startupLinksUp s = execStartupLinksUp s := rfl
  simp only [he, execStartupLinksUp, hin, Bool.not_true, Bool.false_eq_true, if_false, if_neg hl]
  have h := State.recorded_untrained (s.updHub s.arg.unit (fun h => { h with startup := 6 })) (s.arg.list.filter (· < 120))
  generalize (s.arg.list.filter (· < 120)).foldl _ (s.updHub s.arg.unit (fun h => { h with startup := 6 })) = s2 at h ⊢
  have hs : (s2.hubOf s.arg.unit).startup = 6 := by
    rw [h.hubPart Hub.startup (fun _ => rfl), State.hubOf_updHub_self]
  have ht : s2.rtime = s.rtime := h.part State.rtime (fun _ => rfl)
  by_cases hr : s.loith.ready = true ∨ s.loith.epoch = true
  · rw [if_pos (by simpa using hr), if_pos hr]
    exact ⟨_, rfl, hs, ht⟩
  · rw [if_neg (by simpa using hr), if_neg hr]
    refine ⟨_, rfl, ?_, ?_⟩
    · rw [(State.told_report _ _ _ _ _ _).hubPart Hub.startup (fun _ => rfl)]
      exact hs
    · rw [(State.told_report _ _ _ _ _ _).part State.rtime (fun _ => rfl), ht]

/-- The hub of a field at the last step of start-up, with the share that the platform has set for it where the shares fit (R29, R57). -/
def Hub.atReady (shares : List Nat) (f : Nat) (h : Hub) : Hub :=
  if h.dark then h else { h with startup := 7, share := if shares.sum ≤ 20000 then shares.getD f 0 else h.share }

theorem execDeviceReady_of_all {s : State} (hc : s.canBeReady = true) :
    ∃ t, exec .deviceReady s = .next t ∧ t.loith.ready = true ∧ ∀ f, s.hubs.has f = true → t.hubOf f = (s.hubOf f).atReady s.arg.list f := by
  refine ⟨_, if_neg (by simp [hc]), rfl, fun f hf => ?_⟩
  exact KMap.get_map (fun f h => h.atReady s.arg.list f) (.inl hf)

theorem Hub.atReady_of_light {h : Hub} (hd : h.dark = false) (shares : List Nat) (f : Nat) :
    (h.atReady shares f).startup = 7 ∧ (h.atReady shares f).share = if shares.sum ≤ 20000 then shares.getD f 0 else h.share := by
  simp [Hub.atReady, hd]

theorem startUpGoesStepByStep_holds : startUpGoesStepByStep := by
  refine ⟨?_, ?_, ?_, ?_, ?_, ?_, ?_, ?_, ?_⟩
  · exact fun s _ => ⟨_, rfl, rfl, rfl, rfl, rfl, rfl, rfl, rfl, rfl, rfl, rfl, rfl, rfl⟩
  · exact fun s ⟨hin, hl⟩ => execStartupRailsStable_of_ok hin hl
  · exact fun i n hi s ⟨hin, hl⟩ => exec_failed_step_goesDark hi hin hl
  · exact fun b s ⟨hin, hb⟩ => execImageVerify_of_some hin hb
  · exact fun s ⟨hin, hb⟩ => execImageVerify_of_none hin hb
  · exact fun s ⟨hin, hl⟩ => execStartupIdentityAtlas_of_ok hin hl
  · exact fun s ⟨hin, hl⟩ => execRookStartupPass_of_ok hin hl
  · exact fun s ⟨hin, hl⟩ => execStartupLinksUp_of_ok hin hl
  · intro s hc
    obtain ⟨t, he, hr, hf⟩ := execDeviceReady_of_all hc
    refine ⟨t, he, hr, fun f hhas hd => ?_⟩
    rw [hf f hhas]
    exact Hub.atReady_of_light hd s.arg.list f

/-- Settles O52: each event of start-up and each event of clocks, rails and the limit of power, by the lemma that says what its function gives. -/
theorem startUpClocksAndRails : Obligations.StartUpClocksAndRails := ⟨startUpGoesStepByStep_holds, clocksRailsAndPowerLimits_holds⟩

end Sys2Proof.Machine
end

section
/-! SUPPORT. Nodes that change their status: R17, R34, R39, R42, R101, R112, R422. -/

namespace Sys2Proof.Machine

/-- A change of a hub that leaves its atlas leaves the records. -/
theorem State.atlasRec_updHub (s : State) (f g n : Nat) {k : Hub → Hub} (ha : ∀ h, (k h).atlas = h.atlas := by intro; rfl)
    (hd : ∀ h, (k h).dark = h.dark := by intro; rfl) (hu : ∀ h, (k h).unlisted = h.unlisted := by intro; rfl) : (s.updHub f k).atlasRec g n = s.atlasRec g n := by
  by_cases h : g = f
  · subst h
    exact State.atlasRec_congr (by simp [ha]) (by simp [hd]) (by simp [hu]) n
  · have hg := s.hubOf_updHub_other k h
    exact State.atlasRec_congr (by rw [hg]) (by rw [hg]) (by rw [hg]) n

theorem AtlasRec.status_darkened {r : AtlasRec} (h : r.status ≠ 3) : r.darkened.status = 2 := by
  simp [AtlasRec.darkened, h, AtlasRec.withStatus]

theorem AtlasRec.caps_darkened (r : AtlasRec) : r.darkened.caps = r.caps := by
  unfold AtlasRec.darkened
  split <;> rfl

/-! ### The platform's writes of a status (R34, R42) -/

/-- The platform retires a node, and its test is no longer asked for (R34). -/
def State.retired (s : State) (f n : Nat) : State :=
  (s.setNode f n (fun r => r.withStatus 3 3)).updHub f (fun h => { h with rookFirst := h.rookFirst.filter (fun e => !((e.1, e.2.1) = testedAs f n && e.2.2.1 = 1)) })

theorem State.retired_counts (s : State) {f n : Nat} (h : (s.atlasRec f n).status ≤ 2) :
    ((s.retired f n).atlasRec f n).status = 3 ∧ ((s.retired f n).hubOf f).atlcnt = (s.hubOf f).atlcnt + 1 := by
  have hs := s.status_setNode f n (fun r => r.withStatus 3 3)
  have hc := s.atlcnt_setNode f n (fun r => r.withStatus 3 3) (by simp only [AtlasRec.withStatus]; omega)
  have hr : (s.retired f n).atlasRec f n = (s.setNode f n (fun r => r.withStatus 3 3)).atlasRec f n :=
    State.atlasRec_updHub _ f f n
  exact ⟨hr ▸ hs, (congrArg Hub.atlcnt (State.hubOf_updHub_self _ f _)).trans hc⟩

theorem execAtlasStatusWrite_retires {s : State} (hv : s.arg.value = 3) (hs : (s.atlasRec s.arg.unit s.arg.other).status ≤ 2) :
    ∃ t, exec .atlasStatusWrite s = .next t ∧ Told (s.retired s.arg.unit s.arg.other) t := by
  have he : exec .atlasStatusWrite s = execAtlasStatusWrite s := rfl
  simp only [he, execAtlasStatusWrite, if_pos hv]
  rw [if_pos (by omega)]
  refine ⟨_, rfl, ?_⟩
  split
  · exact State.told_reportField _ _ _ _
  · exact SameBut.refl _

/-- A retired node that the platform restores waits for its test (R34). -/
theorem execAtlasStatusWrite_restores {s : State} (hv : s.arg.value ≠ 3) (hs : (s.atlasRec s.arg.unit s.arg.other).status = 3) :
    let e := testedAs s.arg.unit s.arg.other
    exec .atlasStatusWrite s = .next (if (s.hubOf s.arg.unit).restored e.1 e.2 then s
      else s.updHub s.arg.unit (fun h => { h with rookFirst := h.rookFirst ++ [(e.1, e.2, 1, s.rtime)] })) := by
  have he : exec .atlasStatusWrite s = execAtlasStatusWrite s := rfl
  simp only [he, execAtlasStatusWrite, if_neg hv, if_pos hs]

theorem Hub.restored_iff (h : Hub) (t u : Nat) : h.restored t u = true ↔ ∃ e ∈ h.rookFirst, (e.1, e.2.1) = (t, u) ∧ e.2.2.1 = 1 := by
  simp [Hub.restored, and_assoc]

theorem atlasStatusWrite_restored_waits {s : State} (hv : s.arg.value ≠ 3) (hs : (s.atlasRec s.arg.unit s.arg.other).status = 3) :
    ∃ t, exec .atlasStatusWrite s = .next t ∧ (t.atlasRec s.arg.unit s.arg.other).status = 3 ∧ (t.hubOf s.arg.unit).atlcnt = (s.hubOf s.arg.unit).atlcnt ∧
      ∃ e ∈ (t.hubOf s.arg.unit).rookFirst, (e.1, e.2.1) = testedAs s.arg.unit s.arg.other ∧ e.2.2.1 = 1 := by
  refine ⟨_, execAtlasStatusWrite_restores hv hs, ?_⟩
  split
  · exact ⟨hs, rfl, (Hub.restored_iff _ _ _).1 ‹_›⟩
  · refine ⟨(congrArg AtlasRec.status (State.atlasRec_updHub s _ _ _)).trans hs, ?_⟩
    rw [State.hubOf_updHub_self]
    exact ⟨rfl, _, List.mem_append_right _ (List.mem_singleton_self _), rfl, rfl⟩

/-! ### Links and slices in service (R39, R101, R112) -/

/-- Counting an event leaves the records. -/
theorem State.atlasRec_countFabric (s : State) (f ev k g n : Nat) : (s.countFabric f ev k).atlasRec g n = s.atlasRec g n := by
  unfold State.countFabric
  split
  · rfl
  · exact s.atlasRec_updHub f g n

theorem execLinkRetryLimit_degrades {s : State} (hk : (s.atlasRec s.arg.unit s.arg.other).kind = 0x09 ∨ (s.atlasRec s.arg.unit s.arg.other).kind = 0x0A)
    (hs : (s.atlasRec s.arg.unit s.arg.other).status < 2) :
    ∃ t, exec .linkRetryLimit s = .next t ∧
      let left := (s.atlasRec s.arg.unit s.arg.other).caps - s.arg.value
      (64 < s.arg.level → (t.atlasRec s.arg.unit s.arg.other).caps = left ∧ (t.atlasRec s.arg.unit s.arg.other).status = if left = 0 then 2 else 1) ∧
      (s.arg.level ≤ 64 → t.atlasRec s.arg.unit s.arg.other = s.atlasRec s.arg.unit s.arg.other) := by
  have he : exec .linkRetryLimit s = execLinkRetryLimit s := rfl
  have hg : ¬(((s.atlasRec s.arg.unit s.arg.other).kind ≠ 0x09 ∧ (s.atlasRec s.arg.unit s.arg.other).kind ≠ 0x0A) ∨
      (s.atlasRec s.arg.unit s.arg.other).status ≥ 2) := by omega
  have hmin : ∀ a b : Nat, a - min a b = a - b := by omega
  simp only [he, execLinkRetryLimit, if_neg hg, hmin]
  by_cases hl : s.arg.level ≤ 64
  · rw [if_pos hl]
    exact ⟨_, rfl, fun h => absurd hl (Nat.not_le.2 h), fun _ => s.atlasRec_countFabric _ _ _ _ _⟩
  · rw [if_neg hl]
    refine ⟨_, rfl, fun _ => ?_, fun h => absurd h hl⟩
    rw [(State.told_report _ _ _ _ _ _).atlasRec]
    obtain ⟨k, hr⟩ := State.atlasRec_setNode (s.countFabric s.arg.unit 0x44 s.arg.level) s.arg.unit s.arg.other
      (fun r => { r.withStatus (if (s.atlasRec s.arg.unit s.arg.other).caps - s.arg.value = 0 then 2 else 1) 2 with
        caps := (s.atlasRec s.arg.unit s.arg.other).caps - s.arg.value })
    rw [hr]
    exact ⟨rfl, rfl⟩

/-- A dark slice has dropped its lines, and poisoned those of the dirty ones that cannot be read (R112). -/
def State.sliceDropped (s : State) (t : Nat) (unread : List Nat) : State :=
  let home := fun l => s.homeOf (lineGpa l) = .tile t
  let s0 := ((s.misses.map (fun e => e.1)).filter (fun l => home l)).foldl State.endMiss s
  { s0 with poison := (s.poison ++ unread.filter (fun l => s.dirty.contains l && home l)).eraseDups, dirty := s.dirty.filter (fun l => !home l),
            cached := s.cached.filter (fun e => !home e.1) }

theorem execSliceGoesDark_eq (s : State) : exec .sliceGoesDark s =
    .next ((s.sliceDropped s.arg.unit s.arg.list).setNode (fieldOfTile s.arg.unit) (nodeOfUnit s.arg.unit 3) AtlasRec.darkened) := rfl

theorem State.hubs_sliceDropped (s : State) (t : Nat) (unread : List Nat) : (s.sliceDropped t unread).hubs = s.hubs :=
  State.hubs_foldl (g := State.endMiss) (fun _ _ => rfl) _ s

theorem State.atlasRec_of_hubs {s t : State} (h : t.hubs = s.hubs) (f n : Nat) : t.atlasRec f n = s.atlasRec f n := by
  have hf := State.hubOf_congr h f
  exact State.atlasRec_congr (by rw [hf]) (by rw [hf]) (by rw [hf]) n

theorem execSliceGoesDark_drops {s : State} (hs : (s.atlasRec (fieldOfTile s.arg.unit) (nodeOfUnit s.arg.unit 3)).status ≠ 3) :
    ∃ t, exec .sliceGoesDark s = .next t ∧
      (t.atlasRec (fieldOfTile s.arg.unit) (nodeOfUnit s.arg.unit 3)).status = 2 ∧ (∀ l ∈ t.dirty, s.homeOf (lineGpa l) ≠ .tile s.arg.unit) ∧
      (∀ e ∈ t.cached, s.homeOf (lineGpa e.1) ≠ .tile s.arg.unit) ∧
      ∀ l ∈ s.arg.list, l ∈ s.dirty → s.homeOf (lineGpa l) = .tile s.arg.unit → l ∈ t.poison := by
  have h := State.recorded_setNode (s.sliceDropped s.arg.unit s.arg.list) (fieldOfTile s.arg.unit) (nodeOfUnit s.arg.unit 3) AtlasRec.darkened
  refine ⟨_, execSliceGoesDark_eq s, ?_, ?_, ?_, ?_⟩
  · rw [State.status_setNode, State.atlasRec_of_hubs (s.hubs_sliceDropped _ _), AtlasRec.status_darkened hs]
  · rw [h.part State.dirty (fun _ => rfl)]
    intro l hl
    simpa using (List.mem_filter.1 hl).2
  · rw [h.part State.cached (fun _ => rfl)]
    intro e hl
    simpa using (List.mem_filter.1 hl).2
  · rw [h.part State.poison (fun _ => rfl)]
    intro l hl hd hh
    simp [State.sliceDropped, hl, hd, hh]

/-! ### The rim (R17, R76) -/

theorem execUalinkPortDark_darkens {s : State} (hs : (s.atlasRec s.rimHub (57 + s.arg.unit)).status ≠ 3) :
    ∃ t, exec .ualinkPortDark s = .next t ∧ s.arg.unit ∈ t.loith.darkPorts ∧ (t.atlasRec s.rimHub (57 + s.arg.unit)).status = 2 ∧
      (t.atlasRec s.rimHub (57 + s.arg.unit)).caps = (s.atlasRec s.rimHub (57 + s.arg.unit)).caps := by
  let s1 : State := { s with loith := { s.loith with darkPorts := (s.arg.unit :: s.loith.darkPorts).eraseDups } }
  obtain ⟨k, hr⟩ := s1.atlasRec_setNode s.rimHub (57 + s.arg.unit) AtlasRec.darkened
  have hs1 : s1.atlasRec s.rimHub (57 + s.arg.unit) = s.atlasRec s.rimHub (57 + s.arg.unit) := rfl
  refine ⟨s1.setNode s.rimHub (57 + s.arg.unit) AtlasRec.darkened, rfl, ?_, ?_, ?_⟩
  · rw [(s1.recorded_setNode _ _ _).part (fun u => u.loith.darkPorts) (fun _ => rfl)]
    simp [s1]
  · rw [hr, hs1]
    exact AtlasRec.status_darkened hs
  · rw [hr, hs1]
    exact AtlasRec.caps_darkened _

/-- A port, interface or chip leaves the atlas: its record is that of no node (R17). -/
def State.unlist (s : State) (n : Nat) : State := s.setNode s.rimHub n (fun r => { r.darkened with kind := 0xFF })

theorem State.recorded_unlist (s : State) (n : Nat) : Recorded s (s.unlist n) := s.recorded_setNode _ n _

theorem State.kind_unlist (s : State) (n : Nat) : ((s.unlist n).atlasRec s.rimHub n).kind = 0xFF := by
  obtain ⟨k, h⟩ := s.atlasRec_setNode s.rimHub n (fun r => { r.darkened with kind := 0xFF })
  rw [State.unlist, h]

theorem execFabricInterfaceDark_chip {s : State} (hf : s.arg.flag = true) : exec .fabricInterfaceDark s =
    .next (({ s with loith := { s.loith with darkChips := (s.arg.unit :: s.loith.darkChips).eraseDups } } : State).unlist (177 + s.arg.unit)) := if_pos hf

/-- The links of an interface that has gone dark, with its ports and chips (R17). -/
def Loith.interfaceDark (l : Loith) (i : Nat) : Loith :=
  { l with darkIfs := (i :: l.darkIfs).eraseDups, darkChips := ((List.range 4).map (4 * i + ·) ++ l.darkChips).eraseDups,
           darkPorts := ((List.range 9).map (9 * i + ·) ++ l.darkPorts).eraseDups }

theorem execFabricInterfaceDark_interface {s : State} (hf : s.arg.flag = false) :
    ∃ t, exec .fabricInterfaceDark s = .next t ∧ Recorded { s with loith := s.loith.interfaceDark s.arg.unit } t :=
  ⟨_, if_neg (by simp [hf]), (SameBut.foldl State.recorded_unlist _ _).trans (State.recorded_setNode _ _ _ _)⟩

theorem execFabricInterfaceDark_darkens (s : State) :
    ∃ t, exec .fabricInterfaceDark s = .next t ∧
      (s.arg.flag = true → s.arg.unit ∈ t.loith.darkChips ∧ (t.atlasRec s.rimHub (177 + s.arg.unit)).kind = 0xFF) ∧
      (s.arg.flag = false → s.arg.unit ∈ t.loith.darkIfs ∧ (∀ j, j < 4 → 4 * s.arg.unit + j ∈ t.loith.darkChips) ∧ ∀ j, j < 9 → 9 * s.arg.unit + j ∈ t.loith.darkPorts) := by
  cases hf : s.arg.flag with
  | true =>
    refine ⟨_, execFabricInterfaceDark_chip hf, fun _ => ⟨?_, State.kind_unlist _ _⟩, fun h => absurd h (by simp)⟩
    rw [(State.recorded_unlist _ _).part (fun u => u.loith.darkChips) (fun _ => rfl)]
    simp
  | false =>
    obtain ⟨t, he, ht⟩ := execFabricInterfaceDark_interface hf
    refine ⟨t, he, fun h => absurd h (by simp), fun _ => ?_⟩
    rw [ht.part (fun u => u.loith.darkIfs) (fun _ => rfl), ht.part (fun u => u.loith.darkChips) (fun _ => rfl), ht.part (fun u => u.loith.darkPorts) (fun _ => rfl)]
    simp +contextual [Loith.interfaceDark]

theorem nodesChangeStatus_holds : nodesChangeStatus := by
  refine ⟨?_, ?_, ?_, ?_, ?_, ?_⟩
  · intro s ⟨hv, hs⟩
    obtain ⟨t, he, ht⟩ := execAtlasStatusWrite_retires hv hs
    have hr := s.retired_counts hs
    rw [← ht.atlasRec, ← ht.hubPart Hub.atlcnt (fun _ => rfl)] at hr
    exact ⟨t, he, hr⟩
  · exact fun s ⟨hv, hs⟩ => atlasStatusWrite_restored_waits hv hs
  · exact fun s ⟨hk, hs⟩ => execLinkRetryLimit_degrades hk hs
  · exact fun s hs => execSliceGoesDark_drops hs
  · exact fun s hs => execUalinkPortDark_darkens hs
  · exact fun s _ => execFabricInterfaceDark_darkens s

end Sys2Proof.Machine
end

section
/-! SUPPORT. The rook: R34, R43, R44, R422. -/

namespace Sys2Proof.Machine

/-! ### What the rook's going on changes -/

/-- A hub but for what its rook does now and next. -/
def Hub.sansRook (h : Hub) : Hub :=
  { h with rookPos := 0, rookSince := 0, rookFirst := [], rookBusy := false, rookTile := 0, rookUnit := 0, rookNode := 0, rookFrom := 0, rookAgain := none, rookEnd := 0 }

/-- Between two states rooks have gone on, and nothing else has changed. -/
abbrev RooksMoved : State → State → Prop := SameBut (fun s => { s with hubs := [] }) Hub.sansRook

theorem RooksMoved.atlasRec {s t : State} (h : RooksMoved s t) (f n : Nat) : t.atlasRec f n = s.atlasRec f n :=
  State.atlasRec_congr (h.hubPart Hub.atlas (fun _ => rfl) f) (h.hubPart Hub.dark (fun _ => rfl) f) (h.hubPart Hub.unlisted (fun _ => rfl) f) n

theorem Hub.sansRook_rookDrop (h : Hub) (place : Option Nat) (rtime : Nat) : (h.rookDrop place rtime).sansRook = h.sansRook := by
  cases place <;> rfl

theorem State.rooksMoved_updHub (s : State) (f : Nat) (g : Hub → Hub) (hg : (g (s.hubOf f)).sansRook = (s.hubOf f).sansRook) : RooksMoved s (s.updHub f g) :=
  State.sameBut_updHub _ _ s f g rfl hg

theorem State.rooksMoved_rookAdvance (s : State) (f : Nat) : RooksMoved s (s.rookAdvance f) := by
  unfold State.rookAdvance
  split
  · exact SameBut.refl s
  · split
    · exact SameBut.refl s
    · split
      · exact s.rooksMoved_updHub f _ (Hub.sansRook_rookDrop _ _ _)
      · exact s.rooksMoved_updHub f _ (Hub.sansRook_rookDrop _ _ _)

theorem execRookPassStart_of_due {s : State} (hd : s.passDue s.arg.unit = true) :
    ∃ t, exec .rookPassStart s = .next t ∧ (t.hubOf s.arg.unit).rookPass = s.rtime ∧ (t.hubOf s.arg.unit).rookRan = true := by
  have h := fun u : State => u.rooksMoved_rookAdvance s.arg.unit
  refine ⟨_, if_neg (by simp [hd]), ?_, ?_⟩
  · rw [(h _).hubPart Hub.rookPass (fun _ => rfl), State.hubOf_updHub_self]
  · rw [(h _).hubPart Hub.rookRan (fun _ => rfl), State.hubOf_updHub_self]

/-! ### The rook pre-empts (R43, R44) -/

/-- The occupied contexts of a core. -/
def State.occupied (s : State) (k : Nat) : List Nat := (s.ctxs.filter (fun e => coreOfCtx e.1 = k && e.2.occ)).map (fun e => e.1)

/-- A section at the core defers the test; a core under test counts it (R44). -/
theorem execRookPreempt_defers {s : State} {u n : Nat} {b : Option Nat} (hw : s.rookWaited s.arg.unit = true) (hd : s.rookDue s.arg.unit = some (u, n, b))
    (hnp : (s.occupied (rookCore u n)).any (fun i => (s.ctxOf i).np) = true) :
    ∃ t, exec .rookPreempt s = .next t ∧
      (t.coreOf (rookCore u n)).deferrals = (s.coreOf (rookCore u n)).deferrals + (if n < 2 then 1 else 0) ∧ t.ctxs = s.ctxs := by
  have he : exec .rookPreempt s = execRookPreempt s := rfl
  unfold State.occupied at hnp
  simp only [he, execRookPreempt, hw, hd, hnp, Bool.not_true, Bool.false_eq_true, if_false, if_true]
  by_cases hn : 2 ≤ n
  · rw [if_pos hn, if_neg (Nat.not_lt.2 hn)]
    exact ⟨_, rfl, by simp, by simp⟩
  · rw [if_neg hn, if_pos (Nat.not_le.1 hn)]
    refine ⟨_, rfl, ?_⟩
    split
    · have ht := fun (v : State) tag items => v.told_reportTo s.arg.unit .selftestDeferred tag items
      rw [(ht _ _ _).part (fun v => v.coreOf (rookCore u n)) (fun _ => rfl), (ht _ _ _).part State.ctxs (fun _ => rfl)]
      simp
    · simp

/-- Leaving barriers and semaphores, and giving a load up, keep the contexts and the cores. -/
theorem State.leaveSemQueues_parts (s : State) (i : Nat) : (s.leaveSemQueues i).ctxs = s.ctxs ∧ (s.leaveSemQueues i).cores = s.cores := by
  unfold State.leaveSemQueues State.leaveBarriers
  simp only
  split <;> exact ⟨rfl, rfl⟩

theorem State.dropLoad_parts (s : State) (c : Ctx) : (s.dropLoad c).ctxs = s.ctxs ∧ (s.dropLoad c).cores = s.cores := by
  unfold State.dropLoad
  split <;> exact ⟨rfl, rfl⟩

theorem State.ctxOf_toParkArea (s : State) (i k : Nat) :
    (s.toParkArea i).ctxOf k = if k = i ∧ (s.coreOf (coreOfCtx i)).parkRoom = true then {} else s.ctxOf k := by
  unfold State.toParkArea
  by_cases hr : (s.coreOf (coreOfCtx i)).parkRoom = true
  · simp [hr, State.ctxOf, KMap.get_put]
  · simp [hr]

/-- A context as pre-emption leaves it (R248). -/
def Ctx.preempted (c : Ctx) : Ctx := { c with st := 3, preempt := 0, stall := none, reported := false, hold := none, reply := none, refusedArr := false }

theorem State.preemptNow_rook (s : State) (i : Nat) :
    s.preemptNow i 1 = (((s.dropLoad (s.ctxOf i)).leaveSemQueues i).updCtx i Ctx.preempted).toParkArea i := rfl

/-- Pre-emption by the rook frees its context where the park area has room, and no other (R183). -/
theorem State.occ_preemptNow (s : State) (i k : Nat) :
    ((s.preemptNow i 1).ctxOf k).occ = if k = i ∧ (s.coreOf (coreOfCtx i)).parkRoom = true then false else (s.ctxOf k).occ := by
  let u := (s.dropLoad (s.ctxOf i)).leaveSemQueues i
  obtain ⟨hlx, hlc⟩ := s.dropLoad_parts (s.ctxOf i)
  obtain ⟨hqx, hqc⟩ := (s.dropLoad (s.ctxOf i)).leaveSemQueues_parts i
  have hx : ∀ j, u.ctxOf j = s.ctxOf j := fun j => by rw [State.ctxOf, hqx, hlx, State.ctxOf]
  have hc : (u.updCtx i Ctx.preempted).coreOf (coreOfCtx i) = s.coreOf (coreOfCtx i) := by
    rw [State.coreOf, State.updCtx, hqc, hlc, State.coreOf]
  rw [State.preemptNow_rook, State.ctxOf_toParkArea, hc, State.ctxOf_updCtx, hx, hx]
  by_cases hk : k = i
  · subst hk
    by_cases hr : (s.coreOf (coreOfCtx k)).parkRoom = true <;> simp [hr, Ctx.preempted]
  · simp [hk]

/-- Where no context that goes with it holds for a reply or is in a section, a running context leaves for the park area at once (R43, R99, R183). -/
theorem State.preemptCtx_frees {s : State} {i : Nat} (hp : ∀ j ∈ s.withPartner i, (s.ctxOf j).np = false ∧ s.mustHold (s.ctxOf j) = false)
    (hst : (s.ctxOf i).st = 0) (hr : (s.coreOf (coreOfCtx i)).parkRoom = true) : ((s.preemptCtx i 1).ctxOf i).occ = false := by
  have hany : (s.withPartner i).any (fun j => (s.ctxOf j).np || s.mustHold (s.ctxOf j)) = false := by
    simpa [List.any_eq_false] using hp
  have he : s.preemptCtx i 1 = (s.withPartner i).foldl (fun s j => s.preemptNow j 1) s := by
    simp [State.preemptCtx, hst, hany]
  rw [he, State.withPartner, List.foldl_cons]
  refine List.foldlRecOn (motive := fun t : State => (t.ctxOf i).occ = false) _ _ ?_ (fun t ht j _ => ?_)
  · simp [State.occ_preemptNow, hr]
  · simp [State.occ_preemptNow, ht]

/-- A running context that is the only one of its core is pre-empted when the rook has waited for it, if the park area has an entry (R43, R183). -/
theorem execRookPreempt_frees {s : State} {u n i : Nat} {b : Option Nat} (hw : s.rookWaited s.arg.unit = true) (hd : s.rookDue s.arg.unit = some (u, n, b))
    (hi : s.occupied (rookCore u n) = [i]) (hp : ∀ j ∈ s.withPartner i, (s.ctxOf j).np = false ∧ s.mustHold (s.ctxOf j) = false)
    (hst : (s.ctxOf i).st = 0) (hr : 1 + (s.coreOf (rookCore u n)).parked.length ≤ min 64 (s.coreOf (rookCore u n)).parkCap) :
    ∃ t, exec .rookPreempt s = .next t ∧ (t.ctxOf i).occ = false := by
  have hk : coreOfCtx i = rookCore u n := by
    have hmem : i ∈ s.occupied (rookCore u n) := by rw [hi]; exact List.mem_singleton_self i
    obtain ⟨e, he, rfl⟩ := List.mem_map.1 hmem
    have hf := (List.mem_filter.1 he).2
    simp only [Bool.and_eq_true, decide_eq_true_eq] at hf
    exact hf.1
  have hnp := (hp i List.mem_cons_self).1
  have he : exec .rookPreempt s = execRookPreempt s := rfl
  unfold State.occupied at hi
  have hroom : ¬(([i].any (fun i => (s.ctxOf i).st ≠ 0)) = true ∨
      [i].length + (s.coreOf (rookCore u n)).parked.length > min 64 (s.coreOf (rookCore u n)).parkCap) := by
    simp only [List.any_cons, List.any_nil, hst, List.length_singleton]
    simp only [ne_eq, not_true_eq_false, decide_false, Bool.or_self, Bool.false_eq_true, false_or]
    omega
  simp only [he, execRookPreempt, hw, hd, hi, Bool.not_true, Bool.false_eq_true, if_false]
  rw [if_neg (by simp [hnp]), if_neg hroom]
  refine ⟨_, rfl, ?_⟩
  rw [(State.rooksMoved_rookAdvance _ _).part (fun v => v.ctxOf i) (fun _ => rfl)]
  exact State.preemptCtx_frees hp hst (hk ▸ decide_eq_true (by omega))

/-! ### The end of a test (R34, R43, R44, R422) -/

/-- A restored node that passes is good (R34). -/
theorem State.testResult_restored (s : State) {f n : Nat} (src : Nat) (hs : (s.atlasRec f n).status = 3) :
    ((s.testResult f n 0 0 src true).atlasRec f n).status = 0 := by
  have hfull : ∀ full : Nat, ¬(full ≠ 0 ∧ 0 = full) := fun full h => h.1 h.2.symm
  simp only [State.testResult, State.status_setNode]
  simp [hs, statusOfCaps, hfull]

/-- A node that fails twice as a whole is dark; a dark one stays dark (R34). -/
theorem State.testResult_failed (s : State) {f n fails : Nat} (src : Nat) (restored : Bool) (hf : 2 ≤ fails) (hs : (s.atlasRec f n).status ≠ 3) :
    ((s.testResult f n fails 0 src restored).atlasRec f n).status = 2 := by
  simp only [State.testResult, State.status_setNode]
  by_cases h2 : (s.atlasRec f n).status = 2
  · simp [h2]
  · simp [h2, hs, hf, AtlasRec.withStatus]

/-- The machine when a test has ended with its result: a core's own test ends its count of deferrals (R44). -/
def State.testEnded (s : State) (f : Nat) : State :=
  let h := s.hubOf f
  let u := (h.rookAt f).1
  let j := h.rookUnit
  let s1 := s.testResult f (testedNode u j) s.arg.level s.arg.value h.rookFrom (h.rookAgain = some 1)
  if j < 2 then s1.updCore (2 * u + j) (fun c => { c with deferrals := 0, tested := s.rtime }) else s1

theorem execRookTestDone_of_done {s : State} (hd : s.testDone s.arg.unit = true) :
    ∃ t, exec .rookTestDone s = .next t ∧ RooksMoved (s.testEnded s.arg.unit) t :=
  ⟨_, if_neg (by simp [hd]), (State.rooksMoved_updHub _ _ _ rfl).trans (State.rooksMoved_rookAdvance _ _)⟩

theorem State.atlasRec_testEnded (s : State) (f n : Nat) : (s.testEnded f).atlasRec f n =
    (s.testResult f (testedNode ((s.hubOf f).rookAt f).1 (s.hubOf f).rookUnit) s.arg.level s.arg.value (s.hubOf f).rookFrom ((s.hubOf f).rookAgain = some 1)).atlasRec f n := by
  unfold State.testEnded
  simp only
  split
  · exact State.atlasRec_of_hubs rfl f n
  · rfl

theorem execRookTestDone_ends {s : State} (hd : s.testDone s.arg.unit = true) :
    ∃ t, exec .rookTestDone s = .next t ∧
      let u := ((s.hubOf s.arg.unit).rookAt s.arg.unit).1
      let j := (s.hubOf s.arg.unit).rookUnit
      let n := testedNode u j
      ((s.hubOf s.arg.unit).rookAgain = some 1 → s.arg.level = 0 → s.arg.value = 0 → (s.atlasRec s.arg.unit n).status = 3 → (t.atlasRec s.arg.unit n).status = 0) ∧
      (j < 2 → (t.coreOf (2 * u + j)).deferrals = 0 ∧ (t.coreOf (2 * u + j)).tested = s.rtime) ∧
      (2 ≤ s.arg.level → s.arg.value = 0 → (s.atlasRec s.arg.unit n).status ≠ 3 → (t.atlasRec s.arg.unit n).status = 2) := by
  obtain ⟨t, he, ht⟩ := execRookTestDone_of_done hd
  refine ⟨t, he, fun ha hl hv hs => ?_, fun hj => ?_, fun hl hv hs => ?_⟩
  · rw [ht.atlasRec, State.atlasRec_testEnded, ha, hl, hv]
    exact s.testResult_restored _ hs
  · rw [ht.part (fun v => v.coreOf _) (fun _ => rfl), State.testEnded, if_pos hj, State.coreOf_updCore_self]
    exact ⟨rfl, rfl⟩
  · rw [ht.atlasRec, State.atlasRec_testEnded, hv]
    exact s.testResult_failed _ _ hl hs

theorem execRookTestAbandon_of_due {s : State} (hd : s.abandonDue s.arg.unit = true) :
    ∃ t, exec .rookTestAbandon s = .next t ∧ (t.hubOf s.arg.unit).rookBusy = false := by
  refine ⟨_, if_neg (by simp [hd]), ?_⟩
  rw [State.hubOf_updHub_self]

end Sys2Proof.Machine
end

section
/-! SUPPORT. A mismatch of a doubles pair: R46, R47, R145. -/

namespace Sys2Proof.Machine

/-! ### What the end of a firing leaves of the contexts -/

theorem State.ctxs_leaveWaiters (s : State) (f n : Nat) : (s.leaveWaiters f n).ctxs = s.ctxs := by
  unfold State.leaveWaiters
  split <;> rfl

theorem State.ctxs_endCommon (s : State) (core : Nat) (c : Ctx) : (s.endCommon core c).ctxs = s.ctxs := by
  unfold State.endCommon
  simp only
  split
  · exact State.ctxs_leaveWaiters _ _ _
  · exact State.ctxs_leaveWaiters _ _ _

theorem State.ctxs_releaseFoot (s : State) (tile id : Nat) : (s.releaseFoot tile id).ctxs = s.ctxs := by
  unfold State.releaseFoot
  simp only
  split <;> rfl

/-- A firing that the hub ends frees its context, and no other context changes (R145). -/
theorem State.ctxs_dropFiring (s : State) (i : Nat) : (s.dropFiring i).ctxs = (s.ctxs.put i (s.ctxOf i).endOf) := by
  have h : ((s.endCommon (coreOfCtx i) (s.ctxOf i)).updCtx i Ctx.endOf).ctxs = s.ctxs.put i (s.ctxOf i).endOf := by
    have hu : ∀ u : State, (u.updCtx i Ctx.endOf).ctxs = u.ctxs.put i (u.ctxOf i).endOf := fun _ => rfl
    simp only [hu, State.ctxOf, State.ctxs_endCommon]
  unfold State.dropFiring
  simp only
  split
  · exact (State.ctxs_releaseFoot _ _ _).trans h
  · exact h

theorem State.occ_dropFiring (s : State) (i k : Nat) : ((s.dropFiring i).ctxOf k).occ = if k = i then false else (s.ctxOf k).occ := by
  rw [State.ctxOf, State.ctxs_dropFiring, KMap.get_put]
  split
  · rfl
  · rfl

/-- Every firing of a list that the hub ends has left its context. -/
theorem State.occ_dropFirings (l : List Nat) (s : State) {k : Nat} (h : k ∈ l ∨ (s.ctxOf k).occ = false) : ((l.foldl State.dropFiring s).ctxOf k).occ = false := by
  induction l generalizing s with
  | nil => simpa using h
  | cons i l ih =>
    refine ih _ ?_
    rw [State.occ_dropFiring]
    by_cases hk : k = i
    · exact .inr (if_pos hk)
    · obtain hm | ho := h
      · exact .inl ((List.mem_cons.1 hm).resolve_left hk)
      · exact .inr ((if_neg hk).trans ho)

/-! ### What becomes of the item (R145, R147) -/

theorem State.ctxs_updLaunch (s : State) (id : Nat) (g : Launch → Launch) : (s.updLaunch id g).ctxs = s.ctxs := by
  unfold State.updLaunch
  split <;> rfl

theorem State.ctxs_tellParent (s : State) (e : Launch) (cls : Nat) (words : List Word) : (s.tellParent e cls words).ctxs = s.ctxs := by
  have ht := fun (u : State) tag => (u.told_report (launchField e.id) .noSupervisor tag [] [tag]).part State.ctxs (fun _ => rfl)
  unfold State.tellParent
  simp only
  split
  · rfl
  · split
    · rfl
    · split
      · rfl
      · split
        · exact ht _ e.tag
        · exact ht _ e.tag

theorem State.ctxs_endItem (s : State) (id wid : Nat) (fail : Option Nat) : (s.endItem id wid fail).ctxs = s.ctxs := by
  unfold State.endItem
  split
  · rfl
  · simp only
    split
    · exact State.ctxs_updLaunch _ _ _
    · exact (State.ctxs_tellParent _ _ _ _).trans (State.ctxs_updLaunch _ _ _)

theorem State.ctxs_requeueItem (s : State) (id item wid lead : Nat) : (s.requeueItem id item wid lead).ctxs = s.ctxs := by
  unfold State.requeueItem
  split
  · rfl
  · simp only
    split
    · exact (State.ctxs_endItem _ _ _ _).trans (State.ctxs_updLaunch _ _ _)
    · exact (State.ctxs_updLaunch _ _ _).trans (State.ctxs_updLaunch _ _ _)

/-- The contexts of a pair that mismatched are frozen, and a failure has been counted for each core that ran the firing (R47, R422). -/
def State.mismatchCounted (s : State) (a b : Nat) : State :=
  let all := s.pairContexts a b
  (all.map coreOfCtx).eraseDups.foldl (fun s k => s.setNode (fieldOfCtx a) (nodeOfUnit (tileOfCore k) (k % 2)) (fun r => { r with fails := min 255 (r.fails + 1) }))
    (all.foldl (fun s i => s.freeze i { cause := .doublesMismatch }) s)

/-- Then their firings end; what follows leaves the contexts (R145). -/
theorem execDoublesMismatch_of_pair {s : State} (hp : s.isPair s.arg.unit s.arg.other = true)
    (hd : s.arg.flag = true ∨ s.pairDiffers s.arg.unit s.arg.other = true) :
    ∃ t, exec .doublesMismatch s = .next t ∧
      t.ctxs = ((s.pairContexts s.arg.unit s.arg.other).foldl State.dropFiring (s.mismatchCounted s.arg.unit s.arg.other)).ctxs := by
  have hg : (s.arg.flag || s.pairDiffers s.arg.unit s.arg.other) = true := by simpa using hd
  refine ⟨_, if_neg (by simp [hp, hg]), ?_⟩
  split
  · simp only [State.ctxs_requeueItem, State.updHub_fields, State.mismatchCounted]
  · simp only [State.updHub_fields, State.mismatchCounted]

theorem execDoublesMismatch_frees {s : State} (hp : s.isPair s.arg.unit s.arg.other = true)
    (hd : s.arg.flag = true ∨ s.pairDiffers s.arg.unit s.arg.other = true) :
    ∃ t, exec .doublesMismatch s = .next t ∧ (t.ctxOf s.arg.unit).occ = false ∧ (t.ctxOf s.arg.other).occ = false := by
  obtain ⟨t, he, ht⟩ := execDoublesMismatch_of_pair hp hd
  have hf := fun k (hk : k ∈ s.pairContexts s.arg.unit s.arg.other) => State.occ_dropFirings _ (s.mismatchCounted s.arg.unit s.arg.other) (.inl hk)
  simp only [State.ctxOf, ← ht] at hf
  exact ⟨t, he, hf _ (by simp [State.pairContexts]), hf _ (by simp [State.pairContexts])⟩

theorem rookAndDoublesProgress_holds : rookAndDoublesProgress := by
  refine ⟨?_, ?_, ?_, ?_, ?_, ?_⟩
  · exact fun s hd => execRookPassStart_of_due hd
  · intro u n b s ⟨hw, hd, e, hmem, hk, hocc, hnp⟩
    refine execRookPreempt_defers hw hd (List.any_eq_true.2 ⟨e.1, List.mem_map_of_mem (List.mem_filter.2 ⟨hmem, ?_⟩), hnp⟩)
    simp [hk, hocc]
  · exact fun u n b i s ⟨hw, hd, hi, hp, hst, hr⟩ => execRookPreempt_frees hw hd hi hp hst hr
  · exact fun s hd => execRookTestDone_ends hd
  · exact fun s hd => execRookTestAbandon_of_due hd
  · exact fun s ⟨hp, hd⟩ => execDoublesMismatch_frees hp hd

end Sys2Proof.Machine
end

section
/-! SUPPORT. Time across the domain, and the hubs that stand in: R22, R57, R79, R82, R88, R91. -/

namespace Sys2Proof.Machine

/-! ### Time (R22, R88) -/

/-- An exchange of a device that has its time gives the offset to slew (R22). -/
theorem execTimeExchange_slews {s : State} (h : s.loith.epoch = true ∨ s.loith.ready = true) :
    exec .timeExchange s = .next { s with loith := { s.loith with
      synced := s.rtime, parent := true, lower := true, lost := false, offset := timeOffset s.arg.list s.arg.flag } } := if_pos (by simpa using h)

/-- Before start-up step 5 an exchange has no effect. -/
theorem execTimeExchange_early {s : State} (he : s.loith.epoch = false) (hr : s.loith.ready = false) (h5 : ∀ f, f < 90 → s.inStep f 5 = false) :
    exec .timeExchange s = .next s := by
  have hx : exec .timeExchange s = execTimeExchange s := rfl
  have hany : (List.range 90).any (fun f => s.inStep f 5) = false := by simpa [List.any_eq_false] using h5
  simp [hx, execTimeExchange, he, hr, hany]

/-- The first exchange in step 5 sets the time, forward only (R22, R29). -/
theorem execTimeExchange_sets {s : State} (he : s.loith.epoch = false) (hr : s.loith.ready = false) (h5 : ∃ f, f < 90 ∧ s.inStep f 5 = true) :
    ∃ t, exec .timeExchange s = .next t ∧ t.loith.epoch = true ∧
      t.rtime = max s.rtime ((s.rtime : Int) + timeOffset s.arg.list s.arg.flag / (Config.unitsPerNs : Int)).toNat := by
  have hx : exec .timeExchange s = execTimeExchange s := rfl
  have hany : (List.range 90).any (fun f => s.inStep f 5) = true := by simpa [List.any_eq_true] using h5
  simp only [hx, execTimeExchange, he, hr, hany, Bool.or_self, Bool.not_true, Bool.false_eq_true, if_false]
  refine ⟨_, rfl, ?_, ?_⟩
  · rw [(State.told_report _ _ _ _ _ _).part (fun u => u.loith.epoch) (fun _ => rfl)]
  · rw [(State.told_report _ _ _ _ _ _).part State.rtime (fun _ => rfl)]

theorem execTimeExchange_effects (s : State) :
    ∃ t, exec .timeExchange s = .next t ∧
      let d := timeOffset s.arg.list s.arg.flag
      (s.loith.epoch = false → s.loith.ready = false → (∃ f, f < 90 ∧ s.inStep f 5 = true) →
        t.loith.epoch = true ∧ t.rtime = max s.rtime ((s.rtime : Int) + d / (Config.unitsPerNs : Int)).toNat) ∧
      (s.loith.epoch = false → s.loith.ready = false → (∀ f, f < 90 → s.inStep f 5 = false) → t = s) ∧
      (s.loith.epoch = true ∨ s.loith.ready = true → t.rtime = s.rtime ∧ t.loith.offset = d ∧ t.loith.synced = s.rtime ∧ t.loith.lost = false) := by
  by_cases h : s.loith.epoch = true ∨ s.loith.ready = true
  · refine ⟨_, execTimeExchange_slews h, ?_, ?_, fun _ => ⟨rfl, rfl, rfl, rfl⟩⟩
    · intro he hr
      simp [he, hr] at h
    · intro he hr
      simp [he, hr] at h
  · have he : s.loith.epoch = false := by simpa using (not_or.1 h).1
    have hr : s.loith.ready = false := by simpa using (not_or.1 h).2
    by_cases h5 : ∃ f, f < 90 ∧ s.inStep f 5 = true
    · obtain ⟨t, hx, ht⟩ := execTimeExchange_sets he hr h5
      obtain ⟨f, hf, hf5⟩ := h5
      exact ⟨t, hx, fun _ _ _ => ht, fun _ _ hno => absurd hf5 (by simp [hno f hf]), fun hh => absurd hh h⟩
    · exact ⟨s, execTimeExchange_early he hr (fun f hf => by simpa using fun hf5 => h5 ⟨f, hf, hf5⟩), fun _ _ hyes => absurd hyes h5, fun _ _ _ => rfl,
        fun hh => absurd hh h⟩

theorem execRtimeSyncLost_of_due {s : State} (hd : s.syncLostDue = true) :
    ∃ t, exec .rtimeSyncLost s = .next t ∧ t.loith.lost = true ∧ t.loith.offset = 0 ∧ t.rtime = s.rtime := by
  have ht := State.told_report ({ s with loith := { s.loith with lost := true, offset := 0 } } : State) s.firstHub .rtimeSyncLost 0 [] [0]
  exact ⟨_, if_neg (by simp [hd]), ht.part (fun u => u.loith.lost) (fun _ => rfl), ht.part (fun u => u.loith.offset) (fun _ => rfl), ht.part State.rtime (fun _ => rfl)⟩

/-! ### Hubs 0 and 89 (R57, R91) -/

theorem State.recorded_hubDark (s : State) (f : Nat) : Recorded s (s.hubDark f) := s.recorded_setNode f _ _

/-- The device after a hub has gone dark in service. -/
theorem State.goSilent_parts (s : State) : s.goSilent.loith.hub0Dark = s.loith.hub0Dark ∧ s.goSilent.loith.hub89Dark = s.loith.hub89Dark ∧
    s.goSilent.bank.mirrok = s.bank.mirrok ∧ (s.loith.hub89Dark = false → s.goSilent.bank.takeoverAt = s.bank.takeoverAt) ∧
    (s.loith.hub0Dark = true → s.loith.hub89Dark = true → s.goSilent.loith.darkPorts = List.range 72) := by
  unfold State.goSilent
  split
  · rename_i h
    simp only [Bool.and_eq_true] at h
    exact ⟨rfl, rfl, rfl, fun h89 => absurd h.2 (by simp [h89]), fun _ _ => rfl⟩
  · rename_i h
    exact ⟨rfl, rfl, rfl, fun _ => rfl, fun h0 h89 => absurd (by simp [h0, h89]) h⟩

theorem execHub0Takeover_begins {s : State} (hr : s.loith.ready = true) (h0 : s.loith.hub0Dark = false) :
    ∃ t, exec .hub0Takeover s = .next t ∧ t.loith.hub0Dark = true ∧ t.bank.mirrok = false ∧ (s.loith.hub89Dark = false → t.bank.takeoverAt = some s.rtime) := by
  have hx : exec .hub0Takeover s = execHub0Takeover s := rfl
  simp only [hx, execHub0Takeover, hr, h0, Bool.not_true, Bool.not_false, Bool.false_eq_true, if_false, if_true]
  refine ⟨_, rfl, ?_⟩
  obtain ⟨hd, -, hm, ht, -⟩ := State.goSilent_parts { s.hubDark 0 with
    bank := { (s.hubDark 0).bank with mirrok := false, takeoverAt := some s.rtime }, loith := { (s.hubDark 0).loith with hub0Dark := true } }
  exact ⟨hd, hm, fun h89 => ht (((s.recorded_hubDark 0).part (fun u => u.loith.hub89Dark) (fun _ => rfl)).trans h89)⟩

/-- Hub 89 runs the bank from its copy, and says so (R57, R91). -/
def State.takenOver (s : State) : State :=
  (({ s with bank := { s.bank with onmirror := true, takeoverAt := none } } : State).deriveKeys).report 89 .bankTakeover 0 []

theorem State.takenOver_parts (s : State) : s.takenOver.bank.onmirror = true ∧ s.takenOver.bank.takeoverAt = none ∧ s.takenOver.loith.atDoor = s.loith.atDoor := by
  obtain ⟨-, hb, -, hl⟩ := State.deriveKeys_parts ({ s with bank := { s.bank with onmirror := true, takeoverAt := none } } : State)
  have ht := State.told_report (({ s with bank := { s.bank with onmirror := true, takeoverAt := none } } : State).deriveKeys) 89 .bankTakeover 0 [] [0]
  rw [State.takenOver, ht.part State.bank (fun _ => rfl), ht.part (fun u => u.loith.atDoor) (fun _ => rfl), hb, hl]
  exact ⟨rfl, rfl, rfl⟩

/-- The frames that waited at the door are taken then (R91). -/
theorem execHub0Takeover_ends {s : State} (hr : s.loith.ready = true) (h0 : s.loith.hub0Dark = true) (ht : s.bank.takeoverAt.isSome = true) :
    ∃ t, exec .hub0Takeover s = .next t ∧
      ∃ u : State, u.bank.onmirror = true ∧ u.bank.takeoverAt = none ∧ u.loith.atDoor = [] ∧ t = s.loith.atDoor.foldl (fun s e => s.receive e.1 e.2) u := by
  obtain ⟨a, ha⟩ := Option.isSome_iff_exists.1 ht
  obtain ⟨hm, hn, hl⟩ := s.takenOver_parts
  have hx : exec .hub0Takeover s =
      .next (s.takenOver.loith.atDoor.foldl (fun s e => s.receive e.1 e.2) { s.takenOver with loith := { s.takenOver.loith with atDoor := [] } }) := by
    have hx : exec .hub0Takeover s = execHub0Takeover s := rfl
    simp only [hx, execHub0Takeover, hr, h0, ha, Bool.not_true, Bool.false_eq_true, if_false]
    rfl
  exact ⟨_, hx, { s.takenOver with loith := { s.takenOver.loith with atDoor := [] } }, hm, hn, rfl, by rw [hl]⟩

theorem execHub89Dark_darkens {s : State} (hr : s.loith.ready = true) (h89 : s.loith.hub89Dark = false) :
    ∃ t, exec .hub89Dark s = .next t ∧ t.loith.hub89Dark = true ∧ t.bank.mirrok = false ∧ (s.loith.hub0Dark = true → t.loith.darkPorts = List.range 72) := by
  have hx : exec .hub89Dark s = execHub89Dark s := rfl
  simp only [hx, execHub89Dark, hr, h89, Bool.not_true, Bool.or_self, Bool.false_eq_true, if_false]
  refine ⟨_, rfl, ?_⟩
  obtain ⟨-, hd, hm, -, hp⟩ := State.goSilent_parts { s.hubDark 89 with
    bank := { (s.hubDark 89).bank with mirrok := false }, loith := { (s.hubDark 89).loith with hub89Dark := true } }
  exact ⟨hd, hm, fun h0 => hp (((s.recorded_hubDark 89).part (fun u => u.loith.hub0Dark) (fun _ => rfl)).trans h0) rfl⟩

/-! ### The bridge and the sessions (R79, R82) -/

theorem execBridgeTakeover_announces {s : State} (h : s.arg.flag = true ∨ (s.loith.bridge ≠ some s.loith.device ∧ s.ueUp = true)) :
    ∃ t, exec .bridgeTakeover s = .next t ∧ t.loith.bridge = some (if s.arg.flag then s.arg.value % 1024 else s.loith.device) := by
  have hx : exec .bridgeTakeover s = execBridgeTakeover s := rfl
  cases hf : s.arg.flag with
  | true => exact ⟨_, if_pos hf, by simp⟩
  | false =>
    obtain ⟨hb, hu⟩ := h.resolve_left (by simp [hf])
    simp only [hx, execBridgeTakeover, hf, hu, decide_eq_false hb, Bool.not_true, Bool.or_self, Bool.false_eq_true, if_false]
    refine ⟨_, rfl, ?_⟩
    rw [(State.told_report _ _ _ _ _ _).part (fun u => u.loith.bridge) (fun _ => rfl), (State.told_eventFrame _ _ _).part (fun u => u.loith.bridge) (fun _ => rfl)]

theorem execSequenceGapTimeout_tells {s : State} (hd : s.gapDue s.arg.unit = true) :
    ∃ t, exec .sequenceGapTimeout s = .next t ∧ (t.sessionOf s.arg.unit).gapSince = none ∧
      (t.sessionOf s.arg.unit).gapTold = (s.sessionOf s.arg.unit).next ∧ t.loith.events = s.loith.events + 1 := by
  refine ⟨_, if_neg (by simp [hd]), ?_⟩
  simp [State.updSession, State.sessionOf]

theorem timeAndHubsAreStoodInFor_holds : timeAndHubsAreStoodInFor := by
  refine ⟨?_, ?_, ?_, ?_, ?_, ?_, ?_⟩
  · exact fun s _ => execTimeExchange_effects s
  · exact fun s hd => execRtimeSyncLost_of_due hd
  · exact fun s ⟨hr, h0⟩ => execHub0Takeover_begins hr h0
  · exact fun s ⟨hr, h0, ht⟩ => execHub0Takeover_ends hr h0 ht
  · exact fun s ⟨hr, h89⟩ => execHub89Dark_darkens hr h89
  · exact fun s h => execBridgeTakeover_announces h
  · exact fun s hd => execSequenceGapTimeout_tells hd

end Sys2Proof.Machine
end

section
/-! SUPPORT. Faults at the fetch and at the boundary of a bundle: R203, R235, R276, R303. -/

namespace Sys2Proof.Machine

/-! ### What a freeze does to its context (R235) -/

/-- The packet of a fault leaves the contexts. -/
theorem State.ctxs_postFor (s : State) (i : Nat) (c : Ctx) (kind : Nat) (cause : Cause) (slotA gpa : Bool) (op : Nat) (pc : Word) (addr synd cursor : Nat) :
    (s.postFor i c kind cause slotA gpa op pc addr synd cursor).ctxs = s.ctxs := by
  have hr := fun u : State => (u.told_report (fieldOfCtx i) .noSupervisor c.tag [] [c.tag]).part State.ctxs (fun _ => rfl)
  have hk : ∀ (u : State) (g : Dbg → Dbg), (if kind = 0 then u.updDbg i g else u).ctxs = u.ctxs := fun u g => by split <;> rfl
  unfold State.postFor
  simp only
  split
  · exact hk _ _
  · split
    · exact (hr _).trans (hk _ _)
    · exact hk _ _

theorem State.ctxs_postFreeze (s : State) (i : Nat) (c : Ctx) (cause : Cause) (slotA gpa : Bool) (addr synd : Nat) :
    (s.postFreeze i c cause slotA gpa addr synd).ctxs = s.ctxs := by
  unfold State.postFreeze
  simp only
  split
  · exact ((State.told_report _ _ _ _ _ _).part State.ctxs (fun _ => rfl)).trans (State.ctxs_postFor _ _ _ _ _ _ _ _ _ _ _ _)
  · exact State.ctxs_postFor _ _ _ _ _ _ _ _ _ _ _ _

/-- A context that takes a fault is frozen with its cause, at the PC where it stands (R235). -/
theorem State.ctxOf_freeze (s : State) (i : Nat) (e : FaultAt) : (s.freeze i e).ctxOf i = { (s.ctxOf i).frozen e.cause with haltAt := s.rtime } := by
  have hq : ∀ u : State, (u.leaveSemQueues i).ctxOf i = u.ctxOf i := fun u => by rw [State.ctxOf, (u.leaveSemQueues_parts i).1, State.ctxOf]
  unfold State.freeze
  simp only
  rw [State.ctxOf, State.ctxs_postFreeze, ← State.ctxOf, State.ctxOf_updCtx_self, hq]
  split <;> rfl

theorem State.freeze_freezes (s : State) (i : Nat) (e : FaultAt) :
    let c := (s.freeze i e).ctxOf i
    c.st = 1 ∧ c.cause = e.cause ∧ c.np = false ∧ c.pc = (s.ctxOf i).pc := by
  simp [State.ctxOf_freeze, Ctx.frozen]

/-- A fetch is for the issuing context, whichever way it ends (R303). -/
theorem State.cur_fetch {s t : State} {d : Nat} (h : s.fetch = .ok d t) : t.cur = s.cur := by
  unfold State.fetch at h
  simp only at h
  generalize hu : (if s.cx.loopBuf.length = s.cx.loopLines.length then s else s.upd _) = u at h
  have hcur : u.cur = s.cur := by
    rw [← hu]
    split <;> rfl
  split at h
  · cases h
  · split at h
    · cases h
    · cases h
    · split at h
      · cases h
        exact hcur
      · split at h
        · cases h
        · cases h
          exact hcur

theorem execNpTooLong_freezes {s : State} (ho : (s.ctxOf s.arg.unit).occ = true) (hs : (s.ctxOf s.arg.unit).st = 0)
    (hl : ({ s with cur := s.arg.unit } : State).sectionLong = true) :
    ∃ t, exec .npTooLong s = .next t ∧ (t.ctxOf s.arg.unit).st = 1 ∧ (t.ctxOf s.arg.unit).cause = Cause.npTooLong ∧ (t.ctxOf s.arg.unit).np = false := by
  let s1 : State := { s with cur := s.arg.unit }
  have hg : (s1.cx.occ && s1.cx.st = 0 && s1.sectionLong) = true := by
    have hcx : s1.cx = s.ctxOf s.arg.unit := rfl
    simp [hcx, ho, hs, show s1.sectionLong = true from hl]
  obtain ⟨h1, h2, h3, -⟩ := s1.freeze_freezes s.arg.unit { cause := .npTooLong }
  exact ⟨_, if_pos hg, h1, h2, h3⟩

/-- The first failed check of the next bundle freezes its context, where it is an unassigned opcode (R276). -/
theorem execIllegalOpcode_freezes {s s' : State} {d : Nat} {e : FaultAt} (ho : (s.ctxOf s.arg.unit).occ = true) (hs : (s.ctxOf s.arg.unit).st = 0)
    (hf : ({ s with cur := s.arg.unit } : State).fetch = .ok d s') (hb : bundleCause d (s.ctxOf s.arg.unit).long (s.ctxOf s.arg.unit).level = some e)
    (hc : e.cause = .illegalOpcode) :
    ∃ t, exec .illegalOpcode s = .next t ∧ (t.ctxOf s.arg.unit).st = 1 ∧ (t.ctxOf s.arg.unit).cause = Cause.illegalOpcode := by
  have hx : exec .illegalOpcode s = .next (s'.freeze s'.cur e) := by
    have hx : exec .illegalOpcode s = execIllegalOpcode s := rfl
    have hcx : ({ s with cur := s.arg.unit } : State).cx = s.ctxOf s.arg.unit := rfl
    have hlv : ({ s with cur := s.arg.unit } : State).level = (s.ctxOf s.arg.unit).level := rfl
    simp [hx, execIllegalOpcode, hf, hcx, hlv, hb, ho, hs, hc]
  have hcur : s'.cur = s.arg.unit := State.cur_fetch hf
  obtain ⟨h1, h2, -, -⟩ := s'.freeze_freezes s.arg.unit e
  rw [hcur] at hx
  exact ⟨_, hx, h1, h2.trans hc⟩

/-- A fetch that faults freezes its context at its PC (R303). -/
theorem execCodeFetchFault_of_bad {s : State} {e : FaultAt} (ho : (s.ctxOf s.arg.unit).occ = true) (hs : (s.ctxOf s.arg.unit).st = 0)
    (hf : ({ s with cur := s.arg.unit } : State).fetch = .bad e) :
    exec .codeFetchFault s = .next (({ s with cur := s.arg.unit } : State).freeze s.arg.unit e) := by
  have hx : exec .codeFetchFault s = execCodeFetchFault s := rfl
  have hcx : ({ s with cur := s.arg.unit } : State).cx = s.ctxOf s.arg.unit := rfl
  simp [hx, execCodeFetchFault, hf, hcx, ho, hs]

/-- So does one that meets an uncorrectable error (R247, R303). -/
theorem execCodeFetchFault_of_ue {s s' : State} {d : Nat} (ho : (s.ctxOf s.arg.unit).occ = true) (hs : (s.ctxOf s.arg.unit).st = 0)
    (hf : ({ s with cur := s.arg.unit } : State).fetch = .ok d s') (hu : s.arg.flag = true) :
    ∃ e : FaultAt, e.cause = .ueCode ∧ exec .codeFetchFault s = .next (({ s with cur := s.arg.unit } : State).freeze s.arg.unit e) := by
  have hx : exec .codeFetchFault s = execCodeFetchFault s := rfl
  have hcx : ({ s with cur := s.arg.unit } : State).cx = s.ctxOf s.arg.unit := rfl
  refine ⟨{ cause := .ueCode, addr := (s.ctxOf s.arg.unit).pc.toNat, synd := accSyndrome .ueCode .fetch 8 0 }, rfl, ?_⟩
  simp [hx, execCodeFetchFault, hf, hcx, ho, hs, hu]

theorem issueFaultsFreeze_holds : issueFaultsFreeze := by
  refine ⟨?_, ?_, ?_, ?_⟩
  · exact fun s ⟨ho, hs, hl⟩ => execNpTooLong_freezes ho hs hl
  · exact fun d s' e s ⟨ho, hs, hf, hb, hc⟩ => execIllegalOpcode_freezes ho hs hf hb hc
  · intro e s ⟨ho, hs, hf⟩
    obtain ⟨h1, h2, -, h4⟩ := State.freeze_freezes { s with cur := s.arg.unit } s.arg.unit e
    exact ⟨_, execCodeFetchFault_of_bad ho hs hf, h1, h2, h4⟩
  · intro d s' s ⟨ho, hs, hf, hu⟩
    obtain ⟨e, hc, he⟩ := execCodeFetchFault_of_ue ho hs hf hu
    obtain ⟨h1, h2, -, h4⟩ := State.freeze_freezes { s with cur := s.arg.unit } s.arg.unit e
    exact ⟨_, he, h1, h2.trans hc, h4⟩

/-- Settles O58: the events of the fabric, of the rook and doubles, of time and the hubs, and the faults of issue, each by the lemma of its event. -/
theorem fabricEventsAct : Obligations.FabricEventsAct :=
  ⟨nodesChangeStatus_holds, rookAndDoublesProgress_holds, timeAndHubsAreStoodInFor_holds, issueFaultsFreeze_holds⟩

end Sys2Proof.Machine
end

section
/-! SUPPORT. What a packet's way leaves unchanged: counters and look-ups, bounces, a message that a port takes, the bytes of its entry: R38, R101, R153, R154, R171, R173. -/

namespace Sys2Proof.Machine

/-! ### Memory: a number reads back as it was written (R153) -/

theorem Memory.read_insert (m : Memory) (a i : Nat) (b : Byte) : (m.insert a b).read i = if i = a then b else m.read i := by
  induction m with
  | nil => simp [Memory.insert, Memory.read, eq_comm]
  | cons e m ih =>
    obtain ⟨j, c⟩ := e
    unfold Memory.insert
    split
    · simp only [Memory.read, eq_comm]
    · split
      · subst a
        grind [Memory.read]
      · rw [Memory.read, Memory.read, ih]
        grind

/-- Without its entry an address reads as one that nothing has written. -/
theorem Memory.read_filter_ne (m : Memory) (a i : Nat) : Memory.read (m.filter (fun e => e.1 ≠ a)) i = if i = a then 0 else m.read i := by
  induction m with
  | nil => simp [Memory.read]
  | cons e m ih =>
    obtain ⟨j, c⟩ := e
    by_cases hj : j = a
    · subst hj
      rw [List.filter_cons_of_neg (by simp), ih]
      by_cases hi : i = j
      · simp [hi]
      · simp [Memory.read, hi, Ne.symm hi]
    · rw [List.filter_cons_of_pos (by simpa using hj), Memory.read, Memory.read, ih]
      grind

/-- What memory reads after one byte is written. -/
theorem Memory.read_write (m : Memory) (a i : Nat) (b : Byte) : (m.write a b).read i = if i = a then b else m.read i := by
  unfold Memory.write
  split
  · subst b
    exact m.read_filter_ne a i
  · exact m.read_insert a i b

theorem Memory.read_writeLE_below (n : Nat) (m : Memory) {a i : Nat} (v : Nat) (h : i < a) : (m.writeLE a n v).read i = m.read i := by
  induction n generalizing m a v with
  | zero => rfl
  | succ n ih => rw [Memory.writeLE, ih _ _ (by omega), Memory.read_write, if_neg (by omega)]

theorem Memory.readLE_writeLE (n : Nat) (m : Memory) (a v : Nat) : (m.writeLE a n v).readLE a n = v % 256 ^ n := by
  induction n generalizing m a v with
  | zero => simp [Memory.readLE, Nat.mod_one]
  | succ n ih =>
    have hlow : ((m.writeLE a (n + 1) v).read a).toNat = v % 256 := by
      rw [Memory.writeLE, Memory.read_writeLE_below _ _ _ (Nat.lt_succ_self a), Memory.read_write, if_pos rfl, BitVec.toNat_ofNat]
    have hhigh : (m.writeLE a (n + 1) v).readLE (a + 1) n = v / 256 % 256 ^ n := ih _ _ _
    rw [Memory.readLE, hlow, hhigh, Nat.pow_succ', Nat.mod_mul]

theorem packLanes_lt (b : Nat) (l : List Nat) : packLanes b l < 2 ^ (b * l.length) := by
  induction l with
  | nil => simp [packLanes]
  | cons v vs ih =>
    have hv : v % 2 ^ b < 2 ^ b := Nat.mod_lt _ (Nat.two_pow_pos b)
    calc packLanes b (v :: vs) < 2 ^ b + 2 ^ b * packLanes b vs := Nat.add_lt_add_right hv _
      _ = 2 ^ b * (packLanes b vs + 1) := by ring
      _ ≤ 2 ^ b * 2 ^ (b * vs.length) := Nat.mul_le_mul_left _ ih
      _ = 2 ^ (b * (v :: vs).length) := by rw [← pow_add, List.length_cons, Nat.mul_succ, Nat.add_comm]

/-- The words of a message stand in memory where they have been written. -/
theorem Memory.readLE_writeLE_words (m : Memory) (a : Nat) (ws : List Word) :
    (m.writeLE a (8 * ws.length) (packLanes 64 (ws.map BitVec.toNat))).readLE a (8 * ws.length) = packLanes 64 (ws.map BitVec.toNat) := by
  have hlt : packLanes 64 (ws.map BitVec.toNat) < 256 ^ (8 * ws.length) := by
    have h := packLanes_lt 64 (ws.map BitVec.toNat)
    rwa [List.length_map, show 64 * ws.length = 8 * (8 * ws.length) by ring, pow_mul] at h
  rw [Memory.readLE_writeLE, Nat.mod_eq_of_lt hlt]

/-! ### Counts and look-ups of the hubs (R101, R171) -/

/-- A hub but for its counters and the lookups that it keeps. -/
def Hub.uncounted (h : Hub) : Hub := { h with counters := [], looked := [] }

/-- Between two states hubs have counted events and kept lookups, and nothing else has changed. -/
abbrev Counted : State → State → Prop := SameBut (fun s => { s with hubs := [] }) Hub.uncounted

theorem State.counted_countFabric (s : State) (f ev n : Nat) : Counted s (s.countFabric f ev n) := by
  unfold State.countFabric
  split
  · exact SameBut.refl s
  · exact State.sameBut_updHub _ _ s f _ rfl rfl

theorem State.counted_lookUp (s : State) (t : Nat) (lo : Word) : Counted s (s.lookUp t lo) := by
  unfold State.lookUp
  split
  · exact SameBut.refl s
  · simp only
    split
    · exact SameBut.refl s
    · exact State.sameBut_updHub _ _ s _ _ rfl rfl

section
variable {s t : State}

theorem Counted.coreOf (h : Counted s t) (k : Nat) : t.coreOf k = s.coreOf k := h.part (fun u => u.coreOf k) (fun _ => rfl)
theorem Counted.ctxOf (h : Counted s t) (i : Nat) : t.ctxOf i = s.ctxOf i := h.part (fun u => u.ctxOf i) (fun _ => rfl)
theorem Counted.flying (h : Counted s t) : t.flying = s.flying := h.part State.flying (fun _ => rfl)
theorem Counted.ctls (h : Counted s t) : t.ctls = s.ctls := h.part State.ctls (fun _ => rfl)
theorem Counted.rtime (h : Counted s t) : t.rtime = s.rtime := h.part State.rtime (fun _ => rfl)

/-- The entries of capabilities stay (R171). -/
theorem Counted.cttEntry (h : Counted s t) (tag kind idx : Nat) : t.cttEntry tag kind idx = s.cttEntry tag kind idx := by
  have htag : t.partOfTag tag = s.partOfTag tag := h.part (fun u => u.partOfTag tag) (fun _ => rfl)
  have hpart : ∀ p, t.partOf p = s.partOf p := fun p => h.part (fun u => u.partOf p) (fun _ => rfl)
  have hplace : ∀ p, t.cttPlace p kind idx = s.cttPlace p kind idx := fun p => by
    simp only [State.cttPlace, State.memberIndex, hpart, h.hubPart Hub.group (fun _ => rfl)]
  simp only [State.cttEntry, htag, hplace, h.hubPart Hub.ctt (fun _ => rfl)]

theorem Counted.capCoreId (h : Counted s t) (lo : Word) : t.capCoreId lo = s.capCoreId lo := by
  rw [State.capCoreId, State.capCoreId, h.cttEntry]

/-- The core where a sender is now stays too (R173). -/
theorem Counted.senderCore (h : Counted s t) (m : Msg) : t.senderCore m = s.senderCore m := by
  have hm : t.migrations = s.migrations := h.part State.migrations (fun _ => rfl)
  simp only [State.senderCore, hm, h.capCoreId]

end

/-! ### Bounces (R173) -/

/-- A message of a core of this device that is no reply bounces: its bounce sets out for the core where the sender is now, and hubs count it. -/
theorem State.bounceAt_sends (s : State) {m : Msg} (cause core : Nat) (hhw : m.hw = false) (hsrc : m.srcCore < 21600) (hvn : m.vn ≠ 1) :
    ∃ b, IsBounce s b m cause ∧ Counted { s with flying := s.flying ++ [b] } (s.bounceAt m cause core) := by
  unfold State.bounceAt
  rw [if_neg (by simp [hhw, hsrc]), if_neg hvn]
  exact ⟨_, ⟨rfl, rfl, rfl, rfl⟩, State.counted_countFabric _ _ _ _⟩

/-- A bounce does not depend on what hubs have counted. -/
theorem isBounce_of_counted {s t : State} {b m : Msg} {cause : Nat} (h : IsBounce t b m cause) (hst : Counted s t) : IsBounce s b m cause := by
  obtain ⟨hwords, hvn, hchan, hcore⟩ := h
  exact ⟨by rw [hwords, hst.rtime], hvn, hchan, by rw [hcore, hst.senderCore]⟩

/-! ### A port of an actor takes a message (R153, R154, R310) -/

theorem Core.actorAt_setPort (k : Core) (a p : Nat) (q : Port) : (k.setPort a p q).actorAt a = { k.actorAt a with ports := (k.actorAt a).ports.put p q } := by
  simp [Core.setPort, Core.actorAt]

@[simp] theorem Core.portAt_setPort (k : Core) (a p : Nat) (q : Port) : ((k.setPort a p q).actorAt a).portAt p = q := by
  simp [Core.actorAt_setPort, Actor.portAt]

/-- Counting changes the counters of a core, and nothing else (R100). -/
theorem State.countCore_cases (s : State) (k : Nat) (c : Option Nat) (ev n : Nat) :
    s.countCore k c ev n = s ∨ ∃ cs, s.countCore k c ev n = s.updCore k (fun x => { x with counters := cs }) := by
  unfold State.countCore
  split
  · exact .inl rfl
  · exact .inr ⟨_, rfl⟩

theorem State.coreOf_countCore (s : State) (k : Nat) (c : Option Nat) (ev n i : Nat) : ∃ cs, (s.countCore k c ev n).coreOf i = { s.coreOf i with counters := cs } := by
  obtain h | ⟨cs, h⟩ := s.countCore_cases k c ev n
  · exact ⟨(s.coreOf i).counters, by rw [h]⟩
  · rw [h, State.coreOf_updCore]
    split
    · subst i
      exact ⟨cs, rfl⟩
    · exact ⟨(s.coreOf i).counters, rfl⟩

/-- A wake changes the parked firings of a core, and of the core nothing else. -/
theorem State.coreOf_wakeFirings (s : State) (k i : Nat) (hit : Ctx → Bool) : ∃ l, (s.wakeFirings k hit).coreOf i = { s.coreOf i with parked := l } := by
  have h := KMap.get_map (m := s.cores) (d := {}) (k := i) (fun i (x : Core) =>
    if i = k then { x with parked := x.parked.map (fun q => (q.1, if hit q.2 then { q.2 with wakeBit := true } else q.2)) } else x) (.inr (by split <;> rfl))
  by_cases hi : i = k
  · exact ⟨_, h.trans (if_pos hi)⟩
  · exact ⟨(s.coreOf i).parked, h.trans (if_neg hi)⟩

/-- The wake-pending bit of a firing that a wake hits is set (R310). -/
theorem State.ctxOf_wakeFirings (s : State) {k i : Nat} {hit : Ctx → Bool} (hk : coreOfCtx i = k) (ho : (s.ctxOf i).occ = true) (hh : hit (s.ctxOf i) = true) :
    (s.wakeFirings k hit).ctxOf i = { s.ctxOf i with wakeBit := true } := by
  have h := KMap.get_map (m := s.ctxs) (d := {}) (k := i) (fun i (x : Ctx) => if coreOfCtx i = k && x.occ && hit x then { x with wakeBit := true } else x)
    (.inr (by simp))
  refine h.trans (if_pos ?_)
  simp only [hk, decide_true, Bool.true_and, Bool.and_eq_true]
  exact ⟨ho, hh⟩

/-- The machine after port p of actor a of core k has become q with a message that it took: an overflow is counted and stands in local store, and the actor's firing is woken. -/
def State.landed (s : State) (k a p : Nat) (q : Port) (spilt : Bool) : State :=
  let c := (s.coreOf k).setPort a p q
  let s1 := (s.updCore k (fun _ => c)).countCore k none 0x09 (if spilt then 1 else 0)
  ({ s1 with mem := c.keepOq s1.mem k a p spilt } : State).wakeFirings k (fun c => c.isFiringOf a)

/-- The core that took the message but for what is counted and parked there. -/
theorem State.coreOf_landed (s : State) (k a p : Nat) (q : Port) (spilt : Bool) (i : Nat) :
    ∃ cs l, (s.landed k a p q spilt).coreOf i = { (if i = k then (s.coreOf k).setPort a p q else s.coreOf i) with counters := cs, parked := l } := by
  obtain ⟨cs, hc⟩ := (s.updCore k (fun _ => (s.coreOf k).setPort a p q)).coreOf_countCore k none 0x09 (if spilt then 1 else 0) i
  obtain ⟨l, hl⟩ := State.coreOf_wakeFirings ({ (s.updCore k (fun _ => (s.coreOf k).setPort a p q)).countCore k none 0x09 (if spilt then 1 else 0) with
    mem := _ } : State) k i (fun c => c.isFiringOf a)
  rw [State.coreOf_updCore] at hc
  exact ⟨cs, l, hl.trans (congrArg (fun x : Core => { x with parked := l }) hc)⟩

section
variable (s : State) (k a p : Nat) (q : Port) (spilt : Bool)

theorem State.portAt_landed : (((s.landed k a p q spilt).coreOf k).actorAt a).portAt p = q := by
  obtain ⟨cs, l, h⟩ := s.coreOf_landed k a p q spilt k
  rw [h, if_pos rfl]
  exact Core.portAt_setPort _ a p q

/-- No core's count of bounces without room changes (R173). -/
theorem State.bsum_landed (i : Nat) : ((s.landed k a p q spilt).coreOf i).bsum = (s.coreOf i).bsum := by
  obtain ⟨cs, l, h⟩ := s.coreOf_landed k a p q spilt i
  rw [h]
  split
  · subst i
    rfl
  · rfl

/-- The packets on their way and the hubs stay; memory changes where the message overflows. -/
theorem State.landed_fields : (s.landed k a p q spilt).flying = s.flying ∧ (s.landed k a p q spilt).hubs = s.hubs ∧
    (s.landed k a p q spilt).mem = ((s.coreOf k).setPort a p q).keepOq s.mem k a p spilt := by
  obtain h | ⟨cs, h⟩ := (s.updCore k (fun _ => (s.coreOf k).setPort a p q)).countCore_cases k none 0x09 (if spilt then 1 else 0)
  · simp only [State.landed, h]
    exact ⟨rfl, rfl, rfl⟩
  · simp only [State.landed, h]
    exact ⟨rfl, rfl, rfl⟩

end

/-- What a port's overflow queue takes stands in its entry of local store (R153). -/
theorem Core.keepOq_setPort (c : Core) (mem : Memory) (k a p : Nat) {q : Port} {m : Msg} {n : Nat} (hl : q.oq.getLast? = some { m with slot := some n }) :
    (c.setPort a p q).keepOq mem k a p true = mem.writeLE (oqKey k q.word n) (8 * m.words.length) (packLanes 64 (m.words.map BitVec.toNat)) := by
  simp only [Core.keepOq, Core.portAt_setPort, hl, Option.getD_some]

/-- Local store then reads as the words of the message that overflowed (R153). -/
theorem State.readLE_landed (s : State) (k a p : Nat) {q : Port} {m : Msg} {n : Nat} (hl : q.oq.getLast? = some { m with slot := some n }) :
    (s.landed k a p q true).mem.readLE (oqKey k q.word n) (8 * m.words.length) = packLanes 64 (m.words.map BitVec.toNat) := by
  obtain ⟨-, -, hmem⟩ := s.landed_fields k a p q true
  rw [hmem, Core.keepOq_setPort _ _ _ _ _ hl, Memory.readLE_writeLE_words]

end Sys2Proof.Machine
end

section
/-! SUPPORT. Messages leave their queues and move through the mesh: R36 to R39, R46, R76, R158, R171, R173. -/

namespace Sys2Proof.Machine

/-! ### Injection (R46, R158) -/

theorem State.queue_popQueue_self (s : State) (k vn : Nat) : ((s.popQueue k vn).coreOf k).queue vn = ((s.coreOf k).queue vn).drop 1 := by
  simp [State.popQueue, Core.queue]

theorem State.coreOf_popQueue_other (s : State) (vn : Nat) {k i : Nat} (h : i ≠ k) : (s.popQueue k vn).coreOf i = s.coreOf i := State.coreOf_updCore_other s _ h

/-- The head of the send queue that the event names, at a time at which its network takes it: of one core, or of the leader of a pair whose follower sends the same. -/
structure State.Injects (s : State) (m : Msg) : Prop where
  head : ((s.coreOf s.arg.unit).queue s.arg.other).head? = some m
  pair : m.pair = 0 ∨ m.pair = 1 ∧ (s.partnerHead s.arg.unit s.arg.other m).isSome = true
  unmasked : s.masked s.arg.other = false
  room : s.netFull s.arg.unit s.arg.other = false

/-- The machine without the queue heads of the message that leaves. -/
def State.popped (s : State) (m : Msg) : State :=
  if m.pair = 1 then (s.popQueue s.arg.unit s.arg.other).popQueue (s.arg.unit + 2) s.arg.other else s.popQueue s.arg.unit s.arg.other

/-- The same, with the message counted and its entry looked up. -/
def State.departed (s : State) (m : Msg) : State :=
  ((s.popped m).countFabric (fieldOfTile (tileOfCore s.arg.unit)) (0x40 + s.arg.other) (Config.flits (8 * m.words.length))).lookUp (tileOfCore s.arg.unit) m.capLo

theorem State.counted_departed (s : State) (m : Msg) : Counted (s.popped m) (s.departed m) :=
  (State.counted_countFabric _ _ _ _).trans (State.counted_lookUp _ _ _)

theorem State.popped_of_pair (s : State) {m : Msg} (h : m.pair = 1) :
    s.popped m = (s.popQueue s.arg.unit s.arg.other).popQueue (s.arg.unit + 2) s.arg.other := if_pos h

/-- The queue of the sending core has lost its head, for a pair too. -/
theorem State.queue_departed (s : State) (m : Msg) :
    ((s.departed m).coreOf s.arg.unit).queue s.arg.other = ((s.coreOf s.arg.unit).queue s.arg.other).drop 1 := by
  rw [(s.counted_departed m).coreOf, State.popped]
  split
  · rw [State.coreOf_popQueue_other _ _ (by omega), State.queue_popQueue_self]
  · exact s.queue_popQueue_self _ _

/-- And so has that of a pair's follower (R46). -/
theorem State.queue_departed_follower (s : State) {m : Msg} (h : m.pair = 1) :
    ((s.departed m).coreOf (s.arg.unit + 2)).queue s.arg.other = ((s.coreOf (s.arg.unit + 2)).queue s.arg.other).drop 1 := by
  rw [(s.counted_departed m).coreOf, s.popped_of_pair h, State.queue_popQueue_self, State.coreOf_popQueue_other _ _ (by omega)]

theorem State.flying_departed (s : State) (m : Msg) : (s.departed m).flying = s.flying := by
  rw [(s.counted_departed m).flying, State.popped]
  split <;> rfl

/-- A bounce that sets out once the message has left its queue goes where one from the present state goes. -/
theorem isBounce_of_departed {s : State} {b m n : Msg} {cause : Nat} (h : IsBounce (s.departed n) b m cause) : IsBounce s b m cause := by
  have hp := isBounce_of_counted h (s.counted_departed n)
  rw [State.popped] at hp
  split at hp <;> exact hp

/-- What `MESSAGE_INJECT` does with a message that its network takes, by where its capability leads (R158). -/
theorem execMessageInject_of_injects {s : State} {m : Msg} (h : s.Injects m) :
    (∀ d, s.injectTo m = .core d → exec .messageInject s = .next { s.departed m with flying := (s.departed m).flying ++
      [{ m with itime := s.rtime, pair := 0, act := capAct m.capLo, core := d, dev := s.loith.device, router := some (tileOfCore s.arg.unit), gen := s.loith.flips }] }) ∧
    (∀ c, s.injectTo m = .refused c → exec .messageInject s =
      .next ((s.departed m).bounceAt { m with itime := s.rtime, pair := 0, act := capAct m.capLo } c s.arg.unit)) := by
  obtain ⟨hh, hp, hmask, hroom⟩ := h
  obtain ⟨r, hq⟩ := List.head?_eq_some_iff.1 hh
  have he : exec .messageInject s = execMessageInject s := rfl
  have hgo : (s.masked s.arg.other || s.netFull s.arg.unit s.arg.other || m.pair = 2 ||
      (m.pair = 1 && (s.partnerHead s.arg.unit s.arg.other m).isNone)) = false := by
    obtain h0 | ⟨h1, hs⟩ := hp
    · simp [hmask, hroom, h0]
    · simp [hmask, hroom, h1, hs]
  refine ⟨fun d hd => ?_, fun c hd => ?_⟩ <;>
  · simp only [he, execMessageInject, hq, hgo, hd, Bool.false_eq_true, if_false]
    rfl

theorem sendQueuesInject_holds : sendQueuesInject := by
  refine ⟨?_, ?_, ?_⟩
  · intro m d s ⟨hh, h0, hm, hn, hd⟩
    refine ⟨_, (execMessageInject_of_injects ⟨hh, .inl h0, hm, hn⟩).1 d hd, s.queue_departed m, ?_⟩
    rw [s.flying_departed, ← h0]
  · intro m n d s ⟨hh, h1, hp, hm, hn, hd⟩
    refine ⟨_, (execMessageInject_of_injects ⟨hh, .inr ⟨h1, by rw [hp]; rfl⟩, hm, hn⟩).1 d hd, s.queue_departed m, s.queue_departed_follower h1, ?_⟩
    rw [s.flying_departed]
  · intro m c s ⟨hh, h0, hhw, hvn, hsrc, hm, hn, hd⟩
    obtain ⟨b, hb, hc⟩ := (s.departed m).bounceAt_sends (m := { m with itime := s.rtime, pair := 0, act := capAct m.capLo }) c s.arg.unit hhw hsrc hvn
    refine ⟨_, (execMessageInject_of_injects ⟨hh, .inl h0, hm, hn⟩).2 c hd, ?_, b, ?_, ?_⟩
    · rw [hc.coreOf]
      exact s.queue_departed m
    · rw [hc.flying, s.flying_departed]
    · exact isBounce_of_departed hb

/-! ### One hop (R36 to R39, R76) -/

/-- A packet that stands at router u, that no earlier one holds up, and that has hops left: it has a turn at that router. -/
structure State.HasTurn (s : State) (m : Msg) (u : Nat) : Prop where
  move : s.arg.flag = false
  packet : s.flying[s.arg.value]? = some m
  router : m.router = some u
  hops : m.hops < 255
  first : s.behindAnother s.arg.value u (s.packetPort u m) m = false

section
variable {s : State} {m : Msg} {u : Nat}

/-- By a link that carries it the packet moves to the next router (R36). -/
theorem execRoutePacket_of_link (h : s.HasTurn m u) (hp : s.packetPort u m < 4) (hl : s.linkUp u (s.packetPort u m) = true) :
    exec .routePacket s =
      .next { s with flying := setAt s.flying s.arg.value (some { m with router := some (stepTile u (s.packetPort u m)), hops := m.hops + 1 }) } := by
  obtain ⟨hf, hm, hr, hh, hb⟩ := h
  have he : exec .routePacket s = execRoutePacket s := rfl
  simp only [he, execRoutePacket, hf, hm, hr, hb, hl, Bool.false_eq_true, if_false, if_true]
  rw [if_neg (by omega), if_neg (by omega)]

/-- At the router of its tile it leaves the mesh, or the device by its port (R36, R76). -/
theorem execRoutePacket_of_local (h : s.HasTurn m (tileOfCore m.core)) (hp : s.packetPort (tileOfCore m.core) m = 4) :
    (m.exit = none → exec .routePacket s = .next { s with flying := setAt s.flying s.arg.value (some { m with router := none, reached := s.nextReached }) }) ∧
    (∀ p, m.exit = some p → exec .routePacket s = .next (s.leaveDevice s.arg.value (tileOfCore m.core) m p)) := by
  obtain ⟨hf, hm, hr, hh, hb⟩ := h
  rw [hp] at hb
  have he : exec .routePacket s = execRoutePacket s := rfl
  have h255 : ¬m.hops ≥ 255 := by omega
  refine ⟨fun hx => ?_, fun p hx => ?_⟩ <;>
    simp only [he, execRoutePacket, hf, hm, hr, hp, hb, h255, hx, Bool.false_eq_true, if_false, ge_iff_le, le_refl, and_self, if_true]

/-- By a link that does not carry it, one that is no reply bounces (R39); so it does where the next or its own router does not forward (the model's choice, log 106). -/
theorem execRoutePacket_of_deadLink (h : s.HasTurn m u) (hp : s.packetPort u m < 4) (hl : s.linkUp u (s.packetPort u m) = false) (hvn : m.vn ≠ 1) :
    exec .routePacket s = .next (({ s with flying := setAt s.flying s.arg.value none } : State).bounceAt m Cause.linkDead (2 * u)) := by
  obtain ⟨hf, hm, hr, hh, hb⟩ := h
  have he : exec .routePacket s = execRoutePacket s := rfl
  simp only [he, execRoutePacket, hf, hm, hr, hb, hl, Bool.false_eq_true, if_false]
  rw [if_neg (by omega), if_neg (by omega), if_neg hvn]

end

theorem packetsMoveHopByHop_holds : packetsMoveHopByHop := by
  refine ⟨?_, ?_, ?_⟩
  · intro m u s ⟨hf, hm, hr, hh, hb, hp, hl⟩
    exact ⟨_, execRoutePacket_of_link ⟨hf, hm, hr, hh, hb⟩ hp hl, rfl⟩
  · intro m s ⟨hf, hm, hr, hh, hb, hp⟩
    obtain ⟨hin, hout⟩ := execRoutePacket_of_local ⟨hf, hm, hr, hh, hp.symm ▸ hb⟩ hp
    obtain hx | ⟨p, hx⟩ := m.exit.eq_none_or_eq_some
    · exact ⟨_, hin hx, fun _ => rfl, fun p hp => absurd (hx.symm.trans hp) (by simp)⟩
    · refine ⟨_, hout p hx, fun hn => absurd (hn.symm.trans hx) (by simp), fun p' hp' hd => ?_⟩
      obtain rfl : p = p' := Option.some.inj (hx.symm.trans hp')
      rw [State.leaveDevice, if_pos (by simp [hd])]
  · intro m u s ⟨hf, hm, hr, hh, hvn, hhw, hsrc, hb, hp, hl⟩
    obtain ⟨b, hi, hc⟩ := ({ s with flying := setAt s.flying s.arg.value none } : State).bounceAt_sends Cause.linkDead (2 * u) hhw hsrc hvn
    exact ⟨_, execRoutePacket_of_deadLink ⟨hf, hm, hr, hh, hb⟩ hp hl hvn, b, hc.flying, hi⟩

end Sys2Proof.Machine
end

section
/-! SUPPORT. Messages and control packets arrive: R62, R153, R154, R165, R172, R173, R240, R310, R330. -/

namespace Sys2Proof.Machine

/-! ### A message meets its port (R153, R154, R172) -/

theorem Port.takeIn_of_room {q : Port} (m : Msg) (ho : q.oq = []) (hd : q.hwPart.length < portDepth q.word) (hs : q.spill = false ∨ q.hwPart = []) :
    q.takeIn m = some ({ q with hwPart := q.hwPart ++ [m], arr := (q.arr + 1) % 2 ^ 32 }, false) :=
  if_pos (by simpa [ho, hd] using hs)

/-- A message that does not join the hardware part goes behind the newest of the overflow queue, in an entry of its own. -/
theorem Port.takeIn_of_overflow {q : Port} (m : Msg) (hfull : q.oq ≠ [] ∨ portDepth q.word ≤ q.hwPart.length) (hc : q.oq.length < portOqCap q.word) :
    ∃ n, q.takeIn m = some ({ q with oq := q.oq ++ [{ m with slot := some n }], arr := (q.arr + 1) % 2 ^ 32 }, true) := by
  have hno : ¬(q.oq.isEmpty && q.hwPart.length < portDepth q.word && (!q.spill || q.hwPart.isEmpty)) = true := by
    obtain ho | hd := hfull
    · simp [ho]
    · simp [Nat.not_lt.2 hd]
  exact ⟨_, (if_neg hno).trans (if_pos hc)⟩

/-- A message passes every check of R172 at its core, and goes to the port q. -/
structure State.Admits (s : State) (m : Msg) (q : Port) : Prop where
  noBounce : m.chan ≠ 3
  noReply : m.vn ≠ 1
  light : s.coreDark m.core = false
  awake : s.tileStill (tileOfCore m.core) = false
  runs : (s.hubOf (fieldOfTile (tileOfCore m.core))).runTag = capOwner m.capLo
  restored : s.restored (fieldOfTile (tileOfCore m.core)) = true
  noStub : s.stubAt m.core m (capOwner m.capLo) = none
  valid : ((s.coreOf m.core).actorAt m.act).valid = true
  owner : ((s.coreOf m.core).actorAt m.act).owner = capOwner m.capLo
  port : q = ((s.coreOf m.core).actorAt m.act).portAt m.port
  enabled : portEnabled q.word = true
  kind : portKind q.word = m.vn
  size : m.words.length ≤ portSize q.word + 1

section
variable {s : State} {m : Msg} {q : Port}

/-- The core takes it as the port does; without a place in the port a SYS message bounces, and another waits (R154). -/
theorem Core.takeIn_of_admits (h : s.Admits m q) :
    (∀ q' spilt, q.takeIn m = some (q', spilt) →
      (s.coreOf m.core).takeIn m (capOwner m.capLo) = .took ((s.coreOf m.core).setPort m.act m.port q') (some (m.act, m.port)) spilt) ∧
    (q.takeIn m = none → (s.coreOf m.core).takeIn m (capOwner m.capLo) = if m.vn = 2 then .bounce .portFull else .wait) := by
  have hsize := Nat.not_lt.2 h.size
  refine ⟨fun q' spilt hq => ?_, fun hq => ?_⟩ <;>
    simp [Core.takeIn, h.noBounce, h.noReply, h.valid, h.owner, ← h.port, h.enabled, h.kind, hsize, hq]

/-- Its delivery goes by what the core does with it (R172). -/
theorem State.deliverAt_of_admits (h : s.Admits m q) :
    (∀ q' spilt, q.takeIn m = some (q', spilt) → s.deliverAt m.core m = some (s.landed m.core m.act m.port q' spilt)) ∧
    (q.takeIn m = none → m.vn = 2 → s.deliverAt m.core m = some (s.bounceAt m Cause.portFull m.core)) ∧
    (q.takeIn m = none → m.vn ≠ 2 → s.deliverAt m.core m = none) := by
  obtain ⟨htook, hnone⟩ := Core.takeIn_of_admits h
  have haim : (s.coreOf m.core).aimed s.mem m.core m = m := if_neg (fun hc => h.noBounce hc.1)
  refine ⟨fun q' spilt hq => ?_, fun hq hvn => ?_, fun hq hvn => ?_⟩
  · simp [State.deliverAt, h.noBounce, h.light, h.awake, h.runs, h.restored, h.noStub, haim, htook q' spilt hq, State.landed]
  · simp [State.deliverAt, h.noBounce, h.light, h.awake, h.runs, h.restored, h.noStub, haim, hnone hq, hvn]
  · simp [State.deliverAt, h.noBounce, h.light, h.awake, h.runs, h.restored, h.noStub, haim, hnone hq, hvn]

end

/-- A message that has reached its tile, and that none of its sender or of its port precedes, is delivered, or waits as it is (R164, R417). -/
theorem execMessageArrival_of_first {s : State} {m : Msg} (hf : s.arg.flag = false) (hm : s.flying[s.arg.value]? = some m) (hr : m.router = none)
    (hflow : (s.flying.take s.arg.value).any (sameFlow m) = false) (hout : s.outrun m = false) (hhw : m.hw = false) :
    exec .messageArrival s = .next ((({ s with flying := setAt s.flying s.arg.value none } : State).deliverAt m.core m).getD s) := by
  have he : exec .messageArrival s = execMessageArrival s := rfl
  have hno : (s.flying.take s.arg.value).any (fun w => sameFlow m w || s.sameHwFlow m w) = false := by
    simpa [State.sameHwFlow, hhw] using hflow
  simp only [he, execMessageArrival, hf, hm, hr, hno, hout, hhw, Bool.false_eq_true, if_false, Option.isSome_none, Bool.or_self]

theorem messagesJoinTheirPorts_holds : messagesJoinTheirPorts := by
  intro m q s ⟨hf, hm, hr, hflow, hout, hhw, hch, hvn, hdark, hstill, hrun, hrest, hstub, hval, hown, hq, hen, hkind, hsize⟩
  have he := execMessageArrival_of_first hf hm hr hflow hout hhw
  let s1 : State := { s with flying := setAt s.flying s.arg.value none }
  have ha : s1.Admits m q := ⟨hch, hvn, hdark, hstill, hrun, hrest, hstub, hval, hown, hq, hen, hkind, hsize⟩
  obtain ⟨htook, hbounce, hwait⟩ := State.deliverAt_of_admits ha
  cases ht : q.takeIn m with
  | some r =>
    obtain ⟨q', spilt⟩ := r
    rw [htook q' spilt ht] at he
    obtain ⟨hfly, -, -⟩ := s1.landed_fields m.core m.act m.port q' spilt
    have hport := s1.portAt_landed m.core m.act m.port q' spilt
    refine ⟨_, he, fun ho hd hs => ⟨hfly, ?_⟩, fun hfull hc => ⟨hfly, ?_⟩, fun hn => (nomatch hn), fun hn => (nomatch hn)⟩
    · obtain ⟨rfl, rfl⟩ : q' = _ ∧ spilt = _ := by simpa using ht.symm.trans (Port.takeIn_of_room m ho hd hs)
      exact hport
    · obtain ⟨n, hn⟩ := Port.takeIn_of_overflow m hfull hc
      obtain ⟨rfl, rfl⟩ : q' = _ ∧ spilt = _ := by simpa using ht.symm.trans hn
      exact ⟨n, (congrArg Port.oq hport :), (congrArg Port.hwPart hport :), fun _ => s1.readLE_landed _ _ _ List.getLast?_concat⟩
  | none =>
    have hroom := fun ho hd hs => Option.some_ne_none _ ((Port.takeIn_of_room m ho hd hs).symm.trans ht)
    have hover := fun hfull hc => (Port.takeIn_of_overflow m hfull hc).elim fun _ hn => Option.some_ne_none _ (hn.symm.trans ht)
    by_cases h2 : m.vn = 2
    · rw [hbounce ht h2] at he
      refine ⟨_, he, fun ho hd hs => (hroom ho hd hs).elim, fun hfull hc => (hover hfull hc).elim, fun _ _ hsrc => ?_, fun _ hn => absurd h2 hn⟩
      obtain ⟨b, hi, hc⟩ := s1.bounceAt_sends Cause.portFull m.core hhw hsrc hvn
      exact ⟨⟨b, hc.flying, hi⟩, hc.part State.cores (fun _ => rfl)⟩
    · rw [hwait ht h2] at he
      exact ⟨_, he, fun ho hd hs => (hroom ho hd hs).elim, fun hfull hc => (hover hfull hc).elim, fun _ hn => absurd hn h2, fun _ _ => rfl⟩

/-! ### Messages that the hardware holds back (R62, R154, R165, R173, R240) -/

section
variable {s : State} {m : Msg} {k a p owner : Nat} {q : Port}

/-- A port that takes a redirected message now has it, and the machine is as after any message that joins a port. -/
theorem State.putHw_of_takenNow (h : TakenNow s m k a p owner q) : ∃ spilt, s.putHw k a p owner m = some (s.landed k a p q spilt) := by
  obtain ⟨hstill, hdark, hrun, hrest, spilt, ht⟩ := h
  refine ⟨spilt, ?_⟩
  have hkeep : ∀ mem, (((s.updPort k a p (fun _ => q)).countCore k none 0x09 (if spilt then 1 else 0)).coreOf k).keepOq mem k a p spilt =
      ((s.coreOf k).setPort a p q).keepOq mem k a p spilt := by
    intro mem
    obtain ⟨cs, hc⟩ := (s.updPort k a p (fun _ => q)).coreOf_countCore k none 0x09 (if spilt then 1 else 0) k
    have hp : (s.updPort k a p (fun _ => q)).coreOf k = (s.coreOf k).setPort a p q := State.coreOf_updCore_self s k (fun c => c.setPort a p q)
    rw [hc, hp]
    rfl
  simp only [State.putHw, hstill, hdark, hrun, hrest, ht, hkeep, Bool.or_self, Bool.false_eq_true, if_false, and_self, if_true]
  rfl

/-- So a hub delivers a message to a port that takes it, where its class asks for nothing more. -/
theorem State.hwDeliver_of_takenNow {f : Nat} (hway : s.hwOnWay m = false) (ht : s.hwTarget m = some (k, a, p, owner)) (hhub : s.hubWay f k = true)
    (hend : msgClass m ≠ 0xFF85) (hnotice : msgClass m ≠ 0xFF80) (h : TakenNow s m k a p owner q) :
    ∃ spilt, s.hwDeliver f m = some (s.landed k a p q spilt) := by
  obtain ⟨spilt, hp⟩ := State.putHw_of_takenNow h
  refine ⟨spilt, ?_⟩
  simp [State.hwDeliver, hway, ht, hhub, hp, State.hwDelivered, hend, hnotice]

end

/-- A fault queue that dropped nothing reports nothing (R240). -/
theorem State.queueOverflow_of_none {s : State} {f : Nat} (h : (s.hubOf f).dropped = []) : s.queueOverflow f = s := by
  simp [State.queueOverflow, h]

/-- Without a summary that waits, the bounce queue is as it stands (R173). -/
theorem Core.queueSummary_of_none {c : Core} (h : c.bsum = 0) : c.queueSummary = c := by
  unfold Core.queueSummary
  split
  · exact if_pos (by simp [h])
  · rfl

theorem State.updCore_congr {s : State} {i : Nat} {g g' : Core → Core} (h : g (s.coreOf i) = g' (s.coreOf i)) : s.updCore i g = s.updCore i g' := by
  rw [State.updCore, State.updCore, h]

theorem execHwMessageDeferred_delivers {s : State} {m : Msg} {k a p owner : Nat} {q : Port} (hm : (s.hubOf s.arg.unit).waiting[s.arg.value]? = some m)
    (hfirst : ((s.hubOf s.arg.unit).waiting.take s.arg.value ++ (s.hubOf s.arg.unit).faultq.filter (fun w => w.made < m.made)).any (fun w => s.sameTarget w m) = false)
    (hend : msgClass m ≠ 0xFF85) (hnotice : msgClass m ≠ 0xFF80) (hway : s.hwOnWay m = false) (ht : s.hwTarget m = some (k, a, p, owner))
    (hhub : s.hubWay s.arg.unit k = true) (h : TakenNow s m k a p owner q) :
    ∃ spilt, exec .hwMessageDeferred s =
      .next ((s.landed k a p q spilt).updHub s.arg.unit (fun h => { h with waiting := setAt h.waiting s.arg.value none })) := by
  obtain ⟨spilt, hd⟩ := State.hwDeliver_of_takenNow hway ht hhub hend hnotice h
  have he : exec .hwMessageDeferred s = execHwMessageDeferred s := rfl
  refine ⟨spilt, ?_⟩
  simp only [he, execHwMessageDeferred, hm, hfirst, hd, Bool.false_eq_true, if_false]

theorem execFaultQueueDrain_delivers {s : State} {m : Msg} {r : List Msg} {k a p owner : Nat} {q : Port} (hq : (s.hubOf s.arg.unit).faultq = m :: r)
    (hdrop : (s.hubOf s.arg.unit).dropped = []) (hcls : isFaultClass m = true)
    (hfirst : (s.hubOf s.arg.unit).waiting.any (fun w => w.made < m.made && s.sameTarget w m) = false) (hway : s.hwOnWay m = false)
    (ht : s.hwTarget m = some (k, a, p, owner)) (hhub : s.hubWay s.arg.unit k = true) (h : TakenNow s m k a p owner q) :
    ∃ spilt, exec .faultQueueDrain s = .next ((s.landed k a p q spilt).updHub s.arg.unit (fun h => { h with faultq := r })) := by
  have hclass : msgClass m / 256 = 0xFE := by simpa [isFaultClass] using hcls
  obtain ⟨spilt, hd⟩ := State.hwDeliver_of_takenNow hway ht hhub (by omega) (by omega) h
  obtain ⟨-, hhubs, -⟩ := s.landed_fields k a p q spilt
  have he : exec .faultQueueDrain s = execFaultQueueDrain s := rfl
  refine ⟨spilt, ?_⟩
  simp only [he, execFaultQueueDrain, hq, hfirst, hd, Bool.false_eq_true, if_false]
  rw [State.queueOverflow_of_none (by rw [State.hubOf_updHub_self, State.hubOf_congr hhubs]; exact hdrop)]

theorem execBounceQueueDeliver_delivers {s : State} {m : Msg} {r : List Msg} {k a p owner : Nat} {q : Port} (hq : (s.coreOf s.arg.unit).bounceq = m :: r)
    (hsum : (s.coreOf s.arg.unit).bsum = 0) (hwait : s.bounceWaits s.arg.unit m = false) (ht : s.bouncePort s.arg.unit m = some (k, a, p, owner))
    (hstill : s.tileStill (tileOfCore s.arg.unit) = false) (hway : s.busWay (tileOfCore s.arg.unit) k = true) (h : TakenNow s m k a p owner q) :
    ∃ spilt, exec .bounceQueueDeliver s = .next ((s.landed k a p q spilt).updCore s.arg.unit (fun c => { c with bounceq := r })) := by
  obtain ⟨spilt, hp⟩ := State.putHw_of_takenNow h
  have he : exec .bounceQueueDeliver s = execBounceQueueDeliver s := rfl
  refine ⟨spilt, ?_⟩
  simp only [he, execBounceQueueDeliver, hq, hwait, ht, hstill, hway, hp, Bool.false_eq_true, if_false, Bool.not_true, Bool.or_self]
  exact congrArg _ (State.updCore_congr (Core.queueSummary_of_none ((s.bsum_landed k a p q spilt s.arg.unit).trans hsum)))

theorem waitingMessagesAreDelivered_holds : waitingMessagesAreDelivered := by
  refine ⟨?_, ?_, ?_⟩
  · intro m k a p owner q s ⟨hm, hfirst, hend, hnotice, hway, ht, hhub, h⟩
    obtain ⟨spilt, he⟩ := execHwMessageDeferred_delivers hm hfirst hend hnotice hway ht hhub h
    obtain ⟨-, hhubs, -⟩ := s.landed_fields k a p q spilt
    refine ⟨_, he, s.portAt_landed k a p q spilt, ?_⟩
    rw [State.hubOf_updHub_self, State.hubOf_congr hhubs]
  · intro m r k a p owner q s ⟨hq, hdrop, hcls, hfirst, hway, ht, hhub, h⟩
    obtain ⟨spilt, he⟩ := execFaultQueueDrain_delivers hq hdrop hcls hfirst hway ht hhub h
    refine ⟨_, he, s.portAt_landed k a p q spilt, ?_⟩
    rw [State.hubOf_updHub_self]
  · intro m r k a p owner q s ⟨hq, hsum, hwait, ht, hstill, hway, h⟩
    obtain ⟨spilt, he⟩ := execBounceQueueDeliver_delivers hq hsum hwait ht hstill hway h
    have hport := s.portAt_landed k a p q spilt
    refine ⟨_, he, ?_, by rw [State.coreOf_updCore_self]⟩
    rw [State.coreOf_updCore]
    split
    · subst k
      exact hport
    · exact hport

/-! ### Control packets (R310, R330) -/

/-- A control packet comes to the actor that its capability names, at core k (R330). -/
structure State.Controls (s : State) (c : CtlPkt) (k : Nat) : Prop where
  packet : s.ctls[s.arg.value]? = some c
  ready : s.ctlReady c = true
  unmasked : s.masked 2 = false
  bound : s.onTheWay c.capLo = false
  awake : s.tileStill (tileOfCore k) = false
  named : s.capCoreId c.capLo = some k
  dest : s.injectTo c.asMsg = .core k
  path : s.pathCause (tileOfCore c.srcCore) (tileOfCore k) 2 = none
  runs : (s.hubOf (fieldOfTile (tileOfCore k))).runTag = capOwner c.capLo
  restored : s.restored (fieldOfTile (tileOfCore k)) = true
  single : capWhole c.capLo = false
  valid : ((s.coreOf k).actorAt (capAct c.capLo)).valid = true
  owner : ((s.coreOf k).actorAt (capAct c.capLo)).owner = capOwner c.capLo

section
variable {s : State} {c : CtlPkt} {k : Nat}

/-- It leaves the network, and has its effect on the actor. -/
theorem State.deliverCtl_of_controls (h : s.Controls c k) :
    ∃ t, Counted { s with ctls := setAt s.ctls s.arg.value none } t ∧ s.deliverCtl s.arg.value c.wake = t.applyCtl k c := by
  refine ⟨_, (State.counted_lookUp _ (tileOfCore c.srcCore) c.capLo).trans (State.counted_countFabric _ (fieldOfTile (tileOfCore c.srcCore)) 0x42 (Config.flits 0)), ?_⟩
  simp [State.deliverCtl, h.packet, h.ready, h.unmasked, h.bound, h.awake, h.named, h.dest, h.path, h.runs, h.restored, h.single, h.valid, h.owner]

/-- A packet for one actor clears or sets its halted state; a wake wakes its firing too. -/
theorem State.applyCtl_of_single (t : State) (h : capWhole c.capLo = false) :
    t.applyCtl k c = if c.wake then (t.updActor k (capAct c.capLo) (fun x => { x with halted := !c.wake })).wakeFirings k (fun x => x.isFiringOf (capAct c.capLo))
      else t.updActor k (capAct c.capLo) (fun x => { x with halted := !c.wake }) := by
  simp [State.applyCtl, h]

theorem State.actorAt_updActor (t : State) (k a : Nat) (g : Actor → Actor) : ((t.updActor k a g).coreOf k).actorAt a = g ((t.coreOf k).actorAt a) := by
  simp [State.updActor, Core.actorAt]

theorem State.actorAt_wakeFirings (t : State) (k i a : Nat) (hit : Ctx → Bool) : ((t.wakeFirings k hit).coreOf i).actorAt a = (t.coreOf i).actorAt a := by
  obtain ⟨l, h⟩ := t.coreOf_wakeFirings k i hit
  rw [h]
  rfl

theorem State.applyCtl_effects (t : State) (h : capWhole c.capLo = false) :
    (t.applyCtl k c).ctls = t.ctls ∧ (((t.applyCtl k c).coreOf k).actorAt (capAct c.capLo)).halted = !c.wake ∧
    (c.wake = true → ∀ i, coreOfCtx i = k → (t.ctxOf i).occ = true → (t.ctxOf i).isFiringOf (capAct c.capLo) = true →
      (t.applyCtl k c).ctxOf i = { t.ctxOf i with wakeBit := true }) := by
  rw [t.applyCtl_of_single h]
  split
  · refine ⟨rfl, ?_, fun _ i hi ho hf => ?_⟩
    · rw [State.actorAt_wakeFirings, State.actorAt_updActor]
    · exact State.ctxOf_wakeFirings (s := t.updActor k (capAct c.capLo) _) hi ho hf
  · refine ⟨rfl, ?_, fun hw => absurd hw ‹_›⟩
    rw [State.actorAt_updActor]

end

theorem controlPacketsWakeAndHalt_holds : controlPacketsWakeAndHalt := by
  intro c k w s ⟨hc, hw, hready, hmask, hway, hstill, hcap, hdest, hpath, hrun, hrest, hsingle, hval, hown⟩
  obtain ⟨t, ht, hdel⟩ := State.deliverCtl_of_controls ⟨hc, hready, hmask, hway, hstill, hcap, hdest, hpath, hrun, hrest, hsingle, hval, hown⟩
  obtain ⟨hctls, hhalt, hwake⟩ := t.applyCtl_effects (k := k) hsingle
  have he : exec (if w then .wakeDelivery else .haltDelivery) s = .next (s.deliverCtl s.arg.value w) := by
    cases w <;> rfl
  subst w
  refine ⟨_, he.trans (congrArg _ hdel), hctls.trans ht.ctls, hhalt, fun hw i hi ho hf => ?_⟩
  have hctx : t.ctxOf i = s.ctxOf i := ht.ctxOf i
  rw [hwake hw i hi (hctx ▸ ho) (hctx ▸ hf), hctx]

/-- Settles O53: messages leave their queues, move, reach their ports or bounce, and control packets reach their actors, each by the lemma of its event. -/
theorem messagesTravelAndArrive : Obligations.MessagesTravelAndArrive :=
  ⟨sendQueuesInject_holds, packetsMoveHopByHop_holds, messagesJoinTheirPorts_holds, waitingMessagesAreDelivered_holds, controlPacketsWakeAndHalt_holds⟩

end Sys2Proof.Machine
end

section
/-! SUPPORT. What leases and revocations change: R58 to R62, R72. -/

namespace Sys2Proof.Machine

/-! ### Leases and shares of freed pips (R60, R72) -/

/-- A hub but for its leases and the shares that freed pips still have to fill. -/
def Hub.unleased (h : Hub) : Hub := { h with leases := [], paceOwed := [], paceDebt := 0 }

/-- Between two states leases have been made or changed, and shares have been filled, and nothing else has changed. -/
abbrev Leased : State → State → Prop := SameBut (fun s => { s with hubs := [] }) Hub.unleased

section
variable (s : State) (f : Nat)

theorem State.leased_putLease (i : Nat) (l : Hub → Lease) : Leased s (s.updHub f (fun h => h.putLease i (l h))) := State.sameBut_updHub _ _ s f _ rfl rfl

@[simp] theorem Hub.leases_putLease (h : Hub) (i : Nat) (l d : Lease) : (h.putLease i l).leases.get d i = l := by simp [Hub.putLease]

theorem State.leased_makeLease (lender borrower count dur src start : Nat) : Leased s (s.makeLease lender borrower count dur src start) := by
  unfold State.makeLease
  split
  · exact (s.leased_putLease _ _ _).trans (State.leased_putLease _ _ _ _)
  · exact SameBut.refl s

theorem State.leased_fillShare (k : Nat) (o : PaceShare) : Leased s (s.fillShare f k o) := by
  unfold State.fillShare
  split
  · simp only
    split
    · exact (s.leased_putLease f _ _).trans (State.leased_putLease _ _ _ _)
    · exact s.leased_putLease f _ _
  · exact s.leased_makeLease _ _ _ _ _ _

theorem State.leased_fillShares (n : Nat) (os : List PaceShare) : Leased s (State.fillShares f n os s).1 := by
  induction os generalizing n s with
  | nil => exact SameBut.refl s
  | cons o os ih =>
    refine SameBut.trans ?_ (ih _ _)
    split
    · exact SameBut.refl s
    · exact s.leased_fillShare f _ o

theorem State.leased_payShares (n : Nat) : Leased s (s.payShares f n) := by
  unfold State.payShares
  split
  · exact State.sameBut_updHub _ _ s f _ rfl rfl
  · exact (s.leased_fillShares f n _).trans (State.sameBut_updHub _ _ _ f _ rfl rfl)

/-- What a field does with pips that a notice freed leaves the tiles (R72). -/
theorem State.tiles_noticePays (n reason : Nat) : (s.noticePays f n reason).tiles = s.tiles := by
  unfold State.noticePays
  split
  · exact (s.leased_payShares f n).part State.tiles (fun _ => rfl)
  · rfl

/-! ### Revocations (R61, R62) -/

/-- A revocation gives notices to tiles, and does no more. -/
theorem State.toldTiles_revoke (n reason below : Nat) (skip : Option Nat) : ToldTiles s (s.revoke f n reason below skip) := by
  unfold State.revoke
  refine List.foldlRecOn _ _ (SameBut.refl s) (fun u h e _ => ?_)
  split
  · exact h.trans (u.toldTiles_noticeTile _ _ _ _)
  · exact h

end

end Sys2Proof.Machine
end

section
/-! SUPPORT. The pip instructions: R53, R54, R60, R340. -/

namespace Sys2Proof.Machine

/-! ### Retirement and registers (R180, R184) -/

section
variable {s t : State}

theorem State.x_congr (h : t.cx = s.cx) (r : BitVec 5) : t.x r = s.x r := by
  rw [State.x, State.x, h]

/-- The context after retirement depends on the context before it alone. -/
theorem State.cx_fall_congr (h : t.cx = s.cx) : t.fall.cx = s.fall.cx := by
  rw [State.fall_eq, State.fall_eq, State.cx_retire, State.cx_retire, h]

/-- The end test of a loop leaves the registers (R197). -/
theorem Ctx.x_retireTo (c : Ctx) (npc : Word) : (c.retireTo npc).x = c.x := by
  unfold Ctx.retireTo
  simp only
  split_ifs <;> rfl

@[simp] theorem State.x_fall (s : State) (r : BitVec 5) : s.fall.x r = s.x r := by
  have hx : s.fall.cx.x = s.cx.x := by rw [State.fall_eq, State.cx_retire, Ctx.x_retireTo]
  rw [State.x, State.x, hx]

@[simp] theorem State.tile_fall (s : State) : s.fall.tile = s.tile := rfl

/-- What a register reads after one has been written. -/
theorem State.x_setX (s : State) (r q : BitVec 5) (v : Word) : (s.setX r v).x q = if q = r then (if r = 0 then 0 else v) else s.x q := by
  obtain ⟨rfl, h⟩ | ⟨hr, h⟩ := s.setX_cases r v
  · rw [h, if_pos rfl]
    split
    · subst q
      exact s.x_zero
    · rfl
  · rw [h, if_neg hr, State.x, State.cx_upd]
    by_cases hq : q = r
    · subst hq
      rw [if_neg hr, if_pos rfl, KMap.get_put_self]
    · have hn : q.toNat ≠ r.toNat := fun e => hq (BitVec.eq_of_toNat_eq e)
      rw [if_neg hq, KMap.get_put_other 0 v s.cx.x hn, State.x]

@[simp] theorem State.hubs_setX (s : State) (r : BitVec 5) (v : Word) : (s.setX r v).hubs = s.hubs := (congrArg State.hubs (s.setX_keeps r v) :)

end

/-! ### Requests and releases (R53, R54, R423) -/

/-- Forgetting what an earlier request asked for changes hubs and the notices of tiles, and nothing else (R423). -/
theorem State.forgetFor_keeps (s : State) (t : Nat) : ({ s.forgetFor t with tiles := s.tiles, hubs := s.hubs } : State) = s ∧
    ∀ u, ∃ ns, (s.forgetFor t).tileOf u = { s.tileOf u with notices := ns } := by
  unfold State.forgetFor
  refine List.foldlRecOn (motive := fun v : State => ({ v with tiles := s.tiles, hubs := s.hubs } : State) = s ∧ ∀ u, ∃ ns, v.tileOf u = { s.tileOf u with notices := ns })
    _ _ ⟨rfl, fun u => ⟨_, rfl⟩⟩ (fun v hv k _ => ?_)
  obtain ⟨hkeep, htile⟩ := hv
  split
  · refine ⟨hkeep, fun u => ?_⟩
    obtain ⟨ns, hns⟩ := htile u
    rw [State.tileOf_updTile]
    split
    · subst u
      exact ⟨_, by rw [hns]⟩
    · exact ⟨ns, hns⟩
  · exact ⟨hkeep, htile⟩

/-- The holding of the issuing tile when it has been set, and its class (R48, R50). -/
theorem State.tile_setHolding (s : State) (n : Nat) :
    (s.setHolding (tileOfCtx s.cur) n).tile = { s.tile with h := n, hclass := if n = 0 then 0 else s.tile.hclass } := s.tile_updCurTile _

section
variable {s : State} {f : FmtCR}

/-- The state in which a request is noted: a tile without one forgets what its earlier ones asked for (R423). -/
def State.atRequest (s : State) (n : Nat) : State := if s.tile.req.isNone && decide (s.tile.h < n) then s.forgetFor (tileOfCtx s.cur) else s

theorem State.atRequest_keeps (s : State) (n : Nat) : (s.atRequest n).cx = s.cx ∧ ∃ ns, (s.atRequest n).tile = { s.tile with notices := ns } := by
  unfold State.atRequest
  split
  · obtain ⟨hkeep, htile⟩ := s.forgetFor_keeps (tileOfCtx s.cur)
    generalize s.forgetFor (tileOfCtx s.cur) = t at hkeep htile
    have hcur : t.cur = s.cur := (congrArg State.cur hkeep :)
    rw [State.tile, hcur]
    exact ⟨(congrArg State.cx hkeep :), htile _⟩
  · exact ⟨rfl, s.tile.notices, rfl⟩

/-- The state after a request in order. -/
def State.requested (s : State) (f : FmtCR) : State :=
  let n := (s.x f.xa).toNat
  ((s.atRequest n).updCurTile (fun t => { t with
    pipOwner := if s.cx.isActor then some s.cx.act else t.pipOwner,
    req := if n ≤ t.h then t.req else some { target := n, cls := f.opt.toNat % 4, notify := decide (4 ≤ f.opt.toNat), age := s.rtime } })).fall

/-- The state after a release in order. -/
def State.released (s : State) (n : Nat) : State :=
  ((s.updCurTile (fun t => { t with req := t.req.filter (fun r => r.target ≤ n) })).setHolding (tileOfCtx s.cur) n).fall

theorem execPipReq_of_accepts (ha : s.accepts (.pipReq f)) : exec (.pipReq f) s =
    if !isIssueCore (coreOfCtx s.cur) then s.faultC .pipNotIssue
    else if (s.x f.xa).toNat = 0 ∨ (s.x f.xa).toNat > fullRate (tileKind (tileOfCtx s.cur)) then s.faultC .pipRange
    else if f.opt.toNat % 4 > s.cx.cls then s.faultC .pipClass
    else .next (s.requested f) := show execPipReq f s = _ from State.slotC_of_accepts ha _

theorem execPipRel_of_accepts (ha : s.accepts (.pipRel f)) : exec (.pipRel f) s =
    if !isIssueCore (coreOfCtx s.cur) then s.faultC .pipNotIssue
    else if (s.x f.xa).toNat > s.tile.h then s.faultC .pipRange
    else .next (s.released (s.x f.xa).toNat) := show execPipRel f s = _ from State.slotC_of_accepts ha _

/-- The feed core may neither request nor release (R53). -/
theorem exec_pip_of_feed {i : Instr} (hi : i = .pipReq f ∨ i = .pipRel f) (ha : s.accepts i) (hc : isIssueCore (coreOfCtx s.cur) = false) :
    exec i s = s.faultC .pipNotIssue := by
  obtain rfl | rfl := hi
  · rw [execPipReq_of_accepts ha, if_pos (by simp [hc])]
  · rw [execPipRel_of_accepts ha, if_pos (by simp [hc])]

/-- A request is noted unless the tile holds as much (R54). -/
theorem State.requested_effects (s : State) (f : FmtCR) :
    (s.requested f).tile.req = (if (s.x f.xa).toNat ≤ s.tile.h then s.tile.req
      else some { target := (s.x f.xa).toNat, cls := f.opt.toNat % 4, notify := decide (4 ≤ f.opt.toNat), age := s.rtime }) ∧
    (s.requested f).tile.h = s.tile.h ∧ (s.requested f).cx.pc = s.fall.cx.pc ∧ ∀ r, (s.requested f).x r = s.x r := by
  obtain ⟨hcx, ns, htile⟩ := s.atRequest_keeps (s.x f.xa).toNat
  refine ⟨?_, ?_, congrArg Ctx.pc (State.cx_fall_congr hcx), fun r => (State.x_fall _ r).trans (State.x_congr hcx r)⟩
  · simp [State.requested, htile]
  · simp [State.requested, htile]

/-- A release lowers the holding at once, and drops a request above it (R54, R65). -/
theorem State.released_effects (s : State) (n : Nat) : (s.released n).tile.h = n ∧ (n = 0 → (s.released n).tile.hclass = 0) ∧
    (∀ r, (s.released n).tile.req = some r → r.target ≤ n) ∧ (s.released n).cx.pc = s.fall.cx.pc ∧ ∀ r, (s.released n).x r = s.x r := by
  have htile : (s.released n).tile = { s.tile with h := n, hclass := if n = 0 then 0 else s.tile.hclass, req := s.tile.req.filter (fun r => r.target ≤ n) } := by
    refine ((s.updCurTile _).tile_setHolding n).trans ?_
    rw [State.tile_updCurTile]
  refine ⟨?_, fun h => ?_, fun r hr => ?_, congrArg Ctx.pc (State.cx_fall_congr rfl), fun r => (State.x_fall _ r).trans (State.x_congr rfl r)⟩
  · rw [htile]
  · rw [htile]
    exact if_pos h
  · rw [htile] at hr
    simpa using (Option.filter_eq_some_iff.1 hr).2

end

/-! ### Leases and the status (R60, R340) -/

/-- A lease between two bankers stands in a free entry of each (R60). -/
theorem State.hubOf_makeLease (s : State) {lender borrower i j : Nat} (count dur src start : Nat) (hne : borrower ≠ lender)
    (hi : (s.hubOf lender).freeLease = some i) (hj : (s.hubOf borrower).freeLease = some j) :
    (s.makeLease lender borrower count dur src start).hubOf lender =
      (s.hubOf lender).putLease i { valid := true, dir := 0, src := src, peer := borrower, count := count, dur := dur, start := start } ∧
    (s.makeLease lender borrower count dur src start).hubOf borrower =
      (s.hubOf borrower).putLease j { valid := true, dir := 1, src := src, peer := lender, count := count, dur := dur, start := start } := by
  simp [State.makeLease, hi, hj, State.hubOf_updHub_other, hne, hne.symm]

/-- A result read off a state in which leases alone have changed. -/
theorem State.result_of_leased {s t : State} (h : Leased s t) (r : BitVec 5) (v : Word) :
    let u := (t.setX r v).fall
    (∀ g, u.hubOf g = t.hubOf g) ∧ u.hub = t.hubOf (fieldOfCtx s.cur) ∧ u.x r = (if r = 0 then 0 else v) ∧ ∀ q, q ≠ r → u.x q = s.x q := by
  intro u
  have hhub : ∀ g, u.hubOf g = t.hubOf g := fun g => State.hubOf_congr (t.hubs_setX r v) g
  have hcur : u.cur = s.cur := (t.cur_setX r v).trans (h.part State.cur (fun _ => rfl))
  refine ⟨hhub, by rw [State.hub, hhub, hcur], ?_, fun q hq => ?_⟩
  · rw [State.x_fall, State.x_setX, if_pos rfl]
  · rw [State.x_fall, State.x_setX, if_neg hq]
    exact State.x_congr (h.part State.cx (fun _ => rfl)) q

section
variable {s : State} {f : FmtCR}

theorem execPipLend_of_user (ha : s.accepts (.pipLend f)) (hl : s.level = 0) : exec (.pipLend f) s = s.faultC .pipPriv :=
  (show execPipLend f s = _ from State.slotC_of_accepts ha _).trans (if_pos (by simp [hl]))

/-- A lease in order is made, and the entry of the lender is its result (R340). -/
theorem execPipLend_lends {i j p : Nat} (ha : s.accepts (.pipLend f)) (hl : 1 ≤ s.level) (hb : s.bankPaused = false) (hi : s.hub.freeLease = some i)
    (hj : (s.hubOf (s.x f.xa).toNat).freeLease = some j) (hlo : 100 ≤ (s.x f.xd).toNat) (hhi : (s.x f.xd).toNat < 2 ^ 32) (hp : s.partOfTag s.tag = some p)
    (hg : (s.x f.xa).toNat ∈ (s.partOf p).fields) (hne : (s.x f.xa).toNat ≠ fieldOfCtx s.cur) (h1 : 1 ≤ (s.x f.xb).toNat)
    (hfree : (s.x f.xb).toNat ≤ s.freeOf (fieldOfCtx s.cur)) :
    exec (.pipLend f) s = (s.makeLease (fieldOfCtx s.cur) (s.x f.xa).toNat (s.x f.xb).toNat (s.x f.xd).toNat 1 s.rtime).result f.xd (BitVec.ofNat 64 i) := by
  refine (show execPipLend f s = _ from State.slotC_of_accepts ha _).trans ?_
  have hok : ¬((s.x f.xd).toNat < 100 ∨ (s.x f.xd).toNat > 2 ^ 32 - 1 ∨ (!(s.partOf p).fields.contains (s.x f.xa).toNat) = true ∨
      (s.x f.xa).toNat = fieldOfCtx s.cur ∨ (s.x f.xb).toNat = 0 ∨ (s.x f.xb).toNat > s.freeOf (fieldOfCtx s.cur)) := by
    have hmine : (s.partOf p).fields.contains (s.x f.xa).toNat = true := by simpa using hg
    rw [hmine]
    simp only [Bool.not_true, Bool.false_eq_true, false_or]
    omega
  simp only [hi, hj, hp, hb, if_neg (Nat.not_lt.2 hl), if_neg hok, Bool.false_eq_true, if_false]

theorem execPipStat_of_accepts (ha : s.accepts (.pipStat f)) :
    exec (.pipStat f) s = .next ((s.setX f.xd (BitVec.ofNat 64 (s.bkstat (fieldOfCtx s.cur)))).fall) :=
  show execPipStat f s = _ from State.slotC_of_accepts ha _

end

/-- Settles O42: each clause by the lemma of its instruction. -/
theorem pipInstructions : Obligations.PipInstructions := by
  intro f s t n c
  refine ⟨fun i hi ha hc => exec_pip_of_feed hi ha hc, fun ha hc hn => ?_, fun ha hc h0 hf hcl => ?_, fun ha hc h0 hf hcl => ⟨_, ?_, s.requested_effects f⟩,
    fun ha hc hn => ?_, fun ha hc hn => ⟨_, ?_, s.released_effects n⟩, execPipLend_of_user, ?_, execPipStat_of_accepts⟩
  · rw [execPipReq_of_accepts ha, if_neg (by simp [hc]), if_pos hn]
  · rw [execPipReq_of_accepts ha, if_neg (by simp [hc]), if_neg (not_or.2 ⟨h0, Nat.not_lt.2 hf⟩), if_pos hcl]
  · rw [execPipReq_of_accepts ha, if_neg (by simp [hc]), if_neg (not_or.2 ⟨h0, Nat.not_lt.2 hf⟩), if_neg (Nat.not_lt.2 hcl)]
  · rw [execPipRel_of_accepts ha, if_neg (by simp [hc]), if_pos hn]
  · rw [execPipRel_of_accepts ha, if_neg (by simp [hc]), if_neg (Nat.not_lt.2 hn)]
  · intro i j p ha hl hb hi hj hlo hhi hp hg hne h1 hfree
    obtain ⟨hown, hpeer⟩ := s.hubOf_makeLease (s.x f.xb).toNat (s.x f.xd).toNat 1 s.rtime hne hi hj
    obtain ⟨hhubs, hhub, hxd, hx⟩ := State.result_of_leased (s.leased_makeLease (fieldOfCtx s.cur) n (s.x f.xb).toNat (s.x f.xd).toNat 1 s.rtime) f.xd (BitVec.ofNat 64 i)
    refine ⟨_, execPipLend_lends ha hl hb hi hj hlo hhi hp hg hne h1 hfree, ?_⟩
    rw [hhub, hhubs, hown, hpeer, Hub.leases_putLease, Hub.leases_putLease]
    exact ⟨rfl, rfl, rfl, rfl, rfl, rfl, hxd, hx⟩

end Sys2Proof.Machine
end

section
/-! SUPPORT. What an engine instruction checks and waits for: R50, R52, R178, R179, R370. -/

namespace Sys2Proof.Machine

/-! ### Roles (R178, R179) -/

section
variable {s : State} {kind mask : Nat}

theorem State.engineRole_of_kind (mask : Nat) (h : tileKind (tileOfCtx s.cur) ≠ kind) : s.engineRole kind mask = some .engineKind := if_pos h

theorem State.engineRole_of_feed (mask : Nat) (hk : tileKind (tileOfCtx s.cur) = kind) (hc : isIssueCore (coreOfCtx s.cur) = false) :
    s.engineRole kind mask = some .engineFeed := by
  simp [State.engineRole, hk, hc]

theorem State.engineRole_of_claim (hk : tileKind (tileOfCtx s.cur) = kind) (hc : isIssueCore (coreOfCtx s.cur) = true) (hm : mask ≠ 0)
    (hcl : s.claimedByOther mask = true) : s.engineRole kind mask = some .engineClaim := by
  simp [State.engineRole, hk, hc, hm, hcl]

end

section
variable {s : State} {c : Cause}

theorem State.denseMul_of_role {f : FmtWE} (ring : Bool) (h : s.engineRole 0 (2 ^ (f.opt.toNat % 4)) = some c) : s.denseMul f ring = s.faultC c := by
  simp only [State.denseMul, h]

theorem State.sparseIssue_of_role (k : State → Out) (h : s.engineRole 1 15 = some c) : s.sparseIssue k = s.faultC c := by
  simp only [State.sparseIssue, h]

theorem State.attIssue_of_role (states : List Nat) (reads : BitVec 4) (k : State → Out) (h : s.engineRole 2 15 = some c) :
    s.attIssue states reads k = s.faultC c := by
  simp only [State.attIssue, h]

/-- Every engine instruction that is accepted takes the fault of its role before it does anything else (R178). -/
theorem exec_of_engineRole {i : Instr} {kind mask : Nat} (hn : engineNeeds i = some (kind, mask)) (ha : s.accepts i) (hr : s.engineRole kind mask = some c) :
    exec i s = s.faultC c := by
  have hs := fun k => State.slotC_of_accepts ha k
  unfold engineNeeds at hn
  split at hn <;> cases hn
  case h_1 => exact (show execMma _ s = _ from hs _).trans (State.denseMul_of_role _ hr)
  case h_2 => exact (show execMmaRing _ s = _ from hs _).trans (State.denseMul_of_role _ hr)
  case h_3 => exact (show execAccZero _ s = _ from hs _).trans (by simp only [hr])
  case h_4 => exact (show execAccLd _ s = _ from hs _).trans (by simp only [hr])
  case h_5 => exact (show execAccSt _ s = _ from hs _).trans (by simp only [hr])
  case h_6 => exact (show execAccProm _ s = _ from hs _).trans (by simp only [hr])
  case h_7 => exact (show execMxLdb _ s = _ from hs _).trans (by simp only [hr])
  case h_8 => exact (show execSpMm _ s = _ from hs _).trans (State.sparseIssue_of_role _ hr)
  case h_9 => exact (show execSpBm _ s = _ from hs _).trans (State.sparseIssue_of_role _ hr)
  case h_10 => exact (show execSpDrop _ s = _ from hs _).trans (State.sparseIssue_of_role _ hr)
  case h_11 => exact (show execSpGrow _ s = _ from hs _).trans (State.sparseIssue_of_role _ hr)
  case h_12 => exact (show execSpCnt _ s = _ from hs _).trans (by simp only [hr])
  case h_13 => exact (show execAttQk _ s = _ from hs _).trans (State.attIssue_of_role _ _ _ hr)
  case h_14 => exact (show execAttSm _ s = _ from hs _).trans (State.attIssue_of_role _ _ _ hr)
  case h_15 => exact (show execAttPv _ s = _ from hs _).trans (State.attIssue_of_role _ _ _ hr)
  case h_16 => exact (show execAttFin _ s = _ from hs _).trans (State.attIssue_of_role _ _ _ hr)
  case h_17 => exact (show execModeL s = _ from hs _).trans (by simp only [hr])

end

theorem engineInstructionsCheckTheirTile_holds : engineInstructionsCheckTheirTile := fun _ _ _ mask hn ha =>
  ⟨fun hk => exec_of_engineRole hn ha (State.engineRole_of_kind mask hk), fun hk hc => exec_of_engineRole hn ha (State.engineRole_of_feed mask hk hc),
    fun hk hc hm hcl => exec_of_engineRole hn ha (State.engineRole_of_claim hk hc hm hcl)⟩

/-! ### Occupancy and pace (R50, R52, R370) -/

section
variable {s : State}

theorem State.afterOccupancy_of_busy (k : State → Out) (h : s.cyc < s.eng.busyUntil) : s.afterOccupancy k = .next (s.stallOn 0) := if_pos h

theorem State.afterOccupancy_of_free (k : State → Out) (h : s.eng.busyUntil ≤ s.cyc) : s.afterOccupancy k = k s := if_neg (Nat.not_lt.2 h)

theorem State.pace_of_empty (w : Weight) (k : State → Out) (h : s.tile.h = 0) : s.pace w k = .next (s.heldByPace .waitPip) := if_pos h

theorem State.pace_of_early (w : Weight) (k : State → Out) (h0 : s.tile.h ≠ 0) (h : s.cyc < s.tile.nextok) : s.pace w k = .next (s.heldByPace 0) :=
  (if_neg h0).trans (if_pos h)

theorem State.sparseIssue_of_ready (k : State → Out) (h : s.engineRole 1 15 = none) : s.sparseIssue k = s.afterOccupancy (fun s => s.pace .four k) := by
  simp only [State.sparseIssue, h]

/-- A paced sparse instruction with its role in order waits for the engine, and then for its turn (R412). -/
theorem exec_sparse_paced {i : Instr} {f : FmtWE} (ha : s.accepts i) (hr : s.engineRole 1 15 = none) (hi : i = .spMm f ∨ i = .spBm f ∨ i = .spDrop f ∨ i = .spGrow f) :
    ∃ k, exec i s = s.afterOccupancy (fun s => s.pace .four k) := by
  have hs := fun k => State.slotC_of_accepts ha k
  obtain rfl | rfl | rfl | rfl := hi
  · exact ⟨_, (show execSpMm f s = _ from hs _).trans (State.sparseIssue_of_ready _ hr)⟩
  · exact ⟨_, (show execSpBm f s = _ from hs _).trans (State.sparseIssue_of_ready _ hr)⟩
  · exact ⟨_, (show execSpDrop f s = _ from hs _).trans (State.sparseIssue_of_ready _ hr)⟩
  · exact ⟨_, (show execSpGrow f s = _ from hs _).trans (State.sparseIssue_of_ready _ hr)⟩

theorem exec_accZero_waits {f : FmtWE} (ha : s.accepts (.accZero f)) (hr : s.engineRole 0 (2 ^ (f.opt.toNat % 4)) = none) :
    ∃ k, exec (.accZero f) s = s.afterOccupancy k :=
  ⟨_, (show execAccZero f s = _ from State.slotC_of_accepts ha _).trans (by simp only [hr]; rfl)⟩

theorem exec_spCnt_waits {f : FmtWE} (ha : s.accepts (.spCnt f)) (hr : s.engineRole 1 15 = none) : ∃ k, exec (.spCnt f) s = s.afterOccupancy k :=
  ⟨_, (show execSpCnt f s = _ from State.slotC_of_accepts ha _).trans (by simp only [hr]; rfl)⟩

end

theorem engineInstructionsWaitTheirTurn_holds : engineInstructionsWaitTheirTurn := by
  intro i f s ha hi
  have hpaced : i = .spMm f ∨ i = .spBm f ∨ i = .spDrop f ∨ i = .spGrow f → ∃ k, exec i s = s.afterOccupancy (fun s => s.pace .four k) := by
    intro hp
    refine exec_sparse_paced ha ?_ hp
    obtain rfl | rfl | rfl | rfl := hp <;> simpa using hi
  have hwaits : ∃ k, exec i s = s.afterOccupancy k := by
    by_cases hp : i = .spMm f ∨ i = .spBm f ∨ i = .spDrop f ∨ i = .spGrow f
    · exact (hpaced hp).imp' _ fun _ h => h
    · obtain ⟨rfl, hr⟩ | ⟨rfl, hr⟩ : (i = .accZero f ∧ s.engineRole 0 (2 ^ (f.opt.toNat % 4)) = none) ∨ (i = .spCnt f ∧ s.engineRole 1 15 = none) := by tauto
      · exact exec_accZero_waits ha hr
      · exact exec_spCnt_waits ha hr
  refine ⟨fun hb => ?_, fun hfree hp => ?_⟩
  · obtain ⟨k, hk⟩ := hwaits
    exact hk.trans (State.afterOccupancy_of_busy k hb)
  · obtain ⟨k, hk⟩ := hpaced hp
    rw [hk, State.afterOccupancy_of_free _ hfree]
    exact ⟨State.pace_of_empty _ _, State.pace_of_early _ _⟩

/-- Settles O43: the roles are what every engine instruction looks at first, and then the occupancy and the pace. -/
theorem engineInstructionsCheckAndWait : Obligations.EngineInstructionsCheckAndWait :=
  ⟨engineInstructionsCheckTheirTile_holds, engineInstructionsWaitTheirTurn_holds⟩

end Sys2Proof.Machine
end

section
/-! SUPPORT. Grants, shortfalls and leases: R48, R54 to R56, R60, R423. -/

namespace Sys2Proof.Machine

section
variable {s : State}

/-! ### Grants and shortfalls (R55, R60, R423) -/

/-- A power message leaves what a tile holds and asks for (R62). -/
theorem State.holding_powerMessage (s : State) (t cls reason oldh newh hclass effect : Nat) :
    let x := (s.powerMessage t cls reason oldh newh hclass effect).tileOf t
    x.h = (s.tileOf t).h ∧ x.hclass = (s.tileOf t).hclass ∧ x.req = (s.tileOf t).req := by
  have ht : (s.powerMessage t cls reason oldh newh hclass effect).tileOf t = _ := (s.told_powerMessage t cls reason oldh newh hclass effect).part (fun v => v.tileOf t) (fun _ => rfl)
  rw [State.tileOf_updTile_self] at ht
  exact ⟨(congrArg Tile.h ht :), (congrArg Tile.hclass ht :), (congrArg Tile.req ht :)⟩

/-- The tile of the head request has what was granted (R55). -/
theorem execBankerGrant_grants {u n ball : Nat} {r : PipReq} (hg : s.grantNow s.arg.unit = some (u, r, n, ball)) (hn : n ≠ 0) :
    ∃ t, exec .bankerGrant s = .next t ∧ (t.tileOf u).h = (s.tileOf u).h + n ∧
      (t.tileOf u).hclass = (if (s.tileOf u).h = 0 then r.cls else max (s.tileOf u).hclass r.cls) ∧
      (t.tileOf u).req = if r.target ≤ (s.tileOf u).h + n then none else some r := by
  have he : exec .bankerGrant s = execBankerGrant s := rfl
  simp only [he, execBankerGrant, hg, if_neg hn]
  refine ⟨_, rfl, ?_⟩
  split
  · obtain ⟨hh, hcls, hreq⟩ := State.holding_powerMessage _ u _ _ _ _ _ _
    rw [hh, hcls, hreq]
    simp
  · simp

/-- A shortfall that no recall covers is asked of the other fields (R60). -/
theorem execShortfallCover_asks {u n : Nat} {r : PipReq} (hs : s.shortfall s.arg.unit = some (u, r, n)) (hrec : s.recallable s.arg.unit = [])
    (hp : s.inProgress s.arg.unit u < n) (hc : (s.hubOf s.arg.unit).coverFor ≠ some (u, r.target, r.age)) (hb : (s.hubOf s.arg.unit).borrow = true)
    (ho : s.otherFields s.arg.unit ≠ []) (hf : (s.hubOf s.arg.unit).freeLease.isSome = true) :
    ∃ t, exec .shortfallCover s = .next t ∧ (t.hubOf s.arg.unit).asks = s.otherFields s.arg.unit ∧
      (t.hubOf s.arg.unit).coverLeft = n - s.inProgress s.arg.unit u ∧ (t.hubOf s.arg.unit).coverFor = some (u, r.target, r.age) := by
  have he : exec .shortfallCover s = execShortfallCover s := rfl
  have hleft : ¬n - s.inProgress s.arg.unit u = 0 := by omega
  have htake : takeLeases (n - s.inProgress s.arg.unit u) [] = [] := rfl
  simp only [he, execShortfallCover, hs, hrec, htake, List.foldl_nil, List.map_nil, List.sum_nil, Nat.sub_zero]
  rw [if_neg (by simp [hleft, hc]), if_pos (by simp [hb, ho]), if_pos hf]
  exact ⟨_, rfl, by simp⟩

/-! ### Leases (R60) -/

/-- The hub of a field to which banker g has answered. -/
def Hub.answered (h : Hub) (rest : List Nat) (g n dur start : Nat) : Hub := { h with asks := rest, answer := some (g, n, dur, start) }

/-- An answer leaves every lease. -/
theorem State.leases_answered (s : State) (f k : Nat) (rest : List Nat) (g n dur start : Nat) :
    ((s.updHub f (fun h => h.answered rest g n dur start)).hubOf k).leases = (s.hubOf k).leases := by
  rw [State.hubOf_updHub]
  split
  · subst k
    rfl
  · rfl

/-- A banker that does not lend answers with no pips (R60). -/
theorem execLeaseRequest_denies {g : Nat} {rest : List Nat} (hb : s.bankPaused = false) (ha : (s.hubOf s.arg.unit).asks = g :: rest)
    (hn : (s.hubOf s.arg.unit).answer = none)
    (hno : s.mayLend g s.arg.unit = false ∨ min (s.availOf g) (s.hubOf s.arg.unit).coverLeft = 0 ∨ (s.hubOf g).freeLease = none) :
    ∃ t, exec .leaseRequest s = .next t ∧ Told (s.updHub s.arg.unit (fun h => h.answered rest g 0 (max 100 (s.hubOf g).lease) s.rtime)) t := by
  have he : exec .leaseRequest s = execLeaseRequest s := rfl
  simp only [he, execLeaseRequest, hb, ha, hn, Bool.false_eq_true, if_false]
  split_ifs with hm h0 h0
  · exact ⟨_, rfl, SameBut.refl _⟩
  · rw [((hno.resolve_left (by simp [hm])).resolve_left h0)]
    exact ⟨_, rfl, State.told_reportField _ g .leaseTableFull []⟩
  · exact ⟨_, rfl, SameBut.refl _⟩
  · exact absurd rfl h0

/-- One that lends has the lease in its first free entry (R60). -/
theorem execLeaseRequest_lends {g i : Nat} {rest : List Nat} (hb : s.bankPaused = false) (ha : (s.hubOf s.arg.unit).asks = g :: rest)
    (hn : (s.hubOf s.arg.unit).answer = none) (hm : s.mayLend g s.arg.unit = true) (h0 : min (s.availOf g) (s.hubOf s.arg.unit).coverLeft ≠ 0)
    (hi : (s.hubOf g).freeLease = some i) :
    let n := min (s.availOf g) (s.hubOf s.arg.unit).coverLeft
    let dur := max 100 (s.hubOf g).lease
    exec .leaseRequest s = .next ((s.updHub g (fun k => k.putLease i { valid := true, dir := 0, peer := s.arg.unit, count := n, dur := dur, start := s.rtime })).updHub
      s.arg.unit (fun h => h.answered rest g n dur s.rtime)) := by
  have he : exec .leaseRequest s = execLeaseRequest s := rfl
  simp only [he, execLeaseRequest, hb, ha, hn, hm, hi, if_neg h0, Bool.false_eq_true, if_false, if_true]
  rfl

/-- The banker asked first answers with what it may lend, and lends it (R60). -/
theorem execLeaseRequest_answers {g : Nat} {rest : List Nat} (hb : s.bankPaused = false) (ha : (s.hubOf s.arg.unit).asks = g :: rest)
    (hn : (s.hubOf s.arg.unit).answer = none) :
    let n := min (s.availOf g) (s.hubOf s.arg.unit).coverLeft
    let dur := max 100 (s.hubOf g).lease
    ∃ t, exec .leaseRequest s = .next t ∧ (t.hubOf s.arg.unit).asks = rest ∧
      (∀ i, s.mayLend g s.arg.unit = true → n ≠ 0 → (s.hubOf g).freeLease = some i → (t.hubOf s.arg.unit).answer = some (g, n, dur, s.rtime) ∧
        (t.hubOf g).leases.get {} i = { valid := true, dir := 0, peer := s.arg.unit, count := n, dur := dur, start := s.rtime }) ∧
      (s.mayLend g s.arg.unit = false ∨ n = 0 ∨ (s.hubOf g).freeLease = none →
        (t.hubOf s.arg.unit).answer = some (g, 0, dur, s.rtime) ∧ (t.hubOf g).leases = (s.hubOf g).leases) := by
  intro n dur
  by_cases hno : s.mayLend g s.arg.unit = false ∨ n = 0 ∨ (s.hubOf g).freeLease = none
  · obtain ⟨t, he, ht⟩ := execLeaseRequest_denies hb ha hn hno
    have hanswer := ht.hubPart Hub.answer (fun _ => rfl) s.arg.unit
    have hasks := ht.hubPart Hub.asks (fun _ => rfl) s.arg.unit
    have hleases := (ht.hubPart Hub.leases (fun _ => rfl) g).trans (s.leases_answered _ _ _ _ _ _ _)
    rw [State.hubOf_updHub_self] at hanswer hasks
    exact ⟨t, he, hasks, fun i hm h0 hi => absurd hno (by simp [hm, h0, hi]), fun _ => ⟨hanswer, hleases⟩⟩
  · obtain ⟨hm, h0, hf⟩ : s.mayLend g s.arg.unit = true ∧ n ≠ 0 ∧ (s.hubOf g).freeLease ≠ none := by simpa using hno
    obtain ⟨j, hj⟩ := Option.ne_none_iff_exists'.1 hf
    refine ⟨_, execLeaseRequest_lends hb ha hn hm h0 hj, ?_, fun i _ _ hi => ?_, fun h => absurd h hno⟩
    · rw [State.hubOf_updHub_self, Hub.answered]
    · obtain rfl := Option.some.inj (hj.symm.trans hi)
      rw [State.leases_answered, State.hubOf_updHub_self, State.hubOf_updHub_self, Hub.leases_putLease]
      exact ⟨rfl, rfl⟩

/-- The answer of a banker that covers what is left stands as the borrower's entry (R60). -/
theorem execLeaseAnswer_borrows {g n dur start j : Nat} (hb : s.bankPaused = false) (ha : (s.hubOf s.arg.unit).answer = some (g, n, dur, start)) (hn : n ≠ 0)
    (hc : (s.hubOf s.arg.unit).coverLeft ≤ n) (hj : (s.hubOf s.arg.unit).freeLease = some j) :
    ∃ t, exec .leaseAnswer s = .next t ∧ (t.hubOf s.arg.unit).answer = none ∧ (t.hubOf s.arg.unit).asks = [] ∧
      (t.hubOf s.arg.unit).leases.get {} j = { valid := true, dir := 1, peer := g, count := n, dur := dur, start := start } := by
  have he : exec .leaseAnswer s = execLeaseAnswer s := rfl
  have hleft : (s.hubOf s.arg.unit).coverLeft - n = 0 := Nat.sub_eq_zero_of_le hc
  simp only [he, execLeaseAnswer, hb, ha, if_neg hn, hj, State.hubOf_updHub_self, hleft, decide_true, Bool.true_or, Bool.or_true, Bool.false_eq_true, if_false, if_true]
  exact ⟨_, rfl, by simp [Hub.putLease, hleft]⟩

/-- A lease that its lender renews goes on from the end of its time, in both entries (R60). -/
theorem execLeaseRenewal_renews {i : Nat} (hd : ((s.hubOf s.arg.unit).leases.get {} s.arg.other).renewalDue s.rtime = true) (hb : s.bankPaused = false)
    (hi : (s.hubOf ((s.hubOf s.arg.unit).leases.get {} s.arg.other).peer).leaseLike 0 s.arg.unit ((s.hubOf s.arg.unit).leases.get {} s.arg.other) = some i)
    (hm : s.mayLend ((s.hubOf s.arg.unit).leases.get {} s.arg.other).peer s.arg.unit = true) :
    let l := (s.hubOf s.arg.unit).leases.get {} s.arg.other
    ∃ t, exec .leaseRenewal s = .next t ∧ ((t.hubOf s.arg.unit).leases.get {} s.arg.other).valid = true ∧
      ((t.hubOf s.arg.unit).leases.get {} s.arg.other).count = l.count ∧ ((t.hubOf s.arg.unit).leases.get {} s.arg.other).start = l.start + 1000 * l.dur := by
  intro l
  have hv : l.valid = true := by
    simp only [Lease.renewalDue, Bool.and_eq_true] at hd
    exact hd.1.1.1.1
  have he : exec .leaseRenewal s = execLeaseRenewal s := rfl
  simp only [he, execLeaseRenewal, hd, hb, hi, hm, Bool.not_true, Bool.or_self, Bool.false_eq_true, if_false, if_true]
  refine ⟨_, rfl, ?_⟩
  rw [State.hubOf_updHub_self, Hub.leases_putLease]
  exact ⟨hv, rfl, rfl⟩

/-- Clearing an entry of a banker leaves an entry that is free. -/
theorem State.free_updHub (s : State) {f g i j : Nat} (h : ((s.hubOf g).leases.get {} i).valid = false) :
    (((s.updHub f (fun h => h.putLease j {})).hubOf g).leases.get {} i).valid = false := by
  rw [State.hubOf_updHub]
  split
  · subst g
    rw [Hub.putLease, KMap.get_put]
    split
    · rfl
    · exact h
  · exact h

/-- The entry of a lease that ends is free (R60). -/
theorem execLeaseEnd_frees (h : s.leaseEndDue ((s.hubOf s.arg.unit).leases.get {} s.arg.other) = true ∨
      s.aloneEndDue s.arg.unit ((s.hubOf s.arg.unit).leases.get {} s.arg.other) = true) :
    ∃ t, exec .leaseEnd s = .next t ∧ ((t.hubOf s.arg.unit).leases.get {} s.arg.other).valid = false := by
  have he : exec .leaseEnd s = execLeaseEnd s := rfl
  have hfree : (((s.updHub s.arg.unit (fun h => h.putLease s.arg.other {})).hubOf s.arg.unit).leases.get {} s.arg.other).valid = false := by
    rw [State.hubOf_updHub_self, Hub.leases_putLease]
  simp only [he, execLeaseEnd]
  split_ifs with ha hl
  · exact ⟨_, rfl, hfree⟩
  · simp [ha] at h
    simp [h] at hl
  · split
    · exact ⟨_, rfl, State.free_updHub _ hfree⟩
    · exact ⟨_, rfl, hfree⟩

end

theorem bankersGrantAndLease_holds : bankersGrantAndLease := by
  refine ⟨?_, ?_, ?_, ?_, ?_, ?_⟩
  · exact fun u r n ball s ⟨hg, hn⟩ => execBankerGrant_grants hg hn
  · exact fun u r n s ⟨hs, hrec, hp, hc, hb, ho, hf⟩ => execShortfallCover_asks hs hrec hp hc hb ho hf
  · exact fun g rest s ⟨hb, ha, hn⟩ => execLeaseRequest_answers hb ha hn
  · exact fun g n dur start j s ⟨hb, ha, hn, hc, hj⟩ => execLeaseAnswer_borrows hb ha hn hc hj
  · exact fun i s ⟨hd, hb, hi, hm⟩ => execLeaseRenewal_renews hd hb hi hm
  · exact fun s h => execLeaseEnd_frees h

end Sys2Proof.Machine
end

section
/-! SUPPORT. Notices that take effect, and the registers of shares, ramp and floor: R57 to R59, R62, R65, R69. -/

namespace Sys2Proof.Machine

section
variable {s : State}

theorem execRevocationEffect_lowers {n : Notice} {rest : List Notice} (hn : (s.tileOf s.arg.unit).notices = n :: rest) (hd : s.noticeDue s.arg.unit = true) :
    ∃ t, exec .revocationEffect s = .next t ∧ (t.tileOf s.arg.unit).h = min (s.tileOf s.arg.unit).h n.newh ∧ (t.tileOf s.arg.unit).notices = rest := by
  have he : exec .revocationEffect s = execRevocationEffect s := rfl
  simp only [he, execRevocationEffect, hn, hd, Bool.not_true, Bool.false_eq_true, if_false]
  refine ⟨_, rfl, ?_⟩
  rw [State.tileOf, State.tiles_noticePays, ← State.tileOf, State.tileOf_updTile_self]
  exact ⟨rfl, congrArg (List.drop 1) hn⟩

/-! ### Share registers (R57 to R59) -/

/-- A share that keeps the valid ones within the budget is taken (R58). -/
theorem State.pshareWrite_taken (s : State) {p v : Nat}
    (h : bitAt v 31 = false ∨ s.allocated - (if s.bank.pvalid.get false p then s.bank.pshare.get 0 p else 0) + v % 2 ^ 16 ≤ 20000) :
    (s.pshareWrite p v).bank.pshare.get 0 p = v % 2 ^ 16 ∧ (s.pshareWrite p v).bank.pvalid.get false p = bitAt v 31 := by
  have hb : bitsAt v 15 0 = v % 2 ^ 16 := bitsAt_zero v 15
  unfold State.pshareWrite
  simp only [hb]
  rw [if_neg (by simpa [or_iff_not_imp_left] using h)]
  exact ⟨KMap.get_put_self _ _ _ _, KMap.get_put_self _ _ _ _⟩

theorem State.pshareWrite_refused (s : State) {p v : Nat} (hv : bitAt v 31 = true)
    (h : 20000 < s.allocated - (if s.bank.pvalid.get false p then s.bank.pshare.get 0 p else 0) + v % 2 ^ 16) :
    (s.pshareWrite p v).bank.prefused.get false p = true ∧ (s.pshareWrite p v).bank.pshare = s.bank.pshare ∧ (s.pshareWrite p v).bank.pvalid = s.bank.pvalid := by
  have hb : bitsAt v 15 0 = v % 2 ^ 16 := bitsAt_zero v 15
  unfold State.pshareWrite
  simp only [hb]
  rw [if_pos (by simpa [hv] using h)]
  exact ⟨KMap.get_put_self _ _ _ _, rfl, rfl⟩

/-- BKSHARE is the new share, and the shares of the sharing group stay (R58, R59). -/
theorem State.bkshareWrite_share (s : State) (f v : Nat) :
    ((s.bkshareWrite f v).hubOf f).share = v % 2 ^ 16 ∧ ((s.bkshareWrite f v).hubOf f).gshares = (s.hubOf f).gshares := by
  have ht := fun n => (s.updHub f (fun h => { h with share := bitsAt v 15 0 })).toldTiles_revoke f n 2 4 none
  unfold State.bkshareWrite
  simp only
  rw [(ht _).hubPart Hub.share (fun _ => rfl), (ht _).hubPart Hub.gshares (fun _ => rfl), State.hubOf_updHub_self]
  exact ⟨bitsAt_zero v 15, rfl⟩

theorem State.bkgshareWrite_share (s : State) (f i v : Nat) : ((s.bkgshareWrite f i v).hubOf f).gshares.get 0 i = v % 2 ^ 16 ∧
    ((s.bkgshareWrite f i v).hubOf f).share = if (s.hubOf f).runIndex = some i then v % 2 ^ 16 else (s.hubOf f).share := by
  have hput : (((s.updHub f (fun h => { h with gshares := h.gshares.put i (bitsAt v 15 0) })).hubOf f).gshares).get 0 i = v % 2 ^ 16 := by
    rw [State.hubOf_updHub_self, KMap.get_put_self]
    exact bitsAt_zero v 15
  unfold State.bkgshareWrite
  simp only
  split
  · obtain ⟨hshare, hgshares⟩ := State.bkshareWrite_share (s.updHub f (fun h => { h with gshares := h.gshares.put i (bitsAt v 15 0) })) f v
    rw [hgshares]
    exact ⟨hput, hshare⟩
  · exact ⟨hput, by rw [State.hubOf_updHub_self]⟩

/-! ### The ramp and the floor (R69) -/

theorem State.rampwWrite_effects (s : State) (v : Nat) :
    (1 ≤ v % 2 ^ 16 → v % 2 ^ 16 ≤ 99 → (s.rampwWrite v).bank.rampBad = true ∧ (s.rampwWrite v).bank.ramp = s.bank.ramp) ∧
    (v % 2 ^ 16 = 0 ∨ 100 ≤ v % 2 ^ 16 → (s.rampwWrite v).bank.ramp = v % 2 ^ 16) := by
  have hb : bitsAt v 15 0 = v % 2 ^ 16 := bitsAt_zero v 15
  unfold State.rampwWrite
  simp only [hb]
  refine ⟨fun h1 h99 => ?_, fun h => ?_⟩
  · rw [if_pos ⟨h1, h99⟩]
    exact ⟨rfl, rfl⟩
  · rw [if_neg (by omega)]

theorem State.floorwWrite_effects (s : State) (v : Nat) :
    (24000 < v % 2 ^ 16 → (s.floorwWrite v).bank.floorBad = true ∧ (s.floorwWrite v).bank.floor = s.bank.floor) ∧
    (v % 2 ^ 16 ≤ 24000 → (s.floorwWrite v).bank.floor = v % 2 ^ 16) := by
  have hb : bitsAt v 15 0 = v % 2 ^ 16 := bitsAt_zero v 15
  unfold State.floorwWrite
  simp only [hb]
  refine ⟨fun h => ?_, fun h => ?_⟩
  · rw [if_pos h]
    exact ⟨rfl, rfl⟩
  · rw [if_neg (Nat.not_lt.2 h)]

end

theorem noticesAndShareRegisters_holds : noticesAndShareRegisters := by
  refine ⟨?_, ?_, ?_, ?_, ?_, ?_⟩
  · exact fun n rest s ⟨hn, hd⟩ => execRevocationEffect_lowers hn hd
  · intro s hb
    have he : exec .pshareWrite s = .next (s.pshareWrite s.arg.unit s.arg.value) := congrArg Host.Outcome.next (if_neg (by simp [hb]))
    exact ⟨_, he, s.pshareWrite_taken, s.pshareWrite_refused⟩
  · intro s hb
    have he : exec .bkshareWrite s = .next (s.bkshareWrite s.arg.unit s.arg.value) := congrArg Host.Outcome.next (if_neg (by simp [hb]))
    exact ⟨_, he, (s.bkshareWrite_share _ _).1⟩
  · intro s hb
    have he : exec .bkgshareWrite s = .next (s.bkgshareWrite s.arg.unit s.arg.other s.arg.value) := congrArg Host.Outcome.next (if_neg (by simp [hb]))
    exact ⟨_, he, s.bkgshareWrite_share _ _ _⟩
  · exact fun s _ => ⟨_, rfl, s.rampwWrite_effects s.arg.value⟩
  · exact fun s _ => ⟨_, rfl, s.floorwWrite_effects s.arg.value⟩

end Sys2Proof.Machine
end

section
/-! SUPPORT. The migrations of a shuffle step (R73), and a state in which two logical tiles have one number. -/

namespace Sys2Proof.Machine

/-! ### Migrations that begin together (R73, R175) -/

/-- A migration joins the list's end, at step 1 where it can begin. -/
theorem State.migrations_beginMigration (s : State) (g : Migration) :
    (s.beginMigration g).migrations = s.migrations ++ [{ g with step := if s.canBegin s.migrations.length g then 1 else 0 }] := by
  unfold State.beginMigration
  split <;> rfl

/-- No migration has begun behind one of the same logical tile. -/
def OneBegun (l : List Migration) : Prop := l.Pairwise (fun a b => a.key = b.key → b.step = 0)

theorem State.oneBegun_beginMigration {s : State} (g : Migration) (h : OneBegun s.migrations) : OneBegun (s.beginMigration g).migrations := by
  rw [State.migrations_beginMigration]
  refine List.pairwise_append.2 ⟨h, List.pairwise_singleton _ _, fun a ha b hb hkey => ?_⟩
  obtain rfl := List.mem_singleton.1 hb
  refine if_neg (fun hc => ?_)
  have hall : s.migrations.all (fun o => o.key ≠ g.key) = true := by
    simp only [State.canBegin, List.take_length, Bool.and_eq_true] at hc
    exact hc.2
  exact of_decide_eq_true (List.all_eq_true.1 hall a ha) hkey

theorem State.oneBegun_foldl (l : List Migration) {s : State} (h : OneBegun s.migrations) : OneBegun (l.foldl State.beginMigration s).migrations :=
  List.foldlRecOn (motive := fun t : State => OneBegun t.migrations) l _ h (fun _ ht g _ => State.oneBegun_beginMigration g ht)

/-- The bank after a step of partition p that was not skipped. -/
def Bank.shuffled (b : Bank) (p rtime : Nat) : Bank := { b with shufLast := b.shufLast.put p rtime, shufStep := b.shufStep.put p (b.shufStep.get 0 p + 1) }

/-- A step that finds no migration of its partition's shuffle begins those of its own. -/
theorem execShuffleStep_of_free {s : State} (hd : s.shuffleDue s.arg.unit = true)
    (hf : s.migrations.any (fun g => g.shuffle && g.tag = (s.partOf s.arg.unit).tag) = false) :
    exec .shuffleStep s = .next (((List.range 4).flatMap (s.shuffleKind s.arg.unit (s.bank.shufStep.get 0 s.arg.unit + 1))).foldl State.beginMigration
      { s with bank := s.bank.shuffled s.arg.unit s.rtime }) := by
  have he : exec .shuffleStep s = execShuffleStep s := rfl
  simp only [he, execShuffleStep, hd, hf, Bool.not_true, Bool.false_eq_true, if_false]
  rfl

/-- No step begins a migration behind one of the same logical tile (R73, R175). -/
theorem execShuffleStep_oneBegun {s t : State} (hd : s.shuffleDue s.arg.unit = true)
    (hf : s.migrations.any (fun g => g.shuffle && g.tag = (s.partOf s.arg.unit).tag) = false) (h : exec .shuffleStep s = .next t)
    (hone : OneBegun s.migrations) : OneBegun t.migrations := by
  rw [Host.Outcome.next.inj (h.symm.trans (execShuffleStep_of_free hd hf))]
  exact State.oneBegun_foldl _ hone

/-- A logical tile in service under its partition's tag moves in a step that gives it another place. -/
theorem State.mem_shuffleKind {s : State} {p k kind i : Nat} (hi : i < (s.partTiles (s.partOf p).fields kind).length)
    (hv : cttValid (s.cttEntry (s.partOf p).tag kind i) = true) (ho : cttOwner (s.cttEntry (s.partOf p).tag kind i) = (s.partOf p).tag)
    (hne : ∀ u ∈ s.partTiles (s.partOf p).fields kind, cttTile (s.cttEntry (s.partOf p).tag kind i) ≠ u) :
    ∃ u ∈ s.partTiles (s.partOf p).fields kind,
      ({ lkind := kind, lidx := i, tag := (s.partOf p).tag, oldTile := cttTile (s.cttEntry (s.partOf p).tag kind i), newTile := u, shuffle := true } : Migration) ∈
        s.shuffleKind p k kind := by
  let l := s.partTiles (s.partOf p).fields kind
  let j := (i + k * max 1 (s.bank.shufStride.get 1 p)) % l.length
  have hj : j < l.length := Nat.mod_lt _ (Nat.zero_lt_of_lt hi)
  have hmem : l.getD j 0 ∈ l := by
    rw [List.getD_eq_getElem _ _ hj]
    exact List.getElem_mem hj
  refine ⟨l.getD j 0, hmem, List.mem_filterMap.2 ⟨i, List.mem_range.2 hi, ?_⟩⟩
  refine if_pos ?_
  rw [hv, ho, decide_eq_true (hne _ hmem), decide_eq_true rfl]
  rfl

/-! ### A partition of more tiles than a kind has numbers

The number of a logical tile has 14 bits for its index in its kind. A partition that names one field 274 times has 16,440 places for D tiles, so that D tile
16,384 has the number of S tile 0. No partition of the device is so: it has 90 fields. -/

/-- The entry of a logical tile of tag 5 at the first tile of field 1. -/
def crowdedEntry : Word := BitVec.ofNat 64 (2 ^ 63 + 5 * 2 ^ 54 + 12 * 2 ^ 24)

/-- Partition 0 has 274 times field 0; its D tile 16,384 and its S tile 0 are at the first tile of field 1, and a step of its shuffle is due. -/
def crowded : State :=
  { State.reset with
    rtime := 1000000,
    hubs := [(0, { unlisted := 0, runTag := 5, ctt := [(59, crowdedEntry), (4096, crowdedEntry)] }), (1, { runTag := 5 })],
    bank := { shufEn := [(0, true)], shufPeriod := [(0, 1000)] },
    parts := [(0, { valid := true, state := 1, tag := 5, fields := List.replicate 274 0 })] }

theorem crowded_step : crowded.arg.unit = 0 ∧ crowded.shuffleDue 0 = true ∧ crowded.migrations = [] ∧ (crowded.partOf 0).tag = 5 := by decide +kernel

theorem crowded_entries : crowded.cttEntry 5 0 16384 = crowdedEntry ∧ crowded.cttEntry 5 1 0 = crowdedEntry := by decide +kernel

theorem crowdedEntry_facts : cttValid crowdedEntry = true ∧ cttOwner crowdedEntry = 5 ∧ fieldOfTile (cttTile crowdedEntry) = 1 := by decide +kernel

/-- The tiles of field 0 of a kind, which are in service. -/
def crowdedTiles (kind : Nat) : List Nat := (fieldTiles 0).filter (fun t => tileKind t = kind && crowded.tileServes t)

theorem crowdedTiles_length : (crowdedTiles 0).length = 60 ∧ (crowdedTiles 1).length = 20 := by decide +kernel

theorem fieldOfTile_of_field0 : ∀ u ∈ fieldTiles 0, fieldOfTile u = 0 := by decide +kernel

theorem crowded_partTiles (kind : Nat) : crowded.partTiles (crowded.partOf 0).fields kind = (List.replicate 274 0).flatMap (fun _ => crowdedTiles kind) := by
  have hf : (crowded.partOf 0).fields = List.replicate 274 0 := rfl
  rw [State.partTiles, hf, List.filter_flatMap]
  refine List.flatMap_congr fun x hx => ?_
  rw [List.eq_of_mem_replicate hx, crowdedTiles]

theorem length_flatMap_replicate {α : Type} (n a : Nat) (l : List α) : ((List.replicate n a).flatMap (fun _ => l)).length = n * l.length := by
  rw [List.length_flatMap, List.map_replicate, List.sum_replicate, smul_eq_mul]

theorem crowded_partTiles_length (kind : Nat) : (crowded.partTiles (crowded.partOf 0).fields kind).length = 274 * (crowdedTiles kind).length := by
  rw [crowded_partTiles, length_flatMap_replicate]

/-- Every place of the partition is in field 0. -/
theorem crowded_partTiles_field {kind u : Nat} (hu : u ∈ crowded.partTiles (crowded.partOf 0).fields kind) : fieldOfTile u = 0 := by
  rw [crowded_partTiles] at hu
  obtain ⟨-, -, hmem⟩ := List.mem_flatMap.1 hu
  exact fieldOfTile_of_field0 u (List.mem_filter.1 hmem).1

/-- A logical tile whose entry is that of field 1 moves, and could begin if it were alone. -/
theorem crowded_moves {kind i : Nat} (k : Nat) (hi : i < 274 * (crowdedTiles kind).length) (he : crowded.cttEntry 5 kind i = crowdedEntry) :
    ∃ g ∈ crowded.shuffleKind 0 k kind, g.key = 5 * 2 ^ 16 + kind * 2 ^ 14 + i ∧ crowded.canBegin crowded.migrations.length g = true := by
  obtain ⟨-, -, hnone, htag⟩ := crowded_step
  obtain ⟨hv, ho, hf⟩ := crowdedEntry_facts
  rw [← htag] at he ho
  rw [← crowded_partTiles_length] at hi
  rw [← he] at hv ho hf
  obtain ⟨u, hu, hg⟩ := State.mem_shuffleKind (k := k) hi hv ho (fun u hu h => by
    rw [h, crowded_partTiles_field hu] at hf
    exact absurd hf (by decide))
  refine ⟨_, hg, ?_, ?_⟩
  · rw [Migration.key, htag]
  · have h0 : crowded.runsIn 0 5 = true ∧ crowded.runsIn 1 5 = true := by decide +kernel
    simp only [State.canBegin, hnone, hf, crowded_partTiles_field hu, List.length_nil, List.take_zero, List.all_nil]
    rw [htag, h0.1, h0.2]
    rfl

/-- Were the list of migrations what the statement says, D tile 16,384 and S tile 0 would both have begun. -/
theorem crowded_bothBegin (k : Nat) : ¬OneBegun (crowded.migrations ++
    ((List.range 4).flatMap (crowded.shuffleKind 0 k)).map (fun g => { g with step := if crowded.canBegin crowded.migrations.length g then 1 else 0 })) := by
  intro hone
  obtain ⟨-, -, hnone, -⟩ := crowded_step
  obtain ⟨hD, hS⟩ := crowdedTiles_length
  obtain ⟨heD, heS⟩ := crowded_entries
  obtain ⟨a, ha, hka, -⟩ := crowded_moves k (by rw [hD]; decide) heD
  obtain ⟨b, hb, hkb, hcb⟩ := crowded_moves k (by rw [hS]; decide) heS
  have hrange : List.range 4 = 0 :: [1, 2, 3] := rfl
  rw [OneBegun, hrange, List.flatMap_cons, List.map_append, hnone, List.nil_append, List.pairwise_append] at hone
  obtain ⟨-, -, hcross⟩ := hone
  have hstep := hcross _ (List.mem_map_of_mem ha) _ (List.mem_map_of_mem (List.mem_flatMap.2 ⟨1, by decide, hb⟩)) (hka.trans hkb.symm)
  rw [hnone] at hcb
  rw [if_pos hcb] at hstep
  exact absurd hstep Nat.one_ne_zero

/-- Refutes O59: in a shuffle step of `crowded`, D tile 16,384 and S tile 0 have one number, so that the second waits behind the first; the statement has both
begin. -/
theorem not_bankersLeasesAndGating : ¬Obligations.BankersLeasesAndGating := by
  unfold Obligations.BankersLeasesAndGating tilesGateWakeAndShuffle
  rintro ⟨-, -, -, -, -, -, -, -, -, hshuffle⟩
  obtain ⟨hunit, hdue, hnone, -⟩ := crowded_step
  have hdue' : crowded.shuffleDue crowded.arg.unit = true := by rw [hunit, hdue]
  have hfree : crowded.migrations.any (fun g => g.shuffle && g.tag = (crowded.partOf crowded.arg.unit).tag) = false := by rw [hnone]; rfl
  obtain ⟨t, he, -, -, hmigrations⟩ := hshuffle crowded hdue'
  have hone : OneBegun t.migrations := execShuffleStep_oneBegun hdue' hfree he (by rw [hnone]; exact List.Pairwise.nil)
  rw [(hmigrations hfree).2, hunit] at hone
  exact crowded_bothBegin _ hone

end Sys2Proof.Machine
end

section
/-! SUPPORT. The end of QLIM (R97) where no visible context runs, and a state in which a running context stands behind a frozen one of its slot. -/

namespace Sys2Proof.Machine

/-! ### Contexts that do not run at the end of QLIM (R97) -/

/-- Only a running firing is pre-empted (R248). -/
theorem State.preemptCtx_of_stopped {s : State} {i : Nat} (reason : Nat) (h : (s.ctxOf i).st ≠ 0) : s.preemptCtx i reason = s := if_pos h

/-- Slots that show no running firing are as before once their contexts have been asked to leave. -/
theorem State.foldl_switchOut_of_stopped {s : State} {l : List Nat} (h : ∀ i ∈ l, (s.ctxOf i).st ≠ 0) : l.foldl State.switchOut s = s := by
  refine List.foldlRecOn (motive := fun t => t = s) l _ rfl (fun t ht i hi => ?_)
  subst ht
  exact State.preemptCtx_of_stopped 2 (h i hi)

/-- The end of QLIM changes no context where no slot on its list shows a running firing. -/
theorem execQlimExpiry_of_stopped {s t : State} (hd : s.qlimDue s.arg.unit = true) (hs : ∀ i ∈ s.runningIn s.arg.unit, (s.ctxOf i).st ≠ 0)
    (h : exec .qlimExpiry s = .next t) : t.ctxs = s.ctxs := by
  have he : exec .qlimExpiry s = execQlimExpiry s := rfl
  have hfold := fun (p : Nat → Bool) => State.foldl_switchOut_of_stopped (l := (s.runningIn s.arg.unit).filter p) (fun i hi => hs i (List.mem_filter.1 hi).1)
  simp only [he, execQlimExpiry, hd, Bool.not_true, Bool.false_eq_true, if_false, hfold] at h
  rw [← Host.Outcome.next.inj h]
  split
  · rfl
  · exact (State.told_reportField _ _ _ _).part State.ctxs (fun _ => rfl)

/-! ### A slot that is listed twice

The statement speaks of every list of contexts. One may name a slot twice: `ctxOf` shows the first entry, and `runningIn` collects the slot for the second. The
updates of the model name a key once, so that no state of the device is so. -/

/-- Field 0 in a quiesce whose QLIM has passed; slot 8 is listed with a frozen firing, and again with a running one. -/
def shadowedRunner : State :=
  { State.reset with
    rtime := 100000
    ctxs := [(8, { occ := true, st := 1 }), (8, { occ := true, st := 0 })]
    hubs := [(0, { sw := { step := 1 } })] }

theorem shadowedRunner_occasion :
    shadowedRunner.qlimDue shadowedRunner.arg.unit = true ∧ shadowedRunner.runningIn shadowedRunner.arg.unit = [8] ∧ shadowedRunner.migrations = [] := by decide +kernel

/-- The slot shows a frozen firing that is in no section and holds for no reply, and that has no partner. -/
theorem shadowedRunner_frozen :
    (shadowedRunner.ctxOf 8).st = 1 ∧ shadowedRunner.withPartner 8 = [8] ∧ (shadowedRunner.ctxOf 8).np = false ∧ shadowedRunner.mustHold (shadowedRunner.ctxOf 8) = false := by
  decide +kernel

/-- Refutes O60: in `shadowedRunner` slot 8 is all that runs in the field at the end of QLIM, and waits for nothing, yet it shows a frozen firing, which stays
as it is; the statement has it pre-empted. -/
theorem not_commandsSwitchesAndMigrations : ¬Obligations.CommandsSwitchesAndMigrations := by
  unfold Obligations.CommandsSwitchesAndMigrations flipsAndSwitchesEnd
  rintro ⟨-, -, ⟨-, -, -, -, hqlim, -⟩, -⟩
  obtain ⟨hdue, hrunning, hnone⟩ := shadowedRunner_occasion
  obtain ⟨hfrozen, halone, hnp, hhold⟩ := shadowedRunner_frozen
  obtain ⟨t, he, -, hpreempted⟩ := hqlim 8 shadowedRunner ⟨hdue, hrunning, by simp [hnone]⟩
  have hstops : t.ctxOf 8 = shadowedRunner.ctxOf 8 := by
    rw [State.ctxOf, execQlimExpiry_of_stopped hdue (by simp [hrunning, hfrozen]) he, State.ctxOf]
  obtain ⟨-, hst, -⟩ := hpreempted (by simp [halone, hnp, hhold])
  rw [hstops, hfrozen] at hst
  exact absurd hst (by decide)

end Sys2Proof.Machine
end

section
/-! SUPPORT. Registers that software writes by address: the registers of a hub and of a core, the counters, the capacity stripes and the operation slots
(R100, R101, R103, R106, R109, R143, R149, R183, R244, R399). -/

namespace Sys2Proof.Machine

/-! ### Registers of control space (R106, R109) -/

/-- A store of all eight bytes gives a register its value, whatever it held. -/
theorem mergeReg_whole (old v : Nat) : mergeReg old 0 v 0 8 % 2 ^ 64 = v % 2 ^ 64 := by
  have hm : mergeReg old 0 v 0 8 = old - old % 2 ^ 64 + v % 2 ^ 64 := by simp [mergeReg]
  rw [hm]
  omega

theorem bitsAt_congr {a b hi lo : Nat} (h : a % 2 ^ 64 = b % 2 ^ 64) (hhi : hi < 64) : bitsAt a hi lo = bitsAt b hi lo := by
  have hcut : ∀ n, bitsAt n hi lo = n % 2 ^ 64 / 2 ^ lo % 2 ^ (hi + 1 - lo) := fun n => by
    refine Nat.eq_of_testBit_eq fun i => ?_
    simp only [bitsAt, Nat.testBit_mod_two_pow, Nat.testBit_div_two_pow]
    by_cases hi' : i < hi + 1 - lo
    · simp [show i + lo < 64 by omega]
    · simp [hi']
  rw [hcut a, hcut b, h]

theorem bitAt_congr {a b i : Nat} (h : a % 2 ^ 64 = b % 2 ^ 64) (hi : i < 64) : bitAt a i = bitAt b i := by
  have hcut : ∀ n, bitAt n i = (n % 2 ^ 64).testBit i := fun n => by
    rw [bitAt_eq_testBit, Nat.testBit_mod_two_pow]
    simp [hi]
  rw [hcut a, hcut b, h]

/-- A store of eight bytes to PWRCTL or ROOKCTL gives the whole doubleword. -/
theorem State.hubStore_register (s : State) {o : Nat} (ho : o = 0x20 ∨ o = 0x18) (f v tag level : Nat) :
    s.hubStore f o 8 v tag level = s.hubWrite f o (mergeReg (s.hubDword f o) 0 v 0 8) tag := by
  obtain rfl | rfl := ho <;> simp [State.hubStore, atlasPlace, hubActs]

/-- PWRCTL takes the idle time (R70), and ROOKCTL the enable and the period of the rook (R45). -/
theorem State.hubStore_effects (s : State) {o : Nat} (ho : o = 0x20 ∨ o = 0x18) (f v tag level : Nat) :
    let t := s.hubStore f o 8 v tag level
    (o = 0x20 → (t.hubOf f).idle = v % 2 ^ 16) ∧
    (o = 0x18 → (t.hubOf f).rookEn = bitAt v 31 ∧ (t.hubOf f).rookPeriod = v % 2 ^ 16) ∧ t.mem = s.mem := by
  have hm := mergeReg_whole (s.hubDword f o) v
  have hlow := bitsAt_congr (lo := 0) hm (show 15 < 64 by decide)
  have hen := bitAt_congr hm (show 31 < 64 by decide)
  rw [bitsAt_zero v] at hlow
  simp only [State.hubStore_register s ho]
  obtain rfl | rfl := ho <;> simp [State.hubWrite, hlow, hen]

/-- A store that the checks at its source let pass reaches the hub (R106, R109). -/
theorem execRegisterWrite_of_hub {s : State} (hspace : gpaSpace s.arg.addr = 3) (hlocal : s.gpaLocal s.arg.addr = true)
    (hp : s.bankPaused = false ∨ shareRegister s.arg.addr = false)
    (hr : s.gpaRefuses s.arg.addr s.arg.other .write false 0 s.arg.tag s.arg.level = none) :
    exec .registerWrite s = .next (s.hubStore (gpaHub s.arg.addr) (gpaHubOff s.arg.addr) s.arg.other s.arg.value s.arg.tag s.arg.level) := by
  have he : exec .registerWrite s = execRegisterWrite s := rfl
  have hpause : (s.bankPaused && shareRegister s.arg.addr) = false := Bool.and_eq_false_iff.2 hp
  simp [he, execRegisterWrite, State.writeHome, hspace, hlocal, hpause, hr]

/-! ### Counters (R100, R101, R103) -/

/-- A change of a counter reaches the counter that it names, in each kind of source. -/
theorem State.countersOf_updCounter (s : State) (kind unit n : Nat) (g : Counter → Counter) :
    ((s.updCounter kind unit n g).countersOf kind unit).get {} n = g ((s.countersOf kind unit).get {} n) := by
  match kind with
  | 0 => simp [State.updCounter, State.countersOf]
  | 1 => simp [State.updCounter, State.countersOf]
  | _ + 2 => simp [State.updCounter, State.countersOf]

theorem State.told_wrapMessage (s : State) (kind unit n : Nat) (c : Counter) : Told s (s.wrapMessage kind unit n c) := by
  unfold State.wrapMessage
  simp only
  split
  · exact s.told_toFirmware _
  · split
    · exact s.told_postHw _ _
    · exact (s.told_toFirmware _).trans (State.told_report _ _ _ _ _ _)

theorem Told.countersOf {s t : State} (h : Told s t) (kind unit : Nat) : t.countersOf kind unit = s.countersOf kind unit := by
  match kind with
  | 0 => exact h.part (fun u => (u.coreOf unit).counters) (fun _ => rfl)
  | 1 => exact h.part (fun u => (u.tileOf unit).sliceCounters) (fun _ => rfl)
  | _ + 2 => exact h.hubPart Hub.counters (fun _ => rfl) unit

/-- A counter that wraps keeps what it counted past 2^48, with OVF set; its message changes no counter. -/
theorem State.countersOf_wrapCounter (s : State) (kind unit n : Nat) :
    ((State.wrapCounter kind unit s n).countersOf kind unit).get {} n =
      { (s.countersOf kind unit).get {} n with value := ((s.countersOf kind unit).get {} n).value - 2 ^ 48, ovf := true, wrapAt := none } := by
  unfold State.wrapCounter
  simp only
  split
  · rw [(State.told_wrapMessage _ _ _ _ _).countersOf, State.countersOf_updCounter]
  · rw [State.countersOf_updCounter]

theorem execCounterOverflow_of_past {s : State} (h : 2 ^ 48 ≤ ((s.countersOf s.arg.level s.arg.unit).get {} s.arg.other).value) :
    exec .counterOverflow s = .next (State.wrapCounter s.arg.level s.arg.unit s s.arg.other) := if_neg (Nat.not_lt.2 h)

/-- What CNTCFG gives a counter (R100, R101). -/
theorem Counter.setCfg_effects (kind tag v : Nat) (c : Counter) :
    let c' := c.setCfg kind tag v
    c'.en = bitAt v 63 ∧ c'.ovf = (c.ovf && !bitAt v 62) ∧ c'.omsg = bitAt v 61 ∧ c'.value = c.value ∧ (kind = 0 → c'.ctxm = v / 2 ^ 16 % 2 ^ 8) ∧
      c'.event = if eventOk kind (v % 256) then v % 256 else 0 := by
  have hev : bitsAt v 7 0 = v % 256 := bitsAt_zero v 7
  exact ⟨rfl, rfl, rfl, rfl, fun h => if_pos h, by simp only [Counter.setCfg, hev]⟩

/-! ### The registers of a core that place areas in its local store (R143, R149, R183) -/

/-- DQCFG is taken while nothing is spilled and the ring lies in the local store. -/
theorem State.dqcfgWrite_effects (s : State) (k v : Nat) :
    let t := (s.dqcfgWrite k v).getD s
    let cap := v / 2 ^ 22 % 2 ^ 12
    let base := v % 2 ^ 22 / 32 * 32
    ((s.coreOf k).spill = [] → base + 32 * cap ≤ 0x300000 → (t.coreOf k).spillCap = cap ∧ (t.coreOf k).spillBase = base) ∧
      ((s.coreOf k).spill ≠ [] ∨ 0x300000 < base + 32 * cap → t = s) := by
  have hbase : bitsAt v 21 0 = v % 2 ^ 22 := bitsAt_zero v 21
  have hcap : bitsAt v 33 22 = v / 2 ^ 22 % 2 ^ 12 := rfl
  simp only [State.dqcfgWrite, hbase, hcap]
  refine ⟨fun hs hfit => ?_, fun hbad => ?_⟩
  · rw [if_neg (by rw [hs]; exact not_or.2 ⟨by simp, Nat.not_lt.2 hfit⟩)]
    simp
  · rw [if_pos (by simpa using hbad)]
    rfl

/-- ACTCFG is taken while no actor is valid and the table lies in the local store. -/
theorem State.actcfgWrite_effects (s : State) (k v : Nat) :
    let t := (s.actcfgWrite k v).getD s
    let base := v % 2 ^ 22
    ((∀ a ∈ (s.coreOf k).actors, a.2.valid = false) → base % 0x1000 = 0 → base + 0x1000 ≤ 0x300000 → (t.coreOf k).actBase = base) ∧
      ((∃ a ∈ (s.coreOf k).actors, a.2.valid = true) ∨ base % 0x1000 ≠ 0 ∨ 0x300000 < base + 0x1000 → t = s) := by
  have hbase : bitsAt v 21 0 = v % 2 ^ 22 := bitsAt_zero v 21
  simp only [State.actcfgWrite, hbase, List.any_eq_true]
  refine ⟨fun hfree hal hfit => ?_, fun hbad => ?_⟩
  · have hnone : ¬∃ a ∈ (s.coreOf k).actors, a.2.valid = true := fun ⟨a, ha, hv⟩ => by simp [hfree a ha] at hv
    rw [if_neg (not_or.2 ⟨hnone, not_or.2 ⟨not_not_intro hal, Nat.not_lt.2 hfit⟩⟩)]
    simp
  · rw [if_pos hbad]
    rfl

/-- PARKCFG is taken while nothing is parked and the park area lies in the local store. -/
theorem State.parkcfgWrite_effects (s : State) (k v : Nat) :
    let t := (s.parkcfgWrite k v).getD s
    let cap := v / 2 ^ 22 % 2 ^ 7
    let base := v % 2 ^ 22 / 1024 * 1024
    ((s.coreOf k).parked = [] → base + 1024 * min 64 cap ≤ 0x300000 → (t.coreOf k).parkCap = cap ∧ (t.coreOf k).parkBase = base) ∧
      ((s.coreOf k).parked ≠ [] ∨ 0x300000 < base + 1024 * min 64 cap → t = s) := by
  have hbase : bitsAt v 21 0 = v % 2 ^ 22 := bitsAt_zero v 21
  have hcap : bitsAt v 28 22 = v / 2 ^ 22 % 2 ^ 7 := rfl
  simp only [State.parkcfgWrite, hbase, hcap]
  refine ⟨fun hs hfit => ?_, fun hbad => ?_⟩
  · rw [if_neg (by rw [hs]; exact not_or.2 ⟨by simp, Nat.not_lt.2 hfit⟩)]
    simp
  · refine (congrArg (Option.getD · s) (if_pos (hbad.imp_left fun h => ?_)) :)
    simpa using h

/-! ### Capacity stripes (R399) -/

/-- The stripe that a CAPSTRIPE word describes, over the register's value before. -/
def stripeOfWord (old : Stripe) (v : Nat) : Stripe :=
  { valid := bitAt v 63, refused := old.refused && !bitAt v 62, log2u := v / 2 ^ 24 % 2 ^ 5, len := v / 2 ^ 10 % 2 ^ 10, base := v % 2 ^ 10 }

/-- A stripe breaks a bound of its own fields. -/
def Stripe.outOfBounds (e : Stripe) : Prop := e.log2u < 8 ∨ 30 < e.log2u ∨ e.len = 0 ∨ 953 < e.base + e.len

/-- A stripe meets one that another register holds. -/
def State.stripeMeets (s : State) (i : Nat) (e : Stripe) : Prop :=
  ∃ x ∈ s.stripes, (x.1 ≠ i ∧ x.2.valid = true) ∧ overlaps x.2.base x.2.len e.base e.len = true

/-- Moving the bytes leaves the registers of the stripes. -/
theorem State.stripes_restripe_unless (s t : State) (p : Prop) [Decidable p] : (if p then t else s.restripe t).stripes = t.stripes := by
  split <;> rfl

/-- A register that holds no stripe takes a legal one, and else shows that it refused. -/
theorem State.capstripeWrite_cases (s : State) {i v : Nat} (hv : bitAt v 63 = true) (hold : (s.stripes.get {} i).valid = false) :
    let old := s.stripes.get {} i
    let new := stripeOfWord old v
    let e := (s.capstripeWrite i v).stripes.get {} i
    (¬new.outOfBounds → ¬s.stripeMeets i new → e = new) ∧ (new.outOfBounds → e = { old with refused := true }) := by
  have hlog : bitsAt v 28 24 = v / 2 ^ 24 % 2 ^ 5 := rfl
  have hlen : bitsAt v 19 10 = v / 2 ^ 10 % 2 ^ 10 := rfl
  have hbase : bitsAt v 9 0 = v % 2 ^ 10 := bitsAt_zero v 9
  simp only [State.capstripeWrite, hlog, hlen, hbase, hv, hold, Bool.true_and, Bool.false_and, Bool.or_false, State.stripes_restripe_unless, KMap.get_put_self]
  refine ⟨fun hin hfree => ?_, fun hout => ?_⟩
  · rw [if_neg (fun hbad => ?_), stripeOfWord, hv]
    simp only [Bool.or_eq_true, decide_eq_true_eq, List.any_map, List.any_filter, List.any_eq_true, or_assoc] at hbad
    obtain hb | hb | hb | hb | ⟨x, hx, hm⟩ := hbad
    · exact hin (.inl hb)
    · exact hin (.inr (.inl hb))
    · exact hin (.inr (.inr (.inl hb)))
    · exact hin (.inr (.inr (.inr hb)))
    · exact hfree ⟨x, hx, by simpa [stripeOfWord] using hm⟩
  · refine if_pos ?_
    simp only [Bool.or_eq_true, decide_eq_true_eq, or_assoc]
    exact hout.imp_right (Or.imp_right (Or.imp_right .inl))

/-! ### Operation slots (R244) -/

theorem State.opAt_updOp (s : State) (t j : Nat) (g : Op → Op) : (s.updOp t j g).opAt t j = g (s.opAt t j) := by simp [State.updOp, State.opAt]

/-- OPCMD resumes or fails an operation that is suspended; a field that quiesces keeps a resumed one for later (R97). -/
theorem State.opAt_opcmd_suspended (s : State) {t j : Nat} (h : (s.opAt t j).state = 2) :
    (s.opcmd t j 1).opAt t j = (if (s.hubOf (fieldOfTile t)).sw.step = 1 then { s.opAt t j with state := 4, saved := 1, cause := 0, addr := 0 }
        else { s.opAt t j with state := 1, saved := 0, cause := 0, addr := 0 }) ∧
      (s.opcmd t j 2).opAt t j = { s.opAt t j with state := 3, stop := (s.opAt t j).cause, cause := 0 } := by
  simp only [State.opcmd, if_neg (not_not_intro h), State.opAt_updOp, State.opGoing]
  refine ⟨?_, trivial⟩
  split <;> rfl

/-- Any other state draws an error. -/
theorem State.opAt_opcmd_error (s : State) {t j : Nat} (v : Nat) (h : (s.opAt t j).state ≠ 2) :
    (s.opcmd t j v).opAt t j = { s.opAt t j with cmderr := true } := by
  simp only [State.opcmd, if_pos h, State.opAt_updOp]

theorem execOpcmdBad_of_bad {s : State} (h : (s.opAt s.arg.unit s.arg.other).state ≠ 2 ∨ s.arg.value % 4 = 0 ∨ s.arg.value % 4 = 3) :
    exec .opcmdBad s = .next (s.updOp s.arg.unit s.arg.other (fun o => { o with cmderr := true })) := if_pos h

end Sys2Proof.Machine
end

section
/-! SUPPORT. The debug page: attachment, the commands that stop a running firing and make a frozen one go on, and KILL (R241 to R243). -/

namespace Sys2Proof.Machine

/-! ### What hubs, tiles and messages hold -/

/-- Between two states only hubs, tiles and what has been sent have changed. -/
abbrev BeyondCores : State → State → Prop := SameBut (fun s => { s.mute with tiles := [] }) (fun _ => ({} : Hub))

theorem Told.beyondCores {s t : State} (h : Told s t) : BeyondCores s t := ⟨congrArg (fun u : State => { u with tiles := [] }) h.rest, fun _ => rfl⟩

theorem BeyondCores.ctxOf {s t : State} (h : BeyondCores s t) (i : Nat) : t.ctxOf i = s.ctxOf i := h.part (fun u => u.ctxOf i) (fun _ => rfl)

theorem BeyondCores.dbgOf {s t : State} (h : BeyondCores s t) (i : Nat) : t.dbgOf i = s.dbgOf i := h.part (fun u => u.dbgOf i) (fun _ => rfl)

section
variable (s : State)

theorem State.beyondCores_leaveSemQueues (i : Nat) : BeyondCores s (s.leaveSemQueues i) := by
  unfold State.leaveSemQueues State.leaveBarriers
  simp only
  split <;> exact ⟨rfl, fun _ => rfl⟩

theorem State.beyondCores_updLaunch (id : Nat) (g : Launch → Launch) : BeyondCores s (s.updLaunch id g) := by
  unfold State.updLaunch
  split <;> exact ⟨rfl, fun _ => rfl⟩

theorem State.beyondCores_releaseFoot (tile id : Nat) : BeyondCores s (s.releaseFoot tile id) := by
  unfold State.releaseFoot
  simp only
  split <;> exact ⟨rfl, fun _ => rfl⟩

theorem State.beyondCores_freeLaunch (id : Nat) : BeyondCores s (s.freeLaunch id) := ⟨rfl, fun _ => rfl⟩

theorem State.beyondCores_tellParent (e : Launch) (cls : Nat) (words : List Word) : BeyondCores s (s.tellParent e cls words) := by
  have hreport := fun m => Told.beyondCores ((s.told_toFirmware m).trans (State.told_report _ (launchField e.id) .noSupervisor e.tag [] [e.tag]))
  unfold State.tellParent
  simp only
  split
  · exact SameBut.refl s
  · split
    · exact (s.told_postHw _ _).beyondCores
    · split
      · exact (s.told_postHw _ _).beyondCores
      · split
        · exact (hreport _).trans (State.beyondCores_freeLaunch _ _)
        · exact hreport _

theorem State.beyondCores_endItem (id wid : Nat) (fail : Option Nat) : BeyondCores s (s.endItem id wid fail) := by
  unfold State.endItem
  split
  · exact SameBut.refl s
  · simp only
    split
    · exact s.beyondCores_updLaunch _ _
    · exact (s.beyondCores_updLaunch _ _).trans (State.beyondCores_tellParent _ _ _ _)

theorem State.beyondCores_endHalf (id item wid : Nat) (fail : Option Nat) : BeyondCores s (s.endHalf id item wid fail) := by
  unfold State.endHalf
  split
  · exact SameBut.refl s
  · simp only
    split
    · exact s.beyondCores_updLaunch _ _
    · exact (s.beyondCores_updLaunch _ _).trans (State.beyondCores_endItem _ _ _ _)

end

/-! ### The end of a firing (R146, R241, R309) -/

/-- A page whose attachment was by a firing is free once that firing has ended (R241). -/
def Dbg.detached (n : Nat) (d : Dbg) : Dbg := if d.att.any (fun a => a.2 = n) then { d with att := none, halt := false } else d

theorem Dbg.fst_detached (n : Nat) (d : Dbg) : (d.detached n).fst = d.fst := by
  unfold Dbg.detached
  split <;> rfl

theorem State.dbgs_endCommon (s : State) (core : Nat) (c : Ctx) : (s.endCommon core c).dbgs = s.dbgs.map (fun e => (e.1, e.2.detached c.firing)) := by
  have hw : ∀ (u : State) (f n : Nat), (u.leaveWaiters f n).dbgs = u.dbgs := fun u f n => by
    unfold State.leaveWaiters
    split <;> rfl
  unfold State.endCommon
  simp only
  split
  · exact congrArg (List.map _) (hw _ _ _)
  · exact congrArg (List.map _) (hw _ _ _)

theorem State.dbgOf_endCommon (s : State) (core : Nat) (c : Ctx) (i : Nat) : (s.endCommon core c).dbgOf i = (s.dbgOf i).detached c.firing := by
  rw [State.dbgOf, State.dbgs_endCommon]
  exact KMap.get_map (fun _ d => Dbg.detached c.firing d) (.inr rfl)

/-- A firing that ends leaves its slot free and the FST of its page as it was; what becomes of its item is beyond the cores. -/
theorem State.endFiring_effects (s : State) (i : Nat) (fail : Option Nat) :
    ((s.endFiring i fail).ctxOf i).occ = false ∧ ((s.endFiring i fail).dbgOf i).fst = (s.dbgOf i).fst := by
  let u := (s.endCommon (coreOfCtx i) (s.ctxOf i)).updCtx i Ctx.endOf
  have hu : (u.ctxOf i).occ = false ∧ (u.dbgOf i).fst = (s.dbgOf i).fst := by
    simp [u, State.dbgOf_endCommon, Dbg.fst_detached, Ctx.endOf]
  have hb : BeyondCores u (s.endFiring i fail) := by
    unfold State.endFiring
    simp only
    split
    · exact SameBut.refl u
    next id _ =>
      refine (u.beyondCores_releaseFoot (tileOfCtx i) id).trans ?_
      split
      · exact State.beyondCores_endItem _ _ _ _
      · exact State.beyondCores_endHalf _ _ _ _ _
  rwa [hb.ctxOf, hb.dbgOf]

/-! ### The packet of a freeze (R237, R241) -/

theorem State.dbgOf_postFor (s : State) (i : Nat) (c : Ctx) (cause : Cause) (slotA gpa : Bool) (op : Nat) (pc : Word) (addr synd cursor : Nat) :
    ∃ p, (s.postFor i c 0 cause slotA gpa op pc addr synd cursor).dbgOf i = { s.dbgOf i with fpkt := p } := by
  have hkeep : ∀ (t : State) (p : List Word), Told ((s.takeSeq (fieldOfCtx i)).2.updDbg i (fun d => { d with fpkt := p })) t →
      ∃ p, t.dbgOf i = { s.dbgOf i with fpkt := p } := fun t p h => ⟨p, by
    rw [h.beyondCores.dbgOf, State.dbgOf_updDbg_self, (s.told_takeSeq _).beyondCores.dbgOf]⟩
  unfold State.postFor
  simp only [if_true]
  split
  · exact hkeep _ _ (State.told_toPlatform _ _)
  · split
    · exact hkeep _ _ ((State.told_toPlatform _ _).trans (State.told_report _ _ _ _ _ _))
    · exact hkeep _ _ ((State.told_postHw _ _ _).trans (State.told_keepRecent _ _))

theorem State.dbgOf_freeze (s : State) (i : Nat) (e : FaultAt) : ∃ p, (s.freeze i e).dbgOf i = { s.dbgOf i with fpkt := p } := by
  have hq : ∀ (u : State) (g : Ctx → Ctx), ((u.leaveSemQueues i).updCtx i g).dbgOf i = u.dbgOf i := fun u g => by
    rw [(State.updCtx_parts _ _ _ _).1, (u.beyondCores_leaveSemQueues i).dbgOf]
  have hp : ∀ (u : State) (c : Ctx), u.dbgOf i = s.dbgOf i →
      ∃ p, (u.postFreeze i c e.cause e.slotA e.gpa e.addr e.synd).dbgOf i = { s.dbgOf i with fpkt := p } := fun u c hu => by
    obtain ⟨p, h⟩ := u.dbgOf_postFor i c e.cause e.slotA e.gpa 0 c.pc e.addr e.synd 0
    refine ⟨p, ?_⟩
    rw [← hu, ← h]
    unfold State.postFreeze
    simp only
    split
    · exact (State.told_report _ _ _ _ _ _).beyondCores.dbgOf i
    · rfl
  refine hp _ _ ((hq _ _).trans ?_)
  split <;> rfl

/-! ### Accepted commands (R242) -/

theorem State.pageFiring_slot {s : State} {i : Nat} {c : Ctx} (h : s.pageFiring i = some (.slot, c)) : s.ctxOf i = c := by
  unfold State.pageFiring at h
  simp only at h
  split at h
  · simpa using h
  · simp at h

/-- The states of a firing in which the page accepts a command of a code: STOP unless it is frozen, KILL unless it runs, and the others where it is frozen. -/
def dbgStates (code st : Nat) : Prop := (code = 1 ∧ st ≠ 1) ∨ (2 ≤ code ∧ code ≤ 5 ∧ st = 1) ∨ (code = 6 ∧ st ≠ 0)

section
variable {s : State} {c : Ctx} {code : Nat}

theorem dbgStates.mod_eq {st : Nat} (h : dbgStates code st) : code % 16 = code := by
  unfold dbgStates at h
  omega

theorem State.dbgVerdict_of_takes (h : dbgTakes s c) (hst : dbgStates code c.st) : s.dbgVerdict s.arg.unit code = 0 := by
  obtain ⟨-, hpage, hkilled, hlines⟩ := h
  rw [State.dbgVerdict, hpage]
  obtain ⟨rfl, hst⟩ | ⟨hlo, hhi, hst⟩ | ⟨rfl, hst⟩ := hst
  · simp [hkilled, hst]
  · interval_cases code <;> simp [hkilled, hst, hlines]
  · simp [hkilled, hst]

/-- The command is the last one accepted, and takes effect (R241, R242). -/
theorem State.dbgEvent_of_takes (h : dbgTakes s c) (hst : dbgStates code c.st) :
    s.dbgEvent code = .next ((s.dbgResult s.arg.unit code 0).dbgApply s.arg.unit code) := by
  have hv := State.dbgVerdict_of_takes h hst
  obtain ⟨hpend, -⟩ := h
  simp [State.dbgEvent, State.dbgCommand, hpend, hv, hst.mod_eq]

/-- The command acts on the firing that the page had: its result is no part of a context. -/
theorem State.pageFiring_of_takes (h : dbgTakes s c) (code : Nat) : (s.dbgResult s.arg.unit code 0).pageFiring s.arg.unit = some (.slot, c) := by
  obtain ⟨-, hpage, -⟩ := h
  exact hpage

/-- A page that holds the result of a command shows it, whatever packet it keeps. -/
theorem dbgShows_of_page {t : State} {p : List Word} (hst : dbgStates code c.st)
    (h : t.dbgOf s.arg.unit = { (s.dbgResult s.arg.unit code 0).dbgOf s.arg.unit with fpkt := p }) : dbgShows s t code := by
  simp [dbgShows, h, State.dbgResult, hst.mod_eq]

/-! ### STOP (R242) -/

theorem execDbgStop_holds (h : dbgTakes s c) (hst : c.st = 0) (hhold : s.mustHold c = true) :
    ∃ t, exec .dbgStop s = .next t ∧ dbgShows s t 1 ∧ t.ctxOf s.arg.unit = { c with preempt := 3 } := by
  have hstates : dbgStates 1 c.st := .inl ⟨rfl, by omega⟩
  have hpage := State.pageFiring_of_takes h 1
  have hhold' : (s.dbgResult s.arg.unit 1 0).mustHold c = true := hhold
  have hctx := State.pageFiring_slot hpage
  refine ⟨_, State.dbgEvent_of_takes h hstates, ?_⟩
  have ha : (s.dbgResult s.arg.unit 1 0).dbgApply s.arg.unit 1 = (s.dbgResult s.arg.unit 1 0).updCtx s.arg.unit (fun c => { c with preempt := 3 }) := by
    simp [State.dbgApply, hpage, hst, hhold']
  rw [ha]
  exact ⟨dbgShows_of_page hstates (State.updCtx_parts _ _ _ _).1, by rw [State.ctxOf_updCtx_self, hctx]⟩

/-- STOP freezes a context where it stands. -/
theorem State.stopCtx_effects (s : State) (i : Nat) :
    let c := (s.stopCtx i).ctxOf i
    c.st = 1 ∧ c.cause = Cause.debugStop ∧ c.pc = (s.ctxOf i).pc ∧ c.x = (s.ctxOf i).x ∧ ∃ p, (s.stopCtx i).dbgOf i = { s.dbgOf i with fpkt := p } := by
  have hd := s.dbgOf_freeze i { cause := .debugStop }
  simp [State.stopCtx, State.ctxOf_freeze, Ctx.frozen, hd]

theorem execDbgStop_freezes (h : dbgTakes s c) (hst : c.st ≠ 1) (hhold : s.mustHold c = false) :
    ∃ t, exec .dbgStop s = .next t ∧ dbgShows s t 1 ∧ (t.ctxOf s.arg.unit).st = 1 ∧ (t.ctxOf s.arg.unit).cause = Cause.debugStop ∧
      (t.ctxOf s.arg.unit).pc = c.pc ∧ (t.ctxOf s.arg.unit).x = c.x := by
  have hstates : dbgStates 1 c.st := .inl ⟨rfl, hst⟩
  have hpage := State.pageFiring_of_takes h 1
  have hhold' : (s.dbgResult s.arg.unit 1 0).mustHold c = false := hhold
  have hctx := State.pageFiring_slot hpage
  have ha : (s.dbgResult s.arg.unit 1 0).dbgApply s.arg.unit 1 = ((s.dbgResult s.arg.unit 1 0).dropLoad c).stopCtx s.arg.unit := by
    simp [State.dbgApply, hpage, hhold']
  have hdrop : ∀ u : State, (u.dropLoad c).ctxOf s.arg.unit = u.ctxOf s.arg.unit ∧ (u.dropLoad c).dbgOf s.arg.unit = u.dbgOf s.arg.unit := fun u => by
    unfold State.dropLoad
    split <;> exact ⟨rfl, rfl⟩
  obtain ⟨hst', hcause, hpc, hx, p, hd⟩ := ((s.dbgResult s.arg.unit 1 0).dropLoad c).stopCtx_effects s.arg.unit
  rw [(hdrop _).1, hctx] at hpc hx
  rw [(hdrop _).2] at hd
  refine ⟨_, State.dbgEvent_of_takes h hstates, ?_⟩
  rw [ha]
  exact ⟨dbgShows_of_page hstates hd, hst', hcause, hpc, hx⟩

/-! ### Commands that make a frozen firing go on (R242) -/

/-- A frozen firing in its slot as RESUME, RESTART, SKIP or STEP makes it go on. -/
def Ctx.onCommand (code : Nat) (c : Ctx) : Ctx :=
  match code with
  | 3 => { c.goOn .slot c.frozenPc false with aDone := false }
  | 4 => { c.goOn .slot (c.pc + 8) false with aDone := false }
  | _ => { c.goOn .slot c.pc (code = 5) with aDone := c.aDone && c.pc = c.frozenPc }

theorem State.dbgApply_goesOn {i : Nat} (hp : s.pageFiring i = some (.slot, c)) (hlo : 2 ≤ code) (hhi : code ≤ 5) :
    s.dbgApply i code = (s.refetch (coreOfCtx i) c.firing).updCtx i (Ctx.onCommand code) := by
  interval_cases code <;> simp only [State.dbgApply, hp] <;> rfl

theorem State.dbgEvent_goesOn (h : dbgTakes s c) (hst : c.st = 1) (hlo : 2 ≤ code) (hhi : code ≤ 5) :
    ∃ t, s.dbgEvent code = .next t ∧ dbgShows s t code ∧ t.ctxOf s.arg.unit = c.onCommand code := by
  have hstates : dbgStates code c.st := .inr (.inl ⟨hlo, hhi, hst⟩)
  have hpage := State.pageFiring_of_takes h code
  have hctx := State.pageFiring_slot hpage
  refine ⟨_, State.dbgEvent_of_takes h hstates, ?_⟩
  rw [State.dbgApply_goesOn hpage hlo hhi]
  refine ⟨dbgShows_of_page hstates rfl, ?_⟩
  rw [State.ctxOf_updCtx_self, ← hctx]
  rfl

/-! ### KILL (R243) -/

/-- A killed firing, frozen until it can end; its cause is that of the freeze, or `FIRING_KILLED`. -/
def Ctx.onKill (c : Ctx) : Ctx := { c with killed := (if c.st = 1 then c.cause else Cause.firingKilled) + 1, st := 1 }

/-- The state in which a killed firing of a slot waits for its end. -/
def State.killing (s : State) (i : Nat) (c : Ctx) : State := (s.killOps (tileOfCtx i) c.firing).updCtx i (fun _ => c.onKill)

theorem State.killFiring_slot (s : State) (i : Nat) (c : Ctx) :
    s.killFiring i .slot c = if s.killReady i c then (s.killing i c).finishKill i .slot c.onKill else s.killing i c := rfl

theorem State.finishKill_slot (s : State) (i : Nat) (c : Ctx) :
    ((s.finishKill i .slot c).dbgOf i).fst = BitVec.ofNat 64 c.fstat ∧ ((s.finishKill i .slot c).ctxOf i).occ = false := by
  obtain ⟨hocc, hfst⟩ := (s.updDbg i (fun d => { d with fst := BitVec.ofNat 64 c.fstat })).endFiring_effects i (some (c.killed - 1))
  exact ⟨hfst.trans (by rw [State.dbgOf_updDbg_self]), hocc⟩

theorem execDbgKill_kills (h : dbgTakes s c) (hst : c.st ≠ 0) :
    ∃ t, exec .dbgKill s = .next t ∧
      (s.killReady s.arg.unit c = true → (t.dbgOf s.arg.unit).fst = BitVec.ofNat 64 c.fstat ∧ (t.ctxOf s.arg.unit).occ = false) ∧
      (s.killReady s.arg.unit c = false → t.ctxOf s.arg.unit = c.onKill) := by
  have hpage := State.pageFiring_of_takes h 6
  have hready : (s.dbgResult s.arg.unit 6 0).killReady s.arg.unit c = s.killReady s.arg.unit c := rfl
  have ha : (s.dbgResult s.arg.unit 6 0).dbgApply s.arg.unit 6 = (s.dbgResult s.arg.unit 6 0).killFiring s.arg.unit .slot c := by
    simp [State.dbgApply, hpage]
  refine ⟨_, State.dbgEvent_of_takes h (.inr (.inr ⟨rfl, hst⟩)), ?_⟩
  rw [ha, State.killFiring_slot, hready]
  refine ⟨fun hr => ?_, fun hr => ?_⟩
  · rw [if_pos hr]
    exact State.finishKill_slot _ _ _
  · rw [if_neg (by simp [hr])]
    exact State.ctxOf_updCtx_self _ _ _

end

/-! ### Attachment, and commands that are refused (R241, R242) -/

theorem execDbgAttach_attaches {s : State} (hz : ¬((s.dbgOf s.arg.unit).capLow = 0 ∧ BitVec.ofNat 64 s.arg.value = 0))
    (hc : s.attachCause s.arg.unit (s.dbgOf s.arg.unit).capLow (BitVec.ofNat 64 s.arg.value) s.arg.tag = none) :
    exec .dbgAttach s = .next (s.updDbg s.arg.unit (fun d =>
      { d with att := some (s.arg.other, (s.ctxOf s.arg.other).firing), halt := capHas (s.dbgOf s.arg.unit).capLow rightHalt })) := by
  have he : exec .dbgAttach s = execDbgAttach s := rfl
  rw [he, execDbgAttach, State.attach, if_neg hz, hc]

theorem execDbgCmdBad_of_refused {s : State} (hp : s.dbgPends s.arg.unit s.arg.tag = false) (hv : s.dbgVerdict s.arg.unit s.arg.value ≠ 0) :
    exec .dbgCmdBad s = .next (s.updDbg s.arg.unit (fun d => { d with result := s.dbgVerdict s.arg.unit s.arg.value, lastcmd := s.arg.value % 16 })) := by
  have he : exec .dbgCmdBad s = execDbgCmdBad s := rfl
  simp [he, execDbgCmdBad, State.dbgCommand, State.dbgResult, hp, hv]

/-- Settles O57: the registers by what a write of each gives, and the debug commands by what an accepted command does to the firing of its page. -/
theorem registersAndDebugCommandsAct : Obligations.RegistersAndDebugCommandsAct := by
  refine ⟨?_, ?_, ?_, ?_, ?_, ?_, ?_, ?_, ?_, ?_, ?_, ?_, ?_, ?_, ?_, ?_, ?_, ?_, ?_⟩
  · intro s ⟨hspace, hlocal, hsize, hoff, hpause, hrefuse⟩
    refine ⟨_, execRegisterWrite_of_hub hspace hlocal hpause (by rw [hsize]; exact hrefuse), ?_⟩
    rw [hsize]
    exact s.hubStore_effects hoff _ _ _ _
  · intro s _
    refine ⟨_, rfl, ?_⟩
    simp only [State.countersOf_updCounter]
    exact Counter.setCfg_effects _ _ _ _
  · intro s h
    refine ⟨_, execCounterOverflow_of_past h, ?_⟩
    simp only [State.countersOf_wrapCounter, and_self]
  · exact fun s _ => ⟨_, rfl, s.dqcfgWrite_effects _ _⟩
  · exact fun s _ => ⟨_, rfl, s.actcfgWrite_effects _ _⟩
  · exact fun s _ => ⟨_, rfl, s.parkcfgWrite_effects _ _⟩
  · intro s ⟨hv, hold⟩
    obtain ⟨htaken, hrefused⟩ := s.capstripeWrite_cases hv hold
    refine ⟨_, rfl, fun hlo hhi hlen hfit hfree => ?_, hrefused⟩
    have htakes := htaken (not_or.2 ⟨Nat.not_lt.2 hlo, not_or.2 ⟨Nat.not_lt.2 hhi, not_or.2 ⟨hlen, Nat.not_lt.2 hfit⟩⟩⟩)
      (fun ⟨x, hx, ⟨hne, hvalid⟩, hmeets⟩ => Bool.false_ne_true ((hfree x hx hne hvalid).symm.trans hmeets))
    simp only [htakes]
    exact ⟨hv, rfl, rfl, rfl⟩
  · exact fun s _ => ⟨_, rfl, fun h => (s.opAt_opcmd_suspended h).1, s.opAt_opcmd_error 1⟩
  · exact fun s _ => ⟨_, rfl, fun h => (s.opAt_opcmd_suspended h).2, s.opAt_opcmd_error 2⟩
  · exact fun s h => ⟨_, execOpcmdBad_of_bad h, s.opAt_updOp _ _ _⟩
  · intro s ⟨hz, hc⟩
    exact ⟨_, execDbgAttach_attaches hz hc, by simp⟩
  · exact fun c s ⟨h, hst, hhold⟩ => execDbgStop_holds h hst hhold
  · exact fun c s ⟨h, hst, hhold⟩ => execDbgStop_freezes h hst hhold
  · exact fun c s ⟨h, hst⟩ => (State.dbgEvent_goesOn (code := 2) h hst (by decide) (by decide)).imp fun t ⟨he, hshow, hc⟩ =>
      ⟨he, hshow, by rw [hc]; exact ⟨rfl, rfl, rfl⟩⟩
  · exact fun c s ⟨h, hst⟩ => (State.dbgEvent_goesOn (code := 3) h hst (by decide) (by decide)).imp fun t ⟨he, hshow, hc⟩ =>
      ⟨he, hshow, by rw [hc]; exact ⟨rfl, rfl⟩⟩
  · exact fun c s ⟨h, hst⟩ => (State.dbgEvent_goesOn (code := 4) h hst (by decide) (by decide)).imp fun t ⟨he, hshow, hc⟩ =>
      ⟨he, hshow, by rw [hc]; exact ⟨rfl, rfl⟩⟩
  · exact fun c s ⟨h, hst⟩ => (State.dbgEvent_goesOn (code := 5) h hst (by decide) (by decide)).imp fun t ⟨he, hshow, hc⟩ =>
      ⟨he, hshow, by rw [hc]; exact ⟨rfl, rfl, rfl⟩⟩
  · exact fun c s ⟨h, hst⟩ => execDbgKill_kills h hst
  · exact fun s ⟨hp, hv⟩ => ⟨_, execDbgCmdBad_of_refused hp hv, rfl⟩

end Sys2Proof.Machine
end

section
/-! SUPPORT. Replies reach the contexts that hold for them, and acknowledgements their firings: R187, R211, R241, R243, R313. -/

namespace Sys2Proof.Machine

/-! ### Finite maps -/

theorem KMap.mem_put {α : Type} {m : KMap α} {k : Nat} {a : α} {e : Nat × α} (h : e ∈ m.put k a) : e = (k, a) ∨ e ∈ m := by
  induction m with
  | nil => simpa [KMap.put] using h
  | cons x m ih =>
    obtain ⟨j, b⟩ := x
    unfold KMap.put at h
    split at h
    · simpa using h
    · split at h
      · exact (List.mem_cons.1 h).imp_right (List.mem_cons_of_mem _)
      · obtain he | he := List.mem_cons.1 h
        · exact .inr (he ▸ List.mem_cons_self)
        · exact (ih he).imp_right (List.mem_cons_of_mem _)

/-- The value at a key is the default, or it is listed. -/
theorem KMap.get_default_or_mem {α : Type} (d : α) (m : KMap α) (k : Nat) : m.get d k = d ∨ (k, m.get d k) ∈ m := by
  induction m with
  | nil => exact .inl rfl
  | cons x m ih =>
    obtain ⟨j, b⟩ := x
    by_cases hj : j = k
    · simp [KMap.get, hj]
    · simpa [KMap.get, hj] using ih.imp_right .inr

theorem KMap.has_iff {α : Type} {m : KMap α} {k : Nat} : m.has k = true ↔ ∃ a, m.find? k = some a := by
  induction m with
  | nil => simp [KMap.has, KMap.find?]
  | cons e m ih =>
    obtain ⟨j, b⟩ := e
    by_cases hj : j = k
    · simp [KMap.has, KMap.find?, hj]
    · simpa [KMap.has, KMap.find?, hj] using ih

theorem KMap.has_drop_self {α : Type} (m : KMap α) (k : Nat) : (m.drop k).has k = false := by
  simp [KMap.has, KMap.drop]

/-! ### Accesses in flight (R205) -/

theorem State.id_of_accOf {s : State} {n : Nat} {a : Access} (h : s.accOf n = some a) : a.id = n := by
  simpa using List.find?_some h

@[simp] theorem State.accOf_dropAcc (s : State) (n : Nat) : (s.dropAcc n).accOf n = none := by
  simp [State.accOf, State.dropAcc]

theorem State.accOf_of_net {s t : State} (h : t.net = s.net) (n : Nat) : t.accOf n = s.accOf n := congrArg (List.find? _) h

theorem State.counted_countReply (s : State) (a : Access) : Counted s (s.countReply a) := by
  unfold State.countReply
  split
  · split
    · exact SameBut.refl s
    · exact s.counted_countFabric _ _ _
  · exact s.counted_countFabric _ _ _
  · exact SameBut.refl s

/-! ### What a freeze leaves (R235, R237, R241) -/

/-- Between two states only contexts, debug pages, hubs, tiles, the latent error and what has been sent have changed. -/
abbrev FaultTaken : State → State → Prop := SameBut (fun s => { s.mute with tiles := [], ctxs := [], dbgs := [], latent := none }) (fun _ => ({} : Hub))

theorem BeyondCores.faultTaken {s t : State} (h : BeyondCores s t) : FaultTaken s t :=
  ⟨congrArg (fun u : State => { u with ctxs := [], dbgs := [], latent := none }) h.rest, fun _ => rfl⟩

theorem Told.faultTaken {s t : State} (h : Told s t) : FaultTaken s t := h.beyondCores.faultTaken

theorem FaultTaken.net {s t : State} (h : FaultTaken s t) : t.net = s.net := h.part State.net (fun _ => rfl)

theorem State.faultTaken_postFor (s : State) (i : Nat) (c : Ctx) (cause : Cause) (slotA gpa : Bool) (op : Nat) (pc : Word) (addr synd cursor : Nat) :
    FaultTaken s (s.postFor i c 0 cause slotA gpa op pc addr synd cursor) := by
  have hpage : ∀ (u : State) (g : Dbg → Dbg), FaultTaken u (u.updDbg i g) := fun _ _ => ⟨rfl, fun _ => rfl⟩
  have hkeep : ∀ (t : State) (g : Dbg → Dbg), Told ((s.takeSeq (fieldOfCtx i)).2.updDbg i g) t → FaultTaken s t := fun t g h =>
    (s.told_takeSeq _).faultTaken.trans ((hpage _ g).trans h.faultTaken)
  unfold State.postFor
  simp only [if_true]
  split
  · exact hkeep _ _ (State.told_toPlatform _ _)
  · split
    · exact hkeep _ _ ((State.told_toPlatform _ _).trans (State.told_report _ _ _ _ _ _))
    · exact hkeep _ _ ((State.told_postHw _ _ _).trans (State.told_keepRecent _ _))

theorem State.faultTaken_postFreeze (s : State) (i : Nat) (c : Ctx) (cause : Cause) (slotA gpa : Bool) (addr synd : Nat) :
    FaultTaken s (s.postFreeze i c cause slotA gpa addr synd) := by
  have hpacket := s.faultTaken_postFor i c cause slotA gpa 0 c.pc addr synd 0
  unfold State.postFreeze
  simp only
  split
  · exact hpacket.trans (State.told_report _ _ _ _ _ _).faultTaken
  · exact hpacket

theorem State.faultTaken_freeze (s : State) (i : Nat) (e : FaultAt) : FaultTaken s (s.freeze i e) := by
  have hlatent : FaultTaken s (if 0xA0 ≤ e.cause ∧ e.cause ≤ 0xA7 then { s with latent := none } else s) := by
    split <;> exact ⟨rfl, fun _ => rfl⟩
  have hctx : ∀ (u : State) (g : Ctx → Ctx), FaultTaken u (u.updCtx i g) := fun _ _ => ⟨rfl, fun _ => rfl⟩
  unfold State.freeze
  exact hlatent.trans ((State.beyondCores_leaveSemQueues _ i).faultTaken.trans ((hctx _ _).trans (State.faultTaken_postFreeze _ _ _ _ _ _ _ _)))

/-! ### Replies (R313) -/

/-- A reply's access is over. Its value is there for the bundle that holds for it, or the context takes the fault of the access. -/
theorem State.answer_effects {s : State} {a : Access} (h : waitsFor s a) (r : AccResult) :
    (s.answer a r).accOf a.id = none ∧
    (∀ v, r = .value v → (s.answer a r).ctxOf a.ctx = { s.ctxOf a.ctx with reply := some (.value v) }) ∧
    (∀ c n, r = .failed c n → (s.answer a r).ctxOf a.ctx = { (s.ctxOf a.ctx).frozen c with haltAt := s.rtime }) := by
  obtain ⟨hocc, hfiring, hhold⟩ := h
  have hwaits : ¬(!(s.ctxOf a.ctx).occ ∨ (s.ctxOf a.ctx).firing ≠ a.firing ∨ (s.ctxOf a.ctx).hold ≠ some a.id) := by
    simp [hocc, hfiring, hhold]
  cases r with
  | value v =>
    simp only [State.answer, if_neg hwaits]
    refine ⟨?_, ?_, nofun⟩
    · rw [State.accOf_of_net (s := s.dropAcc a.id) (by simp), State.accOf_dropAcc]
    · rintro v ⟨⟩
      exact State.ctxOf_updCtx_self _ _ _
  | failed c n =>
    simp only [State.answer, if_neg hwaits]
    refine ⟨?_, nofun, ?_⟩
    · rw [State.accOf_of_net (State.faultTaken_freeze _ _ _).net, State.accOf_dropAcc]
    · rintro c n ⟨⟩
      exact State.ctxOf_freeze _ _ _

section
variable {s : State} {a : Access}

theorem execAccessReply_answers {r : AccResult} (ha : s.accOf s.arg.value = some a) (hw : waitsFor s a) (hstill : s.tileStill (tileOfCtx a.ctx) = false)
    (hr : a.result = some r) (hfills : a.fills = []) (hway : s.wayBack a = true) :
    exec .accessReply s = .next ((s.countReply a).answer a r) := by
  have he : exec .accessReply s = execAccessReply s := rfl
  obtain ⟨-, -, hhold⟩ := hw
  simp [he, execAccessReply, ha, hhold, hstill, hr, hfills, hway]

/-- The answer of another device comes from outside (R75). -/
theorem execAccessReply_fromOutside (ha : s.accOf s.arg.value = some a) (hw : waitsFor s a) (hstill : s.tileStill (tileOfCtx a.ctx) = false)
    (hreach : a.reach = 3) (hr : a.result = none) (hflag : s.arg.flag = false) :
    exec .accessReply s = .next (s.answer a (.value (s.arg.list.headD 0))) := by
  have he : exec .accessReply s = execAccessReply s := rfl
  obtain ⟨-, -, hhold⟩ := hw
  simp [he, execAccessReply, ha, hhold, hstill, hr, hreach, hflag]

theorem execRespTimeout_answers (ha : s.accOf s.arg.value = some a) (hw : waitsFor s a) (hreach : a.reach = 3) (hr : a.result = none)
    (hlate : a.since + 10000000 ≤ s.rtime) : exec .respTimeout s = .next (s.answer a (.failed .respTimeout 0)) := by
  have he : exec .respTimeout s = execRespTimeout s := rfl
  obtain ⟨-, -, hhold⟩ := hw
  have hdue : s.respLate a = true := by simp [State.respLate, hreach, hr, hhold, hlate]
  simp [he, execRespTimeout, ha, hdue]

/-- What hubs count leaves a context that holds for a reply. -/
theorem waitsFor_of_counted {t : State} (hw : waitsFor s a) (h : Counted s t) : waitsFor t a := by
  rwa [waitsFor, h.ctxOf]

end

/-! ### Killed firings (R243) -/

theorem noKill_of_parts {s t : State} (h : noKill s) (hctxs : t.ctxs = s.ctxs) (hcores : t.cores = s.cores) : noKill t := by
  rwa [noKill, hctxs, hcores]

theorem noKill_updFiring {s : State} (h : noKill s) (n : Nat) {f : Ctx → Ctx} (hf : ∀ c, (f c).killed = c.killed) : noKill (s.updFiring n f) := by
  obtain ⟨hslot, hpark⟩ := h
  have hif : ∀ (p : Prop) [Decidable p] (c : Ctx), (if p then f c else c).killed = c.killed := fun p _ c => by split <;> simp [hf]
  refine ⟨fun e he => ?_, fun e he q hq => ?_⟩
  · obtain ⟨x, hx, rfl⟩ := List.mem_map.1 he
    exact (hif _ _).trans (hslot x hx)
  · obtain ⟨x, hx, rfl⟩ := List.mem_map.1 he
    obtain ⟨y, hy, rfl⟩ := List.mem_map.1 hq
    exact (hif _ _).trans (hpark x hx y hy)

theorem noKill_updCore {s : State} (h : noKill s) {k : Nat} {g : Core → Core} (hg : (g (s.coreOf k)).parked = (s.coreOf k).parked) :
    noKill (s.updCore k g) := by
  obtain ⟨hslot, hpark⟩ := h
  refine ⟨hslot, fun e he q hq => ?_⟩
  obtain rfl | he := KMap.mem_put he
  · rw [hg] at hq
    obtain hd | hm := KMap.get_default_or_mem {} s.cores k
    · rw [State.coreOf, hd] at hq
      cases hq
    · exact hpark _ hm q hq
  · exact hpark e he q hq

theorem noKill_countCore {s : State} (h : noKill s) (k : Nat) (c : Option Nat) (ev n : Nat) : noKill (s.countCore k c ev n) := by
  obtain he | ⟨cs, he⟩ := s.countCore_cases k c ev n
  · rwa [he]
  · rw [he]
    exact noKill_updCore h rfl

/-- Where no firing is being killed, none ends by it. -/
theorem State.finishKills_of_noKill {s : State} (h : noKill s) (n : Nat) : s.finishKills n = s := by
  obtain ⟨hslot, hpark⟩ := h
  have hin : List.find? (fun e : Nat × Ctx => e.2.occ && e.2.firing = n && e.2.killed ≠ 0 && s.killReady e.1 e.2) s.ctxs = none :=
    List.find?_eq_none.2 fun e he => by simp [hslot e he]
  have hout : s.cores.findSome? (fun e => (List.find? (fun q : Nat × Ctx => q.2.firing = n && q.2.killed ≠ 0 && s.killReady (8 * e.1) q.2) e.2.parked).map
      (fun q => (e.1, q.1, q.2))) = none :=
    List.findSome?_eq_none_iff.2 fun e he => Option.map_eq_none_iff.2 (List.find?_eq_none.2 fun q hq => by simp [hpark e he q hq])
  simp only [State.finishKills, hin, hout]

/-! ### Acknowledgements (R187, R211) -/

theorem Ctx.killed_unackDown (c : Ctx) (reach : Nat) : (c.unackDown reach).killed = c.killed := by
  unfold Ctx.unackDown
  split <;> rfl

theorem Ctx.killed_unackUp (c : Ctx) (reach : Nat) : (c.unackUp reach).killed = c.killed := by
  unfold Ctx.unackUp
  split <;> rfl

theorem Ctx.killed_countFailure (c : Ctx) (n : Nat) : (c.countFailure n).killed = c.killed := by
  unfold Ctx.countFailure
  split <;> rfl

theorem State.net_updFiring (s : State) (n : Nat) (f : Ctx → Ctx) : (s.updFiring n f).net = s.net := rfl

/-- The context of a firing changes in its slot. -/
theorem State.ctxOf_updFiring (s : State) {i n : Nat} (f : Ctx → Ctx) (hocc : (s.ctxOf i).occ = true) (hfiring : (s.ctxOf i).firing = n) :
    (s.updFiring n f).ctxOf i = f (s.ctxOf i) := by
  have h := KMap.get_map (m := s.ctxs) (d := {}) (k := i) (fun _ c => if c.occ && c.firing = n then f c else c) (.inr (by simp))
  exact h.trans (if_pos (by simpa using ⟨hocc, hfiring⟩))

/-- The FSTAT field in which a failed store counts (R211). -/
def AccResult.count : AccResult → Nat
  | .failed _ n => n
  | .value _ => 0

/-- An acknowledged store of a firing is over: UNACK falls, and a failure counts. -/
def State.acked (s : State) (a : Access) (r : AccResult) : State :=
  ((s.countReply a).dropAcc a.id).updFiring a.firing (fun c => (c.unackDown a.reach).countFailure r.count)

theorem execStoreAck_acks {s : State} {a : Access} {r : AccResult} (ha : s.accOf s.arg.value = some a) (hsilent : a.silent = true)
    (hhold : (s.ctxOf a.ctx).hold ≠ some a.id) (hstill : s.tileStill (tileOfCtx a.ctx) = false) (hr : a.result = some r) (hway : s.wayBack a = true) :
    exec .storeAck s = .next ((s.acked a r).finishKills a.firing) := by
  have he : exec .storeAck s = execStoreAck s := rfl
  have hgoes : ¬(!a.silent ∨ (s.ctxOf a.ctx).hold = some a.id ∨ s.tileStill (tileOfCtx a.ctx)) := by simp [hsilent, hhold, hstill]
  have hhere : ¬(a.reach = 3 ∧ (some r).isNone) := by simp
  simp only [he, execStoreAck, ha, if_neg hgoes, if_neg hhere, hr, hway, if_true]
  cases r <;> rfl

theorem State.acked_effects (s : State) (a : Access) (r : AccResult) :
    (s.acked a r).accOf a.id = none ∧ (noKill s → noKill (s.acked a r)) ∧
    ∀ i, (s.ctxOf i).occ = true → (s.ctxOf i).firing = a.firing → (s.acked a r).ctxOf i = ((s.ctxOf i).unackDown a.reach).countFailure r.count := by
  have hcount := s.counted_countReply a
  have hctxs : ((s.countReply a).dropAcc a.id).ctxs = s.ctxs := hcount.part State.ctxs (fun _ => rfl)
  have hcores : ((s.countReply a).dropAcc a.id).cores = s.cores := hcount.part State.cores (fun _ => rfl)
  have hctx : ∀ i, ((s.countReply a).dropAcc a.id).ctxOf i = s.ctxOf i := fun i => by rw [State.ctxOf, hctxs, State.ctxOf]
  refine ⟨(State.accOf_of_net (State.net_updFiring _ _ _) _).trans (State.accOf_dropAcc _ _), fun hkill => ?_, fun i hocc hfiring => ?_⟩
  · exact noKill_updFiring (noKill_of_parts hkill hctxs hcores) _ (fun c => by rw [Ctx.killed_countFailure, Ctx.killed_unackDown])
  · rw [State.acked, State.ctxOf_updFiring _ _ (by rwa [hctx]) (by rwa [hctx]), hctx]

end Sys2Proof.Machine
end

section
/-! SUPPORT. Line fills, page walks, invalidations and sync records: R113, R118 to R122, R216. -/

namespace Sys2Proof.Machine

/-! ### Line fills (R113) -/

theorem execSliceFill_fills {s : State} {m : Miss} (hm : s.misses.find? s.arg.value = some m) (hstill : s.homeStill (lineGpa s.arg.value) = false)
    (hway : s.fillWay (lineGpa s.arg.value) = true) :
    exec .sliceFill s = .next (({ s with cached := s.cached.put s.arg.value m.tag } : State).endMiss s.arg.value) := by
  have he : exec .sliceFill s = execSliceFill s := rfl
  simp [he, execSliceFill, hm, hstill, hway]

/-- A line that has come is no miss any more, and no reply waits for it. -/
theorem State.endMiss_effects (s : State) (l : Nat) : (s.endMiss l).misses.has l = false ∧ ∀ a ∈ (s.endMiss l).net, l ∉ a.fills := by
  refine ⟨KMap.has_drop_self _ _, fun a ha => ?_⟩
  obtain ⟨b, -, rfl⟩ := List.mem_map.1 ha
  split
  · simp
  · simpa using ‹¬b.fills.contains l = true›

/-! ### Page walks (R119, R121) -/

/-- A unit of n entries with one more; a full one forgets its oldest (log 28). -/
def keepEntry (x : TlbEntry) (n : Nat) (l : List TlbEntry) : List TlbEntry := if l.contains x then l else (l ++ [x]).drop (l.length + 1 - n)

theorem mem_keepEntry (x : TlbEntry) {n : Nat} (hn : 0 < n) (l : List TlbEntry) : x ∈ keepEntry x n l := by
  unfold keepEntry
  split
  · simpa using ‹l.contains x = true›
  · rw [List.drop_append_of_le_length (by omega)]
    simp

/-- A walk of a page in memory that ends without a fault fills the TLBs of the core and of its field. -/
theorem execPageWalk_fills {s : State} {p lvl : Nat} {e : Pte} (hp : s.partOfTag s.arg.tag = some p)
    (hroot : bitAt ((s.hubOf (fieldOfTile (tileOfCore s.arg.unit))).troots.get 0 p) 0 = true) (hva : s.arg.addr < 2 ^ 60)
    (hwalk : s.walk s.arg.addr s.arg.tag (accOfCode s.arg.level) 4 (bitsAt ((s.hubOf (fieldOfTile (tileOfCore s.arg.unit))).troots.get 0 p) 63 16) 3 = .ok (e, lvl))
    (hkind : e.kind ≠ 4) :
    let x : TlbEntry := { tag := s.arg.tag, va := s.arg.addr / 2 ^ levelShift lvl * 2 ^ levelShift lvl, level := lvl, pte := e.raw, tile := 0 }
    exec .pageWalk s = .next ((s.updHub (fieldOfTile (tileOfCore s.arg.unit)) (fun h => { h with tlb := keepEntry x 32768 h.tlb })).updCore s.arg.unit
      (fun c => { c with utlb := keepEntry x 64 c.utlb })) := by
  have he : exec .pageWalk s = execPageWalk s := rfl
  have hgoes : ¬(!bitAt ((s.hubOf (fieldOfTile (tileOfCore s.arg.unit))).troots.get 0 p) 0 ∨ s.arg.addr / 2 ^ 60 ≠ 0) := by
    simpa [hroot] using hva
  simp only [he, execPageWalk, hp, if_neg hgoes, hwalk, if_neg hkind]
  rfl

/-! ### Invalidations (R118, R122) -/

/-- The TLBs of fields without the entries that a request names. -/
def State.invalidated (s : State) (fields : List Nat) (r : Nat × Nat × Nat × Nat) : State :=
  { s with
    hubs := s.hubs.map (fun e => (e.1, if fields.contains e.1 then { e.2 with tlb := e.2.tlb.filter (fun x => !x.hitBy r) } else e.2)),
    cores := s.cores.map (fun e => (e.1, if fields.contains (fieldOfTile (tileOfCore e.1)) then { e.2 with utlb := e.2.utlb.filter (fun x => !x.hitBy r) } else e.2)) }

theorem State.hubOf_invalidated (s : State) (fields : List Nat) (r : Nat × Nat × Nat × Nat) (f : Nat) :
    (s.invalidated fields r).hubOf f = if fields.contains f then { s.hubOf f with tlb := (s.hubOf f).tlb.filter (fun x => !x.hitBy r) } else s.hubOf f :=
  KMap.get_map (fun f (h : Hub) => if fields.contains f then { h with tlb := h.tlb.filter (fun x => !x.hitBy r) } else h) (.inr (by split <;> rfl))

theorem State.coreOf_invalidated (s : State) (fields : List Nat) (r : Nat × Nat × Nat × Nat) (k : Nat) :
    (s.invalidated fields r).coreOf k =
      if fields.contains (fieldOfTile (tileOfCore k)) then { s.coreOf k with utlb := (s.coreOf k).utlb.filter (fun x => !x.hitBy r) } else s.coreOf k :=
  KMap.get_map (fun k (c : Core) => if fields.contains (fieldOfTile (tileOfCore k)) then { c with utlb := c.utlb.filter (fun x => !x.hitBy r) } else c)
    (.inr (by split <;> rfl))

theorem execTlbinvDone_completes {s : State} {r : Nat × Nat × Nat × Nat} {rest : List (Nat × Nat × Nat × Nat)} {p : Nat}
    (hq : (s.hubOf s.arg.unit).tlbq = r :: rest) (hdue : s.tlbDue s.arg.unit = true) (hp : s.partOfTag r.1 = some p) :
    exec .tlbinvDone s = .next ((s.invalidated (s.partOf p).fields r).updHub s.arg.unit (fun h => { h with tlbq := rest, tlbDone := (h.tlbDone + 1) % 2 ^ 32 })) := by
  have he : exec .tlbinvDone s = execTlbinvDone s := rfl
  simp only [he, execTlbinvDone, hq, hdue, hp, Bool.not_true, Bool.false_eq_true, if_false]
  rfl

/-- No TLB of the partition's fields holds a page that the request names, and it is done. -/
theorem State.tlbinvDone_effects (s : State) (f : Nat) (fields : List Nat) (r : Nat × Nat × Nat × Nat) (rest : List (Nat × Nat × Nat × Nat)) :
    let t := (s.invalidated fields r).updHub f (fun h => { h with tlbq := rest, tlbDone := (h.tlbDone + 1) % 2 ^ 32 })
    (t.hubOf f).tlbq = rest ∧ (t.hubOf f).tlbDone = ((s.hubOf f).tlbDone + 1) % 2 ^ 32 ∧
    (∀ g ∈ fields, ∀ x ∈ (t.hubOf g).tlb, x.hitBy r = false) ∧
    ∀ k, fieldOfTile (tileOfCore k) ∈ fields → ∀ x ∈ (t.coreOf k).utlb, x.hitBy r = false := by
  intro t
  have hdone : ((s.invalidated fields r).hubOf f).tlbDone = (s.hubOf f).tlbDone := by
    rw [State.hubOf_invalidated]
    split <;> rfl
  have htlb : ∀ g, (t.hubOf g).tlb = ((s.invalidated fields r).hubOf g).tlb := fun g => by
    rw [State.hubOf_updHub]
    split
    · rw [‹g = f›]
    · rfl
  have hcore : ∀ k, t.coreOf k = (s.invalidated fields r).coreOf k := fun _ => rfl
  refine ⟨by simp [t], by simp [t, hdone], fun g hg x hx => ?_, fun k hk x hx => ?_⟩
  · rw [htlb, State.hubOf_invalidated, if_pos (by simpa using hg)] at hx
    simpa using List.of_mem_filter hx
  · rw [hcore, State.coreOf_invalidated, if_pos (by simpa using hk)] at hx
    simpa using List.of_mem_filter hx

end Sys2Proof.Machine
end

section
/-! SUPPORT. The steps of streams: R191 to R193. An output step leaves in pieces that are cut where their lines have other homes (log 120). -/

namespace Sys2Proof.Machine

/-! ### Input steps (R191, R192) -/

/-- A step's value joins the FIFO, or its fault is held. -/
def Stream.took (x : Stream) : Except (Cause × Nat) Nat → Stream
  | .ok v => { x with fifo := x.fifo ++ [BitVec.ofNat 256 v], fetched := x.fetched + 1 }
  | .error (c, y) => { x with fault := some (c, x.addr x.fetched), faultSynd := y }

/-- A core with another state of one of its streams. -/
def State.putStream (s : State) (k n : Nat) (x : Stream) : State := s.updCore k (fun c => { c with streams := c.streams.put n x })

@[simp] theorem State.streamAt_putStream (s : State) (k n : Nat) (x : Stream) : ((s.putStream k n x).coreOf k).streamAt n = x := by
  simp [State.putStream, Core.streamAt]

theorem execStreamInputFill_takes {s s1 : State} {q : Except (Cause × Nat) Nat} {x : Stream} (hx : (s.coreOf s.arg.unit).streamAt s.arg.other = x)
    (hstill : s.tileStill (tileOfCore s.arg.unit) = false) (hbound : x.bound = true) (hin : x.output = false) (hfault : x.fault = none)
    (hroom : x.fifo.length < 8) (hmore : x.fetched < x.total) (hopen : s.streamOpen x = true)
    (hstep : s.inputStep s.arg.unit s.arg.other x = some (q, s1)) :
    exec .streamInputFill s = .next (s1.putStream s.arg.unit s.arg.other (x.took q)) := by
  have he : exec .streamInputFill s = execStreamInputFill s := rfl
  have hgoes : ¬(s.tileStill (tileOfCore s.arg.unit) ∨ !x.bound ∨ x.output ∨ x.fault.isSome ∨ x.fifo.length ≥ 8 ∨ x.fetched ≥ x.total ∨ !s.streamOpen x) := by
    simp [hstill, hbound, hin, hfault, hroom, hmore, hopen]
  simp only [he, execStreamInputFill, hx, if_neg hgoes, hstep]
  cases q <;> rfl

/-! ### Output steps (R191, R193) -/

theorem State.streams_updFiring (s : State) (n : Nat) (f : Ctx → Ctx) (k : Nat) : ((s.updFiring n f).coreOf k).streams = (s.coreOf k).streams := by
  have h := KMap.get_map (m := s.cores) (d := {}) (k := k)
    (fun _ (c : Core) => { c with parked := c.parked.map (fun q => (q.1, if q.2.firing = n then f q.2 else q.2)) }) (.inr rfl)
  exact (congrArg Core.streams h).trans rfl

theorem State.countCore_parts (s : State) (k : Nat) (c : Option Nat) (ev n : Nat) :
    (s.countCore k c ev n).net = s.net ∧ ∀ i, ((s.countCore k c ev n).coreOf i).streams = (s.coreOf i).streams := by
  refine ⟨?_, fun i => ?_⟩
  · obtain h | ⟨cs, h⟩ := s.countCore_cases k c ev n <;> simp [h]
  · obtain ⟨cs, h⟩ := s.coreOf_countCore k c ev n i
    rw [h]

/-- Between two states a firing has sent accesses, and neither a stream nor the end of a killed firing has come of it. -/
structure SentAlong (s t : State) (l : List Access) : Prop where
  net : t.net = s.net ++ l
  streams : ∀ k, (t.coreOf k).streams = (s.coreOf k).streams
  kill : noKill s → noKill t

theorem SentAlong.refl (s : State) : SentAlong s s [] := ⟨(List.append_nil _).symm, fun _ => rfl, id⟩

theorem SentAlong.trans {s t u : State} {l m : List Access} (h : SentAlong s t l) (h' : SentAlong t u m) : SentAlong s u (l ++ m) where
  net := by rw [h'.net, h.net, List.append_assoc]
  streams k := (h'.streams k).trans (h.streams k)
  kill := h'.kill ∘ h.kill

theorem State.streamPieces_nil (s : State) (core n : Nat) (x : Stream) (data : Nat) : s.streamPieces core n x [] data = s := by rw [State.streamPieces]

/-- The first piece of a step leaves, and then the others. -/
theorem State.streamPieces_cons (s : State) (core n : Nat) (x : Stream) (va g len : Nat) (ps : List (Nat × Nat × Nat)) (data : Nat) :
    ∃ (a : Access) (s1 : State), s.streamPieces core n x ((va, g, len) :: ps) data = s1.streamPieces core n x ps (data / 2 ^ (8 * len)) ∧ SentAlong s s1 [a] ∧
      a.kind = .store ∧ a.firing = x.firing ∧ (a.va, a.gpa, a.size) = (va, g, len) ∧ a.data = data % 2 ^ (8 * len) := by
  refine ⟨_, _, rfl, ⟨(State.countCore_parts _ _ _ _ _).1, fun k => ?_, fun h => ?_⟩, ?_, ?_, ?_, ?_⟩
  · exact ((State.countCore_parts _ _ _ _ _).2 k).trans (State.streams_updFiring _ _ _ k)
  · refine noKill_countCore (noKill_updFiring ?_ _ (fun c => c.killed_unackUp _)) _ _ _ _
    exact noKill_of_parts h rfl rfl
  all_goals rfl

/-- The pieces of an output step leave as stores of its firing, with the bytes of the step. -/
theorem State.streamPieces_sends (core n : Nat) (x : Stream) (ps : List (Nat × Nat × Nat)) (data : Nat) (s : State) :
    ∃ l, SentAlong s (s.streamPieces core n x ps data) l ∧ (∀ a ∈ l, a.kind = .store ∧ a.firing = x.firing) ∧
      l.map (fun a => (a.va, a.gpa, a.size)) = ps ∧ accessData l = data % 2 ^ (8 * (l.map (fun a => a.size)).sum) := by
  induction ps generalizing data s with
  | nil => 
    rw [State.streamPieces_nil]
    exact ⟨[], SentAlong.refl s, List.forall_mem_nil _, rfl, by simp [accessData, Nat.mod_one]⟩
  | cons p ps ih =>
    obtain ⟨va, g, len⟩ := p
    obtain ⟨a, s1, heq, hsent, hkind, hfiring, hplace, hdata⟩ := s.streamPieces_cons core n x va g len ps data
    obtain ⟨l, hrest, hstores, hplaces, hbytes⟩ := ih (data / 2 ^ (8 * len)) s1
    refine ⟨a :: l, ?_, ?_, ?_, ?_⟩
    · rw [heq]
      exact hsent.trans hrest
    · simpa using ⟨⟨hkind, hfiring⟩, hstores⟩
    · rw [List.map_cons, hplace, hplaces]
    · have hsize : a.size = len := congrArg (fun p : Nat × Nat × Nat => p.2.2) hplace
      rw [accessData, hbytes, hdata, hsize, List.map_cons, List.sum_cons, hsize, Nat.mul_add, pow_add, Nat.mod_mul, Nat.mod_mod]

/-- The state of an output stream when its oldest entry has left. -/
def Stream.stored (x : Stream) (rest : List (List (Nat × Nat × Nat) × Nat)) : Stream := { x with fifo := x.fifo.drop 1, outs := rest, fetched := x.fetched + 1 }

theorem execStreamOutputStore_sends {s : State} {x : Stream} {ps : List (Nat × Nat × Nat)} {b : Nat} {rest : List (List (Nat × Nat × Nat) × Nat)}
    (hx : (s.coreOf s.arg.unit).streamAt s.arg.other = x) (hstill : s.tileStill (tileOfCore s.arg.unit) = false) (hbound : x.bound = true)
    (hout : x.output = true) (hopen : s.streamOpen x = true) (houts : x.outs = (ps, b) :: rest)
    (hroom : ∀ r ∈ s.homeCuts ps, s.unackRoom x.ctx x.firing (State.reachOf (tileOfCore s.arg.unit) (s.homeOf r.2.1)) = true) :
    exec .streamOutputStore s = .next (((s.putStream s.arg.unit s.arg.other (x.stored rest)).streamPieces s.arg.unit s.arg.other x (s.homeCuts ps) b).finishKills x.firing) := by
  have he : exec .streamOutputStore s = execStreamOutputStore s := rfl
  have hgoes : (x.bound && x.output && s.streamOpen x && !s.tileStill (tileOfCore s.arg.unit)) = true := by simp [hbound, hout, hopen, hstill]
  simp only [he, execStreamOutputStore, hx, hgoes, houts, List.all_eq_true.2 hroom, if_true]
  rfl

end Sys2Proof.Machine
end

section
/-! SUPPORT. Uncorrectable errors where they are detected: R125, R153, R173, R233, R246, R247. -/

namespace Sys2Proof.Machine

/-! ### What a port holds after a message of its hardware part is gone (R153) -/

/-- A message that came from an entry of the overflow queue has the words that stand there. -/
def Msg.settledIn (mem : Memory) (k : Nat) (w : Word) (m : Msg) : Msg := match m.slot with
  | some n => { m with slot := none, words := doublewords m.words.length (mem.readLE (oqKey k w n) (8 * m.words.length)) }
  | none => m

theorem Port.settled_eq (q : Port) (mem : Memory) (k : Nat) : q.settled mem k = { q with hwPart := q.hwPart.map (Msg.settledIn mem k q.word) } := by
  unfold Port.settled
  split
  next h =>
    have hsame : ∀ m ∈ q.hwPart, Msg.settledIn mem k q.word m = m := fun m hm => by
      have hnone : m.slot = none := by simpa using List.all_eq_true.1 h m hm
      simp only [Msg.settledIn, hnone]
    rw [List.map_congr_left hsame, List.map_id']
  · rfl

/-- The overflow messages that move into the hardware part are the oldest ones. -/
theorem Port.refillGo_effects (n : Nat) (p : Port) :
    (Port.refillGo n p).hwPart ++ (Port.refillGo n p).oq = p.hwPart ++ p.oq ∧ (∃ j, (Port.refillGo n p).oq = p.oq.drop j) ∧ (Port.refillGo n p).word = p.word := by
  induction n generalizing p with
  | zero => exact ⟨rfl, ⟨0, rfl⟩, rfl⟩
  | succ n ih =>
    unfold Port.refillGo
    split
    · exact ⟨rfl, ⟨0, rfl⟩, rfl⟩
    next m r hoq =>
      split
      · obtain ⟨hall, ⟨j, hj⟩, hword⟩ := ih { p with hwPart := p.hwPart ++ [m], oq := r }
        exact ⟨by rw [hall, hoq, List.append_assoc]; rfl, ⟨j + 1, by rw [hj, hoq]; rfl⟩, hword⟩
      · exact ⟨rfl, ⟨0, rfl⟩, rfl⟩

theorem Port.refill_effects (p : Port) : p.refill.hwPart ++ p.refill.oq = p.hwPart ++ p.oq ∧ (∃ j, p.refill.oq = p.oq.drop j) ∧ p.refill.word = p.word :=
  Port.refillGo_effects _ p

/-- A port that is refilled holds what it held, and its hardware part has the words of what came from the overflow queue. -/
theorem portHolds_of_refill (s : State) (k : Nat) {q r : Port} (hoq : r.oq = q.oq) (hword : r.word = q.word) :
    portHolds s (tileOfCore k) q (r.refill.settled s.mem k) (r.hwPart ++ r.oq) := by
  obtain ⟨hall, ⟨j, hj⟩, hw⟩ := r.refill_effects
  rw [portHolds, Port.settled_eq, ← hall]
  refine ⟨?_, ⟨j, by rw [hj, hoq]⟩, fun i m hm => ?_⟩
  · simp only [List.map_append, List.map_map]
    congr 1
    refine List.map_congr_left fun m _ => ?_
    simp only [Function.comp, Msg.settledIn]
    split <;> rfl
  · rw [List.getElem?_map] at hm
    obtain ⟨m0, hm0, rfl⟩ := Option.map_eq_some_iff.1 hm
    refine ⟨m0, ?_, ?_⟩
    · rw [List.getElem?_append_left (List.getElem?_eq_some_iff.1 hm0).1, hm0]
    · rw [hw, hword, Msg.settledIn]
      cases m0.slot <;> rfl

theorem State.portAt_updPort (s : State) (k a p : Nat) (f : Port → Port) :
    (((s.updPort k a p f).coreOf k).actorAt a).portAt p = f (((s.coreOf k).actorAt a).portAt p) := by
  simp [State.updPort, State.updActor, Core.actorAt, Actor.portAt]

/-! ### The events (R247) -/

section
variable {s : State}

theorem State.poisonLine_effects (s : State) (l : Nat) : l ∈ (s.poisonLine l).poison ∧ (s.poisonLine l).mem = s.mem ∧ (s.poisonLine l).ctxs = s.ctxs := by
  unfold State.poisonLine
  split
  · exact ⟨by simpa using ‹s.poison.contains l = true›, rfl, rfl⟩
  · exact ⟨by simp, rfl, rfl⟩

/-- An error in a line of this device poisons the line, and neither memory nor a context changes before it is read (R125). -/
theorem execUeDetect_poisons (h : s.arg.level ≤ 1) : ∃ t, exec .ueDetect s = .next t ∧ s.arg.addr ∈ t.poison ∧ t.mem = s.mem ∧ t.ctxs = s.ctxs := by
  have he : exec .ueDetect s = execUeDetect s := rfl
  obtain hlevel | hlevel : s.arg.level = 0 ∨ s.arg.level = 1 := by omega
  · simp only [he, execUeDetect, hlevel]
    split
    · exact ⟨_, rfl, by simpa using ‹s.poison.contains s.arg.addr = true›, rfl, rfl⟩
    · exact ⟨_, rfl, s.poisonLine_effects s.arg.addr⟩
  · simp only [he, execUeDetect, hlevel]
    exact ⟨_, rfl, s.poisonLine_effects s.arg.addr⟩

/-- An error in the image of a running context freezes it (R247). -/
theorem execUeDetect_freezes (hlevel : s.arg.level = 2) (hflag : s.arg.flag = false) (hocc : (s.ctxOf s.arg.unit).occ = true)
    (hkilled : (s.ctxOf s.arg.unit).killed = 0) (hlines : ∃ l ∈ s.arg.list, l < 16) :
    ∃ t, exec .ueDetect s = .next t ∧ (t.ctxOf s.arg.unit).st = 1 ∧ (t.ctxOf s.arg.unit).cause = Cause.ueRegcache ∧
      (t.ctxOf s.arg.unit).pc = (s.ctxOf s.arg.unit).pc := by
  have he : exec .ueDetect s = execUeDetect s := rfl
  have hsome : s.arg.list.filter (· < 16) ≠ [] := by
    obtain ⟨l, hl, hlt⟩ := hlines
    exact List.ne_nil_of_mem (List.mem_filter.2 ⟨hl, decide_eq_true hlt⟩)
  have hgoes : ¬(!(s.ctxOf s.arg.unit).occ ∨ (s.ctxOf s.arg.unit).killed ≠ 0) := by simp [hocc, hkilled]
  simp only [he, execUeDetect, hlevel, if_neg hsome, hflag, Bool.false_eq_true, if_false, if_neg hgoes]
  refine ⟨_, rfl, ?_⟩
  obtain ⟨hst, hcause, -, hpc⟩ := State.freeze_freezes (s.updCtx s.arg.unit _) s.arg.unit _
  exact ⟨hst, hcause, hpc.trans (by rw [State.ctxOf_updCtx_self])⟩

/-- An error in a message of a port takes it out, and bounces it (R173, R247). -/
theorem execUeDetect_bounces {m : Msg} (hlevel : s.arg.level = 4)
    (hm : (((s.coreOf s.arg.unit).actorAt s.arg.other).portAt s.arg.addr).hwPart[s.arg.value]? = some m) (hhw : m.hw = false) (hvn : m.vn ≠ 1)
    (hsrc : m.srcCore < 21600) :
    let q := ((s.coreOf s.arg.unit).actorAt s.arg.other).portAt s.arg.addr
    ∃ t, exec .ueDetect s = .next t ∧
      portHolds s (tileOfCore s.arg.unit) q (((t.coreOf s.arg.unit).actorAt s.arg.other).portAt s.arg.addr) (setAt q.hwPart s.arg.value none ++ q.oq) ∧
      ∃ b, t.flying = s.flying ++ [b] ∧ IsBounce s b m Cause.uePort := by
  intro q
  have he : exec .ueDetect s = execUeDetect s := rfl
  let gone : Port → Port := fun q => (Port.refill { q with hwPart := setAt q.hwPart s.arg.value none }).settled s.mem s.arg.unit
  let u := s.updPort s.arg.unit s.arg.other s.arg.addr gone
  have hx : exec .ueDetect s = .next (u.bounceAt m Cause.uePort s.arg.unit) := by
    simp only [he, execUeDetect, hlevel, hm]
    rfl
  obtain ⟨b, hb, hcount⟩ := u.bounceAt_sends Cause.uePort s.arg.unit hhw hsrc hvn
  refine ⟨_, hx, ?_, b, hcount.flying, hb⟩
  have hport : (((u.bounceAt m Cause.uePort s.arg.unit).coreOf s.arg.unit).actorAt s.arg.other).portAt s.arg.addr = gone q := by
    rw [hcount.coreOf]
    exact s.portAt_updPort _ _ _ _
  rw [hport]
  exact portHolds_of_refill s s.arg.unit (r := { q with hwPart := setAt q.hwPart s.arg.value none }) rfl rfl

/-- An error in an engine marks the accumulator or buffer that it is in (R246). -/
theorem execUeDetect_marks (hlevel : s.arg.level = 3) : ∃ t, exec .ueDetect s = .next t ∧
    (tileKind s.arg.unit = 0 → (t.tileOf s.arg.unit).eng.pois = (s.tileOf s.arg.unit).eng.pois ||| BitVec.ofNat 4 (2 ^ (s.arg.other % 4))) ∧
    (tileKind s.arg.unit = 2 → (t.tileOf s.arg.unit).eng.attPois = (s.tileOf s.arg.unit).eng.attPois ||| BitVec.ofNat 4 (2 ^ (s.arg.other % 4))) := by
  have he : exec .ueDetect s = execUeDetect s := rfl
  simp only [he, execUeDetect, hlevel]
  exact ⟨_, rfl, fun hd => by simp [hd], fun ha => by simp [ha]⟩

/-- An error in a barrier empties it (R233, R247). -/
theorem execUeDetect_empties (hlevel : s.arg.level = 5) (hflag : s.arg.flag = false) (hvalid : (s.barAt s.arg.unit s.arg.other).valid = true) :
    ∃ t, exec .ueDetect s = .next t ∧ t.barAt s.arg.unit s.arg.other = {} := by
  have he : exec .ueDetect s = execUeDetect s := rfl
  simp only [he, execUeDetect, hlevel, hflag, hvalid, Bool.not_true, Bool.false_eq_true, if_false]
  exact ⟨_, rfl, by simp [State.barAt, State.updBar]⟩

end

/-! ### What comes back to a core -/

/-- Settles O56: each clause by the lemma that says what its event does. -/
theorem repliesFillsWalksAndErrors : Obligations.RepliesFillsWalksAndErrors := by
  refine ⟨?_, ?_, ?_, ?_, ?_, ?_, ?_, ?_, ?_, ?_, ?_, ?_, ?_, ?_, ?_, ?_, ?_⟩
  · intro a r s ⟨ha, hw, hstill, _, hr, hfills, hway⟩
    have hcount := s.counted_countReply a
    have hctx := hcount.ctxOf a.ctx
    obtain ⟨hover, hvalue, hfail⟩ := State.answer_effects (waitsFor_of_counted hw hcount) r
    rw [State.id_of_accOf ha] at hover
    refine ⟨_, execAccessReply_answers ha hw hstill hr hfills hway, hover, fun v h => ?_, fun c n h => ?_⟩
    · rw [hvalue v h, hctx]
    · rw [hfail c n h, hctx]
      exact ⟨rfl, rfl, rfl, rfl⟩
  · intro a s ⟨ha, hw, hstill, hreach, hr, hflag⟩
    obtain ⟨hover, hvalue, -⟩ := State.answer_effects hw (.value (s.arg.list.headD 0))
    rw [State.id_of_accOf ha] at hover
    exact ⟨_, execAccessReply_fromOutside ha hw hstill hreach hr hflag, hover, by rw [hvalue _ rfl]⟩
  · intro a s ⟨ha, hw, hreach, hr, hlate⟩
    obtain ⟨hover, -, hfail⟩ := State.answer_effects hw (.failed .respTimeout 0)
    rw [State.id_of_accOf ha] at hover
    refine ⟨_, execRespTimeout_answers ha hw hreach hr hlate, hover, ?_⟩
    rw [hfail _ _ rfl]
    exact ⟨rfl, rfl⟩
  · intro a r i s ⟨ha, hsilent, hhold, hstill, _, hr, hway, hkill, hocc, hfiring⟩
    obtain ⟨hover, hkept, hctx⟩ := s.acked_effects a r
    have hx := execStoreAck_acks ha hsilent hhold hstill hr hway
    rw [State.finishKills_of_noKill (hkept hkill)] at hx
    rw [State.id_of_accOf ha] at hover
    refine ⟨_, hx, hover, fun v h => ?_, fun c n h => ?_⟩
    · rw [hctx i hocc hfiring, h]
      rfl
    · rw [hctx i hocc hfiring, h]
      rfl
  · intro s ⟨hmiss, hstill, hway⟩
    obtain ⟨m, hm⟩ := KMap.has_iff.1 hmiss
    exact ⟨_, execSliceFill_fills hm hstill hway, KMap.has_iff.2 ⟨_, KMap.find?_put_self _ _ _⟩, State.endMiss_effects _ _⟩
  · intro p e lvl s ⟨hp, hroot, hva, hwalk, hkind⟩
    refine ⟨_, execPageWalk_fills hp hroot hva hwalk hkind, ?_, ?_⟩
    · simpa using mem_keepEntry _ (by decide) _
    · simpa using mem_keepEntry _ (by decide) _
  · exact fun s _ => ⟨_, rfl, by simp [State.tlbLowWrite], by simp [State.tlbLowWrite]⟩
  · exact fun s _ => ⟨_, rfl, by simp [State.tlbHighWrite], by simp [State.tlbHighWrite, bitsAt]⟩
  · exact fun r rest p s ⟨hq, hdue, hp⟩ => ⟨_, execTlbinvDone_completes hq hdue hp, s.tlbinvDone_effects _ _ _ _⟩
  · exact fun s _ => ⟨_, rfl, fun r => by simp [List.mem_filter]⟩
  · intro q s1 s ⟨hstill, hbound, hin, hfault, hroom, hmore, hopen, hstep⟩
    refine ⟨_, execStreamInputFill_takes rfl hstill hbound hin hfault hroom hmore hopen hstep, fun v h => ?_, fun c y h => ?_⟩
    · rw [State.streamAt_putStream, h, Stream.took]
    · rw [State.streamAt_putStream, h, Stream.took]
  · intro ps b rest s ⟨hstill, hbound, hout, hopen, houts, hkill, hroom⟩
    let x := (s.coreOf s.arg.unit).streamAt s.arg.other
    obtain ⟨l, hsent, hstores, hplaces, hbytes⟩ :=
      State.streamPieces_sends s.arg.unit s.arg.other x (s.homeCuts ps) b (s.putStream s.arg.unit s.arg.other (x.stored rest))
    have hx := execStreamOutputStore_sends rfl hstill hbound hout hopen houts hroom
    rw [State.finishKills_of_noKill (hsent.kill (noKill_updCore hkill rfl))] at hx
    refine ⟨_, hx, ?_, l, hsent.net, hstores, hplaces, hbytes⟩
    rw [Core.streamAt, hsent.streams, ← Core.streamAt, State.streamAt_putStream]
    rfl
  · exact fun s h => execUeDetect_poisons h
  · exact fun s ⟨hlevel, hflag, hocc, _, hkilled, hlines⟩ => execUeDetect_freezes hlevel hflag hocc hkilled hlines
  · exact fun m s ⟨hlevel, hm, hhw, hvn, hsrc⟩ => execUeDetect_bounces hlevel hm hhw hvn hsrc
  · exact fun s hlevel => execUeDetect_marks hlevel
  · exact fun s ⟨hlevel, hflag, hvalid⟩ => execUeDetect_empties hlevel hflag hvalid

end Sys2Proof.Machine
end

section
/-! SUPPORT. The issue of a bundle by the context that is first in issue order: R142, R184, R275. -/

namespace Sys2Proof.Machine

section
variable {s sA sC : State} {wc wa : Nat} {ic ia : Instr}

theorem runSlot_of_decoded (slotA : Bool) {r : Except Cause Instr} {i : Instr} (h : r = .ok i) (s : State) : runSlot slotA r s = exec i s := by
  rw [h, runSlot]

/-- A slot that ran on neither froze its context, nor stalled it, nor ended its firing. -/
theorem State.ranOn.outcome {t : State} (h : s.ranOn t) : t.isFrozen s.cur = false ∧ t.isStalled s.cur = false ∧ s.sameFiring t s.cur = true := by
  obtain ⟨hst, hstall, hfiring⟩ := h
  exact ⟨by simp [State.isFrozen, hst], by simp [State.isStalled, hstall], by simp [State.sameFiring, hst, hfiring, State.cx]⟩

/-- A pair whose slots both run has the effects of both; where the C slot waits, it has those of the C slot alone (R184). -/
theorem State.slotPair_of_ranA (hseed : writesSeed wc = false) (hdc : decodeC wc = .ok ic) (hda : decodeA wa = .ok ia) (hc : exec ic s = .next sC)
    (hf : sC.isFrozen s.cur = false) (ha : exec ia (s.beforeA sC) = .next sA) (hran : s.ranOn sA) :
    s.slotPair wc wa = .next (if sC.isStalled s.cur || !s.sameFiring sC s.cur then sC else s.withA sA sC) := by
  have hA : exec ia (s.updCurCore (fun k => { k with seed := (sC.coreOf (coreOfCtx s.cur)).seed })) = .next sA := ha
  obtain ⟨haf, has, -⟩ := hran.outcome
  simp only [State.slotPair, runA, hseed, runSlot_of_decoded _ hdc, runSlot_of_decoded _ hda, hc, hf, hA, haf, has, Bool.false_eq_true, if_false, Bool.or_self]
  split <;> rfl

/-- In a pair with `done` or `park` the A slot takes effect first (R309, R310). -/
theorem State.endPair_of_ranA (hdone : s.cx.aDone = false) (hdc : decodeC wc = .ok ic) (hda : decodeA wa = .ok ia) (ha : exec ia s = .next sA)
    (hran : s.ranOn sA) (hc : exec ic ((s.withA sA s).upd (fun c => { c with aDone := true })) = .next sC) (hf : sC.isFrozen s.cur = false) :
    s.endPair wc wa = .next sC := by
  obtain ⟨haf, has, -⟩ := hran.outcome
  simp [State.endPair, runA, hdone, runSlot_of_decoded _ hdc, runSlot_of_decoded _ hda, ha, haf, has, hc, hf]

end

/-- A move of the agenda that asks an open core to issue: where the bundle of its first context runs, and does not wait without an access in flight, the
core records it (R142). -/
theorem step_of_issue {s s1 s2 : State} {rest : List Move} {k d : Nat} (hag : s.agenda = .issue k :: rest) (hk : k < 21600)
    (hlock : (s.hubOf (fieldOfTile (tileOfCore k))).locking = none) (hissued : (s.coreOf k).issued ≠ some (s.cycOf (fieldOfTile (tileOfCore k)))) :
    let i := 8 * k + ((s.coreOf k).last + 1) % 8
    let s0 : State := { s with agenda := rest, cur := i }
    s0.mayIssue i = true → s0.sectionLong = false → s0.cx.nestOk = true → s0.fetch = .ok d s1 → s1.runBundle d = .next s2 →
    ((s1.afterIssue s2 i d).isStalled i = false ∨ ({ s with agenda := rest } : State).newHold (s1.afterIssue s2 i d) i = true) →
    step s = .next (({ s with agenda := rest } : State).issuedBy k i (s1.afterIssue s2 i d)).noted := by
  intro i s0 hmay hsec hnest hfetch hrun hend
  let sr : State := { s with agenda := rest }
  have hopen : sr.issueOpen k = true := by
    simpa [State.issueOpen] using ⟨hlock, hissued⟩
  have hctx : sr.issueCtx i = .next (s1.afterIssue s2 i d) := by
    have hs0 : ({ sr with cur := i } : State) = s0 := rfl
    simp only [State.issueCtx, hs0, hsec, hnest, hfetch, hrun, State.afterIssue, Bool.false_eq_true, Bool.not_true, if_false]
  have hfirst : ∀ is, State.issueFirst k (i :: is) sr = .next (sr.issuedBy k i (s1.afterIssue s2 i d)) := by
    intro is
    have hmay' : sr.mayIssue i = true := hmay
    have hgo : ((s1.afterIssue s2 i d).isStalled i && !sr.newHold (s1.afterIssue s2 i d) i) = false := by
      obtain h | h := hend
      · rw [h, Bool.false_and]
      · rw [h, Bool.not_true, Bool.and_false]
    simp only [State.issueFirst, hmay', hctx, hgo, Bool.not_true, Bool.false_eq_true, if_false]
  have hcore : sr.issueCore k = .next (sr.issuedBy k i (s1.afterIssue s2 i d)) := by
    have horder : ∃ is, sr.issueOrder k = i :: is := ⟨_, rfl⟩
    obtain ⟨is, horder⟩ := horder
    rw [State.issueCore, hopen, horder, hfirst]
    rfl
  rw [step, State.stepOnce, State.move, hag]
  simp only [hk, if_true]
  rw [hcore]

/-- Settles O7: each form of bundle by what `runBundle` gives, and the rest of the step by `step_of_issue`. -/
theorem aStepRunsTheDecodedInstruction : Obligations.AStepRunsTheDecodedInstruction := by
  unfold Obligations.AStepRunsTheDecodedInstruction
  intro s s1 rest k d hag hk hlock hissued i s0 w0 w1 hmay hsec hnest hfetch hcause
  have hcur : s1.cur = i := State.cur_fetch hfetch
  have hstep {t : State} (hrun : s1.runBundle d = .next t) := step_of_issue hag hk hlock hissued hmay hsec hnest hfetch hrun
  have hwide (h : 2 ^ 31 ≤ w0) : s1.runBundle d = runSlot false (decodeWide w0 w1) s1 := by
    have hbit : d % 2 ^ 32 / 2 ^ 31 = 1 := by omega
    simp only [State.runBundle, hcause, hbit, if_true]
    rfl
  have hpair (h : w0 < 2 ^ 31) : s1.runBundle d = if endsFiring w0 then s1.endPair w0 w1 else s1.slotPair w0 w1 := by
    have hbit : d % 2 ^ 32 / 2 ^ 31 ≠ 1 := by omega
    simp only [State.runBundle, hcause, hbit, if_false]
    rfl
  refine ⟨?_, ?_, ?_, ?_⟩
  · intro instr t hw hd he hs
    exact hstep (by rw [hwide hw, runSlot_of_decoded _ hd, he]) (.inl hs)
  · intro ic ia tc ta hw hends hseed hdc hda hc hrc ha hra hs
    obtain ⟨hf, hst, hsame⟩ := hrc.outcome
    refine hstep ?_ (.inl hs)
    rw [hpair hw, hends, if_neg Bool.false_ne_true, State.slotPair_of_ranA hseed hdc hda hc hf ha hra, hst, hsame]
    rfl
  · intro ic ia tc ta hw hends hdone hdc hda ha hra hc hst hs
    have hf : tc.isFrozen s1.cur = false := by simpa [State.isFrozen, hcur] using hst
    exact hstep (by rw [hpair hw, if_pos hends, State.endPair_of_ranA hdone hdc hda ha hra hc hf]) (.inl hs)
  · intro ic ia tc ta hw hends hseed hdc hda hc hst hstall ha hra hhold
    have hf : tc.isFrozen s1.cur = false := by simpa [State.isFrozen, hcur] using hst
    refine hstep ?_ (.inr hhold)
    rw [hpair hw, hends, if_neg Bool.false_ne_true, State.slotPair_of_ranA hseed hdc hda hc hf ha hra, hcur, hstall]
    rfl

end Sys2Proof.Machine
end

section
/-! SUPPORT. The `launch` instruction: R131 to R133, R182, R183, R405. -/

namespace Sys2Proof.Machine

/-! ### What an instruction leaves behind that has made a read at once, and counted what its release leaves out (R101, R206, R215)

A read counts in hubs and slices, fills lines, and is compared with that of a doubles partner; a release counts stores outside its scope, once each. -/

/-- A context but for the comparisons that wait for its partner, and for the stores that its releases left out. -/
def Ctx.unread (c : Ctx) : Ctx := { c with pairReads := [], scope := 0 }

/-- Between two states reads at once have been made and releases have counted, and nothing else has changed. -/
structure ReadMade (s t : State) : Prop where
  rest : SameBut (fun u => { u with hubs := [], tiles := [], cached := [], ctxs := [], net := [] }) Hub.uncounted s t
  ctx : ∀ i, (t.ctxOf i).unread = (s.ctxOf i).unread

namespace ReadMade

variable {s t u : State}

theorem refl (s : State) : ReadMade s s := ⟨SameBut.refl s, fun _ => rfl⟩

theorem trans (h : ReadMade s t) (h' : ReadMade t u) : ReadMade s u := ⟨h.rest.trans h'.rest, fun i => (h'.ctx i).trans (h.ctx i)⟩

/-- Such changes one after another. -/
theorem foldl {α : Type} {g : State → α → State} (hg : ∀ s x, ReadMade s (g s x)) (l : List α) (s : State) : ReadMade s (l.foldl g s) :=
  List.foldlRecOn l g (refl s) (fun _ h x _ => h.trans (hg _ x))

theorem of_counted (h : Counted s t) : ReadMade s t :=
  ⟨⟨congrArg (fun v : State => { v with tiles := [], cached := [], ctxs := [], net := [] }) h.rest, h.hub⟩, fun i => congrArg Ctx.unread (h.ctxOf i)⟩

/-- A change of one context that leaves all but the masked fields. -/
theorem of_updCtx (s : State) (i : Nat) {g : Ctx → Ctx} (h : (g (s.ctxOf i)).unread = (s.ctxOf i).unread) : ReadMade s (s.updCtx i g) := by
  refine ⟨⟨rfl, fun _ => rfl⟩, fun j => ?_⟩
  rw [State.ctxOf_updCtx]
  split
  · subst j
    exact h
  · rfl

theorem cur (h : ReadMade s t) : t.cur = s.cur := h.rest.part State.cur (fun _ => rfl)
theorem mem (h : ReadMade s t) : t.mem = s.mem := h.rest.part State.mem (fun _ => rfl)
theorem core (h : ReadMade s t) : t.core = s.core := h.rest.part State.core (fun _ => rfl)

theorem cx (h : ReadMade s t) : t.cx.unread = s.cx.unread := by
  rw [State.cx, State.cx, h.cur]
  exact h.ctx s.cur

/-- A part of the issuing context that the mask keeps. -/
theorem cxPart {α : Type} (h : ReadMade s t) (p : Ctx → α) (hp : ∀ c : Ctx, p c.unread = p c) : p t.cx = p s.cx := by
  rw [← hp t.cx, h.cx, hp s.cx]

theorem launches (h : ReadMade s t) : t.hub.launches = s.hub.launches := by
  rw [State.hub, State.hub, h.cur]
  exact h.rest.hubPart Hub.launches (fun _ => rfl) _

theorem launchRoom (h : ReadMade s t) (n : Nat) : t.hub.launchRoom n = s.hub.launchRoom n := by
  rw [Hub.launchRoom, Hub.launchRoom, h.launches]

theorem x (h : ReadMade s t) (r : BitVec 5) : t.x r = s.x r := by
  rw [State.x, State.x, h.cxPart Ctx.x (fun _ => rfl)]

end ReadMade

theorem State.readMade_countSlice (s : State) (tile tag ev n : Nat) : ReadMade s (s.countSlice tile tag ev n) := by
  unfold State.countSlice
  split
  · exact ReadMade.refl s
  · exact ⟨⟨rfl, fun _ => rfl⟩, fun _ => rfl⟩

theorem State.readMade_countFabric (s : State) (f ev n : Nat) : ReadMade s (s.countFabric f ev n) := .of_counted (s.counted_countFabric f ev n)

theorem State.readMade_countHome (s : State) (tag g : Nat) (ms : List Nat) : ReadMade s (s.countHome tag g ms) := by
  unfold State.countHome
  split
  · exact ((State.readMade_countSlice _ _ _ _ _).trans (State.readMade_countSlice _ _ _ _ _)).trans (State.readMade_countSlice _ _ _ _ _)
  · exact ReadMade.refl s

theorem State.readMade_noteRead (src tag : Nat) (raw : Bool) (s : State) (p : Nat × Nat) : ReadMade s (State.noteRead src tag raw s p) := by
  have hfar (s : State) (b : Bool) (f ev n : Nat) : ReadMade s (if b = true then s.countFabric f ev n else s) := by
    split
    · exact s.readMade_countFabric f ev n
    · exact ReadMade.refl s
  let ms := if raw then [] else s.missesOf [p]
  let s1 := (if decide (s.homeOf p.1 ≠ .tile src) = true then s.countFabric (fieldOfTile src) 0x40 (Config.flits 0) else s).countHome tag p.1 ms
  let s2 : State := { s1 with cached := (ms.filter (fun l => !s.misses.has l)).foldl (fun m l => m.put l tag) s.cached }
  have h1 : ReadMade s s1 := (hfar _ _ _ _ _).trans (State.readMade_countHome _ _ _ _)
  have h2 : ReadMade s s2 := h1.trans ⟨⟨rfl, fun _ => rfl⟩, fun _ => rfl⟩
  unfold State.noteRead
  simp only
  split
  · exact h2.trans (hfar _ _ _ _ _)
  · exact h2.trans (State.readMade_countFabric _ _ _ _)
  · exact h2

theorem State.readMade_noteReads (s : State) (src tag : Nat) (runs : List (Nat × Nat)) (raw : Bool) : ReadMade s (s.noteReads src tag runs raw) :=
  ReadMade.foldl (State.readMade_noteRead src tag raw) _ s

/-- A packet is compared with the partner's, or stays to be compared (R46, R47). -/
theorem State.readMade_pairPost (n ch : Nat) (s : State) (r : Nat × Nat × Nat) : ReadMade s (State.pairPost n ch s r) := by
  unfold State.pairPost
  split
  · exact ReadMade.refl s
  · simp only
    split
    · split
      · exact .of_updCtx s _ rfl
      · exact .of_updCtx s _ rfl
    · exact .of_updCtx s _ rfl

theorem State.readMade_ownPosts (s : State) (runs : List (Nat × Nat)) : ReadMade s (s.ownPosts runs) := by
  unfold State.ownPosts
  split
  · exact ReadMade.refl s
  · exact ReadMade.foldl (fun s _ => State.readMade_pairPost _ _ s _) _ s

theorem State.readMade_afterRead (s : State) (va size : Nat) : ReadMade s (s.afterRead va size) := by
  unfold State.afterRead
  split
  · split
    · exact State.readMade_noteReads _ _ _ _ _
    · exact (s.readMade_ownPosts _).trans (State.readMade_noteReads _ _ _ _ _)
  · exact ReadMade.refl s

theorem State.readMade_countScope (s : State) (scope : Nat) : ReadMade s (s.countScope scope) := by
  let m : State := { s with net := s.net.map (fun a => if s.outsideScope scope a then { a with counted := true } else a) }
  have hm : ReadMade s m := ⟨⟨rfl, fun _ => rfl⟩, fun _ => rfl⟩
  have hc : ReadMade m (s.countScope scope) := .of_updCtx m m.cur (g := fun c => c.countScope (s.net.filter (s.outsideScope scope)).length) rfl
  exact hm.trans hc

/-- The PC after retirement: the first bundle of the innermost loop's body from its last one while the loop goes on, else the next address (R197). -/
theorem Ctx.pc_retireTo (c : Ctx) (npc : Word) : (c.retireTo npc).pc =
    if c.depthOf ≠ 0 ∧ (c.pc.toNat = c.bodyLast (c.depthOf - 1) ∧ npc = c.pc + 8) ∧ 1 < lcCount (c.lcAt (c.depthOf - 1)) then
      BitVec.ofNat 64 (c.bodyFirst (c.depthOf - 1)) else npc := by
  unfold Ctx.retireTo
  simp only
  by_cases h0 : c.depthOf = 0
  · simp [h0]
  · by_cases hend : c.pc.toNat = c.bodyLast (c.depthOf - 1) ∧ npc = c.pc + 8
    · by_cases hn : 1 < lcCount (c.lcAt (c.depthOf - 1))
      · rw [if_neg h0, if_pos hend, if_pos hn, if_pos ⟨h0, hend, hn⟩]
      · rw [if_neg h0, if_pos hend, if_neg hn, if_neg (fun h => hn h.2.2)]
    · rw [if_neg h0, if_neg hend, if_neg (fun h => hend h.2.1)]

/-- It depends on the PC, the loop counters and the firing's code alone. -/
theorem Ctx.pc_retireTo_congr {c d : Ctx} (h : { c with x := [] }.unread = { d with x := [] }.unread) (npc : Word) : (c.retireTo npc).pc = (d.retireTo npc).pc := by
  have hc : ({ c with x := [] }.unread.retireTo npc).pc = (c.retireTo npc).pc := by
    rw [Ctx.pc_retireTo, Ctx.pc_retireTo]
    rfl
  rw [← hc, h, Ctx.pc_retireTo, Ctx.pc_retireTo]
  rfl

/-- A result in a state whose issuing context is that of `s` but for what reads and releases count: the bundle falls through with its result. -/
theorem State.result_of_unread {s u : State} (h : u.cx.unread = s.cx.unread) (r : BitVec 5) (v : Word) :
    (u.setX r v).fall.cx.pc = s.fall.cx.pc ∧ (u.setX r v).fall.x r = (if r = 0 then 0 else v) ∧ ∀ q, q ≠ r → (u.setX r v).fall.x q = s.x q := by
  have hpc : u.cx.pc = s.cx.pc := (congrArg Ctx.pc h :)
  have hx : u.cx.x = s.cx.x := (congrArg Ctx.x h :)
  refine ⟨?_, ?_, fun q hq => ?_⟩
  · have hset : (u.setX r v).cx.pc = s.cx.pc := by rw [State.cx_setX, hpc]
    rw [State.fall_eq, State.fall_eq, State.cx_retire, State.cx_retire, hset]
    refine Ctx.pc_retireTo_congr ?_ _
    rw [State.cx_setX]
    exact congrArg (fun c : Ctx => { c with x := [] }) h
  · rw [State.x_fall, State.x_setX, if_pos rfl]
  · rw [State.x_fall, State.x_setX, if_neg hq, State.x, State.x, hx]

/-- A result leaves the hubs. -/
theorem State.hubOf_fall_setX (s : State) (r : BitVec 5) (v : Word) (f : Nat) : (s.setX r v).fall.hubOf f = s.hubOf f :=
  State.hubOf_congr (State.hubs_setX s r v) f

/-! ### Parking (R182, R183, R249) -/

/-- A firing that parks stands in the park area while there is room, else in place. -/
theorem State.parkFiring_effects (s : State) (reason : Cause) :
    (s.parkFiring reason).hubs = s.hubs ∧ (s.parkFiring reason).cur = s.cur ∧
    (s.core.parkRoom = false → (s.parkFiring reason).cx.st = 2 ∧ (s.parkFiring reason).cx.reason = reason ∧ (s.parkFiring reason).cx.pc = s.cx.pc) ∧
    (s.core.parkRoom = true → inParkArea s (s.parkFiring reason) reason s.cx.pc) := by
  let g : Ctx → Ctx := fun c => { c with st := 2, reason := reason, haltAt := s.rtime, stall := none, reported := false, hold := none, reply := none }
  have hpark : s.parkFiring reason = (s.upd g).toParkArea s.cur := rfl
  have hctx : (s.upd g).ctxOf s.cur = g s.cx := s.cx_upd g
  by_cases hroom : s.core.parkRoom = true
  · have hin : (s.upd g).toParkArea s.cur = ({ s.upd g with ctxs := (s.upd g).ctxs.put s.cur {} } : State).updCurCore
        (fun k => { k with parked := k.parked.put (lowestFree s.core.parked 64 0) { (s.upd g).ctxOf s.cur with slot := s.cur } }) := if_pos hroom
    rw [hpark, hin]
    refine ⟨rfl, rfl, fun h => absurd hroom (by simp [h]), fun _ => ⟨?_, lowestFree s.core.parked 64 0, ?_⟩⟩
    · exact KMap.get_put_self _ _ _ _
    · rw [State.core_updCurCore]
      simp only [KMap.get_put_self, hctx]
      exact ⟨rfl, rfl, rfl, rfl, rfl⟩
  · have hstay : (s.upd g).toParkArea s.cur = s.upd g := if_neg hroom
    rw [hpark, hstay]
    refine ⟨rfl, rfl, fun _ => ?_, fun h => absurd h hroom⟩
    rw [State.cx_upd]
    exact ⟨rfl, rfl, rfl⟩

/-! ### Entries of the launch queue (R132) -/

/-- The lowest place that a map does not hold lies below a bound if any free place does. -/
theorem lowestFree_lt {α : Type} {m : KMap α} : ∀ (fuel n : Nat), (∃ j, n ≤ j ∧ j < n + fuel ∧ m.has j = false) → lowestFree m fuel n < n + fuel
  | 0, n, ⟨j, hn, hj, _⟩ => by omega
  | fuel + 1, n, ⟨j, hn, hj, hfree⟩ => by
    unfold lowestFree
    split
    · have hne : j ≠ n := by
        rintro rfl
        simp_all
      have := lowestFree_lt fuel (n + 1) ⟨j, by omega, by omega, hfree⟩
      omega
    · omega

/-- An identifier names the field and the place of its entry. -/
theorem launchField_and_place (device seq : Nat) {f place : Nat} (hf : f < 128) (hp : place < 64) :
    launchField (device * 2 ^ 54 + f * 2 ^ 47 + place * 2 ^ 41 + seq % 2 ^ 41) = f ∧
    launchPlace (device * 2 ^ 54 + f * 2 ^ 47 + place * 2 ^ 41 + seq % 2 ^ 41) = place := by
  simp only [launchField, launchPlace, bitsAt]
  omega

/-- A hub whose launch queue has taken an entry at a place. -/
def Hub.enqueued (place : Nat) (e : Launch) (h : Hub) : Hub := { h with launches := h.launches.put place e, lseq := h.lseq + 1 }

/-- The entry of an accepted launch, and its place: the lowest free one of the queue. -/
theorem State.acceptLaunch_eq (s : State) (f : Nat) (h : Header) (mask : List Nat) (depth level : Nat) (who : Issuer) (shared : Bool) :
    ∃ id e, s.acceptLaunch f h mask depth level who shared =
        (id, s.updHub f (Hub.enqueued (lowestFree (s.hubOf f).launches 64 0) e)) ∧
      id = s.loith.device * 2 ^ 54 + f * 2 ^ 47 + lowestFree (s.hubOf f).launches 64 0 * 2 ^ 41 + (s.hubOf f).lseq % 2 ^ 41 ∧
      e.id = id ∧ e.header = h ∧ e.mask = mask ∧ e.depth = depth ∧ e.host = who.host ∧ e.parentCore = who.core :=
  ⟨_, _, rfl, rfl, rfl, rfl, rfl, rfl, rfl, rfl⟩

/-- An accepted launch stands in the queue of its field, under its identifier, whatever else changes in the hub. -/
theorem State.launchOf_accepted (s : State) {f : Nat} (h : Header) (mask : List Nat) (depth level : Nat) (who : Issuer) (shared : Bool)
    (hf : f < 128) (hroom : ∃ n, n < 64 ∧ (s.hubOf f).launches.has n = false) :
    ∃ id e put, s.acceptLaunch f h mask depth level who shared = (id, s.updHub f put) ∧
      (∀ t : State, (t.hubOf f).launches = (put (s.hubOf f)).launches → t.launchOf id = some e) ∧
      e.id = id ∧ e.header = h ∧ e.mask = mask ∧ e.depth = depth ∧ e.host = who.host ∧ e.parentCore = who.core := by
  obtain ⟨n, hn, hfree⟩ := hroom
  have hp : lowestFree (s.hubOf f).launches 64 0 < 64 := lowestFree_lt 64 0 ⟨n, Nat.zero_le n, by omega, hfree⟩
  obtain ⟨id, e, hacc, hid, he⟩ := s.acceptLaunch_eq f h mask depth level who shared
  obtain ⟨hfield, hplace⟩ := launchField_and_place s.loith.device (s.hubOf f).lseq hf hp
  rw [← hid] at hfield hplace
  refine ⟨id, e, _, hacc, fun t ht => ?_, he⟩
  have hin : launchIn (t.hubOf f).launches id = some e := by
    rw [launchIn, hplace, ht, Hub.enqueued, KMap.find?_put_self]
    exact if_pos (decide_eq_true he.1)
  rw [State.launchOf, hfield, hin]

/-! ### The instruction (R131 to R133, R405) -/

/-- The fields of a launch: those of its mask, or without one the firing's own. -/
def State.launchMask (s : State) (f : FmtWE) : List Nat :=
  if f.xb = 0 then [fieldOfCtx s.cur] else maskFields (s.x f.xb) (s.x (f.xb + 1))

/-- Who a launch of the issuing firing comes from: its core, and an actor's firing with the capability that its completion goes to (R132, R147). -/
def State.launchIssuer (s : State) : Issuer :=
  let actor := !s.cx.pool && !s.cx.task
  let lo := if actor then capWithRights (s.selfWord 0) 1 (s.core.actorAt s.cx.act).portMask else 0
  { core := coreOfCtx s.cur, act := if actor then some s.cx.act else none, lo := lo, hi := if actor then s.sealWord lo else 0 }

/-- The state in which a launch with a place has entered the queue, and its identifier stands in XC (R132, R133). -/
def State.launched (s : State) (f : FmtWE) (own : Nat) (d : List Word) (mask : List Nat) (shared : Bool) : State :=
  let r := (s.countScope 4).acceptLaunch own d mask (s.cx.depth + 1) (if s.tag = 0 then 2 else 0) s.launchIssuer shared
  ((r.2.updHub own (fun h => { h with lwaiters := h.lwaiters.filter (· ≠ s.cx.firing) })).setX f.xc (BitVec.ofNat 64 r.1)).fall

/-- The state in which the firing waits in `launch.w` for a place (R133). -/
def State.awaitsLaunch (s : State) : State :=
  (s.updCurHub (fun h => { h with lwaiters := if h.lwaiters.contains s.cx.firing then h.lwaiters else h.lwaiters ++ [s.cx.firing] })).parkFiring .launchQfull

/-- What a launch does with the header that it has read (R405). -/
def State.enterLaunch (s : State) (f : FmtWE) (own : Nat) (d : List Word) (mask : List Nat) (maskBad : Bool) : Out :=
  match s.launchCause d mask maskBad with
  | some c => s.faultC c
  | none => match s.hub.launchRoom (s.cx.depth + 1) with
    | some shared => .next (s.launched f own d mask shared)
    | none =>
      if f.opt = 0 then .next (((s.countScope 4).setX f.xc (BitVec.ofNat 64 (2 ^ 64 - 1))).fall)
      else if s.cx.np then s.faultC .npState else .next s.awaitsLaunch

section
variable {f : FmtWE} {s : State}

section
variable {own : Nat} {d : List Word} {mask : List Nat} {maskBad : Bool}

theorem State.enterLaunch_refused {c : Cause} (h : s.launchCause d mask maskBad = some c) : s.enterLaunch f own d mask maskBad = s.faultC c := by
  unfold State.enterLaunch
  rw [h]

theorem State.enterLaunch_placed {shared : Bool} (h : s.launchCause d mask maskBad = none) (hr : s.hub.launchRoom (s.cx.depth + 1) = some shared) :
    s.enterLaunch f own d mask maskBad = .next (s.launched f own d mask shared) := by
  unfold State.enterLaunch
  rw [h, hr]

theorem State.enterLaunch_full (h : s.launchCause d mask maskBad = none) (hr : s.hub.launchRoom (s.cx.depth + 1) = none) :
    s.enterLaunch f own d mask maskBad = if f.opt = 0 then .next (((s.countScope 4).setX f.xc (BitVec.ofNat 64 (2 ^ 64 - 1))).fall)
      else if s.cx.np then s.faultC .npState else .next s.awaitsLaunch := by
  unfold State.enterLaunch
  rw [h, hr]

end

theorem execLaunch_waits (ha : s.accepts (.launch f)) (h : s.storesDone 4 = false) : exec (.launch f) s = .next (s.stallOn .waitFence) := by
  show execLaunch f s = _
  rw [execLaunch, State.slotC_of_accepts ha]
  simp [h]

theorem execLaunch_enters {d : List Word} (ha : s.accepts (.launch f)) (h : s.storesDone 4 = true) (hd : s.readDesc (s.x f.xa).toNat 8 = .ok d) :
    exec (.launch f) s = (s.afterRead (s.x f.xa).toNat 64).enterLaunch f (fieldOfCtx s.cur) d (s.launchMask f)
      (decide (f.xb ≠ 0) && bitsOf (s.x (f.xb + 1)) 63 26 ≠ 0) := by
  show execLaunch f s = _
  rw [execLaunch, State.slotC_of_accepts ha]
  simp only [h, Bool.not_true, Bool.false_eq_true, if_false, State.readingDesc, State.reading, hd]
  rfl

variable {t : State}

/-- A launch that has entered the queue: the result falls through with the identifier, under which the entry stands. -/
theorem State.launched_effects (h : ReadMade s t) (d : List Word) (mask : List Nat) (shared : Bool) (hf : fieldOfCtx s.cur < 90)
    (hroom : ∃ n, n < 64 ∧ s.hub.launches.has n = false) :
    let u := t.launched f (fieldOfCtx s.cur) d mask shared
    u.mem = s.mem ∧ u.cx.pc = s.fall.cx.pc ∧ (∀ r, r ≠ f.xc → u.x r = s.x r) ∧
    ∃ id e, u.x f.xc = (if f.xc = 0 then 0 else BitVec.ofNat 64 id) ∧ u.launchOf id = some e ∧ e.id = id ∧ e.header = d ∧ e.mask = mask ∧
      e.depth = s.cx.depth + 1 ∧ e.host = false ∧ e.parentCore = coreOfCtx s.cur := by
  have hc : ReadMade s (t.countScope 4) := h.trans (t.readMade_countScope 4)
  have hcroom : ∃ n, n < 64 ∧ ((t.countScope 4).hubOf (fieldOfCtx s.cur)).launches.has n = false := by
    have hl : ((t.countScope 4).hubOf (fieldOfCtx (t.countScope 4).cur)).launches = s.hub.launches := hc.launches
    rwa [← hc.cur, hl]
  obtain ⟨id, e, put, hacc, hlaunch, hid, hheader, hmask, hdepth, hhost, hparent⟩ := (t.countScope 4).launchOf_accepted d mask (t.cx.depth + 1)
    (if t.tag = 0 then 2 else 0) t.launchIssuer shared (by omega) hcroom
  let w : State := ((t.countScope 4).updHub (fieldOfCtx s.cur) put).updHub (fieldOfCtx s.cur) (fun h => { h with lwaiters := h.lwaiters.filter (· ≠ t.cx.firing) })
  have hu : t.launched f (fieldOfCtx s.cur) d mask shared = (w.setX f.xc (BitVec.ofNat 64 id)).fall := by
    simp only [State.launched, hacc]
    rfl
  have hw : w.cx.unread = s.cx.unread := hc.cx
  obtain ⟨hpc, hxc, hx⟩ := State.result_of_unread hw f.xc (BitVec.ofNat 64 id)
  have hwmem : w.mem = s.mem := hc.mem
  have hwl : (w.hubOf (fieldOfCtx s.cur)).launches = (put ((t.countScope 4).hubOf (fieldOfCtx s.cur))).launches := by
    simp only [w, State.hubOf_updHub_self]
  have hul : ((w.setX f.xc (BitVec.ofNat 64 id)).fall.hubOf (fieldOfCtx s.cur)).launches = (put ((t.countScope 4).hubOf (fieldOfCtx s.cur))).launches := by
    rw [← hwl, State.hubOf_fall_setX]
  refine hu ▸ ⟨?_, hpc, hx, id, e, hxc, hlaunch _ hul, hid, hheader, hmask, ?_, hhost, ?_⟩
  · rw [← hwmem, State.fall_eq, (State.retire_fields _ _).1, State.mem_setX]
  · rw [hdepth, h.cxPart Ctx.depth (fun _ => rfl)]
  · rw [hparent, ← h.cur]
    rfl

/-- A launch without a place: the result is all ones, and the queue stays (R133). -/
theorem State.launchFull_effects (h : ReadMade s t) (r : BitVec 5) (v : Word) :
    let u := ((t.countScope 4).setX r v).fall
    u.cx.pc = s.fall.cx.pc ∧ (r ≠ 0 → u.x r = v) ∧ (∀ q, q ≠ r → u.x q = s.x q) ∧ u.hub.launches = s.hub.launches := by
  have hc : ReadMade s (t.countScope 4) := h.trans (t.readMade_countScope 4)
  obtain ⟨hpc, hxc, hx⟩ := State.result_of_unread hc.cx r v
  refine ⟨hpc, fun hr => hxc.trans (if_neg hr), hx, ?_⟩
  have hhub : ((t.countScope 4).setX r v).fall.hub = (t.countScope 4).hub := by
    have hcur : ((t.countScope 4).setX r v).fall.cur = (t.countScope 4).cur := State.cur_setX _ r v
    rw [State.hub, State.hub, hcur, State.hubOf_fall_setX]
  rw [hhub, hc.launches]

/-- A firing in `launch.w` stands among the waiters of its field, parked (R133, R183). -/
theorem State.awaitsLaunch_effects (h : ReadMade s t) :
    s.cx.firing ∈ t.awaitsLaunch.hub.lwaiters ∧
    (s.core.parkRoom = false → t.awaitsLaunch.cx.st = 2 ∧ t.awaitsLaunch.cx.reason = Cause.launchQfull ∧ t.awaitsLaunch.cx.pc = s.cx.pc) ∧
    (s.core.parkRoom = true → inParkArea s t.awaitsLaunch Cause.launchQfull s.cx.pc) := by
  let w : State := t.updCurHub (fun h => { h with lwaiters := if h.lwaiters.contains t.cx.firing then h.lwaiters else h.lwaiters ++ [t.cx.firing] })
  have hu : t.awaitsLaunch = w.parkFiring .launchQfull := rfl
  obtain ⟨hhubs, hcur, hstay, hpark⟩ := w.parkFiring_effects .launchQfull
  have hcx {α : Type} (p : Ctx → α) (hp : ∀ c : Ctx, p c.unread = p c) : p w.cx = p s.cx := h.cxPart p hp
  have hcore : w.core = s.core := h.core
  have hpc : w.cx.pc = s.cx.pc := hcx Ctx.pc (fun _ => rfl)
  rw [hu]
  refine ⟨?_, fun hroom => ?_, fun hroom => ?_⟩
  · have hhub : (w.parkFiring .launchQfull).hub = w.hub := by rw [State.hub, State.hub, State.hubOf, State.hubOf, hhubs, hcur]
    have hfiring : t.cx.firing = s.cx.firing := h.cxPart Ctx.firing (fun _ => rfl)
    rw [hhub, State.hub_updCurHub, hfiring]
    simp only
    split
    · exact List.mem_of_elem_eq_true ‹_›
    · simp
  · rw [← hpc]
    exact hstay (hcore ▸ hroom)
  · obtain ⟨hfree, n, hst, hreason, hat, hx, hfiring⟩ := hpark (hcore ▸ hroom)
    exact ⟨hfree, n, hst, hreason, hat.trans hpc, hx.trans (hcx Ctx.x (fun _ => rfl)), hfiring.trans (hcx Ctx.firing (fun _ => rfl))⟩

end

/-- Settles O51: the header is read and checked first, and then the place of the launch decides. -/
theorem launchEntersTheQueue : Obligations.LaunchEntersTheQueue := by
  unfold Obligations.LaunchEntersTheQueue
  intro f s d ha own mask maskBad
  refine ⟨execLaunch_waits ha, fun hdone hd => ?_⟩
  let s1 := s.afterRead (s.x f.xa).toNat 64
  have h1 : ReadMade s s1 := s.readMade_afterRead _ _
  have hmask : s.launchMask f = mask := by
    simp only [State.launchMask, maskFields, bitAt_eq_testBit]
    rfl
  have hbad : (decide (f.xb ≠ 0) && bitsOf (s.x (f.xb + 1)) 63 26 ≠ 0 : Bool) = maskBad := by
    have hbits : bitsOf (s.x (f.xb + 1)) 63 26 = (s.x (f.xb + 1)).toNat / 2 ^ 26 := by
      have := (s.x (f.xb + 1)).isLt
      simp only [bitsOf, bitsAt]
      omega
    rw [hbits]
    exact (Bool.decide_and _ _).symm
  have hexec : exec (.launch f) s = s1.enterLaunch f own d mask maskBad := by rw [execLaunch_enters ha hdone hd, hmask, hbad]
  have hdepth : s1.cx.depth = s.cx.depth := h1.cxPart Ctx.depth (fun _ => rfl)
  have hnp : s1.cx.np = s.cx.np := h1.cxPart Ctx.np (fun _ => rfl)
  have hplace : s1.hub.launchRoom (s1.cx.depth + 1) = s.hub.launchRoom (s.cx.depth + 1) := by rw [hdepth, h1.launchRoom]
  refine ⟨fun c hc => ?_, fun shared hc hr hf hfree => ?_, fun hc hr ho => ?_, fun hc hr ho hs => ?_, fun hc hr ho hs => ?_⟩
  · rw [hexec, State.enterLaunch_refused hc]
  · obtain ⟨hmem, hpc, hx, id, e, hxc, hl, hid, hh, hm, hd, hhost, hparent⟩ := State.launched_effects (f := f) h1 d mask shared hf hfree
    exact ⟨_, id, e, hexec.trans (State.enterLaunch_placed hc (hplace.trans hr)), hpc, hxc, hx, hl, hid, hh, hm, hd, hhost, hparent, fun a => by rw [hmem]⟩
  · rw [hexec, State.enterLaunch_full hc (hplace.trans hr), if_pos ho]
    exact ⟨_, rfl, State.launchFull_effects h1 f.xc _⟩
  · rw [hexec, State.enterLaunch_full hc (hplace.trans hr), if_neg ho, hnp, if_pos hs]
  · rw [hexec, State.enterLaunch_full hc (hplace.trans hr), if_neg ho, hnp, if_neg (ne_true_of_eq_false hs)]
    exact ⟨_, rfl, State.awaitsLaunch_effects h1⟩

end Sys2Proof.Machine
end

section
/-! SUPPORT. The start of firings: R139 to R143, R158, R161, R163, R186, R396. -/

namespace Sys2Proof.Machine

/-! ### Free contexts and candidates (R140) -/

/-- A free slot of a core is one of its eight contexts. -/
theorem State.freeSlot_div {s : State} {k i : Nat} (h : s.freeSlot k = some i) : i / 8 = k := by
  have hmem := List.mem_of_find?_eq_some h
  obtain ⟨c, hc, rfl⟩ := List.mem_map.1 hmem
  have := List.mem_range.1 hc
  omega

theorem State.coreOfCtx_freeSlot {s : State} {k i : Nat} (h : s.freeSlot k = some i) : coreOfCtx i = k := State.freeSlot_div h

/-- The candidate that starts first is a candidate. -/
theorem State.firstCand_mem {s : State} {k : Nat} {c : Cand} (h : s.firstCand k = some c) : ∃ st, (c, st) ∈ s.candidates k := by
  unfold State.firstCand at h
  split at h
  · cases h
  · split at h
    · cases h
    next b bs hcs =>
      have hfold (l : List (Cand × Standing)) : ∀ b, l.foldl (fun b a => if a.2.before b.2 then a else b) b ∈ b :: l := by
        induction l with
        | nil => exact fun b => List.mem_cons_self
        | cons a l ih =>
          intro b
          rw [List.foldl_cons]
          split
          · exact List.mem_cons_of_mem b (ih a)
          · obtain hb | hl := List.mem_cons.1 (ih b)
            · exact List.mem_cons.2 (.inl hb)
            · exact List.mem_cons_of_mem b (List.mem_cons_of_mem a hl)
      refine ⟨(bs.foldl (fun b a => if a.2.before b.2 then a else b) b).2, ?_⟩
      rw [hcs, ← Option.some.inj h]
      exact hfold bs b

/-- An item is a candidate only where every core that it runs on has a free context (R140). -/
theorem State.freeSlots_of_pool {s : State} {k id n : Nat} {e : Launch} (h : s.firstCand k = some (.pool id n)) (he : s.launchOf id = some e) :
    ∀ j ∈ Header.itemCores e.header (tileOfCore k), ∃ i, s.freeSlot j = some i := by
  obtain ⟨st, hmem⟩ := State.firstCand_mem h
  simp only [State.candidates, List.mem_append, List.mem_filterMap] at hmem
  obtain (⟨a, -, ha⟩ | ⟨l, -, hl⟩) | ht := hmem
  · split at ha <;> cases ha
  · split at hl
    next e' _ n' _ he' _ =>
      split at hl
      next hc =>
        cases hl
        rw [he] at he'
        cases he'
        simp only [Bool.and_eq_true, List.all_eq_true] at hc
        exact fun j hj => Option.isSome_iff_exists.1 (hc.2 j hj).2
      · cases hl
    · cases hl
  · split at ht
    · split at ht
      · simp at ht
      · cases ht
    · cases ht

/-! ### A firing occupies a context (R186) -/

/-- A core but for its counters and the time of its last retirement. -/
def Core.unmarked (k : Core) : Core := { k with counters := [], retired := 0, hung := false }

/-- Between two states firings have started, and of the cores only their counters and the times of their retirements have changed. -/
structure Started (s t : State) : Prop where
  rest : { t with ctxs := [], cores := [], nextFiring := 0 } = { s with ctxs := [], cores := [], nextFiring := 0 }
  core : ∀ k, (t.coreOf k).unmarked = (s.coreOf k).unmarked

namespace Started

variable {s t u : State}

theorem refl (s : State) : Started s s := ⟨rfl, fun _ => rfl⟩

theorem trans (h : Started s t) (h' : Started t u) : Started s u := ⟨h'.rest.trans h.rest, fun k => (h'.core k).trans (h.core k)⟩

/-- Starts one after another. -/
theorem foldl {α : Type} {g : State → α → State} (hg : ∀ s x, Started s (g s x)) (l : List α) (s : State) : Started s (l.foldl g s) :=
  List.foldlRecOn l g (refl s) (fun _ h x _ => h.trans (hg _ x))

/-- A part of a core that the mask keeps. -/
theorem corePart {α : Type} (h : Started s t) (p : Core → α) (hp : ∀ k : Core, p k.unmarked = p k) (k : Nat) : p (t.coreOf k) = p (s.coreOf k) := by
  rw [← hp (t.coreOf k), h.core, hp]

theorem tiles (h : Started s t) : t.tiles = s.tiles := (congrArg State.tiles h.rest :)

theorem of_updCtx (s : State) (i : Nat) (g : Ctx → Ctx) : Started s (s.updCtx i g) := ⟨rfl, fun _ => rfl⟩

end Started

theorem State.started_countCore (s : State) (k : Nat) (c : Option Nat) (ev n : Nat) : Started s (s.countCore k c ev n) := by
  refine ⟨?_, fun i => ?_⟩
  · obtain h | ⟨cs, h⟩ := s.countCore_cases k c ev n <;> rw [h]
    rfl
  · obtain ⟨cs, h⟩ := s.coreOf_countCore k c ev n i
    rw [h]
    rfl

/-- Counting leaves the contexts and the numbers of firings. -/
theorem State.ctxs_countCore (s : State) (k : Nat) (c : Option Nat) (ev n : Nat) :
    (s.countCore k c ev n).ctxs = s.ctxs ∧ (s.countCore k c ev n).nextFiring = s.nextFiring := by
  obtain h | ⟨cs, h⟩ := s.countCore_cases k c ev n <;> rw [h] <;> exact ⟨rfl, rfl⟩

/-- The state in which a firing occupies a context, before that is counted. -/
def State.seated (s : State) (i : Nat) (c : Ctx) : State :=
  ({ s with ctxs := s.ctxs.put i { c with occ := true, firing := s.nextFiring }, nextFiring := s.nextFiring + 1 } : State).updCore
    (coreOfCtx i) (fun k => k.roused s.rtime)

theorem State.startAt_eq (s : State) (i : Nat) (c : Ctx) : s.startAt i c = (s.seated i c).countCore (coreOfCtx i) (some (i % 8)) 0x03 1 := rfl

theorem State.started_startAt (s : State) (i : Nat) (c : Ctx) : Started s (s.startAt i c) := by
  have hocc : Started s (s.seated i c) := by
    refine ⟨rfl, fun k => ?_⟩
    rw [State.seated, State.coreOf_updCore]
    split
    · subst k
      rfl
    · rfl
  exact hocc.trans ((s.seated i c).started_countCore _ _ _ _)

theorem State.ctxOf_congr {s t : State} (h : t.ctxs = s.ctxs) (i : Nat) : t.ctxOf i = s.ctxOf i := by
  rw [State.ctxOf, State.ctxOf, h]

/-- A new firing has its context, and the next number. -/
theorem State.startAt_effects (s : State) (i : Nat) (c : Ctx) :
    (s.startAt i c).nextFiring = s.nextFiring + 1 ∧ (s.startAt i c).ctxOf i = { c with occ := true, firing := s.nextFiring } ∧
    ∀ j, j ≠ i → (s.startAt i c).ctxOf j = s.ctxOf j := by
  obtain ⟨hctxs, hnext⟩ := (s.seated i c).ctxs_countCore (coreOfCtx i) (some (i % 8)) 0x03 1
  rw [State.startAt_eq]
  refine ⟨hnext, ?_, fun j hj => ?_⟩
  · rw [State.ctxOf_congr hctxs]
    exact KMap.get_put_self _ _ _ _
  · rw [State.ctxOf_congr hctxs]
    exact KMap.get_put_other _ _ _ hj

/-! ### Actors (R158, R161, R163) -/

/-- The port that a firing starts from holds what it held, without the message that the firing takes. -/
theorem portHolds_dropHead (s : State) (k : Nat) {q : Port} {m : Msg} (h : q.head = some m) :
    portHolds s (tileOfCore k) q ((q.dropHead 1).settled s.mem k) ((q.hwPart ++ q.oq).drop 1) := by
  obtain ⟨r, hr⟩ : ∃ r, q.hwPart = m :: r := by
    unfold Port.head at h
    exact ⟨_, (List.cons_head?_tail h).symm⟩
  have hdrop : q.dropHead 1 = Port.refill { q with hwPart := r, oq := q.oq } := by simp [Port.dropHead, hr]
  have hrest : (q.hwPart ++ q.oq).drop 1 = r ++ q.oq := by simp [hr]
  rw [hdrop, hrest]
  exact portHolds_of_refill s k (r := { q with hwPart := r, oq := q.oq }) rfl rfl

/-- The state in which the firing of actor a has taken a message of port p, and reserved its sends (R158, R163). -/
def State.actorTaken (s : State) (k a p : Nat) : State :=
  ((s.updPort k a p (fun q => (q.dropHead 1).settled s.mem k)).updActor k a (fun x => { x with busy := true, readyAt := none })).updCore k
    (fun c => { c with reqRsv := c.reqRsv + descProd (s.descAt k a), bulkRsv := c.bulkRsv + descProd (s.descAt k a) })

theorem State.actorAt_actorTaken (s : State) (k a p : Nat) :
    let y := ((s.actorTaken k a p).coreOf k).actorAt a
    y.portAt p = ((((s.coreOf k).actorAt a).portAt p).dropHead 1).settled s.mem k ∧ y.busy = true := by
  simp [State.actorTaken, State.updPort, State.updActor, Core.actorAt, Actor.portAt]

/-- The state in which it has its context. -/
def State.actorStarted (s : State) (i a p : Nat) (m : Msg) : State :=
  let k := coreOfCtx i
  ((s.actorTaken k a p).startAt i (actorCtx (s.descAt k a) a p (s.actorLevel k a) ((s.coreOf k).actorAt a).owner m)).countCore k (some (i % 8)) 0x08 1

theorem State.startActor_eq {s : State} {i a p : Nat} {m : Msg} (ht : ((s.coreOf (coreOfCtx i)).actorAt a).trigger = some p)
    (hm : (((s.coreOf (coreOfCtx i)).actorAt a).portAt p).head = some m)
    (hd : ((s.coreOf (coreOfCtx i)).actorAt a).descStale (s.descAt (coreOfCtx i) a) = false) :
    let c := actorCtx (s.descAt (coreOfCtx i) a) a p (s.actorLevel (coreOfCtx i) a) ((s.coreOf (coreOfCtx i)).actorAt a).owner m
    s.startActor i a = if c.pc < c.codelo ∨ c.codehi ≤ c.pc then (s.actorStarted i a p m).freeze i { cause := .badHandler, synd := (m.word 0).toNat }
      else s.actorStarted i a p m := by
  unfold State.startActor
  simp only [ht, hm, hd, Bool.false_eq_true, if_false]
  rfl

theorem State.actorStarted_effects {s : State} {i a p : Nat} {m : Msg} (hm : (((s.coreOf (coreOfCtx i)).actorAt a).portAt p).head = some m) :
    let k := coreOfCtx i
    let x := (s.coreOf k).actorAt a
    let c := actorCtx (s.descAt k a) a p (s.actorLevel k a) x.owner m
    let t := s.actorStarted i a p m
    portHolds s (tileOfCore k) (x.portAt p) (((t.coreOf k).actorAt a).portAt p) (((x.portAt p).hwPart ++ (x.portAt p).oq).drop 1) ∧
    ((t.coreOf k).actorAt a).busy = true ∧ t.nextFiring = s.nextFiring + 1 ∧ t.ctxOf i = { c with occ := true, firing := s.nextFiring } := by
  intro k x c t
  let s1 := s.actorTaken k a p
  have hstarted : Started s1 t := (s1.started_startAt i c).trans ((s1.startAt i c).started_countCore k (some (i % 8)) 0x08 1)
  have hactors : ((t.coreOf k).actorAt a) = (s1.coreOf k).actorAt a := by
    rw [Core.actorAt, Core.actorAt, hstarted.corePart Core.actors (fun _ => rfl)]
  obtain ⟨hport, hbusy⟩ := s.actorAt_actorTaken k a p
  obtain ⟨hctxs, hnext⟩ := (s1.startAt i c).ctxs_countCore k (some (i % 8)) 0x08 1
  obtain ⟨hnext1, hctx1, -⟩ := s1.startAt_effects i c
  rw [hactors, hport]
  refine ⟨portHolds_dropHead s k hm, hbusy, hnext.trans hnext1, ?_⟩
  exact (State.ctxOf_congr hctxs i).trans hctx1

/-- An actor's firing starts, or freezes at once outside its code range (R140, R161). -/
theorem execFiringStart_starts {s : State} {a i p : Nat} {m : Msg} (hc : s.firstCand s.arg.unit = some (.actor a)) (hi : s.freeSlot s.arg.unit = some i)
    (ht : ((s.coreOf s.arg.unit).actorAt a).trigger = some p) (hm : (((s.coreOf s.arg.unit).actorAt a).portAt p).head = some m)
    (hd : ((s.coreOf s.arg.unit).actorAt a).descStale (s.descAt s.arg.unit a) = false) :
    let x := (s.coreOf s.arg.unit).actorAt a
    let c := actorCtx (s.descAt s.arg.unit a) a p (s.actorLevel s.arg.unit a) x.owner m
    ∃ t, exec .firingStart s = .next t ∧
      portHolds s (tileOfCore s.arg.unit) (x.portAt p) (((t.coreOf s.arg.unit).actorAt a).portAt p) (((x.portAt p).hwPart ++ (x.portAt p).oq).drop 1) ∧
      ((t.coreOf s.arg.unit).actorAt a).busy = true ∧ t.nextFiring = s.nextFiring + 1 ∧
      (c.codelo ≤ c.pc → c.pc < c.codehi → t.ctxOf i = { c with occ := true, firing := s.nextFiring }) ∧
      (c.pc < c.codelo ∨ c.codehi ≤ c.pc → (t.ctxOf i).st = 1 ∧ (t.ctxOf i).cause = Cause.badHandler ∧ (t.ctxOf i).pc = c.pc) := by
  intro x c
  have hk : coreOfCtx i = s.arg.unit := State.coreOfCtx_freeSlot hi
  rw [← hk] at ht hm hd
  have hstart := State.startActor_eq ht hm hd
  obtain ⟨hport, hbusy, hnext, hctx⟩ := State.actorStarted_effects hm
  rw [hk] at hstart hport hbusy hctx
  refine ⟨s.startActor i a, ?_, ?_⟩
  · show execFiringStart s = _
    simp only [execFiringStart, hc, hi]
  · rw [hstart]
    split
    next hout =>
      let e : FaultAt := { cause := .badHandler, synd := (m.word 0).toNat }
      have htaken : FaultTaken (s.actorStarted i a p m) ((s.actorStarted i a p m).freeze i e) := State.faultTaken_freeze _ i e
      have hcores : ((s.actorStarted i a p m).freeze i e).coreOf s.arg.unit = (s.actorStarted i a p m).coreOf s.arg.unit :=
        htaken.part (fun u => u.coreOf s.arg.unit) (fun _ => rfl)
      obtain ⟨hst, hcause, -, hpc⟩ := (s.actorStarted i a p m).freeze_freezes i e
      rw [hcores]
      refine ⟨hport, hbusy, (htaken.part State.nextFiring (fun _ => rfl)).trans hnext, fun hlo hhi => ?_, fun _ => ⟨hst, hcause, ?_⟩⟩
      · exact absurd hout (not_or.2 ⟨BitVec.not_lt.2 hlo, BitVec.not_le.2 hhi⟩)
      · rw [hpc, hctx]
    next hin => exact ⟨hport, hbusy, hnext, fun _ _ => hctx, fun hout => absurd hout hin⟩

/-! ### Tasks and dormant starts (R143, R396) -/

/-- The newest task of the deque starts; where it was the last one, the newest spilled records take its place. -/
theorem execTaskStart_starts {s : State} {i : Nat} {r : TaskRec} {rs : List TaskRec} (hc : s.firstCand s.arg.unit = some .task)
    (hi : s.freeSlot s.arg.unit = some i) (hd : (s.coreOf s.arg.unit).deque = r :: rs) : ∃ t, exec .taskStart s = .next t ∧
      t.ctxOf i = { taskCtx r (if r.tag = 0 then 2 else 0) with occ := true, firing := s.nextFiring } ∧
      (rs ≠ [] → (t.coreOf s.arg.unit).deque = rs) ∧
      (rs = [] → (t.coreOf s.arg.unit).deque = ((s.coreOf s.arg.unit).spill.take 32).map (ringRecord s s.arg.unit)) := by
  let c := taskCtx r (if r.tag = 0 then 2 else 0)
  let s1 := s.popTask s.arg.unit
  have hx : exec .taskStart s = .next (s1.startAt i c) := by
    show execTaskStart s = _
    simp only [execTaskStart, hc, hi, hd]
    rfl
  have hdeque : ((s1.startAt i c).coreOf s.arg.unit).deque = (s1.coreOf s.arg.unit).deque := (s1.started_startAt i c).corePart Core.deque (fun _ => rfl) _
  have hpop : (s1.coreOf s.arg.unit).deque = if rs.isEmpty then ((s.coreOf s.arg.unit).spill.take 32).map (s.readRing s.arg.unit) else rs := by
    simp only [s1, State.popTask, State.coreOf_updCore_self, hd, List.drop_one, List.tail_cons]
    split <;> rfl
  refine ⟨_, hx, (s1.startAt_effects i c).2.1, fun hne => ?_, fun hnil => ?_⟩
  · rw [hdeque, hpop, if_neg (by simpa using hne)]
  · rw [hdeque, hpop, if_pos (by simpa using hnil)]
    rfl

/-- A dormant start runs in the context that its descriptor names, and its operation is free. -/
theorem execDormantStart_starts {s : State} {m : Msg} {k : Nat} (hm : (s.opAt s.arg.unit s.arg.other).sending = some m)
    (hdorm : (s.opAt s.arg.unit s.arg.other).dorm = true) (hstill : s.tileStill s.arg.unit = false) (hdev : capDev m.capLo = s.loith.device)
    (hto : s.injectTo m = .core k) (htag : (s.hubOf (fieldOfTile (tileOfCore k))).runTag = capOwner m.capLo)
    (hsw : (s.hubOf (fieldOfTile (tileOfCore k))).sw.step = 0) (hdest : s.tileStill (tileOfCore k) = false)
    (hocc : (s.ctxOf (8 * k + (s.opAt s.arg.unit s.arg.other).dctx)).occ = false) (hpow : (s.tileOf (tileOfCore k)).powered = true)
    (hpwr : (s.tileOf (tileOfCore k)).pwr ≠ 3) :
    let i := 8 * k + (s.opAt s.arg.unit s.arg.other).dctx
    let c := dormantCtx (s.ctxOf i) m (if capOwner m.capLo = 0 then 2 else 0)
    ∃ t, exec .dormantStart s = .next t ∧ (c.codelo ≤ c.pc → c.pc < c.codehi →
      t.ctxOf i = { c with occ := true, firing := s.nextFiring } ∧ (t.opAt s.arg.unit s.arg.other).state = 0) := by
  intro i c
  let s1 := s.freeOp s.arg.unit s.arg.other
  have hx : exec .dormantStart s = .next (if c.codelo ≤ c.pc ∧ c.pc < c.codehi then s1.startAt i c
      else (s1.startAt i c).freeze i { cause := .badHandler, synd := (m.word 0).toNat }) := by
    show execDormantStart s = _
    simp only [execDormantStart, hm]
    rw [if_neg (by simp [hdorm, hstill]), if_neg (not_not.2 hdev), hto]
    simp only
    rw [if_neg (by simp [htag, hsw, hdest]), if_neg (by simp [hocc]), if_neg (by simp [hpow, hpwr])]
  refine ⟨_, hx, fun hlo hhi => ?_⟩
  rw [if_pos ⟨hlo, hhi⟩]
  have hop : (s1.startAt i c).opAt s.arg.unit s.arg.other = { cmderr := (s.opAt s.arg.unit s.arg.other).cmderr } := by
    rw [← State.opAt_updOp s s.arg.unit s.arg.other (fun o => { cmderr := o.cmderr })]
    exact congrArg (fun l : KMap Tile => ((l.get {} s.arg.unit).ops.get {} s.arg.other)) (s1.started_startAt i c).tiles
  exact ⟨(s1.startAt_effects i c).2.1, by rw [hop]⟩

end Sys2Proof.Machine
end

section
/-! SUPPORT. The start of an item on the cores that it runs on, and the pairs of a doubles item: R46, R135, R144. -/

namespace Sys2Proof.Machine

/-! ### Contexts that start together -/

/-- Firings that start one after another have their contexts, whichever numbers they get. -/
theorem State.ctxOf_startAll (g : Nat → Ctx) (l : List Nat) {i : Nat} : ∀ s : State, (i ∈ l ∨ ∃ n, s.ctxOf i = { g i with occ := true, firing := n }) →
    ∃ n, (l.foldl (fun s j => s.startAt j (g j)) s).ctxOf i = { g i with occ := true, firing := n } := by
  induction l with
  | nil => exact fun s h => h.resolve_left List.not_mem_nil
  | cons j l ih =>
    intro s h
    obtain ⟨-, hself, hother⟩ := s.startAt_effects j (g j)
    refine ih (s.startAt j (g j)) ?_
    by_cases hj : i = j
    · exact .inr ⟨s.nextFiring, by rw [hj, hself]⟩
    · refine h.imp (fun hm => (List.mem_cons.1 hm).resolve_left hj) (fun ⟨n, hn⟩ => ⟨n, ?_⟩)
      rw [hother i hj, hn]

/-! ### Pairs (R46) -/

/-- Two contexts become partners of each other. -/
def State.link (s : State) (p : Nat × Nat) : State :=
  (s.updCtx p.1 (fun c => { c with pairCtx := some p.2, pairFiring := some (s.ctxOf p.2).firing })).updCtx p.2
    (fun c => { c with pairCtx := some p.1, pairFiring := some (s.ctxOf p.1).firing })

/-- What a context is after a link: that of a partner names the other, and another stays. -/
theorem State.ctxOf_link (s : State) (p : Nat × Nat) (i : Nat) : (i ≠ p.1 ∧ i ≠ p.2 ∧ (s.link p).ctxOf i = s.ctxOf i) ∨
    ∃ b n, (i = p.1 ∧ b = p.2 ∨ i = p.2 ∧ b = p.1) ∧ (s.link p).ctxOf i = { s.ctxOf i with pairCtx := some b, pairFiring := some n } := by
  unfold State.link
  by_cases h2 : i = p.2
  · subst h2
    refine .inr ⟨p.1, (s.ctxOf p.1).firing, .inr ⟨rfl, rfl⟩, ?_⟩
    rw [State.ctxOf_updCtx_self, State.ctxOf_updCtx]
    split
    next h => rw [h]
    next => rfl
  · rw [State.ctxOf_updCtx_other _ _ h2, State.ctxOf_updCtx]
    split
    next h => exact .inr ⟨p.2, (s.ctxOf p.2).firing, .inl ⟨h, rfl⟩, by rw [h]⟩
    next h => exact .inl ⟨h, h2, rfl⟩

/-- A context that every link of a list gives the same partner, and at least one does, has that partner. -/
theorem State.ctxOf_links {i b : Nat} {c : Ctx} (l : List (Nat × Nat)) (hl : ∀ p ∈ l, (i = p.1 → p.2 = b) ∧ (i = p.2 → p.1 = b)) : ∀ s : State,
    (s.ctxOf i = c ∧ ∃ p ∈ l, i = p.1 ∨ i = p.2) ∨ (∃ n, s.ctxOf i = { c with pairCtx := some b, pairFiring := some n }) →
    ∃ n, (l.foldl State.link s).ctxOf i = { c with pairCtx := some b, pairFiring := some n } := by
  induction l with
  | nil => exact fun s h => h.resolve_left (fun ⟨_, p, hp, _⟩ => List.not_mem_nil hp)
  | cons p l ih =>
    intro s h
    refine ih (fun q hq => hl q (List.mem_cons_of_mem p hq)) (s.link p) ?_
    obtain ⟨h1, h2, hkeep⟩ | ⟨b', n, hb, hset⟩ := s.ctxOf_link p i
    · rw [hkeep]
      refine h.imp_left (fun ⟨hc, q, hq, hi⟩ => ⟨hc, q, ?_, hi⟩)
      refine (List.mem_cons.1 hq).resolve_left (fun e => ?_)
      rw [e] at hi
      exact hi.elim h1 h2
    · have hbb : b' = b := by
        obtain ⟨hi, rfl⟩ | ⟨hi, rfl⟩ := hb
        · exact (hl p List.mem_cons_self).1 hi
        · exact (hl p List.mem_cons_self).2 hi
      refine .inr ⟨n, ?_⟩
      rw [hset, hbb]
      obtain ⟨hc, -⟩ | ⟨m, hc⟩ := h <;> rw [hc]

theorem State.started_link (s : State) (p : Nat × Nat) : Started s (s.link p) := (Started.of_updCtx s p.1 _).trans (Started.of_updCtx _ p.2 _)

/-! ### Items (R135, R144) -/

/-- The cores of a tile that an item runs on: the issue core, and with PAIR the feed core. -/
def Header.tileCores (h : Header) (u : Nat) : List Nat := if h.pair then [2 * u + 1, 2 * u] else [2 * u + 1]

theorem Header.tileOfCore_tileCores {h : Header} {u j : Nat} (hj : j ∈ h.tileCores u) : tileOfCore j = u := by
  unfold Header.tileCores at hj
  unfold tileOfCore
  split at hj <;> simp at hj <;> omega

/-- The partner of a core stands at the same place of the follower tile. -/
theorem Header.tileCores_succ (h : Header) (u : Nat) : h.tileCores (u + 1) = (h.tileCores u).map (· + 2) := by
  unfold Header.tileCores
  split <;> simp <;> omega

theorem Header.itemCores_of_dbl {h : Header} (hd : h.dbl = true) (t : Nat) : h.itemCores t = h.tileCores (leaderOf t) ++ h.tileCores (leaderOf t + 1) := by
  simp [Header.itemCores, Header.itemTiles, hd, Header.tileCores]

/-- The free slot of a core, where it has one. -/
def State.slot (s : State) (j : Nat) : Nat := (s.freeSlot j).getD 0

section
variable {s : State} {k id n : Nat} {e : Launch}

theorem State.slot_eq {i j : Nat} (h : s.freeSlot j = some i) : s.slot j = i := by rw [State.slot, h, Option.getD_some]

/-- A free slot is in the tile of its core, and of that core alone. -/
theorem State.slot_of_free {j : Nat} (h : ∃ i, s.freeSlot j = some i) :
    s.freeSlot j = some (s.slot j) ∧ coreOfCtx (s.slot j) = j ∧ tileOfCtx (s.slot j) = tileOfCore j := by
  obtain ⟨i, hi⟩ := h
  have hdiv := State.freeSlot_div hi
  rw [State.slot_eq hi]
  refine ⟨hi, hdiv, ?_⟩
  unfold tileOfCtx tileOfCore
  omega

/-- The state in which the contexts of an item have started, before those of a pair are linked. -/
def State.itemSeated (s : State) (k id n : Nat) (e : Launch) : State :=
  ((Header.itemCores e.header (tileOfCore k)).map s.slot).foldl (fun s i => s.startAt i (poolCtx e n (coreOfCtx i % 2 = 0)))
    (s.updCore k (fun c => { c with held := c.held.filter (fun r => !(r.1 = id && r.2.1 = n)) }))

/-- The contexts of a doubles item that become partners: at the same place of the leader and of the follower. -/
def State.itemPairs (s : State) (k : Nat) (h : Header) : List (Nat × Nat) := (h.tileCores (leaderOf (tileOfCore k))).map (fun j => (s.slot j, s.slot (j + 2)))

theorem State.startItem_of_single (he : s.launchOf id = some e) (hd : Header.dbl e.header = false) : s.startItem k id n = s.itemSeated k id n e := by
  unfold State.startItem
  simp only [he, hd, Bool.false_eq_true, if_false]
  rfl

theorem State.startItem_of_dbl (he : s.launchOf id = some e) (hd : Header.dbl e.header = true)
    (hfree : ∀ j ∈ Header.itemCores e.header (tileOfCore k), ∃ i, s.freeSlot j = some i) :
    s.startItem k id n = (s.itemPairs k e.header).foldl State.link (s.itemSeated k id n e) := by
  let L := leaderOf (tileOfCore k)
  let slots := (Header.itemCores e.header (tileOfCore k)).map s.slot
  have hx : s.startItem k id n =
      ((slots.filter (fun i => tileOfCtx i = L)).zip (slots.filter (fun i => tileOfCtx i ≠ L))).foldl State.link (s.itemSeated k id n e) := by
    unfold State.startItem
    simp only [he, hd, if_true]
    rfl
  have hcores := Header.itemCores_of_dbl hd (tileOfCore k)
  have hslots : slots = (Header.tileCores e.header L).map s.slot ++ (Header.tileCores e.header (L + 1)).map s.slot := by
    rw [← List.map_append, ← hcores]
  have htile (u : Nat) (hu : u = L ∨ u = L + 1) : ∀ i ∈ (Header.tileCores e.header u).map s.slot, tileOfCtx i = u := by
    intro i hi
    obtain ⟨j, hj, rfl⟩ := List.mem_map.1 hi
    have hmem : j ∈ Header.itemCores e.header (tileOfCore k) := by
      rw [hcores]
      obtain rfl | rfl := hu
      · exact List.mem_append_left _ hj
      · exact List.mem_append_right _ hj
    rw [(State.slot_of_free (hfree j hmem)).2.2, Header.tileOfCore_tileCores hj]
  have hlead := htile L (.inl rfl)
  have hfoll := htile (L + 1) (.inr rfl)
  have h1 : slots.filter (fun i => tileOfCtx i = L) = (Header.tileCores e.header L).map s.slot := by
    rw [hslots, List.filter_append, List.filter_eq_self.2 (fun i hi => decide_eq_true (hlead i hi)),
      List.filter_eq_nil_iff.2 (fun i hi => by simp [hfoll i hi]), List.append_nil]
  have h2 : slots.filter (fun i => tileOfCtx i ≠ L) = (Header.tileCores e.header L).map (fun j => s.slot (j + 2)) := by
    rw [hslots, List.filter_append, List.filter_eq_nil_iff.2 (fun i hi => by simp [hlead i hi]),
      List.filter_eq_self.2 (fun i hi => by simp [hfoll i hi]), List.nil_append, Header.tileCores_succ, List.map_map]
    rfl
  rw [hx, h1, h2, List.zip_map']
  rfl

/-- The contexts of an item, and the items that the core still holds. -/
theorem State.itemSeated_effects (hfree : ∀ j ∈ Header.itemCores e.header (tileOfCore k), ∃ i, s.freeSlot j = some i) :
    ((s.itemSeated k id n e).coreOf k).held = (s.coreOf k).held.filter (fun r => !(r.1 = id && r.2.1 = n)) ∧
    ∀ j ∈ Header.itemCores e.header (tileOfCore k), ∃ f, (s.itemSeated k id n e).ctxOf (s.slot j) =
      { poolCtx e n (j % 2 = 0) with occ := true, firing := f } := by
  refine ⟨?_, fun j hj => ?_⟩
  · have hstarted := Started.foldl (g := fun s i => State.startAt s i (poolCtx e n (coreOfCtx i % 2 = 0))) (fun s i => s.started_startAt i _)
      ((Header.itemCores e.header (tileOfCore k)).map s.slot) (s.updCore k (fun c => { c with held := c.held.filter (fun r => !(r.1 = id && r.2.1 = n)) }))
    refine (hstarted.corePart Core.held (fun _ => rfl) k).trans ?_
    rw [State.coreOf_updCore_self]
  · obtain ⟨f, hf⟩ := State.ctxOf_startAll (fun i => poolCtx e n (coreOfCtx i % 2 = 0)) ((Header.itemCores e.header (tileOfCore k)).map s.slot)
      (s.updCore k (fun c => { c with held := c.held.filter (fun r => !(r.1 = id && r.2.1 = n)) })) (.inl (List.mem_map_of_mem hj))
    refine ⟨f, hf.trans ?_⟩
    rw [(State.slot_of_free (hfree j hj)).2.1]

/-- Which partner the links of a doubles item give a context: that of the core at the same place of the other tile. -/
theorem State.itemPairs_partner (hd : Header.dbl e.header = true) (hfree : ∀ j ∈ Header.itemCores e.header (tileOfCore k), ∃ i, s.freeSlot j = some i) {j : Nat}
    (hj : j ∈ Header.itemCores e.header (tileOfCore k)) :
    let j' := if tileOfCore j = leaderOf (tileOfCore k) then j + 2 else j - 2
    j' ∈ Header.itemCores e.header (tileOfCore k) ∧ (∃ p ∈ s.itemPairs k e.header, s.slot j = p.1 ∨ s.slot j = p.2) ∧
    ∀ p ∈ s.itemPairs k e.header, (s.slot j = p.1 → p.2 = s.slot j') ∧ (s.slot j = p.2 → p.1 = s.slot j') := by
  let L := leaderOf (tileOfCore k)
  have hcores := Header.itemCores_of_dbl hd (tileOfCore k)
  have hlead {i : Nat} (hi : i ∈ Header.tileCores e.header L) :
      i ∈ Header.itemCores e.header (tileOfCore k) ∧ i + 2 ∈ Header.itemCores e.header (tileOfCore k) := by
    rw [hcores, Header.tileCores_succ]
    exact ⟨List.mem_append_left _ hi, List.mem_append_right _ (List.mem_map_of_mem hi)⟩
  have hinj {a b : Nat} (ha : a ∈ Header.itemCores e.header (tileOfCore k)) (hb : b ∈ Header.itemCores e.header (tileOfCore k)) (h : s.slot a = s.slot b) :
      a = b := by
    rw [← (State.slot_of_free (hfree a ha)).2.1, h, (State.slot_of_free (hfree b hb)).2.1]
  have hpairs {p : Nat × Nat} (hp : p ∈ s.itemPairs k e.header) : ∃ i ∈ Header.tileCores e.header L, p = (s.slot i, s.slot (i + 2)) := by
    obtain ⟨i, hi, rfl⟩ := List.mem_map.1 hp
    exact ⟨i, hi, rfl⟩
  have hmem := hj
  rw [hcores, Header.tileCores_succ, List.mem_append, List.mem_map] at hmem
  obtain hl | ⟨i, hl, rfl⟩ := hmem
  · have htile : tileOfCore j = L := Header.tileOfCore_tileCores hl
    intro j'
    have hj' : j' = j + 2 := if_pos htile
    rw [hj']
    refine ⟨(hlead hl).2, ⟨_, List.mem_map_of_mem hl, .inl rfl⟩, fun p hp => ?_⟩
    obtain ⟨i, hi, rfl⟩ := hpairs hp
    refine ⟨fun h => by rw [hinj hj (hlead hi).1 h], fun h => ?_⟩
    have hne : tileOfCore (i + 2) = tileOfCore i + 1 := by unfold tileOfCore; omega
    rw [hinj hj (hlead hi).2 h, hne, Header.tileOfCore_tileCores hi] at htile
    omega
  · have htile : tileOfCore (i + 2) = L + 1 := by
      have hne : tileOfCore (i + 2) = tileOfCore i + 1 := by unfold tileOfCore; omega
      rw [hne, Header.tileOfCore_tileCores hl]
    intro j'
    have hj' : j' = i := if_neg (by omega)
    rw [hj']
    refine ⟨(hlead hl).1, ⟨_, List.mem_map_of_mem hl, .inr rfl⟩, fun p hp => ?_⟩
    obtain ⟨i', hi', rfl⟩ := hpairs hp
    refine ⟨fun h => ?_, fun h => ?_⟩
    · rw [hinj hj (hlead hi').1 h, Header.tileOfCore_tileCores hi'] at htile
      omega
    · have hii : i + 2 = i' + 2 := hinj hj (hlead hi').2 h
      rw [Nat.add_right_cancel hii]

end

/-- An item starts on every core that it runs on, and the contexts of a doubles item are partners (R46, R135, R144). -/
theorem execPoolFiringStart_starts {s : State} {id n : Nat} {e : Launch} (hc : s.firstCand s.arg.unit = some (.pool id n)) (he : s.launchOf id = some e) :
    ∃ t, exec .poolFiringStart s = .next t ∧
      (t.coreOf s.arg.unit).held = (s.coreOf s.arg.unit).held.filter (fun r => !(r.1 = id && r.2.1 = n)) ∧
      ∀ j i, j ∈ Header.itemCores e.header (tileOfCore s.arg.unit) → s.freeSlot j = some i → ∃ f g, t.ctxOf i = { poolCtx e n (j % 2 = 0) with
        occ := true, firing := f, pairFiring := if Header.dbl e.header then some g else none, pairCtx := if Header.dbl e.header then s.freeSlot
          (if tileOfCore j = leaderOf (tileOfCore s.arg.unit) then j + 2 else j - 2) else none } := by
  have hfree := State.freeSlots_of_pool hc he
  have hx : exec .poolFiringStart s = .next (s.startItem s.arg.unit id n) := by
    show execPoolFiringStart s = _
    simp only [execPoolFiringStart, hc]
  obtain ⟨hheld, hctx⟩ := State.itemSeated_effects (s := s) (id := id) (n := n) hfree
  refine ⟨_, hx, ?_⟩
  cases hd : Header.dbl e.header with
  | false =>
    rw [State.startItem_of_single he hd]
    refine ⟨hheld, fun j i hj hi => ?_⟩
    obtain ⟨f, hf⟩ := hctx j hj
    exact ⟨f, 0, State.slot_eq hi ▸ hf⟩
  | true =>
    rw [State.startItem_of_dbl he hd hfree]
    refine ⟨?_, fun j i hj hi => ?_⟩
    · exact ((Started.foldl State.started_link _ _).corePart Core.held (fun _ => rfl) _).trans hheld
    · obtain ⟨f, hf⟩ := hctx j hj
      obtain ⟨hj', hsome, hall⟩ := State.itemPairs_partner hd hfree hj
      obtain ⟨g, hg⟩ := State.ctxOf_links _ hall _ (.inl ⟨hf, hsome⟩)
      refine ⟨f, g, ?_⟩
      rw [State.slot_eq hi] at hg
      rw [hg, (State.slot_of_free (hfree _ hj')).1]
      rfl

end Sys2Proof.Machine
end

section
/-! SUPPORT. Work that comes to a core, footprints, resumption, and the reports of cores: R133, R136, R139, R141, R143, R147, R163, R183, R250, R253. -/

namespace Sys2Proof.Machine

/-! ### Items and tasks that come to a core (R136, R141, R143) -/

/-- Items that are taken for a core whose tile is on stand behind those that it holds. -/
theorem State.held_takeWork {s : State} {k : Nat} (e : Launch) (items : List Nat) (e' : Launch) (hp : (s.tileOf (tileOfCore k)).pwr = 0) :
    ((s.takeWork k (e, items, e')).coreOf k).held = (s.coreOf k).held ++ items.map (fun n => (e.id, n, s.rtime)) := by
  have hcore : (s.updLaunch e.id (fun _ => e')).coreOf k = s.coreOf k := (s.beyondCores_updLaunch e.id _).part (fun u => u.coreOf k) (fun _ => rfl)
  unfold State.takeWork
  simp only [hp, ne_eq, not_true_eq_false, if_false]
  cases items with
  | nil => simp
  | cons n l => simp [hcore]

theorem execTicketPull_takes {s : State} {e e' : Launch} {items : List Nat} (h : s.pullOf s.arg.unit = some (e, items, e'))
    (hp : (s.tileOf (tileOfCore s.arg.unit)).pwr = 0) : ∃ t, exec .ticketPull s = .next t ∧
      (t.coreOf s.arg.unit).held = (s.coreOf s.arg.unit).held ++ items.map (fun n => (e.id, n, s.rtime)) := by
  refine ⟨_, ?_, s.held_takeWork e items e' hp⟩
  show execTicketPull s = _
  simp only [execTicketPull, h]

theorem execTicketSteal_takes {s : State} {e e' : Launch} {items : List Nat} (h : s.ticketSteal s.arg.unit = some (e, items, e'))
    (hp : (s.tileOf (tileOfCore s.arg.unit)).pwr = 0) : ∃ t, exec .ticketSteal s = .next t ∧
      (t.coreOf s.arg.unit).held = (s.coreOf s.arg.unit).held ++ items.map (fun n => (e.id, n, s.rtime)) := by
  refine ⟨_, ?_, s.held_takeWork e items e' hp⟩
  show execTicketSteal s = _
  simp only [execTicketSteal, h]

/-- A core without its oldest task: of the deque and the spill ring together, the last one is gone. -/
theorem Core.tasks_dropOldest (k : Core) : k.dropOldest.deque ++ k.dropOldest.spill = (k.deque ++ k.spill).dropLast := by
  unfold Core.dropOldest
  cases hs : k.spill with
  | nil => simp
  | cons r l => simp [List.dropLast_append_of_ne_nil]

/-- The oldest task of the victim becomes the newest of the thief (R143). -/
theorem execTaskSteal_takes {s : State} {v : Nat} {r : TaskRec} (hv : s.taskVictim s.arg.unit = some v) (hne : v ≠ s.arg.unit)
    (hr : ((s.coreOf v).deque ++ (s.coreOf v).spill).getLast? = some r) (hp : (s.tileOf (tileOfCore s.arg.unit)).pwr = 0) :
    ∃ t, exec .taskSteal s = .next t ∧
      (t.coreOf s.arg.unit).deque = (if (s.coreOf v).spill = [] then r else ringRecord s v r) :: (s.coreOf s.arg.unit).deque ∧
      (t.coreOf v).deque ++ (t.coreOf v).spill = ((s.coreOf v).deque ++ (s.coreOf v).spill).dropLast := by
  let got := if (s.coreOf v).spill.isEmpty then r else s.readRing v r
  have hx : exec .taskSteal s = .next ((s.updCore v Core.dropOldest).updCore s.arg.unit (fun c => { c with deque := got :: c.deque })) := by
    show execTaskSteal s = _
    simp only [execTaskSteal, hv, hr, hp, ne_eq, not_true_eq_false, if_false]
    rfl
  have hgot : got = if (s.coreOf v).spill = [] then r else ringRecord s v r := by
    simp only [got, List.isEmpty_iff]
    rfl
  refine ⟨_, hx, ?_, ?_⟩
  · rw [State.coreOf_updCore_self, State.coreOf_updCore_other s _ hne.symm, hgot]
  · rw [State.coreOf_updCore_other _ _ hne, State.coreOf_updCore_self, Core.tasks_dropOldest]

/-! ### Footprints (R139) -/

section
variable {s : State} {id item u r : Nat} {e : Launch}

/-- What the copy of a region of a launch to a tile gives. -/
def State.regionCopy (s : State) (u r : Nat) (e : Launch) : Except (Option Cause) Memory :=
  s.copyRun (2 * u + 1) e.tag e.level ((Header.region e.header r).len / 0x1000 + 2) (Header.region e.header r).va
    (gpaKey (tileGpa u (Header.regionAt e.header r))) (Header.region e.header r).len s.mem

theorem execFootprintCopy_copies {m : Memory} (hw : s.footWanted s.arg.unit = some (id, item, u, r)) (he : s.launchOf id = some e) (hs : s.tileStill u = false)
    (hc : s.regionCopy u r e = .ok m) : ∃ t, exec .footprintCopy s = .next t ∧ t.mem = m ∧
      (t.tileOf u).foot = (s.tileOf u).foot ++
        [(id, r, Header.regionAt e.header r / 0x1000, (Header.region e.header r).len / 0x1000, (Header.region e.header r).pin)] := by
  refine ⟨({ s with mem := m } : State).updTile u (fun x => { x with foot := x.foot ++ [(id, r, Header.regionAt e.header r / 0x1000,
    (Header.region e.header r).len / 0x1000, (Header.region e.header r).pin)] }), ?_, rfl, ?_⟩
  · unfold State.regionCopy at hc
    show execFootprintCopy s = _
    simp only [execFootprintCopy, hw, he, hs, hc, Bool.false_eq_true, if_false]
  · rw [State.tileOf_updTile_self]
    rfl

theorem execFootprintCopy_fails {c : Cause} (hw : s.footWanted s.arg.unit = some (id, item, u, r)) (he : s.launchOf id = some e) (hs : s.tileStill u = false)
    (hc : s.regionCopy u r e = .error (some c)) : ∃ t, exec .footprintCopy s = .next t ∧
      (t.coreOf s.arg.unit).held = (s.coreOf s.arg.unit).held.filter (fun x => !(x.1 = id && x.2.1 = item)) ∧ t.mem = s.mem := by
  let s1 := s.updCore s.arg.unit (fun c => { c with held := c.held.filter (fun x => !(x.1 = id && x.2.1 = item)) })
  have hend : BeyondCores s1 (s1.endItem id (Header.itemWid e.header item) (some c)) := s1.beyondCores_endItem _ _ _
  refine ⟨s1.endItem id (Header.itemWid e.header item) (some c), ?_, ?_, hend.part State.mem (fun _ => rfl)⟩
  · unfold State.regionCopy at hc
    show execFootprintCopy s = _
    simp only [execFootprintCopy, hw, he, hs, hc, Bool.false_eq_true, if_false]
    rfl
  · have hcore : (s1.endItem id (Header.itemWid e.header item) (some c)).coreOf s.arg.unit = s1.coreOf s.arg.unit :=
      hend.part (fun u => u.coreOf s.arg.unit) (fun _ => rfl)
    rw [hcore, State.coreOf_updCore_self]

end

/-! ### Resumption (R163, R183) -/

section
variable {s : State}

theorem State.coreResumes_of_free {k : Nat} (h : coreFree s k) : s.coreResumes k = true := by
  obtain ⟨hworks, htest, hstill, hleave, hstep⟩ := h
  simp [State.coreResumes, hworks, htest, hstill, hleave, hstep]

/-- A firing that is parked in its slot runs again there. -/
theorem execParkResume_inPlace (hr : (s.resumable s.arg.unit).contains s.arg.other = true) (hp : (s.tileOf (tileOfCore s.arg.unit)).pwr = 0)
    (hf : coreFree s s.arg.unit) (he : 64 ≤ s.arg.other) :
    exec .parkResume s = .next (s.updCtx (8 * s.arg.unit + (s.arg.other - 64)) Ctx.resumed) := by
  show execParkResume s = _
  simp only [execParkResume, hr, hp, State.coreResumes_of_free hf, Bool.not_true, Bool.false_eq_true, ne_eq, not_true_eq_false, if_false, ge_iff_le, he, if_true]

/-- The context that a firing has moved to, and the parked firings of its core, are not among what names its old place (R183). -/
theorem State.moveFiring_effects (s : State) (n i k : Nat) :
    (s.moveFiring n i).ctxOf i = s.ctxOf i ∧ ((s.moveFiring n i).coreOf k).parked = (s.coreOf k).parked := by
  have hctx := KMap.get_map (m := s.ctxs) (d := {}) (k := i) (fun j (c : Ctx) => if j ≠ i && (match c.pairCtx with
    | some _ => (s.ctxOf i).pairCtx = some j
    | none => false) then { c with pairCtx := some i } else c) (.inr (by simp))
  have hcore := KMap.get_map (m := s.cores) (d := {}) (k := k) (fun _ (c : Core) =>
    { c with streams := c.streams.map (fun q => (q.1, if q.2.firing = n then { q.2 with ctx := i } else q.2)) }) (.inr rfl)
  refine ⟨hctx.trans ?_, ?_⟩
  · simp only [ne_eq, not_true_eq_false, decide_false, Bool.false_and, Bool.false_eq_true, if_false]
    rfl
  · exact (congrArg Core.parked hcore :)

/-- A firing of the park area runs again in the lowest free slot. -/
theorem execParkResume_fromArea {i : Nat} (hr : (s.resumable s.arg.unit).contains s.arg.other = true) (hp : (s.tileOf (tileOfCore s.arg.unit)).pwr = 0)
    (hf : coreFree s s.arg.unit) (he : s.arg.other < 64) (hi : s.freeSlot s.arg.unit = some i) : ∃ t, exec .parkResume s = .next t ∧
      t.ctxOf i = ((s.coreOf s.arg.unit).parked.get {} s.arg.other).resumed ∧ (t.coreOf s.arg.unit).parked = (s.coreOf s.arg.unit).parked.drop s.arg.other := by
  let c := (s.coreOf s.arg.unit).parked.get {} s.arg.other
  let s1 := ({ s with ctxs := s.ctxs.put i c.resumed } : State).updCore s.arg.unit (fun x => { x.roused s.rtime with parked := x.parked.drop s.arg.other })
  obtain ⟨hctx, hparked⟩ := s1.moveFiring_effects c.firing i s.arg.unit
  refine ⟨s1.moveFiring c.firing i, ?_, ?_, ?_⟩
  · show execParkResume s = _
    simp only [execParkResume, hr, hp, State.coreResumes_of_free hf, Bool.not_true, Bool.false_eq_true, ne_eq, not_true_eq_false, if_false, ge_iff_le,
      Nat.not_le.2 he, hi]
    rfl
  · rw [hctx]
    exact KMap.get_put_self _ _ _ _
  · rw [hparked, State.coreOf_updCore_self]
    rfl

end

/-! ### The end of a launch (R133, R147) -/

theorem KMap.mem_of_find? {α : Type} {m : KMap α} {k : Nat} {a : α} (h : m.find? k = some a) : (k, a) ∈ m := by
  induction m with
  | nil => cases h
  | cons e m ih =>
    obtain ⟨j, b⟩ := e
    by_cases hj : j = k
    · simp [KMap.find?, hj] at h
      simp [hj, h]
    · exact List.mem_cons_of_mem _ (ih (by simpa [KMap.find?, hj] using h))

/-- A launch that is freed is in the queue of its hub no more. -/
theorem Hub.launchIn_freed (h : Hub) (id : Nat) : launchIn (h.mapLaunch id (fun _ => none)).launches id = none := by
  unfold Hub.mapLaunch
  simp only
  split
  · refine Option.filter_eq_none_iff.2 fun e he hid => ?_
    obtain ⟨x, -, hx⟩ := List.mem_filterMap.1 (KMap.mem_of_find? he)
    split at hx
    · cases hx
    next hne =>
      cases hx
      exact hne ⟨rfl, of_decide_eq_true hid⟩
  next hnone => exact Option.not_isSome_iff_eq_none.1 hnone

theorem execLaunchComplete_frees {s : State} {e : Launch} (ho : s.launchOver s.arg.unit = true) (he : s.launchOf s.arg.unit = some e) (hh : e.host = true) :
    ∃ t, exec .launchComplete s = .next t ∧ t.loith.events = s.loith.events + 1 ∧
      launchIn (t.hubOf (launchField s.arg.unit)).launches s.arg.unit = none := by
  refine ⟨(s.launchEvent e).freeLaunch s.arg.unit, ?_, rfl, ?_⟩
  · show execLaunchComplete s = _
    simp only [execLaunchComplete, ho, he, hh, Bool.not_true, Bool.false_eq_true, if_false, if_true]
  · have hhub : ((s.launchEvent e).freeLaunch s.arg.unit).hubOf (launchField s.arg.unit) =
        ((s.launchEvent e).hubOf (launchField s.arg.unit)).mapLaunch s.arg.unit (fun _ => none) :=
      (State.hubOf_updHub_self (s.launchEvent e) (launchField s.arg.unit) (fun h => h.mapLaunch s.arg.unit (fun _ => none)) :)
    rw [hhub, Hub.launchIn_freed]

/-! ### Reports (R250, R253) -/

/-- A platform event is one packet for the platform, of its cause's class (R237, R239). -/
theorem State.plat_report (s : State) (f : Nat) {cause : Nat} (hc : cause < 0x200) (tag : Nat) (items tags : List Nat) :
    ∃ p, (s.report f cause tag items tags).plat = s.plat ++ [p] ∧ msgClass p = 0xFE00 + cause := by
  have hclass : (BitVec.ofNat 64 ((0xFE00 + cause) * 2 ^ 48 + 7)).toNat / 2 ^ 48 = 0xFE00 + cause := by
    rw [BitVec.toNat_ofNat, Nat.mod_eq_of_lt (by omega)]
    omega
  unfold State.report
  simp only
  split <;> exact ⟨_, rfl, hclass⟩

theorem execCoreHang_reports {s : State} (h : s.hangDue s.arg.unit = true) : ∃ t, exec .coreHang s = .next t ∧ (t.coreOf s.arg.unit).hung = true ∧
    ∃ p, t.plat = s.plat ++ [p] ∧ msgClass p = 0xFE00 + Cause.coreHang := by
  let f := fieldOfTile (tileOfCore s.arg.unit)
  let s1 := (s.updCore s.arg.unit (fun c => { c with hung := true })).retestCore s.arg.unit
  have htold : Told s1 (s1.report f .coreHang (s.hubOf f).runTag []) := s1.told_report _ _ _ _ _
  refine ⟨s1.report f .coreHang (s.hubOf f).runTag [], ?_, ?_, s1.plat_report f (by decide) _ _ _⟩
  · show execCoreHang s = _
    simp only [execCoreHang, h, Bool.not_true, Bool.false_eq_true, if_false]
    rfl
  · have hcore : (s1.report f .coreHang (s.hubOf f).runTag []).coreOf s.arg.unit = s1.coreOf s.arg.unit := htold.part (fun u => u.coreOf s.arg.unit) (fun _ => rfl)
    have hs1 : s1.coreOf s.arg.unit = (s.updCore s.arg.unit (fun c => { c with hung := true })).coreOf s.arg.unit := rfl
    rw [hcore, hs1, State.coreOf_updCore_self]

theorem execWdogReport_reports {s : State} (h : s.wdogDue s.arg.unit = true) : ∃ t, exec .wdogReport s = .next t ∧
    t.ctxOf s.arg.unit = { s.ctxOf s.arg.unit with reported := true } := by
  let c := s.ctxOf s.arg.unit
  let s1 := s.postPacket s.arg.unit 1 ((c.stall.map (fun p => p.2)).getD 0) false 0 c.pc 0 0 0
  have hctxs : s1.ctxs = s.ctxs := State.ctxs_postFor _ _ _ _ _ _ _ _ _ _ _ _
  refine ⟨s1.updCtx s.arg.unit (fun c => { c with reported := true }), ?_, ?_⟩
  · show execWdogReport s = _
    simp only [execWdogReport, h, Bool.not_true, Bool.false_eq_true, if_false]
    rfl
  · rw [State.ctxOf_updCtx_self, State.ctxOf_congr hctxs]

/-- Settles O54: each event by the lemma that says what it does. -/
theorem workStartsOnCores : Obligations.WorkStartsOnCores := by
  unfold Obligations.WorkStartsOnCores
  refine ⟨?_, ?_, ?_, ?_, ?_, ?_, ?_, ?_, ?_, ?_, ?_, ?_, ?_, ?_⟩
  · exact fun a i p m s ⟨hc, hi, ht, hm, hd⟩ => execFiringStart_starts hc hi ht hm hd
  · exact fun id n e s ⟨hc, he⟩ => execPoolFiringStart_starts hc he
  · exact fun i r rs s ⟨hc, hi, hd⟩ => execTaskStart_starts hc hi hd
  · exact fun m k s ⟨hm, hdorm, hstill, hdev, hto, htag, hsw, hdest, hocc, hpow, hpwr⟩ =>
      execDormantStart_starts hm hdorm hstill hdev hto htag hsw hdest hocc hpow hpwr
  · exact fun e items e' s ⟨h, hp⟩ => execTicketPull_takes h hp
  · exact fun e items e' s ⟨h, hp⟩ => execTicketSteal_takes h hp
  · exact fun v r s ⟨hv, hne, hr, hp⟩ => execTaskSteal_takes hv hne hr hp
  · exact fun id item u r e m s ⟨hw, he, hs, hc⟩ => execFootprintCopy_copies hw he hs hc
  · exact fun id item u r e c s ⟨hw, he, hs, hc⟩ => execFootprintCopy_fails hw he hs hc
  · exact fun s ⟨hr, hp, hf, he⟩ => ⟨_, execParkResume_inPlace hr hp hf he, State.ctxOf_updCtx_self _ _ _⟩
  · exact fun i s ⟨hr, hp, hf, he, hi⟩ => execParkResume_fromArea hr hp hf he hi
  · exact fun e s ⟨ho, he, hh⟩ => execLaunchComplete_frees ho he hh
  · exact fun s h => execCoreHang_reports h
  · exact fun s h => execWdogReport_reports h

end Sys2Proof.Machine
end

section
/-! SUPPORT. What a bundle that falls through keeps of its context and core, and the registers it reads by words: R180, R184, R197, R323. -/

namespace Sys2Proof.Machine

/-! ### The issuing context and its core after a bundle falls through (R184, R197) -/

/-- What decides the address after a bundle: the PC, the loop counters and the start of the code (R197). -/
def Ctx.flow (c : Ctx) : Ctx := { pc := c.pc, lc := c.lc, codelo := c.codelo }

theorem Ctx.pc_retireTo_flow (c : Ctx) (npc : Word) : (c.flow.retireTo npc).pc = (c.retireTo npc).pc := by
  rw [Ctx.pc_retireTo, Ctx.pc_retireTo]
  rfl

/-- A context but for its PC, its loop counters and what retirement clears. -/
def Ctx.unretired (c : Ctx) : Ctx :=
  { c with pc := 0, lc := [], stall := none, reported := false, hold := none, reply := none, refusedArr := false, aDone := false }

theorem Ctx.unretired_retireTo (c : Ctx) (npc : Word) : (c.retireTo npc).unretired = c.unretired := by
  unfold Ctx.retireTo
  simp only
  split_ifs <;> rfl

section
variable {s t : State}

theorem State.pc_fall_of_flow (h : t.cx.flow = s.cx.flow) : t.fall.cx.pc = s.fall.cx.pc := by
  have hpc : t.cx.pc = s.cx.pc := (congrArg Ctx.pc h :)
  rw [State.fall_eq, State.fall_eq, State.cx_retire, State.cx_retire, hpc]
  show (t.cx.retireTo _).pc = (s.cx.retireTo _).pc
  rw [← Ctx.pc_retireTo_flow t.cx, h, Ctx.pc_retireTo_flow]

/-- A part of the issuing context that retirement leaves. -/
theorem State.cxPart_fall {α : Type} (s : State) (p : Ctx → α) (hp : ∀ c : Ctx, p c.unretired = p c) : p s.fall.cx = p s.cx := by
  have h : s.fall.cx.unretired = s.cx.unretired := by
    rw [State.fall_eq, State.cx_retire, ← Ctx.unretired_retireTo s.cx (s.cx.pc + 8)]
    rfl
  rw [← hp s.fall.cx, h, hp s.cx]

/-- A part of the issuing context other than its registers. -/
theorem State.cxPart_setX {α : Type} (s : State) (r : BitVec 5) (v : Word) (p : Ctx → α) (hp : ∀ (c : Ctx) (l : KMap Word), p { c with x := l } = p c) :
    p (s.setX r v).cx = p s.cx := by
  rw [State.cx_setX, hp]

theorem State.x_of_regs (h : t.cx.x = s.cx.x) (r : BitVec 5) : t.x r = s.x r := by
  rw [State.x, State.x, h]

@[simp] theorem State.core_setX (s : State) (r : BitVec 5) (v : Word) : (s.setX r v).core = s.core := (congrArg State.core (s.setX_keeps r v) :)

theorem State.core_fall (s : State) : s.fall.core = { s.core with retired := s.rtime, hung := false } := State.core_updCurCore _ _

/-- A result in a state of the same flow and registers: the bundle falls through as it would have, and XD alone changes. -/
theorem State.result_of_flow (hflow : t.cx.flow = s.cx.flow) (hx : t.cx.x = s.cx.x) (r : BitVec 5) (v : Word) :
    (t.setX r v).fall.cx.pc = s.fall.cx.pc ∧ (t.setX r v).fall.x r = (if r = 0 then 0 else v) ∧ ∀ q, q ≠ r → (t.setX r v).fall.x q = s.x q := by
  refine ⟨State.pc_fall_of_flow ?_, ?_, fun q hq => ?_⟩
  · rw [State.cxPart_setX t r v Ctx.flow (fun _ _ => rfl), hflow]
  · rw [State.x_fall, State.x_setX, if_pos rfl]
  · rw [State.x_fall, State.x_setX, if_neg hq, State.x_of_regs hx]

end

/-! ### Bits of a field -/

/-- A bit of a field of a number is the bit of the number above the field's place. -/
theorem bitAt_bitsAt (v lo : Nat) {hi i : Nat} (h : i < hi + 1 - lo) : bitAt (bitsAt v hi lo) i = v.testBit (lo + i) := by
  rw [bitAt_eq_testBit, bitsAt, Nat.testBit_mod_two_pow, Nat.testBit_div_two_pow, Nat.add_comm i lo]
  simp [h]

theorem bitAt_bitsOf (w : Word) (lo : Nat) {hi i : Nat} (h : i < hi + 1 - lo) : bitAt (bitsOf w hi lo) i = w.getLsbD (lo + i) :=
  bitAt_bitsAt w.toNat lo h

theorem bitAt_toNat {n : Nat} (w : BitVec n) (i : Nat) : bitAt w.toNat i = w.getLsbD i := bitAt_eq_testBit _ _

end Sys2Proof.Machine
end

section
/-! SUPPORT. The capability instructions, and the control packets of `wake` and `halt`: R168 to R170, R323, R329, R330. -/

namespace Sys2Proof.Machine

/-! ### The fields of a capability (R168) -/

/-- Bits [13:0] of a capability are reserved, and its seal is that of its low half (R169). -/
theorem State.capGenuine_iff (s : State) (lo hi : Word) : s.capGenuine lo hi = true ↔ lo.toNat % 2 ^ 14 = 0 ∧ hi = s.sealWord lo := by
  simp [State.capGenuine, bitsOf, bitsAt, decide_eq_true_eq]

theorem State.capGenuine_eq_false_iff (s : State) (lo hi : Word) : s.capGenuine lo hi = false ↔ lo.toNat % 2 ^ 14 ≠ 0 ∨ hi ≠ s.sealWord lo := by
  rw [← Bool.not_eq_true, s.capGenuine_iff, not_and_or]

/-- Another owner leaves every other field. -/
theorem capWithOwner_fields (lo : Word) {owner : Nat} (h : owner < 256) :
    (capWithOwner lo owner).toNat / 2 ^ 46 % 256 = owner ∧ (capWithOwner lo owner).toNat / 2 ^ 54 = lo.toNat / 2 ^ 54 ∧
    (capWithOwner lo owner).toNat % 2 ^ 46 = lo.toNat % 2 ^ 46 := by
  have hlo := lo.isLt
  simp only [capWithOwner, capOwner, bitsOf, bitsAt, BitVec.toNat_ofNat]
  omega

/-- Other rights and ports leave every other field. -/
theorem capWithRights_fields (lo : Word) {rights ports : Nat} (hr : rights < 16) (hp : ports < 16) :
    (capWithRights lo rights ports).toNat / 2 ^ 14 % 16 = rights ∧ (capWithRights lo rights ports).toNat / 2 ^ 18 % 16 = ports ∧
    (capWithRights lo rights ports).toNat / 2 ^ 22 = lo.toNat / 2 ^ 22 ∧ (capWithRights lo rights ports).toNat % 2 ^ 14 = lo.toNat % 2 ^ 14 := by
  have hlo := lo.isLt
  simp only [capWithRights, capRights, capPorts, bitsOf, bitsAt, BitVec.toNat_ofNat]
  omega

/-! ### The instructions (R170, R323, R329) -/

section
variable {s : State} {f : FmtCR}

theorem execCapMint_of_accepts (ha : s.accepts (.capMint f)) : exec (.capMint f) s =
    if (s.x f.xa).toNat % 2 ^ 14 ≠ 0 ∨ ((s.x f.xa).getLsbD 28 = true ∧ (s.x f.xa).toNat / 2 ^ 22 % 64 ≠ 0) then s.faultC .capTarget 0 (s.x f.xa).toNat
    else s.resultCap f.xd (if 2 ≤ s.level then s.x f.xa else capWithOwner (s.x f.xa) s.tag) := by
  refine (show execCapMint f s = _ from State.slotC_of_accepts ha _).trans ?_
  simp only [capWhole, bitAt_toNat, capAct, bitsOf, bitsAt, Nat.pow_zero, Nat.div_one]
  rfl

theorem execCapNarrow_of_accepts (ha : s.accepts (.capNarrow f)) : exec (.capNarrow f) s =
    let a := s.x f.xa
    let b := (s.x f.xb).toNat
    if s.capGenuine a (s.x (f.xa + 1)) = false then s.faultC .capForged 0 a.toNat
    else if 256 ≤ b ∨ b % 16 &&& a.toNat / 2 ^ 14 % 16 ≠ b % 16 ∨ b / 16 % 16 &&& a.toNat / 2 ^ 18 % 16 ≠ b / 16 % 16 then s.faultC .capRights 0 a.toNat
    else s.resultCap f.xd (capWithRights a (b % 16) (b / 16 % 16)) := by
  refine (show execCapNarrow f s = _ from State.slotC_of_accepts ha _).trans ?_
  refine if_congr (by rw [Bool.not_eq_true']) rfl (if_congr ?_ rfl (congrArg (s.resultCap f.xd) ?_))
  · have hhigh : bitsOf (s.x f.xb) 63 8 ≠ 0 ↔ 256 ≤ (s.x f.xb).toNat := by
      have hb := (s.x f.xb).isLt
      simp only [bitsOf, bitsAt]
      omega
    rw [Bool.or_eq_true, Bool.or_eq_true, decide_eq_true_iff, decide_eq_true_iff, decide_eq_true_iff, hhigh, or_assoc]
    simp [capRights, capPorts, bitsOf, bitsAt]
  · simp [bitsOf, bitsAt]

theorem execCapSelf_of_accepts (ha : s.accepts (.capSelf f)) : exec (.capSelf f) s = s.resultCap f.xd (s.selfWord 2) :=
  show execCapSelf f s = _ from State.slotC_of_accepts ha _

end

theorem capabilityInstructionsSealTheirResult_holds : capabilityInstructionsSealTheirResult := by
  intro f s a hi b pair
  have hgen : a.toNat % 2 ^ 14 = 0 → hi = s.sealWord a → ¬s.capGenuine a hi = false := fun hlow hseal => by
    rw [Bool.not_eq_false, s.capGenuine_iff]
    exact ⟨hlow, hseal⟩
  have hmint : a.toNat % 2 ^ 14 = 0 → a.getLsbD 28 = false ∨ a.toNat / 2 ^ 22 % 64 = 0 →
      ¬(a.toNat % 2 ^ 14 ≠ 0 ∨ (a.getLsbD 28 = true ∧ a.toNat / 2 ^ 22 % 64 ≠ 0)) := fun hlow hact =>
    not_or.2 ⟨not_not_intro hlow, fun ⟨hwhole, hactor⟩ => hact.elim (ne_false_of_eq_true hwhole) hactor⟩
  refine ⟨fun ha hbad => ?_, fun ha hlow hact => ⟨fun hl => ?_, fun hl htag => ⟨capWithOwner a s.tag, ?_, capWithOwner_fields a htag⟩⟩, fun ha hbad => ?_,
    fun ha hlow hseal => ⟨fun hbad => ?_, fun hlt hr hp => ?_⟩, execCapSelf_of_accepts⟩
  · exact (execCapMint_of_accepts ha).trans (if_pos hbad)
  · exact (execCapMint_of_accepts ha).trans ((if_neg (hmint hlow hact)).trans (by rw [if_pos hl]; rfl))
  · exact (execCapMint_of_accepts ha).trans ((if_neg (hmint hlow hact)).trans (by rw [if_neg (Nat.not_le.2 hl)]; rfl))
  · exact (execCapNarrow_of_accepts ha).trans (if_pos ((s.capGenuine_eq_false_iff a hi).2 hbad))
  · exact (execCapNarrow_of_accepts ha).trans ((if_neg (hgen hlow hseal)).trans (if_pos hbad))
  · have hport : b / 16 % 16 = b / 16 := by omega
    obtain ⟨hrights, hports, hhigh, hzero⟩ := capWithRights_fields a (rights := b % 16) (ports := b / 16 % 16) (by omega) (by omega)
    refine ⟨capWithRights a (b % 16) (b / 16 % 16), ?_, hrights, hports.trans hport, hhigh, hzero.trans hlow⟩
    refine (execCapNarrow_of_accepts ha).trans ((if_neg (hgen hlow hseal)).trans (if_neg ?_))
    rw [hport]
    exact not_or.2 ⟨Nat.not_le.2 hlt, not_or.2 ⟨not_not_intro hr, not_not_intro hp⟩⟩

/-! ### Control packets (R169, R330) -/

/-- The right that a control packet needs: wake is bit 15 of the capability's low half, halt bit 16. -/
theorem capHas_control (lo : Word) (wake : Bool) : capHas lo (if wake then rightWake else rightHalt) = lo.getLsbD (if wake then 15 else 16) := by
  cases wake
  · exact bitAt_bitsOf lo 14 (by decide)
  · exact bitAt_bitsOf lo 14 (by decide)

/-- The state in which a control packet with a capability has left. -/
def State.controlled (s : State) (lo hi : Word) (wake : Bool) : State :=
  ({ s with ctls := s.ctls ++ [{ wake := wake, capLo := lo, capHi := hi, srcCore := coreOfCtx s.cur, srcAct := some s.agentKey, home := s.homeWord }] } : State).fall

theorem State.control_eq (s : State) (xb : BitVec 5) (wake : Bool) : s.control xb wake =
    if s.capGenuine (s.x xb) (s.x (xb + 1)) = false then s.faultC .capForged 0 (s.x xb).toNat
    else if (s.x xb).getLsbD (if wake then 15 else 16) = false then s.faultC .capRights 0 (s.x xb).toNat
    else .next (s.controlled (s.x xb) (s.x (xb + 1)) wake) := by
  simp only [State.control, State.pairAt, State.capCheck, capHas_control]
  cases s.capGenuine (s.x xb) (s.x (xb + 1)) with
  | false => rfl
  | true => cases (s.x xb).getLsbD (if wake then 15 else 16) <;> rfl

/-- `wake` and `halt` are one operation on the pair at XB. -/
theorem exec_control_of_accepts {s : State} {f : FmtCR} {i : Instr} {wake : Bool} (hi : (i = .wake f ∧ wake = true) ∨ (i = .halt f ∧ wake = false))
    (ha : s.accepts i) : exec i s = s.control f.xb wake := by
  obtain ⟨rfl, rfl⟩ | ⟨rfl, rfl⟩ := hi
  · exact show execWake f s = _ from State.slotC_of_accepts ha _
  · exact show execHalt f s = _ from State.slotC_of_accepts ha _

theorem wakeAndHaltSendControlPackets_holds : wakeAndHaltSendControlPackets := by
  intro f s i wake hi ha lo high
  rw [exec_control_of_accepts hi ha, s.control_eq]
  have hgen : lo.toNat % 2 ^ 14 = 0 → high = s.sealWord lo → ¬s.capGenuine lo high = false := fun hlow hseal => by
    rw [Bool.not_eq_false, s.capGenuine_iff]
    exact ⟨hlow, hseal⟩
  refine ⟨fun hbad => if_pos ((s.capGenuine_eq_false_iff lo high).2 hbad), fun hlow hseal hright => (if_neg (hgen hlow hseal)).trans (if_pos hright),
    fun hlow hseal hright => ⟨s.controlled lo high wake, _, (if_neg (hgen hlow hseal)).trans (if_neg (ne_false_of_eq_true hright)), rfl, rfl, rfl, rfl, rfl, rfl⟩⟩

/-- Settles O34: the capability instructions, and the control packets. -/
theorem capabilitiesAndControlPackets : Obligations.CapabilitiesAndControlPackets :=
  ⟨capabilityInstructionsSealTheirResult_holds, wakeAndHaltSendControlPackets_holds⟩

end Sys2Proof.Machine
end

section
/-! SUPPORT. Operands in vector registers that are bound to no stream: R180, R184, R191, R201, R276. -/

namespace Sys2Proof.Machine

theorem State.formCause_of_accepts {s : State} {i : Instr} (h : s.accepts i) : formCause i s.cx.long s.level = none := by
  unfold State.accepts slotCause at h
  split at h
  · cases h
  · exact h

theorem gatherReads_ok (l : List Nat) : gatherReads (l.map .ok) = .ok l := by
  induction l with
  | nil => rfl
  | cons v l ih => simp only [List.map_cons, gatherReads, ih]

section
variable {s t : State} {r : Nat}

/-- The streams of a firing are those of its core, outside long mode (R189, R190). -/
theorem State.streamOf_congr (hlong : t.cx.long = s.cx.long) (hfiring : t.cx.firing = s.cx.firing) (hcore : t.core = s.core) (r : Nat) :
    t.streamOf r = s.streamOf r := by
  rw [State.streamOf, State.streamOf, hlong, hfiring, hcore]

theorem State.vecIn_of_unbound (h : s.streamOf r = none) : s.vecIn r = .ok (s.ownVec r) := by
  unfold State.vecIn State.ownVec
  rw [h]
  split <;> rfl

theorem State.vecOut_of_unbound (h : s.streamOf r = none) : s.vecOut r = .ok 0 := by
  unfold State.vecOut
  rw [h]

/-- Operands bound to no stream neither stall nor fault. -/
theorem State.withVecs_of_unbound {slotA : Bool} {ins outs : List Nat} (h : ∀ r ∈ ins ++ outs, s.streamOf r = none) (k : List Nat → Out) :
    s.withVecs slotA ins outs k = k (ins.map s.ownVec ++ outs.map (fun _ => 0)) := by
  have hins : ins.map s.vecIn = (ins.map s.ownVec).map .ok := by
    rw [List.map_map]
    exact List.map_congr_left fun r hr => State.vecIn_of_unbound (h r (List.mem_append_left _ hr))
  have houts : outs.map s.vecOut = (outs.map (fun _ => 0)).map .ok := by
    rw [List.map_map]
    exact List.map_congr_left fun r hr => State.vecOut_of_unbound (h r (List.mem_append_right _ hr))
  rw [State.withVecs, hins, houts, ← List.map_append, gatherReads_ok]

theorem State.popStreams_of_unbound {rs : List Nat} (h : ∀ r ∈ rs, s.streamOf r = none) : s.popStreams rs = s := by
  unfold State.popStreams
  refine List.foldlRecOn (motive := fun u => u = s) _ _ rfl (fun u hu r hr => ?_)
  rw [hu, h r (List.mem_eraseDups.1 hr)]

theorem State.setVec_of_unbound (hlong : s.cx.long = false) (h : s.streamOf r = none) (v : Nat) :
    s.setVec r v = s.upd (fun c => { c with v := c.v.put r (BitVec.ofNat 256 v) }) := by
  unfold State.setVec
  rw [if_neg (by simp [hlong]), h]

/-- Two registers that take values: the context's vector registers alone change. -/
theorem State.setVec_pair_effects (hlong : s.cx.long = false) (h : s.streamOf r = none) (h1 : s.streamOf (r + 1) = none) (v w : Nat) :
    let t := (s.setVec r v).setVec (r + 1) w
    t.cx = { s.cx with v := (s.cx.v.put r (BitVec.ofNat 256 v)).put (r + 1) (BitVec.ofNat 256 w) } ∧ t.core = s.core := by
  rw [State.setVec_of_unbound hlong h]
  let u : State := s.upd (fun c => { c with v := c.v.put r (BitVec.ofNat 256 v) })
  have hcx : u.cx = { s.cx with v := s.cx.v.put r (BitVec.ofNat 256 v) } := s.cx_upd _
  have hbound : u.streamOf (r + 1) = none := (State.streamOf_congr (s := s) (t := u) (by rw [hcx]) (by rw [hcx]) rfl (r + 1)).trans h1
  rw [State.setVec_of_unbound (s := u) (by rw [hcx, hlong]) hbound]
  exact ⟨by rw [State.cx_upd, hcx], rfl⟩

end

end Sys2Proof.Machine
end

section
/-! SUPPORT. The port instructions of an actor's firing: R153, R161, R323, R328. -/

namespace Sys2Proof.Machine

/-! ### Messages that leave a port (R153) -/

/-- A port without its oldest messages holds those of the port that it was. -/
theorem portHolds_of_drop {s : State} {u n : Nat} {q r p : Port} {l : List Msg} (hoq : r.oq = q.oq.drop n) (hword : r.word = q.word) (h : portHolds s u r p l) :
    portHolds s u q p l := by
  obtain ⟨hall, ⟨j, hj⟩, hwords⟩ := h
  rw [hword] at hwords
  exact ⟨hall, ⟨n + j, by rw [hj, hoq, List.drop_drop]⟩, hwords⟩

theorem portHolds_dropHeads (s : State) (k : Nat) (q : Port) (n : Nat) :
    portHolds s (tileOfCore k) q ((q.dropHead n).settled s.mem k) ((q.hwPart ++ q.oq).drop n) := by
  rw [List.drop_append]
  let r : Port := { q with hwPart := q.hwPart.drop n, oq := q.oq.drop (n - q.hwPart.length) }
  have h : portHolds s (tileOfCore k) r ((q.dropHead n).settled s.mem k) (r.hwPart ++ r.oq) := portHolds_of_refill s k rfl rfl
  exact portHolds_of_drop (n := n - q.hwPart.length) (q := q) (r := r) rfl rfl h

theorem Port.word_dropHead (q : Port) (n : Nat) (mem : Memory) (k : Nat) : ((q.dropHead n).settled mem k).word = q.word := by
  rw [Port.settled_eq]
  exact (Port.refill_effects _).2.2

/-! ### The port that an instruction names (R323) -/

/-- The actor of a context: none for a pool firing or task. -/
def Ctx.actorOf (c : Ctx) : Option Nat := if c.pool || c.task then none else some c.act

section
variable {s t : State} {n : Nat} {q : Port}

theorem State.ownPort_eq_some_iff : s.ownPort n = some q ↔ ∃ a, s.cx.actorOf = some a ∧ (s.core.actorAt a).portAt n = q ∧ portEnabled q.word = true := by
  unfold State.ownPort Ctx.actorOf
  by_cases h : (s.cx.pool || s.cx.task) = true
  · simp [h]
  · simp only [h, Bool.false_eq_true, if_false]
    grind

theorem State.updOwnPort_eq (s : State) (n : Nat) (g : Port → Port) : s.updOwnPort n g = s.updCurCore (fun k =>
    k.setPort s.cx.act n ((g ((k.actorAt s.cx.act).portAt n)).settled s.mem (coreOfCtx s.cur))) := rfl

/-- Of the issuing core a change of an own port changes the actors alone. -/
theorem State.updOwnPort_keeps (s : State) (n : Nat) (g : Port → Port) : { (s.updOwnPort n g).core with actors := s.core.actors } = s.core := by
  rw [State.updOwnPort_eq, State.core_updCurCore]
  rfl

theorem State.portAt_updOwnPort (s : State) (n : Nat) (g : Port → Port) : ((s.updOwnPort n g).core.actorAt s.cx.act).portAt n =
    (g ((s.core.actorAt s.cx.act).portAt n)).settled s.mem (coreOfCtx s.cur) := by
  rw [State.updOwnPort_eq, State.core_updCurCore, Core.portAt_setPort]

theorem Ctx.act_of_actorOf {c : Ctx} {a : Nat} (h : c.actorOf = some a) : c.act = a := by
  unfold Ctx.actorOf at h
  split at h
  · cases h
  · exact Option.some.inj h

/-- The named port once its oldest messages are gone: it is the same firing's, and holds the rest. -/
theorem State.ownPort_dropped (h : s.ownPort n = some q) (k : Nat) (hactor : t.cx.actorOf = s.cx.actorOf)
    (hactors : t.core.actors = (s.updOwnPort n (fun q => q.dropHead k)).core.actors) :
    ∃ p, t.ownPort n = some p ∧ portHolds s (tileOfCtx s.cur) q p ((q.hwPart ++ q.oq).drop k) := by
  obtain ⟨a, ha, hport, hon⟩ := State.ownPort_eq_some_iff.1 h
  have htile : tileOfCtx s.cur = tileOfCore (coreOfCtx s.cur) := by
    simp only [tileOfCtx, tileOfCore, coreOfCtx]
    omega
  have hdropped : (t.core.actorAt a).portAt n = (q.dropHead k).settled s.mem (coreOfCtx s.cur) := by
    rw [Core.actorAt, hactors, ← hport, ← Ctx.act_of_actorOf ha]
    exact s.portAt_updOwnPort n (fun q => q.dropHead k)
  refine ⟨_, State.ownPort_eq_some_iff.2 ⟨a, hactor.trans ha, hdropped, ?_⟩, ?_⟩
  · rw [Port.word_dropHead]
    exact hon
  · rw [htile]
    exact portHolds_dropHeads s _ q k

theorem State.withPort_of_none (h : s.ownPort n = none) (k : Port → Out) : s.withPort n k = s.faultC .badRegister := by
  rw [State.withPort, h]

theorem State.withPort_of_some (h : s.ownPort n = some q) (k : Port → Out) : s.withPort n k = k q := by
  rw [State.withPort, h]

end

/-! ### The words of a message in a register (R323) -/

theorem packLanes_lane (b j : Nat) (l : List Nat) : packLanes b l / 2 ^ (b * j) % 2 ^ b = l.getD j 0 % 2 ^ b := by
  induction l generalizing j with
  | nil => simp [packLanes]
  | cons v l ih =>
    cases j with
    | zero => simp [packLanes, Nat.add_mod]
    | succ j =>
      have hv : v % 2 ^ b < 2 ^ b := Nat.mod_lt _ (Nat.two_pow_pos b)
      rw [List.getD_cons_succ, ← ih, packLanes, Nat.mul_succ, Nat.add_comm (b * j), pow_add, ← Nat.div_div_eq_div_mul, Nat.add_mul_div_left _ _ (Nat.two_pow_pos b),
        Nat.div_eq_of_lt hv, Nat.zero_add]

theorem sum_lanes_eq_packLanes (b n : Nat) (g : Nat → Nat) :
    ((List.range n).map (fun i => g i % 2 ^ b * 2 ^ (b * i))).sum = packLanes b ((List.range n).map g) := by
  induction n generalizing g with
  | zero => rfl
  | succ n ih =>
    rw [List.range_succ_eq_map, List.map_cons, List.map_map, List.sum_cons, List.map_cons, List.map_map, packLanes, Nat.mul_zero, pow_zero, Nat.mul_one]
    refine congrArg (g 0 % 2 ^ b + ·) ((?_ : _ = 2 ^ b * _).trans (congrArg (2 ^ b * ·) (ih (g ∘ Nat.succ))))
    rw [← List.sum_map_mul_left]
    refine congrArg List.sum (List.map_congr_left fun i _ => ?_)
    simp only [Function.comp, Nat.mul_succ, pow_add]
    ring

theorem vecOfWords_eq_packLanes (m : Msg) (first : Nat) : vecOfWords m first = packLanes 64 ((List.range 4).map (fun i => (m.word (first + i)).toNat)) := by
  rw [← sum_lanes_eq_packLanes]
  refine congrArg List.sum (List.map_congr_left fun i _ => ?_)
  rw [Nat.mod_eq_of_lt (m.word (first + i)).isLt]

/-- A vector register holds four words of a message. -/
theorem vecOfWords_word (m : Msg) (first : Nat) {j : Nat} (hj : j < 4) :
    BitVec.ofNat 64 ((BitVec.ofNat 256 (vecOfWords m first)).toNat / 2 ^ (64 * j)) = m.words.getD (first + j) 0 := by
  have hlt : vecOfWords m first < 2 ^ 256 := by
    rw [vecOfWords_eq_packLanes]
    exact packLanes_lt 64 _
  have hlane : ((List.range 4).map (fun i => (m.word (first + i)).toNat)).getD j 0 = (m.word (first + j)).toNat := by simp [hj]
  refine BitVec.eq_of_toNat_eq ?_
  rw [BitVec.toNat_ofNat, BitVec.toNat_ofNat, Nat.mod_eq_of_lt hlt, vecOfWords_eq_packLanes, packLanes_lane, hlane]
  exact Nat.mod_eq_of_lt (m.word (first + j)).isLt

/-! ### The instructions (R328) -/

section
variable {s : State} {f : FmtCR} {q : Port}

theorem execPeek_of_port (ha : s.accepts (.peek f)) (hq : s.ownPort f.opt.toNat = some q) : exec (.peek f) s = .next ((s.setX f.xd (match q.hwPart with
    | m :: _ => if (s.x f.xa).toNat < 8 then m.words.getD (s.x f.xa).toNat 0 else 0
    | [] => 0)).fall) := by
  refine (show execPeek f s = _ from State.slotC_of_accepts ha _).trans ((State.withPort_of_some hq _).trans ?_)
  rw [Port.head]
  cases q.hwPart <;> rfl

theorem execMcnt_of_port (ha : s.accepts (.mcnt f)) (hq : s.ownPort f.opt.toNat = some q) :
    exec (.mcnt f) s = .next ((s.setX f.xd (BitVec.ofNat 64 (q.hwPart.length + q.oq.length +
      (if q.word.toNat / 2 ^ 61 % 4 = 1 then q.resv.length else 0) * 2 ^ 16 + (if q.spill then 2 ^ 32 else 0)))).fall) := by
  refine (show execMcnt f s = _ from State.slotC_of_accepts ha _).trans ((State.withPort_of_some hq _).trans ?_)
  have hspill : natOfBool q.spill * 2 ^ 32 = if q.spill then 2 ^ 32 else 0 := by cases q.spill <;> rfl
  rw [hspill]
  rfl

theorem execMdrop_of_port (ha : s.accepts (.mdrop f)) (hq : s.ownPort f.opt.toNat = some q) :
    let n := min (s.x f.xa).toNat (q.hwPart.length + q.oq.length)
    exec (.mdrop f) s = .next (((s.updOwnPort f.opt.toNat (fun q => q.dropHead n)).setX f.xd (BitVec.ofNat 64 n)).fall) :=
  (show execMdrop f s = _ from State.slotC_of_accepts ha _).trans (State.withPort_of_some hq _)

theorem State.long_of_mtake (ha : s.accepts (.mtake f)) : s.cx.long = false := by
  simpa [formCause] using State.formCause_of_accepts ha

/-- An instruction on a port that the firing has not, or that is not enabled, faults (R323). -/
theorem exec_of_noPort {i : Instr} {n : Nat} (hi : (i = .peek f ∧ n = f.opt.toNat) ∨ (i = .mcnt f ∧ n = f.opt.toNat) ∨ (i = .mdrop f ∧ n = f.opt.toNat) ∨
    (i = .mtake f ∧ n = f.opt.toNat % 4)) (ha : s.accepts i) (hn : s.ownPort n = none) : exec i s = s.faultC .badRegister := by
  obtain ⟨rfl, rfl⟩ | ⟨rfl, rfl⟩ | ⟨rfl, rfl⟩ | ⟨rfl, rfl⟩ := hi
  · exact (show execPeek f s = _ from State.slotC_of_accepts ha _).trans (State.withPort_of_none hn _)
  · exact (show execMcnt f s = _ from State.slotC_of_accepts ha _).trans (State.withPort_of_none hn _)
  · exact (show execMdrop f s = _ from State.slotC_of_accepts ha _).trans (State.withPort_of_none hn _)
  · exact (show execMtake f s = _ from State.slotC_of_accepts ha _).trans (State.withPort_of_none hn _)

/-- The registers as `mtake` sets them: two vector registers and XS. -/
def State.vecsTaken (s : State) (f : FmtCR) (v w n : Nat) : State := ((s.setVec f.xd.toNat v).setVec (f.xd.toNat + 1) w).setX f.xa (BitVec.ofNat 64 n)

/-- The state after `mtake` has taken message m of port p (R161, R328). -/
def State.msgTaken (s : State) (f : FmtCR) (p : Nat) (m : Msg) : State :=
  (((s.updOwnPort p (fun q => q.dropHead 1)).vecsTaken f (vecOfWords m 0) (vecOfWords m 4) m.words.length).upd
    (fun c => { c with senderLo := m.scapLo, senderHi := m.scapHi, port := portWord m p })).fall

theorem execMtake_of_port (ha : s.accepts (.mtake f)) (hq : s.ownPort (f.opt.toNat % 4) = some q) (h : s.streamOf f.xd.toNat = none)
    (h1 : s.streamOf (f.xd.toNat + 1) = none) : exec (.mtake f) s = match q.hwPart with
      | [] => if 4 ≤ f.opt.toNat then .next (s.vecsTaken f 0 0 0).fall else .next (s.stallOn 0)
      | m :: _ => .next (s.msgTaken f (f.opt.toNat % 4) m) := by
  refine (show execMtake f s = _ from State.slotC_of_accepts ha _).trans ((State.withPort_of_some hq _).trans ?_)
  rw [State.withVecs_of_unbound (by simp [h, h1]), Port.head]
  cases q.hwPart <;> rfl

/-- The registers that `mtake` sets read as they were set; the flow of the firing and its core stay. -/
theorem State.vecsTaken_effects (hlong : s.cx.long = false) (h : s.streamOf f.xd.toNat = none) (h1 : s.streamOf (f.xd.toNat + 1) = none) (v w n : Nat) :
    let t := s.vecsTaken f v w n
    t.cx.long = false ∧ t.cx.v.get 0 f.xd.toNat = BitVec.ofNat 256 v ∧ t.cx.v.get 0 (f.xd.toNat + 1) = BitVec.ofNat 256 w ∧
    t.x f.xa = (if f.xa = 0 then 0 else BitVec.ofNat 64 n) ∧ t.cx.flow = s.cx.flow ∧ t.cx.actorOf = s.cx.actorOf ∧ t.core = s.core := by
  obtain ⟨hcx, hcore⟩ := State.setVec_pair_effects hlong h h1 v w
  have hpart {α : Type} (p : Ctx → α) (hp : ∀ (c : Ctx) (l : KMap Word), p { c with x := l } = p c) :
      p (s.vecsTaken f v w n).cx = p { s.cx with v := (s.cx.v.put f.xd.toNat (BitVec.ofNat 256 v)).put (f.xd.toNat + 1) (BitVec.ofNat 256 w) } := by
    rw [State.vecsTaken, State.cxPart_setX _ _ _ p hp, hcx]
  refine ⟨(hpart Ctx.long (fun _ _ => rfl)).trans hlong, ?_, ?_, ?_, hpart Ctx.flow (fun _ _ => rfl), hpart Ctx.actorOf (fun _ _ => rfl), ?_⟩
  · rw [hpart Ctx.v (fun _ _ => rfl), KMap.get_put_other _ _ _ (by omega), KMap.get_put_self]
  · rw [hpart Ctx.v (fun _ _ => rfl), KMap.get_put_self]
  · rw [State.vecsTaken, State.x_setX, if_pos rfl]
  · rw [State.vecsTaken, State.core_setX, hcore]

/-- A vector register after a bundle of short mode has fallen through. -/
theorem State.ownVec_fall (hlong : s.cx.long = false) (r : Nat) : s.fall.ownVec r = (s.cx.v.get 0 r).toNat := by
  rw [State.ownVec, s.cxPart_fall Ctx.long (fun _ => rfl), s.cxPart_fall Ctx.v (fun _ => rfl), hlong]
  rfl

/-- An empty port gives length 0 to the try form. -/
theorem State.vecsTaken_zero_effects (hlong : s.cx.long = false) (h : s.streamOf f.xd.toNat = none) (h1 : s.streamOf (f.xd.toNat + 1) = none) :
    let t := (s.vecsTaken f 0 0 0).fall
    t.ownVec f.xd.toNat = 0 ∧ t.ownVec (f.xd.toNat + 1) = 0 ∧ t.x f.xa = 0 ∧ t.cx.pc = s.fall.cx.pc := by
  obtain ⟨hl, hv, hw, hx, hflow, -, -⟩ := State.vecsTaken_effects hlong h h1 0 0 0
  refine ⟨?_, ?_, ?_, State.pc_fall_of_flow hflow⟩
  · rw [State.ownVec_fall hl, hv]
    rfl
  · rw [State.ownVec_fall hl, hw]
    rfl
  · rw [State.x_fall, hx]
    exact ite_self _

/-- The oldest message leaves its port for two vector registers, XS and SENDER. -/
theorem State.msgTaken_effects {m : Msg} {rest : List Msg} {n : Nat} (hlong : s.cx.long = false) (hq : s.ownPort n = some q) (hm : q.hwPart = m :: rest)
    (h : s.streamOf f.xd.toNat = none) (h1 : s.streamOf (f.xd.toNat + 1) = none) :
    let t := s.msgTaken f n m
    ∃ p, t.ownPort n = some p ∧ portHolds s (tileOfCtx s.cur) q p (rest ++ q.oq) ∧
      (∀ j, j < 4 → BitVec.ofNat 64 (t.ownVec f.xd.toNat / 2 ^ (64 * j)) = m.words.getD j 0) ∧
      (∀ j, j < 4 → BitVec.ofNat 64 (t.ownVec (f.xd.toNat + 1) / 2 ^ (64 * j)) = m.words.getD (4 + j) 0) ∧
      t.x f.xa = (if f.xa = 0 then 0 else BitVec.ofNat 64 m.words.length) ∧ t.cx.senderLo = m.scapLo ∧ t.cx.senderHi = m.scapHi ∧ t.cx.pc = s.fall.cx.pc := by
  intro t
  let s1 := s.updOwnPort n (fun q => q.dropHead 1)
  let s2 := s1.vecsTaken f (vecOfWords m 0) (vecOfWords m 4) m.words.length
  let s3 := s2.upd (fun c => { c with senderLo := m.scapLo, senderHi := m.scapHi, port := portWord m n })
  have hstream : ∀ r, s1.streamOf r = s.streamOf r := fun r => by
    have hstreams : s1.core.streams = s.core.streams := (congrArg Core.streams (s.updOwnPort_keeps n (fun q => q.dropHead 1)) :)
    simp only [State.streamOf, Core.streamAt, hstreams]
    rfl
  obtain ⟨hl, hv, hw, hx, hflow, hactor, hcore⟩ := State.vecsTaken_effects (s := s1) (f := f) hlong ((hstream _).trans h) ((hstream _).trans h1)
    (vecOfWords m 0) (vecOfWords m 4) m.words.length
  have hcx : s3.cx = { s2.cx with senderLo := m.scapLo, senderHi := m.scapHi, port := portWord m n } := s2.cx_upd _
  have hl3 : s3.cx.long = false := by rw [hcx, hl]
  have hcore3 : t.core.actors = s1.core.actors := by
    show s3.fall.core.actors = _
    rw [State.core_fall]
    exact (congrArg Core.actors hcore :)
  have hactor3 : t.cx.actorOf = s.cx.actorOf := by
    show s3.fall.cx.actorOf = _
    rw [s3.cxPart_fall Ctx.actorOf (fun _ => rfl), hcx]
    exact hactor
  obtain ⟨p, hp, hholds⟩ := State.ownPort_dropped hq 1 hactor3 hcore3
  have hrest : (q.hwPart ++ q.oq).drop 1 = rest ++ q.oq := by rw [hm]; rfl
  refine ⟨p, hp, hrest ▸ hholds, fun j hj => ?_, fun j hj => ?_, ?_, ?_, ?_, State.pc_fall_of_flow (t := s3) ?_⟩
  · have := vecOfWords_word m 0 hj
    rw [Nat.zero_add] at this
    rw [← this, ← hv]
    exact congrArg (fun v => BitVec.ofNat 64 (v / 2 ^ (64 * j))) ((State.ownVec_fall hl3 _).trans (by rw [hcx]))
  · rw [← vecOfWords_word m 4 hj, ← hw]
    exact congrArg (fun v => BitVec.ofNat 64 (v / 2 ^ (64 * j))) ((State.ownVec_fall hl3 _).trans (by rw [hcx]))
  · rw [← hx]
    exact (State.x_fall s3 _).trans (State.x_of_regs (by rw [hcx]) _)
  · exact (s3.cxPart_fall Ctx.senderLo (fun _ => rfl)).trans (by rw [hcx])
  · exact (s3.cxPart_fall Ctx.senderHi (fun _ => rfl)).trans (by rw [hcx])
  · rw [hcx]
    exact hflow

end

/-- Settles O40: each clause by the lemma of its instruction. -/
theorem portInstructionsReadAndTake : Obligations.PortInstructionsReadAndTake := by
  intro f s
  refine ⟨fun i n hi ha hn => exec_of_noPort hi ha hn, fun q ha hq => execPeek_of_port ha hq, fun q ha hq => execMcnt_of_port ha hq, fun q ha hq => ?_,
    fun q m rest ha hq hm h h1 => ?_, fun q ha hq hm h h1 => ⟨fun hopt => ?_, fun hopt => ?_⟩⟩
  · intro n
    let u := s.updOwnPort f.opt.toNat (fun q => q.dropHead n)
    obtain ⟨hpc, hxd, hx⟩ := State.result_of_flow (s := s) (t := u) rfl rfl f.xd (BitVec.ofNat 64 n)
    obtain ⟨p, hp, hholds⟩ := State.ownPort_dropped (t := (u.setX f.xd (BitVec.ofNat 64 n)).fall) hq n
      (by rw [State.cxPart_fall _ Ctx.actorOf (fun _ => rfl), State.cxPart_setX _ _ _ Ctx.actorOf (fun _ _ => rfl)]; rfl)
      (by rw [State.core_fall, State.core_setX])
    exact ⟨_, p, execMdrop_of_port ha hq, hp, hholds, hxd, hx, hpc⟩
  · obtain ⟨p, hp⟩ := State.msgTaken_effects (State.long_of_mtake ha) hq hm h h1
    exact ⟨_, p, (execMtake_of_port ha hq h h1).trans (by rw [hm]), hp⟩
  · rw [execMtake_of_port ha hq h h1, hm]
    exact if_neg (Nat.not_le.2 hopt)
  · refine ⟨_, ?_, State.vecsTaken_zero_effects (State.long_of_mtake ha) h h1⟩
    rw [execMtake_of_port ha hq h h1, hm]
    exact if_pos hopt

end Sys2Proof.Machine
end

section
/-! SUPPORT. Sends: what they take, what they check, and their queues: R155 to R159, R166, R169, R215, R218, R249, R325, R326. -/

namespace Sys2Proof.Machine

/-! ### The parts of a send (R155, R325) -/

/-- The send instruction of a form. -/
def SendForm.instr (form : SendForm) (f : FmtCR) : Instr :=
  match form with
  | .plain => .send f
  | .sys => .sendSys f
  | .reply => .sendr f

/-- The parts of a send of a form. -/
def State.sendOf (s : State) (f : FmtCR) (form : SendForm) : SendParts :=
  let own := form = .reply ∧ f.xb = 0
  let lo := if own then s.cx.senderLo else s.x f.xb
  { len := s.ownVec f.xa.toNat % 8 + 1
    port := if form = .reply then firstPort (capPorts lo) else bitsAt f.opt.toNat 3 2
    lo := lo
    hi := if own then s.cx.senderHi else s.x (f.xb + 1)
    vn := sendNet form (decide (form = .plain) && bitAt f.opt.toNat 4)
    rq := decide (form = .plain) && bitAt f.opt.toNat 5
    rel := f.opt.toNat / 64 }

/-- The doublewords of a message, from VM and, past four, VM + 1 (R155). -/
def State.sendWords (s : State) (vm : Nat) : List Word :=
  let len := s.ownVec vm % 8 + 1
  (doublewords 4 (s.ownVec vm) ++ doublewords 4 (if 4 < len then s.ownVec (vm + 1) else 0)).take len

/-- The word of PORT, or of XD, that says which message a reply answers (R325). -/
def State.replyWord (s : State) (f : FmtCR) : Word := if f.xb = 0 then s.cx.port else s.x f.xd

theorem sendParts_instr (form : SendForm) (f : FmtCR) (s : State) : sendParts (form.instr f) f s = some (s.sendOf f form) := by
  cases form with
  | plain => simp [SendForm.instr, sendParts, State.sendOf, sendNet, bitAt_toNat, bitsAt]
  | sys => simp [SendForm.instr, sendParts, State.sendOf, sendNet, bitsAt]
  | reply => simp [SendForm.instr, sendParts, State.sendOf, sendNet, firstPort, capPorts, bitsOf, bitsAt]

theorem doublewords_getD (n v j : Nat) (h : j < n) : (doublewords n v).getD j 0 = BitVec.ofNat 64 (v / 2 ^ (64 * j)) := by
  simp [doublewords, h]

theorem State.length_sendWords (s : State) (vm : Nat) : (s.sendWords vm).length = s.ownVec vm % 8 + 1 := by
  simp only [State.sendWords, List.length_take, List.length_append, doublewords, List.length_map, List.length_range]
  omega

theorem State.sendWords_getD (s : State) (vm : Nat) {j : Nat} (h : j < s.ownVec vm % 8 + 1) :
    (s.sendWords vm).getD j 0 = BitVec.ofNat 64 (if j < 4 then s.ownVec vm / 2 ^ (64 * j) else s.ownVec (vm + 1) / 2 ^ (64 * (j - 4))) := by
  have hlen : ∀ v, (doublewords 4 v).length = 4 := fun v => by simp [doublewords]
  rw [State.sendWords, List.getD_eq_getElem?_getD, List.getElem?_take_of_lt h, ← List.getD_eq_getElem?_getD]
  by_cases hj : j < 4
  · rw [List.getD_append _ _ _ _ (by rw [hlen]; exact hj), doublewords_getD _ _ _ hj, if_pos hj]
  · rw [List.getD_append_right _ _ _ _ (by rw [hlen]; omega), hlen, doublewords_getD _ _ _ (by omega), if_neg hj, if_pos (by omega)]

/-! ### The checks of a send (R155, R169, R326) -/

section
variable {s u : State} {f : FmtCR} {form : SendForm}

/-- What a send needs before its capability is looked at: vector registers bound to no stream, a class that its level may send, and for a reply a message
to answer. -/
structure State.SendReady (s : State) (f : FmtCR) (form : SendForm) : Prop where
  bound : s.streamOf f.xa.toNat = none
  bound1 : s.streamOf (f.xa.toNat + 1) = none
  fits : s.ownVec f.xa.toNat % 8 + 1 ≤ 4 ∨ f.xa.toNat ≠ 15
  cls : 2 ≤ s.level ∨ reservedClass (s.ownVec f.xa.toNat % 2 ^ 64 / 2 ^ 48) = false
  answers : form = .reply → ¬((s.sendOf f form).lo = 0 ∧ (s.sendOf f form).hi = 0) ∧ (s.replyWord f).toNat / 2 ^ 6 % 4 = 1

theorem exec_send_of_accepts (ha : s.accepts (form.instr f)) : exec (form.instr f) s = s.sendAny f form := by
  cases form with
  | plain => exact show execSend f s = _ from State.slotC_of_accepts ha _
  | sys => exact show execSendSys f s = _ from State.slotC_of_accepts ha _
  | reply => exact show execSendr f s = _ from State.slotC_of_accepts ha _

/-- The registers that hold the words of a send. -/
def State.sendRegs (s : State) (vm : Nat) : List Nat := if 4 < s.ownVec vm % 8 + 1 then [vm, vm + 1] else [vm]

/-- The last part of a send, in the state that its release leaves. -/
def State.sendIn (s : State) (f : FmtCR) (form : SendForm) (u : State) : Out :=
  let p := s.sendOf f form
  s.sendQueue u f form p.vn p.port (bitsOf (s.replyWord f) 23 8) p.lo p.rq (s.sendWords f.xa.toNat)

/-- A send from its check of the capability on (R326). -/
def State.sendChecked (s : State) (f : FmtCR) (form : SendForm) : Out :=
  let p := s.sendOf f form
  match s.sendCheck p.lo p.hi p.port with
  | some c => s.faultC c 0 p.lo.toNat
  | none =>
    if p.rq = true ∧ s.replyRoom.isNone = true then s.faultC .replyNoslot 0 p.lo.toNat
    else
      let go := fun u : State => s.sendIn f form (u.popStreams (s.sendRegs f.xa.toNat))
      if p.rel = 0 then go s else s.releaseThen (p.rel - 1) (s.destScope p.lo) .waitFence go

theorem State.sendAny_of_ready (h : s.SendReady f form) : s.sendAny f form = s.sendChecked f form := by
  obtain ⟨hb, hb1, hfits, hcls, hans⟩ := h
  have hlen : s.ownVec f.xa.toNat % 2 ^ 64 % 8 = s.ownVec f.xa.toNat % 8 := by omega
  have hregs : ∀ r ∈ (if 4 < s.ownVec f.xa.toNat % 8 + 1 then [f.xa.toNat, f.xa.toNat + 1] else [f.xa.toNat]) ++ [], s.streamOf r = none := by
    split <;> simp [hb, hb1]
  have hclass : ¬(s.level < 2 ∧ reservedClass (s.ownVec f.xa.toNat % 2 ^ 64 / 2 ^ 48) = true) := by
    rintro ⟨hl, hc⟩
    obtain hge | hno := hcls
    · omega
    · rw [hno] at hc
      cases hc
  have hpair : (if form = .reply ∧ f.xb = 0 then (s.cx.senderLo, s.cx.senderHi) else s.pairAt f.xb) = ((s.sendOf f form).lo, (s.sendOf f form).hi) := by
    simp only [State.sendOf]
    split <;> rfl
  have hval : ((if 4 < s.ownVec f.xa.toNat % 8 + 1 then [f.xa.toNat, f.xa.toNat + 1] else [f.xa.toNat]).map s.ownVec).getD 0 0 = s.ownVec f.xa.toNat := by
    split <;> rfl
  have hval1 : ((if 4 < s.ownVec f.xa.toNat % 8 + 1 then [f.xa.toNat, f.xa.toNat + 1] else [f.xa.toNat]).map s.ownVec).getD 1 0 =
      if 4 < s.ownVec f.xa.toNat % 8 + 1 then s.ownVec (f.xa.toNat + 1) else 0 := by
    split <;> rfl
  unfold State.sendAny
  simp only
  rw [State.withVecs_of_unbound (by simp [hb])]
  simp only [List.map_cons, List.map_nil, List.append_nil, List.getD_cons_zero, hlen]
  rw [if_neg (by omega), State.withVecs_of_unbound hregs, List.map_nil, List.append_nil]
  simp only [hpair, hval, hval1]
  rw [if_neg hclass, if_neg (fun h => (hans h.1).1 h.2), if_neg (fun h => h.2 (hans h.1).2)]
  rfl

theorem firstPort_lt (m : Nat) : firstPort m < 4 := by
  unfold firstPort
  split_ifs <;> omega

theorem State.port_sendOf_lt (s : State) (f : FmtCR) (form : SendForm) : (s.sendOf f form).port < 4 := by
  have hopt : bitsAt f.opt.toNat 3 2 < 4 := Nat.mod_lt _ (by decide)
  simp only [State.sendOf]
  split
  · exact firstPort_lt _
  · exact hopt

theorem State.sendCheck_eq (s : State) (lo hi : Word) {port : Nat} (hp : port < 4) : s.sendCheck lo hi port =
    if s.capGenuine lo hi = false then some .capForged
    else if lo.getLsbD 14 = false ∨ lo.getLsbD 28 = true ∨ lo.getLsbD (18 + port) = false then some .capRights else none := by
  have hsend : capHas lo rightSend = lo.getLsbD 14 := bitAt_bitsOf lo 14 (by decide)
  have hport : bitAt (capPorts lo) port = lo.getLsbD (18 + port) := bitAt_bitsOf lo 18 (by omega)
  simp only [State.sendCheck, hsend, hport, capWhole, bitAt_toNat]
  simp [or_assoc]

theorem State.sendCheck_allows {lo hi : Word} {port : Nat} (hp : port < 4) (hgen : s.capGenuine lo hi = true) (hsend : lo.getLsbD 14 = true)
    (hone : lo.getLsbD 28 = false) (hport : lo.getLsbD (18 + port) = true) : s.sendCheck lo hi port = none := by
  rw [State.sendCheck_eq s lo hi hp, hgen, hsend, hone, hport]
  simp

theorem State.sendChecked_refused {c : Cause} (h : s.sendCheck (s.sendOf f form).lo (s.sendOf f form).hi (s.sendOf f form).port = some c) :
    s.sendChecked f form = s.faultC c 0 (s.sendOf f form).lo.toNat := by
  simp only [State.sendChecked, h]

theorem State.sendChecked_noReplyRoom (h : s.sendCheck (s.sendOf f form).lo (s.sendOf f form).hi (s.sendOf f form).port = none)
    (hrq : (s.sendOf f form).rq = true) (hroom : s.replyRoom = none) : s.sendChecked f form = s.faultC .replyNoslot 0 (s.sendOf f form).lo.toNat := by
  simp only [State.sendChecked, h]
  exact if_pos ⟨hrq, by rw [hroom]; rfl⟩

/-- A release that waits for nothing goes on in a state in which it has counted (R215). -/
theorem State.releaseThen_of_done {scope need : Nat} (h : s.storesDone (max scope need) = true) (wait : Cause) (k : State → Out) :
    ∃ u, ReadMade s u ∧ s.releaseThen scope need wait k = k u := by
  refine ⟨_, ?_, if_pos h⟩
  refine ReadMade.trans ?_ (State.readMade_countScope _ _)
  split
  · exact ReadMade.refl s
  · exact .of_updCtx s s.cur rfl

theorem ReadMade.streamOf (h : ReadMade s u) (r : Nat) : u.streamOf r = s.streamOf r :=
  State.streamOf_congr (h.cxPart Ctx.long (fun _ => rfl)) (h.cxPart Ctx.firing (fun _ => rfl)) h.core r

/-- A send that passes its checks, and waits for no release, comes to its queue: in the state as it stands, or in which its release has counted. -/
theorem State.sendChecked_passes (hr : s.SendReady f form) (h : s.sendCheck (s.sendOf f form).lo (s.sendOf f form).hi (s.sendOf f form).port = none)
    (hrq : (s.sendOf f form).rq = false ∨ s.replyRoom.isSome = true)
    (hrel : (s.sendOf f form).rel = 0 ∨ s.storesDone (max ((s.sendOf f form).rel - 1) (s.destScope (s.sendOf f form).lo)) = true) :
    ∃ u, ReadMade s u ∧ ((s.sendOf f form).rel = 0 → u = s) ∧ s.sendChecked f form = s.sendIn f form u := by
  have hpop : ∀ u, ReadMade s u → u.popStreams (s.sendRegs f.xa.toNat) = u := fun u hu => State.popStreams_of_unbound fun r hmem => by
    rw [hu.streamOf]
    unfold State.sendRegs at hmem
    split at hmem <;> simp only [List.mem_cons, List.not_mem_nil, or_false] at hmem
    · obtain rfl | rfl := hmem
      · exact hr.bound
      · exact hr.bound1
    · exact hmem ▸ hr.bound
  have hroom : ¬((s.sendOf f form).rq = true ∧ s.replyRoom.isNone = true) := by
    rintro ⟨hq, hn⟩
    cases hrq with
    | inl hno => rw [hno] at hq; cases hq
    | inr hsome => rw [Option.isNone_iff_eq_none.1 hn] at hsome; cases hsome
  simp only [State.sendChecked, h, if_neg hroom]
  by_cases h0 : (s.sendOf f form).rel = 0
  · exact ⟨s, ReadMade.refl s, fun _ => rfl, (if_pos h0).trans (by rw [hpop s (ReadMade.refl s)])⟩
  · obtain ⟨u, hu, heq⟩ := State.releaseThen_of_done (hrel.resolve_left h0) .waitFence (fun u => s.sendIn f form (u.popStreams (s.sendRegs f.xa.toNat)))
    exact ⟨u, hu, fun hz => absurd hz h0, (if_neg h0).trans (heq.trans (by rw [hpop u hu]))⟩

end

/-! ### The queue of a send (R158, R159, R166) -/

section
variable {s u : State} {f : FmtCR} {form : SendForm} {vn : Nat}

/-- A message that joins its queue changes that queue, the entries reserved for declared sends and their number, and nothing else. -/
theorem State.enqueue_effects (s : State) (vn : Nat) (declared : Bool) (m : Msg) :
    let t := s.enqueue vn declared m
    t.core.queue vn = s.core.queue vn ++ [m] ∧ (∀ v, v ≠ vn → t.core.queue v = s.core.queue v) ∧ t.cx.flow = s.cx.flow ∧ t.cx.x = s.cx.x ∧ t.mem = s.mem := by
  intro t
  let s1 := s.updCurCore (fun k => { k with sendq := k.sendq.put vn (k.queue vn ++ [m]) })
  let s2 := s1.updCurCore (fun k => if vn = 0 then { k with reqRsv := k.reqRsv - 1 } else { k with bulkRsv := k.bulkRsv - 1 })
  have hq : s1.core.sendq = s.core.sendq.put vn (s.core.queue vn ++ [m]) := congrArg Core.sendq (s.core_updCurCore _)
  obtain ⟨hsendq, hflow, hx, hmem⟩ : t.core.sendq = s1.core.sendq ∧ t.cx.flow = s.cx.flow ∧ t.cx.x = s.cx.x ∧ t.mem = s.mem := by
    cases declared with
    | false => exact ⟨rfl, rfl, rfl, rfl⟩
    | true =>
      have ht : t = s2.upd (fun c => { c with sends := c.sends + 1, sendsBulk := c.sendsBulk + (if vn = 3 then 1 else 0) }) := rfl
      have hs2 : s2.core.sendq = s1.core.sendq := by
        rw [State.core_updCurCore]
        split <;> rfl
      rw [ht, State.cx_upd]
      exact ⟨hs2, rfl, rfl, rfl⟩
  refine ⟨?_, fun v hv => ?_, hflow, hx, hmem⟩
  · rw [Core.queue, hsendq, hq, KMap.get_put_self]
  · rw [Core.queue, hsendq, hq, KMap.get_put_other _ _ _ hv, Core.queue]

/-- The message of a send: from the issuing firing, with its capability, port and network, and the reply tag that it reserves or answers (R155, R156, R166). -/
def State.message (s : State) (form : SendForm) (vn port rtag : Nat) (lo : Word) (rq : Bool) (words : List Word) : Msg :=
  let scap := s.senderCap (if rq then 2 ^ (s.replyPort.getD 0) else (s.core.actorAt s.cx.act).portMask)
  { words := words, capLo := lo, port := port, scapLo := scap.1, scapHi := scap.2, vn := vn, chan := if form = .reply then 2 else if rq then 1 else 0,
    rtag := if rq then s.core.freeTag else if form = .reply then rtag else 0, tag := s.tag, srcCore := coreOfCtx s.cur, srcAct := some s.agentKey,
    firing := s.cx.firing, home := s.homeWord, pair := if s.cx.pairCtx.isNone then 0 else if tileX (tileOfCtx s.cur) % 2 = 0 then 1 else 2 }

/-- The state in which a message has joined its queue, before the bundle retires: a request has reserved its reply, and the sender of an answered message is
gone from PORT (R166, R326). -/
def State.sent (s : State) (f : FmtCR) (form : SendForm) (rq : Bool) (m : Msg) : State :=
  let s1 := if rq then s.updOwnPort (s.replyPort.getD 0) (fun q => { q with resv := q.resv ++ [m.rtag] }) else s
  let s2 := (s1.enqueue m.vn (s.declaredSend m.vn) m).setX f.xd (if rq then BitVec.ofNat 64 m.rtag else 0)
  if form = .reply ∧ f.xb = 0 then s2.upd (fun c => { c with port := c.port &&& ~~~(0xC0 : Word) }) else s2

/-- A send with room in its queue, or of a declared number, sends its message. -/
theorem State.sendQueue_sends (s : State) (f : FmtCR) (form : SendForm) (port rtag : Nat) (lo : Word) (rq : Bool) (words : List Word)
    (h : u.declaredSend vn = true ∨ u.core.queueRoom vn = true) :
    s.sendQueue u f form vn port rtag lo rq words = .next (u.sent f form rq (u.message form vn port rtag lo rq words)).fall := by
  have hroom : ¬(!u.declaredSend vn && !u.core.queueRoom vn) = true := by
    cases h with
    | inl h => simp [h]
    | inr h => simp [h]
  refine (if_neg hroom).trans ?_
  cases form <;> rfl

/-- What a send leaves behind: its message at the end of its queue, the reply tag or zero in XD, and nothing else of the queues, the registers and the flow. -/
theorem State.sent_effects (s : State) (f : FmtCR) (form : SendForm) (rq : Bool) (m : Msg) :
    let t := s.sent f form rq m
    t.core.queue m.vn = s.core.queue m.vn ++ [m] ∧ (∀ v, v ≠ m.vn → t.core.queue v = s.core.queue v) ∧
    t.x f.xd = (if f.xd = 0 ∨ rq = false then 0 else BitVec.ofNat 64 m.rtag) ∧ (∀ r, r ≠ f.xd → t.x r = s.x r) ∧ t.cx.flow = s.cx.flow ∧ t.mem = s.mem := by
  intro t
  let s1 := if rq then s.updOwnPort (s.replyPort.getD 0) (fun q => { q with resv := q.resv ++ [m.rtag] }) else s
  let s2 := s1.enqueue m.vn (s.declaredSend m.vn) m
  let s3 := s2.setX f.xd (if rq then BitVec.ofNat 64 m.rtag else 0)
  obtain ⟨hq1, hcx1, hmem1⟩ : s1.core.sendq = s.core.sendq ∧ s1.cx = s.cx ∧ s1.mem = s.mem := by
    cases rq with
    | false => exact ⟨rfl, rfl, rfl⟩
    | true => exact ⟨(congrArg Core.sendq (s.updOwnPort_keeps _ _) :), rfl, rfl⟩
  obtain ⟨hq2, hother2, hflow2, hx2, hmem2⟩ := s1.enqueue_effects m.vn (s.declaredSend m.vn) m
  obtain ⟨hcore, hx, hflow, hmem⟩ : t.core = s3.core ∧ t.cx.x = s3.cx.x ∧ t.cx.flow = s3.cx.flow ∧ t.mem = s3.mem := by
    have ht : t = if form = .reply ∧ f.xb = 0 then s3.upd (fun c => { c with port := c.port &&& ~~~(0xC0 : Word) }) else s3 := rfl
    rw [ht]
    split
    · rw [State.cx_upd]
      exact ⟨rfl, rfl, rfl, rfl⟩
    · exact ⟨rfl, rfl, rfl, rfl⟩
  have hqueue : ∀ v, t.core.queue v = s2.core.queue v := fun v => by rw [hcore, State.core_setX]
  refine ⟨?_, fun v hv => ?_, ?_, fun r hr => ?_, ?_, ?_⟩
  · rw [hqueue, hq2, Core.queue, Core.queue, hq1]
  · rw [hqueue, hother2 v hv, Core.queue, Core.queue, hq1]
  · rw [State.x_of_regs hx, State.x_setX, if_pos rfl]
    by_cases h0 : f.xd = 0 <;> cases rq <;> simp [h0]
  · rw [State.x_of_regs hx, State.x_setX, if_neg hr, State.x_of_regs hx2, State.x_congr hcx1]
  · rw [hflow, State.cxPart_setX _ _ _ Ctx.flow (fun _ _ => rfl), hflow2, hcx1]
  · rw [hmem, State.mem_setX, hmem2, hmem1]

end

/-! ### A full queue (R159, R249) -/

section
variable {s u : State} {f : FmtCR} {form : SendForm} {vn : Nat}

/-- The state in which a firing is parked at a send (R159). -/
def State.sendParked (s : State) (vn : Nat) : State := (s.upd (fun c => { c with parkVn := vn })).spillPorts.parkFiring .sendqFull

/-- A send without room waits, answers or parks, as FULL says. -/
theorem State.sendQueue_full (s : State) (f : FmtCR) (form : SendForm) (port rtag : Nat) (lo : Word) (rq : Bool) (words : List Word)
    (hd : u.declaredSend vn = false) (hr : u.core.queueRoom vn = false) :
    let t := s.sendQueue u f form vn port rtag lo rq words
    (f.opt.toNat % 4 = 0 → t = .next (s.stallOn .waitSendq)) ∧ (f.opt.toNat % 4 = 1 → t = .next ((u.setX f.xd (BitVec.ofNat 64 (2 ^ 63))).fall)) ∧
    (f.opt.toNat % 4 = 2 → t = if u.cx.np then s.faultC .npState else .next (s.sendParked vn)) := by
  intro t
  have ht : t = match f.opt.toNat % 4 with
      | 0 => .next (s.stallOn .waitSendq)
      | 1 => u.result f.xd (BitVec.ofNat 64 (2 ^ 63))
      | _ => if u.cx.np then s.faultC .npState else .next (s.sendParked vn) := if_pos (by simp [hd, hr])
  refine ⟨fun h => ?_, fun h => ?_, fun h => ?_⟩
  · simp only [ht, h]
  · simp only [ht, h, State.result_eq]
  · simp only [ht, h]

/-- Spill mode changes the ports of the issuing actor, and nothing else of its context and core. -/
theorem State.spillPorts_effects (s : State) : s.spillPorts.cx = s.cx ∧ { s.spillPorts.core with actors := s.core.actors } = s.core := by
  unfold State.spillPorts
  split
  · exact ⟨rfl, rfl⟩
  · refine List.foldlRecOn (motive := fun v : State => v.cx = s.cx ∧ { v.core with actors := s.core.actors } = s.core) _ _ ⟨rfl, rfl⟩ (fun v hv p _ => ?_)
    obtain ⟨hcx, hcore⟩ := hv
    refine ⟨hcx, ?_⟩
    rw [← hcore]
    exact congrArg (fun k : Core => { k with actors := s.core.actors }) (v.updOwnPort_keeps p (fun q => { q with spill := true }))

/-- Parking changes no send queue. -/
theorem State.sendq_parkFiring (s : State) (reason : Cause) : (s.parkFiring reason).core.sendq = s.core.sendq := by
  let s1 := s.upd (fun c => { c with st := 2, reason := reason, haltAt := s.rtime, stall := none, reported := false, hold := none, reply := none })
  have hpark : s.parkFiring reason = s1.toParkArea s.cur := rfl
  by_cases hroom : s1.core.parkRoom = true
  · have hin : s1.toParkArea s.cur = ({ s1 with ctxs := s1.ctxs.put s.cur {} } : State).updCurCore
        (fun k => { k with parked := k.parked.put (lowestFree k.parked 64 0) { s1.ctxOf s.cur with slot := s.cur } }) := if_pos hroom
    rw [hpark, hin, State.core_updCurCore]
    rfl
  · have hstay : s1.toParkArea s.cur = s1 := if_neg hroom
    rw [hpark, hstay]
    rfl

/-- A firing parked at a send waits with reason `SENDQ_FULL`, at the same bundle, with nothing sent. -/
theorem State.sendParked_effects (s : State) (vn : Nat) :
    (s.sendParked vn).core.sendq = s.core.sendq ∧
    (s.core.parkRoom = false → (s.sendParked vn).cx.st = 2 ∧ (s.sendParked vn).cx.reason = Cause.sendqFull ∧ (s.sendParked vn).cx.pc = s.cx.pc) ∧
    (s.core.parkRoom = true → inParkArea s (s.sendParked vn) Cause.sendqFull s.cx.pc) := by
  let s1 := s.upd (fun c => { c with parkVn := vn })
  let s2 := s1.spillPorts
  obtain ⟨hcx, hcore⟩ := s1.spillPorts_effects
  have hcx2 : s2.cx = { s.cx with parkVn := vn } := hcx.trans (s.cx_upd _)
  have hcore2 : { s2.core with actors := s.core.actors } = s.core := hcore
  have hroom : s2.core.parkRoom = s.core.parkRoom := (congrArg Core.parkRoom hcore2 :)
  obtain ⟨-, -, hplace, hpark⟩ := s2.parkFiring_effects .sendqFull
  refine ⟨(s2.sendq_parkFiring _).trans (congrArg Core.sendq hcore2 :), fun hr => ?_, fun hr => ?_⟩
  · obtain ⟨hst, hreason, hpc⟩ := hplace (hroom.trans hr)
    exact ⟨hst, hreason, hpc.trans (by rw [hcx2])⟩
  · obtain ⟨hfree, n, hst, hreason, hpc, hx, hfiring⟩ := hpark (hroom.trans hr)
    exact ⟨hfree, n, hst, hreason, hpc.trans (by rw [hcx2]), hx.trans (by rw [hcx2]), hfiring.trans (by rw [hcx2])⟩

end

/-! ### Sends with and without room -/

theorem sendForm_of_instr {i : Instr} {f : FmtCR} (hi : i = .send f ∨ i = .sendSys f ∨ i = .sendr f) : ∃ form : SendForm, i = form.instr f := by
  obtain rfl | rfl | rfl := hi
  · exact ⟨.plain, rfl⟩
  · exact ⟨.sys, rfl⟩
  · exact ⟨.reply, rfl⟩

theorem State.queue_fall (s : State) (v : Nat) : s.fall.core.queue v = s.core.queue v := by
  rw [State.core_fall]
  rfl

theorem ReadMade.declaredSend {s u : State} (h : ReadMade s u) (vn : Nat) : u.declaredSend vn = s.declaredSend vn := by
  rw [State.declaredSend, State.declaredSend, h.cxPart Ctx.sends (fun _ => rfl), h.cxPart Ctx.prod (fun _ => rfl)]

theorem sendsAppendOneMessage_holds : sendsAppendOneMessage := by
  intro i f s p hi hp ha hb hb1 hfits w0 hcls hans
  obtain ⟨form, rfl⟩ := sendForm_of_instr hi
  obtain rfl : s.sendOf f form = p := Option.some.inj ((sendParts_instr form f s).symm.trans hp)
  have hready : s.SendReady f form := ⟨hb, hb1, hfits, hcls, fun hform => hans (by rw [hform]; rfl)⟩
  have hport := s.port_sendOf_lt f form
  rw [exec_send_of_accepts ha, State.sendAny_of_ready hready]
  refine ⟨fun hgen => ?_, fun hgen hbad => ?_, fun hgen hsend hone hright hrq hroom => ?_, fun hgen hsend hone hright hrq hrel hqueue => ?_⟩
  · exact State.sendChecked_refused ((s.sendCheck_eq _ _ hport).trans (if_pos hgen))
  · exact State.sendChecked_refused ((s.sendCheck_eq _ _ hport).trans ((if_neg (ne_false_of_eq_true hgen)).trans (if_pos hbad)))
  · exact State.sendChecked_noReplyRoom (State.sendCheck_allows hport hgen hsend hone hright) hrq hroom
  · obtain ⟨u, hu, -, hexec⟩ := State.sendChecked_passes hready (State.sendCheck_allows hport hgen hsend hone hright) hrq hrel
    have hroom : u.declaredSend (s.sendOf f form).vn = true ∨ u.core.queueRoom (s.sendOf f form).vn = true := by
      rw [hu.declaredSend, hu.core]
      exact hqueue
    let m := u.message form (s.sendOf f form).vn (s.sendOf f form).port (bitsOf (s.replyWord f) 23 8) (s.sendOf f form).lo (s.sendOf f form).rq
      (s.sendWords f.xa.toNat)
    obtain ⟨hq, hother, hxd, hx, hflow, hmem⟩ := u.sent_effects f form (s.sendOf f form).rq m
    rw [hu.core] at hq hother
    refine ⟨_, m, hexec.trans (State.sendQueue_sends s f form _ _ _ _ _ hroom), (State.queue_fall _ _).trans hq,
      fun v hv => (State.queue_fall _ _).trans (hother v hv), rfl, rfl, rfl, hu.cxPart Ctx.tag (fun _ => rfl), hu.cxPart Ctx.firing (fun _ => rfl),
      s.length_sendWords _, fun j hj => s.sendWords_getD _ hj, ?_, fun r hr => ?_, ?_, fun a => ?_⟩
    · rw [State.x_fall, hxd]
    · rw [State.x_fall, hx r hr, hu.x]
    · exact State.pc_fall_of_flow (hflow.trans (hu.cxPart Ctx.flow (fun _ => rfl)))
    · exact congrArg (fun m : Memory => m.read a) (hmem.trans hu.mem)

theorem fullSendQueuesWaitAnswerOrPark_holds : fullSendQueuesWaitAnswerOrPark := by
  intro i f s p hi hp ha hb hb1 hfits hcls hgen hsend hone hright hrq hrel hdecl hroom
  obtain ⟨form, rfl, hform⟩ : ∃ form : SendForm, i = form.instr f ∧ form ≠ .reply := by
    obtain rfl | rfl := hi
    · exact ⟨.plain, rfl, by decide⟩
    · exact ⟨.sys, rfl, by decide⟩
  obtain rfl : s.sendOf f form = p := Option.some.inj ((sendParts_instr form f s).symm.trans hp)
  have hready : s.SendReady f form := ⟨hb, hb1, hfits, hcls, fun h => absurd h hform⟩
  obtain ⟨u, -, hu, hexec⟩ := State.sendChecked_passes hready (State.sendCheck_allows (s.port_sendOf_lt f form) hgen hsend hone hright) hrq (.inl hrel)
  obtain rfl := hu hrel
  rw [exec_send_of_accepts ha, State.sendAny_of_ready hready, hexec]
  obtain ⟨hwait, hanswer, hpark⟩ := State.sendQueue_full u f form (u.sendOf f form).port (bitsOf (u.replyWord f) 23 8) (u.sendOf f form).lo (u.sendOf f form).rq
    (u.sendWords f.xa.toNat) hdecl hroom
  obtain ⟨hsendq, hplace, harea⟩ := u.sendParked_effects (u.sendOf f form).vn
  refine ⟨hwait, hanswer, fun h2 hnp => ?_, fun h2 hnp hr => ?_, fun h2 hnp hr => ?_⟩
  · exact (hpark h2).trans (if_pos hnp)
  · obtain ⟨hst, hreason, hpc⟩ := hplace hr
    exact ⟨_, (hpark h2).trans (if_neg (ne_true_of_eq_false hnp)), hst, hreason, hpc, hsendq⟩
  · exact ⟨_, (hpark h2).trans (if_neg (ne_true_of_eq_false hnp)), harea hr, hsendq⟩

/-- Settles O41: sends that pass their checks, and sends whose queue is full. -/
theorem sendsQueueOrWait : Obligations.SendsQueueOrWait := ⟨sendsAppendOneMessage_holds, fullSendQueuesWaitAnswerOrPark_holds⟩

end Sys2Proof.Machine
end

section
/-! SUPPORT. What a bundle that retires leaves of the machine, and the scalar forms: R180, R184, R253, R296 to R302, R311. -/

namespace Sys2Proof.Machine

/-! ### The issuing context and the rest of the machine (R180, R184, R253) -/

section
variable {s t : State}

theorem State.ctxOf_setX_other (s : State) (r : BitVec 5) (v : Word) {i : Nat} (h : i ≠ s.cur) : (s.setX r v).ctxOf i = s.ctxOf i := by
  obtain ⟨-, hs⟩ | ⟨-, hs⟩ := s.setX_cases r v <;> rw [hs]
  exact State.ctxOf_updCtx_other s _ h

/-- The end test of a loop changes the PC and the loop counters alone (R197). -/
theorem Ctx.retireTo_eq (c : Ctx) (npc : Word) : c.retireTo npc = { c with pc := (c.retireTo npc).pc, lc := (c.retireTo npc).lc } := by
  unfold Ctx.retireTo
  simp only
  split_ifs <;> rfl

/-- A bundle that changed the issuing context alone keeps the rest of the machine when it retires. -/
theorem State.keepsRest_retire (hkeep : ({ t with ctxs := s.ctxs } : State) = s) (hctx : ∀ i, i ≠ s.cur → t.ctxOf i = s.ctxOf i) (npc : Word) :
    s.keepsRest (t.retire npc) := by
  have hcur : t.cur = s.cur := (congrArg State.cur hkeep :)
  have hcores : t.cores = s.cores := (congrArg State.cores hkeep :)
  have hcore : t.core = { s.core with retired := t.core.retired, hung := t.core.hung } := by rw [State.core, State.core, State.coreOf, hcores, hcur]; rfl
  refine ⟨fun i hi => ?_, fun k hk => ?_, ?_, ?_, fun a => ?_⟩
  · rw [← hctx i hi]
    exact State.ctxOf_updCtx_other t (fun c => { c.retireTo npc with stall := none, reported := false, hold := none, reply := none, refusedArr := false, aDone := false })
      (hcur ▸ hi)
  · exact (State.coreOf_updCore_other _ _ (show k ≠ coreOfCtx t.cur from hcur ▸ hk)).trans (by rw [State.coreOf, State.coreOf, ← hcores]; rfl)
  · have hr : t.rtime = s.rtime := (congrArg State.rtime hkeep :)
    refine (State.core_updCurCore _ _).trans ?_
    rw [← hr]
    exact congrArg (fun k : Core => { k with retired := t.rtime, hung := false }) hcore
  · exact congrArg (fun u : State => { u with cores := s.cores }) hkeep
  · exact (congrArg (fun u : State => u.mem.read a) hkeep :)

/-- A result changes XD and nothing else of the machine (R184, R296). -/
theorem State.writesOnly_result (s : State) (xd : BitVec 5) (v : Word) : s.writesOnly (s.setX xd v).fall (fun r => r = xd ∧ r ≠ 0) := by
  refine ⟨fun r hr => ?_, ?_, State.keepsRest_retire (s.setX_keeps xd v) (fun i hi => s.ctxOf_setX_other xd v hi) _⟩
  · rw [State.x_fall, State.x_setX]
    split
    next hx =>
      have h0 : r = 0 := not_not.1 (fun h => hr ⟨hx, h⟩)
      rw [h0, s.x_zero]
      exact if_pos (hx ▸ h0)
    next => rfl
  · rw [State.fall_eq, State.cx_retire, Ctx.retireTo_eq, State.cx_setX]

/-! ### A frozen context (R235) -/

theorem State.cur_freeze (s : State) (i : Nat) (e : FaultAt) : (s.freeze i e).cur = s.cur := (s.faultTaken_freeze i e).part State.cur (fun _ => rfl)

theorem State.cx_freeze (s : State) (e : FaultAt) : (s.freeze s.cur e).cx = { s.cx.frozen e.cause with haltAt := s.rtime } := by
  rw [State.cx, State.cur_freeze]
  exact s.ctxOf_freeze s.cur e

/-! ### Scalar forms (R296 to R302, R311) -/

/-- The outcomes of a scalar form: a fault, or one value in XD. -/
inductive State.ScalarOutcome (s : State) (xd : BitVec 5) : Out → Prop
  | fault (e : FaultAt) : State.ScalarOutcome s xd (.next (s.freeze s.cur e))
  | value (v : Word) : State.ScalarOutcome s xd (s.result xd v)

/-- A scalar form that does not freeze its context writes XD alone. -/
theorem State.ScalarOutcome.writesOnly {xd : BitVec 5} {o : Out} (h : s.ScalarOutcome xd o) (ho : o = .next t) (hst : t.cx.st ≠ 1) :
    s.writesOnly t (fun r => r = xd ∧ r ≠ 0) := by
  cases h with
  | fault e =>
    cases ho
    exact absurd (congrArg Ctx.st (s.cx_freeze e)) hst
  | value v =>
    cases ho
    exact s.writesOnly_result xd v

variable {xd : BitVec 5} {i : Instr} {k : State → Out}

theorem State.ScalarOutcome.slotA (h : s.ScalarOutcome xd (k s)) : s.ScalarOutcome xd (s.slotA i k) := by
  obtain ⟨-, hk⟩ | ⟨c, -, hk⟩ := s.slotA_cases i k <;> rw [hk]
  · exact h
  · exact .fault _

theorem State.ScalarOutcome.slotC (h : s.ScalarOutcome xd (k s)) : s.ScalarOutcome xd (s.slotC i k) := by
  obtain ⟨-, hk⟩ | ⟨c, -, hk⟩ := s.slotC_cases i k <;> rw [hk]
  · exact h
  · exact .fault _

theorem State.ScalarOutcome.slotBinary {f : FmtAR} (h : s.ScalarOutcome xd (k s)) : s.ScalarOutcome xd (s.slotBinary f k) := by
  unfold State.slotBinary
  split
  · exact h
  · exact .fault _

/-- A division traps on a zero divisor where its form asks for it (R298). -/
theorem State.scalarOutcome_divide (s : State) (f : FmtAR) (op : Word → Word → Word) : s.ScalarOutcome f.xd (s.divide f op) := by
  unfold State.divide
  split
  · exact .fault _
  · exact .value _

/-- `fcvt.w.s` refuses SR, and traps out of range where its form asks for it (R300, R301). -/
theorem execFcvtWS_scalarOutcome (f : FmtAR) (s : State) : s.ScalarOutcome f.xd (execFcvtWS f s) := by
  refine .slotA ?_
  simp only
  split
  · exact .fault _
  · split
    · exact .fault _
    · exact .value _

theorem exec_scalarOutcome (h : scalarDest i = some xd) (s : State) : s.ScalarOutcome xd (exec i s) := by
  unfold scalarDest at h
  split at h <;> cases h <;> simp only [exec]
  -- `div`, `divu`, `rem`, `remu`
  case h_6.refl | h_7.refl | h_8.refl | h_9.refl =>
    refine .slotA ?_
    exact s.scalarOutcome_divide _ _
  -- the comparisons `slt`, `sltu`, `seq`, and the BF16 forms of two operands, which check their fields themselves
  case h_23.refl | h_24.refl | h_25.refl =>
    refine .slotBinary ?_
    exact .value _
  case h_46.refl | h_47.refl | h_48.refl | h_49.refl | h_50.refl | h_51.refl =>
    refine .slotBinary ?_
    exact .value _
  case h_44.refl => exact execFcvtWS_scalarOutcome _ s
  -- the long immediates, which are wide instructions
  case h_62.refl | h_63.refl =>
    refine .slotC ?_
    exact .value _
  case h_64.refl =>
    refine .slotA ?_
    exact .value 0
  case h_65.refl =>
    refine .slotC ?_
    exact .value 0
  -- every other form is in the A slot and gives one value
  all_goals
    refine .slotA ?_
    exact .value _

end

/-- Settles O12: a scalar form faults, or it gives one value, which is all that it writes. -/
theorem scalarFormsWriteOnlyTheirDestination : Obligations.ScalarFormsWriteOnlyTheirDestination :=
  fun _ _ s _ hd he hst => (exec_scalarOutcome hd s).writesOnly he hst

/-- Settles O8: reads and writes of registers in the issuing context. -/
theorem registerZeroDiscardsWrites : Obligations.RegisterZeroDiscardsWrites := by
  intro s r v
  refine ⟨s.x_zero, s.setX_zero v, fun hr => ?_, fun q hq => ?_, fun i hi => s.ctxOf_setX_other r v hi, s.setX_keeps r v⟩
  · rw [State.x_setX, if_pos rfl, if_neg hr]
  · rw [State.x_setX, if_neg hq]

end Sys2Proof.Machine
end

section
/-! SUPPORT. Hardware loops: R196, R197, R306, R307. -/

namespace Sys2Proof.Machine

/-! ### Loop counters (R196) -/

/-- A counter holds the fields that it was made from. -/
theorem lcMake_fields {lenm1 count : Nat} (hl : lenm1 < 256) (hc : count < 2 ^ 32) (start : Nat) :
    lcActive (lcMake lenm1 start count) = true ∧ lcLen (lcMake lenm1 start count) = lenm1 ∧ lcCount (lcMake lenm1 start count) = count ∧
    lcStart (lcMake lenm1 start count) = start % 2 ^ 21 := by
  simp only [lcMake, lcActive, lcLen, lcCount, lcStart, bitAt, bitsOf, bitsAt, BitVec.toNat_ofNat, decide_eq_true_eq]
  omega

/-- Another turn of a loop takes one from COUNT and leaves the other fields. -/
theorem lc_pred_fields {w : Word} (h : 1 < lcCount w) :
    lcCount (w - 1) = lcCount w - 1 ∧ lcActive (w - 1) = lcActive w ∧ lcStart (w - 1) = lcStart w ∧ lcLen (w - 1) = lcLen w := by
  have hw := w.isLt
  have hcount : lcCount w = w.toNat % 2 ^ 32 := by simp [lcCount, bitsOf, bitsAt]
  rw [hcount] at h
  have hpred : (w - 1).toNat = w.toNat - 1 := by
    rw [BitVec.toNat_sub_of_le (by rw [BitVec.le_def]; simp; omega)]
    rfl
  simp only [lcCount, lcActive, lcStart, lcLen, bitAt, bitsOf, bitsAt, hpred, decide_eq_decide]
  omega

@[simp] theorem lcActive_zero : lcActive 0#64 = false := by decide

theorem Ctx.lcAt_put (c : Ctx) (k j : Nat) (w : Word) : ({ c with lc := c.lc.put k w } : Ctx).lcAt j = if j = k then w else c.lcAt j :=
  KMap.get_put 0 w c.lc k j

theorem Ctx.depthOf_le (c : Ctx) : c.depthOf ≤ 3 := by
  unfold Ctx.depthOf
  split_ifs <;> decide

/-- The counters below the depth are active. -/
theorem Ctx.active_of_lt_depthOf {c : Ctx} {j : Nat} (h : j < c.depthOf) : lcActive (c.lcAt j) = true := by
  unfold Ctx.depthOf at h
  split_ifs at h with h0 h1 h2
  · omega
  · obtain rfl : j = 0 := by omega
    simpa using h0
  · obtain rfl | rfl : j = 0 ∨ j = 1 := by omega
    · simpa using h0
    · simpa using h1
  · obtain rfl | rfl | rfl : j = 0 ∨ j = 1 ∨ j = 2 := by omega
    · simpa using h0
    · simpa using h1
    · simpa using h2

/-- With its innermost loop ended, the nest is one less deep. -/
theorem Ctx.depthOf_end {c : Ctx} (h : c.depthOf ≠ 0) : ({ c with lc := c.lc.put (c.depthOf - 1) 0 } : Ctx).depthOf = c.depthOf - 1 := by
  have hle := c.depthOf_le
  have hact : ∀ j, j < c.depthOf → lcActive (c.lcAt j) = true := fun j hj => Ctx.active_of_lt_depthOf hj
  generalize c.depthOf = d at *
  obtain rfl | rfl | rfl : d = 1 ∨ d = 2 ∨ d = 3 := by omega
  · simp [Ctx.depthOf, Ctx.lcAt_put]
  · simp [Ctx.depthOf, Ctx.lcAt_put, hact 0]
  · simp [Ctx.depthOf, Ctx.lcAt_put, hact 0, hact 1]

/-! ### The end test (R197) -/

section
variable {c : Ctx} {npc : Word}

/-- The end test is met at the last bundle of the innermost body, when the bundle falls through. -/
theorem Ctx.retireTo_of_not_last (h : c.depthOf = 0 ∨ c.pc.toNat ≠ c.bodyLast (c.depthOf - 1) ∨ npc ≠ c.pc + 8) : c.retireTo npc = { c with pc := npc } := by
  unfold Ctx.retireTo
  simp only
  by_cases h0 : c.depthOf = 0
  · rw [if_pos h0]
  · rw [if_neg h0, if_neg (fun hl => h.elim h0 (fun hn => hn.elim (fun hp => hp hl.1) (fun hp => hp hl.2)))]

theorem Ctx.retireTo_again (h0 : c.depthOf ≠ 0) (hl : c.pc.toNat = c.bodyLast (c.depthOf - 1)) (hc : 1 < lcCount (c.lcAt (c.depthOf - 1))) :
    c.retireTo (c.pc + 8) =
      { c with lc := c.lc.put (c.depthOf - 1) (c.lcAt (c.depthOf - 1) - 1), pc := BitVec.ofNat 64 (c.bodyFirst (c.depthOf - 1)) } := by
  unfold Ctx.retireTo
  simp only
  rw [if_neg h0, if_pos ⟨hl, trivial⟩, if_pos hc]

theorem Ctx.retireTo_ends (h0 : c.depthOf ≠ 0) (hl : c.pc.toNat = c.bodyLast (c.depthOf - 1)) (hc : lcCount (c.lcAt (c.depthOf - 1)) ≤ 1) :
    c.retireTo (c.pc + 8) = { c with lc := c.lc.put (c.depthOf - 1) 0, pc := c.pc + 8 } := by
  unfold Ctx.retireTo
  simp only
  rw [if_neg h0, if_pos ⟨hl, trivial⟩, if_neg (Nat.not_lt.2 hc)]

end

/-! ### Taken branches (R197) -/

/-- The body of loop j holds an address. -/
def Ctx.bodyHolds (c : Ctx) (target j : Nat) : Prop := c.bodyFirst j ≤ target ∧ target ≤ c.bodyLast j

/-- Of the loops of a context those from e on have ended, since none of their bodies holds the target. -/
structure Ctx.EndedFrom (c : Ctx) (target e : Nat) (c' : Ctx) : Prop where
  le : e ≤ c.depthOf
  depth : c'.depthOf = e
  rest : ({ c' with lc := c.lc } : Ctx) = c
  counter : ∀ j, c'.lcAt j = if e ≤ j ∧ j < c.depthOf then 0 else c.lcAt j
  out : ∀ j, e ≤ j → j < c.depthOf → ¬c.bodyHolds target j

namespace Ctx.EndedFrom

variable {c c' : Ctx} {target e : Nat}

theorem self (c : Ctx) (target : Nat) : c.EndedFrom target c.depthOf c where
  le := le_rfl
  depth := rfl
  rest := rfl
  counter j := (if_neg (by omega)).symm
  out j := by omega

/-- A loop that has not ended has its body where it was. -/
theorem bodyHolds_iff (h : c.EndedFrom target e c') {j : Nat} (hj : j < e) : c'.bodyHolds target j ↔ c.bodyHolds target j := by
  have hcode : c'.codelo = c.codelo := (congrArg Ctx.codelo h.rest :)
  have hlc : c'.lcAt j = c.lcAt j := (h.counter j).trans (if_neg (by omega))
  simp only [Ctx.bodyHolds, Ctx.bodyFirst, Ctx.bodyLast, hcode, hlc]

/-- The innermost loop that is left goes on, with its body around the target, or it ends. -/
theorem leaveInner (h : c.EndedFrom target e c') :
    ((e = 0 ∨ c.bodyHolds target (e - 1)) ∧ c'.leaveInner target = c') ∨ (e ≠ 0 ∧ c.EndedFrom target (e - 1) (c'.leaveInner target)) := by
  unfold Ctx.leaveInner
  simp only [h.depth]
  by_cases h0 : e = 0
  · exact .inl ⟨.inl h0, if_pos h0⟩
  · have hiff := h.bodyHolds_iff (j := e - 1) (by omega)
    by_cases hin : c'.bodyHolds target (e - 1)
    · refine .inl ⟨.inr (hiff.1 hin), ?_⟩
      rw [if_neg h0]
      exact if_pos hin
    · refine .inr ⟨h0, ?_⟩
      rw [if_neg h0, if_neg (show ¬(_ ∧ _) from hin)]
      refine ⟨(Nat.sub_le e 1).trans h.le, ?_, h.rest, fun j => ?_, fun j hj hd => ?_⟩
      · have hd : c'.depthOf ≠ 0 := h.depth.symm ▸ h0
        simpa only [h.depth] using Ctx.depthOf_end hd
      · have hle := h.le
        rw [Ctx.lcAt_put, h.counter]
        by_cases hj : j = e - 1
        · rw [if_pos hj, if_pos (by omega)]
        · rw [if_neg hj]
          exact if_congr (by omega) rfl rfl
      · by_cases he : j = e - 1
        · rw [he, ← hiff]
          exact hin
        · exact h.out j (by omega) hd

end Ctx.EndedFrom

/-- A taken branch ends the loops inside the innermost one whose body holds its target: at most three are active. -/
theorem Ctx.leaveLoops_ends (c : Ctx) (target : Nat) :
    ∃ e, c.EndedFrom target e (c.leaveLoops target) ∧ (e = 0 ∨ c.bodyHolds target (e - 1)) := by
  have hstep : ∀ (n : Nat) (c' : Ctx), (∃ e, c.EndedFrom target e c' ∧ (e = 0 ∨ c.bodyHolds target (e - 1) ∨ e + n ≤ c.depthOf)) →
      ∃ e, c.EndedFrom target e (c'.leaveInner target) ∧ (e = 0 ∨ c.bodyHolds target (e - 1) ∨ e + (n + 1) ≤ c.depthOf) := by
    intro n c' ⟨e, he, hn⟩
    obtain ⟨hstop, hsame⟩ | ⟨h0, hend⟩ := he.leaveInner
    · rw [hsame]
      exact ⟨e, he, hstop.imp_right .inl⟩
    · have hin := hend.out (e - 1) le_rfl (by have := he.le; omega)
      obtain h | h | h := hn
      · exact absurd h h0
      · exact absurd h hin
      · exact ⟨e - 1, hend, .inr (.inr (by omega))⟩
  have h3 := hstep 2 _ (hstep 1 _ (hstep 0 c ⟨c.depthOf, .self c target, .inr (.inr le_rfl)⟩))
  obtain ⟨e, he, hstop⟩ := h3
  have hle := c.depthOf_le
  exact ⟨e, he, hstop.elim .inl (fun h => h.elim .inr (fun h => .inl (by omega)))⟩

/-- A loop goes on where a body from it inwards holds the target, and has ended where none does. -/
theorem Ctx.lcAt_leaveLoops (c : Ctx) (target j : Nat) :
    ((∀ n, j ≤ n → n < c.depthOf → ¬c.bodyHolds target n) → j < c.depthOf → (c.leaveLoops target).lcAt j = 0) ∧
    ((∃ n, j ≤ n ∧ n < c.depthOf ∧ c.bodyHolds target n) → (c.leaveLoops target).lcAt j = c.lcAt j) := by
  obtain ⟨e, he, hstop⟩ := c.leaveLoops_ends target
  have hle := he.le
  refine ⟨fun hout hj => ?_, fun ⟨n, hjn, hn, hin⟩ => ?_⟩
  · have hej : e ≤ j := by
      by_contra hlt
      exact hout (e - 1) (by omega) (by omega) (hstop.resolve_left (by omega))
    rw [he.counter, if_pos ⟨hej, hj⟩]
  · have hen : n < e := by
      by_contra hlt
      exact he.out n (by omega) hn hin
    rw [he.counter, if_neg (by omega)]

theorem Ctx.leaveLoops_keeps (c : Ctx) (target : Nat) : ({ c.leaveLoops target with lc := c.lc } : Ctx) = c :=
  (c.leaveLoops_ends target).choose_spec.1.rest

/-! ### The instructions (R306, R307) -/

section
variable {s : State}

/-- Both loop instructions start a loop of a length and a count, each in its own way (R306). -/
theorem exec_startLoop {i : Instr} {lenm1 count : Nat} (hi : (∃ f : FmtCL, i = .loop f ∧ lenm1 = f.lenm1.toNat ∧ count = (s.x f.xa).toNat % 2 ^ 32) ∨
    (∃ f : FmtCLI, i = .loopi f ∧ lenm1 = f.lenm1.toNat ∧ count = f.count.toNat)) (ha : s.accepts i) :
    exec i s = s.startLoop lenm1 count ∧ lenm1 < 256 ∧ count < 2 ^ 32 := by
  obtain ⟨f, rfl, rfl, rfl⟩ | ⟨f, rfl, rfl, rfl⟩ := hi
  · refine ⟨(show execLoop f s = _ from State.slotC_of_accepts ha _).trans ?_, f.lenm1.isLt, Nat.mod_lt _ (by decide)⟩
    simp only [bitsOf, bitsAt, Nat.pow_zero, Nat.div_one]
  · exact ⟨show execLoopi f s = _ from State.slotC_of_accepts ha _, f.lenm1.isLt, f.count.isLt.trans (by decide)⟩

/-- A started loop: the counter at the depth, and the next bundle. -/
def State.loopStarted (s : State) (lenm1 count : Nat) : State :=
  (s.retire (s.cx.pc + 8)).upd (fun c => { c with
    lc := s.cx.lc.put s.cx.depthOf (lcMake lenm1 ((s.cx.pc.toNat + 8 - s.cx.codelo.toNat) / 8) count), pc := s.cx.pc + 8 })

theorem State.cx_loopStarted (s : State) (lenm1 count : Nat) : (s.loopStarted lenm1 count).cx =
    { s.cx with
      lc := s.cx.lc.put s.cx.depthOf (lcMake lenm1 ((s.cx.pc.toNat + 8 - s.cx.codelo.toNat) / 8) count), pc := s.cx.pc + 8,
      stall := none, reported := false, hold := none, reply := none, refusedArr := false, aDone := false } := by
  rw [State.loopStarted, State.cx_upd, State.cx_retire, Ctx.retireTo_eq]

/-- It has written no register. -/
theorem State.writesOnly_loopStarted (s : State) (lenm1 count : Nat) : s.writesOnly (s.loopStarted lenm1 count) (fun _ => False) := by
  have hcx := s.cx_loopStarted lenm1 count
  obtain ⟨hctx, hcores, hcore, hrest, hmem⟩ : s.keepsRest (s.retire (s.cx.pc + 8)) := State.keepsRest_retire rfl (fun _ _ => rfl) _
  refine ⟨fun r _ => State.x_of_regs (by rw [hcx]) r, by rw [hcx], fun i hi => ?_, hcores, hcore, hrest, hmem⟩
  exact (State.ctxOf_updCtx_other _ _ (show i ≠ (s.retire (s.cx.pc + 8)).cur from hi)).trans (hctx i hi)

variable {lenm1 count : Nat}

theorem State.startLoop_beyond_code (h : s.cx.pc.toNat + 8 * (lenm1 + 2) > s.cx.codehi.toNat) : s.startLoop lenm1 count = s.faultC .loopBody := if_pos h

theorem State.startLoop_badly_nested (hbody : s.cx.pc.toNat + 8 * (lenm1 + 2) ≤ s.cx.codehi.toNat)
    (h : s.cx.depthOf = 3 ∨ (1 ≤ s.cx.depthOf ∧ s.cx.pc.toNat + 8 * (lenm1 + 1) > s.cx.bodyLast (s.cx.depthOf - 1))) :
    s.startLoop lenm1 count = s.faultC .loopNest := by
  refine (if_neg (Nat.not_lt.2 hbody)).trans ?_
  by_cases h3 : s.cx.depthOf = 3
  · exact if_pos h3
  · exact (if_neg h3).trans (if_pos (h.resolve_left h3))

theorem State.startLoop_of_checks (hbody : s.cx.pc.toNat + 8 * (lenm1 + 2) ≤ s.cx.codehi.toNat) (hd : s.cx.depthOf < 3)
    (hnest : s.cx.depthOf = 0 ∨ s.cx.pc.toNat + 8 * (lenm1 + 1) ≤ s.cx.bodyLast (s.cx.depthOf - 1)) :
    s.startLoop lenm1 count =
      if count = 0 then .next (s.retire (BitVec.ofNat 64 (s.cx.pc.toNat + 8 * (lenm1 + 2)))) else .next (s.loopStarted lenm1 count) :=
  (if_neg (Nat.not_lt.2 hbody)).trans ((if_neg (by omega)).trans (if_neg (by omega)))

theorem execLbrk_of_none (ha : s.accepts .lbrk) (h : s.cx.depthOf = 0) : exec .lbrk s = s.faultC .loopNest :=
  (show execLbrk s = _ from State.slotC_of_accepts ha _).trans (if_pos h)

/-- The innermost loop ends, and the bundle goes on after its body (R307). -/
theorem execLbrk_ends (ha : s.accepts .lbrk) (h : s.cx.depthOf ≠ 0) : exec .lbrk s =
    .next ((s.upd (fun c => { c with lc := c.lc.put (s.cx.depthOf - 1) 0 })).retire (BitVec.ofNat 64 (s.cx.bodyLast (s.cx.depthOf - 1) + 8))) :=
  (show execLbrk s = _ from State.slotC_of_accepts ha _).trans (if_neg h)

/-- Its PC and counters, where the body around it does not end at the same bundle. -/
theorem execLbrk_effects (ha : s.accepts .lbrk) (h0 : s.cx.depthOf ≠ 0) (hout : s.cx.depthOf = 1 ∨ s.cx.bodyLast (s.cx.depthOf - 2) ≠ s.cx.pc.toNat) :
    ∃ t, exec .lbrk s = .next t ∧ t.cx.pc = BitVec.ofNat 64 (s.cx.bodyLast (s.cx.depthOf - 1) + 8) ∧
      ∀ j, t.cx.lcAt j = if j = s.cx.depthOf - 1 then 0 else s.cx.lcAt j := by
  let c : Ctx := { s.cx with lc := s.cx.lc.put (s.cx.depthOf - 1) 0 }
  have hcx : (s.upd (fun c => { c with lc := c.lc.put (s.cx.depthOf - 1) 0 })).cx = c := s.cx_upd _
  have hdepth : c.depthOf = s.cx.depthOf - 1 := Ctx.depthOf_end h0
  have hlast : c.retireTo (BitVec.ofNat 64 (s.cx.bodyLast (s.cx.depthOf - 1) + 8)) = { c with pc := BitVec.ofNat 64 (s.cx.bodyLast (s.cx.depthOf - 1) + 8) } := by
    refine Ctx.retireTo_of_not_last ?_
    rw [hdepth]
    by_cases h1 : s.cx.depthOf = 1
    · exact .inl (by omega)
    refine .inr (.inl fun hpc => hout.resolve_left h1 ?_)
    have hbody : c.bodyLast (s.cx.depthOf - 1 - 1) = s.cx.bodyLast (s.cx.depthOf - 2) := by
      have hinner : s.cx.depthOf - 1 - 1 ≠ s.cx.depthOf - 1 := by omega
      rw [Ctx.bodyLast, Ctx.bodyLast, Ctx.lcAt_put, if_neg hinner, Nat.sub_sub]
    exact hbody.symm.trans hpc.symm
  refine ⟨_, execLbrk_ends ha h0, ?_, fun j => ?_⟩
  · rw [State.cx_retire, hcx, hlast]
  · rw [State.cx_retire, hcx, hlast]
    exact s.cx.lcAt_put (s.cx.depthOf - 1) j 0

end

theorem loopsStartAsTheirChecksAllow_holds : loopsStartAsTheirChecksAllow := by
  intro s i lenm1 count hi ha a d
  obtain ⟨hexec, hl, hc⟩ := exec_startLoop hi ha
  rw [hexec]
  refine ⟨State.startLoop_beyond_code, State.startLoop_badly_nested, fun hbody hd hnest => ?_⟩
  rw [State.startLoop_of_checks hbody hd hnest]
  refine ⟨fun h0 => if_pos h0, fun h0 => ⟨_, lcMake lenm1 ((a + 8 - s.cx.codelo.toNat) / 8) count, if_neg h0, ?_, ?_, ?_⟩⟩
  · rw [s.cx_loopStarted]
  · rw [s.cx_loopStarted]
  · obtain ⟨hactive, hlen, hcount, hstart⟩ := lcMake_fields hl hc ((s.cx.pc.toNat + 8 - s.cx.codelo.toNat) / 8)
    exact ⟨hactive, hlen, hcount, hstart, s.writesOnly_loopStarted lenm1 count⟩

theorem loopControlFollowsRetirement_holds : loopControlFollowsRetirement := by
  intro s d w
  have hfall : ∀ {c : Ctx}, s.cx.retireTo (s.cx.pc + 8) = c → s.fall.cx.pc = c.pc ∧ s.fall.cx.lc = c.lc := fun h => by
    rw [State.fall_eq, State.cx_retire, h]
    exact ⟨rfl, rfl⟩
  have hlcs : ∀ {lc : KMap Word} {v : Word}, lc = s.cx.lc.put (d - 1) v → ∀ j, KMap.get 0 lc j = if j = d - 1 then v else s.cx.lcAt j := fun h j => by
    rw [h, KMap.get_put]
    rfl
  refine ⟨fun h0 hlast hn => ?_, fun h0 hlast hn => ?_, fun h => ?_, fun target ht => ?_, fun target ht => ?_, execLbrk_of_none, fun ha h0 hout => ?_⟩
  · obtain ⟨hpc, hlc⟩ := hfall (Ctx.retireTo_again h0 hlast hn)
    have hw : s.fall.cx.lcAt (d - 1) = w - 1 := (hlcs hlc (d - 1)).trans (if_pos rfl)
    obtain ⟨hcount, hactive, hstart, hlen⟩ := lc_pred_fields hn
    rw [hw]
    exact ⟨hpc, hcount, hactive.trans (Ctx.active_of_lt_depthOf (by omega)), hstart, hlen, fun j hj => (hlcs hlc j).trans (if_neg hj)⟩
  · obtain ⟨hpc, hlc⟩ := hfall (Ctx.retireTo_ends h0 hlast hn)
    exact ⟨hpc, (hlcs hlc (d - 1)).trans (if_pos rfl), fun j hj => (hlcs hlc j).trans (if_neg hj)⟩
  · exact hfall (Ctx.retireTo_of_not_last (h.imp_right .inl))
  · intro holds
    have hkeep := s.cx.leaveLoops_keeps target.toNat
    have hpc : (s.cx.leaveLoops target.toNat).pc = s.cx.pc := (congrArg Ctx.pc hkeep :)
    have hcx : (s.branch target).cx = { s.cx.leaveLoops target.toNat with
        pc := target, stall := none, reported := false, hold := none, reply := none, refusedArr := false, aDone := false } := by
      rw [State.branch, State.cx_retire, State.cx_upd, Ctx.retireTo_of_not_last (.inr (.inr (hpc ▸ ht)))]
    rw [hcx]
    exact ⟨rfl, fun j _ => s.cx.lcAt_leaveLoops target.toNat j⟩
  · rw [State.cx_retire, Ctx.retireTo_of_not_last (.inr (.inr ht))]
    exact ⟨rfl, rfl⟩
  · obtain ⟨t, he, hpc, hlc⟩ := execLbrk_effects ha h0 hout
    have hafter : s.cx.bodyLast (d - 1) + 8 = s.cx.codelo.toNat + 8 * (lcStart w + lcLen w + 1) := by
      simp only [Ctx.bodyLast, w]
      omega
    exact ⟨t, he, (hlc _).trans (if_pos rfl), hafter ▸ hpc, fun j hj => (hlc j).trans (if_neg hj)⟩

/-- Settles O17: how a loop starts, and loop control after each bundle. -/
theorem loopsStartAndEnd : Obligations.LoopsStartAndEnd := ⟨loopsStartAsTheirChecksAllow_holds, loopControlFollowsRetirement_holds⟩

end Sys2Proof.Machine
end

section
/-! SUPPORT. Moves from and to special registers: R185, R187, R321, R322. -/

namespace Sys2Proof.Machine

/-! ### The list of special registers (R185) -/

/-- The numbers that R185 lists. -/
theorem State.spr_isSome_iff (s : State) (n : Nat) : (s.spr n).isSome = true ↔
    n ≤ 0x0C ∨ (0x10 ≤ n ∧ n ≤ 0x12) ∨ (0x18 ≤ n ∧ n ≤ 0x1A) ∨ n = 0x20 ∨ n = 0x21 ∨ (0x28 ≤ n ∧ n ≤ 0x2D) ∨ (0x30 ≤ n ∧ n ≤ 0x35) ∨ n = 0x38 := by
  unfold State.spr
  split
  case h_35 =>
    simp only [imp_false] at *
    simp only [Option.isSome_none, Bool.false_eq_true, false_iff]
    omega
  all_goals simp

/-- A register of the tile reads as it was before the other core's bundle of the same arithmetic cycle (R321). -/
theorem State.tileSprSeen_eq (s : State) (n : Nat) :
    let other := s.coreOf (4 * tileOfCtx s.cur + 1 - coreOfCtx s.cur)
    let late := if other.issued = some (s.cycOf (fieldOfCtx s.cur)) then other.before.lookup n else none
    s.tileSprSeen n = late.getD (s.tileSpr (tileOfCtx s.cur) n) := by
  intro other late
  unfold State.tileSprSeen
  simp only [late]
  by_cases h : other.issued = some (s.cycOf (fieldOfCtx s.cur))
  · rw [if_pos h]
    show (match other.before.lookup n with | some v => _ | none => _) = _
    cases other.before.lookup n with
    | none => rfl
    | some v => exact if_pos h
  · rw [if_neg h]
    show (match other.before.lookup n with | some v => _ | none => _) = _
    cases other.before.lookup n with
    | none => rfl
    | some v => exact if_neg h

section
variable {s : State} {f : FmtCS}

theorem execMfs_of_some {v : Word} (ha : s.accepts (.mfs f)) (h : s.spr f.spr.toNat = some v) : exec (.mfs f) s = .next ((s.setX f.x v).fall) := by
  refine (show execMfs f s = _ from State.slotC_of_accepts ha _).trans ?_
  rw [h]
  rfl

theorem execMfs_of_none (ha : s.accepts (.mfs f)) (h : s.spr f.spr.toNat = none) : exec (.mfs f) s = s.faultC .sprUndef := by
  refine (show execMfs f s = _ from State.slotC_of_accepts ha _).trans ?_
  rw [h]

end

theorem moveFromSpecialReadsTheList_holds : moveFromSpecialReadsTheList := by
  intro f s ha n t gives other late shared
  have hgives : ∀ {m : Nat} {v : Word}, n = m → s.spr m = some v → gives v := fun hn h => execMfs_of_some ha (hn.symm ▸ h : s.spr n = _)
  have hshared : ∀ {m v : Nat}, n = m → s.spr m = some (s.tileSprSeen m) → s.tileSpr (tileOfCtx s.cur) m = BitVec.ofNat 64 v → shared v := fun hn h hv => by
    subst hn
    exact execMfs_of_some ha (h.trans (congrArg some ((s.tileSprSeen_eq n).trans (congrArg late.getD hv))))
  refine ⟨fun h => hgives h rfl, fun h => hgives h rfl, fun h2 h7 => ?_, fun h => hgives h rfl, fun h => hgives h rfl, fun h => hgives h rfl, fun h => hgives h rfl,
    fun h => hgives h rfl, fun h => hgives h rfl, fun h => hgives h rfl, fun h => hgives h rfl, fun h => hshared h rfl rfl, fun h => hshared h rfl rfl,
    fun h hn => hshared h rfl ?_, fun h => hgives h rfl, fun h => hgives h rfl, fun h hs => hshared h rfl ?_, fun h => hshared h rfl rfl, fun h => hgives h rfl,
    fun h => hgives h rfl, fun h => hgives h rfl, fun h => hgives h rfl, fun h => hgives h rfl, fun h => hgives h rfl, fun h => hgives h rfl, fun h1 h2 => ?_,
    fun h => hshared h rfl rfl, fun h => execMfs_of_none ha ?_⟩
  · obtain h | h | h | h | h | h : n = 2 ∨ n = 3 ∨ n = 4 ∨ n = 5 ∨ n = 6 ∨ n = 7 := by omega
    all_goals exact hgives h (by rw [h]; rfl)
  · simp only [State.tileSpr, State.noticeWord, show (s.tileOf (tileOfCtx s.cur)).notices = [] from hn]
    rfl
  · simp only [State.tileSpr, Tile.shown, show (s.tileOf (tileOfCtx s.cur)).engShown = none from hs]
    rfl
  · obtain h | h | h : n = 0x33 ∨ n = 0x34 ∨ n = 0x35 := by omega
    all_goals exact hgives h (by rw [h]; rfl)
  · rw [← Option.not_isSome_iff_eq_none, s.spr_isSome_iff]
    omega

/-! ### Claims on engine resources (R150, R179) -/

/-- What no other actor claims any of, it claims no part of. -/
theorem State.claimedByOther_of_part {s : State} {mask : Nat} (hm : mask < 16) (h : s.claimedByOther 15 = false) : s.claimedByOther mask = false := by
  have hpart : ∀ c : Nat, c &&& 15 = 0 → c &&& mask = 0 := fun c hc => by
    have hmask : 15 &&& mask = mask := by
      rw [Nat.and_comm]
      exact (Nat.and_two_pow_sub_one_eq_mod mask 4).trans (Nat.mod_eq_of_lt hm)
    rw [← hmask, ← Nat.and_assoc, hc, Nat.zero_and]
  rw [← Bool.not_eq_true, State.claimedByOther] at h ⊢
  refine fun hany => h ?_
  simp only [List.any_eq_true, Bool.and_eq_true] at hany ⊢
  obtain ⟨core, hcore, e, he, ⟨hv, hclaim⟩, hother⟩ := hany
  refine ⟨core, hcore, e, he, ⟨hv, ?_⟩, hother⟩
  split at hclaim
  · rw [if_pos ‹_›]
    exact decide_eq_true fun h15 => of_decide_eq_true hclaim (hpart _ h15)
  · rw [if_neg ‹_›]
    exact hclaim

theorem State.engineRole_eq_none {s : State} {kind mask : Nat} (hk : tileKind (tileOfCtx s.cur) = kind) (hc : isIssueCore (coreOfCtx s.cur) = true)
    (hcl : s.claimedByOther mask = false) : s.engineRole kind mask = none := by
  simp [State.engineRole, hk, hc, hcl]

/-! ### Writes (R322) -/

theorem State.eng_fall (s : State) : s.fall.eng = s.eng := rfl

/-- Bit j of a field of four bits of a word. -/
theorem getLsbD_field (w : Word) (lo : Nat) {j : Nat} (h : j < 4) : (BitVec.ofNat 4 (bitsOf w (lo + 3) lo)).getLsbD j = w.getLsbD (lo + j) := by
  rw [BitVec.getLsbD_ofNat, ← bitAt_eq_testBit, bitAt_bitsOf w lo (by omega)]
  simp [h]

/-- What `mts` does with a value for the special register of a number. -/
def State.writeSpr (s : State) (n : Nat) (a : Word) : Out :=
  match n with
  | 0x28 => s.writeAccst a
  | 0x29 => s.writePromo a
  | 0x2A => .next (s.updCurCore (fun k => { k with lutlo := a })).fall
  | 0x2B => .next (s.updCurCore (fun k => { k with luthi := a })).fall
  | 0x2C => s.writeMode a
  | 0x2D => .next (s.updCurCore (fun k => { k with seed := a })).fall
  | 0x32 => .next (s.upd (fun c => { c with lbase := a })).fall
  | n => if (s.spr n).isSome then s.faultC .sprReadonly else s.faultC .sprUndef

section
variable {s : State} {f : FmtCS}

theorem execMts_of_accepts (ha : s.accepts (.mts f)) : exec (.mts f) s = s.writeSpr f.spr.toNat (s.x f.x) := show execMts f s = _ from State.slotC_of_accepts ha _

/-- A number that `mts` does not write faults: read-only where it is listed. -/
theorem execMts_of_not_written (ha : s.accepts (.mts f)) (h : (f.spr.toNat < 0x28 ∨ 0x2D < f.spr.toNat) ∧ f.spr.toNat ≠ 0x32) :
    exec (.mts f) s = if (s.spr f.spr.toNat).isSome then s.faultC .sprReadonly else s.faultC .sprUndef := by
  rw [execMts_of_accepts ha, State.writeSpr]
  all_goals omega

/-- RM in bits [3:1] below 5, and no bit above them (R322). -/
theorem State.writeMode_eq (s : State) (a : Word) : s.writeMode a =
    if 5 ≤ a.toNat / 2 % 8 ∨ 16 ≤ a.toNat then s.faultC .reservedField else .next (s.upd (fun c => { c with rm := a.toNat / 2 })).fall := by
  have hlt := a.isLt
  have hrm : bitsOf a 3 1 = a.toNat / 2 % 8 := by simp [bitsOf, bitsAt]
  have hhigh : bitsOf a 63 4 = a.toNat / 16 % 2 ^ 60 := by simp [bitsOf, bitsAt]
  simp only [State.writeMode, hrm, hhigh]
  by_cases h : 5 ≤ a.toNat / 2 % 8 ∨ 16 ≤ a.toNat
  · rw [if_pos (by omega), if_pos h]
  · rw [if_neg (by omega), if_neg h, show a.toNat / 2 % 8 = a.toNat / 2 by omega]

/-- PROMO is seven bits (R187). -/
theorem State.writePromo_of_role (a : Word) (h : s.engineRole 0 15 = none) : s.writePromo a =
    if 128 ≤ a.toNat then s.faultC .reservedField else .next (s.updEng (fun e => { e with promo := bitsOf a 6 0 })).fall := by
  have hlt := a.isLt
  have hhigh : bitsOf a 63 7 ≠ 0 ↔ 128 ≤ a.toNat := by
    simp only [bitsOf, bitsAt]
    omega
  simp only [State.writePromo, h]
  exact if_congr hhigh rfl rfl

theorem State.writePromo_of_cause {c : Cause} (a : Word) (h : s.engineRole 0 15 = some c) : s.writePromo a = s.faultC c := by
  simp only [State.writePromo, h]

/-- The tile's ACCST after a write: each 1 of SAT, ERR or SPROW has cleared that bit. -/
def State.accstCleared (s : State) (a : Word) : State :=
  (s.updEng (fun e => { e with sat := e.sat &&& ~~~(BitVec.ofNat 4 (bitsOf a 3 0)), err := e.err &&& ~~~(BitVec.ofNat 4 (bitsOf a 7 4)), sprow := e.sprow && !bitAt a.toNat 20 })).fall

theorem State.writeAccst_of_feed (a : Word) (hc : isIssueCore (coreOfCtx s.cur) = false) : s.writeAccst a = s.faultC .engineFeed := if_pos (by simp [hc])

theorem State.writeAccst_of_unclaimed (a : Word) (hc : isIssueCore (coreOfCtx s.cur) = true) (hcl : s.claimedByOther 15 = false) :
    s.writeAccst a = .next (s.accstCleared a) := by
  refine (if_neg (by simp [hc])).trans (if_neg ?_)
  rw [State.claimedByOther_of_part ?_ hcl]
  · simp
  · split
    · exact BitVec.isLt _
    · split <;> decide

theorem State.accstCleared_effects (s : State) (a : Word) :
    (∀ j, j < 4 → (s.accstCleared a).eng.sat.getLsbD j = (s.eng.sat.getLsbD j && !a.getLsbD j)) ∧
    (∀ j, j < 4 → (s.accstCleared a).eng.err.getLsbD j = (s.eng.err.getLsbD j && !a.getLsbD (4 + j))) ∧
    (s.accstCleared a).eng.sprow = (s.eng.sprow && !a.getLsbD 20) ∧ (s.accstCleared a).eng.inner = s.eng.inner ∧ (∀ r, (s.accstCleared a).x r = s.x r) ∧
    (s.accstCleared a).cx.pc = s.fall.cx.pc := by
  have heng : (s.accstCleared a).eng = { s.eng with
      sat := s.eng.sat &&& ~~~(BitVec.ofNat 4 (bitsOf a 3 0)), err := s.eng.err &&& ~~~(BitVec.ofNat 4 (bitsOf a 7 4)), sprow := s.eng.sprow && !bitAt a.toNat 20 } := by
    rw [State.accstCleared, State.eng_fall, State.eng_updEng]
  rw [heng]
  refine ⟨fun j hj => ?_, fun j hj => ?_, ?_, rfl, fun r => (State.x_fall _ r).trans (State.x_congr rfl r), congrArg Ctx.pc (State.cx_fall_congr rfl)⟩
  · have hbit := getLsbD_field a 0 hj
    simp only [Nat.zero_add] at hbit
    simp only [BitVec.getLsbD_and, BitVec.getLsbD_not, hbit, hj, decide_true, Bool.true_and]
  · simp only [BitVec.getLsbD_and, BitVec.getLsbD_not, getLsbD_field a 4 hj, hj, decide_true, Bool.true_and]
  · simp only [bitAt_toNat]

end

theorem moveToSpecialWritesByRegister_holds : moveToSpecialWritesByRegister := by
  intro f s ha n a
  have hmts : ∀ {m : Nat}, n = m → exec (.mts f) s = s.writeSpr m a := fun h => h ▸ execMts_of_accepts ha
  refine ⟨fun h => ?_, fun h => hmts h, fun h => hmts h, fun h => hmts h, fun h => hmts h, fun h => ?_, fun h => ?_, fun h => ?_, fun h => ?_⟩
  · have hmode := (hmts h).trans (s.writeMode_eq a)
    split
    · exact hmode.trans (if_pos ‹_›)
    · exact hmode.trans (if_neg ‹_›)
  · refine ⟨fun hk => ?_, fun hk hc => ?_, fun hk hc hcl => ?_⟩
    · exact (hmts h).trans (State.writePromo_of_cause a (State.engineRole_of_kind 15 hk))
    · exact (hmts h).trans (State.writePromo_of_cause a (State.engineRole_of_feed 15 hk hc))
    · have hpromo := (hmts h).trans (State.writePromo_of_role a (State.engineRole_eq_none hk hc hcl))
      split
      · exact hpromo.trans (if_pos ‹_›)
      · refine ⟨_, hpromo.trans (if_neg ‹_›), ?_, fun r => (State.x_fall _ r).trans (State.x_congr rfl r), congrArg Ctx.pc (State.cx_fall_congr rfl)⟩
        rw [State.eng_fall, State.eng_updEng]
        simp only [bitsOf, bitsAt]
        omega
  · exact ⟨fun hc => (hmts h).trans (State.writeAccst_of_feed a hc),
      fun hc hcl => ⟨_, (hmts h).trans (State.writeAccst_of_unclaimed a hc hcl), s.accstCleared_effects a⟩⟩
  · rw [execMts_of_not_written ha (show (n < 0x28 ∨ 0x2D < n) ∧ n ≠ 0x32 by omega), if_pos ((s.spr_isSome_iff n).2 (by omega))]
  · rw [execMts_of_not_written ha (show (n < 0x28 ∨ 0x2D < n) ∧ n ≠ 0x32 by omega), if_neg (fun hs => by have := (s.spr_isSome_iff n).1 hs; omega)]

/-- Settles O32: reads by the list of R185, and writes by the table of R322. -/
theorem specialRegistersMove : Obligations.SpecialRegistersMove := ⟨moveFromSpecialReadsTheList_holds, moveToSpecialWritesByRegister_holds⟩

end Sys2Proof.Machine
end

section
/-! SUPPORT. The long-vector unit: R200, R201, R344. -/

namespace Sys2Proof.Machine

/-! ### Long registers (R201) -/

/-- A map from which keys have been left out. -/
theorem KMap.get_filter_keys {α : Type} (d : α) (p : Nat → Bool) (m : KMap α) (k : Nat) :
    KMap.get d (m.filter (fun e => p e.1)) k = if p k then m.get d k else d := by
  induction m with
  | nil => simp [KMap.get]
  | cons e m ih =>
    obtain ⟨j, b⟩ := e
    by_cases hp : p j = true
    · by_cases hj : j = k
      · subst hj
        simp [KMap.get, hp]
      · simpa [KMap.get, hp, hj] using ih
    · have hkj : p k = true → j ≠ k := fun hk h => hp (h ▸ hk)
      rw [List.filter_cons_of_neg (a := (j, b)) (by exact hp), ih]
      split
      · rw [KMap.get, if_neg (hkj ‹_›)]
      · rfl

/-- An engine whose sixteen long registers have been cleared. -/
theorem Engine.longReg_cleared (e : Engine) {r : Nat} (hr : r < 16) : ({ e with mem := e.mem.filter (fun w => w.1 ≥ 1024) } : Engine).longReg r = 0 := by
  have hword : ∀ i, i < 64 → KMap.get 0 (e.mem.filter (fun w => w.1 ≥ 1024)) (64 * r + i) = 0 := fun i hi => by
    refine (KMap.get_filter_keys 0 (fun k => decide (k ≥ 1024)) e.mem _).trans (if_neg ?_)
    simp only [decide_eq_true_eq]
    omega
  refine List.sum_eq_zero fun x hx => ?_
  obtain ⟨i, hi, rfl⟩ := List.mem_map.1 hx
  rw [hword i (List.mem_range.1 hi)]
  exact Nat.zero_mul _

/-! ### The instructions (R200, R344) -/

section
variable {s : State}

/-- The context in long mode. -/
def State.goLong (s : State) : State := s.upd (fun c => { c with long := true })

/-- The firing owns the unit, whose registers are zero. -/
def State.ownLong (s : State) : State :=
  s.updEng (fun e => { e with lown := some s.cx.firing, lctx := s.cur % 8, mem := e.mem.filter (fun w => w.1 ≥ 1024) })

/-- `mode.l` on a tile whose role is in order, with no stream bound. -/
theorem execModeL_of_role (ha : s.accepts .modeL) (hr : s.engineRole 3 15 = none) : exec .modeL s =
    if s.hasStream = true then s.faultC .streamBusy
    else if s.cx.long = true then .next s.fall
    else match s.eng.lown with
      | some n => if n ≠ s.cx.firing then .next (s.stallOn .waitLong) else .next s.goLong.fall
      | none => .next s.ownLong.goLong.fall := by
  refine (show execModeL s = _ from State.slotC_of_accepts ha _).trans ?_
  rw [hr]
  rfl

theorem execModeL_of_cause {c : Cause} (ha : s.accepts .modeL) (hr : s.engineRole 3 15 = some c) : exec .modeL s = s.faultC c :=
  exec_of_engineRole rfl ha hr

/-- A firing that takes the unit: every long register is zero, and the context changes in its mode alone. -/
theorem State.ownLong_effects (s : State) :
    let t := s.ownLong.goLong.fall
    t.cx.long = true ∧ t.eng.lown = some s.cx.firing ∧ (∀ r, r < 16 → t.ownVec r = 0) ∧ t.cx.v = s.cx.v ∧ t.cx.pc = s.fall.cx.pc ∧ (∀ r, t.x r = s.x r) ∧
      ∀ a, t.mem.read a = s.mem.read a := by
  intro t
  have hcx : s.ownLong.goLong.cx = { s.cx with long := true } := by rw [State.goLong, State.cx_upd, State.ownLong, State.cx_updEng]
  have heng : t.eng = { s.eng with lown := some s.cx.firing, lctx := s.cur % 8, mem := s.eng.mem.filter (fun w => w.1 ≥ 1024) } :=
    (show t.eng = s.ownLong.eng from rfl).trans (s.eng_updEng _)
  have hlong : t.cx.long = true := (State.cxPart_fall s.ownLong.goLong Ctx.long (fun _ => rfl)).trans (by rw [hcx])
  refine ⟨hlong, by rw [heng], fun r hr => ?_, ?_, State.pc_fall_of_flow (by rw [hcx]; rfl), fun r => ?_, fun a => rfl⟩
  · rw [State.ownVec, if_pos hlong, heng]
    exact Engine.longReg_cleared _ hr
  · exact (State.cxPart_fall s.ownLong.goLong Ctx.v (fun _ => rfl)).trans (by rw [hcx])
  · exact (State.x_fall _ r).trans (State.x_of_regs (by rw [hcx]) r)

/-- The firing has given the unit up, and its context is in short mode. -/
def State.giveLong (s : State) : State := (s.freeLong (tileOfCtx s.cur) s.cx.firing).upd (fun c => { c with long := false })

theorem execModeS_of_accepts (ha : s.accepts .modeS) : exec .modeS s = if s.cx.long = true then .next s.giveLong.fall else .next s.fall :=
  show execModeS s = _ from State.slotC_of_accepts ha _

theorem State.eng_freeLong (s : State) (n : Nat) : (s.freeLong (tileOfCtx s.cur) n).eng = if s.eng.lown = some n then { s.eng with lown := none, lctx := 0 } else s.eng :=
  congrArg Tile.eng (s.tile_updCurTile _)

theorem State.giveLong_effects (s : State) :
    let t := s.giveLong.fall
    t.cx.long = false ∧ (s.eng.lown = some s.cx.firing → t.eng.lown = none) ∧ (∀ r, t.x r = s.x r) ∧ t.cx.v = s.cx.v ∧ ∀ a, t.mem.read a = s.mem.read a := by
  intro t
  have hcx : s.giveLong.cx = { s.cx with long := false } := by
    rw [State.giveLong, State.cx_upd]
    rfl
  refine ⟨(State.cxPart_fall s.giveLong Ctx.long (fun _ => rfl)).trans (by rw [hcx]), fun h => ?_, fun r => (State.x_fall _ r).trans (State.x_of_regs (by rw [hcx]) r),
    (State.cxPart_fall s.giveLong Ctx.v (fun _ => rfl)).trans (by rw [hcx]), fun a => rfl⟩
  have heng : t.eng = (s.freeLong (tileOfCtx s.cur) s.cx.firing).eng := rfl
  rw [heng, s.eng_freeLong, if_pos h]

end

/-- Settles O33: `mode.l` by its checks in their order, and `mode.s`. -/
theorem longModeTakesTheUnit : Obligations.LongModeTakesTheUnit := by
  intro s
  have hshort : s.hasStream = false → s.cx.long = false → s.accepts .modeL → s.engineRole 3 15 = none → exec .modeL s = (match s.eng.lown with
      | some n => if n ≠ s.cx.firing then .next (s.stallOn .waitLong) else .next s.goLong.fall
      | none => .next s.ownLong.goLong.fall) := fun hs hl ha hr => by
    rw [execModeL_of_role ha hr, if_neg (ne_true_of_eq_false hs), if_neg (ne_true_of_eq_false hl)]
  refine ⟨fun ha hk => execModeL_of_cause ha (State.engineRole_of_kind 15 hk), fun ha hk hc => execModeL_of_cause ha (State.engineRole_of_feed 15 hk hc),
    fun ha hk hc hcl => execModeL_of_cause ha (State.engineRole_of_claim hk hc (by decide) hcl), fun ha hr hs => ?_, fun ha hr hs hl ⟨n, hn, hne⟩ => ?_, fun ha hr hs hl hn => ?_, fun ha hr hs hl => ?_,
    fun ha => ?_⟩
  · rw [execModeL_of_role ha hr, if_pos hs]
  · rw [hshort hs hl ha hr, hn]
    exact if_pos hne
  · rw [hshort hs hl ha hr, hn]
    exact ⟨_, rfl, s.ownLong_effects⟩
  · rw [execModeL_of_role ha hr, if_neg (ne_true_of_eq_false hs), if_pos hl]
  · rw [execModeS_of_accepts ha]
    by_cases hl : s.cx.long = true
    · obtain ⟨hlong, hown, hx, hv, hmem⟩ := s.giveLong_effects
      exact ⟨_, if_pos hl, hlong, fun _ => hown, fun h => absurd hl (ne_true_of_eq_false h), hx, hv, hmem⟩
    · have hoff : s.cx.long = false := Bool.eq_false_iff.2 hl
      exact ⟨_, if_neg hl, (s.cxPart_fall Ctx.long (fun _ => rfl)).trans hoff, fun h => absurd h hl, fun _ => rfl, s.x_fall, s.cxPart_fall Ctx.v (fun _ => rfl), fun _ => rfl⟩

end Sys2Proof.Machine
end

section
/-! SUPPORT. The end of a firing, parking and sections: R139, R146, R190, R201, R202, R212, R309 to R311. -/

namespace Sys2Proof.Machine

/-! ### What ends with a firing (R190, R201, R309) -/

section
variable (s : State)

theorem State.leaveWaiters_parts (f n : Nat) :
    (s.leaveWaiters f n).cores = s.cores ∧ (s.leaveWaiters f n).tiles = s.tiles ∧ (s.leaveWaiters f n).mem = s.mem ∧ (s.leaveWaiters f n).cur = s.cur := by
  unfold State.leaveWaiters
  split <;> exact ⟨rfl, rfl, rfl, rfl⟩

/-- The core gives its streams back, and the tile the long-vector unit, where they are the firing's; memory stays. -/
theorem State.endCommon_parts (core : Nat) (c : Ctx) :
    ((s.endCommon core c).coreOf core).streams = ((s.coreOf core).endOf c).streams ∧
    (s.endCommon core c).tiles = (s.freeLong (tileOfCore core) c.firing).tiles ∧ (s.endCommon core c).mem = s.mem ∧ (s.endCommon core c).cur = s.cur := by
  let u : State := (s.updCore core (fun k => k.endOf c)).freeLong (tileOfCore core) c.firing
  obtain ⟨hcores, htiles, hmem, hcur⟩ := u.leaveWaiters_parts (fieldOfTile (tileOfCore core)) c.firing
  have hcore : (u.leaveWaiters (fieldOfTile (tileOfCore core)) c.firing).coreOf core = (s.coreOf core).endOf c :=
    (congrArg (fun m : KMap Core => m.get {} core) hcores :).trans (s.coreOf_updCore_self core (fun k => k.endOf c))
  unfold State.endCommon
  simp only
  split
  · exact ⟨congrArg Core.streams hcore, htiles, hmem, hcur⟩
  · exact ⟨(congrArg Core.streams (State.coreOf_updCore_self _ core _)).trans (congrArg Core.streams hcore :), htiles, hmem, hcur⟩

/-- No stream of an ended firing stays bound (R190). -/
theorem Core.unbound_endOf (k : Core) (c : Ctx) {n : Nat} (hb : (k.streamAt n).bound = true) (hf : (k.streamAt n).firing = c.firing) :
    ((k.endOf c).streamAt n).bound = false := by
  let g : Stream → Stream := fun t => if t.bound && t.firing = c.firing then {} else t
  have h : (k.endOf c).streamAt n = g (k.streamAt n) := KMap.get_map (fun _ t => g t) (.inr (by simp [g]))
  have hg : g (k.streamAt n) = {} := if_pos (by simp [hb, hf])
  rw [h, hg]

theorem State.lown_freeLong (tile n : Nat) : ((s.freeLong tile n).tileOf tile).eng.lown ≠ some n := by
  rw [State.freeLong, State.tileOf_updTile_self]
  split
  · simp
  · assumption

end

/-! ### What becomes of an item leaves the engines (R139, R146, R147) -/

/-- Between two states every tile has kept its engine. -/
def EnginesKept (s t : State) : Prop := ∀ i, (t.tileOf i).eng = (s.tileOf i).eng

theorem EnginesKept.trans {s t u : State} (h : EnginesKept s t) (h' : EnginesKept t u) : EnginesKept s u := fun i => (h' i).trans (h i)

theorem EnginesKept.of_tiles {s t : State} (h : t.tiles = s.tiles) : EnginesKept s t := fun i => by rw [State.tileOf, State.tileOf, h]

theorem Told.enginesKept {s t : State} (h : Told s t) : EnginesKept s t := .of_tiles (h.part State.tiles (fun _ => rfl))

section
variable (s : State)

theorem State.enginesKept_updTile (i : Nat) {g : Tile → Tile} (h : (g (s.tileOf i)).eng = (s.tileOf i).eng) : EnginesKept s (s.updTile i g) := fun j => by
  rw [State.tileOf_updTile]
  split
  · subst j
    exact h
  · rfl

theorem State.enginesKept_releaseFoot (tile id : Nat) : EnginesKept s (s.releaseFoot tile id) := by
  unfold State.releaseFoot
  simp only
  split
  · exact fun _ => rfl
  · exact s.enginesKept_updTile tile rfl

theorem State.enginesKept_freeLaunch (id : Nat) : EnginesKept s (s.freeLaunch id) := fun i => by
  let g : Tile → Tile := fun t => { t with foot := t.foot.filter (fun r => r.1 ≠ id) }
  have hmap : (s.freeLaunch id).tileOf i = g (s.tileOf i) := KMap.get_map (fun _ t => g t) (.inr rfl)
  rw [hmap]

theorem State.enginesKept_updLaunch (id : Nat) (g : Launch → Launch) : EnginesKept s (s.updLaunch id g) := by
  unfold State.updLaunch
  split <;> exact fun _ => rfl

theorem State.enginesKept_tellParent (e : Launch) (cls : Nat) (words : List Word) : EnginesKept s (s.tellParent e cls words) := by
  have hreport := fun m => Told.enginesKept ((s.told_toFirmware m).trans (State.told_report _ (launchField e.id) .noSupervisor e.tag [] [e.tag]))
  unfold State.tellParent
  simp only
  split
  · exact fun _ => rfl
  · split
    · exact (s.told_postHw _ _).enginesKept
    · split
      · exact (s.told_postHw _ _).enginesKept
      · split
        · exact (hreport _).trans (State.enginesKept_freeLaunch _ _)
        · exact hreport _

theorem State.enginesKept_endItem (id wid : Nat) (fail : Option Nat) : EnginesKept s (s.endItem id wid fail) := by
  unfold State.endItem
  split
  · exact fun _ => rfl
  · simp only
    split
    · exact s.enginesKept_updLaunch _ _
    · exact (s.enginesKept_updLaunch _ _).trans (State.enginesKept_tellParent _ _ _ _)

theorem State.enginesKept_endHalf (id item wid : Nat) (fail : Option Nat) : EnginesKept s (s.endHalf id item wid fail) := by
  unfold State.endHalf
  split
  · exact fun _ => rfl
  · simp only
    split
    · exact s.enginesKept_updLaunch _ _
    · exact (s.enginesKept_updLaunch _ _).trans (State.enginesKept_endItem _ _ _ _)

/-- What follows the end of a firing in its slot is beyond the cores, and leaves the engines. -/
theorem State.endFiring_after (i : Nat) (fail : Option Nat) :
    BeyondCores ((s.endCommon (coreOfCtx i) (s.ctxOf i)).updCtx i Ctx.endOf) (s.endFiring i fail) ∧
    EnginesKept ((s.endCommon (coreOfCtx i) (s.ctxOf i)).updCtx i Ctx.endOf) (s.endFiring i fail) := by
  unfold State.endFiring
  simp only
  split
  · exact ⟨SameBut.refl _, fun _ => rfl⟩
  · split
    · exact ⟨(State.beyondCores_releaseFoot _ _ _).trans (State.beyondCores_endItem _ _ _ _), (State.enginesKept_releaseFoot _ _ _).trans (State.enginesKept_endItem _ _ _ _)⟩
    · exact ⟨(State.beyondCores_releaseFoot _ _ _).trans (State.beyondCores_endHalf _ _ _ _ _), (State.enginesKept_releaseFoot _ _ _).trans (State.enginesKept_endHalf _ _ _ _ _)⟩

/-- The firing of a slot has ended: its slot is free, its streams and the long-vector unit are given back, and every other context and memory stay. -/
theorem State.endFiring_frees (i : Nat) (fail : Option Nat) :
    let t := s.endFiring i fail
    t.cur = s.cur ∧ t.ctxOf i = (s.ctxOf i).endOf ∧ (∀ j, j ≠ i → t.ctxOf j = s.ctxOf j) ∧ (t.tileOf (tileOfCtx i)).eng.lown ≠ some (s.ctxOf i).firing ∧
    (∀ n, ((s.coreOf (coreOfCtx i)).streamAt n).bound = true → ((s.coreOf (coreOfCtx i)).streamAt n).firing = (s.ctxOf i).firing →
      ((t.coreOf (coreOfCtx i)).streamAt n).bound = false) ∧ t.mem = s.mem := by
  intro t
  obtain ⟨hafter, heng⟩ := s.endFiring_after i fail
  obtain ⟨hstreams, htiles, hmem, hcur⟩ := s.endCommon_parts (coreOfCtx i) (s.ctxOf i)
  have hctxs := s.ctxs_endCommon (coreOfCtx i) (s.ctxOf i)
  generalize s.endCommon (coreOfCtx i) (s.ctxOf i) = u at *
  have hctx : ∀ j, u.ctxOf j = s.ctxOf j := fun j => by rw [State.ctxOf, State.ctxOf, hctxs]
  refine ⟨?_, ?_, fun j hj => ?_, ?_, fun n hb hf => ?_, ?_⟩
  · exact (hafter.part State.cur (fun _ => rfl)).trans hcur
  · rw [hafter.ctxOf, State.ctxOf_updCtx_self, hctx]
  · rw [hafter.ctxOf, State.ctxOf_updCtx_other _ _ hj, hctx]
  · have htile : tileOfCore (coreOfCtx i) = tileOfCtx i := Nat.div_div_eq_div_mul i 8 2
    have hkept : (u.updCtx i Ctx.endOf).tiles = (s.freeLong (tileOfCtx i) (s.ctxOf i).firing).tiles := htile ▸ htiles
    rw [heng, State.tileOf, hkept]
    exact s.lown_freeLong _ _
  · have hcores : t.coreOf (coreOfCtx i) = u.coreOf (coreOfCtx i) := hafter.part (fun v => v.coreOf (coreOfCtx i)) (fun _ => rfl)
    rw [hcores, Core.streamAt, hstreams]
    exact Core.unbound_endOf _ _ hb hf
  · exact (hafter.part State.mem (fun _ => rfl)).trans hmem

end

/-! ### Parking leaves the others (R183) -/

section
variable (s : State)

theorem State.ctxOf_retire_other (npc : Word) {j : Nat} (hj : j ≠ s.cur) : (s.retire npc).ctxOf j = s.ctxOf j :=
  State.ctxOf_updCtx_other s (fun c => { c.retireTo npc with stall := none, reported := false, hold := none, reply := none, refusedArr := false, aDone := false }) hj

/-- A parking firing leaves every other context and memory, and without room in the park area it keeps its registers. -/
theorem State.parkFiring_leaves (reason : Cause) :
    (s.parkFiring reason).mem = s.mem ∧ (∀ j, j ≠ s.cur → (s.parkFiring reason).ctxOf j = s.ctxOf j) ∧
    (s.core.parkRoom = false → (s.parkFiring reason).cx.x = s.cx.x) := by
  let g : Ctx → Ctx := fun c => { c with st := 2, reason := reason, haltAt := s.rtime, stall := none, reported := false, hold := none, reply := none }
  have hpark : s.parkFiring reason = (s.upd g).toParkArea s.cur := rfl
  have hother : ∀ j, j ≠ s.cur → (s.upd g).ctxOf j = s.ctxOf j := fun j hj => s.ctxOf_updCtx_other g hj
  by_cases hroom : s.core.parkRoom = true
  · have hin : (s.upd g).toParkArea s.cur = ({ s.upd g with ctxs := (s.upd g).ctxs.put s.cur {} } : State).updCurCore
        (fun k => { k with parked := k.parked.put (lowestFree s.core.parked 64 0) { (s.upd g).ctxOf s.cur with slot := s.cur } }) := if_pos hroom
    rw [hpark, hin]
    exact ⟨rfl, fun j hj => (KMap.get_put_other _ _ _ hj).trans (hother j hj), fun h => absurd hroom (by simp [h])⟩
  · have hstay : (s.upd g).toParkArea s.cur = s.upd g := if_neg hroom
    rw [hpark, hstay]
    exact ⟨rfl, hother, fun _ => (congrArg Ctx.x (s.cx_upd g) :)⟩

/-- `park` without a pending wake, outside a section: the firing parks after the bundle (R310). -/
theorem State.park_effects :
    (s.core.parkRoom = false → (s.fall.parkFiring .parkExplicit).cx.st = 2 ∧ (s.fall.parkFiring .parkExplicit).cx.reason = 0x3F ∧
      (s.fall.parkFiring .parkExplicit).cx.pc = s.fall.cx.pc ∧ (s.fall.parkFiring .parkExplicit).cx.x = s.cx.x) ∧
    (s.core.parkRoom = true → inParkArea s (s.fall.parkFiring .parkExplicit) 0x3F s.fall.cx.pc) ∧
    (∀ c, c ≠ s.cur → (s.fall.parkFiring .parkExplicit).ctxOf c = s.ctxOf c) ∧ ∀ a, (s.fall.parkFiring .parkExplicit).mem.read a = s.mem.read a := by
  obtain ⟨-, -, hplace, hpark⟩ := s.fall.parkFiring_effects .parkExplicit
  obtain ⟨hmem, hothers, hx⟩ := s.fall.parkFiring_leaves .parkExplicit
  have hroom : s.fall.core.parkRoom = s.core.parkRoom := (congrArg Core.parkRoom s.core_fall :)
  have hregs : s.fall.cx.x = s.cx.x := s.cxPart_fall Ctx.x (fun _ => rfl)
  refine ⟨fun h => ?_, fun h => ?_, fun c hc => (hothers c hc).trans ?_, fun a => by rw [hmem]; rfl⟩
  · obtain ⟨hst, hreason, hpc⟩ := hplace (hroom.trans h)
    exact ⟨hst, hreason, hpc, (hx (hroom.trans h)).trans hregs⟩
  · obtain ⟨hfree, n, hst, hreason, hpc, hx, hfiring⟩ := hpark (hroom.trans h)
    exact ⟨hfree, n, hst, hreason, hpc, hx.trans hregs, hfiring.trans (s.cxPart_fall Ctx.firing (fun _ => rfl))⟩
  · exact s.ctxOf_retire_other _ hc

end

theorem Ctx.unackClear_five (c : Ctx) : c.unackClear 5 = true ↔ c.unack = 0 := by
  simp [Ctx.unackClear, Ctx.unack]
  omega

/-- A `done` that neither waits nor fails: its firing ends (R309). -/
theorem State.done_effects (s : State) :
    let t := (s.updCurCore (fun k => { k with retired := s.rtime, hung := false })).endFiring s.cur none
    t.cx.occ = false ∧ t.cx.lc = [] ∧ t.cx.np = false ∧ t.cx.long = false ∧
      t.eng.lown ≠ some s.cx.firing ∧ (∀ n, (s.core.streamAt n).bound = true → (s.core.streamAt n).firing = s.cx.firing → (t.core.streamAt n).bound = false) ∧
      (∀ c, c ≠ s.cur → t.ctxOf c = s.ctxOf c) ∧ ∀ a, t.mem.read a = s.mem.read a := by
  intro t
  let u := s.updCurCore (fun k => { k with retired := s.rtime, hung := false })
  have hcore : u.core.streams = s.core.streams := (congrArg Core.streams (s.core_updCurCore (fun k => { k with retired := s.rtime, hung := false })) :)
  obtain ⟨hcur, hcx, hothers, hlown, hstreams, hmem⟩ := u.endFiring_frees s.cur none
  have hcx' : t.cx = s.cx.endOf := by
    rw [State.cx, hcur]
    exact hcx
  refine ⟨by rw [hcx']; rfl, by rw [hcx']; rfl, by rw [hcx']; rfl, by rw [hcx']; rfl, ?_, fun n hb hf => ?_, hothers, fun a => by rw [hmem]; rfl⟩
  · rw [State.eng, State.tile, hcur]
    exact hlown
  · rw [State.core, hcur]
    have hat : u.core.streamAt n = s.core.streamAt n := by rw [Core.streamAt, Core.streamAt, hcore]
    exact hstreams n ((congrArg Stream.bound hat).trans hb) ((congrArg Stream.firing hat).trans hf)

/-- Settles O36: each form accepts, and what it then does is `done_effects`, `park_effects`, or its own branch. -/
theorem firingsEndParkAndHoldSections : Obligations.FiringsEndParkAndHoldSections := by
  unfold Obligations.FiringsEndParkAndHoldSections
  intro s
  have hdone : ∀ ha : s.accepts .done, exec .done s = if !s.cx.unackClear 5 || s.outputLeft then .next (s.stallOn .waitFence)
      else if s.cx.fstat ≠ 0 then s.faultC .storeFailed 0 s.cx.fstat
      else .next ((s.updCurCore (fun k => { k with retired := s.rtime, hung := false })).endFiring s.cur none) := fun ha => (show execDone s = _ from State.slotC_of_accepts ha _)
  have hpark : ∀ ha : s.accepts .park, exec .park s = if s.cx.np then s.faultC .npState
      else if s.cx.wakeBit then .next (s.upd (fun c => { c with wakeBit := false })).fall
      else .next (s.fall.parkFiring .parkExplicit) := fun ha => (show execPark s = _ from State.slotC_of_accepts ha _)
  have hclear := s.cx.unackClear_five
  refine ⟨fun ha hw => ?_, fun ha hu ho hf => ?_, fun ha hu ho hf => ⟨_, ?_, s.done_effects⟩, fun ha hnp => ?_, fun ha hnp hw => ?_, fun ha hnp hw => ⟨_, ?_, s.park_effects⟩,
    fun ha => (show execNpOn s = _ from State.slotC_of_accepts ha _), fun ha => (show execNpOff s = _ from State.slotC_of_accepts ha _)⟩
  · rw [hdone ha, if_pos]
    rcases hw with h | h
    · simp [mt hclear.1 h]
    · simp [h]
  · rw [hdone ha, hclear.2 hu, ho]
    simp [hf]
  · rw [hdone ha, hclear.2 hu, ho]
    simp [hf]
  · rw [hpark ha, hnp]
    rfl
  · rw [hpark ha, hnp, hw]
    rfl
  · rw [hpark ha, hnp, hw]
    rfl

end Sys2Proof.Machine
end

section
/-! SUPPORT. Semaphores: R198, R199, R338. -/

namespace Sys2Proof.Machine

/-! ### A freeze leaves the counts of semaphores (R198, R235) -/

theorem Told.tiles {s t : State} (h : Told s t) : t.tiles = s.tiles := h.part State.tiles (fun _ => rfl)

section
variable (s : State) (i : Nat)

theorem State.tiles_postFreeze (c : Ctx) (cause : Cause) (slotA gpa : Bool) (addr synd : Nat) :
    (s.postFreeze i c cause slotA gpa addr synd).tiles = s.tiles := by
  have hkeep : ∀ (t : State) (g : Dbg → Dbg), Told ((s.takeSeq (fieldOfCtx i)).2.updDbg i g) t → t.tiles = s.tiles := fun t g h =>
    h.tiles.trans (s.told_takeSeq (fieldOfCtx i)).tiles
  have hpacket : (s.postFor i c 0 cause slotA gpa 0 c.pc addr synd 0).tiles = s.tiles := by
    unfold State.postFor
    simp only [if_true]
    split
    · exact hkeep _ _ (State.told_toPlatform _ _)
    · split
      · exact hkeep _ _ ((State.told_toPlatform _ _).trans (State.told_report _ _ _ _ _ _))
      · exact hkeep _ _ ((State.told_postHw _ _ _).trans (State.told_keepRecent _ _))
  unfold State.postFreeze
  simp only
  split
  · exact (State.told_report _ _ _ _ _ _).tiles.trans hpacket
  · exact hpacket

theorem State.sems_leaveSemQueues (j : Nat) : ((s.leaveSemQueues i).tileOf j).sems = (s.tileOf j).sems := by
  have htiles : ∀ (u : State) (n : Nat), (u.leaveBarriers n).tiles = u.tiles := fun u n => by
    unfold State.leaveBarriers
    split <;> rfl
  rw [State.leaveSemQueues, State.tileOf, htiles, ← State.tileOf, State.tileOf_updTile]
  split
  · subst j
    rfl
  · rfl

/-- A firing that freezes leaves the queues; what the semaphores count stays. -/
theorem State.sems_freeze (e : FaultAt) (j : Nat) : ((s.freeze i e).tileOf j).sems = (s.tileOf j).sems := by
  unfold State.freeze
  simp only
  rw [State.tileOf, State.tiles_postFreeze]
  split
  · exact State.sems_leaveSemQueues _ i j
  · exact State.sems_leaveSemQueues _ i j

end

/-! ### The two forms (R338) -/

section
variable {s : State} {f : FmtCR}

/-- The amount of a semaphore form (R338). -/
theorem bitsOf_amount (w : Word) : bitsOf w 7 0 = w.toNat % 256 := by
  simp [bitsOf, bitsAt]

/-- What `sem.post` does once the stores before it are done. -/
def State.semPosted (f : FmtCR) (a : Nat) (s : State) : Out :=
  let n := f.opt.toNat
  let c := s.tile.sems.get 0 n
  if c + a > 255 then s.faultC .semOverflow
  else .next (s.updCurTile (fun t => { t with sems := t.sems.put n (c + a) })).fall

theorem exec_semPost (ha : s.accepts (.semPost f)) :
    exec (.semPost f) s = if (s.x f.xa).toNat % 256 = 0 then s.faultC .semAmount else s.releaseThen 2 0 0 (State.semPosted f ((s.x f.xa).toNat % 256)) := by
  rw [← bitsOf_amount]
  exact (show execSemPost f s = _ from State.slotC_of_accepts ha _)

/-- A firing is served next: it is the oldest waiter, or nobody waits (R198). -/
def servedNext (me : Nat) : List (Nat × Nat × Nat) → Bool
  | [] => true
  | w :: _ => decide (w.2.1 = me)

theorem servedNext_iff (me : Nat) (q : List (Nat × Nat × Nat)) :
    servedNext me q = true ↔ q.head?.map (fun w => w.2.1) = none ∨ q.head?.map (fun w => w.2.1) = some me := by
  cases q <;> simp [servedNext]

theorem releaseThen_tile {k : State → Out} (h : s.storesDone 2 = true) : s.releaseThen 2 0 0 k = k (s.countScope 2) := if_pos h

/-- What `sem.wt` does with an amount that is not zero. -/
def State.semTaken (f : FmtCR) (a : Nat) (s : State) : Out :=
  let n := f.opt.toNat
  let me := s.cx.firing
  let q := s.tile.semq.get [] n
  let c := s.tile.sems.get 0 n
  if servedNext me q ∧ a ≤ c then
    .next (s.updCurTile (fun t => { t with sems := t.sems.put n (c - a), semq := t.semq.put n (q.filter (fun w => w.2.1 ≠ me)) })).fall
  else
    let q' := if q.any (fun w => w.2.1 = me) then q else q ++ [(s.cur, me, a)]
    .next ((s.updCurTile (fun t => { t with semq := t.semq.put n q' })).stallOn .waitSem)

theorem exec_semWt (ha : s.accepts (.semWt f)) :
    exec (.semWt f) s = if (s.x f.xa).toNat % 256 = 0 then s.faultC .semAmount else s.semTaken f ((s.x f.xa).toNat % 256) := by
  rw [← bitsOf_amount]
  exact (show execSemWt f s = _ from State.slotC_of_accepts ha _)

/-- A change of the tile before the bundle falls through. -/
theorem State.fall_updCurTile (s : State) (g : Tile → Tile) :
    (s.updCurTile g).fall.tile = g s.tile ∧ (s.updCurTile g).fall.cx.pc = s.fall.cx.pc ∧ (∀ r, (s.updCurTile g).fall.x r = s.x r) ∧
    (s.updCurTile g).fall.mem = s.mem :=
  ⟨by rw [State.tile_fall, State.tile_updCurTile], State.pc_fall_of_flow rfl, fun r => by rw [State.x_fall]; rfl, rfl⟩

/-- A count over 255 faults, and what the semaphores count stays. -/
theorem State.semPosted_overflow {a : Nat} (h : 255 < s.tile.sems.get 0 f.opt.toNat + a) :
    ∃ t, s.semPosted f a = .next t ∧ t.cx.st = 1 ∧ t.cx.cause = Cause.semOverflow ∧ t.tile.sems = s.tile.sems := by
  refine ⟨_, if_pos h, ?_, ?_, ?_⟩
  · rw [s.cx_freeze]
    rfl
  · rw [s.cx_freeze]
    rfl
  · rw [State.tile, State.cur_freeze]
    exact s.sems_freeze _ _ _

theorem State.semPosted_adds {a : Nat} (h : s.tile.sems.get 0 f.opt.toNat + a ≤ 255) :
    ∃ t, s.semPosted f a = .next t ∧ t.tile.sems.get 0 f.opt.toNat = s.tile.sems.get 0 f.opt.toNat + a ∧
      (∀ m, m ≠ f.opt.toNat → t.tile.sems.get 0 m = s.tile.sems.get 0 m) ∧ t.tile.semq = s.tile.semq ∧ t.cx.pc = s.fall.cx.pc ∧ (∀ r, t.x r = s.x r) ∧
      t.mem = s.mem := by
  obtain ⟨htile, hpc, hx, hmem⟩ := s.fall_updCurTile (fun t => { t with sems := t.sems.put f.opt.toNat (s.tile.sems.get 0 f.opt.toNat + a) })
  refine ⟨_, if_neg (Nat.not_lt.2 h), ?_, fun m hm => ?_, ?_, hpc, hx, hmem⟩
  · rw [htile]
    exact KMap.get_put_self _ _ _ _
  · rw [htile]
    exact KMap.get_put_other _ _ _ hm
  · rw [htile]

/-- A firing that is first, or finds the queue empty, takes its amount. -/
theorem State.semTaken_takes {a : Nat}
    (hfirst : ((s.tile.semq.get [] f.opt.toNat).head?.map (fun w => w.2.1) = none ∨ (s.tile.semq.get [] f.opt.toNat).head?.map (fun w => w.2.1) = some s.cx.firing))
    (h : a ≤ s.tile.sems.get 0 f.opt.toNat) :
    ∃ t, s.semTaken f a = .next t ∧ t.tile.sems.get 0 f.opt.toNat = s.tile.sems.get 0 f.opt.toNat - a ∧
      (∀ m, m ≠ f.opt.toNat → t.tile.sems.get 0 m = s.tile.sems.get 0 m) ∧ (∀ w ∈ t.tile.semq.get [] f.opt.toNat, w.2.1 ≠ s.cx.firing) ∧
      t.cx.pc = s.fall.cx.pc ∧ (∀ r, t.x r = s.x r) ∧ ∀ b, t.mem.read b = s.mem.read b := by
  obtain ⟨htile, hpc, hx, hmem⟩ := s.fall_updCurTile (fun t => { t with
    sems := t.sems.put f.opt.toNat (s.tile.sems.get 0 f.opt.toNat - a)
    semq := t.semq.put f.opt.toNat ((s.tile.semq.get [] f.opt.toNat).filter (fun w => w.2.1 ≠ s.cx.firing)) })
  refine ⟨_, if_pos ⟨(servedNext_iff _ _).2 hfirst, h⟩, ?_, fun m hm => ?_, fun w hw => ?_, hpc, hx, fun b => by rw [hmem]⟩
  · rw [htile]
    exact KMap.get_put_self _ _ _ _
  · rw [htile]
    exact KMap.get_put_other _ _ _ hm
  · rw [htile, KMap.get_put_self] at hw
    simpa using (List.mem_filter.1 hw).2

/-- Otherwise it stands in the queue, behind those that came before. -/
theorem State.semTaken_waits {a : Nat} (h : (∃ w q, s.tile.semq.get [] f.opt.toNat = w :: q ∧ w.2.1 ≠ s.cx.firing) ∨ s.tile.sems.get 0 f.opt.toNat < a) :
    ∃ t, s.semTaken f a = .next t ∧ t.tile.sems = s.tile.sems ∧ (∃ w ∈ t.tile.semq.get [] f.opt.toNat, w.2.1 = s.cx.firing) ∧
      (∃ tail, t.tile.semq.get [] f.opt.toNat = s.tile.semq.get [] f.opt.toNat ++ tail) ∧ t.cx.pc = s.cx.pc ∧ t.cx.stall.isSome ∧ ∀ r, t.x r = s.x r := by
  let q := s.tile.semq.get [] f.opt.toNat
  let q' := if q.any (fun w => w.2.1 = s.cx.firing) then q else q ++ [(s.cur, s.cx.firing, a)]
  let g : Tile → Tile := fun t => { t with semq := t.semq.put f.opt.toNat q' }
  let u := s.updCurTile g
  have hq' : (∃ w ∈ q', w.2.1 = s.cx.firing) ∧ ∃ tail, q' = q ++ tail := by
    unfold q'
    split
    next hin => exact ⟨by simpa using hin, [], by simp⟩
    · exact ⟨⟨(s.cur, s.cx.firing, a), by simp⟩, _, rfl⟩
  have htile : (u.stallOn .waitSem).tile = g s.tile := s.tile_updCurTile g
  have hcx : (u.stallOn .waitSem).cx = { s.cx with stall := some ((s.cx.stall.map (fun p => p.1)).getD s.rtime, Cause.waitSem) } := u.cx_stallOn _
  refine ⟨u.stallOn .waitSem, if_neg ?_, ?_, ?_, ?_, ?_, ?_, fun r => State.x_of_regs ?_ r⟩
  · rintro ⟨hfirst, hle⟩
    obtain ⟨w, q, hq, hw⟩ | hlt := h
    · simp [servedNext, hq, hw] at hfirst
    · omega
  · rw [htile]
  · rw [htile, KMap.get_put_self]
    exact hq'.1
  · rw [htile, KMap.get_put_self]
    exact hq'.2
  all_goals rw [hcx]
  rfl

end

/-- Settles O37: `sem.post` and `sem.wt` by what they do to the tile, after the release. -/
theorem semaphoresCount : Obligations.SemaphoresCount := by
  unfold Obligations.SemaphoresCount
  intro f s a n c
  have hread := s.readMade_countScope 2
  refine ⟨fun i hi ha h0 => ?_, fun ha h0 hd => ?_, fun ha h0 hd hc => ?_, fun ha h0 hd hc => ?_, fun ha h0 hfirst hc => ?_, fun ha h0 hw => ?_⟩
  · obtain rfl | rfl := hi
    · rw [exec_semPost ha, if_pos h0]
    · rw [exec_semWt ha, if_pos h0]
  · rw [exec_semPost ha, if_neg h0]
    exact if_neg (by simpa using hd)
  · rw [exec_semPost ha, if_neg h0, releaseThen_tile hd]
    exact State.semPosted_overflow (s := s.countScope 2) hc
  · rw [exec_semPost ha, if_neg h0, releaseThen_tile hd]
    obtain ⟨t, ht, hn, hothers, hq, hpc, hx, hmem⟩ := State.semPosted_adds (s := s.countScope 2) hc
    exact ⟨t, ht, hn, hothers, hq, hpc.trans (State.pc_fall_of_flow (hread.cxPart Ctx.flow (fun _ => rfl))), fun r => (hx r).trans (hread.x r),
      fun b => by rw [hmem, hread.mem]⟩
  · rw [exec_semWt ha, if_neg h0]
    exact State.semTaken_takes hfirst hc
  · rw [exec_semWt ha, if_neg h0]
    exact State.semTaken_waits hw

end Sys2Proof.Machine
end

section
/-! SUPPORT. What a quiet bundle leaves, and the binding of streams: R189 to R194, R206, R339. -/

namespace Sys2Proof.Machine

/-! ### Quiet bundles -/

theorem othersKept_of {s t : State} (h : ∀ i, i ≠ s.cur → t.ctxOf i = s.ctxOf i) : othersKept s t := fun i hi => by
  rw [h i hi]
  exact ⟨rfl, fun _ => rfl⟩

theorem quiet_refl (s : State) : quiet s s := ⟨fun _ => rfl, fun _ => rfl, fun _ => rfl, rfl, othersKept_of (fun _ _ => rfl), fun _ => rfl⟩

/-- What a bundle can read of its context: the registers, the mode and FSTAT. -/
def Ctx.seen (c : Ctx) : Ctx := { x := c.x, k := c.k, v := c.v, long := c.long, perm := c.perm, dead := c.dead, pois := c.pois, scope := c.scope }

/-- Contexts that look the same read the same; long registers are the engine's. -/
theorem registers_of_seen {s t : State} (hcx : t.cx.seen = s.cx.seen) (heng : s.cx.long = true → t.eng = s.eng) :
    (∀ r, t.x r = s.x r) ∧ (∀ r, t.k r = s.k r) ∧ (∀ r, t.ownVec r = s.ownVec r) ∧ t.cx.fstat = s.cx.fstat := by
  have hk : t.cx.k = s.cx.k := (congrArg Ctx.k hcx :)
  have hv : t.cx.v = s.cx.v := (congrArg Ctx.v hcx :)
  have hlong : t.cx.long = s.cx.long := (congrArg Ctx.long hcx :)
  refine ⟨State.x_of_regs (congrArg Ctx.x hcx :), fun r => ?_, fun r => ?_, (congrArg Ctx.fstat hcx :)⟩
  · rw [State.k, State.k, hk]
  · rw [State.ownVec, State.ownVec, hlong, hv]
    by_cases hl : s.cx.long = true
    · rw [heng hl]
    · rw [if_neg hl, if_neg hl]

theorem quiet_of_seen {s t : State} (hcx : t.cx.seen = s.cx.seen) (heng : s.cx.long = true → t.eng = s.eng) (hothers : othersKept s t) (hmem : t.mem = s.mem) :
    quiet s t := by
  obtain ⟨hx, hk, hv, hfstat⟩ := registers_of_seen hcx heng
  exact ⟨hx, hk, hv, hfstat, hothers, fun b => by rw [hmem]⟩

/-- A change of the core's own records before the bundle falls through. -/
theorem quiet_updCurCore {s t : State} (h : quiet s t) (g : Core → Core) : quiet s (t.updCurCore g) := h

theorem State.k_fall (s : State) (r : BitVec 3) : s.fall.k r = s.k r := by
  rw [State.k, State.k, s.cxPart_fall Ctx.k (fun _ => rfl)]

/-- A bundle that falls through keeps the vector registers, in either mode. -/
theorem State.ownVec_of_fall (s : State) (r : Nat) : s.fall.ownVec r = s.ownVec r := by
  rw [State.ownVec, State.ownVec, s.eng_fall, s.cxPart_fall Ctx.long (fun _ => rfl), s.cxPart_fall Ctx.v (fun _ => rfl)]

theorem quiet_fall {s t : State} (hcur : t.cur = s.cur) (h : quiet s t) : quiet s t.fall := by
  obtain ⟨hx, hk, hv, hfstat, hothers, hmem⟩ := h
  refine ⟨fun r => (t.x_fall r).trans (hx r), fun r => (t.k_fall r).trans (hk r), fun r => (t.ownVec_of_fall r).trans (hv r),
    (t.cxPart_fall Ctx.fstat (fun _ => rfl)).trans hfstat, fun i hi => ?_, hmem⟩
  have hctx : t.fall.ctxOf i = t.ctxOf i := t.ctxOf_retire_other _ (hcur ▸ hi)
  rw [hctx]
  exact hothers i hi

/-! ### What a read at once leaves of the contexts (R46, R206) -/

/-- A context but for the comparisons that wait for its partner. -/
def Ctx.unpaired (c : Ctx) : Ctx := { c with pairReads := [] }

section
variable (s : State)

theorem State.ctxs_countSlice (tile tag ev n : Nat) : (s.countSlice tile tag ev n).ctxs = s.ctxs := by
  unfold State.countSlice
  split <;> rfl

theorem State.ctxs_countFabric (f ev n : Nat) : (s.countFabric f ev n).ctxs = s.ctxs := (s.counted_countFabric f ev n).part State.ctxs (fun _ => rfl)

theorem State.ctxs_countHome (tag g : Nat) (ms : List Nat) : (s.countHome tag g ms).ctxs = s.ctxs := by
  unfold State.countHome
  split
  · simp only [State.ctxs_countSlice]
  · rfl

theorem State.ctxs_noteRead (src tag : Nat) (raw : Bool) (p : Nat × Nat) : (State.noteRead src tag raw s p).ctxs = s.ctxs := by
  have hfar : ∀ (u : State) (b : Bool) (f ev n : Nat), (if b = true then u.countFabric f ev n else u).ctxs = u.ctxs := fun u b f ev n => by
    split
    · exact u.ctxs_countFabric f ev n
    · rfl
  unfold State.noteRead
  simp only
  split <;> simp only [hfar, State.ctxs_countFabric, State.ctxs_countHome]

theorem State.ctxs_noteReads (src tag : Nat) (runs : List (Nat × Nat)) (raw : Bool) : (s.noteReads src tag runs raw).ctxs = s.ctxs :=
  List.foldlRecOn (motive := fun u : State => u.ctxs = s.ctxs) _ _ rfl (fun (u : State) h p _ => (u.ctxs_noteRead src tag raw p).trans h)

theorem State.unpaired_pairPost (n ch : Nat) (r : Nat × Nat × Nat) (i : Nat) : ((State.pairPost n ch s r).ctxOf i).unpaired = (s.ctxOf i).unpaired := by
  have hput : ∀ (j : Nat) (g : Ctx → Ctx), (∀ c, (g c).unpaired = c.unpaired) → ((s.updCtx j g).ctxOf i).unpaired = (s.ctxOf i).unpaired := fun j g hg => by
    rw [State.ctxOf_updCtx]
    split
    · subst i
      exact hg _
    · rfl
  unfold State.pairPost
  split
  · rfl
  · simp only
    split
    · split
      · exact hput _ _ (fun _ => rfl)
      · exact hput _ _ (fun _ => rfl)
    · exact hput _ _ (fun _ => rfl)

theorem State.unpaired_ownPosts (runs : List (Nat × Nat)) (i : Nat) : ((s.ownPosts runs).ctxOf i).unpaired = (s.ctxOf i).unpaired := by
  unfold State.ownPosts
  split
  · rfl
  · exact List.foldlRecOn (motive := fun u : State => (u.ctxOf i).unpaired = (s.ctxOf i).unpaired) _ _ rfl (fun (u : State) h p _ => (State.unpaired_pairPost u _ _ _ i).trans h)

/-- A read at once changes of a context what waits for its partner, and of none where the firing has no partner. -/
theorem State.ctxs_afterRead (va n : Nat) :
    (∀ i, ((s.afterRead va n).ctxOf i).unpaired = (s.ctxOf i).unpaired) ∧ (s.cx.pairFiring = none → (s.afterRead va n).ctxs = s.ctxs) := by
  have hctx : ∀ {u v : State} (_ : u.ctxs = v.ctxs) (i : Nat), u.ctxOf i = v.ctxOf i := fun h i => by rw [State.ctxOf, State.ctxOf, h]
  unfold State.afterRead
  split
  · split
    · exact ⟨fun i => by rw [hctx (State.ctxs_noteReads _ _ _ _ _)], fun _ => State.ctxs_noteReads _ _ _ _ _⟩
    · refine ⟨fun i => ?_, fun hp => ?_⟩
      · rw [hctx (State.ctxs_noteReads _ _ _ _ _)]
        exact s.unpaired_ownPosts _ i
      · rw [State.ctxs_noteReads, State.ownPosts, if_pos (by simp [hp])]
  · exact ⟨fun _ => rfl, fun _ => rfl⟩

/-- A read at once is quiet, outside long mode. -/
theorem quiet_afterRead (va n : Nat) (hl : s.cx.long = false) : quiet s (s.afterRead va n) := by
  have hread := s.readMade_afterRead va n
  obtain ⟨hctx, hctxs⟩ := s.ctxs_afterRead va n
  have hcx : (s.afterRead va n).cx.unpaired = s.cx.unpaired := by
    rw [State.cx, hread.cur]
    exact hctx s.cur
  refine quiet_of_seen (congrArg Ctx.seen hcx :) (fun h => absurd hl (by simp [h])) (fun i hi => ⟨?_, fun hp => ?_⟩) hread.mem
  · exact (congrArg (fun c : Ctx => { c with pairReads := (s.ctxOf i).pairReads }) (hctx i) :)
  · rw [State.ctxOf, State.ctxOf, hctxs hp]

end

/-! ### The three forms (R339) -/

section
variable {s : State} {f : FmtCR}

/-- A core with another stream in a place. -/
def Core.putStream (n : Nat) (t : Stream) (k : Core) : Core := { k with streams := k.streams.put n t }

/-- The stream that a bind leaves. -/
def State.boundTo (s : State) (d : List Word) : Stream :=
  { bound := true, ctx := s.cur, firing := s.cx.firing, desc := d, tag := s.tag, level := s.level, since := s.nextAcc, pairOf := s.cx.pairFiring }

/-- What `str.bind` does with its descriptor. -/
def State.strBound (n : Nat) (s : State) (d : List Word) : Out :=
  if streamBad d then s.faultC .streamBad
  else if s.cx.long || (s.core.streamAt n).bound then s.faultC .streamBusy
  else .next (s.updCurCore (Core.putStream n (s.boundTo d))).fall

theorem exec_strBind (ha : s.accepts (.strBind f)) :
    exec (.strBind f) s = s.readingDesc (s.x f.xa).toNat 8 (State.strBound f.opt.toNat) :=
  (show execStrBind f s = _ from State.slotC_of_accepts ha _)

theorem exec_strBind_misaligned (ha : s.accepts (.strBind f)) (h : (s.x f.xa).toNat % 64 ≠ 0) : exec (.strBind f) s = s.faultC .descAlign (s.x f.xa).toNat := by
  have hd : s.readDesc (s.x f.xa).toNat 8 = .error (some (.descAlign, 0)) := if_pos h
  rw [exec_strBind ha, State.readingDesc, hd]
  rfl

theorem exec_strBind_read {d : List Word} (ha : s.accepts (.strBind f)) (hd : s.readDesc (s.x f.xa).toNat 8 = .ok d) :
    exec (.strBind f) s = (s.afterRead (s.x f.xa).toNat 64).strBound f.opt.toNat d := by
  rw [exec_strBind ha, State.readingDesc, hd]
  rfl

/-- One stream of the core changes before the bundle falls through. -/
theorem State.streamAt_put (u : State) (n : Nat) (t : Stream) (m : Nat) :
    (u.updCurCore (Core.putStream n t)).fall.core.streamAt m = if m = n then t else u.core.streamAt m := by
  rw [State.core_fall, State.core_updCurCore]
  exact KMap.get_put _ _ _ _ _

/-- A good descriptor, outside long mode and for a free stream, is bound. -/
theorem strBound_binds {s u : State} {n : Nat} {d : List Word} (hread : ReadMade s u) (hquiet : quiet s u) (hbad : streamBad d = false)
    (hl : s.cx.long = false) (hb : (s.core.streamAt n).bound = false) :
    ∃ t, u.strBound n d = .next t ∧
      (t.core.streamAt n).bound = true ∧ (t.core.streamAt n).firing = s.cx.firing ∧ (t.core.streamAt n).desc = d ∧ (t.core.streamAt n).fifo = [] ∧
      (t.core.streamAt n).taken = 0 ∧ (∀ m, m ≠ n → t.core.streamAt m = s.core.streamAt m) ∧ t.cx.pc = s.fall.cx.pc ∧ quiet s t := by
  have hput := u.streamAt_put n (u.boundTo d)
  have hself := (hput n).trans (if_pos rfl)
  have hlong : u.cx.long = false := (hread.cxPart Ctx.long (fun _ => rfl)).trans hl
  refine ⟨(u.updCurCore (Core.putStream n (u.boundTo d))).fall, ?_, ?_, ?_, ?_, ?_, ?_, fun m hm => ?_, ?_, quiet_fall hread.cur (quiet_updCurCore hquiet (Core.putStream n (u.boundTo d)))⟩
  · rw [State.strBound, hbad, hlong, hread.core, hb]
    rfl
  · rw [hself]
    rfl
  · rw [hself]
    exact hread.cxPart Ctx.firing (fun _ => rfl)
  · rw [hself]
    rfl
  · rw [hself]
    rfl
  · rw [hself]
    rfl
  · rw [hput, if_neg hm, hread.core]
  · exact State.pc_fall_of_flow (hread.cxPart Ctx.flow (fun _ => rfl))

/-- What `str.free` does. -/
theorem exec_strFree (ha : s.accepts (.strFree f)) : exec (.strFree f) s =
    if !(s.core.streamAt f.opt.toNat).bound then .next s.fall
    else if (s.core.streamAt f.opt.toNat).firing ≠ s.cx.firing then s.faultC .streamBusy
    else if (s.core.streamAt f.opt.toNat).output && !(s.core.streamAt f.opt.toNat).fifo.isEmpty then .next (s.stallOn .waitStream)
    else .next (s.dropStream (coreOfCtx s.cur) f.opt.toNat).fall :=
  (show execStrFree f s = _ from State.slotC_of_accepts ha _)

theorem dropStream_frees (s : State) (n : Nat) :
    let t := (s.dropStream (coreOfCtx s.cur) n).fall
    (t.core.streamAt n).bound = false ∧ (∀ m, m ≠ n → t.core.streamAt m = s.core.streamAt m) ∧ t.cx.pc = s.fall.cx.pc ∧ quiet s t := by
  intro t
  have hput : ∀ m, t.core.streamAt m = if m = n then {} else s.core.streamAt m := s.streamAt_put n {}
  refine ⟨?_, fun m hm => ?_, State.pc_fall_of_flow rfl, quiet_fall rfl (quiet_updCurCore (quiet_refl s) (Core.putStream n {}))⟩
  · rw [hput, if_pos rfl]
  · rw [hput, if_neg hm]

/-- The status of a stream (R194). -/
theorem Stream.status_eq (t : Stream) : t.status =
    (if t.bound then 2 ^ 63 else 0) + t.ctx % 8 * 2 ^ 60 + t.fifo.length % 16 * 2 ^ 56 + ((t.fault.map (fun p => p.1 % 256)).getD 0) * 2 ^ 48 := by
  unfold Stream.status natOfBool
  cases t.bound <;> cases t.fault <;> simp

end

/-- Settles O38: a bind by what its descriptor says after its read, a free by what the stream holds. -/
theorem streamsAreBoundAndFreed : Obligations.StreamsAreBoundAndFreed := by
  unfold Obligations.StreamsAreBoundAndFreed
  intro f s n va t0 s1
  have hread : ReadMade s s1 := s.readMade_afterRead va 64
  refine ⟨fun ha h => exec_strBind_misaligned ha h, fun d ha hd hbad => ?_, fun d ha hd hbad hbusy => ?_, fun d ha hd hbad hl hb => ?_,
    fun ha hb => ?_, fun ha hb hf => ?_, fun ha hb hf ho hfifo => ?_, fun ha hb hf hdone => ?_, fun ha => ?_⟩
  · rw [exec_strBind_read ha hd, State.strBound, if_pos hbad]
  · have hlong : s1.cx.long = s.cx.long := hread.cxPart Ctx.long (fun _ => rfl)
    rw [exec_strBind_read ha hd, State.strBound, if_neg (by simp [hbad]), if_pos]
    rw [hlong, hread.core]
    simpa using hbusy
  · rw [exec_strBind_read ha hd]
    exact strBound_binds hread (quiet_afterRead s va 64 hl) hbad hl hb
  · rw [exec_strFree ha, if_pos (by simpa using hb)]
  · rw [exec_strFree ha, if_neg (by simpa using hb), if_pos hf]
  · rw [exec_strFree ha, if_neg (by simpa using hb), if_neg (not_not.2 hf), if_pos (by simpa using ⟨ho, hfifo⟩)]
  · rw [exec_strFree ha, if_neg (by simpa using hb), if_neg (not_not.2 hf), if_neg]
    · exact ⟨_, rfl, dropStream_frees s n⟩
    · rintro h
      simp only [Bool.and_eq_true, Bool.not_eq_true', List.isEmpty_eq_false_iff] at h
      obtain h' | h' := hdone
      · exact absurd h.1 (by simpa using h')
      · exact h.2 h'
  · rw [← Stream.status_eq]
    exact (show execStrStat f s = _ from State.slotC_of_accepts ha _)

end Sys2Proof.Machine
end

section
/-! SUPPORT. Line maintenance and the tables: R195, R312, R342, R343. -/

namespace Sys2Proof.Machine

/-! ### Cleaning a line (R342) -/

section
variable (s : State)

theorem State.enginesKept_countSlice (tile tag ev n : Nat) : EnginesKept s (s.countSlice tile tag ev n) := by
  unfold State.countSlice
  split
  · exact fun _ => rfl
  · exact s.enginesKept_updTile tile rfl

/-- A line that is written back changes the dirty lines and a slice's counters, and nothing else. -/
theorem State.cleanLine_keeps (l : Nat) : ({ s.cleanLine l with tiles := s.tiles, dirty := s.dirty } : State) = s := by
  have hcount : ∀ tile tag ev n, ({ s.countSlice tile tag ev n with tiles := s.tiles, dirty := s.dirty } : State) = s := fun tile tag ev n => by
    unfold State.countSlice
    split <;> rfl
  unfold State.cleanLine
  simp only
  split
  · exact hcount _ _ _ _
  · rfl

theorem State.enginesKept_cleanLine (l : Nat) : EnginesKept s (s.cleanLine l) := by
  unfold State.cleanLine
  simp only
  split
  · exact s.enginesKept_countSlice _ _ _ _
  · exact fun _ => rfl

theorem State.mem_dirty_cleanLine (l k : Nat) : k ∈ (s.cleanLine l).dirty ↔ k ∈ s.dirty ∧ k ≠ l := by
  have hcount : ∀ tile tag ev n, (s.countSlice tile tag ev n).dirty = s.dirty := fun tile tag ev n => by
    unfold State.countSlice
    split <;> rfl
  unfold State.cleanLine
  simp only
  split
  · simp [hcount]
  · simp

end

/-! ### Dropping a line of the fetch buffer (R195, R342) -/

theorem Ctx.keepLine_eq (c : Ctx) (l va : Nat) (bytes : List Byte) : ∃ lb, c.keepLine l va bytes = { c with loopBuf := lb } := by
  unfold Ctx.keepLine
  split
  · exact ⟨_, rfl⟩
  · exact ⟨c.loopBuf, rfl⟩

theorem Ctx.mem_keepLine {c : Ctx} {va : Nat} (h : c.lineInBody va = true) (l : Nat) (bytes : List Byte) : ∃ e ∈ (c.keepLine l va bytes).loopBuf, e.1 = l := by
  unfold Ctx.keepLine
  rw [h, Bool.true_and]
  split
  · exact ⟨(l, va / 128 * 128, bytes), by simp, rfl⟩
  next hin => simpa using hin

section
variable (s : State) (l va : Nat)

theorem State.dropFetchLine_keeps : ({ s.dropFetchLine l va with ctxs := s.ctxs, cores := s.cores } : State) = s := by
  unfold State.dropFetchLine
  simp only
  split <;> rfl

theorem State.ibuf_dropFetchLine : (s.dropFetchLine l va).core.ibuf = s.core.ibuf.drop l := by
  unfold State.dropFetchLine
  simp only
  split <;> rw [State.core_updCurCore]
  rfl

/-- A firing's context of the same core keeps the line; any other context stays. -/
theorem State.ctxOf_dropFetchLine {bytes : List Byte} (hb : s.core.ibuf.find? l = some bytes) (i : Nat) :
    (s.dropFetchLine l va).ctxOf i = if coreOfCtx i = coreOfCtx s.cur ∧ (s.ctxOf i).occ = true then (s.ctxOf i).keepLine l va bytes else s.ctxOf i := by
  let g : Nat → Ctx → Ctx := fun j c => if coreOfCtx j = coreOfCtx s.cur && c.occ then c.keepLine l va bytes else c
  have hmap : (s.dropFetchLine l va).ctxOf i = g i (s.ctxOf i) := by
    unfold State.dropFetchLine
    rw [hb]
    exact KMap.get_map g (.inr (by simp [g]))
  rw [hmap]
  simp [g]

theorem State.loopBuf_dropFetchLine (i : Nat) : ∃ lb, (s.dropFetchLine l va).ctxOf i = { s.ctxOf i with loopBuf := lb } := by
  cases hb : s.core.ibuf.find? l with
  | none =>
    refine ⟨(s.ctxOf i).loopBuf, ?_⟩
    unfold State.dropFetchLine
    rw [hb]
    rfl
  | some bytes =>
    rw [s.ctxOf_dropFetchLine l va hb]
    split
    · exact Ctx.keepLine_eq _ _ _ _
    · exact ⟨(s.ctxOf i).loopBuf, rfl⟩

end

/-! ### The two forms of line maintenance (R342) -/

section
variable {s : State} {f : FmtCR}

/-- What `cln` does to its line. -/
def State.cleaned (g : Nat) (e : Pte) (s : State) : Out := .next (if e.kind = 0 && s.gpaLocal g then s.cleanLine (lineOf (gpaKey g)) else s).fall

/-- What `inv` and `inv.h` do to theirs. -/
def State.lineDropped (f : FmtCR) (g : Nat) (_ : Pte) (s : State) : Out :=
  let l := lineOf (gpaKey g)
  let s1 := s.dropFetchLine (s.fetchKey g) (s.x f.xa).toNat
  if f.opt = 1 ∧ s.gpaLocal g then
    let s2 := s1.cleanLine l
    .next (if s.syncs.any (fun r => r.line = l) then s2 else { s2 with cached := s2.cached.drop l }).fall
  else .next s1.fall

theorem exec_cln (ha : s.accepts (.cln f)) : exec (.cln f) s = s.lineOp (s.x f.xa).toNat State.cleaned :=
  (show execCln f s = _ from State.slotC_of_accepts ha _)

theorem exec_inv (ha : s.accepts (.inv f)) : exec (.inv f) s = s.lineOp (s.x f.xa).toNat (State.lineDropped f) :=
  (show execInv f s = _ from State.slotC_of_accepts ha _)

theorem State.lineOp_bad {va : Nat} {c : Cause} {lvl : Nat} (h : s.translateLine va = .bad c lvl) (k : Nat → Pte → State → Out) :
    s.lineOp va k = s.faultC c va (accSyndrome c .read 128 lvl) := by
  rw [State.lineOp, h]

theorem State.lineOp_wait {va : Nat} (h : s.translateLine va = .wait) (k : Nat → Pte → State → Out) : s.lineOp va k = .next (s.stallOn 0) := by
  rw [State.lineOp, h]

theorem State.lineOp_ok {va g : Nat} {e : Pte} (h : s.translateLine va = .ok g e) (k : Nat → Pte → State → Out) : s.lineOp va k = k g e s := by
  rw [State.lineOp, h]

theorem cleanLine_fall_quiet (s : State) (l : Nat) : quiet s (s.cleanLine l).fall ∧ (s.cleanLine l).fall.cx.pc = s.fall.cx.pc ∧ (s.cleanLine l).fall.cached = s.cached := by
  have hkeep := s.cleanLine_keeps l
  have hcur : (s.cleanLine l).cur = s.cur := (congrArg State.cur hkeep :)
  have hctxs : ∀ i, (s.cleanLine l).ctxOf i = s.ctxOf i := fun i => (congrArg (fun u : State => u.ctxOf i) hkeep :)
  have hcx : (s.cleanLine l).cx = s.cx := (congrArg State.cx hkeep :)
  have heng : (s.cleanLine l).eng = s.eng := by
    rw [State.eng, State.tile, hcur]
    exact s.enginesKept_cleanLine l _
  exact ⟨quiet_fall hcur (quiet_of_seen (by rw [hcx]) (fun _ => heng) (othersKept_of (fun i _ => hctxs i)) (congrArg State.mem hkeep :)),
    State.pc_fall_of_flow (by rw [hcx]), (congrArg State.cached hkeep :)⟩

theorem cleaned_effects (s : State) (g : Nat) (e : Pte) : ∃ t, s.cleaned g e = .next t ∧ quiet s t ∧ t.cx.pc = s.fall.cx.pc ∧ t.cached = s.cached ∧
    (e.kind = 0 ∧ s.gpaLocal g = true → ∀ l, l ∈ t.dirty ↔ l ∈ s.dirty ∧ l ≠ lineOf (gpaKey g)) ∧ (¬ (e.kind = 0 ∧ s.gpaLocal g = true) → t.dirty = s.dirty) := by
  by_cases h : e.kind = 0 ∧ s.gpaLocal g = true
  · obtain ⟨hquiet, hpc, hcached⟩ := cleanLine_fall_quiet s (lineOf (gpaKey g))
    refine ⟨(s.cleanLine (lineOf (gpaKey g))).fall, ?_, hquiet, hpc, hcached, fun _ => s.mem_dirty_cleanLine _, fun hn => absurd h hn⟩
    rw [State.cleaned, if_pos (by simpa using h)]
  · refine ⟨s.fall, ?_, quiet_fall rfl (quiet_refl s), rfl, rfl, fun hy => absurd hy h, fun _ => rfl⟩
    rw [State.cleaned, if_neg (by simpa using h)]

/-- A state that differs from the one after the drop only in what a clean changes, and in the cached lines, when its bundle falls through. -/
theorem lineDropped_falls {s u : State} {l va : Nat} (hkeep : ({ u with tiles := s.tiles, dirty := s.dirty, cached := s.cached } : State) = s.dropFetchLine l va)
    (heng : EnginesKept s u) : quietButLoops s u.fall ∧ u.fall.cx.pc = s.fall.cx.pc ∧ u.fall.core.ibuf.has l = false ∧
    ∀ c bytes, c ≠ s.cur → coreOfCtx c = coreOfCtx s.cur → (s.ctxOf c).occ = true → (s.ctxOf c).lineInBody va = true → s.core.ibuf.find? l = some bytes →
      ∃ e ∈ (u.fall.ctxOf c).loopBuf, e.1 = l := by
  have hdrop := s.dropFetchLine_keeps l va
  have hcur : u.cur = s.cur := (congrArg State.cur hkeep :).trans (congrArg State.cur hdrop :)
  have hmem : u.mem = s.mem := (congrArg State.mem hkeep :).trans (congrArg State.mem hdrop :)
  have hctx : ∀ i, u.ctxOf i = (s.dropFetchLine l va).ctxOf i := fun i => (congrArg (fun v : State => v.ctxOf i) hkeep :)
  have hibuf : u.core.ibuf = s.core.ibuf.drop l := (congrArg (fun v : State => v.core.ibuf) hkeep :).trans (s.ibuf_dropFetchLine l va)
  have hother : ∀ i, i ≠ s.cur → u.fall.ctxOf i = (s.dropFetchLine l va).ctxOf i := fun i hi => (u.ctxOf_retire_other _ (hcur ▸ hi)).trans (hctx i)
  obtain ⟨lb, hcx⟩ : ∃ lb, u.cx = { s.cx with loopBuf := lb } := by
    obtain ⟨lb, h⟩ := s.loopBuf_dropFetchLine l va s.cur
    exact ⟨lb, by rw [State.cx, hcur, hctx, h]; rfl⟩
  have heng' : u.eng = s.eng := by
    rw [State.eng, State.tile, hcur]
    exact heng _
  have hseen : u.fall.cx.seen = s.cx.seen := (u.cxPart_fall Ctx.seen (fun _ => rfl)).trans (by rw [hcx]; rfl)
  obtain ⟨hx, hk, hv, hfstat⟩ := registers_of_seen hseen (fun _ => u.eng_fall.trans heng')
  refine ⟨⟨hx, hk, hv, hfstat, fun c hc => ?_, fun b => by rw [← hmem]; rfl⟩, State.pc_fall_of_flow (by rw [hcx]; rfl), ?_, fun c bytes hc hcore hocc hin hb => ?_⟩
  · obtain ⟨lb, h⟩ := s.loopBuf_dropFetchLine l va c
    rw [hother c hc, h]
  · have hib : u.fall.core.ibuf = u.core.ibuf := (congrArg Core.ibuf u.core_fall :)
    rw [hib, hibuf, KMap.has_drop_self]
  · rw [hother c hc, s.ctxOf_dropFetchLine l va hb, if_pos ⟨hcore, hocc⟩]
    exact Ctx.mem_keepLine hin _ _

theorem lineDropped_effects (f : FmtCR) (s : State) (g : Nat) (e : Pte) : ∃ t, s.lineDropped f g e = .next t ∧ quietButLoops s t ∧ t.cx.pc = s.fall.cx.pc ∧
    t.core.ibuf.has (s.fetchKey g) = false ∧
    (∀ c bytes, c ≠ s.cur → coreOfCtx c = coreOfCtx s.cur → (s.ctxOf c).occ = true → (s.ctxOf c).lineInBody (s.x f.xa).toNat = true →
      s.core.ibuf.find? (s.fetchKey g) = some bytes → ∃ e ∈ (t.ctxOf c).loopBuf, e.1 = s.fetchKey g) ∧
    (f.opt ≠ 1 ∨ s.gpaLocal g = false → t.dirty = s.dirty ∧ t.cached = s.cached) ∧
    (f.opt = 1 → s.gpaLocal g = true → (∀ l, l ∈ t.dirty ↔ l ∈ s.dirty ∧ l ≠ lineOf (gpaKey g)) ∧
      t.cached.has (lineOf (gpaKey g)) = (s.cached.has (lineOf (gpaKey g)) && s.syncs.any (fun r => r.line = lineOf (gpaKey g)))) := by
  let l := lineOf (gpaKey g)
  let u := s.dropFetchLine (s.fetchKey g) (s.x f.xa).toNat
  have hdrop : ({ u with ctxs := s.ctxs, cores := s.cores } : State) = s := s.dropFetchLine_keeps _ _
  have htiles : u.tiles = s.tiles := (congrArg State.tiles hdrop :)
  have hdirty : u.dirty = s.dirty := (congrArg State.dirty hdrop :)
  have hcached : u.cached = s.cached := (congrArg State.cached hdrop :)
  have hclean := u.cleanLine_keeps l
  have heng : EnginesKept s (u.cleanLine l) := (EnginesKept.of_tiles htiles).trans (u.enginesKept_cleanLine l)
  have hccached : (u.cleanLine l).cached = s.cached := (congrArg State.cached hclean :).trans hcached
  have hkeep : ({ u.cleanLine l with tiles := s.tiles, dirty := s.dirty, cached := s.cached } : State) = u := by
    rw [← htiles, ← hdirty, ← hcached]
    exact (congrArg (fun v : State => { v with cached := u.cached }) hclean :)
  have hcdirty : ∀ k, k ∈ (u.cleanLine l).dirty ↔ k ∈ s.dirty ∧ k ≠ l := fun k => (u.mem_dirty_cleanLine l k).trans (by rw [hdirty])
  by_cases h : f.opt = 1 ∧ s.gpaLocal g = true
  · have hn : ¬ (f.opt ≠ 1 ∨ s.gpaLocal g = false) := by simpa using h
    by_cases hsync : s.syncs.any (fun r => r.line = l) = true
    · obtain ⟨hquiet, hpc, hbuf, hloops⟩ := lineDropped_falls hkeep heng
      refine ⟨(u.cleanLine l).fall, ?_, hquiet, hpc, hbuf, hloops, fun h' => absurd h' hn, fun _ _ => ⟨hcdirty, ?_⟩⟩
      · rw [State.lineDropped]
        simp only
        rw [if_pos h, if_pos hsync]
      · have : (u.cleanLine l).fall.cached = s.cached := hccached
        rw [this, hsync, Bool.and_true]
    · obtain ⟨hquiet, hpc, hbuf, hloops⟩ := lineDropped_falls (u := { u.cleanLine l with cached := (u.cleanLine l).cached.drop l }) hkeep heng
      refine ⟨_, ?_, hquiet, hpc, hbuf, hloops, fun h' => absurd h' hn, fun _ _ => ⟨hcdirty, ?_⟩⟩
      · rw [State.lineDropped]
        simp only
        rw [if_pos h, if_neg hsync]
      · rw [Bool.not_eq_true] at hsync
        rw [hsync, Bool.and_false]
        exact KMap.has_drop_self _ _
  · obtain ⟨hquiet, hpc, hbuf, hloops⟩ := lineDropped_falls (u := u) (by rw [← htiles, ← hdirty, ← hcached]) (EnginesKept.of_tiles htiles)
    refine ⟨u.fall, ?_, hquiet, hpc, hbuf, hloops, fun _ => ⟨hdirty, hcached⟩, fun h1 h2 => absurd ⟨h1, h2⟩ h⟩
    rw [State.lineDropped]
    exact if_neg h

end

/-! ### The pieces of a run (R112, R312; log 120) -/

section
variable (s : State)

/-- A run that is cut begins where it began, and its parts are as long as it. -/
theorem State.cutGo_parts : ∀ fuel va g n, ∃ m r, s.cutGo fuel va g n = (va, g, m) :: r ∧ m + (r.map (fun p => p.2.2)).sum = n
  | 0, va, g, n => ⟨n, [], rfl, rfl⟩
  | fuel + 1, va, g, n => by
    let k := 128 - gpaKey g % 128
    obtain ⟨m, r, hcut, hsum⟩ := State.cutGo_parts fuel (va + k) (g + k) (n - k)
    unfold State.cutGo
    simp only
    split
    · exact ⟨n, [], rfl, rfl⟩
    next hk =>
      rw [hcut]
      simp only
      split
      · exact ⟨_, r, rfl, by omega⟩
      · exact ⟨_, _, rfl, by simp only [List.map_cons, List.sum_cons]; omega⟩

theorem State.homeCuts_parts (va g n : Nat) (ps : List (Nat × Nat × Nat)) :
    ∃ m r, s.homeCuts ((va, g, n) :: ps) = (va, g, m) :: r ∧ m + (r.map (fun p => p.2.2)).sum = n + ((s.homeCuts ps).map (fun p => p.2.2)).sum := by
  have hcons : s.homeCuts ((va, g, n) :: ps) = (if s.gpaLocal g && inSlice g then s.cutGo (n / 128 + 1) va g n else [(va, g, n)]) ++ s.homeCuts ps := rfl
  rw [hcons]
  split
  · obtain ⟨m, r, hcut, hsum⟩ := s.cutGo_parts (n / 128 + 1) va g n
    rw [hcut]
    refine ⟨m, r ++ s.homeCuts ps, rfl, ?_⟩
    rw [List.map_append, List.sum_append]
    omega
  · exact ⟨n, s.homeCuts ps, rfl, rfl⟩

/-- An access begins at the GPA that was checked, and its pieces are as long as it. -/
theorem State.piecesOf_parts (va size g : Nat) (acc : Acc) : ∃ m r, s.piecesOf va size g acc = (g, m) :: r ∧ m + (r.map (fun p => p.2)).sum = size := by
  obtain ⟨m, r, hcut, hsum⟩ : ∃ m r, s.vaPieces va size g acc = (va, g, m) :: r ∧ m + (r.map (fun p => p.2.2)).sum = size := by
    unfold State.vaPieces
    simp only
    split
    · exact s.homeCuts_parts va g size []
    · split
      next g2 _ _ =>
        obtain ⟨m, r, hcut, hsum⟩ := s.homeCuts_parts va g (min size (0x10000 - va % 0x10000)) [(va + min size (0x10000 - va % 0x10000), g2, size - min size (0x10000 - va % 0x10000))]
        obtain ⟨m', r', hcut', hsum'⟩ := s.homeCuts_parts (va + min size (0x10000 - va % 0x10000)) g2 (size - min size (0x10000 - va % 0x10000)) []
        refine ⟨m, r, hcut, ?_⟩
        rw [hcut'] at hsum
        have hnil : s.homeCuts [] = [] := rfl
        simp only [List.map_cons, List.sum_cons, hnil, List.map_nil, List.sum_nil] at hsum hsum'
        omega
      · exact s.homeCuts_parts va g size []
  refine ⟨m, r.map (fun p => p.2), ?_, ?_⟩
  · rw [State.piecesOf, hcut]
    rfl
  · rw [List.map_map]
    exact hsum

end

/-! ### A load that is sent (R313) -/

section
variable {s : State}

theorem State.withCount_eq (s : State) (a : Access) : ∃ n, s.withCount a = { a with snap := n } := by
  unfold State.withCount
  split
  · exact ⟨a.snap, rfl⟩
  · split
    · exact ⟨a.snap, rfl⟩
    · exact ⟨_, rfl⟩

/-- The access as it stands in flight. -/
theorem holdFor_effects (s : State) (a : Access) (hr : a.result = none) : ∃ b, sentBy s (s.holdFor a) a.kind [b] ∧ b.gpa = a.gpa ∧ b.size = a.size ∧ b.more = a.more ∧
    (s.holdFor a).cx.hold = some b.id ∧ quiet s (s.holdFor a) := by
  let u := (s.launchAccess a).upd (fun c => { c with hold := some s.nextAcc })
  have hcx : (s.holdFor a).cx = { s.cx with hold := some s.nextAcc, stall := some ((s.cx.stall.map (fun p => p.1)).getD s.rtime, 0) } := by
    have hu : u.cx = { s.cx with hold := some s.nextAcc } := State.cx_upd _ _
    exact (u.cx_stallOn 0).trans (by rw [hu]; rfl)
  refine ⟨_, ⟨rfl, ?_⟩, rfl, rfl, rfl, ?_, quiet_of_seen ?_ (fun _ => rfl) (othersKept_of fun i hi => ?_) rfl⟩
  · rintro b (_ | ⟨_, ⟨⟩⟩)
    exact ⟨rfl, rfl, rfl, hr⟩
  · rw [hcx]
  · rw [hcx]
    rfl
  · exact (State.ctxOf_updCtx_other u _ hi).trans (State.ctxOf_updCtx_other (s.launchAccess a) _ hi)

/-- A load that passes its checks is sent once, and its bundle holds. -/
theorem loadBytes_sends {va size align g : Nat} {e : Pte} {vector : Bool} {kind : AccKind} {k : Nat → Out} (hreply : s.cx.reply = none) (hhold : s.cx.hold = none)
    (hok : s.checkAccess s.cur va size align .read vector = .ok g e) : ∃ t a, s.loadBytes va size align vector kind k = .next t ∧ sentBy s t kind [a] ∧ a.gpa = g ∧
      a.size + (a.more.map (fun p => p.2)).sum = size ∧ t.cx.hold = some a.id ∧ quiet s t := by
  obtain ⟨m, r, hpieces, hsum⟩ := s.piecesOf_parts va size g .read
  obtain ⟨n, hcount⟩ := s.withCount_eq { kind := kind, va := va, gpa := g, size := m, more := r }
  obtain ⟨b, hsent, hg, hsize, hmore, hheld, hquiet⟩ := holdFor_effects s { kind := kind, va := va, gpa := g, size := m, more := r, snap := n } rfl
  refine ⟨_, b, ?_, hsent, hg, ?_, hheld, hquiet⟩
  · rw [← hcount]
    simp only [State.loadBytes, State.holding, hreply, hhold, hok, hpieces]
  · rw [hsize, hmore]
    exact hsum

theorem loadBytes_value {va size align v : Nat} {vector : Bool} {kind : AccKind} {k : Nat → Out} (hreply : s.cx.reply = some (.value v)) :
    s.loadBytes va size align vector kind k = k v := by
  simp only [State.loadBytes, State.holding, hreply]

/-- The tables take the low and the high half (R343). -/
theorem tables_set (s : State) (v : Nat) :
    let t := (s.updCurCore (fun k => { k with lutlo := BitVec.ofNat 64 v, luthi := BitVec.ofNat 64 (v / 2 ^ 64) })).fall
    quiet s t ∧ t.cx.pc = s.fall.cx.pc ∧ t.core.lutlo = BitVec.ofNat 64 (v % 2 ^ 64) ∧ t.core.luthi = BitVec.ofNat 64 (v / 2 ^ 64) := by
  intro t
  let g : Core → Core := fun k => { k with lutlo := BitVec.ofNat 64 v, luthi := BitVec.ofNat 64 (v / 2 ^ 64) }
  have hcore : t.core = { g s.core with retired := s.rtime, hung := false } := by
    rw [← s.core_updCurCore g]
    exact State.core_fall _
  refine ⟨quiet_fall rfl (quiet_updCurCore (quiet_refl s) g), State.pc_fall_of_flow rfl, ?_, ?_⟩
  · rw [hcore]
    exact BitVec.eq_of_toNat_eq (by simp [g])
  · rw [hcore]

end

/-- Settles O30: the two forms of line maintenance by what they do to a line, and the load of the tables. -/
theorem lineMaintenanceAndTables : Obligations.LineMaintenanceAndTables := by
  unfold Obligations.LineMaintenanceAndTables
  intro f s va
  refine ⟨fun i hi ha => ⟨fun c lvl h => ?_, fun h => ?_⟩, fun g e ha h => ?_, fun g e ha h => ?_, fun ha => ⟨fun v hv _ => ?_, fun g e hr hh hok => ?_⟩⟩
  · obtain rfl | rfl := hi
    · rw [exec_cln ha, State.lineOp_bad h]
    · rw [exec_inv ha, State.lineOp_bad h]
  · obtain rfl | rfl := hi
    · rw [exec_cln ha, State.lineOp_wait h]
    · rw [exec_inv ha, State.lineOp_wait h]
  · rw [exec_cln ha, State.lineOp_ok h]
    exact cleaned_effects s g e
  · rw [exec_inv ha, State.lineOp_ok h]
    exact lineDropped_effects f s g e
  · have hexec : exec (.lutLd f) s = s.loadBytes va 16 16 true .load fun v =>
        .next (s.updCurCore (fun k => { k with lutlo := BitVec.ofNat 64 v, luthi := BitVec.ofNat 64 (v / 2 ^ 64) })).fall := (show execLutLd f s = _ from State.slotC_of_accepts ha _)
    rw [hexec, loadBytes_value hv]
    exact ⟨_, rfl, tables_set s v⟩
  · have hexec : exec (.lutLd f) s = s.loadBytes va 16 16 true .load _ := (show execLutLd f s = _ from State.slotC_of_accepts ha _)
    rw [hexec]
    exact loadBytes_sends hr hh hok

end Sys2Proof.Machine
end

section
/-! SUPPORT. Streams as operands: R189 to R192, R347, R348. -/

namespace Sys2Proof.Machine

/-! ### What a checked access reads of the cores: their micro-TLBs (R119, R121)

The machine with another list of cores in which each core reads the same makes the same checks. -/

/-- Another list of cores in which each core reads as it does. -/
def SameCores (s : State) (l : KMap Core) : Prop := ∀ i, ({ s with cores := l } : State).coreOf i = s.coreOf i

/-- A core that is written back as it is. -/
theorem sameCores_put (s : State) (i : Nat) {k : Core} (h : k = s.coreOf i) : SameCores s (s.cores.put i k) := fun j => by
  show (s.cores.put i k).get {} j = s.coreOf j
  rw [KMap.get_put]
  split
  · subst j
    exact h
  · rfl

section
variable {s : State} {l : KMap Core} (h : SameCores s l)

theorem State.walk_cores (s : State) (l : KMap Core) (va tag : Nat) (acc : Acc) :
    ∀ fuel frame lvl, ({ s with cores := l } : State).walk va tag acc fuel frame lvl = s.walk va tag acc fuel frame lvl
  | 0, _, _ => rfl
  | fuel + 1, frame, lvl => by
    have ih := State.walk_cores s l va tag acc fuel
    unfold State.walk
    simp only [ih]
    rfl

include h

theorem State.translate_cores (core tag va : Nat) (acc : Acc) : ({ s with cores := l } : State).translate core tag va acc = s.translate core tag va acc := by
  unfold State.translate
  rw [h core]
  simp only [State.walk_cores]
  rfl

theorem State.checkPage_cores (ctx va size : Nat) (acc : Acc) (vector : Bool) :
    ({ s with cores := l } : State).checkPage ctx va size acc vector = s.checkPage ctx va size acc vector := by
  unfold State.checkPage
  simp only [State.translate_cores h]
  rfl

theorem State.checkAccess_cores (ctx va size align : Nat) (acc : Acc) (vector : Bool) :
    ({ s with cores := l } : State).checkAccess ctx va size align acc vector = s.checkAccess ctx va size align acc vector := by
  unfold State.checkAccess
  simp only [State.checkPage_cores h]

theorem State.mapRange_cores (ctx va n : Nat) (acc : Acc) (size : Nat) : ({ s with cores := l } : State).mapRange ctx va n acc size = s.mapRange ctx va n acc size := by
  unfold State.mapRange
  simp only [State.checkPage_cores h]

theorem State.mapRanges_cores (ctx : Nat) (acc : Acc) (size : Nat) (rs : List (Nat × Nat)) :
    ({ s with cores := l } : State).mapRanges ctx acc size rs = s.mapRanges ctx acc size rs := by
  induction rs with
  | nil => rfl
  | cons r rs ih =>
    unfold State.mapRanges
    simp only [State.mapRange_cores h, ih]

theorem State.typedPlan_cores (ctx va n : Nat) (t : BitVec 2) (raw : Nat) (store : Bool) :
    ({ s with cores := l } : State).typedPlan ctx va n t raw store = s.typedPlan ctx va n t raw store := by
  unfold State.typedPlan
  simp only [State.mapRange_cores h, State.mapRanges_cores h]
  rfl

theorem State.outStep_cores (t : Stream) (v : Nat) : ({ s with cores := l } : State).outStep t v = s.outStep t v := by
  have hseed : ({ s with cores := l } : State).seed = s.seed := by
    rw [State.seed, State.seed, State.core, h]
    rfl
  unfold State.outStep
  simp only [State.typedPlan_cores h, State.checkAccess_cores h, hseed]
  rfl

end

/-! ### Lanes that are copied (R347, R348) -/

/-- The lanes of a number, packed again. -/
theorem packLanes_unpackLanes (b n v : Nat) : packLanes b (unpackLanes b n v) = v % 2 ^ (b * n) := by
  induction n generalizing v with
  | zero => simp [unpackLanes, packLanes, Nat.mod_one]
  | succ n ih =>
    have hnext : (fun i => laneAt b v (i + 1)) = laneAt b (v / 2 ^ b) := funext fun i => by
      rw [laneAt, laneAt, Nat.mul_succ, Nat.add_comm, Nat.pow_add, Nat.div_div_eq_div_mul]
    have hcons : unpackLanes b (n + 1) v = laneAt b v 0 :: unpackLanes b n (v / 2 ^ b) := by
      rw [unpackLanes, List.range_succ_eq_map, List.map_cons, List.map_map, unpackLanes, ← hnext]
      rfl
    rw [hcons, packLanes, ih, Nat.mul_succ, Nat.add_comm (b * n), Nat.pow_add, Nat.mod_mul]
    simp [laneAt]

/-- With every lane on and no draws, each lane takes its function's value. -/
theorem runLanes_all {on : Nat → Bool} (hon : ∀ i, on i = true) (old g : Nat → Nat) (is : List Nat) (seed : Nat) :
    runLanes false on old (fun i _ => .ok (g i)) is seed = .ok (is.map g, seed) := by
  induction is with
  | nil => rfl
  | cons i is ih => simp [runLanes, hon, ih]

/-- A short register holds 256 bits (R347). -/
theorem laneBits_mul_lanesShort (t : BitVec 2) : laneBits t * lanesShort t = 256 := by
  revert t
  decide

/-! ### A move, without a mask, in short mode (R351) -/

section
variable {s : State} {f : FmtAV}

/-- The state after a value has been moved. -/
def State.moved (s : State) (va vd v : Nat) : State := (((s.popStreams [va]).setSeed s.seed).setVec vd v).fall

theorem exec_vmov (ha : s.accepts (.vmov f)) (hl : s.cx.long = false) (hme : f.me = 0) :
    exec (.vmov f) s = s.withVecs true [f.va.toNat] [f.vd.toNat] (fun vals => .next (s.moved f.va.toNat f.vd.toNat (vals.getD 0 0 % 2 ^ 256))) := by
  have hexec : exec (.vmov f) s = s.vecUnary f (fun a => .ok a) := (show execVmov f s = _ from State.slotA_of_accepts ha _)
  have hon : ∀ i, s.laneOn f.me f.km (lanesShort f.t) i = true := fun i => by simp [State.laneOn, hme]
  rw [hexec, State.vecUnary, State.vecIssue, if_neg (by simp [hl]), State.vecUnaryRaw, State.lanewise, hl]
  refine congrArg (s.withVecs true [f.va.toNat] [f.vd.toNat]) (funext fun vals => ?_)
  have hrun := runLanes_all hon (laneAt (laneBits f.t) (s.ownVec f.vd.toNat)) (laneAt (laneBits f.t) (vals.getD 0 0)) (List.range (lanesShort f.t)) s.seed
  have hpack : packLanes (laneBits f.t) ((List.range (lanesShort f.t)).map (laneAt (laneBits f.t) (vals.getD 0 0))) = vals.getD 0 0 % 2 ^ 256 := by
    rw [← laneBits_mul_lanesShort f.t]
    exact packLanes_unpackLanes _ _ _
  simp only [Bool.false_and, Bool.false_eq_true, if_false, lanesOf, hrun, hpack]
  rfl

end

/-! ### What the two operands give (R184, R191, R192) -/

section
variable {s : State} {a d : Nat} {k : List Nat → Out}

theorem State.withVecs_bad_source {c : Cause} {x y : Nat} (ha : s.vecIn a = .bad c x y) : s.withVecs true [a] [d] k = s.faultA c x y := by
  simp [State.withVecs, gatherReads, ha]

theorem State.withVecs_empty_source (ha : s.vecIn a = .stall) {v : Nat} (hd : s.vecOut d = .ok v) : s.withVecs true [a] [d] k = .next (s.stallOn .waitStream) := by
  simp [State.withVecs, gatherReads, ha, hd]

theorem State.withVecs_bad_destination {v : Nat} (ha : s.vecIn a = .ok v) {c : Cause} {x y : Nat} (hd : s.vecOut d = .bad c x y) :
    s.withVecs true [a] [d] k = s.faultA c x y := by
  simp [State.withVecs, gatherReads, ha, hd]

theorem State.withVecs_full_destination {v : Nat} (ha : s.vecIn a = .ok v) (hd : s.vecOut d = .stall) : s.withVecs true [a] [d] k = .next (s.stallOn .waitStream) := by
  simp [State.withVecs, gatherReads, ha, hd]

theorem State.withVecs_values {v w : Nat} (ha : s.vecIn a = .ok v) (hd : s.vecOut d = .ok w) : s.withVecs true [a] [d] k = k [v, w] := by
  simp [State.withVecs, gatherReads, ha, hd]

end

section
variable {s u : State} {r n : Nat} {t : Stream}

/-- A bound register is one of the last four, outside long mode, and its stream is the core's. -/
theorem State.streamOf_some (h : s.streamOf r = some (n, t)) : 12 ≤ r ∧ n = r - 12 ∧ t = s.core.streamAt n := by
  unfold State.streamOf at h
  split at h
  · cases h
  next hr =>
    simp only at h
    split at h
    · cases h
      refine ⟨?_, rfl, rfl⟩
      simp only [Bool.or_eq_true, decide_eq_true_eq, not_or] at hr
      omega
    · cases h

/-- Whether a register is bound is a matter of its own stream. -/
theorem State.streamOf_congr_at (hlong : u.cx.long = s.cx.long) (hfiring : u.cx.firing = s.cx.firing)
    (hat : 12 ≤ r → u.core.streamAt (r - 12) = s.core.streamAt (r - 12)) : u.streamOf r = s.streamOf r := by
  by_cases hr : r < 12
  · simp [State.streamOf, hr]
  · rw [State.streamOf, State.streamOf, hlong, hfiring, hat (by omega)]

theorem State.ownVec_lt (hl : s.cx.long = false) (r : Nat) : s.ownVec r < 2 ^ 256 := by
  rw [State.ownVec, if_neg (by simp [hl])]
  exact (s.cx.v.get 0 r).isLt

/-! ### An input stream as the source (R191, R192) -/

theorem State.vecIn_wrong_way (hl : s.cx.long = false) (h : s.streamOf r = some (n, t)) (ho : t.output = true) : s.vecIn r = .bad .streamDir 0 0 := by
  simp [State.vecIn, hl, h, ho]

theorem State.vecIn_entry (hl : s.cx.long = false) (h : s.streamOf r = some (n, t)) (ho : t.output = false) {v : BitVec 256} {q : List (BitVec 256)}
    (hq : t.fifo = v :: q) : s.vecIn r = .ok v.toNat := by
  simp [State.vecIn, hl, h, ho, hq]

theorem State.vecIn_fault (hl : s.cx.long = false) (h : s.streamOf r = some (n, t)) (ho : t.output = false) (hq : t.fifo = []) {c : Cause} {a : Nat}
    (hf : t.fault = some (c, a)) : s.vecIn r = .bad c a t.faultSynd := by
  simp [State.vecIn, hl, h, ho, hq, hf]

theorem State.vecIn_empty (hl : s.cx.long = false) (h : s.streamOf r = some (n, t)) (ho : t.output = false) (hq : t.fifo = []) (hf : t.fault = none)
    (ht : t.taken < t.total) : s.vecIn r = .stall := by
  simp [State.vecIn, hl, h, ho, hq, hf, Nat.not_le.2 ht]

theorem State.vecIn_ended (hl : s.cx.long = false) (h : s.streamOf r = some (n, t)) (ho : t.output = false) (hq : t.fifo = []) (hf : t.fault = none)
    (ht : t.total ≤ t.taken) : s.vecIn r = .bad .streamEnd 0 0 := by
  simp [State.vecIn, hl, h, ho, hq, hf, ht]

/-- The register takes the oldest entry, and the stream has one entry less (R184, R191). -/
theorem State.moved_from_stream {vd : Nat} (hl : s.cx.long = false) (h : s.streamOf r = some (n, t)) (ho : t.output = false) (hd : s.streamOf vd = none)
    {v : BitVec 256} {q : List (BitVec 256)} (hq : t.fifo = v :: q) :
    let u := s.moved r vd v.toNat
    u.ownVec vd = v.toNat ∧ (u.core.streamAt n).fifo = q ∧ (u.core.streamAt n).taken = t.taken + 1 ∧ (∀ j, j ≠ n → u.core.streamAt j = s.core.streamAt j) ∧
      ∀ i, i ≠ vd → u.ownVec i = s.ownVec i := by
  intro u
  obtain ⟨hr, hn, -⟩ := State.streamOf_some h
  let t' : Stream := { t with fifo := t.fifo.drop 1, taken := t.taken + 1 }
  let p : State := (s.updCurCore (Core.putStream n t')).setSeed s.seed
  have hpop : s.popStreams [r] = s.updCurCore (Core.putStream n t') := by
    simp only [State.popStreams, List.eraseDups_cons, List.filter_nil, List.eraseDups_nil, List.foldl_cons, List.foldl_nil, h, ho]
    rfl
  have hstreams : p.core.streams = s.core.streams.put n t' := by
    have h1 : p.core = { (s.updCurCore (Core.putStream n t')).core with seed := BitVec.ofNat 64 s.seed } := State.core_updCurCore _ _
    rw [h1, s.core_updCurCore]
    rfl
  have hat : ∀ j, p.core.streamAt j = if j = n then t' else s.core.streamAt j := fun j => by
    rw [Core.streamAt, hstreams]
    exact KMap.get_put _ _ _ _ _
  have hpd : p.streamOf vd = none := by
    refine (State.streamOf_congr_at (s := s) (u := p) rfl rfl fun hvd => ?_).trans hd
    rw [hat, if_neg]
    intro he
    have : vd = r := by omega
    rw [this, h] at hd
    cases hd
  have hu : u = (p.upd (fun c => { c with v := c.v.put vd (BitVec.ofNat 256 v.toNat) })).fall := by
    show ((((s.popStreams [r]).setSeed s.seed).setVec vd v.toNat).fall) = _
    rw [hpop, State.setVec_of_unbound (s := p) hl hpd]
  have hv : ∀ i, u.ownVec i = ((s.cx.v.put vd v).get 0 i).toNat := fun i => by
    have hcx := p.cx_upd (fun c => { c with v := c.v.put vd (BitVec.ofNat 256 v.toNat) })
    have hval : BitVec.ofNat 256 v.toNat = v := BitVec.eq_of_toNat_eq (by rw [BitVec.toNat_ofNat, Nat.mod_eq_of_lt v.isLt])
    rw [hu, State.ownVec_fall (by rw [hcx]; exact hl), hcx, hval]
    rfl
  have hcore : ∀ j, u.core.streamAt j = if j = n then t' else s.core.streamAt j := fun j => by
    rw [hu, State.core_fall, ← hat j]
    rfl
  refine ⟨?_, ?_, ?_, fun j hj => ?_, fun i hi => ?_⟩
  · rw [hv, KMap.get_put_self]
  · rw [hcore, if_pos rfl]
    simp [t', hq]
  · rw [hcore, if_pos rfl]
  · rw [hcore, if_neg hj]
  · rw [hv, KMap.get_put_other _ _ _ hi, State.ownVec, if_neg (by simp [hl])]

/-! ### An output stream as the destination (R189, R191, R192) -/

theorem State.vecOut_wrong_way (h : s.streamOf r = some (n, t)) (ho : t.output = false) : s.vecOut r = .bad .streamDir 0 0 := by
  simp [State.vecOut, h, ho]

theorem State.vecOut_ended (h : s.streamOf r = some (n, t)) (ho : t.output = true) (ht : t.total ≤ t.taken) : s.vecOut r = .bad .streamEnd 0 0 := by
  simp [State.vecOut, h, ho, ht]

theorem State.vecOut_full (h : s.streamOf r = some (n, t)) (ho : t.output = true) (ht : t.taken < t.total) (hq : 8 ≤ t.fifo.length) : s.vecOut r = .stall := by
  simp [State.vecOut, h, ho, Nat.not_le.2 ht, hq]

theorem State.vecOut_fault (h : s.streamOf r = some (n, t)) (ho : t.output = true) (ht : t.taken < t.total) (hq : t.fifo.length < 8) {c : Cause} {a y : Nat}
    (hs : s.outStep t 0 = .error (.bad c a y)) : s.vecOut r = .bad c a y := by
  simp [State.vecOut, h, ho, Nat.not_le.2 ht, Nat.not_le.2 hq, hs]

theorem State.vecOut_room (h : s.streamOf r = some (n, t)) (ho : t.output = true) (ht : t.taken < t.total) (hq : t.fifo.length < 8)
    (hs : ∃ x, s.outStep t 0 = .ok x) : s.vecOut r = .ok 0 := by
  obtain ⟨x, hx⟩ := hs
  simp [State.vecOut, h, ho, Nat.not_le.2 ht, Nat.not_le.2 hq, hx]

/-- A core whose output stream has taken an entry, and its generator after it. -/
def Core.takeEntry (n : Nat) (t : Stream) (seed : Nat) (k : Core) : Core := { k with seed := BitVec.ofNat 64 seed, streams := k.streams.put n t }

/-- An output stream with one entry more. -/
def Stream.append (t : Stream) (v : Nat) (ps : List (Nat × Nat × Nat)) (b : Nat) : Stream :=
  { t with fifo := t.fifo ++ [BitVec.ofNat 256 v], outs := t.outs ++ [(ps, b)], taken := t.taken + 1 }

theorem State.setVec_of_stream (hl : s.cx.long = false) (h : s.streamOf r = some (n, t)) {v : Nat} {ps : List (Nat × Nat × Nat)} {b seed : Nat}
    (hs : s.outStep t v = .ok (ps, b, seed)) : s.setVec r v = s.updCurCore (Core.takeEntry n (t.append v ps b) seed) := by
  rw [State.setVec, if_neg (by simp [hl]), h]
  simp only [hs]
  rfl

/-- The stream takes an entry with what its step stores, and no register changes (R191, R192). -/
theorem State.moved_to_stream {va v : Nat} (hl : s.cx.long = false) (ha : s.streamOf va = none) (h : s.streamOf r = some (n, t))
    {ps : List (Nat × Nat × Nat)} {b seed : Nat} (hs : s.outStep t v = .ok (ps, b, seed)) :
    let u := s.moved va r v
    (u.core.streamAt n).fifo = t.fifo ++ [BitVec.ofNat 256 v] ∧ (u.core.streamAt n).outs = t.outs ++ [(ps, b)] ∧ (u.core.streamAt n).taken = t.taken + 1 ∧
      u.core.seed = BitVec.ofNat 64 seed ∧ ∀ q, u.ownVec q = s.ownVec q := by
  intro u
  let p : State := s.setSeed s.seed
  have hseed : { s.core with seed := BitVec.ofNat 64 s.seed } = s.core := by
    have : BitVec.ofNat 64 s.seed = s.core.seed := BitVec.eq_of_toNat_eq (by simp [State.seed])
    rw [this]
  have hsame : SameCores s p.cores := sameCores_put s (coreOfCtx s.cur) hseed
  have hp : p.streamOf r = some (n, t) := (State.streamOf_congr (s := s) (t := p) rfl rfl (hsame (coreOfCtx s.cur)) r).trans h
  have hstep : p.outStep t v = .ok (ps, b, seed) := (State.outStep_cores hsame t v).trans hs
  have hu : u = (p.updCurCore (Core.takeEntry n (t.append v ps b) seed)).fall := by
    show (((s.popStreams [va]).setSeed s.seed).setVec r v).fall = _
    rw [State.popStreams_of_unbound (by simpa using ha), State.setVec_of_stream (s := p) hl hp hstep]
  have hcore : u.core = { Core.takeEntry n (t.append v ps b) seed p.core with retired := s.rtime, hung := false } := by
    rw [hu, State.core_fall, State.core_updCurCore]
    rfl
  have hat : u.core.streamAt n = t.append v ps b := by
    rw [hcore]
    exact KMap.get_put_self _ _ _ _
  refine ⟨?_, ?_, ?_, ?_, fun q => ?_⟩
  · rw [hat]
    rfl
  · rw [hat]
    rfl
  · rw [hat]
    rfl
  · rw [hcore]
    rfl
  · rw [hu, State.ownVec_of_fall]
    rfl

end

/-- With a value from its source, and room in its destination, the register moves. -/
theorem exec_vmov_values {s : State} {f : FmtAV} (ha : s.accepts (.vmov f)) (hl : s.cx.long = false) (hme : f.me = 0) {v w : Nat} (hv : v < 2 ^ 256)
    (hsrc : s.vecIn f.va.toNat = .ok v) (hdst : s.vecOut f.vd.toNat = .ok w) : exec (.vmov f) s = .next (s.moved f.va.toNat f.vd.toNat v) := by
  rw [exec_vmov ha hl hme, State.withVecs_values hsrc hdst, List.getD_cons_zero, Nat.mod_eq_of_lt hv]

/-- Settles O31: `vmov` reads its source and tests its destination, and what each of them gives decides. -/
theorem streamsFeedVectorOperands : Obligations.StreamsFeedVectorOperands := by
  unfold Obligations.StreamsFeedVectorOperands
  intro f s ha hl hme
  have hexec := exec_vmov ha hl hme
  refine ⟨fun n t hsrc hdst ho => ⟨fun v q hq => ?_, fun c a hq hf => ?_, fun hq hf ht => ?_, fun hq hf ht => ?_⟩,
    fun n t hsrc hdst => ⟨fun ho => ?_, fun ho ht => ?_, fun ho ht => ⟨fun hq => ?_, fun hq => ⟨fun c a y hs => ?_, fun ps b seed hroom hs => ?_⟩⟩⟩,
    fun n t hsrc ho => ?_⟩
  · exact ⟨_, exec_vmov_values ha hl hme v.isLt (State.vecIn_entry hl hsrc ho hq) (State.vecOut_of_unbound hdst), State.moved_from_stream hl hsrc ho hdst hq⟩
  · exact hexec.trans (State.withVecs_bad_source (State.vecIn_fault hl hsrc ho hq hf))
  · exact hexec.trans (State.withVecs_empty_source (State.vecIn_empty hl hsrc ho hq hf ht) (State.vecOut_of_unbound hdst))
  · exact hexec.trans (State.withVecs_bad_source (State.vecIn_ended hl hsrc ho hq hf ht))
  · exact hexec.trans (State.withVecs_bad_destination (State.vecIn_of_unbound hsrc) (State.vecOut_wrong_way hdst ho))
  · exact hexec.trans (State.withVecs_bad_destination (State.vecIn_of_unbound hsrc) (State.vecOut_ended hdst ho ht))
  · exact hexec.trans (State.withVecs_full_destination (State.vecIn_of_unbound hsrc) (State.vecOut_full hdst ho ht hq))
  · exact hexec.trans (State.withVecs_bad_destination (State.vecIn_of_unbound hsrc) (State.vecOut_fault hdst ho ht hq hs))
  · exact ⟨_, exec_vmov_values ha hl hme (State.ownVec_lt hl _) (State.vecIn_of_unbound hsrc) (State.vecOut_room hdst ho ht hq hroom),
      State.moved_to_stream hl hsrc hdst hs⟩
  · exact hexec.trans (State.withVecs_bad_source (State.vecIn_wrong_way hl hsrc ho))

end Sys2Proof.Machine
end

section
/-! SUPPORT. Stores and reductions that leave, atomics that hold, and releases: R187, R206 to R215, R223, R308, R312 to R320, R323, R334, R335. -/

namespace Sys2Proof.Machine

/-! ### What has been checked (R116, R312) -/

/-- The place of an address in its line, after translation: pages are whole lines, and what lies outside a window starts one. -/
theorem leafGpa_mod_line (e : Pte) (va lvl tile : Nat) : leafGpa e va lvl tile % 128 = va % 128 ∨ leafGpa e va lvl tile % 128 = 0 := by
  have hlow : va % 2 ^ levelShift lvl % 128 = va % 128 :=
    Nat.mod_mod_of_dvd va (show 2 ^ 7 ∣ 2 ^ levelShift lvl from Nat.pow_dvd_pow 2 (by unfold levelShift; omega))
  unfold leafGpa tileGpa
  simp only
  split_ifs <;> omega

theorem State.translate_mod_line {s : State} {core tag va g : Nat} {acc : Acc} {e : Pte} (h : s.translate core tag va acc = .ok g e) :
    g % 128 = va % 128 ∨ g % 128 = 0 := by
  have hleaf : ∃ lvl tile, g = leafGpa e va lvl tile := by
    unfold State.translate at h
    simp only at h
    repeat' split at h
    all_goals cases h
    all_goals exact ⟨_, _, rfl⟩
  obtain ⟨lvl, tile, rfl⟩ := hleaf
  exact leafGpa_mod_line e va lvl tile

theorem State.translate_of_checkPage {s : State} {ctx va size g : Nat} {acc : Acc} {vector : Bool} {e : Pte} (h : s.checkPage ctx va size acc vector = .ok g e) :
    s.translate (coreOfCtx ctx) (s.ctxOf ctx).tag va acc = .ok g e := by
  unfold State.checkPage at h
  simp only at h
  split at h
  · cases h
  · cases h
  next g' e' htr =>
    split at h
    · cases h
    · cases h
      exact htr

/-- An access that passes its checks is aligned, and its GPA is that of its VA. -/
theorem State.translate_of_checkAccess {s : State} {ctx va size align g : Nat} {acc : Acc} {vector : Bool} {e : Pte}
    (h : s.checkAccess ctx va size align acc vector = .ok g e) : va % align = 0 ∧ s.translate (coreOfCtx ctx) (s.ctxOf ctx).tag va acc = .ok g e := by
  unfold State.checkAccess at h
  split at h
  · cases h
  split at h
  · cases h
  split at h
  · cases h
  next halign =>
  refine ⟨not_not.1 halign, ?_⟩
  cases hpage : s.checkPage ctx va (min size (0x10000 - va % 0x10000)) acc vector with
  | bad c y => simp [hpage] at h
  | wait => simp [hpage] at h
  | ok g' e' =>
    have hge : g' = g ∧ e' = e := by
      simp only [hpage] at h
      split at h
      · simpa using h
      · split at h
        · simpa using h
        next hn => exact absurd h (hn g e)
    obtain ⟨rfl, rfl⟩ := hge
    exact State.translate_of_checkPage hpage

/-- A naturally aligned access of a few bytes lies in one line, so that it is one piece (R112, R312). -/
theorem State.vaPieces_of_checkAccess {s : State} {ctx va size g : Nat} {acc : Acc} {vector : Bool} {e : Pte} (hsize : size = 1 ∨ size = 2 ∨ size = 4 ∨ size = 8)
    (h : s.checkAccess ctx va size size acc vector = .ok g e) (u : State) : u.vaPieces va size g acc = [(va, g, size)] := by
  obtain ⟨halign, htr⟩ := State.translate_of_checkAccess h
  have hline := State.translate_mod_line htr
  have hpage : min size (0x10000 - va % 0x10000) = size := by rcases hsize with rfl | rfl | rfl | rfl <;> omega
  have hfits : size ≤ 128 - gpaKey g % 128 := by
    unfold gpaKey
    rcases hsize with rfl | rfl | rfl | rfl <;> omega
  have hcut : u.cutGo (size / 128 + 1) va g size = [(va, g, size)] := by
    rw [State.cutGo]
    exact if_pos hfits
  rw [State.vaPieces, if_pos hpage, State.homeCuts, List.flatMap_singleton]
  simp only [hcut, ite_self]

/-! ### UNACK and the flow of a bundle (R187, R197, R207) -/

/-- What one more outstanding store of a reach adds to UNACK (R187). -/
def unackUnit (reach : Nat) : Nat := match reach with
  | 1 => 1
  | 2 => 2 ^ 16
  | 3 => 2 ^ 32
  | _ => 0

theorem Ctx.unack_unackUp (c : Ctx) (reach : Nat) : (c.unackUp reach).unack = c.unack + unackUnit reach := by
  rcases reach with _ | _ | _ | _ | n
  case zero => exact (Nat.add_zero c.unack).symm
  case succ.succ.succ.succ => exact (Nat.add_zero c.unack).symm
  all_goals
    simp only [Ctx.unackUp, unackUnit, Ctx.unack]
    omega

/-- A store that leaves changes the fields of UNACK, and nothing else of its context. -/
theorem Ctx.unackUp_keeps (c : Ctx) (reach : Nat) : ({ c.unackUp reach with unFld := c.unFld, unWaf := c.unWaf, unDom := c.unDom } : Ctx) = c := by
  unfold Ctx.unackUp
  split <;> rfl

/-- The loop counters after retirement: the innermost one falls, or is cleared, at the end of its body (R197). -/
theorem Ctx.lc_retireTo (c : Ctx) (npc : Word) : (c.retireTo npc).lc =
    if c.depthOf ≠ 0 ∧ c.pc.toNat = c.bodyLast (c.depthOf - 1) ∧ npc = c.pc + 8 then
      c.lc.put (c.depthOf - 1) (if 1 < lcCount (c.lcAt (c.depthOf - 1)) then c.lcAt (c.depthOf - 1) - 1 else 0) else c.lc := by
  unfold Ctx.retireTo
  simp only
  by_cases h0 : c.depthOf = 0
  · simp [h0]
  · by_cases hend : c.pc.toNat = c.bodyLast (c.depthOf - 1) ∧ npc = c.pc + 8
    · rw [if_neg h0, if_pos hend, if_pos (show c.depthOf ≠ 0 ∧ _ from ⟨h0, hend⟩)]
      by_cases hagain : 1 < lcCount (c.lcAt (c.depthOf - 1))
      · rw [if_pos hagain, if_pos hagain]
      · rw [if_neg hagain, if_neg hagain]
    · rw [if_neg h0, if_neg hend, if_neg (fun h => hend h.2)]

theorem State.lc_fall_of_flow {s t : State} (h : t.cx.flow = s.cx.flow) : t.fall.cx.lc = s.fall.cx.lc := by
  have hflow : ∀ (c : Ctx) (npc : Word), (c.flow.retireTo npc).lc = (c.retireTo npc).lc := fun c npc => by
    rw [Ctx.lc_retireTo, Ctx.lc_retireTo]
    rfl
  have hpc : t.cx.pc = s.cx.pc := (congrArg Ctx.pc h :)
  rw [State.fall_eq, State.fall_eq, State.cx_retire, State.cx_retire, hpc]
  show (t.cx.retireTo _).lc = (s.cx.retireTo _).lc
  rw [← hflow t.cx, h, hflow]

/-! ### Accesses that set out (R205) -/

section
variable {s : State} {a : Access}

/-- An access of the issuing context as it stands in flight. -/
def State.flightOf (s : State) (a : Access) : Access :=
  { a with id := s.nextAcc, ctx := s.cur, firing := s.cx.firing, tag := s.tag, level := s.level,
           reach := (a.runs.map (fun p => s.reachGpa p.1)).foldl max 0, cyc := s.cyc, since := s.rtime,
           uncached := s.uncachedAt (coreOfCtx s.cur) s.tag a.va a.kind.acc,
           shadow := s.cx.pairCtx.isSome && tileX (tileOfCtx s.cur) % 2 = 1 && s.reachGpa a.gpa ≠ 0, pairOf := s.cx.pairFiring }

theorem sentBy_flightOf {t : State} (hnet : t.net = s.net ++ [s.flightOf a]) (hr : a.result = none) : sentBy s t a.kind [s.flightOf a] := by
  refine ⟨hnet, fun b hb => ?_⟩
  rw [List.mem_singleton.1 hb]
  exact ⟨rfl, rfl, rfl, hr⟩

/-- A bundle that holds for its access changes nothing else. -/
theorem holdFor_sends (hr : a.result = none) : sentBy s (s.holdFor a) a.kind [s.flightOf a] ∧ (s.holdFor a).cx.hold = some (s.flightOf a).id ∧
    (s.holdFor a).cx.pc = s.cx.pc ∧ quiet s (s.holdFor a) := by
  obtain ⟨b, ⟨hnet, hb⟩, -, -, -, hhold, hquiet⟩ := holdFor_effects s a hr
  have hflight : (s.holdFor a).net = s.net ++ [s.flightOf a] := rfl
  obtain rfl : s.flightOf a = b := by simpa using hflight.symm.trans hnet
  refine ⟨sentBy_flightOf hflight hr, hhold, ?_, hquiet⟩
  rw [State.holdFor, State.cx_stallOn, State.cx_upd]
  rfl

theorem State.cx_issueStore (s : State) (a : Access) : (s.issueStore a).cx = s.cx.unackUp (s.reachGpa a.gpa) := State.cx_upd _ _

theorem State.flow_issueStore (s : State) (a : Access) : (s.issueStore a).cx.flow = s.cx.flow := by
  rw [State.cx_issueStore]
  exact (congrArg Ctx.flow (s.cx.unackUp_keeps (s.reachGpa a.gpa)) :)

/-- A store or reduction that retires as it leaves: one access in flight, counted in UNACK by its reach. -/
theorem issueStore_fall_sends (hr : a.result = none) : sentBy s (s.issueStore a).fall a.kind [s.flightOf a] ∧
    (s.issueStore a).fall.cx.unack = s.cx.unack + unackUnit (s.reachGpa a.gpa) ∧ (s.issueStore a).fall.cx.pc = s.fall.cx.pc ∧
    (s.issueStore a).fall.cx.lc = s.fall.cx.lc ∧ quiet s (s.issueStore a).fall := by
  have hflow := s.flow_issueStore a
  have hseen : (s.issueStore a).cx.seen = s.cx.seen := by
    rw [State.cx_issueStore]
    exact (congrArg Ctx.seen (s.cx.unackUp_keeps (s.reachGpa a.gpa)) :)
  refine ⟨sentBy_flightOf rfl hr, ?_, State.pc_fall_of_flow hflow, State.lc_fall_of_flow hflow,
    quiet_fall rfl (quiet_of_seen hseen (fun _ => rfl) (othersKept_of fun i hi => State.ctxOf_updCtx_other (s.launchAccess a) _ hi) rfl)⟩
  rw [State.cxPart_fall _ Ctx.unack (fun _ => rfl), State.cx_issueStore, Ctx.unack_unackUp]

end

/-! ### Scalar stores (R312, R314) -/

section
variable {s : State} {va size align data : Nat} {vector : Bool} {kind : AccKind} {k : State → Out}

theorem State.storeBytes_answered {v : Nat} (h : s.cx.reply = some (.value v)) : s.storeBytes va size align data vector kind k = k s := by
  simp only [State.storeBytes, h]

theorem State.storeBytes_failed {c : Cause} {n : Nat} (h : s.cx.reply = some (.failed c n)) (hc : c < 0x30 ∨ 0x4F < c) :
    s.storeBytes va size align data vector kind k = s.faultC c va (accSyndrome c .write size 0) := by
  have hn : ¬(0x30 ≤ c ∧ c ≤ 0x4F) := fun hin => hc.elim (fun hlo => Nat.not_le.2 hlo hin.1) (fun hhi => Nat.not_le.2 hhi hin.2)
  simp only [State.storeBytes, h, if_neg hn]

theorem State.storeBytes_holds (h : s.cx.reply = none) (hh : s.cx.hold.isSome = true) : s.storeBytes va size align data vector kind k = .next (s.stallOn 0) := by
  simp only [State.storeBytes, h, hh, if_true]

section
variable {g : Nat} {e : Pte} (hreply : s.cx.reply = none) (hhold : s.cx.hold = none)
include hreply hhold

theorem State.storeBytes_refused {c : Cause} {y : Nat} (h : s.checkAccess s.cur va size align .write vector = .bad c y) :
    s.storeBytes va size align data vector kind k = s.faultC c va y := by
  simp only [State.storeBytes, hreply, hhold, h]
  rfl

theorem State.storeBytes_attaches (h : s.checkAccess s.cur va size align .write vector = .ok g e) (hatt : isDbgAttach g = true) :
    s.storeBytes va size align data vector kind k = .next (s.holdFor { kind := kind, va := va, gpa := g, size := size, data := data }) := by
  simp only [State.storeBytes, hreply, hhold, h, hatt]
  rfl

variable (hsize : size = 1 ∨ size = 2 ∨ size = 4 ∨ size = 8) (hok : s.checkAccess s.cur va size size .write vector = .ok g e) (hatt : isDbgAttach g = false)
include hsize hok hatt

/-- A store that passes its checks is one access: it waits for room in UNACK, and leaves. -/
theorem State.storeBytes_ready : s.storeBytes va size size data vector kind k =
    if s.unackFull g = true then .next (s.stallOn 0) else k (s.issueStore { kind := kind, va := va, gpa := g, size := size, data := data % 2 ^ (8 * size) }) := by
  simp only [State.storeBytes, hreply, hhold, hok, hatt, State.vaPieces_of_checkAccess hsize hok s, List.any_cons, List.any_nil, Bool.or_false]
  rfl

end
end

theorem exec_storeForm {i : Instr} {s : State} {l : StoreForm} (h : storeForm i s = some l) (ha : s.accepts i) :
    exec i s = s.store l.rt l.va l.size ∧ (l.size = 1 ∨ l.size = 2 ∨ l.size = 4 ∨ l.size = 8) := by
  unfold storeForm at h
  split at h
  case h_9 => cases h
  all_goals
    cases h
    simp only [exec]
    exact ⟨State.slotC_of_accepts ha _, by simp⟩

/-- Settles O19: a scalar store finds its answer, waits for it, or is checked, and then leaves as one access. -/
theorem storesLeaveAndRetire : Obligations.StoresLeaveAndRetire := by
  unfold Obligations.StoresLeaveAndRetire
  intro i s l hl ha
  obtain ⟨hexec, hsize⟩ := exec_storeForm hl ha
  rw [hexec, State.store]
  refine ⟨fun v hv => State.storeBytes_answered hv, fun c n hc hn => State.storeBytes_failed hc hn, State.storeBytes_holds, fun hr hh => ⟨fun c y => State.storeBytes_refused hr hh,
    fun g e => State.storeBytes_attaches hr hh, fun g e hok hatt => ?_⟩⟩
  rw [State.storeBytes_ready hr hh hsize hok hatt]
  refine ⟨fun hfull => if_pos hfull, fun hroom => ?_⟩
  let a : Access := { kind := .store, va := l.va, gpa := g, size := l.size, data := (s.x l.rt).toNat % 2 ^ (8 * l.size) % 2 ^ (8 * l.size) }
  obtain ⟨⟨hnet, -⟩, hunack, hpc, hlc, hx, -, -, hfstat, -, hmem⟩ := issueStore_fall_sends (s := s) (a := a) rfl
  have hkeep := s.cx.unackUp_keeps (s.reachGpa g)
  refine ⟨_, s.flightOf a, if_neg (ne_true_of_eq_false hroom), hnet, rfl, rfl, rfl, rfl, Nat.mod_mod _ _, rfl, rfl, rfl, rfl, hunack, hpc, hlc, hx, fun r => ?_, ?_, hfstat,
    fun c hc => ?_, rfl, rfl, hmem⟩
  · rw [State.cxPart_fall _ Ctx.v (fun _ => rfl), State.cx_issueStore]
    exact (congrArg (fun c : Ctx => c.v.get 0 r) hkeep :)
  · rw [State.cxPart_fall _ Ctx.k (fun _ => rfl), State.cx_issueStore]
    exact (congrArg Ctx.k hkeep :)
  · exact ((s.issueStore a).ctxOf_retire_other _ hc).trans (State.ctxOf_updCtx_other (s.launchAccess a) _ hc)

/-! ### Atomics and reductions (R223, R334, R335) -/

/-- The atomics of one or two words' size (R334). -/
theorem sizeOfSz_cases (sz : BitVec 1) : sizeOfSz sz = 4 ∨ sizeOfSz sz = 8 := by
  unfold sizeOfSz
  split
  · exact .inr rfl
  · exact .inl rfl

/-- A loaded number of a register's size, as a register holds it (R314). -/
theorem sextWord_eq_signExtend {n v : Nat} (hn : n = 4 ∨ n = 8) : sextWord (8 * n) v = (BitVec.ofNat (8 * n) v).signExtend 64 := by
  have hmsb : ∀ w : BitVec (8 * n), w.msb = decide (2 ^ (8 * n - 1) ≤ w.toNat) := fun w => BitVec.msb_eq_decide w
  apply BitVec.eq_of_toNat_eq
  rw [BitVec.toNat_signExtend, hmsb, sextWord]
  rcases hn with rfl | rfl
  · by_cases hneg : v % 4294967296 < 2147483648
    · simp [hneg, Nat.not_le.2 hneg]
    · simp [hneg, Nat.not_lt.1 hneg]
      omega
  · simp

section
variable {s : State} {f : FmtCA} {op : AmoOp} {n : Nat}

theorem exec_atomicForm {i : Instr} {sg : Bool} (h : atomicForm i = some (f, op, n, sg)) (ha : s.accepts i) :
    exec i s = s.atomic f op sg ∧ (n = sizeOfSz f.sz ∨ n = 4) ∧ n = amoSize op f.sz := by
  unfold atomicForm at h
  split at h
  case h_12 => cases h
  all_goals
    cases h
    simp only [exec]
    exact ⟨State.slotC_of_accepts ha _, by simp [sizeOfSz], rfl⟩

theorem exec_reductionForm {i : Instr} (h : reductionForm i = some (f, op, n)) (ha : s.accepts i) : exec i s = s.reduce f op ∧ n = amoSize op f.sz := by
  unfold reductionForm at h
  split at h
  case h_4 => cases h
  all_goals
    cases h
    simp only [exec]
    exact ⟨State.slotC_of_accepts ha _, rfl⟩

end

/-- Settles O29: an atomic holds for the old value from its home; a reduction leaves as a store does. -/
theorem atomicsAndReductionsIssue : Obligations.AtomicsAndReductionsIssue := by
  unfold Obligations.AtomicsAndReductionsIssue
  refine ⟨fun i s f op n sg hi ha => ?_, fun i s f op n hi ha => ?_⟩
  · obtain ⟨hexec, hform, hn⟩ := exec_atomicForm hi ha
    have hsize : n = 4 ∨ n = 8 := hform.elim (fun h => h ▸ sizeOfSz_cases f.sz) .inl
    rw [hexec, State.atomic, ← hn]
    refine ⟨fun v hv _ => ?_, fun c m hc => ?_, fun hr hh => ?_, fun hr hh => ⟨fun c y hbad => ?_, fun g e hok => ?_⟩⟩
    · simp only [State.holding, hv, State.result_eq, sextWord_eq_signExtend hsize]
    · simp only [State.holding, hc]
    · obtain ⟨id, hid⟩ := Option.isSome_iff_exists.1 hh
      simp only [State.holding, hr, hid]
    · simp only [State.holding, hr, hh, hbad]
    · let a : Access :=
        { kind := .atomic op, va := (s.x f.base).toNat, gpa := g, size := n, data := (s.x f.xb).toNat % 2 ^ (8 * n), data2 := (s.x f.xc).toNat % 2 ^ (8 * n) }
      obtain ⟨hsent, hhold, hpc, hquiet⟩ := holdFor_sends (s := s) (a := a) rfl
      refine ⟨_, _, ?_, hsent, rfl, rfl, rfl, rfl, hhold, hpc, hquiet⟩
      simp only [State.holding, hr, hh, hok]
      rfl
  · obtain ⟨hexec, hn⟩ := exec_reductionForm hi ha
    rw [hexec, State.reduce, ← hn]
    refine ⟨fun c y hbad => ?_, fun g e hok => ⟨fun hfull => ?_, fun hroom => ?_⟩⟩
    · simp only [hbad]
    · simp only [hok, hfull, if_true]
    · let a : Access := { kind := .reduce op, va := (s.x f.base).toNat, gpa := g, size := n, data := (s.x f.xb).toNat % 2 ^ (8 * n) }
      obtain ⟨hsent, hunack, hpc, -, hquiet⟩ := issueStore_fall_sends (s := s) (a := a) rfl
      refine ⟨_, _, ?_, hsent, rfl, rfl, rfl, hunack, hpc, hquiet⟩
      simp only [hok, hroom, Bool.false_eq_true, if_false]
      rfl

/-! ### Releases (R210, R213, R215) -/

/-- The home of a place depends on the device's number, the capacity stripes and the live slices (R112, R114). -/
theorem State.homeOf_congr {s u : State} (hloith : u.loith = s.loith) (hstripes : u.stripes = s.stripes) (hlive : ∀ f, (u.hubOf f).liveSlices = (s.hubOf f).liveSlices)
    (g : Nat) : u.homeOf g = s.homeOf g := by
  have hslice : ∀ f i, u.sliceLive f i = s.sliceLive f i := fun f i => by rw [State.sliceLive, State.sliceLive, hlive]
  have hprobe : ∀ fields n k j, u.probeSlice fields n k j = s.probeSlice fields n k j := fun fields n k => by
    induction k with
    | zero => exact fun _ => rfl
    | succ k ih => exact fun j => by rw [State.probeSlice, State.probeSlice, hslice, ih]
  have hchip : ∀ o, u.chipOf o = s.chipOf o := fun o => by rw [State.chipOf, State.chipOf, State.stripeOf, State.stripeOf, hstripes]
  have hhbm : ∀ o, u.homeHbm o = s.homeHbm o := fun o => by simp only [State.homeHbm, hprobe]
  have hcap : ∀ o, u.homeCap o = s.homeCap o := fun o => by simp only [State.homeCap, hprobe, hchip]
  rw [State.homeOf, State.homeOf, State.gpaLocal, State.gpaLocal, hloith, hhbm, hcap]

/-- Between two states only contexts and accesses in flight have changed, and of the contexts only what waits for a partner and what releases left out. -/
structure OnlyCounted (s u : State) : Prop where
  rest : ({ u with ctxs := s.ctxs, net := s.net } : State) = s
  ctx : ∀ i, (u.ctxOf i).unread = (s.ctxOf i).unread

theorem State.walk_ctxs (s : State) (l : KMap Ctx) (n : List Access) (va tag : Nat) (acc : Acc) :
    ∀ fuel frame lvl, ({ s with ctxs := l, net := n } : State).walk va tag acc fuel frame lvl = s.walk va tag acc fuel frame lvl
  | 0, _, _ => rfl
  | fuel + 1, frame, lvl => by
    have ih := State.walk_ctxs s l n va tag acc fuel
    unfold State.walk
    simp only [ih]
    rfl

theorem State.translate_ctxs (s : State) (l : KMap Ctx) (n : List Access) (core tag va : Nat) (acc : Acc) :
    ({ s with ctxs := l, net := n } : State).translate core tag va acc = s.translate core tag va acc := by
  unfold State.translate
  simp only [State.walk_ctxs]
  rfl

namespace OnlyCounted

variable {s u : State} (h : OnlyCounted s u)
include h

theorem part {α : Type} (p : State → α) (hp : ∀ v : State, p { v with ctxs := s.ctxs, net := s.net } = p v) : p u = p s := by
  rw [← hp u, h.rest]

theorem cx : u.cx.unread = s.cx.unread := by
  rw [State.cx, State.cx, h.part State.cur (fun _ => rfl)]
  exact h.ctx s.cur

theorem checkAccess (ctx va size align : Nat) (acc : Acc) (vector : Bool) : u.checkAccess ctx va size align acc vector = s.checkAccess ctx va size align acc vector := by
  have htag : (u.ctxOf ctx).tag = (s.ctxOf ctx).tag := (congrArg Ctx.tag (h.ctx ctx) :)
  have hlevel : (u.ctxOf ctx).level = (s.ctxOf ctx).level := (congrArg Ctx.level (h.ctx ctx) :)
  have hfiring : (u.ctxOf ctx).firing = (s.ctxOf ctx).firing := (congrArg Ctx.firing (h.ctx ctx) :)
  have htr : ∀ core tag va acc, u.translate core tag va acc = s.translate core tag va acc := fun core tag va acc =>
    h.part (fun v => v.translate core tag va acc) (fun v => v.translate_ctxs _ _ _ _ _ _)
  have howner : ∀ tag, u.partOfTag tag = s.partOfTag tag := fun tag => h.part (fun v => v.partOfTag tag) (fun _ => rfl)
  have hpart : ∀ p, u.partOf p = s.partOf p := fun p => h.part (fun v => v.partOf p) (fun _ => rfl)
  have hgroup : ∀ f, (u.hubOf f).group = (s.hubOf f).group := fun f => h.part (fun v => (v.hubOf f).group) (fun _ => rfl)
  have hentry : ∀ f o, u.entryOwner f o = s.entryOwner f o := fun f o => by simp only [State.entryOwner, hgroup]
  have hcontrol : ∀ f o n tag level, u.controlRefuses f o n acc vector tag level = s.controlRefuses f o n acc vector tag level := fun f o n tag level => by
    simp only [State.controlRefuses, howner, hpart, hentry]
  have hdbg : ∀ i, u.dbgOf i = s.dbgOf i := fun i => h.part (fun v => v.dbgOf i) (fun _ => rfl)
  have hgpa : ∀ g n tag level, u.gpaRefuses g n acc vector ctx tag level = s.gpaRefuses g n acc vector ctx tag level := fun g n tag level => by
    simp only [State.gpaRefuses, hcontrol, hdbg, hfiring]
  have hpage : ∀ va n, u.checkPage ctx va n acc vector = s.checkPage ctx va n acc vector := fun va n => by
    simp only [State.checkPage, htr, htag, hlevel, hgpa]
  simp only [State.checkAccess, hpage]

theorem homeOf (g : Nat) : u.homeOf g = s.homeOf g :=
  State.homeOf_congr (h.part State.loith (fun _ => rfl)) (h.part State.stripes (fun _ => rfl)) (fun f => h.part (fun v => (v.hubOf f).liveSlices) (fun _ => rfl)) g

theorem unackFull (g : Nat) : u.unackFull g = s.unackFull g := by
  have hreach : u.reachGpa g = s.reachGpa g := by rw [State.reachGpa, State.reachGpa, h.homeOf, h.part State.cur (fun _ => rfl)]
  have hmask : u.masked 0 = s.masked 0 := h.part (fun v => v.masked 0) (fun _ => rfl)
  have hat : ∀ r, u.cx.unackAt r = s.cx.unackAt r := fun r => (congrArg (fun c : Ctx => c.unackAt r) h.cx :)
  simp only [State.unackFull, hreach, hmask, hat]

end OnlyCounted

/-- The state in which a release acts that waits for nothing more: it has counted the stores that it leaves out, and itself if it is widened. -/
def State.releasedAt (s : State) (scope need : Nat) : State := (if need ≤ scope then s else s.upd (fun c => c.countScope 1)).countScope (max scope need)

theorem State.releaseThen_done {s : State} {scope need : Nat} (h : s.storesDone (max scope need) = true) (wait : Cause) (k : State → Out) :
    s.releaseThen scope need wait k = k (s.releasedAt scope need) := if_pos h

theorem State.releaseThen_waits {s : State} {scope need : Nat} (h : s.storesDone (max scope need) = false) (wait : Cause) (k : State → Out) :
    s.releaseThen scope need wait k = .next (s.stallOn wait) := if_neg (ne_true_of_eq_false h)

theorem State.onlyCounted_releasedAt (s : State) (scope need : Nat) : OnlyCounted s (s.releasedAt scope need) := by
  have hread : ReadMade s (s.releasedAt scope need) := by
    refine ReadMade.trans ?_ (State.readMade_countScope _ _)
    split
    · exact ReadMade.refl s
    · exact .of_updCtx s s.cur rfl
  refine ⟨?_, hread.ctx⟩
  unfold State.releasedAt
  split <;> rfl

/-- A release store that may leave waits for the stores before it, and then leaves as a store. -/
theorem exec_stRel {s : State} {f : FmtCMS} {g : Nat} {e : Pte} (ha : s.accepts (.stRel f)) :
    let n := if f.sz = 1 then 8 else 4
    let va := (s.x f.base + BitVec.ofNat 64 n * f.disp.signExtend 64).toNat
    let sc := max f.sc.toNat (homeScope (s.reachGpa g))
    s.checkAccess s.cur va n n .write false = .ok g e → s.unackFull g = false →
      (s.storesDone sc = false → exec (.stRel f) s = .next (s.stallOn .waitFence)) ∧
      (s.storesDone sc = true → exec (.stRel f) s =
        (s.releasedAt f.sc.toNat (homeScope (s.reachGpa g))).storeBytes va n n ((s.x f.rt).toNat % 2 ^ (8 * n)) false (.release sc) fun s => .next s.fall) := by
  intro n va sc hok hroom
  have hn : sizeOfSz f.sz = n := rfl
  have hva : s.addrCMS f = va := by
    unfold State.addrCMS
    simp only [va, n]
    split <;> rfl
  have hexec : exec (.stRel f) s = s.releaseThen f.sc.toNat (homeScope (s.reachGpa g)) .waitFence fun u =>
      u.storeBytes va n n ((s.x f.rt).toNat % 2 ^ (8 * n)) false (.release sc) fun s => .next s.fall := by
    refine (show execStRel f s = _ from State.slotC_of_accepts ha _).trans ?_
    simp only [hn, hva, hok, hroom, Bool.false_eq_true, if_false]
    rfl
  rw [hexec]
  exact ⟨fun hw => State.releaseThen_waits hw _ _, fun hd => State.releaseThen_done hd _ _⟩

/-- A release store that waits for nothing more leaves as a store of the wider scope (R210, R213, R215). -/
theorem exec_stRel_leaves {s : State} {f : FmtCMS} {g : Nat} {e : Pte} (ha : s.accepts (.stRel f)) (hr : s.cx.reply = none) (hh : s.cx.hold = none) (hatt : isDbgAttach g = false)
    (hroom : s.unackFull g = false) :
    let n := if f.sz = 1 then 8 else 4
    let va := (s.x f.base + BitVec.ofNat 64 n * f.disp.signExtend 64).toNat
    let sc := max f.sc.toNat (homeScope (s.reachGpa g))
    s.checkAccess s.cur va n n .write false = .ok g e → s.storesDone sc = true → ∃ t a, exec (.stRel f) s = .next t ∧ a ∈ t.net ∧ a.id = s.nextAcc ∧ a.kind = .release sc ∧
      a.gpa = g ∧ a.size = n ∧ a.data = (s.x f.rt).toNat % 2 ^ (8 * n) ∧ t.cx.pc = s.fall.cx.pc ∧ (∀ r, t.x r = s.x r) ∧ ∀ b, t.mem.read b = s.mem.read b := by
  intro n va sc hok hdone
  have hsize : n = 1 ∨ n = 2 ∨ n = 4 ∨ n = 8 := .inr (.inr (sizeOfSz_cases f.sz))
  let u := s.releasedAt f.sc.toNat (homeScope (s.reachGpa g))
  have hu : OnlyCounted s u := s.onlyCounted_releasedAt _ _
  have huok : u.checkAccess u.cur va n n .write false = .ok g e := by
    rw [hu.checkAccess, hu.part State.cur (fun _ => rfl)]
    exact hok
  let a : Access := { kind := .release sc, va := va, gpa := g, size := n, data := (s.x f.rt).toNat % 2 ^ (8 * n) % 2 ^ (8 * n) }
  have hstore : exec (.stRel f) s = .next (u.issueStore a).fall := by
    rw [(exec_stRel ha hok hroom).2 hdone, State.storeBytes_ready ((congrArg Ctx.reply hu.cx :).trans hr) ((congrArg Ctx.hold hu.cx :).trans hh) hsize huok hatt,
      hu.unackFull, if_neg (ne_true_of_eq_false hroom)]
  obtain ⟨⟨hnet, -⟩, -, hpc, -, hx, -, -, -, -, hmem⟩ := issueStore_fall_sends (s := u) (a := a) rfl
  refine ⟨_, u.flightOf a, hstore, ?_, ?_, rfl, rfl, rfl, Nat.mod_mod _ _, ?_, fun r => ?_, fun b => ?_⟩
  · rw [hnet]
    exact List.mem_append_right _ List.mem_cons_self
  · exact hu.part State.nextAcc (fun _ => rfl)
  · exact hpc.trans (State.pc_fall_of_flow (congrArg Ctx.flow hu.cx :))
  · exact (hx r).trans (State.x_of_regs (congrArg Ctx.x hu.cx :) r)
  · exact (hmem b).trans (hu.part (fun v => v.mem.read b) (fun _ => rfl))

/-! ### Fences, waits and prefetches (R210, R308, R318, R319) -/

theorem execFence_of_accepts {s : State} {f : FmtCF} (ha : s.accepts (.fence f)) : exec (.fence f) s =
    if s.storesDone f.sc.toNat = true then .next ((s.setX f.xd (BitVec.ofNat 64 s.cx.fstat)).upd Ctx.clearFstat).fall else .next (s.stallOn .waitFence) :=
  (show execFence f s = _ from State.slotC_of_accepts ha _)

/-- A fence that waits for nothing more gives FSTAT and clears it. -/
theorem State.fenced_effects (s : State) (xd : BitVec 5) :
    let t := ((s.setX xd (BitVec.ofNat 64 s.cx.fstat)).upd Ctx.clearFstat).fall
    t.x xd = (if xd = 0 then 0 else BitVec.ofNat 64 s.cx.fstat) ∧ t.cx.fstat = 0 ∧ (∀ r, r ≠ xd → t.x r = s.x r) ∧ t.cx.unack = s.cx.unack ∧ t.net = s.net := by
  intro t
  let u := (s.setX xd (BitVec.ofNat 64 s.cx.fstat)).upd Ctx.clearFstat
  have hcx : u.cx = (s.setX xd (BitVec.ofNat 64 s.cx.fstat)).cx.clearFstat := State.cx_upd _ _
  have hx : ∀ r, t.x r = (s.setX xd (BitVec.ofNat 64 s.cx.fstat)).x r := fun r => (u.x_fall r).trans (State.x_of_regs (by rw [hcx]; rfl) r)
  have hkeep : ∀ c : Ctx, c.clearFstat.unack = c.unack := fun _ => rfl
  refine ⟨?_, ?_, fun r hr => ?_, ?_, ?_⟩
  · rw [hx, State.x_setX, if_pos rfl]
  · rw [u.cxPart_fall Ctx.fstat (fun _ => rfl), hcx]
    simp [Ctx.clearFstat, Ctx.fstat]
  · rw [hx, State.x_setX, if_neg hr]
  · rw [u.cxPart_fall Ctx.unack (fun _ => rfl), hcx, hkeep, State.cxPart_setX s _ _ Ctx.unack (fun _ _ => rfl)]
  · exact (congrArg State.net (s.setX_keeps xd (BitVec.ofNat 64 s.cx.fstat)) :)

/-- What `wait` counts, and what its wait is reported as (R308). -/
theorem execWait_of_accepts {s : State} {f : FmtCR} (ha : s.accepts (.wait f)) :
    let n := if f.opt = 0 then s.cx.unFld + s.cx.unWaf + s.cx.unDom else if f.opt = 1 then s.slotsHeld else s.queuedSends
    exec (.wait f) s = if n ≤ (s.x f.xa).toNat then s.result f.xd (BitVec.ofNat 64 n)
      else .next (s.stallOn (if f.opt = 0 then .waitFence else if f.opt = 1 then 0 else .waitSendq)) := by
  have h0 : f.opt = 0 ↔ f.opt.toNat = 0 := by simp [BitVec.toNat_eq]
  have h1 : f.opt = 1 ↔ f.opt.toNat = 1 := by simp [BitVec.toNat_eq]
  refine (show execWait f s = _ from State.slotC_of_accepts ha _).trans ?_
  simp only [h0, h1]
  rcases hopt : f.opt.toNat with _ | _ | n <;> simp

/-- A prefetch changes at most the miss registers and the counters of slices (R318). -/
theorem execPf_of_accepts {s : State} {f : FmtCM} (ha : s.accepts (.pf f)) :
    ∃ u : State, exec (.pf f) s = .next u.fall ∧ ({ u with tiles := s.tiles, misses := s.misses } : State) = s := by
  have hslice : ∀ (u : State) (t tag ev n : Nat), ({ u.countSlice t tag ev n with tiles := s.tiles, misses := s.misses } : State) = { u with tiles := s.tiles, misses := s.misses } :=
    fun u t tag ev n => by
      unfold State.countSlice
      split <;> rfl
  have hhome : ∀ (tag g : Nat) (ms : List Nat), ({ s.countHome tag g ms with tiles := s.tiles, misses := s.misses } : State) = s := fun tag g ms => by
    unfold State.countHome
    split
    · simp only [hslice]
    · rfl
  have hfetch : ∀ (tag g : Nat) (ms : List Nat),
      ({ (if s.missRoom ms then (s.countHome tag g ms).startMisses tag ms else s : State) with tiles := s.tiles, misses := s.misses } : State) = s := fun tag g ms => by
    by_cases hroom : s.missRoom ms = true
    · rw [if_pos hroom]
      exact hhome tag g ms
    · rw [if_neg hroom]
  have hexec : exec (.pf f) s = _ := (show execPf f s = _ from State.slotC_of_accepts ha _)
  rw [hexec]
  simp only
  split
  · exact ⟨_, rfl, hfetch _ _ _⟩
  · exact ⟨s, rfl, rfl⟩

/-- Settles O20: each form by what it waits for, and then by what it does. -/
theorem releasesFencesAndWaits : Obligations.ReleasesFencesAndWaits := by
  unfold Obligations.ReleasesFencesAndWaits
  intro s
  refine ⟨?_, fun f ha => ?_, ?_, fun f ha => ?_⟩
  · intro f g e ha n va sc hr hh hok hatt hroom
    exact ⟨(exec_stRel ha hok hroom).1, exec_stRel_leaves ha hr hh hatt hroom hok⟩
  · rw [execFence_of_accepts ha]
    exact ⟨fun hw => if_neg (ne_true_of_eq_false hw), fun hd => ⟨_, if_pos hd, s.fenced_effects f.xd⟩⟩
  · intro f ha n
    rw [execWait_of_accepts ha]
    exact ⟨fun hle => if_pos hle, fun hlt => if_neg (Nat.not_le.2 hlt)⟩
  · obtain ⟨u, hexec, hkeep⟩ := execPf_of_accepts ha
    have hcur : u.cur = s.cur := (congrArg State.cur hkeep :)
    have hctx : ∀ c, u.ctxOf c = s.ctxOf c := fun c => (congrArg (fun v : State => v.ctxOf c) hkeep :)
    have hcx : u.cx = s.cx := (congrArg State.cx hkeep :)
    exact ⟨u.fall, hexec, State.cx_fall_congr hcx, fun c hc => (u.ctxOf_retire_other _ (hcur ▸ hc)).trans (hctx c), (congrArg State.net hkeep :),
      fun b => (congrArg (fun v : State => v.mem.read b) hkeep :)⟩

end Sys2Proof.Machine
end

section
/-! SUPPORT. Barrier objects and the barrier instructions: R226 to R233, R336, R337. -/

namespace Sys2Proof.Machine

/-! ### Barriers of hubs (R226, R231) -/

/-- The barrier that an update names takes the change, and every other one stays. -/
theorem State.barAt_updBar (s : State) (f b f' b' : Nat) (g : Barrier → Barrier) :
    (s.updBar f b g).barAt f' b' = if f' = f ∧ b' = b then g (s.barAt f b) else s.barAt f' b' := by
  unfold State.barAt State.updBar
  rw [State.hubOf_updHub]
  by_cases hf : f' = f
  · subst f'
    rw [if_pos rfl, KMap.get_put]
    simp
  · rw [if_neg hf, if_neg (fun h => hf h.1)]

@[simp] theorem State.barAt_updBar_self (s : State) (f b : Nat) (g : Barrier → Barrier) : (s.updBar f b g).barAt f b = g (s.barAt f b) := by
  rw [State.barAt_updBar, if_pos ⟨rfl, rfl⟩]

theorem State.barAt_of_hubs {s t : State} (h : t.hubs = s.hubs) (f b : Nat) : t.barAt f b = s.barAt f b := by
  rw [State.barAt, State.barAt, State.hubOf_congr h]

theorem State.barAt_fall (s : State) (f b : Nat) : s.fall.barAt f b = s.barAt f b := State.barAt_of_hubs rfl f b

/-! ### Waiters that take the status of a ply (R231, R233) -/

/-- A context but for the reply that it waits for. -/
def Ctx.unanswered (c : Ctx) : Ctx := { c with reply := none }

/-- Between two states barriers have changed and waiting firings have been answered, and nothing else. -/
structure WaitersTold (s u : State) : Prop where
  rest : ({ u with ctxs := s.ctxs, cores := s.cores, hubs := s.hubs } : State) = s
  ctx : ∀ i, (u.ctxOf i).unanswered = (s.ctxOf i).unanswered

namespace WaitersTold

variable {s t u : State}

theorem refl (s : State) : WaitersTold s s := ⟨rfl, fun _ => rfl⟩

theorem trans (h : WaitersTold s t) (h' : WaitersTold t u) : WaitersTold s u := by
  refine ⟨?_, fun i => (h'.ctx i).trans (h.ctx i)⟩
  have hu := h'.rest
  rw [← h.rest]
  exact (congrArg (fun v : State => { v with ctxs := s.ctxs, cores := s.cores, hubs := s.hubs }) hu :)

theorem part {α : Type} (h : WaitersTold s u) (p : State → α) (hp : ∀ v : State, p { v with ctxs := s.ctxs, cores := s.cores, hubs := s.hubs } = p v) : p u = p s := by
  rw [← hp u, h.rest]

theorem cx (h : WaitersTold s u) : u.cx.unanswered = s.cx.unanswered := by
  rw [State.cx, State.cx, h.part State.cur (fun _ => rfl)]
  exact h.ctx s.cur

theorem foldl {α : Type} {g : State → α → State} (hg : ∀ s x, WaitersTold s (g s x)) (l : List α) (s : State) : WaitersTold s (l.foldl g s) :=
  List.foldlRecOn l g (refl s) (fun _ h x _ => h.trans (hg _ x))

end WaitersTold

section
variable (s : State) (f b : Nat)

theorem State.waitersTold_updBar (g : Barrier → Barrier) : WaitersTold s (s.updBar f b g) := ⟨rfl, fun _ => rfl⟩

/-- A firing's context changes where it stands, and every other context stays. -/
theorem State.ctxOf_updFiring_eq (n : Nat) (g : Ctx → Ctx) (i : Nat) :
    (s.updFiring n g).ctxOf i = if (s.ctxOf i).occ && (s.ctxOf i).firing = n then g (s.ctxOf i) else s.ctxOf i :=
  KMap.get_map (m := s.ctxs) (d := ({} : Ctx)) (k := i) (fun (_ : Nat) (c : Ctx) => if c.occ && c.firing = n then g c else c) (.inr (by simp))

theorem State.waitersTold_updFiring (n : Nat) {g : Ctx → Ctx} (hg : ∀ c, (g c).unanswered = c.unanswered) : WaitersTold s (s.updFiring n g) := by
  refine ⟨rfl, fun i => ?_⟩
  rw [State.ctxOf_updFiring_eq]
  split
  · exact hg _
  · rfl

/-- A waiting context with the status of its ply (R233). -/
def Ctx.answered (st : Nat) (c : Ctx) : Ctx := if c.stall.isSome then { c with reply := some (.value st) } else c

theorem Ctx.unanswered_answered (st : Nat) (c : Ctx) : (c.answered st).unanswered = c.unanswered := by
  unfold Ctx.answered
  split <;> rfl

/-- The waiters of a ply, answered one after another. -/
def State.answerWaiters (st : Nat) (ws : List (Nat × Nat)) : State := ws.foldl (fun (s : State) w => s.updFiring w.1 (Ctx.answered st)) s

theorem State.waitersTold_answerWaiters (st : Nat) (ws : List (Nat × Nat)) : WaitersTold s (s.answerWaiters st ws) :=
  WaitersTold.foldl (g := fun (s : State) (w : Nat × Nat) => s.updFiring w.1 (Ctx.answered st)) (fun s w => s.waitersTold_updFiring w.1 (Ctx.unanswered_answered st)) ws s

theorem State.hubs_answerWaiters (st : Nat) (ws : List (Nat × Nat)) : (s.answerWaiters st ws).hubs = s.hubs :=
  State.hubs_foldl (g := fun (s : State) (w : Nat × Nat) => s.updFiring w.1 (Ctx.answered st)) (fun _ _ => rfl) ws s

theorem State.releaseWaiters_eq (ply st : Nat) : s.releaseWaiters f b ply st =
    (s.answerWaiters st ((s.barAt f b).waiters.filter (fun w => w.2 = ply))).updBar f b (fun o => { o with waiters := (s.barAt f b).waiters.filter (fun w => w.2 ≠ ply) }) := by
  unfold State.releaseWaiters
  have hstay : (not ∘ fun w : Nat × Nat => decide (w.2 = ply)) = fun w => decide (w.2 ≠ ply) := funext fun w => (decide_not).symm
  simp only [List.partition_eq_filter_filter, hstay]
  rfl

theorem State.waitersTold_releaseWaiters (ply st : Nat) : WaitersTold s (s.releaseWaiters f b ply st) := by
  rw [State.releaseWaiters_eq]
  exact (s.waitersTold_answerWaiters _ _).trans (State.waitersTold_updBar _ _ _ _)

/-- Of the barriers one changes, and of that its waiters. -/
theorem State.barAt_releaseWaiters (ply st f' b' : Nat) : (s.releaseWaiters f b ply st).barAt f' b' =
    if f' = f ∧ b' = b then { s.barAt f b with waiters := (s.barAt f b).waiters.filter (fun w => w.2 ≠ ply) } else s.barAt f' b' := by
  rw [State.releaseWaiters_eq, State.barAt_updBar, State.barAt_of_hubs (State.hubs_answerWaiters _ _ _), State.barAt_of_hubs (State.hubs_answerWaiters _ _ _)]

end

/-! ### The barrier instructions (R228, R233, R336, R337) -/

section
variable {s : State} {fl b : Nat}

/-- The firings that wait at the open plies of a barrier that is made again are told that it is gone (R227). -/
def State.barEmptied (s : State) (fl b : Nat) : State :=
  if (s.barAt fl b).valid then (List.range 4).foldl (fun u i => u.releaseWaiters fl b (((s.barAt fl b).oldest + i) % 2 ^ 32) plyAbort) s else s

section
variable {f : FmtWE} (ha : s.accepts (.barInit f)) (hn : barNamed s (s.x f.xa) fl b)
include ha hn

theorem execBarInit_of_named : exec (.barInit f) s =
    if ((s.barAt fl b).valid ∧ (s.barAt fl b).owner ≠ s.tag) ∨ (s.x f.xb).toNat = 0 ∨ (s.x f.xb).toNat > 1024 ∨ f.opt.toNat % 8 < 2 ∨ f.opt.toNat % 8 > 4 then
      s.faultC .barBad 0 (s.x f.xa).toNat
    else .next ((s.barEmptied fl b).updBar fl b (fun o => o.initialised s.tag (s.x f.xb).toNat (f.opt.toNat % 8) f.ext.toNat (bitAt f.opt.toNat 3) s.rtime)).fall := by
  refine (show execBarInit f s = _ from State.slotC_of_accepts ha _).trans ?_
  rw [barNamed] at hn
  simp only [hn, State.barEmptied]

end

/-- A barrier that is emptied is left as it was but for its waiters. -/
theorem State.barEmptied_effects (s : State) (fl b : Nat) : WaitersTold s (s.barEmptied fl b) ∧ ∃ ws, (s.barEmptied fl b).barAt fl b = { s.barAt fl b with waiters := ws } := by
  unfold State.barEmptied
  split
  · refine ⟨WaitersTold.foldl (fun u i => u.waitersTold_releaseWaiters _ _ _ _) _ s, ?_⟩
    refine List.foldlRecOn (motive := fun u : State => ∃ ws, u.barAt fl b = { s.barAt fl b with waiters := ws }) _ _ ⟨_, rfl⟩ (fun u hu i _ => ?_)
    obtain ⟨ws, hws⟩ := hu
    rw [State.barAt_releaseWaiters, if_pos ⟨rfl, rfl⟩, hws]
    exact ⟨_, rfl⟩
  · exact ⟨WaitersTold.refl s, _, rfl⟩

/-- The barrier that `bar.init` makes (R227). -/
theorem State.barAt_initialised (s : State) (fl b tag n sc tmo : Nat) (pace : Bool) (time : Nat) :
    (((s.barEmptied fl b).updBar fl b (fun o => o.initialised tag n sc tmo pace time)).fall).barAt fl b = (s.barAt fl b).initialised tag n sc tmo pace time := by
  obtain ⟨-, ws, hbar⟩ := s.barEmptied_effects fl b
  rw [State.barAt_fall, State.barAt_updBar_self, hbar]
  rfl

/-- The state in which `bar.init` has made its barrier but for the retirement of its bundle. -/
theorem State.waitersTold_initialised (s : State) (fl b : Nat) (g : Barrier → Barrier) : WaitersTold s ((s.barEmptied fl b).updBar fl b g) :=
  (s.barEmptied_effects fl b).1.trans (State.waitersTold_updBar _ _ _ _)

end

/-! ### Arrivals (R228, R336) -/

section
variable {s : State} {f : FmtCR} {i : Instr} {e fl b : Nat}

/-- An arrival of a member at a barrier, as its bundle sends it. -/
def arrivalOf (fl b e m : Nat) : Access := { kind := .arrival, gpa := barGpa fl b, size := 8, data := e, data2 := m }

theorem exec_arrival (hi : (i = .barArr f ∧ e = 0) ∨ (i = .barArrx f ∧ e = (s.x f.xd).toNat)) (ha : s.accepts i) : exec i s = s.barArrive f.xd (s.x f.xa) (s.x f.xb) e := by
  rcases hi with ⟨rfl, rfl⟩ | ⟨rfl, rfl⟩
  · exact (show execBarArr f s = _ from State.slotC_of_accepts ha _)
  · exact (show execBarArrx f s = _ from State.slotC_of_accepts ha _)

variable {xd : BitVec 5} {ref m : Word} (hn : barNamed s ref fl b)
include hn

theorem State.barArrive_answered {p : Nat} (hr : s.cx.reply = some (.value p)) : s.barArrive xd ref m e = s.result xd (BitVec.ofNat 64 p) := by
  rw [barNamed] at hn
  simp only [State.barArrive, hn, State.holding, hr]

theorem State.barArrive_failed {c : Cause} {y : Nat} (hr : s.cx.reply = some (.failed c y)) : s.barArrive xd ref m e = s.faultC c 0 ref.toNat := by
  rw [barNamed] at hn
  simp only [State.barArrive, hn, State.holding, hr]

theorem State.barArrive_holds (hr : s.cx.reply = none) (hh : s.cx.hold.isSome) : s.barArrive xd ref m e = .next (s.stallOn 0) := by
  obtain ⟨id, hid⟩ := Option.isSome_iff_exists.1 hh
  rw [barNamed] at hn
  simp only [State.barArrive, hn, State.holding, hr, hid]

/-- An arrival that is not sent yet: it is checked, and then it releases, or waits for its member's lead. -/
theorem State.barArrive_starts (hr : s.cx.reply = none) (hh : s.cx.hold = none) : s.barArrive xd ref m e =
    if !(s.barAt fl b).valid ∨ (s.barAt fl b).owner ≠ s.tag ∨ m.toNat > (s.barAt fl b).mm1 then s.faultC .barBad 0 ref.toNat
    else if e ≥ 2 ^ 39 then s.faultC .barRange 0 ref.toNat
    else if s.cx.refusedArr then (if (s.barAt fl b).lead.get 0 m.toNat ≥ 3 then .next (s.stallOn .waitBar) else .next (s.holdFor (arrivalOf fl b e m.toNat)))
    else s.releaseThen (s.barAt fl b).scope (homeScope (s.reachGpa (barGpa fl b))) .waitFence (fun s => .next (s.holdFor (arrivalOf fl b e m.toNat))) := by
  rw [barNamed] at hn
  simp only [State.barArrive, hn, State.holding, hr, hh]
  rfl

end

/-- An arrival that is sent: its bundle holds for its ply (R228). -/
theorem OnlyCounted.arrival_sends {s u : State} (hu : OnlyCounted s u) (fl b e m : Nat) : ∃ a ∈ (u.holdFor (arrivalOf fl b e m)).net, a.id = s.nextAcc ∧ a.kind = .arrival ∧
    a.gpa = barGpa fl b ∧ a.data = e ∧ a.data2 = m ∧ (u.holdFor (arrivalOf fl b e m)).cx.hold = some a.id ∧ (u.holdFor (arrivalOf fl b e m)).cx.pc = s.cx.pc ∧
    ∀ r, (u.holdFor (arrivalOf fl b e m)).x r = s.x r := by
  obtain ⟨⟨hnet, -⟩, hhold, hpc, hx, -⟩ := holdFor_sends (s := u) (a := arrivalOf fl b e m) rfl
  refine ⟨u.flightOf (arrivalOf fl b e m), ?_, hu.part State.nextAcc (fun _ => rfl), rfl, rfl, rfl, rfl, hhold, hpc.trans (congrArg Ctx.pc hu.cx :), fun r => ?_⟩
  · rw [hnet]
    exact List.mem_append_right _ List.mem_cons_self
  · exact (hx r).trans (State.x_of_regs (congrArg Ctx.x hu.cx :) r)

/-! ### Statuses of plies (R233, R336) -/

section
variable {s : State} {f : FmtCR} {fl b : Nat}

theorem exec_barStatus {i : Instr} (hi : i = .barTst f ∨ i = .barWt f) (ha : s.accepts i) : ∃ w, (i = .barTst f → w = false) ∧ (i = .barWt f → w = true) ∧ exec i s = s.barWait f w := by
  rcases hi with rfl | rfl
  · exact ⟨false, fun _ => rfl, fun h => (by cases h), (show execBarTst f s = _ from State.slotC_of_accepts ha _)⟩
  · exact ⟨true, fun h => (by cases h), fun _ => rfl, (show execBarWt f s = _ from State.slotC_of_accepts ha _)⟩

/-- The place of a ply among those that a barrier still knows decides its status. -/
theorem Barrier.plyStatus_of_distance (o : Barrier) (p : Nat) :
    let d := (p + 2 ^ 32 - o.oldest) % 2 ^ 32
    (d < 4 → o.plyStatus p = some none) ∧ (4 ≤ d → d < 2 ^ 31 → o.plyStatus p = none) ∧ (2 ^ 31 ≤ d → d ≤ 2 ^ 32 - 5 → o.plyStatus p = some (some plyAged)) ∧
      (2 ^ 32 - 5 < d → o.plyStatus p = some (some (o.hist / 8 ^ (2 ^ 32 - 1 - d) % 8))) := by
  intro d
  have hpow : ∀ k, 2 ^ (3 * k) = 8 ^ k := fun k => Nat.pow_mul 2 3 k
  unfold Barrier.plyStatus
  simp only [hpow, d]
  refine ⟨fun h => if_pos (by omega), fun h h' => ?_, fun h h' => ?_, fun h => ?_⟩
  · rw [if_neg (by omega), if_pos h']
  · rw [if_neg (by omega), if_neg (by omega), if_pos h']
  · rw [if_neg (by omega), if_neg (by omega), if_neg (by omega)]

/-- A firing that waits for a ply stands among the barrier's waiters, and has changed nothing of its own but its stall. -/
theorem State.barWaiting_effects (s : State) (fl b ply : Nat) :
    let t := (s.updBar fl b (fun o => { o with waiters := o.waiters.filter (fun v => v.1 ≠ s.cx.firing) ++ [(s.cx.firing, ply)] })).stallOn .waitBar
    t.cx.stall.isSome ∧ t.cx.pc = s.cx.pc ∧ (∀ r, t.x r = s.x r) ∧ (s.cx.firing, ply) ∈ (t.barAt fl b).waiters := by
  intro t
  let u := s.updBar fl b (fun o => { o with waiters := o.waiters.filter (fun v => v.1 ≠ s.cx.firing) ++ [(s.cx.firing, ply)] })
  have hcx : t.cx = { s.cx with stall := some ((s.cx.stall.map (fun p => p.1)).getD s.rtime, Cause.waitBar) } := State.cx_stallOn u .waitBar
  have hbar : t.barAt fl b = u.barAt fl b := State.barAt_of_hubs rfl fl b
  refine ⟨?_, ?_, fun r => State.x_of_regs ?_ r, ?_⟩
  · rw [hcx]
    rfl
  · rw [hcx]
  · rw [hcx]
  · rw [hbar, State.barAt_updBar_self]
    exact List.mem_append_right _ List.mem_cons_self

variable (hn : barNamed s (s.x f.xa) fl b) {w : Bool}
include hn

theorem State.barWait_answered {st : Nat} (hr : s.cx.reply = some (.value st)) : s.barWait f w = s.result f.xd (BitVec.ofNat 64 st) := by
  rw [barNamed] at hn
  simp only [State.barWait, hn, hr]

section
variable (hr : s.cx.reply = none)
include hr

theorem State.barWait_bad (hbad : (s.barAt fl b).valid = false ∨ (s.barAt fl b).owner ≠ s.tag) : s.barWait f w = s.faultC .barBad 0 (s.x f.xa).toNat := by
  rw [barNamed] at hn
  simp only [State.barWait, hn, hr]
  exact if_pos (by simpa using hbad)

variable (hv : (s.barAt fl b).valid = true) (ho : (s.barAt fl b).owner = s.tag)
include hv ho

/-- What is asked of a live barrier of the tag's own turns on the status of its ply. -/
theorem State.barWait_good : (∀ st, (s.barAt fl b).plyStatus ((s.x f.xb).toNat % 2 ^ 32) = some (some st) → s.barWait f w = s.result f.xd (BitVec.ofNat 64 st)) ∧
    ((s.barAt fl b).plyStatus ((s.x f.xb).toNat % 2 ^ 32) = none → s.barWait f w = s.faultC .barPly 0 (s.x f.xa).toNat) ∧
    ((s.barAt fl b).plyStatus ((s.x f.xb).toNat % 2 ^ 32) = some none →
      s.barWait f false = s.result f.xd (BitVec.ofNat 64 plyPending) ∧
      s.barWait f true = .next ((s.updBar fl b
        (fun o => { o with waiters := o.waiters.filter (fun v => v.1 ≠ s.cx.firing) ++ [(s.cx.firing, (s.x f.xb).toNat % 2 ^ 32)] })).stallOn .waitBar)) := by
  have hlow : bitsOf (s.x f.xb) 31 0 = (s.x f.xb).toNat % 2 ^ 32 := bitsAt_zero _ _
  have hok : ¬((!(s.barAt fl b).valid) = true ∨ (s.barAt fl b).owner ≠ s.tag) := by simp [hv, ho]
  rw [barNamed] at hn
  refine ⟨fun st h => ?_, fun h => ?_, fun h => ⟨?_, ?_⟩⟩
  all_goals
    simp only [State.barWait, hn, hr, hlow, if_neg hok, h, Bool.false_eq_true, if_true, if_false]

end
end

/-- Settles O39: each form names its barrier, and then the barrier decides. -/
theorem barrierInstructions : Obligations.BarrierInstructions := by
  unfold Obligations.BarrierInstructions
  refine ⟨?_, ?_, ?_, ?_⟩
  · intro f s fl b ha hn o n sc
    rw [execBarInit_of_named ha hn]
    refine ⟨fun h => if_pos h, fun hv h1 h2 h3 h4 => ⟨_, if_neg ?_, ?_⟩⟩
    · rintro (⟨hval, hown⟩ | h | h | h | h)
      · exact hv.elim (fun h => by rw [h] at hval; cases hval) hown
      all_goals omega
    · have htold := s.waitersTold_initialised fl b (fun o => o.initialised s.tag n sc f.ext.toNat (bitAt f.opt.toNat 3) s.rtime)
      intro p
      rw [show p = o.initialised s.tag n sc f.ext.toNat (bitAt f.opt.toNat 3) s.rtime from s.barAt_initialised fl b _ _ _ _ _ _]
      refine ⟨rfl, rfl, Nat.sub_add_cancel h1, rfl, rfl, bitAt_toNat _ _, rfl, rfl, rfl, rfl, State.pc_fall_of_flow (congrArg Ctx.flow htold.cx :), fun r => ?_, fun a => ?_⟩
      · exact (State.x_fall _ r).trans (State.x_of_regs (congrArg Ctx.x htold.cx :) r)
      · exact htold.part (fun v => v.mem.read a) (fun _ => rfl)
  · intro f s i e fl b hi ha hn o m g wide sends
    have hexec := exec_arrival hi ha
    refine ⟨fun p hp => (hexec.trans (State.barArrive_answered hn hp)).trans (State.result_eq _ _ _), fun c y hc => hexec.trans (State.barArrive_failed hn hc),
      fun hr hh => hexec.trans (State.barArrive_holds hn hr hh), fun hr hh => ?_⟩
    have hgo := hexec.trans (State.barArrive_starts hn hr hh)
    have hsends : ∀ u, OnlyCounted s u → exec i s = .next (u.holdFor (arrivalOf fl b e m)) → sends := fun u hu h => by
      obtain ⟨a, hmem, hrest⟩ := hu.arrival_sends fl b e m
      exact ⟨_, a, h, hmem, hrest⟩
    refine ⟨fun h => hgo.trans (if_pos (by simpa using h)), fun hv ho hm => ?_⟩
    rw [if_neg (show ¬((!o.valid) = true ∨ o.owner ≠ s.tag ∨ m > o.mm1) by simp [hv, ho, hm])] at hgo
    refine ⟨fun h => hgo.trans (if_pos h), fun he hfirst => ?_, fun he hagain => ?_⟩
    · rw [if_neg (Nat.not_le.2 he), hfirst, if_neg Bool.false_ne_true] at hgo
      exact ⟨fun hw => hgo.trans (State.releaseThen_waits hw _ _),
        fun hdone => hsends _ (s.onlyCounted_releasedAt o.scope (homeScope (s.reachGpa g))) (hgo.trans (State.releaseThen_done hdone _ _))⟩
    · rw [if_neg (Nat.not_le.2 he), hagain, if_pos rfl] at hgo
      exact ⟨fun h => hgo.trans (if_pos h), fun h => hsends s ⟨rfl, fun _ => rfl⟩ (hgo.trans (if_neg (Nat.not_le.2 h)))⟩
  · intro f s i fl b hi ha hn hr o d answers
    obtain ⟨w, htst, hwt, hexec⟩ := exec_barStatus hi ha
    refine ⟨fun h => hexec.trans (State.barWait_bad hn hr h), fun hv ho => ?_⟩
    obtain ⟨hopen, hfar, haged, hkept⟩ := o.plyStatus_of_distance ((s.x f.xb).toNat % 2 ^ 32)
    obtain ⟨hanswer, hno, hpend⟩ := State.barWait_good (w := w) hn hr hv ho
    refine ⟨fun h h' => hexec.trans (hno (hfar h h')), fun h h' => hexec.trans (hanswer _ (haged h h')), fun h => hexec.trans (hanswer _ (hkept h)), fun h hi => ?_, fun h hi => ?_⟩
    · rw [htst hi] at hexec
      exact hexec.trans (hpend (hopen h)).1
    · rw [hwt hi] at hexec
      obtain ⟨hstall, hpc, hx, hbar⟩ := s.barWaiting_effects fl b ((s.x f.xb).toNat % 2 ^ 32)
      exact ⟨_, hexec.trans (hpend (hopen h)).2, hstall, hpc, hbar, hx⟩
  · intro f s st fl b ha hn hr
    exact ((show execBarWt f s = _ from State.slotC_of_accepts ha _).trans (State.barWait_answered hn hr)).trans (State.result_eq _ _ _)

end Sys2Proof.Machine
end

section
/-! SUPPORT. Accesses that take effect at their homes: R205, R206, R214, R314, R334. -/

namespace Sys2Proof.Machine

/-! ### Memory and numbers -/

theorem Memory.read_writeLE_above (n : Nat) (m : Memory) {a i : Nat} (v : Nat) (h : a + n ≤ i) : (m.writeLE a n v).read i = m.read i := by
  induction n generalizing m a v with
  | zero => rfl
  | succ n ih => rw [Memory.writeLE, ih _ _ (by omega), Memory.read_write, if_neg (by omega)]

theorem Memory.read_writeLE_outside (n : Nat) (m : Memory) {a i : Nat} (v : Nat) (h : i < a ∨ a + n ≤ i) : (m.writeLE a n v).read i = m.read i :=
  h.elim (m.read_writeLE_below n v) (m.read_writeLE_above n v)

theorem Memory.readLE_lt (m : Memory) (a n : Nat) : m.readLE a n < 2 ^ (8 * n) := by
  induction n generalizing a with
  | zero => exact Nat.one_pos
  | succ n ih =>
    have hlow : (m.read a).toNat < 256 := (m.read a).isLt
    have hhigh := ih (a + 1)
    have hpow : 2 ^ (8 * (n + 1)) = 256 * 2 ^ (8 * n) := by rw [Nat.mul_succ, Nat.pow_add, Nat.mul_comm]
    rw [Memory.readLE, hpow]
    omega

theorem two_pow_bytes (n : Nat) : 256 ^ n = 2 ^ (8 * n) := (Nat.pow_mul 2 8 n).symm

theorem sextNat_eq_toInt {b : Nat} (hb : 0 < b) (v : Nat) : sextNat b v = (BitVec.ofNat b v).toInt := by
  obtain ⟨k, rfl⟩ := Nat.exists_eq_add_of_lt hb
  rw [BitVec.toInt_eq_toNat_cond, BitVec.toNat_ofNat, sextNat]
  simp only [Nat.zero_add, Nat.add_sub_cancel, Nat.pow_succ]
  split <;> split <;> push_cast <;> omega

/-- What a home makes of a location is what the operation's bits say (R334). -/
theorem ofNat_amoApply (op : AmoOp) {b old v n : Nat} (hb : 0 < b) (hold : old < 2 ^ b) (hv : v < 2 ^ b) :
    BitVec.ofNat b (amoApply op b old v n) = atomicValue op b (BitVec.ofNat b old) (BitVec.ofNat b v) (BitVec.ofNat b n) := by
  have hmod : ∀ {k}, k < 2 ^ b → (BitVec.ofNat b k).toNat = k := fun h => by rw [BitVec.toNat_ofNat, Nat.mod_eq_of_lt h]
  cases op
  case add => exact BitVec.eq_of_toNat_eq (by simp [amoApply, atomicValue])
  case and => exact BitVec.eq_of_toNat_eq (by simp [amoApply, atomicValue])
  case or => exact BitVec.eq_of_toNat_eq (by simp [amoApply, atomicValue])
  case xor => exact BitVec.eq_of_toNat_eq (by simp [amoApply, atomicValue])
  case min => rw [amoApply, atomicValue, sextNat_eq_toInt hb, sextNat_eq_toInt hb, apply_ite (BitVec.ofNat b)]
  case max => rw [amoApply, atomicValue, sextNat_eq_toInt hb, sextNat_eq_toInt hb, apply_ite (BitVec.ofNat b)]
  case minu => rw [amoApply, atomicValue, hmod hold, hmod hv, Nat.min_def, apply_ite (BitVec.ofNat b)]
  case maxu => rw [amoApply, atomicValue, hmod hold, hmod hv, Nat.max_def, apply_ite (BitVec.ofNat b)]
  case swap => rfl
  case cas =>
    have heq : BitVec.ofNat b old = BitVec.ofNat b v ↔ old = v := by rw [BitVec.toNat_eq, hmod hold, hmod hv]
    simp only [amoApply, atomicValue, heq, apply_ite (BitVec.ofNat b)]
  case faddS => rw [amoApply, atomicValue, hmod hold, hmod hv, homeSum]
  case faddH => rw [amoApply, atomicValue, hmod hold, hmod hv, homeSum]

/-! ### What counting leaves (R101) -/

/-- Between two states events have been counted and caches have taken note, while memory and accesses in flight have stayed. -/
structure Served (s u : State) : Prop where
  mem : u.mem = s.mem
  net : u.net = s.net
  poison : u.poison = s.poison
  loith : u.loith = s.loith
  syncs : u.syncs = s.syncs

namespace Served

variable {s t u : State}

theorem refl (s : State) : Served s s := ⟨rfl, rfl, rfl, rfl, rfl⟩

theorem trans (h : Served s t) (h' : Served t u) : Served s u :=
  ⟨h'.mem.trans h.mem, h'.net.trans h.net, h'.poison.trans h.poison, h'.loith.trans h.loith, h'.syncs.trans h.syncs⟩

theorem foldl {α : Type} {g : State → α → State} (hg : ∀ s x, Served s (g s x)) (l : List α) (s : State) : Served s (l.foldl g s) :=
  List.foldlRecOn l g (refl s) (fun _ h x _ => h.trans (hg _ x))

theorem plainAccess {a : Access} (h : Served s u) (hp : plainAccess s a) : plainAccess u a := by
  have hlocal : ∀ g, u.gpaLocal g = s.gpaLocal g := fun g => by rw [State.gpaLocal, State.gpaLocal, h.loith]
  have hpoison : ∀ p, u.runPoisoned p = s.runPoisoned p := fun p => by rw [State.runPoisoned, State.runPoisoned, hlocal, h.poison]
  refine ⟨hp.1, fun p hmem => ?_⟩
  rw [hlocal, hpoison]
  exact hp.2 p hmem

end Served

theorem State.served_countSlice (s : State) (tile tag ev n : Nat) : Served s (s.countSlice tile tag ev n) := by
  unfold State.countSlice
  split
  · exact Served.refl s
  · exact ⟨rfl, rfl, rfl, rfl, rfl⟩

theorem State.served_countFabric (s : State) (f ev n : Nat) : Served s (s.countFabric f ev n) := by
  unfold State.countFabric
  split
  · exact Served.refl s
  · exact ⟨rfl, rfl, rfl, rfl, rfl⟩

theorem State.served_countHome (s : State) (tag g : Nat) (ms : List Nat) : Served s (s.countHome tag g ms) := by
  unfold State.countHome
  split
  · exact ((State.served_countSlice _ _ _ _ _).trans (State.served_countSlice _ _ _ _ _)).trans (State.served_countSlice _ _ _ _ _)
  · exact Served.refl s

theorem State.served_countRequest (s : State) (a : Access) : Served s (s.countRequest a) := by
  unfold State.countRequest
  split
  · exact Served.refl s
  · exact s.served_countFabric _ _ _

theorem State.served_countAccess (s : State) (a : Access) (ms : List Nat) : Served s (s.countAccess a ms) := by
  have hruns := Served.foldl (g := fun (s : State) (p : Nat × Nat) => s.countHome a.tag p.1 (ms.filter (fun l => lineOf (gpaKey p.1) ≤ l && l ≤ lineOf (gpaKey p.1 + p.2 - 1))))
    (fun s p => s.served_countHome _ _ _) a.runs s
  unfold State.countAccess
  split
  · split
    · exact hruns.trans (State.served_countSlice _ _ _ _ _)
    · exact hruns.trans (State.served_countSlice _ _ _ _ _)
    · exact hruns
  · exact Served.refl s

/-! ### Plain memory (R106, R112) -/

/-- A run of bytes lies in HBM, in the capacity tier or in the local store of a tile. -/
def plainPlace (g n : Nat) : Prop :=
  (gpaSpace g = 1 ∧ gpaOffset g + n ≤ hbmSize) ∨ (gpaSpace g = 2 ∧ gpaOffset g + n ≤ capSize) ∨ (gpaSpace g = 0 ∧ regionOf (gpaWindow g) = .localStore ∧ gpaWindow g + n ≤ 0x300000)

section
variable {s : State} {g n : Nat} (hg : plainPlace g n)
include hg

theorem State.readHome_plain (level : Nat) : s.readHome g n level = (s.mem.readLE (gpaKey g) n, s) := by
  rcases hg with ⟨hsp, -⟩ | ⟨hsp, -⟩ | ⟨hsp, hreg, -⟩
  · simp only [State.readHome, hsp]
  · simp only [State.readHome, hsp]
  · simp only [State.readHome, hsp, hreg, if_true]

theorem State.writeHome_plain (v : Nat) (w : Writer) : s.writeHome g n v w = ({ s with mem := s.mem.writeLE (gpaKey g) n v }, false) := by
  rcases hg with ⟨hsp, -⟩ | ⟨hsp, -⟩ | ⟨hsp, hreg, -⟩
  · simp only [State.writeHome, hsp]
  · simp only [State.writeHome, hsp]
  · simp only [State.writeHome, hsp, hreg, if_true]

/-- A store to plain memory writes its bytes, and changes nothing else but what its slice keeps. -/
theorem State.storeAt_plain (hpoison : s.runPoisoned (g, n) = false) (v : Nat) (w : Writer) (uncached : Bool) :
    (s.storeAt g n v w uncached).1.mem = s.mem.writeLE (gpaKey g) n v ∧ (s.storeAt g n v w uncached).1.net = s.net := by
  unfold State.storeAt
  rw [hpoison, if_neg Bool.false_ne_true, State.writeHome_plain hg]
  dsimp only
  split
  · exact ⟨rfl, rfl⟩
  · exact ⟨rfl, rfl⟩

end

theorem State.readRuns_plain (s : State) (level : Nat) (l : List (Nat × Nat)) (hl : ∀ p ∈ l, s.gpaLocal p.1 = true ∧ plainPlace p.1 p.2) :
    s.readRuns level l = (runsValue s.mem l, s) := by
  induction l with
  | nil => rfl
  | cons p l ih =>
    obtain ⟨hlocal, hplace⟩ := hl p List.mem_cons_self
    simp only [State.readRuns, hlocal, if_true, State.readHome_plain hplace, ih (fun q hq => hl q (List.mem_cons_of_mem _ hq)), runsValue]

/-! ### What an access comes back with (R205, R207) -/

section
variable {s u : State} {a : Access}

theorem State.mem_finishAcc (r : AccResult) : (u.finishAcc a r).mem = u.mem := by
  unfold State.finishAcc
  dsimp only
  split <;> rfl

theorem State.accOf_of_map {g : Access → Access} (hg : ∀ b, (g b).id = b.id) (h : u.net = s.net.map g) (n : Nat) : u.accOf n = (s.accOf n).map g := by
  have hsame : (fun b : Access => decide (b.id = n)) ∘ g = fun b => decide (b.id = n) := funext fun b => by rw [Function.comp, hg]
  rw [State.accOf, State.accOf, h, List.find?_map, hsame]

theorem State.result_resultOf {ids : List Nat} {n : Nat} (hn : n ∈ ids) (h : u.accOf n = some a) (r : AccResult) :
    ((u.resultOf ids r).accOf n).bind (fun b => b.result) = some r := by
  have hmap := State.accOf_of_map (s := u) (u := u.resultOf ids r) (g := fun b => if ids.contains b.id then { b with result := some r } else b) (fun b => by split <;> rfl) rfl n
  have hself : ids.contains a.id = true := by
    rw [State.id_of_accOf h, List.contains_iff_mem]
    exact hn
  rw [hmap, h]
  simp only [Option.map_some, hself, if_true, Option.bind_some]

/-- The result of an access that its context waits for stands with it in flight. -/
theorem State.result_finishAcc {b : Access} (hsilent : a.silent = false) (h : u.accOf a.id = some b) (r : AccResult) :
    ((u.finishAcc a r).accOf a.id).bind (fun b => b.result) = some r := by
  have hfin : u.finishAcc a r = u.resultOf (u.partnersOf a) r := by
    rw [State.finishAcc, hsilent]
    exact if_neg (fun hc => Bool.false_ne_true hc.2.1)
  rw [hfin]
  exact State.result_resultOf (List.mem_append_left _ List.mem_cons_self) h r

theorem State.mem_awaitFills (ids ls : List Nat) : (u.awaitFills ids ls).mem = u.mem := by
  unfold State.awaitFills
  split <;> rfl

theorem State.accOf_awaitFills {n : Nat} (h : u.accOf n = some a) (ids ls : List Nat) : ∃ b, (u.awaitFills ids ls).accOf n = some b := by
  unfold State.awaitFills
  split
  · exact ⟨a, h⟩
  · refine ⟨_, (State.accOf_of_map (s := u) (g := fun a => if ids.contains a.id && !a.silent then { a with fills := ls } else a) (fun b => ?_) rfl n).trans (congrArg (Option.map _) h)⟩
    split <;> rfl

end

/-! ### Performance in plain memory (R205, R206, R214, R334) -/

section
variable {s : State} {a : Access}

/-- An access that can be performed, and whose way is free, is performed at its home on this device. -/
theorem execAccessPerformed_performs (ha : s.accOf s.arg.value = some a) (hp : s.performable a = true) (hway : a.runs.findSome? (fun p => s.wayCause (tileOfCtx a.ctx) p.1) = none)
    (hreach : a.reach ≠ 3) : exec .accessPerformed s = .next ((s.countRequest a).perform a) := by
  refine (show execAccessPerformed s = _ from rfl).trans ?_
  simp only [execAccessPerformed, ha, hp, hway, if_neg hreach, Bool.not_true, Bool.false_eq_true, if_false]

theorem execAccessPerformed_blocked {c : Cause} (ha : s.accOf s.arg.value = some a) (hp : s.performable a = true)
    (hway : a.runs.findSome? (fun p => s.wayCause (tileOfCtx a.ctx) p.1) = some c) :
    exec .accessPerformed s = .next ((s.countFabric (fieldOfCtx a.ctx) 0x45 1).finishAcc a (.failed c 2)) := by
  refine (show execAccessPerformed s = _ from rfl).trans ?_
  simp only [execAccessPerformed, ha, hp, hway, Bool.not_true, Bool.false_eq_true, if_false]

/-- The state after a read whose value is `v`. -/
def State.readDone (s : State) (a : Access) (v : Nat) : State :=
  (((s.countAccess a (s.missing a)).awaitFills (s.partnersOf a) (s.missing a)).startMisses a.tag (s.missing a)).finishAcc a (.value v)

/-- The state after a store has written its bytes. -/
def State.writeDone (s : State) (a : Access) : State :=
  let r := (s.countAccess a (s.missing a)).storeAt a.gpa a.size a.data { tag := a.tag, level := a.level, ctx := a.ctx } a.uncached
  r.1.finishAcc a (if r.2 = 0 then .value 0 else .failed 0 r.2)

/-- The state after an operation on the value `old` of a location. -/
def State.combineDone (s : State) (a : Access) (op : AmoOp) (old : Nat) : State :=
  (((s.countAccess a (s.missing a)).storeAt a.gpa a.size (amoApply op (8 * a.size) old a.data a.data2) { tag := a.tag, level := a.level, ctx := a.ctx } a.uncached).1.awaitFills
    (s.partnersOf a) (s.missing a)).finishAcc a (.value old)

/-- No sync record of its line leaves an acquire uncovered. -/
def State.syncsCover (s : State) (a : Access) (sc : Nat) : Bool := !s.syncs.any (fun r => r.line = lineOf (gpaKey a.gpa) && !r.covers sc a.ctx)

section
variable (hp : plainAccess s a)
include hp

theorem plainPlace_of_plainAccess : plainPlace a.gpa a.size := (hp.2 (a.gpa, a.size) List.mem_cons_self).2.2

theorem runPoisoned_of_plainAccess : s.runPoisoned (a.gpa, a.size) = false := (hp.2 (a.gpa, a.size) List.mem_cons_self).2.1

theorem any_poisoned_of_plainAccess : a.runs.any s.runPoisoned = false := by
  rw [List.any_eq_false]
  exact fun p hmem => by rw [(hp.2 p hmem).2.1]; exact Bool.false_ne_true

/-- The registers of a tile's counters are no plain memory (R100). -/
theorem valueRead_of_plainAccess (v : Nat) : a.valueRead v = v := by
  have hnone : a.counterOf (coreOfCtx a.ctx) = none := by
    refine if_neg ?_
    rintro ⟨hsp, -, hwin, -⟩
    rcases plainPlace_of_plainAccess hp with ⟨h, -⟩ | ⟨h, -⟩ | ⟨-, -, h⟩
    · omega
    · omega
    · omega
  rw [Access.valueRead, hnone]

theorem State.perform_read (hk : a.kind = .load ∨ ∃ sc, a.kind = .acquire sc ∧ s.syncsCover a sc = true) : s.perform a = s.readDone a (runsValue s.mem a.runs) := by
  have hserved := s.served_countAccess a (s.missing a)
  have hplain := hserved.plainAccess hp
  have hread := State.readRuns_plain (s.countAccess a (s.missing a)) a.level a.runs (fun p hmem => ⟨(hplain.2 p hmem).1, (hplain.2 p hmem).2.2⟩)
  rcases hk with hk | ⟨sc, hk, hc⟩
  · simp only [State.perform, hk, any_poisoned_of_plainAccess hp, hread, valueRead_of_plainAccess hp, hserved.mem, Bool.false_eq_true, if_false]
    rfl
  · rw [State.syncsCover, Bool.not_eq_true'] at hc
    simp only [State.perform, hk, hc, any_poisoned_of_plainAccess hp, hread, valueRead_of_plainAccess hp, hserved.mem, Bool.false_eq_true, if_false]
    rfl

theorem State.perform_combine {op : AmoOp} (hk : a.kind = .atomic op ∨ a.kind = .reduce op) :
    s.perform a = s.combineDone a op (s.mem.readLE (gpaKey a.gpa) a.size) := by
  have hserved := s.served_countAccess a (s.missing a)
  rcases hk with hk | hk
  all_goals
    simp only [State.perform, hk, any_poisoned_of_plainAccess hp, State.readHome_plain (plainPlace_of_plainAccess hp), hserved.mem, Bool.false_eq_true, if_false]
    rfl

theorem State.mem_writeDone : (s.writeDone a).mem = s.mem.writeLE (gpaKey a.gpa) a.size a.data := by
  have hserved := s.served_countAccess a (s.missing a)
  rw [State.writeDone, State.mem_finishAcc, (State.storeAt_plain (plainPlace_of_plainAccess hp) (runPoisoned_of_plainAccess (hserved.plainAccess hp)) _ _ _).1, hserved.mem]

theorem State.mem_combineDone (op : AmoOp) (old : Nat) :
    (s.combineDone a op old).mem = s.mem.writeLE (gpaKey a.gpa) a.size (amoApply op (8 * a.size) old a.data a.data2) := by
  have hserved := s.served_countAccess a (s.missing a)
  rw [State.combineDone, State.mem_finishAcc, State.mem_awaitFills, (State.storeAt_plain (plainPlace_of_plainAccess hp) (runPoisoned_of_plainAccess (hserved.plainAccess hp)) _ _ _).1, hserved.mem]

theorem State.result_combineDone (hacc : s.accOf a.id = some a) (hsilent : a.silent = false) (op : AmoOp) (old : Nat) :
    ((s.combineDone a op old).accOf a.id).bind (fun b => b.result) = some (.value old) := by
  have hserved := s.served_countAccess a (s.missing a)
  have hnet := (State.storeAt_plain (plainPlace_of_plainAccess hp) (runPoisoned_of_plainAccess (hserved.plainAccess hp)) (amoApply op (8 * a.size) old a.data a.data2) { tag := a.tag, level := a.level, ctx := a.ctx } a.uncached).2
  obtain ⟨b, hb⟩ := State.accOf_awaitFills ((State.accOf_of_net (hnet.trans hserved.net) a.id).trans hacc) (s.partnersOf a) (s.missing a)
  exact State.result_finishAcc hsilent hb _

end

theorem State.perform_uncovered {sc : Nat} (hk : a.kind = .acquire sc) (hc : s.syncsCover a sc = false) : s.perform a = s.finishAcc a (.failed .scopeMismatch 0) := by
  rw [State.syncsCover, Bool.not_eq_false'] at hc
  simp only [State.perform, hk, hc, if_true]

theorem State.perform_store (hk : a.kind = .store) (hatt : isDbgAttach a.gpa = false) : s.perform a = s.writeDone a := by
  simp only [State.perform, hk, hatt, Bool.false_eq_true, if_false]
  rfl

theorem State.perform_release {sc : Nat} (hk : a.kind = .release sc) : s.perform a = (s.writeDone a).addSync a sc := by
  simp only [State.perform, hk]
  rfl

theorem State.mem_addSync (sc : Nat) : (s.addSync a sc).mem = s.mem := by
  unfold State.addSync
  dsimp only
  split <;> rfl

theorem State.mem_readDone (v : Nat) : (s.readDone a v).mem = s.mem := by
  rw [State.readDone, State.mem_finishAcc]
  exact (State.mem_awaitFills _ _).trans (s.served_countAccess a _).mem

theorem State.result_readDone (hacc : s.accOf a.id = some a) (hsilent : a.silent = false) (v : Nat) :
    ((s.readDone a v).accOf a.id).bind (fun b => b.result) = some (.value v) := by
  obtain ⟨b, hb⟩ := State.accOf_awaitFills ((State.accOf_of_net (s.served_countAccess a (s.missing a)).net a.id).trans hacc) (s.partnersOf a) (s.missing a)
  exact State.result_finishAcc (u := ((s.countAccess a (s.missing a)).awaitFills (s.partnersOf a) (s.missing a)).startMisses a.tag (s.missing a)) hsilent hb _

end

/-- Settles O21: each kind of access by what its home does with it in plain memory. -/
theorem accessesTakeEffectAtTheirHome : Obligations.AccessesTakeEffectAtTheirHome := by
  unfold Obligations.AccessesTakeEffectAtTheirHome
  intro s a ha hperf resultOf
  have hacc : s.accOf a.id = some a := by rw [State.id_of_accOf ha, ha]
  refine ⟨fun c hway => ?_, fun hway hplain => ?_⟩
  · have hserved := s.served_countFabric (fieldOfCtx a.ctx) 0x45 1
    refine ⟨_, execAccessPerformed_blocked ha hperf hway, fun hsilent => State.result_finishAcc hsilent ((State.accOf_of_net hserved.net a.id).trans hacc) _, fun b => ?_⟩
    rw [State.mem_finishAcc, hserved.mem]
  intro covered
  have hexec := execAccessPerformed_performs ha hperf hway hplain.1
  have hserved := s.served_countRequest a
  have hu := hserved.plainAccess hplain
  have huacc := (State.accOf_of_net hserved.net a.id).trans hacc
  have hcovered : ∀ sc, (s.countRequest a).syncsCover a sc = covered sc := fun sc => by
    rw [State.syncsCover, hserved.syncs, List.not_any_eq_all_not]
    simp [covered]
  refine ⟨fun hk => ?_, fun sc hk hc => ?_, fun hk hatt => ?_, fun op hk hsize => ?_⟩
  · have hread : a.kind = .load ∨ ∃ sc, a.kind = .acquire sc ∧ (s.countRequest a).syncsCover a sc = true := by simpa only [hcovered] using hk
    have hsilent : a.silent = false := by
      rcases hk with hk | ⟨sc, hk, -⟩
      · rw [Access.silent, hk]
      · rw [Access.silent, hk]
    rw [State.perform_read hu hread, hserved.mem] at hexec
    refine ⟨_, hexec, State.result_readDone huacc hsilent _, fun c => ?_⟩
    rw [State.mem_readDone, hserved.mem]
  · have hsilent : a.silent = false := by rw [Access.silent, hk]
    rw [State.perform_uncovered hk ((hcovered sc).trans hc)] at hexec
    refine ⟨_, hexec, State.result_finishAcc hsilent huacc _, fun c => ?_⟩
    rw [State.mem_finishAcc, hserved.mem]
  · have hmem : ((s.countRequest a).perform a).mem = s.mem.writeLE (gpaKey a.gpa) a.size a.data := by
      rcases hk with hk | ⟨sc, hk⟩
      · rw [State.perform_store hk hatt, State.mem_writeDone hu, hserved.mem]
      · rw [State.perform_release hk, State.mem_addSync, State.mem_writeDone hu, hserved.mem]
    refine ⟨_, hexec, ?_, fun c hc => ?_⟩
    · rw [hmem, Memory.readLE_writeLE, two_pow_bytes]
    · rw [hmem, Memory.read_writeLE_outside _ _ _ hc]
  · intro b old hv _
    have hold : s.mem.readLE (gpaKey a.gpa) a.size < 2 ^ b := s.mem.readLE_lt _ _
    rw [State.perform_combine hu hk, hserved.mem] at hexec
    have hmem := (State.mem_combineDone hu op (s.mem.readLE (gpaKey a.gpa) a.size)).trans (by rw [hserved.mem])
    refine ⟨_, hexec, ?_, fun hk => ?_, fun c hc => ?_⟩
    · rw [hmem, Memory.readLE_writeLE, two_pow_bytes, ← ofNat_amoApply op (show 0 < b by omega) hold hv]
      exact BitVec.eq_of_toNat_eq (by rw [BitVec.toNat_ofNat, BitVec.toNat_ofNat]; exact Nat.mod_mod _ _)
    · rw [show old.toNat = s.mem.readLE (gpaKey a.gpa) a.size from Nat.mod_eq_of_lt hold]
      exact State.result_combineDone hu huacc (by rw [Access.silent, hk]) op _
    · rw [hmem, Memory.read_writeLE_outside _ _ _ hc]

end Sys2Proof.Machine
end

section
/-! SUPPORT. Engines, ring transfers, operations and barriers after their issue: R222, R228 to R232, R244, R245, R370, R381, R394 to R400, R404. -/

namespace Sys2Proof.Machine

/-! ### Engine occupancy and ring transfers (R370, R381) -/

theorem State.latchAt_updLatch (s : State) (t j : Nat) (g : Latch → Latch) : ((s.updLatch t j g).tileOf t).eng.latchAt j = g ((s.tileOf t).eng.latchAt j) := by
  rw [State.updLatch, State.tileOf_updTile_self]
  exact KMap.get_put_self _ _ _ _

/-- A transfer that has the link, and when its last beat leaves and arrives. -/
def State.ringStarted (s : State) (x : RingXfer) : RingXfer :=
  let leaves := s.now + (x.contents.bytes + 127) / 128 * meshUnits
  { x with phase := 1, leaves := leaves, arrives := leaves + (2 + (s.ringNext x.src).2) * meshUnits }

section
variable {s : State} {x : RingXfer} (hx : s.rings[s.arg.unit]? = some x) (hdue : s.ringDue s.arg.unit = true)
include hx hdue

theorem execRingTransfer_starts (hph : x.phase = 0) : exec .ringTransfer s =
    .next (({ s with rings := setAt s.rings s.arg.unit (some (s.ringStarted x)) } : State).updLatch x.dst x.latch (fun l => { l with pend := true })) := by
  refine (show execRingTransfer s = _ from rfl).trans ?_
  simp only [execRingTransfer, hx, hdue, hph, Bool.not_true, Bool.false_eq_true, if_false]
  rfl

theorem execRingTransfer_leaves (hph : x.phase = 1) : exec .ringTransfer s =
    .next (({ s with rings := setAt s.rings s.arg.unit (some { x with phase := 2 }) } : State).updLatch x.src x.srcLatch (fun l => { l with send := false, valid := false })) := by
  refine (show execRingTransfer s = _ from rfl).trans ?_
  simp only [execRingTransfer, hx, hdue, hph, Bool.not_true, Bool.false_eq_true, if_false]

theorem execRingTransfer_arrives (hph : 2 ≤ x.phase) : exec .ringTransfer s =
    .next (({ s with rings := setAt s.rings s.arg.unit none } : State).updLatch x.dst x.latch (fun l =>
      { l with valid := true, ring := true, pend := false, rseq := (l.rseq + 1) % 65536, fmt := x.contents.fmt, geo := x.contents.geo, k := x.contents.k, data := x.contents.data,
               scales := x.contents.scales, ready := 0 })) := by
  obtain ⟨n, hn⟩ := Nat.exists_eq_add_of_le' hph
  refine (show execRingTransfer s = _ from rfl).trans ?_
  simp only [execRingTransfer, hx, hdue, hn, Bool.not_true, Bool.false_eq_true, if_false]

end

theorem engineOccupancyAndRingTransfers_holds : engineOccupancyAndRingTransfers := by
  refine ⟨fun s hover => ⟨_, (show execEngineOccupancyEnd s = _ from if_pos hover), congrArg Tile.eng (State.tileOf_updTile_self _ _ _), congrArg Tile.engShown (State.tileOf_updTile_self _ _ _)⟩, ?_⟩
  · rintro x s ⟨hx, hdue⟩
    obtain h0 | h1 | h2 : x.phase = 0 ∨ x.phase = 1 ∨ 2 ≤ x.phase := by omega
    · refine ⟨_, execRingTransfer_starts hx hdue h0, fun _ => ⟨⟨s.ringStarted x, rfl, rfl, rfl, rfl, rfl⟩, ?_⟩, fun h => ?_, fun h => ?_⟩
      · rw [State.latchAt_updLatch]
      · omega
      · omega
    · refine ⟨_, execRingTransfer_leaves hx hdue h1, fun h => ?_, fun _ => ⟨rfl, ?_⟩, fun h => ?_⟩
      · omega
      · rw [State.latchAt_updLatch]
        exact ⟨rfl, rfl⟩
      · omega
    · refine ⟨_, execRingTransfer_arrives hx hdue h2, fun h => ?_, fun h => ?_, fun _ => ⟨rfl, ?_⟩⟩
      · omega
      · omega
      · rw [State.latchAt_updLatch]
        exact ⟨rfl, rfl, rfl, rfl, rfl, rfl, rfl, rfl, rfl⟩

/-! ### Plies that leave their barrier (R229 to R231) -/

/-- Between two states plies have completed: barriers have changed, waiting firings have been answered, and the pacer has been told. -/
def PliesDone (s u : State) : Prop := ({ u with ctxs := s.ctxs, cores := s.cores, hubs := s.hubs, bank := s.bank } : State) = s

namespace PliesDone

variable {s t u : State}

theorem trans (h : PliesDone s t) (h' : PliesDone t u) : PliesDone s u := by
  unfold PliesDone at *
  rw [← h]
  exact (congrArg (fun v : State => { v with ctxs := s.ctxs, cores := s.cores, hubs := s.hubs, bank := s.bank }) h' :)

theorem of_bank (s : State) (l : Bank) : PliesDone s { s with bank := l } := rfl

theorem of_waitersTold (h : WaitersTold s u) : PliesDone s u := (congrArg (fun v : State => { v with bank := s.bank }) h.rest :)

theorem part {α : Type} (h : PliesDone s u) (p : State → α) (hp : ∀ v : State, p { v with ctxs := s.ctxs, cores := s.cores, hubs := s.hubs, bank := s.bank } = p v) : p u = p s := by
  rw [← hp u, h]

theorem mem (h : PliesDone s u) : u.mem = s.mem := h.part State.mem (fun _ => rfl)
theorem net (h : PliesDone s u) : u.net = s.net := h.part State.net (fun _ => rfl)
theorem opAt (h : PliesDone s u) (t j : Nat) : u.opAt t j = s.opAt t j := h.part (fun v => v.opAt t j) (fun _ => rfl)

end PliesDone

/-- The oldest ply of a barrier leaves it with a status: the pacer and the waiters are told, and the barrier goes on to the next. -/
def State.plyLeaves (s : State) (f b st : Nat) : State :=
  let o := s.barAt f b
  let slot := o.oldest % 4
  let s1 := if o.pace && !o.povf.get false slot then
      { s with bank := { s.bank with plyReports := s.bank.plyReports ++
        [{ device := s.loith.device, barrier := 256 * f + b, owner := o.owner, ply := o.oldest, since := o.done, arrivals := (o.parr.get [] slot).map (fun e => e.2), spans := o.scope = 5 }] } }
    else s
  (s1.releaseWaiters f b o.oldest st).updBar f b (fun o => o.finishPly st s.rtime)

section
variable (s : State) (f b : Nat)

theorem State.tryComplete_stops (h : (s.barAt f b).oldestStatus s.rtime = none) (n : Nat) : State.tryComplete f b n s = s := by
  cases n with
  | zero => rfl
  | succ n => simp only [State.tryComplete, h]

/-- A barrier that has changed stands so where its oldest ply is not due. -/
theorem State.barAt_tryComplete_stops {o : Barrier} (h : o.oldestStatus s.rtime = none) (n : Nat) : (State.tryComplete f b n (s.updBar f b (fun _ => o))).barAt f b = o := by
  rw [State.tryComplete_stops, State.barAt_updBar_self]
  rw [State.barAt_updBar_self]
  exact h

theorem State.tryComplete_goes {st : Nat} (h : (s.barAt f b).oldestStatus s.rtime = some st) (n : Nat) :
    State.tryComplete f b (n + 1) s = State.tryComplete f b n (s.plyLeaves f b st) := by
  simp only [State.tryComplete, h]
  rfl

theorem State.pliesDone_plyLeaves (st : Nat) : PliesDone s (s.plyLeaves f b st) := by
  have htold := fun u : State => PliesDone.of_waitersTold ((State.waitersTold_releaseWaiters u f b (s.barAt f b).oldest st).trans (State.waitersTold_updBar _ f b (fun o => o.finishPly st s.rtime)))
  unfold State.plyLeaves
  dsimp only
  split
  · exact (PliesDone.of_bank s _).trans (htold _)
  · exact htold s

/-- The barrier after its oldest ply has left (R231). -/
theorem State.barAt_plyLeaves (st : Nat) : (s.plyLeaves f b st).barAt f b =
    { (s.barAt f b).finishPly st s.rtime with waiters := (s.barAt f b).waiters.filter (fun w => w.2 ≠ (s.barAt f b).oldest) } := by
  unfold State.plyLeaves
  dsimp only
  rw [State.barAt_updBar_self, State.barAt_releaseWaiters, if_pos ⟨rfl, rfl⟩]
  split <;> rfl

theorem State.pliesDone_tryComplete (n : Nat) : PliesDone s (State.tryComplete f b n s) := by
  induction n generalizing s with
  | zero => rfl
  | succ n ih =>
    cases h : (s.barAt f b).oldestStatus s.rtime with
    | none =>
      rw [s.tryComplete_stops f b h]
      rfl
    | some st =>
      rw [s.tryComplete_goes f b h]
      exact (s.pliesDone_plyLeaves f b st).trans (ih _)

end

/-! ### Arrivals and deliveries at the hub (R228, R229) -/

section
variable (s : State) (f b m e tag field : Nat)

/-- A barrier that has counted an arrival of member m with e bytes to come for its ply. -/
def Barrier.arrived (o : Barrier) (m e time : Nat) : Barrier :=
  let l := o.lead.get 0 m
  let slot := (o.oldest + l) % 2 ^ 32 % 4
  { o with bal := o.bal.put slot (o.bal.get 0 slot + e), arr := o.arr.put slot (o.arr.get 0 slot + 1), lead := o.lead.put m (l + 1), last := o.last.put slot time }

/-- The same, with the arrival's field among those of its ply where the barrier is paced (R232). -/
def Barrier.arrivedFrom (o : Barrier) (m e field time : Nat) : Barrier :=
  if o.pace then (o.arrived m e time).recordField ((o.oldest + o.lead.get 0 m) % 2 ^ 32 % 4) field (time % 2 ^ 56) else o.arrived m e time

theorem Barrier.oldestStatus_recordField (o : Barrier) (slot field time now : Nat) : (o.recordField slot field time).oldestStatus now = o.oldestStatus now := by
  unfold Barrier.recordField
  dsimp only
  split
  · rfl
  · split <;> rfl

theorem Barrier.oldestStatus_arrivedFrom (o : Barrier) (now : Nat) : (o.arrivedFrom m e field now).oldestStatus now = (o.arrived m e now).oldestStatus now := by
  unfold Barrier.arrivedFrom
  split
  · exact Barrier.oldestStatus_recordField _ _ _ _ _
  · rfl

theorem State.arrive_bad (h : (s.barAt f b).valid = false ∨ (s.barAt f b).owner ≠ tag ∨ (s.barAt f b).mm1 < m) : s.arrive f b m e tag field = (.bad .barBad, s) := by
  unfold State.arrive
  exact if_pos (by simpa using h)

section
variable {s f b m e tag field} (hv : (s.barAt f b).valid = true) (ho : (s.barAt f b).owner = tag) (hm : m ≤ (s.barAt f b).mm1)
include hv ho hm

theorem State.arrive_member : s.arrive f b m e tag field =
    if (s.barAt f b).lead.get 0 m ≥ 3 then (.refused, s)
    else if (s.barAt f b).bal.get 0 (((s.barAt f b).oldest + (s.barAt f b).lead.get 0 m) % 2 ^ 32 % 4) + (e : Int) > 2 ^ 39 - 1 then (.bad .barRange, s)
    else (.ply (((s.barAt f b).oldest + (s.barAt f b).lead.get 0 m) % 2 ^ 32), State.tryComplete f b 4 (s.updBar f b (fun _ => (s.barAt f b).arrivedFrom m e field s.rtime))) := by
  unfold State.arrive
  exact if_neg (by simp [hv, ho, hm])

end

end

/-- An arrival that its hub can count now: none of those in flight from a field in relock, and by a way that is free (R228, R231). -/
def arrivalDue (s : State) (a : Access) : Prop :=
  s.accOf s.arg.value = some a ∧ a.kind = .arrival ∧ a.result = none ∧ a.reach ≠ 3 ∧ s.masked 0 = false ∧ (s.hubOf (fieldOfTile (tileOfCtx a.ctx))).locking = none ∧
    s.wayCause (tileOfCtx a.ctx) a.gpa = none

/-- A context whose arrival has been refused sends it again (R228). -/
def Ctx.arrivalRefused (id time : Nat) (c : Ctx) : Ctx :=
  if c.hold = some id then
    { c with hold := none, refusedArr := true, stall := if c.refusedArr then c.stall.map (fun p => (p.1, Cause.waitBar)) else some (time, Cause.waitBar) }
  else c

/-- How the hub that an arrival names takes it. -/
def State.arrivalTaken (s : State) (a : Access) : Arrival × State :=
  s.arrive (gpaHub a.gpa) ((gpaHubOff a.gpa - 0x300000) / 0x400) a.data2 a.data a.tag (fieldOfTile (tileOfCtx a.ctx))

section
variable {s s1 : State} {a : Access} (hdue : arrivalDue s a)
include hdue

theorem execBarrierArrival_counted {p : Nat} (h : s.arrivalTaken a = (.ply p, s1)) : exec .barrierArrival s = .next (s1.resultOf [a.id] (.value p)) := by
  obtain ⟨ha, hk, hr, hreach, hmask, hlock, hway⟩ := hdue
  rw [State.arrivalTaken] at h
  refine (show execBarrierArrival s = _ from rfl).trans ?_
  simp [execBarrierArrival, ha, hk, hr, hreach, hmask, hlock, hway, h]

theorem execBarrierArrival_fails {c : Cause} (h : s.arrivalTaken a = (.bad c, s1)) : exec .barrierArrival s = .next (s1.resultOf [a.id] (.failed c 0)) := by
  obtain ⟨ha, hk, hr, hreach, hmask, hlock, hway⟩ := hdue
  rw [State.arrivalTaken] at h
  refine (show execBarrierArrival s = _ from rfl).trans ?_
  simp [execBarrierArrival, ha, hk, hr, hreach, hmask, hlock, hway, h]

theorem execBarrierArrival_refused (h : s.arrivalTaken a = (.refused, s1)) : exec .barrierArrival s = .next ((s1.dropAcc a.id).updCtx a.ctx (Ctx.arrivalRefused a.id s.rtime)) := by
  obtain ⟨ha, hk, hr, hreach, hmask, hlock, hway⟩ := hdue
  rw [State.arrivalTaken] at h
  refine (show execBarrierArrival s = _ from rfl).trans ?_
  simp [execBarrierArrival, ha, hk, hr, hreach, hmask, hlock, hway, h]
  rfl

end

theorem execBarrierArrival_completes {s : State} {a : Access} (hdue : arrivalDue s a) : ∃ t, exec .barrierArrival s = .next t := by
  rcases h : s.arrivalTaken a with ⟨p | _ | c, s1⟩
  · exact ⟨_, execBarrierArrival_counted hdue h⟩
  · exact ⟨_, execBarrierArrival_refused hdue h⟩
  · exact ⟨_, execBarrierArrival_fails hdue h⟩

/-- An operation after the delivery of its first item that waits for one (R229, R245). -/
def Op.delivered (o : Op) (item : Nat) (rest : List (Nat × Nat)) (c : Option Cause) : Op :=
  let w := o.widthAt item
  let o1 := { o with deliv := rest, cursor := item + w }
  match c with
  | none => { o1 with okItems := o.okItems + w }
  | some c => o1.failItems item w c

section
variable {s s1 : State} {item n : Nat} {rest : List (Nat × Nat)} {c : Option Cause}

theorem Op.delivered_moves (o : Op) : (o.delivered item rest c).deliv = rest ∧ (o.delivered item rest c).cursor = item + o.widthAt item := by
  cases c <;> exact ⟨rfl, rfl⟩

theorem Op.delivered_fails (o : Op) (c : Cause) : (o.delivered item rest (some c)).failed = o.failed + o.widthAt item ∧ (o.failed = 0 → (o.delivered item rest (some c)).firstCause = c) :=
  ⟨rfl, fun h => if_pos h⟩

theorem execBarrierDelivery_delivers (h : (s.opAt s.arg.unit s.arg.other).deliv = (item, n) :: rest)
    (hd : s.deliver (tailRef (s.opAt s.arg.unit s.arg.other).desc / 256) (tailRef (s.opAt s.arg.unit s.arg.other).desc % 256) (tailPly (s.opAt s.arg.unit s.arg.other).desc) n
      (s.opAt s.arg.unit s.arg.other).tag = (c, s1)) :
    exec .barrierDelivery s = .next (s1.updOp s.arg.unit s.arg.other (fun o => o.delivered item rest c)) := by
  refine (show execBarrierDelivery s = _ from rfl).trans ?_
  simp only [execBarrierDelivery, h, hd]
  rfl

end

section
variable (s : State) (f b p n tag : Nat)

theorem State.pliesDone_deliver : PliesDone s (s.deliver f b p n tag).2 := by
  unfold State.deliver
  dsimp only
  split_ifs
  · rfl
  · rfl
  · rfl
  · exact (PliesDone.of_waitersTold (s.waitersTold_updBar f b _)).trans (State.pliesDone_tryComplete _ f b 4)

variable {s f b p n tag}

theorem State.deliver_bad (h : (s.barAt f b).valid = false ∨ (s.barAt f b).owner ≠ tag) : s.deliver f b p n tag = (some .barBad, s) := by
  unfold State.deliver
  exact if_pos (by simpa using h)

section
variable (hv : (s.barAt f b).valid = true) (ho : (s.barAt f b).owner = tag)
include hv ho

theorem State.deliver_owner : s.deliver f b p n tag =
    if (p + 2 ^ 32 - (s.barAt f b).oldest) % 2 ^ 32 > 3 then (some .barPly, s)
    else if (s.barAt f b).bal.get 0 (p % 4) - (n : Int) < -2 ^ 39 then (some .barRange, s)
    else (none, State.tryComplete f b 4 (s.updBar f b (fun _ => { s.barAt f b with bal := (s.barAt f b).bal.put (p % 4) ((s.barAt f b).bal.get 0 (p % 4) - n) }))) := by
  unfold State.deliver
  exact if_neg (by simp [hv, ho])

end
end

theorem barriersCountArrivalsAndBytes_holds : barriersCountArrivalsAndBytes := by
  refine ⟨fun a s hdue => ?_, fun item n rest s hdeliv => ?_, fun st s hlate => ?_⟩
  · obtain ⟨t, ht⟩ := execBarrierArrival_completes hdue
    have hid : a.id = s.arg.value := State.id_of_accOf hdue.1
    have hself : s.arg.value ∈ [a.id] := List.mem_singleton.2 hid.symm
    refine ⟨t, ht, ?_⟩
    beta_reduce
    intro f b o l p o1 res
    have hfails : ∀ c, s.arrivalTaken a = (.bad c, s) → res = some (.failed c 0) ∧ t.barAt f b = o := fun c h => by
      obtain rfl := Host.Outcome.next.inj (ht.symm.trans (execBarrierArrival_fails hdue h))
      exact ⟨State.result_resultOf hself hdue.1 _, State.barAt_of_hubs rfl f b⟩
    refine ⟨fun h => hfails _ (State.arrive_bad _ _ _ _ _ _ _ h), fun hv ho hm hl => ?_, fun hv ho hm hl hbal => ?_, fun hv ho hm hl hbal => ?_⟩
    · obtain rfl := Host.Outcome.next.inj (ht.symm.trans (execBarrierArrival_refused hdue ((State.arrive_member hv ho hm).trans (if_pos hl))))
      refine ⟨?_, State.barAt_of_hubs rfl f b⟩
      exact hid ▸ s.accOf_dropAcc a.id
    · exact hfails _ ((State.arrive_member hv ho hm).trans ((if_neg (Nat.not_le.2 hl)).trans (if_pos hbal)))
    · have hgo : s.arrivalTaken a = _ := (State.arrive_member hv ho hm).trans ((if_neg (Nat.not_le.2 hl)).trans (if_neg (Int.not_lt.2 hbal)))
      obtain rfl := Host.Outcome.next.inj (ht.symm.trans (execBarrierArrival_counted hdue hgo))
      have hdone := (PliesDone.of_waitersTold (s.waitersTold_updBar f b (fun _ => o.arrivedFrom a.data2 a.data (fieldOfTile (tileOfCtx a.ctx)) s.rtime))).trans (State.pliesDone_tryComplete _ f b 4)
      refine ⟨State.result_resultOf hself ((State.accOf_of_net hdone.net _).trans hdue.1) _, fun hnone => ?_⟩
      exact (State.barAt_of_hubs rfl f b).trans (s.barAt_tryComplete_stops f b (hnone ▸ o.oldestStatus_arrivedFrom _ _ _ _) 4)
  · let o := s.opAt s.arg.unit s.arg.other
    rcases hd : s.deliver (tailRef o.desc / 256) (tailRef o.desc % 256) (tailPly o.desc) n o.tag with ⟨c, s1⟩
    have hdone : PliesDone s s1 := by
      have h := s.pliesDone_deliver (tailRef o.desc / 256) (tailRef o.desc % 256) (tailPly o.desc) n o.tag
      rwa [hd] at h
    have hop : (s1.updOp s.arg.unit s.arg.other (fun o => o.delivered item rest c)).opAt s.arg.unit s.arg.other = o.delivered item rest c := by
      rw [State.opAt_updOp, hdone.opAt]
    obtain ⟨hrest, hcursor⟩ := o.delivered_moves (item := item) (rest := rest) (c := c)
    refine ⟨_, execBarrierDelivery_delivers hdeliv hd, ?_⟩
    beta_reduce
    intro _ f b r slot r1 refused
    have hrefused : ∀ c', s.deliver f b (tailPly o.desc) n o.tag = (some c', s) → refused c' := fun c' h => by
      obtain ⟨rfl, rfl⟩ := Prod.mk.inj (hd.symm.trans h)
      obtain ⟨hfailed, hfirst⟩ := o.delivered_fails (item := item) (rest := rest) c'
      exact ⟨(congrArg Op.failed hop).trans hfailed, State.barAt_of_hubs rfl f b, fun h => (congrArg Op.firstCause hop).trans (hfirst h)⟩
    refine ⟨(congrArg Op.deliv hop).trans hrest, (congrArg Op.cursor hop).trans hcursor, fun hv ho hply hbal => ?_, fun h => hrefused _ (State.deliver_bad h), fun hv ho hply => ?_,
      fun hv ho hply hbal => ?_⟩
    · have hgo := (State.deliver_owner hv ho).trans ((if_neg (Nat.not_lt.2 hply)).trans (if_neg (Int.not_lt.2 hbal)))
      obtain ⟨rfl, rfl⟩ := Prod.mk.inj (hd.symm.trans hgo)
      refine ⟨hop, fun hnone => ?_⟩
      exact (State.barAt_of_hubs rfl f b).trans (s.barAt_tryComplete_stops f b hnone 4)
    · exact hrefused _ ((State.deliver_owner hv ho).trans (if_pos hply))
    · exact hrefused _ ((State.deliver_owner hv ho).trans ((if_neg (Nat.not_lt.2 hply)).trans (if_pos hbal)))
  · obtain ⟨hv, hst, hnone⟩ := hlate
    let u := s.plyLeaves s.arg.unit s.arg.other st
    have hbar := s.barAt_plyLeaves s.arg.unit s.arg.other st
    have htime : u.rtime = s.rtime := (s.pliesDone_plyLeaves s.arg.unit s.arg.other st).part State.rtime (fun _ => rfl)
    have hstop : (u.barAt s.arg.unit s.arg.other).oldestStatus u.rtime = none := by rw [hbar, htime, hnone]
    refine ⟨u, (show execBarrierTimeout s = _ from if_pos hv).trans ?_, hbar⟩
    rw [s.tryComplete_goes _ _ hst, State.tryComplete_stops _ _ _ hstop]

end Sys2Proof.Machine
end

section
/-! SUPPORT. Operations after their issue: R41, R222, R244, R245, R394 to R400, R403, R404. -/

namespace Sys2Proof.Machine

/-! ### Items at the cursor (R244, R245, R398) -/

section
variable (s : State) (t j : Nat)

theorem State.opAt_of_tiles {s u : State} (h : u.tiles = s.tiles) (t j : Nat) : u.opAt t j = s.opAt t j := by
  rw [State.opAt, State.opAt, State.tileOf, State.tileOf, h]

theorem State.opAt_failOp (c : Cause) : (s.failOp t j c).opAt t j =
    { (s.opAt t j).failItems (s.opAt t j).cursor (s.opAt t j).width c with cursor := (s.opAt t j).cursor + (s.opAt t j).width, offload := [] } := s.opAt_updOp t j _

theorem State.pieceFails_failOp (c : Cause) : PieceFails (s.opAt t j) ((s.failOp t j c).opAt t j) c := by
  rw [State.opAt_failOp]
  exact ⟨rfl, rfl, fun h => if_pos h⟩

theorem State.pliesDone_opDeliver (n : Nat) : PliesDone s (s.opDeliver t j n).2 := by
  unfold State.opDeliver
  dsimp only
  split
  · exact s.pliesDone_deliver _ _ _ _ _
  · rfl

/-- The delivery of an item waits for another device (R229). -/
def Op.deliversLater (o : Op) : Bool := o.away && tailDelivers o.desc && !o.shadow

section
variable {s t j} {s1 s2 : State} {n b : Nat}

theorem State.takeItem_later (h : (s1.opAt t j).deliversLater = true) :
    s.takeItem t j (.ok (s1, n, b)) = s1.updOp t j (fun o => { o with deliv := [(o.cursor, b)], away := false, offload := [] }) := if_pos h

theorem State.takeItem_passes (h : (s1.opAt t j).deliversLater = false) (hd : s1.opDeliver t j b = (none, s2)) :
    s.takeItem t j (.ok (s1, n, b)) = s2.updOp t j (fun o => { o.passItem n with away := false }) := by
  refine (if_neg (ne_true_of_eq_false h)).trans ?_
  rw [hd]

theorem State.takeItem_fails {c : Cause} (h : (s1.opAt t j).deliversLater = false) (hd : s1.opDeliver t j b = (some c, s2)) :
    s.takeItem t j (.ok (s1, n, b)) = s2.failOp t j c := by
  refine (if_neg (ne_true_of_eq_false h)).trans ?_
  rw [hd]

end

/-- An item that is done in `s1` is passed with its delivery, or waits for it (R229, R245). -/
theorem State.itemDone_takeItem (s1 : State) (n b : Nat) : ItemDone s1 (s.takeItem t j (.ok (s1, n, b))) t j n b := by
  have hdone := s1.pliesDone_opDeliver t j b
  rcases hd : s1.opDeliver t j b with ⟨r, s2⟩
  rw [hd] at hdone
  cases hlater : (s1.opAt t j).deliversLater with
  | true =>
    rw [State.takeItem_later hlater, ItemDone, State.opAt_updOp]
    exact ⟨rfl, rfl, fun _ => ⟨rfl, rfl⟩, fun h => absurd (h.symm.trans hlater) Bool.false_ne_true, fun _ h => absurd (h.symm.trans hlater) Bool.false_ne_true⟩
  | false =>
    have hnow : ∀ {p : Prop}, (s1.opAt t j).deliversLater = true → p := fun h => absurd (hlater.symm.trans h) Bool.false_ne_true
    cases r with
    | none =>
      rw [State.takeItem_passes hlater hd, ItemDone, State.opAt_updOp, hdone.opAt, hd]
      exact ⟨hdone.mem, rfl, hnow, fun _ _ => ⟨rfl, rfl⟩, fun _ _ h => by cases h⟩
    | some c =>
      rw [State.takeItem_fails hlater hd, ItemDone, State.opAt_failOp, hdone.opAt, hd]
      refine ⟨hdone.mem, rfl, hnow, fun _ h => absurd h (Option.some_ne_none c), fun _ _ h => ?_⟩
      cases h
      have hfails := s2.pieceFails_failOp t j c
      rwa [State.opAt_failOp, hdone.opAt] at hfails

end

/-! ### Events of operations (R244, R398, R400) -/

section
variable (s : State) (u j : Nat)

theorem execOperationPiece_due (h : pieceDue s s.arg.unit s.arg.other) : exec .operationPiece s =
    .next ((withoutDark s s.arg.unit s.arg.other).takeItem s.arg.unit s.arg.other
      ((withoutDark s s.arg.unit s.arg.other).opItem s.arg.unit ((withoutDark s s.arg.unit s.arg.other).opAt s.arg.unit s.arg.other) false)) := by
  obtain ⟨hstate, hcursor, hoff, hdeliv, hturn, hstill⟩ := h
  refine (show execOperationPiece s = _ from if_neg ?_).trans ?_
  · simp [hstate, Nat.not_le.2 hcursor, hoff, hdeliv, hturn]
  · simp only [hstill, Bool.false_and, Bool.false_eq_true, if_false]
    rfl

theorem withoutDark_keeps : ({ withoutDark s u j with tiles := s.tiles } : State) = s := by
  unfold withoutDark
  dsimp only
  split <;> rfl

theorem cursor_withoutDark : ((withoutDark s u j).opAt u j).cursor = (s.opAt u j).cursor := by
  unfold withoutDark
  dsimp only
  split
  · rfl
  · rw [State.opAt_updOp]
    exact List.foldlRecOn (motive := fun o : Op => o.cursor = (s.opAt u j).cursor) _ _ rfl (fun o ho i _ => ho)

theorem State.postPacket_keeps (i : Nat) (cause : Cause) (slotA : Bool) (op : Nat) (pc : Word) (addr synd cursor : Nat) :
    (s.postPacket i 3 cause slotA op pc addr synd cursor).mem = s.mem ∧ (s.postPacket i 3 cause slotA op pc addr synd cursor).tiles = s.tiles := by
  have hreport := fun v : State => v.told_report (fieldOfCtx i) .noSupervisor (s.ctxOf i).tag [] [(s.ctxOf i).tag]
  have hmem := fun v : State => (hreport v).part State.mem (fun _ => rfl)
  have htiles := fun v : State => (hreport v).part State.tiles (fun _ => rfl)
  unfold State.postPacket State.postFor
  dsimp only
  split
  · exact ⟨rfl, rfl⟩
  · split
    · exact ⟨hmem _, htiles _⟩
    · exact ⟨rfl, rfl⟩

theorem State.suspendOp_effects (c a y : Nat) : let o := (s.suspendOp u j c a y).opAt u j
    o.state = 2 ∧ o.cause = c ∧ o.addr = a ∧ o.cursor = (s.opAt u j).cursor ∧ (s.suspendOp u j c a y).mem = s.mem ∧ (s.suspendOp u j c a y).ctxs = s.ctxs := by
  intro o
  let s1 := s.updOp u j (fun o => { o with state := 2, cause := c, addr := a, offload := [] })
  obtain ⟨hmem, htiles⟩ := (s1.opView u (s.opAt u j)).postPacket_keeps (16 * u + 8 * (s.opAt u j).core + (s.opAt u j).ctx) c false j (s.opAt u j).pc a y (s.opAt u j).cursor
  have ho : o = { s.opAt u j with state := 2, cause := c, addr := a, offload := [] } := 
    (State.opAt_of_tiles (s := s1) htiles u j).trans (s.opAt_updOp u j _)
  exact ⟨by rw [ho], by rw [ho], by rw [ho], by rw [ho], hmem, rfl⟩

end

section
variable {s : State}

/-- The chips have answered for an item that waits for them (R400). -/
theorem execOffloadReply_refuses (hstate : (s.opAt s.arg.unit s.arg.other).state = 1) (hoff : (s.opAt s.arg.unit s.arg.other).offload.any (fun e => e.1 = s.arg.value) = true)
    (hflag : s.arg.flag = true) : exec .offloadReply s = .next (s.failOp s.arg.unit s.arg.other Cause.offloadReject) := by
  refine (show execOffloadReply s = _ from rfl).trans ?_
  simp [execOffloadReply, hstate, hoff, hflag]

theorem execOffloadReply_answers (hstate : (s.opAt s.arg.unit s.arg.other).state = 1) (hoff : (s.opAt s.arg.unit s.arg.other).offload.any (fun e => e.1 = s.arg.value) = true)
    (hstill : s.tileStill s.arg.unit = false) (hflag : s.arg.flag = false) :
    exec .offloadReply s = .next (s.takeItem s.arg.unit s.arg.other (s.opItem s.arg.unit (s.opAt s.arg.unit s.arg.other) true)) := by
  refine (show execOffloadReply s = _ from rfl).trans ?_
  simp [execOffloadReply, hstate, hoff, hstill, hflag]

end

theorem operationItemsAreDone_holds : operationItemsAreDone := by
  refine ⟨?_, ?_, ?_, ?_, ?_, ?_, ?_, ?_, ?_⟩
  · rintro s1 n b s ⟨hdue, hitem⟩
    refine ⟨_, execOperationPiece_due s hdue, ?_⟩
    rw [hitem]
    exact State.itemDone_takeItem _ _ _ _ _ _
  · rintro c s ⟨hdue, hitem⟩
    refine ⟨_, execOperationPiece_due s hdue, ?_⟩
    rw [hitem]
    exact ⟨State.pieceFails_failOp _ _ _ _, (congrArg State.mem (withoutDark_keeps s _ _) :)⟩
  · rintro c m s1 s ⟨hdue, hitem⟩
    refine ⟨_, execOperationPiece_due s hdue, ?_⟩
    rw [hitem]
    have hdone := s1.pliesDone_opDeliver s.arg.unit s.arg.other m
    have hfails := State.pieceFails_failOp (s1.opDeliver s.arg.unit s.arg.other m).2 s.arg.unit s.arg.other c
    rw [hdone.opAt] at hfails
    exact ⟨hfails, hdone.mem, fun f b => State.barAt_of_hubs rfl f b⟩
  · rintro s ⟨hdue, hitem⟩
    refine ⟨_, execOperationPiece_due s hdue, ?_⟩
    rw [hitem]
    rfl
  · rintro c a y s ⟨hdue, hitem⟩
    refine ⟨_, execOperationPiece_due s hdue, ?_⟩
    rw [hitem]
    obtain ⟨hstate, hcause, haddr, hcursor, hmem, hctxs⟩ := State.suspendOp_effects (withoutDark s s.arg.unit s.arg.other) s.arg.unit s.arg.other c a y
    exact ⟨hstate, hcause, haddr, hcursor.trans (cursor_withoutDark s _ _), hmem.trans (congrArg State.mem (withoutDark_keeps s _ _) :), hctxs.trans (congrArg State.ctxs (withoutDark_keeps s _ _) :)⟩
  · rintro s ⟨hdue, hitem⟩
    refine ⟨_, execOperationPiece_due s hdue, ?_⟩
    rw [hitem]
    have htime : (withoutDark s s.arg.unit s.arg.other).rtime = s.rtime := (congrArg State.rtime (withoutDark_keeps s _ _) :)
    refine ⟨(State.opAt_updOp _ _ _ _).trans (by rw [htime]), (congrArg State.mem (withoutDark_keeps s _ _) :)⟩
  · rintro s ⟨hstate, hoff, -, hflag⟩
    exact ⟨_, execOffloadReply_refuses hstate hoff hflag, s.pieceFails_failOp _ _ _⟩
  · rintro s1 n b s ⟨hstate, hoff, hstill, hflag, hitem⟩
    refine ⟨_, execOffloadReply_answers hstate hoff hstill hflag, ?_⟩
    rw [hitem]
    exact s.itemDone_takeItem _ _ _ _ _
  · rintro s ⟨hstate, i, n, d, hmem, hlate⟩
    have hdue : (s.opAt s.arg.unit s.arg.other).offloadLate s.rtime = true := by
      rw [Op.offloadLate, hstate, decide_eq_true rfl, Bool.true_and, List.any_eq_true]
      exact ⟨_, hmem, decide_eq_true hlate⟩
    exact ⟨_, (show execOffloadTimeout s = _ from if_pos hdue), s.pieceFails_failOp _ _ _⟩

/-! ### Completion (R222, R394, R395) -/

section
variable {s s1 : State}

theorem opAt_ending (s : State) : (ending s).opAt s.arg.unit s.arg.other = { s.opAt s.arg.unit s.arg.other with state := 3 } := s.opAt_updOp _ _ _

theorem State.writeRecord_absent {t j : Nat} (h : tailStat (s.opAt t j).desc = 0) : s.writeRecord t j = some s := if_pos h

theorem State.writeRecord_written {t j : Nat} {ps : List Piece} (h : tailStat (s.opAt t j).desc ≠ 0)
    (hmap : s.opMap t (s.opAt t j) (tailStat (s.opAt t j).desc) (32 + 16 * (s.opAt t j).errs.length) .write = .ok ps)
    (hput : s.opWrite t (s.opAt t j) ps ((s.opAt t j).record j s.rtime) = .ok s1) : s.writeRecord t j = some s1 := by
  simp only [State.writeRecord, if_neg h, hmap, hput]

/-- The state in which an operation has a completion to send. -/
def State.withCompletion (s : State) (t j : Nat) (m : Msg) : State := s.updOp t j (fun o => { o with sending := some m })

section
variable (hends : opEnds s) (hrec : (ending s).writeRecord s.arg.unit s.arg.other = some s1)
include hends hrec

theorem execOperationComplete_frees (hword : (s.opAt s.arg.unit s.arg.other).word = none ∨ (s.opAt s.arg.unit s.arg.other).shadow = true) :
    exec .operationComplete s = .next (s1.freeOp s.arg.unit s.arg.other) := by
  obtain ⟨hstill, hsend, hdeliv, hover⟩ := hends
  have hnone : (if (s.opAt s.arg.unit s.arg.other).shadow then none else (s.opAt s.arg.unit s.arg.other).word) = none := by
    rcases hword with h | h
    · rw [h, ite_self]
    · rw [h, if_pos rfl]
  rw [ending] at hrec
  refine (show execOperationComplete s = _ from rfl).trans ?_
  simp [execOperationComplete, hstill, hsend, hdeliv, hover, hrec, hnone]

theorem execOperationComplete_sends {w : Word} (hword : (s.opAt s.arg.unit s.arg.other).word = some w) (hshadow : (s.opAt s.arg.unit s.arg.other).shadow = false) :
    exec .operationComplete s = .next (if (s.opAt s.arg.unit s.arg.other).dorm then s1.withCompletion s.arg.unit s.arg.other (s1.completion s.arg.unit s.arg.other w)
      else (s1.withCompletion s.arg.unit s.arg.other (s1.completion s.arg.unit s.arg.other w)).sendCompletion s.arg.unit s.arg.other (s1.completion s.arg.unit s.arg.other w)) := by
  obtain ⟨hstill, hsend, hdeliv, hover⟩ := hends
  rw [ending] at hrec
  refine (show execOperationComplete s = _ from rfl).trans ?_
  simp [execOperationComplete, hstill, hsend, hdeliv, hover, hrec, hword, hshadow, State.withCompletion]

end

/-- A completion says how its operation ended (R395). -/
theorem words_completion (s : State) (w : Word) : ((ending s).completion s.arg.unit s.arg.other w).words = completionWords s w ∧
    ((ending s).completion s.arg.unit s.arg.other w).capLo = (s.opAt s.arg.unit s.arg.other).capLo := by
  have hop := opAt_ending s
  have hout : ((ending s).opAt s.arg.unit s.arg.other).outcome s.arg.other = (s.opAt s.arg.unit s.arg.other).outcome s.arg.other := by rw [hop]; rfl
  have hcursor : ((ending s).opAt s.arg.unit s.arg.other).cursor = (s.opAt s.arg.unit s.arg.other).cursor := by rw [hop]
  refine ⟨?_, (congrArg Op.capLo hop :)⟩
  rw [completionWords, ← hout, ← hcursor]
  rfl

/-- A completion to an actor of this device leaves when its network takes it (R154, R165). -/
theorem State.sendCompletion_leaves {t j k a p vn d : Nat} {m : Msg} (hdev : capDev m.capLo = s.loith.device) (hport : s.completionPort m = some (k, a, p, vn)) (hvn : vn ≠ 2)
    (hmask : s.masked vn = false) (hinj : s.injectTo { m with core := k, act := a, port := p, vn := vn, dev := s.loith.device, router := some t } = .core d) :
    (s.sendCompletion t j m).flying = s.flying ++ [{ m with core := k, act := a, port := p, vn := vn, dev := s.loith.device, router := some t }] ∧
      (s.sendCompletion t j m).opAt t j = { cmderr := (s.opAt t j).cmderr } := by
  simp only [State.sendCompletion, hdev, hport, hmask, hinj, if_neg hvn, ne_eq, not_true_eq_false, if_false, Bool.false_eq_true]
  exact ⟨rfl, (State.opAt_of_tiles (s := s.freeOp t j) rfl t j).trans (s.opAt_updOp t j _)⟩

end

theorem operationsComplete_holds : operationsComplete := by
  have hstat : ∀ s : State, tailStat ((ending s).opAt s.arg.unit s.arg.other).desc = tailStat (s.opAt s.arg.unit s.arg.other).desc := fun s => by rw [opAt_ending]
  refine ⟨?_, ?_, ?_, ?_⟩
  · rintro s ⟨hends, hnone, hword⟩
    refine ⟨_, execOperationComplete_frees hends (State.writeRecord_absent ((hstat s).trans hnone)) hword, ?_, rfl⟩
    exact (State.opAt_updOp _ _ _ _).trans (by rw [opAt_ending])
  · rintro ps s1 s ⟨hends, hsome, hword, hmap, hput⟩
    rw [opAt_ending] at hword
    exact ⟨_, execOperationComplete_frees hends (State.writeRecord_written hsome hmap hput) hword, rfl, State.opAt_updOp _ _ _ _⟩
  · rintro w s ⟨hends, hnone, hword, hshadow, hdorm⟩
    obtain ⟨hwords, hcap⟩ := words_completion s w
    refine ⟨_, (execOperationComplete_sends hends (State.writeRecord_absent ((hstat s).trans hnone)) hword hshadow).trans (by rw [if_pos hdorm]), _, ?_, hcap, hwords⟩
    exact (congrArg Op.sending (State.opAt_updOp _ _ _ _) :)
  · rintro w m s2 k a p vn d s ⟨hends, hnone, hword, hshadow, hdorm, rfl, hdev, rfl, hport, hvn, hmask, hinj⟩
    have hexec := execOperationComplete_sends hends (State.writeRecord_absent ((hstat s).trans hnone)) hword hshadow
    obtain ⟨hflying, hfree⟩ := State.sendCompletion_leaves (s := (ending s).withCompletion s.arg.unit s.arg.other ((ending s).completion s.arg.unit s.arg.other w)) (j := s.arg.other) hdev hport hvn hmask hinj
    refine ⟨_, hexec.trans (congrArg Host.Outcome.next (if_neg (ne_true_of_eq_false hdorm))), hflying, (words_completion s w).1, hfree.trans ?_⟩
    rw [State.withCompletion, State.opAt_updOp, opAt_ending]

/-- Settles O55: each event by its occasion, and by what its part of the model then does. -/
theorem enginesOperationsAndBarriersProgress : Obligations.EnginesOperationsAndBarriersProgress :=
  ⟨engineOccupancyAndRingTransfers_holds, operationItemsAreDone_holds, operationsComplete_holds, barriersCountArrivalsAndBytes_holds⟩

end Sys2Proof.Machine
end

section
/-! SUPPORT. Taking a fault, the trap instructions, and the return from a freeze: R233, R235, R237, R239, R242, R253, R341. -/

namespace Sys2Proof.Machine

/-! ### A firing waits at no barrier any more (R233) -/

/-- A barrier without the waits of a firing. -/
def Barrier.leftBy (n : Nat) (b : Barrier) : Barrier := { b with waiters := b.waiters.filter (fun w => w.1 ≠ n) }

/-- A hub whose barriers a firing has left. -/
def Hub.leftBy (n : Nat) (h : Hub) : Hub := { h with barriers := h.barriers.map (fun e => (e.1, e.2.leftBy n)) }

theorem Hub.leftBy_of_absent {n : Nat} {h : Hub} (ha : ∀ e ∈ h.barriers, ∀ w ∈ e.2.waiters, w.1 ≠ n) : h.leftBy n = h := by
  have hmap : h.barriers.map (fun e => (e.1, e.2.leftBy n)) = h.barriers := by
    refine (List.map_congr_left fun e he => ?_).trans (List.map_id _)
    have hw : e.2.waiters.filter (fun w => w.1 ≠ n) = e.2.waiters := List.filter_eq_self.2 (by simpa using ha e he)
    rw [Barrier.leftBy, hw, id]
  rw [Hub.leftBy, hmap]

theorem State.hubOf_leaveBarriers (s : State) (n f : Nat) : (s.leaveBarriers n).hubOf f = (s.hubOf f).leftBy n := by
  unfold State.leaveBarriers
  split
  next => exact KMap.get_map (fun _ h => Hub.leftBy n h) (.inr rfl)
  next hnone =>
    obtain hd | hmem := KMap.get_default_or_mem ({} : Hub) s.hubs f
    · rw [State.hubOf, hd]
      rfl
    · refine (Hub.leftBy_of_absent fun e he w hw hn => hnone ?_).symm
      simp only [List.any_eq_true]
      exact ⟨_, hmem, e, he, w, hw, by simpa using hn⟩

theorem State.hubOf_leaveSemQueues (s : State) (i f : Nat) : (s.leaveSemQueues i).hubOf f = (s.hubOf f).leftBy (s.ctxOf i).firing :=
  State.hubOf_leaveBarriers _ _ _

/-! ### The packets of a freeze (R237, R239) -/

/-- Of the hubs, the fault sequence number of field `f` alone has advanced, by `n`. -/
def Numbered (f n : Nat) (s t : State) : Prop :=
  ∀ g, t.hubOf g = if g = f then { s.hubOf f with fseq := ((s.hubOf f).fseq + n) % 2 ^ 32 } else s.hubOf g

theorem Numbered.trans {f n m : Nat} {s t u : State} (h : Numbered f n s t) (h' : Numbered f m t u) : Numbered f (n + m) s u := fun g => by
  rw [h' g, h f, if_pos rfl, Nat.mod_add_mod, Nat.add_assoc]
  split
  · rfl
  · rw [h g, if_neg ‹_›]

theorem Numbered.of_hubs {f n : Nat} {s s' t t' : State} (h : Numbered f n s t) (hs : s'.hubs = s.hubs) (ht : t'.hubs = t.hubs) : Numbered f n s' t' := fun g => by
  rw [State.hubOf_congr ht, State.hubOf_congr hs, State.hubOf_congr hs]
  exact h g

section
variable (s : State) (i f : Nat) (c : Ctx) (cause : Cause) (slotA gpa : Bool) (addr synd : Nat)

theorem State.numbered_takeSeq : Numbered f 1 s (s.takeSeq f).2 := fun g => s.hubOf_updHub f g _

theorem State.numbered_report (tag : Nat) (items tags : List Nat) : Numbered f 1 s (s.report f cause tag items tags) := by
  refine (s.numbered_takeSeq f).of_hubs rfl ?_
  unfold State.report
  simp only
  split <;> rfl

/-- The packet of a freeze takes a number, and another when it finds no supervisor. -/
theorem State.numbered_postFor (op : Nat) (pc : Word) (cursor : Nat) :
    ∃ n, 1 ≤ n ∧ n ≤ 2 ∧ Numbered (fieldOfCtx i) n s (s.postFor i c 0 cause slotA gpa op pc addr synd cursor) := by
  have hone := s.numbered_takeSeq (fieldOfCtx i)
  unfold State.postFor
  simp only [if_true]
  split
  · exact ⟨1, le_refl 1, one_le_two, hone.of_hubs rfl rfl⟩
  · split
    · refine ⟨1 + 1, one_le_two, le_refl 2, Numbered.trans ?_ (State.numbered_report _ _ _ _ _ _)⟩
      exact hone.of_hubs rfl rfl
    · exact ⟨1, le_refl 1, one_le_two, hone.of_hubs rfl rfl⟩

/-- The freeze of a supervisor takes one more, for the platform's `SUP_FROZEN`. -/
theorem State.numbered_postFreeze : ∃ n, 1 ≤ n ∧ n ≤ 3 ∧ Numbered (fieldOfCtx i) n s (s.postFreeze i c cause slotA gpa addr synd) := by
  obtain ⟨n, h1, h2, hn⟩ := s.numbered_postFor i c cause slotA gpa addr synd 0 c.pc 0
  unfold State.postFreeze
  simp only
  split
  · exact ⟨n + 1, by omega, by omega, hn.trans (State.numbered_report _ _ _ _ _ _)⟩
  · exact ⟨n, h1, by omega, hn⟩

end

/-! ### The freeze (R235) -/

section
variable (s : State) (i : Nat) (e : FaultAt)

/-- A freeze, with the latent error that it reports taken away. -/
theorem State.freeze_eq : ∃ u : State, u.ctxs = s.ctxs ∧ u.hubs = s.hubs ∧ s.freeze i e =
    ((u.leaveSemQueues i).updCtx i (fun c => { c.frozen e.cause with haltAt := u.rtime })).postFreeze i (u.ctxOf i) e.cause e.slotA e.gpa e.addr e.synd := by
  refine ⟨if 0xA0 ≤ e.cause ∧ e.cause ≤ 0xA7 then { s with latent := none } else s, ?_, ?_, rfl⟩
  all_goals split <;> rfl

theorem State.ctxOf_freeze_other {j : Nat} (h : j ≠ i) : (s.freeze i e).ctxOf j = s.ctxOf j := by
  obtain ⟨u, hctxs, -, hfreeze⟩ := s.freeze_eq i e
  rw [hfreeze, State.ctxOf, State.ctxs_postFreeze, ← State.ctxOf, State.ctxOf_updCtx_other _ _ h, State.ctxOf, (u.leaveSemQueues_parts i).1, hctxs, State.ctxOf]

/-- The firing has left the barriers of every hub, and its own hub has numbered the packets of the freeze. -/
theorem State.hubOf_freeze : ∃ n, 1 ≤ n ∧ n ≤ 3 ∧ ∀ f, (s.freeze i e).hubOf f =
    if f = fieldOfCtx i then { (s.hubOf f).leftBy (s.ctxOf i).firing with fseq := ((s.hubOf f).fseq + n) % 2 ^ 32 } else (s.hubOf f).leftBy (s.ctxOf i).firing := by
  obtain ⟨u, hctxs, hhubs, hfreeze⟩ := s.freeze_eq i e
  have hleft : ∀ f, (u.leaveSemQueues i).hubOf f = (s.hubOf f).leftBy (s.ctxOf i).firing := fun f => by
    rw [State.hubOf_leaveSemQueues, State.hubOf_congr hhubs, State.ctxOf, hctxs, State.ctxOf]
  obtain ⟨n, h1, h3, hn⟩ := ((u.leaveSemQueues i).updCtx i (fun c => { c.frozen e.cause with haltAt := u.rtime })).numbered_postFreeze i (u.ctxOf i)
    e.cause e.slotA e.gpa e.addr e.synd
  refine ⟨n, h1, h3, fun f => ?_⟩
  have hpart : ∀ g, ((u.leaveSemQueues i).updCtx i (fun c => { c.frozen e.cause with haltAt := u.rtime })).hubOf g = (u.leaveSemQueues i).hubOf g := fun _ => rfl
  rw [hfreeze, hn f, hpart, hpart, hleft, hleft]
  split
  next h =>
    subst f
    rfl
  next => rfl

theorem State.barAt_freeze (f b : Nat) : (s.freeze i e).barAt f b = (s.barAt f b).leftBy (s.ctxOf i).firing := by
  obtain ⟨n, -, -, hhub⟩ := s.hubOf_freeze i e
  have hbars : ((s.freeze i e).hubOf f).barriers = ((s.hubOf f).leftBy (s.ctxOf i).firing).barriers := by
    rw [hhub f]
    split <;> rfl
  rw [State.barAt, hbars]
  exact KMap.get_map (fun _ x => Barrier.leftBy (s.ctxOf i).firing x) (.inr rfl)

end

theorem freezingKeepsTheContext_holds : freezingKeepsTheContext := by
  intro s i e t c
  have hc : c = { (s.ctxOf i).frozen e.cause with haltAt := s.rtime } := s.ctxOf_freeze i e
  have htaken := s.faultTaken_freeze i e
  have hmem : t.mem = s.mem := htaken.part State.mem (fun _ => rfl)
  obtain ⟨n, h1, h3, hhub⟩ := s.hubOf_freeze i e
  rw [hc]
  refine ⟨rfl, rfl, rfl, rfl, rfl, rfl, rfl, rfl, rfl, rfl, rfl, rfl, rfl, fun j hj => s.ctxOf_freeze_other i e hj, htaken.part State.cores (fun _ => rfl), htaken.net,
    fun a => by rw [hmem], fun f hf => ?_, fun f b => s.barAt_freeze i e f b, n, h1, h3, ?_⟩
  · rw [hhub f, if_neg hf]
    rfl
  · rw [hhub, if_pos rfl]

/-! ### The return from a freeze (R242), and the trap instructions (R341) -/

theorem unfreezingRunsFromThePc_holds : unfreezingRunsFromThePc := by
  intro s i pc step t c
  have hc : c = { s.ctxOf i with st := 0, pc := pc, stepping := step, stall := none, hold := none, reply := none } := State.ctxOf_updCtx_self _ _ _
  rw [hc]
  exact ⟨rfl, rfl, rfl, rfl, rfl, rfl, rfl, fun j hj => State.ctxOf_updCtx_other _ _ hj, rfl⟩

/-- No field, mode or level keeps a trap from being accepted (R276, R341). -/
theorem State.accepts_trap (s : State) (f : FmtCU) : s.accepts (.trap f) ∧ s.accepts (.brk f) := ⟨rfl, rfl⟩

theorem trapsFreezeTheirContext_holds : trapsFreezeTheirContext := fun f s =>
  ⟨(show exec (.trap f) s = execTrap f s from rfl).trans (State.slotC_of_accepts (s.accepts_trap f).1 _),
    (show exec (.brk f) s = execBrk f s from rfl).trans (State.slotC_of_accepts (s.accepts_trap f).2 _)⟩

/-- Settles O35: the freeze by what it leaves of contexts and hubs, the return by its update, the traps by their one fault. -/
theorem freezesTrapsAndReturns : Obligations.FreezesTrapsAndReturns :=
  ⟨freezingKeepsTheContext_holds, unfreezingRunsFromThePc_holds, trapsFreezeTheirContext_holds⟩

end Sys2Proof.Machine
end

section
/-! SUPPORT. The issue of an operation: R97, R244, R392 to R394, R397, R401, R403, R404. -/

namespace Sys2Proof.Machine

/-! ### What a read at once leaves of the tiles and of the other contexts (R46, R101, R206) -/

/-- A tile but for the counters of its slice. -/
def Tile.uncounted (t : Tile) : Tile := { t with sliceCounters := [] }

section
variable (s : State) (i : Nat)

theorem State.uncounted_of_tiles {s t : State} (h : t.tiles = s.tiles) (i : Nat) : (t.tileOf i).uncounted = (s.tileOf i).uncounted := by
  rw [State.tileOf, State.tileOf, h]

theorem State.uncounted_countSlice (tile tag ev n : Nat) : ((s.countSlice tile tag ev n).tileOf i).uncounted = (s.tileOf i).uncounted := by
  unfold State.countSlice
  split
  · rfl
  · rw [State.tileOf_updTile]
    split
    · subst i
      rfl
    · rfl

theorem State.tiles_countFabric (f ev n : Nat) : (s.countFabric f ev n).tiles = s.tiles := (s.counted_countFabric f ev n).part State.tiles (fun _ => rfl)

theorem State.uncounted_countHome (tag g : Nat) (ms : List Nat) : ((s.countHome tag g ms).tileOf i).uncounted = (s.tileOf i).uncounted := by
  unfold State.countHome
  split
  · simp only [State.uncounted_countSlice]
  · rfl

theorem State.uncounted_noteRead (src tag : Nat) (raw : Bool) (p : Nat × Nat) : ((State.noteRead src tag raw s p).tileOf i).uncounted = (s.tileOf i).uncounted := by
  have hfar : ∀ (u : State) (b : Bool) (f ev n : Nat), (if b = true then u.countFabric f ev n else u).tiles = u.tiles := fun u b f ev n => by
    split
    · exact u.tiles_countFabric f ev n
    · rfl
  have hhome : ∀ (u : State) (c : KMap Nat) (ms : List Nat), u.tiles = s.tiles →
      (({ u.countHome tag p.1 ms with cached := c } : State).tileOf i).uncounted = (s.tileOf i).uncounted := fun u c ms hu =>
    (u.uncounted_countHome i tag p.1 ms).trans (State.uncounted_of_tiles hu i)
  unfold State.noteRead
  simp only
  split
  · exact (State.uncounted_of_tiles (hfar _ _ _ _ _) i).trans (hhome _ _ _ (hfar _ _ _ _ _))
  · exact (State.uncounted_of_tiles (State.tiles_countFabric _ _ _ _) i).trans (hhome _ _ _ (hfar _ _ _ _ _))
  · exact hhome _ _ _ (hfar _ _ _ _ _)

theorem State.uncounted_noteReads (src tag : Nat) (runs : List (Nat × Nat)) (raw : Bool) : ((s.noteReads src tag runs raw).tileOf i).uncounted = (s.tileOf i).uncounted :=
  List.foldlRecOn (motive := fun u : State => (u.tileOf i).uncounted = (s.tileOf i).uncounted) _ _ rfl
    (fun (u : State) h p _ => (u.uncounted_noteRead i src tag raw p).trans h)

theorem State.tiles_pairPost (n ch : Nat) (r : Nat × Nat × Nat) : (State.pairPost n ch s r).tiles = s.tiles := by
  unfold State.pairPost
  split
  · rfl
  · simp only
    split
    · split <;> rfl
    · rfl

theorem State.tiles_ownPosts (runs : List (Nat × Nat)) : (s.ownPosts runs).tiles = s.tiles := by
  unfold State.ownPosts
  split
  · rfl
  · exact List.foldlRecOn (motive := fun u : State => u.tiles = s.tiles) _ _ rfl (fun (u : State) h _ _ => (u.tiles_pairPost _ _ _).trans h)

/-- A read at once changes of the tiles the counters of slices. -/
theorem State.uncounted_afterRead (va n : Nat) : ((s.afterRead va n).tileOf i).uncounted = (s.tileOf i).uncounted := by
  unfold State.afterRead
  split
  · refine (State.uncounted_noteReads _ i _ _ _ _).trans (State.uncounted_of_tiles ?_ i)
    split
    · rfl
    · exact s.tiles_ownPosts _
  · rfl

/-- So the issuing tile keeps its operations and its engine. -/
theorem State.tile_afterRead (va n : Nat) : (s.afterRead va n).tile.ops = s.tile.ops ∧ (s.afterRead va n).eng = s.eng := by
  have h : (s.afterRead va n).tile.uncounted = s.tile.uncounted := by
    rw [State.tile, (s.readMade_afterRead va n).cur]
    exact s.uncounted_afterRead _ va n
  exact ⟨(congrArg Tile.ops h :), (congrArg Tile.eng h :)⟩

theorem State.seen_afterRead (va n : Nat) : (s.afterRead va n).cx.seen = s.cx.seen := by
  rw [State.cx, (s.readMade_afterRead va n).cur]
  exact (congrArg Ctx.seen ((s.ctxs_afterRead va n).1 s.cur) :)

theorem State.othersKept_afterRead (va n : Nat) : othersKept s (s.afterRead va n) := fun i _ =>
  ⟨(congrArg (fun c : Ctx => { c with pairReads := (s.ctxOf i).pairReads }) ((s.ctxs_afterRead va n).1 i) :),
    fun hp => State.ctxOf_congr ((s.ctxs_afterRead va n).2 hp) i⟩

end

/-! ### An operation takes a slot (R97, R244) -/

/-- A tile with an operation in a slot, where the error of the slot's last command stays (R244). -/
def Tile.putOp (j : Nat) (o : Op) (t : Tile) : Tile := { t with ops := t.ops.put j { o with cmderr := (t.ops.get {} j).cmderr } }

/-- The state in which an operation has taken slot `j` of the issuing tile, before its bundle retires. -/
def State.slotTaken (s : State) (f : FmtWE) (kind : Nat) (d : List Word) (j : Nat) : State :=
  (({ s with nextAcc := s.nextAcc + 1 } : State).updCurTile (Tile.putOp j (s.newOp f kind d))).upd (fun c => { c with opOrd := c.opOrd + 1 })

section
variable {s u : State} {f : FmtWE} {kind : Nat} {d : List Word} {j : Nat}

theorem State.cx_slotTaken : (u.slotTaken f kind d j).cx = { u.cx with opOrd := u.cx.opOrd + 1 } := State.cx_upd _ _

theorem State.tile_slotTaken : (u.slotTaken f kind d j).tile = u.tile.putOp j (u.newOp f kind d) := State.tile_updCurTile { u with nextAcc := u.nextAcc + 1 } _

theorem State.eng_slotTaken : (u.slotTaken f kind d j).eng = u.eng := by
  rw [State.eng, State.tile_slotTaken]
  rfl

theorem State.ctxOf_slotTaken_other {i : Nat} (h : i ≠ u.cur) : (u.slotTaken f kind d j).ctxOf i = u.ctxOf i :=
  State.ctxOf_updCtx_other (({ u with nextAcc := u.nextAcc + 1 } : State).updCurTile (Tile.putOp j (u.newOp f kind d))) _ h

/-- An operation that a firing issues in a quiesce is saved at once (R97). -/
theorem State.state_newOp (h : ReadMade s u) (f : FmtWE) (kind : Nat) (d : List Word) :
    if (s.hubOf (fieldOfTile (tileOfCtx s.cur))).sw.step = 1 then (u.newOp f kind d).state = 4 ∧ (u.newOp f kind d).saved = 1 else (u.newOp f kind d).state = 1 := by
  have hgoing : u.opGoing (tileOfCtx u.cur) = s.opGoing (tileOfCtx s.cur) := by
    rw [h.cur, State.opGoing, State.opGoing, h.rest.hubPart Hub.sw (fun _ => rfl)]
  have hstate : (u.newOp f kind d).state = s.opGoing (tileOfCtx s.cur) ∧ (u.newOp f kind d).saved = s.opGoing (tileOfCtx s.cur) / 4 := by
    rw [← hgoing]
    exact ⟨rfl, rfl⟩
  obtain ⟨hst, hsv⟩ := hstate
  rw [hst, hsv, State.opGoing]
  split
  · exact ⟨rfl, rfl⟩
  · rfl

/-- The slot holds the new operation and every other slot what it held. -/
theorem State.ops_slotTaken (m : Nat) : (u.slotTaken f kind d j).fall.tile.ops.get {} m =
    if m = j then { u.newOp f kind d with cmderr := (u.tile.ops.get {} j).cmderr } else u.tile.ops.get {} m := by
  rw [State.tile_fall, State.tile_slotTaken]
  exact KMap.get_put _ _ _ _ _

end

/-- An operation that has taken its slot after its descriptor was read. -/
theorem slotTaken_effects (s : State) (f : FmtWE) (kind : Nat) (d : List Word) (j va n : Nat) :
    let t := ((s.afterRead va n).slotTaken f kind d j).fall
    let o := t.tile.ops.get {} j
    t.cx.pc = s.fall.cx.pc ∧ quiet s t ∧
    (if (s.hubOf (fieldOfTile (tileOfCtx s.cur))).sw.step = 1 then o.state = 4 ∧ o.saved = 1 else o.state = 1) ∧ o.kind = kind ∧ o.desc = d ∧ o.firing = s.cx.firing ∧
    o.tag = s.tag ∧ o.pc = s.cx.pc ∧ o.cursor = 0 ∧ o.failed = 0 ∧ (o.word = if f.xc = 0 then none else some (s.x f.xc)) ∧ o.ord = s.cx.opOrd ∧
    t.cx.opOrd = s.cx.opOrd + 1 ∧ (∀ m, m ≠ j → t.tile.ops.get {} m = s.tile.ops.get {} m) := by
  intro t o
  let u := s.afterRead va n
  have hread : ReadMade s u := s.readMade_afterRead va n
  obtain ⟨hops, heng⟩ := s.tile_afterRead va n
  have ho : o = { u.newOp f kind d with cmderr := (u.tile.ops.get {} j).cmderr } := (State.ops_slotTaken j).trans (if_pos rfl)
  have hord : u.cx.opOrd = s.cx.opOrd := hread.cxPart Ctx.opOrd (fun _ => rfl)
  have hquiet : quiet s (u.slotTaken f kind d j) := by
    refine quiet_of_seen ?_ (fun _ => State.eng_slotTaken.trans heng) (fun i hi => ?_) hread.mem
    · rw [State.cx_slotTaken]
      exact s.seen_afterRead va n
    · rw [State.ctxOf_slotTaken_other (hread.cur ▸ hi)]
      exact s.othersKept_afterRead va n i hi
  refine ⟨State.pc_fall_of_flow ?_, quiet_fall hread.cur hquiet, ?_⟩
  · rw [State.cx_slotTaken]
    exact hread.cxPart Ctx.flow (fun _ => rfl)
  rw [ho]
  refine ⟨State.state_newOp hread f kind d, rfl, rfl, hread.cxPart Ctx.firing (fun _ => rfl), hread.cxPart Ctx.tag (fun _ => rfl), hread.cxPart Ctx.pc (fun _ => rfl), rfl, rfl, ?_, hord, ?_,
    fun m hm => ?_⟩
  · rw [← hread.x]
    rfl
  · rw [State.cxPart_fall _ Ctx.opOrd (fun _ => rfl), State.cx_slotTaken, ← hord]
  · rw [State.ops_slotTaken, if_neg hm, hops]

/-! ### The checks of an issue (R392 to R394) -/

/-- Step 3 of R394: the descriptor names no status record, or one that can be written. -/
def State.recordOk (s : State) (d : List Word) : Prop := tailStat d = 0 ∨ ∃ ps, s.mapRange s.cur (tailStat d) (statBytes d) .write 32 = .ok ps

theorem State.recordOk.maps {s : State} {d : List Word} (h : s.recordOk d) :
    ∃ ps, (if tailStat d = 0 then .ok [] else s.mapRange s.cur (tailStat d) (statBytes d) .write 32 : Except Halt (List Piece)) = .ok ps := by
  obtain h0 | ⟨ps, hps⟩ := h
  · exact ⟨[], if_pos h0⟩
  · split
    · exact ⟨[], rfl⟩
    · exact ⟨ps, hps⟩

/-- What an issue does from step 4 on, after the read `s` of a descriptor whose tail is good; `before` is the state of the bundle's issue. -/
def State.opDecided (before s : State) (f : FmtWE) (kind : Nat) (check : State → List Word → Option Cause) (d : List Word) : Out :=
  match check s d with
  | some c => s.faultC c (s.x f.xa).toNat
  | none => match s.completionCause f with
    | some c => s.faultC c 0 (if c = .msgClass then (s.x f.xc).toNat else (s.x f.xb).toNat)
    | none => match s.tile.freeSlot with
      | none => .next (before.stallOn 0)
      | some j => .next (s.slotTaken f kind d j).fall

/-- An operation is issued by its descriptor check (R397, R401, R403, R404). -/
theorem exec_operation {i : Instr} {s : State} {f : FmtWE} {kind : Nat} {check : State → List Word → Option Cause} (h : operationOf i = some (f, kind, check))
    (ha : s.accepts i) : exec i s = s.issueOp f kind check := by
  refine Eq.trans ?_ (State.slotC_of_accepts ha (fun u => u.issueOp f kind check))
  unfold operationOf at h
  split at h
  case h_7 => cases h
  all_goals
    cases h
    rfl

section
variable {s : State} {f : FmtWE} {kind : Nat} {check : State → List Word → Option Cause} {v : Nat}

section
variable (hv : s.readNow (s.x f.xa).toNat 64 1 = .ok v)
include hv

theorem State.issueOp_misaligned (h : (s.x f.xa).toNat % 64 ≠ 0) : s.issueOp f kind check = s.faultC .descAlign (s.x f.xa).toNat := by
  simp only [State.issueOp, hv, if_pos h]
  rfl

theorem State.issueOp_tailBad (h : (s.x f.xa).toNat % 64 = 0) (hbad : (s.afterRead (s.x f.xa).toNat 64).tailBad (doublewords 8 v) = true) :
    s.issueOp f kind check = (s.afterRead (s.x f.xa).toNat 64).faultC .descBad (s.x f.xa).toNat := by
  simp only [State.issueOp, hv, if_neg (not_not.2 h)]
  exact if_pos hbad

theorem State.issueOp_tailGood (h : (s.x f.xa).toNat % 64 = 0) (hbad : (s.afterRead (s.x f.xa).toNat 64).tailBad (doublewords 8 v) = false)
    (hrec : (s.afterRead (s.x f.xa).toNat 64).recordOk (doublewords 8 v)) :
    s.issueOp f kind check = s.opDecided (s.afterRead (s.x f.xa).toNat 64) f kind check (doublewords 8 v) := by
  have hx : ((s.afterRead (s.x f.xa).toNat 64).x f.xa).toNat = (s.x f.xa).toNat := congrArg BitVec.toNat ((s.readMade_afterRead _ _).x f.xa)
  obtain ⟨ps, hps⟩ := hrec.maps
  simp only [State.issueOp, hv, if_neg (not_not.2 h), State.reading, hbad, hps, State.orHalt, State.opDecided, hx]
  rfl

end

section
variable {u : State} {d : List Word} {c : Cause}

theorem State.opDecided_refused (h : check u d = some c) : s.opDecided u f kind check d = u.faultC c (u.x f.xa).toNat := by
  rw [State.opDecided, h]

theorem State.opDecided_completionRefused (h : check u d = none) (hc : u.completionCause f = some c) :
    s.opDecided u f kind check d = u.faultC c 0 (if c = .msgClass then u.x f.xc else u.x f.xb).toNat := by
  rw [State.opDecided, h, hc, apply_ite BitVec.toNat]

theorem State.opDecided_waits (h : check u d = none) (hc : u.completionCause f = none) (hslot : u.tile.freeSlot = none) :
    s.opDecided u f kind check d = .next (s.stallOn 0) := by
  rw [State.opDecided, h, hc, hslot]

theorem State.opDecided_starts {j : Nat} (h : check u d = none) (hc : u.completionCause f = none) (hslot : u.tile.freeSlot = some j) :
    s.opDecided u f kind check d = .next (u.slotTaken f kind d j).fall := by
  rw [State.opDecided, h, hc, hslot]

end

end

/-- Settles O48: the checks in their order, then the slot that the tile has free. -/
theorem operationsTakeASlot : Obligations.OperationsTakeASlot := by
  unfold Obligations.OperationsTakeASlot
  intro i s f kind check v hi ha va d s1 hv
  have hread : ReadMade s s1 := s.readMade_afterRead va 64
  have hslots : s1.tile.freeSlot = s.tile.freeSlot := by rw [Tile.freeSlot, Tile.freeSlot, (s.tile_afterRead va 64).1]
  rw [exec_operation hi ha]
  refine ⟨State.issueOp_misaligned hv, State.issueOp_tailBad hv, fun h hbad hrec => ?_⟩
  have hcur : s1.cur = s.cur := hread.cur
  have hdecided : s.issueOp f kind check = s.opDecided s1 f kind check d := State.issueOp_tailGood hv h hbad (by rwa [State.recordOk, hcur])
  rw [hdecided]
  refine ⟨fun c hc => ?_, fun c hc hcomp => ?_, fun hc hcomp hfull => State.opDecided_waits hc hcomp (hslots.trans hfull), fun j hc hcomp hfree => ?_⟩
  · rw [State.opDecided_refused hc, hread.x]
  · rw [State.opDecided_completionRefused hc hcomp, hread.x, hread.x]
  · exact ⟨_, State.opDecided_starts hc hcomp (hslots.trans hfree), slotTaken_effects s f kind d j va 64⟩

end Sys2Proof.Machine
end

section
/-! SUPPORT. The maps of opcodes and the formats of words: R275, R278 to R285. -/

namespace Sys2Proof

/-- A field of a word is the number that stands in its bits. -/
theorem bitField_eq {n lo w : Nat} {v : BitVec n} (h : w / 2 ^ lo % 2 ^ n = v.toNat) : bitField n lo w = v :=
  BitVec.eq_of_toNat_eq (by rw [bitField, BitVec.toNat_ofNat, h])

@[simp] theorem FmtCU.read_back (f : FmtCU) (k : Nat) : f.enc < 0x1000000 ∧ FmtCU.dec (k * 2 ^ 24 + f.enc) = f := by
  obtain ⟨imm⟩ := f
  simp only [FmtCU.enc, FmtCU.dec, FmtCU.mk.injEq]
  refine ⟨by omega, ?_⟩
  exact bitField_eq (by omega)

@[simp] theorem FmtCJ.read_back (f : FmtCJ) (k : Nat) : f.enc < 0x1000000 ∧ FmtCJ.dec (k * 2 ^ 24 + f.enc) = f := by
  obtain ⟨off⟩ := f
  simp only [FmtCJ.enc, FmtCJ.dec, FmtCJ.mk.injEq]
  refine ⟨by omega, ?_⟩
  exact bitField_eq (by omega)

@[simp] theorem FmtCZ.read_back (f : FmtCZ) (k : Nat) : f.enc < 0x1000000 ∧ FmtCZ.dec (k * 2 ^ 24 + f.enc) = f := by
  obtain ⟨xa, off⟩ := f
  simp only [FmtCZ.enc, FmtCZ.dec, FmtCZ.mk.injEq]
  refine ⟨by omega, ?_, ?_⟩ <;> exact bitField_eq (by omega)

@[simp] theorem FmtCB.read_back (f : FmtCB) (k : Nat) : f.enc < 0x1000000 ∧ FmtCB.dec (k * 2 ^ 24 + f.enc) = f := by
  obtain ⟨xa, xb, off⟩ := f
  simp only [FmtCB.enc, FmtCB.dec, FmtCB.mk.injEq]
  refine ⟨by omega, ?_, ?_, ?_⟩ <;> exact bitField_eq (by omega)

@[simp] theorem FmtCR.read_back (f : FmtCR) (k : Nat) : f.enc < 0x1000000 ∧ FmtCR.dec (k * 2 ^ 24 + f.enc) = f := by
  obtain ⟨xd, xa, xb, opt⟩ := f
  simp only [FmtCR.enc, FmtCR.dec, FmtCR.mk.injEq]
  refine ⟨by omega, ?_, ?_, ?_, ?_⟩ <;> exact bitField_eq (by omega)

@[simp] theorem FmtCM.read_back (f : FmtCM) (k : Nat) : f.enc < 0x1000000 ∧ FmtCM.dec (k * 2 ^ 24 + f.enc) = f := by
  obtain ⟨rt, base, disp⟩ := f
  simp only [FmtCM.enc, FmtCM.dec, FmtCM.mk.injEq]
  refine ⟨by omega, ?_, ?_, ?_⟩ <;> exact bitField_eq (by omega)

@[simp] theorem FmtCX.read_back (f : FmtCX) (k : Nat) : f.enc < 0x1000000 ∧ FmtCX.dec (k * 2 ^ 24 + f.enc) = f := by
  obtain ⟨rt, base, idx, sh, t⟩ := f
  simp only [FmtCX.enc, FmtCX.dec, FmtCX.mk.injEq]
  refine ⟨by omega, ?_, ?_, ?_, ?_, ?_⟩ <;> exact bitField_eq (by omega)

@[simp] theorem FmtCMS.read_back (f : FmtCMS) (k : Nat) : f.enc < 0x1000000 ∧ FmtCMS.dec (k * 2 ^ 24 + f.enc) = f := by
  obtain ⟨rt, base, sc, sz, disp⟩ := f
  simp only [FmtCMS.enc, FmtCMS.dec, FmtCMS.mk.injEq]
  refine ⟨by omega, ?_, ?_, ?_, ?_, ?_⟩ <;> exact bitField_eq (by omega)

@[simp] theorem FmtCA.read_back (f : FmtCA) (k : Nat) : f.enc < 0x1000000 ∧ FmtCA.dec (k * 2 ^ 24 + f.enc) = f := by
  obtain ⟨xd, base, xb, xc, sz⟩ := f
  simp only [FmtCA.enc, FmtCA.dec, FmtCA.mk.injEq]
  refine ⟨by omega, ?_, ?_, ?_, ?_, ?_⟩ <;> exact bitField_eq (by omega)

@[simp] theorem FmtCF.read_back (f : FmtCF) (k : Nat) : f.enc < 0x1000000 ∧ FmtCF.dec (k * 2 ^ 24 + f.enc) = f := by
  obtain ⟨xd, sc⟩ := f
  simp only [FmtCF.enc, FmtCF.dec, FmtCF.mk.injEq]
  refine ⟨by omega, ?_, ?_⟩ <;> exact bitField_eq (by omega)

@[simp] theorem FmtCS.read_back (f : FmtCS) (k : Nat) : f.enc < 0x1000000 ∧ FmtCS.dec (k * 2 ^ 24 + f.enc) = f := by
  obtain ⟨x, spr⟩ := f
  simp only [FmtCS.enc, FmtCS.dec, FmtCS.mk.injEq]
  refine ⟨by omega, ?_, ?_⟩ <;> exact bitField_eq (by omega)

@[simp] theorem FmtCL.read_back (f : FmtCL) (k : Nat) : f.enc < 0x1000000 ∧ FmtCL.dec (k * 2 ^ 24 + f.enc) = f := by
  obtain ⟨xa, lenm1⟩ := f
  simp only [FmtCL.enc, FmtCL.dec, FmtCL.mk.injEq]
  refine ⟨by omega, ?_, ?_⟩ <;> exact bitField_eq (by omega)

@[simp] theorem FmtCLI.read_back (f : FmtCLI) (k : Nat) : f.enc < 0x1000000 ∧ FmtCLI.dec (k * 2 ^ 24 + f.enc) = f := by
  obtain ⟨count, lenm1⟩ := f
  simp only [FmtCLI.enc, FmtCLI.dec, FmtCLI.mk.injEq]
  refine ⟨by omega, ?_, ?_⟩ <;> exact bitField_eq (by omega)

@[simp] theorem FmtAR.read_back (f : FmtAR) (k : Nat) : f.enc < 0x1000000 ∧ FmtAR.dec (k * 2 ^ 24 + f.enc) = f := by
  obtain ⟨xd, xa, xb, xc, rm, tr⟩ := f
  simp only [FmtAR.enc, FmtAR.dec, FmtAR.mk.injEq]
  refine ⟨by omega, ?_, ?_, ?_, ?_, ?_, ?_⟩ <;> exact bitField_eq (by omega)

@[simp] theorem FmtAI.read_back (f : FmtAI) (k : Nat) : f.enc < 0x1000000 ∧ FmtAI.dec (k * 2 ^ 24 + f.enc) = f := by
  obtain ⟨xd, xa, imm⟩ := f
  simp only [FmtAI.enc, FmtAI.dec, FmtAI.mk.injEq]
  refine ⟨by omega, ?_, ?_, ?_⟩ <;> exact bitField_eq (by omega)

@[simp] theorem FmtAL.read_back (f : FmtAL) (k : Nat) : f.enc < 0x1000000 ∧ FmtAL.dec (k * 2 ^ 24 + f.enc) = f := by
  obtain ⟨xd, imm⟩ := f
  simp only [FmtAL.enc, FmtAL.dec, FmtAL.mk.injEq]
  refine ⟨by omega, ?_, ?_⟩ <;> exact bitField_eq (by omega)

@[simp] theorem FmtAV.read_back (f : FmtAV) (k : Nat) : f.enc < 0x1000000 ∧ FmtAV.dec (k * 2 ^ 24 + f.enc) = f := by
  obtain ⟨vd, va, vb, me, km, t, mod, sub⟩ := f
  simp only [FmtAV.enc, FmtAV.dec, FmtAV.mk.injEq]
  refine ⟨by omega, ?_, ?_, ?_, ?_, ?_, ?_, ?_, ?_⟩ <;> exact bitField_eq (by omega)

@[simp] theorem FmtAVX.read_back (f : FmtAVX) (k : Nat) : f.enc < 0x1000000 ∧ FmtAVX.dec (k * 2 ^ 24 + f.enc) = f := by
  obtain ⟨vd, va, xb, me, km, t, mod, sub⟩ := f
  simp only [FmtAVX.enc, FmtAVX.dec, FmtAVX.mk.injEq]
  refine ⟨by omega, ?_, ?_, ?_, ?_, ?_, ?_, ?_, ?_⟩ <;> exact bitField_eq (by omega)

@[simp] theorem FmtAVI.read_back (f : FmtAVI) (k : Nat) : f.enc < 0x1000000 ∧ FmtAVI.dec (k * 2 ^ 24 + f.enc) = f := by
  obtain ⟨vd, va, xb, imm, t⟩ := f
  simp only [FmtAVI.enc, FmtAVI.dec, FmtAVI.mk.injEq]
  refine ⟨by omega, ?_, ?_, ?_, ?_, ?_⟩ <;> exact bitField_eq (by omega)

@[simp] theorem FmtAVS.read_back (f : FmtAVS) (k : Nat) : f.enc < 0x1000000 ∧ FmtAVS.dec (k * 2 ^ 24 + f.enc) = f := by
  obtain ⟨xd, va, me, km, t, mod, imm⟩ := f
  simp only [FmtAVS.enc, FmtAVS.dec, FmtAVS.mk.injEq]
  refine ⟨by omega, ?_, ?_, ?_, ?_, ?_, ?_, ?_⟩ <;> exact bitField_eq (by omega)
theorem slotWord_parts {op body w : Nat} (h : slotWord op body = some w) (hb : body < 0x1000000) : w / 2 ^ 24 = op ∧ ∃ k, w = k * 2 ^ 24 + body := by
  cases h
  exact ⟨by omega, op, rfl⟩


/-- A map of opcodes that reads a format at opcode `op` reads back what stands there in that format. -/
theorem read_slot {α : Type} {raw : Nat → Option Instr} {mk : α → Instr} {f : α} {dec : Nat → α} {op m body w : Nat} (h : slotWord op body = some w)
    (hf : ∀ k, body < 0x1000000 ∧ dec (k * 2 ^ 24 + body) = f) (hraw : ∀ v, v / 2 ^ 24 % m = op % m → raw v = some (mk (dec v))) : raw w = some (mk f) := by
  obtain ⟨hop, k, hw⟩ := slotWord_parts h (hf 0).1
  rw [hraw w (by rw [hop]), hw, (hf k).2]

theorem read_plainSlot {raw : Nat → Option Instr} {i : Instr} {op m w : Nat} (h : slotWord op 0 = some w) (hraw : ∀ v, v / 2 ^ 24 % m = op % m → raw v = some i) : raw w = some i :=
  hraw w (by rw [(slotWord_parts h (by decide)).1])

theorem rawC_of_encodeC {i : Instr} {w : Nat} (h : encodeC i = some w) : rawC w = some i := by
  unfold encodeC at h
  split at h
  case h_109 => cases h
  case h_1 | h_14 | h_17 | h_19 | h_20 | h_21 | h_22 | h_106 | h_107 =>
    exact read_plainSlot (m := 128) h (fun v hv => by rw [rawC, hv]; rfl)
  all_goals
    rename_i f
    exact read_slot (m := 128) h f.read_back (fun v hv => by rw [rawC, hv]; rfl)

theorem rawA_of_encodeA {i : Instr} {w : Nat} (h : encodeA i = some w) : rawA w = some i := by
  unfold encodeA at h
  split at h
  case h_120 => cases h
  case h_1 => exact read_plainSlot (m := 256) h (fun v hv => by rw [rawA, rawALate, rawAMost, hv]; rfl)
  all_goals
    rename_i f
    exact read_slot (m := 256) h f.read_back (fun v hv => by rw [rawA, rawALate, rawAMost, hv]; rfl)

section
variable {op w0 w1 : Nat} {f : FmtWE}

theorem wideWords_parts {body v1 : Nat} (h : wideWords op body v1 = some (w0, w1)) (hb : body < 0x1000000) : w0 / 2 ^ 24 = op ∧ w0 % 2 ^ 24 = body ∧ w1 = v1 := by
  cases h
  omega

theorem bitField_toNat {n : Nat} (v : BitVec n) : bitField n 0 v.toNat = v := bitField_eq (by simp)

/-- A map of wide opcodes that reads format WE at opcode `op` reads back what stands there. -/
theorem read_engine {mk : FmtWE → Instr} (h : wideWords op f.enc0 f.ext.toNat = some (w0, w1))
    (hraw : ∀ v v1, v / 2 ^ 24 % 128 = op % 128 → rawWide v v1 = some (mk (.dec v v1))) : rawWide w0 w1 = some (mk f) := by
  obtain ⟨xa, xb, xc, opt, ext⟩ := f
  have hf : FmtWE.enc0 ⟨xa, xb, xc, opt, ext⟩ = xa.toNat * 2 ^ 19 + xb.toNat * 2 ^ 14 + xc.toNat * 2 ^ 9 + opt.toNat := rfl
  obtain ⟨hop, hbody, rfl⟩ := wideWords_parts h (by omega)
  rw [hraw w0 _ (by rw [hop]), FmtWE.dec, bitField_toNat]
  congr <;> exact bitField_eq (by omega)

/-- So for a far branch and its condition. -/
theorem read_far {mk : FmtWB → Instr} {f : FmtWB} {c : Nat} (hc : c < 8) (h : wideWords 0x81 (c * 2 ^ 11 + f.enc0) f.off.toNat = some (w0, w1))
    (hraw : ∀ v v1, v / 2 ^ 24 % 128 = 1 → v / 2 ^ 11 % 8 = c → rawWide v v1 = some (mk (.dec v v1))) : rawWide w0 w1 = some (mk f) := by
  obtain ⟨xa, xb, off⟩ := f
  have hf : FmtWB.enc0 ⟨xa, xb, off⟩ = xa.toNat * 2 ^ 19 + xb.toNat * 2 ^ 14 := rfl
  obtain ⟨hop, hbody, rfl⟩ := wideWords_parts h (by omega)
  rw [hraw w0 _ (by omega) (by omega), FmtWB.dec, bitField_toNat]
  congr <;> exact bitField_eq (by omega)

/-- So for a long immediate and its half. -/
theorem read_long {mk : FmtWL → Instr} {f : FmtWL} {hi : Nat} (hhi : hi < 2) (h : wideWords 0x80 (hi * 2 ^ 18 + f.enc0) f.imml.toNat = some (w0, w1))
    (hraw : ∀ v v1, v / 2 ^ 24 % 128 = 0 → v / 2 ^ 18 % 2 = hi → rawWide v v1 = some (mk (.dec v v1))) : rawWide w0 w1 = some (mk f) := by
  obtain ⟨xd, immh, imml⟩ := f
  have hf : FmtWL.enc0 ⟨xd, immh, imml⟩ = xd.toNat * 2 ^ 19 + immh.toNat := rfl
  obtain ⟨hop, hbody, rfl⟩ := wideWords_parts h (by omega)
  rw [hraw w0 _ (by omega) (by omega), FmtWL.dec, bitField_toNat]
  congr <;> exact bitField_eq (by omega)

end

theorem rawWide_of_encodeWide {i : Instr} {w0 w1 : Nat} (h : encodeWide i = some (w0, w1)) : rawWide w0 w1 = some i := by
  unfold encodeWide at h
  split at h
  case h_38 => cases h
  case h_1 f => exact read_long (hi := 0) (by decide) (by rwa [Nat.zero_mul, Nat.zero_add]) (fun v v1 hv hhi => by rw [rawWide, hv]; exact if_pos hhi)
  case h_2 f => exact read_long (hi := 1) (by decide) (by rwa [Nat.one_mul]) (fun v v1 hv hhi => by rw [rawWide, hv]; exact if_neg (by omega))
  case h_3 f | h_4 f | h_5 f | h_6 f | h_7 f | h_8 f | h_9 f | h_10 f => exact read_far (by decide) h (fun v v1 hv hc => by rw [rawWide, hv, hc]; rfl)
  all_goals exact read_engine h (fun v v1 hv => by rw [rawWide, hv]; rfl)

/-- An instruction of the A slot is none of the C slot. -/
theorem encodeC_of_encodeA {i : Instr} {w : Nat} (h : encodeA i = some w) : encodeC i = none := by
  unfold encodeA at h
  split at h
  case h_120 => cases h
  all_goals rfl

/-- A wide instruction is one of neither slot. -/
theorem encode_of_encodeWide {i : Instr} {w0 w1 : Nat} (h : encodeWide i = some (w0, w1)) : encode i = some (.wide w0 w1) := by
  unfold encodeWide at h
  split at h
  case h_38 => cases h
  all_goals
    cases h
    rfl

theorem decodeC_eq_ok_iff {w : Nat} {i : Instr} : decodeC w = .ok i ↔ encodeC i = some w := by
  constructor
  · intro h
    unfold decodeC at h
    split at h
    · cases h
    · split at h <;> cases h
      assumption
  · intro h
    simp only [decodeC, rawC_of_encodeC h, h, if_true]

theorem decodeA_eq_ok_iff {w : Nat} {i : Instr} : decodeA w = .ok i ↔ encodeA i = some w := by
  constructor
  · intro h
    unfold decodeA at h
    split at h
    · cases h
    · split at h <;> cases h
      assumption
  · intro h
    simp only [decodeA, rawA_of_encodeA h, h, if_true]

theorem decodeWide_eq_ok_iff {w0 w1 : Nat} {i : Instr} : decodeWide w0 w1 = .ok i ↔ encodeWide i = some (w0, w1) := by
  constructor
  · intro h
    unfold decodeWide at h
    split at h
    · cases h
    · split at h <;> cases h
      assumption
  · intro h
    simp only [decodeWide, rawWide_of_encodeWide h, h, if_true]

/-- The words of an instruction are those of the one map that has it. -/
theorem encode_eq_some_iff {i : Instr} {w : Words} : encode i = some w ↔ match w with
    | .c w => encodeC i = some w
    | .a w => encodeA i = some w
    | .wide w0 w1 => encodeWide i = some (w0, w1) := by
  constructor
  · intro h
    unfold encode at h
    split at h <;> cases h <;> assumption
  · intro h
    match w with
    | .c w => simp only [encode, show encodeC i = some w from h]
    | .a w => simp only [encode, show encodeA i = some w from h, encodeC_of_encodeA h]
    | .wide w0 w1 => exact encode_of_encodeWide h

/-- Decoding answers an instruction exactly for its words (R275). -/
theorem decode_eq_ok_iff {w : Words} {i : Instr} : decode w = .ok i ↔ encode i = some w := by
  rw [encode_eq_some_iff]
  match w with
  | .c w => exact decodeC_eq_ok_iff
  | .a w => exact decodeA_eq_ok_iff
  | .wide w0 w1 => exact decodeWide_eq_ok_iff

/-- Settles O1: each map reads back the fields of its formats, so that the decoder answers an instruction exactly for its words. -/
theorem decodeOfEncodeIsTheInstruction : Obligations.DecodeOfEncodeIsTheInstruction := fun _ _ h => decode_eq_ok_iff.2 h

/-- Settles O2: what the decoder accepts it has compared with the words of its answer, and an instruction has one encoding. -/
theorem encodeOfDecodeIsTheWords : Obligations.EncodeOfDecodeIsTheWords :=
  ⟨fun _ _ h => decode_eq_ok_iff.1 h, fun _ _ _ hv hw => Option.some.inj ((decode_eq_ok_iff.1 hv).symm.trans (decode_eq_ok_iff.1 hw))⟩

end Sys2Proof
end

section
/-! SUPPORT. Writes of memory are read back (R314), and the values of the scalar integer forms: R279, R281, R297 to R299. -/

namespace Sys2Proof.Machine

/-- Settles O5, by what one written byte leaves of memory. -/
theorem writesAreReadBack : Obligations.WritesAreReadBack := fun m a h =>
  ⟨fun b => ⟨Memory.write_wf a b h, fun c => m.read_write a c b⟩,
    fun n v => ⟨Memory.writeLE_wf a n v h, by rw [Memory.readLE_writeLE, two_pow_bytes], fun _ hc => m.read_writeLE_outside n v hc⟩⟩

/-! ### What a form gives -/

section
variable {i : Instr} {xd : BitVec 5} {k : State → Out} {v : State → Word}

/-- An accepted instruction has the effect that its arm gives it. -/
theorem exec_of_slotA {s : State} (hi : ∀ s, exec i s = s.slotA i k) (ha : s.accepts i) : exec i s = k s := (hi s).trans (State.slotA_of_accepts ha k)

theorem exec_of_slotC {s : State} (hi : ∀ s, exec i s = s.slotC i k) (ha : s.accepts i) : exec i s = k s := (hi s).trans (State.slotC_of_accepts ha k)

theorem gives_of_slotA (hi : ∀ s, exec i s = s.slotA i k) (hk : ∀ s, k s = s.result xd (v s)) : Gives i xd v := fun s ha =>
  (exec_of_slotA hi ha).trans (hk s)

theorem gives_of_slotC (hi : ∀ s, exec i s = s.slotC i k) (hk : ∀ s, k s = s.result xd (v s)) : Gives i xd v := fun s ha =>
  (exec_of_slotC hi ha).trans (hk s)

/-- An accepted instruction passes steps 2 to 4 of R276, and its form check. -/
theorem State.accepts_iff {s : State} : s.accepts i ↔ check i = none ∧ formCause i s.cx.long s.level = none := by
  unfold State.accepts slotCause
  split
  next c hc => simp [hc]
  next hc => simp [hc]

theorem check_eq_none_iff : check i = none ↔ reservedOk i = true ∧ registersOk i = true ∧ immediatesOk i = true := by
  unfold check
  cases reservedOk i <;> cases registersOk i <;> cases immediatesOk i <;> simp

theorem State.reservedOk_of_accepts {s : State} (h : s.accepts i) : reservedOk i = true := (check_eq_none_iff.1 (State.accepts_iff.1 h).1).1

/-- The forms that check their fields themselves: what they check is what acceptance asks for (R276). -/
theorem gives_of_slotBinary {f : FmtAR} (hi : ∀ s, exec i s = s.slotBinary f k) (hr : reservedOk i = arBinary f) (hk : ∀ s, k s = s.result xd (v s)) : Gives i xd v :=
  fun s ha => by
    have hf : arBinary f = true := hr ▸ State.reservedOk_of_accepts ha
    rw [hi, State.slotBinary, if_pos hf, hk, State.result_eq]

end

/-! ### Words -/

theorem bitsOf_eq (w : Word) (n : Nat) : bitsOf w n 0 = (w.extractLsb' 0 (n + 1)).toNat := by simp [bitsOf, bitsAt]

theorem mul_eq_extract (a b : Word) : a * b = (a.setWidth 128 * b.setWidth 128).extractLsb' 0 64 := by
  refine BitVec.eq_of_toNat_eq ?_
  simp [BitVec.toNat_mul]

theorem ofNat_high (n : Nat) (h : n < 2 ^ 128) : (BitVec.ofNat 128 n).extractLsb' 64 64 = BitVec.ofNat 64 (n / 2 ^ 64) := by
  refine BitVec.eq_of_toNat_eq ?_
  simp only [BitVec.extractLsb'_toNat, BitVec.toNat_ofNat, Nat.shiftRight_eq_div_pow]
  omega

theorem mulhu_eq_extract (a b : Word) : BitVec.ofNat 64 (a.toNat * b.toNat / 2 ^ 64) = (a.setWidth 128 * b.setWidth 128).extractLsb' 64 64 := by
  have hlt : a.toNat * b.toNat < 2 ^ 128 := by have := Nat.mul_lt_mul'' a.isLt b.isLt; omega
  rw [← ofNat_high _ hlt]
  congr 1

theorem mulh_eq_extract (a b : Word) : wordOf (a.toInt * b.toInt / 2 ^ 64) = (a.signExtend 128 * b.signExtend 128).extractLsb' 64 64 := by
  have hprod : a.signExtend 128 * b.signExtend 128 = BitVec.ofInt 128 (a.toInt * b.toInt) := by
    rw [BitVec.signExtend, BitVec.signExtend, ← BitVec.ofInt_mul]
  rw [hprod]
  refine BitVec.eq_of_toNat_eq ?_
  simp only [wordOf, BitVec.extractLsb'_toNat, BitVec.toNat_ofInt, Nat.shiftRight_eq_div_pow]
  omega

theorem shl_eq (a b : Word) : a <<< bitsOf b 5 0 = BitVec.ofNat 64 (a.toNat * 2 ^ (b.extractLsb' 0 6).toNat) := by
  rw [bitsOf_eq]
  exact BitVec.eq_of_toNat_eq (by rw [BitVec.toNat_shiftLeft, BitVec.toNat_ofNat, Nat.shiftLeft_eq])

theorem shiftRight_eq (a : Word) (n : Nat) : a >>> n = BitVec.ofNat 64 (a.toNat / 2 ^ n) := by
  refine BitVec.eq_of_toNat_eq ?_
  rw [BitVec.toNat_ushiftRight, BitVec.toNat_ofNat, Nat.shiftRight_eq_div_pow, Nat.mod_eq_of_lt (lt_of_le_of_lt (Nat.div_le_self _ _) a.isLt)]

theorem sshiftRight_eq (a : Word) (n : Nat) : a.sshiftRight n = BitVec.ofInt 64 (a.toInt / 2 ^ n) := by
  rw [BitVec.sshiftRight, Int.shiftRight_eq_div_pow]
  norm_cast

theorem rotlWord_eq (a b : Word) : rotlWord a (bitsOf b 5 0) = a.rotateLeft (b.extractLsb' 0 6).toNat := by
  rw [bitsOf_eq]
  have hn : (b.extractLsb' 0 (5 + 1)).toNat < 64 := (b.extractLsb' 0 6).isLt
  generalize (b.extractLsb' 0 (5 + 1)).toNat = n at hn
  have hlow : a.toNat / 2 ^ (64 - n) < 2 ^ n := Nat.div_lt_of_lt_mul (by rw [← pow_add, Nat.sub_add_cancel hn.le]; exact a.isLt)
  have hhigh : a.toNat * 2 ^ n % 2 ^ 64 = 2 ^ n * (a.toNat % 2 ^ (64 - n)) := by
    rw [Nat.mul_comm, ← Nat.mul_mod_mul_left, ← pow_add, Nat.add_sub_cancel' hn.le]
  refine BitVec.eq_of_toNat_eq ?_
  rw [BitVec.toNat_rotateLeft, Nat.mod_eq_of_lt hn, Nat.shiftLeft_eq, Nat.shiftRight_eq_div_pow, hhigh, ← Nat.two_pow_add_eq_or_of_lt hlow, ← hhigh]
  have hsum : a.toNat * 2 ^ n % 2 ^ 64 + a.toNat / 2 ^ (64 - n) < 2 ^ 64 := by
    have hpow : 2 ^ n * 2 ^ (64 - n) = 2 ^ 64 := by rw [← pow_add, Nat.add_sub_cancel' hn.le]
    have hm : a.toNat % 2 ^ (64 - n) + 1 ≤ 2 ^ (64 - n) := Nat.mod_lt _ (Nat.two_pow_pos _)
    rw [hhigh, ← hpow]
    calc _ < 2 ^ n * (a.toNat % 2 ^ (64 - n)) + 2 ^ n := Nat.add_lt_add_left hlow _
      _ = 2 ^ n * (a.toNat % 2 ^ (64 - n) + 1) := by ring
      _ ≤ _ := Nat.mul_le_mul_left _ hm
  rw [rotlWord, rotl64, Nat.mod_eq_of_lt hn, BitVec.toNat_ofNat, Nat.mod_mod]
  generalize a.toNat / 2 ^ (64 - n) = q at hsum
  omega

/-- The sign extension of the low bits of a number, up to a whole word. -/
theorem sextWord_low {n : Nat} (h64 : n ≤ 64) (v : Nat) : sextWord n v = (BitVec.ofNat n v).signExtend 64 := by
  have hlt : v % 2 ^ n < 2 ^ n := Nat.mod_lt _ (Nat.two_pow_pos n)
  have hle : 2 ^ n ≤ 2 ^ 64 := Nat.pow_le_pow_right (by decide) h64
  refine BitVec.eq_of_toNat_eq ?_
  rw [BitVec.toNat_signExtend, BitVec.msb_eq_decide, BitVec.toNat_setWidth, BitVec.toNat_ofNat, sextWord]
  simp only [decide_eq_true_eq]
  split
  · rw [if_neg (by omega), BitVec.toNat_ofNat, Nat.add_zero]
  · rw [if_pos (by omega), BitVec.toNat_ofNat]
    omega

theorem sextWord_eq_extract {n : Nat} (h64 : n ≤ 64) (a : Word) : sextWord n a.toNat = (a.extractLsb' 0 n).signExtend 64 := by
  rw [sextWord_low h64]
  simp [BitVec.extractLsb']

theorem and_ones_eq_extract {n : Nat} (h : n ≤ 64) (a : Word) : a &&& BitVec.ofNat 64 (2 ^ n - 1) = (a.extractLsb' 0 n).setWidth 64 := by
  refine BitVec.eq_of_toNat_eq ?_
  have hle : 2 ^ n ≤ 2 ^ 64 := Nat.pow_le_pow_right (by decide) h
  have hpos : 0 < 2 ^ n := Nat.two_pow_pos n
  rw [BitVec.toNat_and, BitVec.toNat_ofNat, Nat.mod_eq_of_lt (by omega), Nat.and_two_pow_sub_one_eq_mod, BitVec.toNat_setWidth_of_le h, BitVec.extractLsb'_toNat, Nat.shiftRight_zero]

/-! ### Counts and the byte swap (R297) -/

/-- The leading zeros of a word end at its highest set bit. -/
theorem countLeading_spec (a : Word) : countLeading a.toNat ≤ 64 ∧ (∀ i, 64 - countLeading a.toNat ≤ i → a.getLsbD i = false) ∧
    (countLeading a.toNat < 64 → a.getLsbD (63 - countLeading a.toNat) = true) := by
  unfold countLeading
  split
  next h0 => exact ⟨le_rfl, fun i _ => by rw [BitVec.getLsbD, h0, Nat.zero_testBit], fun h => absurd h (lt_irrefl _)⟩
  next h0 =>
    have hlog : Nat.log2 a.toNat < 64 := (Nat.log2_lt h0).2 a.isLt
    refine ⟨by omega, fun i hi => Nat.testBit_lt_two_pow (lt_of_lt_of_le Nat.lt_log2_self (Nat.pow_le_pow_right (by decide) (by omega))), fun _ => ?_⟩
    rw [Nat.sub_sub_self (by omega)]
    exact Nat.testBit_log2 h0

/-- The trailing zeros of n bits end at the lowest set bit. -/
theorem trailingGo_spec (n a : Nat) : trailingGo a n ≤ n ∧ (∀ i, i < trailingGo a n → a.testBit i = false) ∧ (trailingGo a n < n → a.testBit (trailingGo a n) = true) := by
  induction n generalizing a with
  | zero => exact ⟨le_rfl, fun i hi => absurd hi (Nat.not_lt_zero i), fun h => absurd h (lt_irrefl 0)⟩
  | succ n ih =>
    unfold trailingGo
    split
    next h1 => exact ⟨Nat.zero_le _, fun i hi => absurd hi (Nat.not_lt_zero i), fun _ => by simpa using h1⟩
    next h1 =>
      obtain ⟨hle, hlow, hbit⟩ := ih (a / 2)
      refine ⟨by omega, fun i hi => ?_, fun h => ?_⟩
      · cases i with
        | zero => simpa using h1
        | succ i => rw [Nat.testBit_succ]; exact hlow i (by omega)
      · rw [Nat.add_comm, Nat.testBit_succ]
        exact hbit (by omega)

theorem popCount_eq_filter (n a : Nat) : popCount n a = ((List.range n).filter (fun i => a.testBit i)).length := by
  have hbit : ∀ l : List Nat, (l.map (fun i => a / 2 ^ i % 2)).sum = (l.filter (fun i => a.testBit i)).length := by
    intro l
    induction l with
    | nil => rfl
    | cons i l ih =>
      rw [List.map_cons, List.sum_cons, ih, List.filter_cons, Nat.testBit_eq_decide_div_mod_eq]
      split
      next h => rw [List.length_cons, of_decide_eq_true h, Nat.add_comm]
      next h => rw [Nat.mod_two_ne_one.1 (fun h1 => h (decide_eq_true h1)), Nat.zero_add]
  exact hbit _

theorem leNat_eq_packLanes {l : List Nat} (h : ∀ b ∈ l, b < 256) : leNat l = packLanes 8 l := by
  induction l with
  | nil => rfl
  | cons b l ih =>
    rw [leNat, packLanes, ih (fun c hc => h c (List.mem_cons_of_mem b hc)), show b % 2 ^ 8 = b from Nat.mod_eq_of_lt (h b List.mem_cons_self)]
    rfl

theorem leBytes_eq_map (n v : Nat) : leBytes n v = (List.range n).map (laneAt 8 v) := by
  induction n generalizing v with
  | zero => rfl
  | succ n ih =>
    rw [leBytes, ih, List.range_succ_eq_map, List.map_cons, List.map_map]
    congr 1
    · simp [laneAt]
    · refine List.map_congr_left (fun i _ => ?_)
      simp only [laneAt, Function.comp, Nat.div_div_eq_div_mul]
      rw [show 256 * 2 ^ (8 * i) = 2 ^ (8 * (i + 1)) by ring]

/-- Byte i of the swapped word is byte 7 - i of the word. -/
theorem byteSwap_bytes (a : Word) {i : Nat} (h : i < 8) : (byteSwap a).extractLsb' (8 * i) 8 = a.extractLsb' (8 * (7 - i)) 8 := by
  have hbyte : ∀ b ∈ (leBytes 8 a.toNat).reverse, b < 256 := by
    intro b hb
    rw [List.mem_reverse, leBytes_eq_map, List.mem_map] at hb
    obtain ⟨j, -, rfl⟩ := hb
    exact Nat.mod_lt _ (by decide)
  have hlt : packLanes 8 (leBytes 8 a.toNat).reverse < 2 ^ 64 := packLanes_lt 8 _
  refine BitVec.eq_of_toNat_eq ?_
  rw [BitVec.extractLsb'_toNat, BitVec.extractLsb'_toNat, byteSwap, leNat_eq_packLanes hbyte, BitVec.toNat_ofNat, Nat.mod_eq_of_lt hlt, Nat.shiftRight_eq_div_pow,
    packLanes_lane, Nat.shiftRight_eq_div_pow, leBytes_eq_map]
  interval_cases i <;> simp [laneAt]

/-! ### The register forms (R297) -/

theorem wordOfBool_decide (p : Prop) [Decidable p] : wordOfBool (decide p) = if p then 1 else 0 := by
  by_cases h : p <;> simp [wordOfBool, h]

/-- Of two words of one key either is the least and the greatest. -/
theorem least_eq {α β : Type} [LinearOrder α] (key : β → α) (v w : β) : (if key v ≤ key w then v else w) = if key w < key v then w else v := by
  rw [← ite_not]
  simp only [not_le]

theorem greatest_eq {α β : Type} [LinearOrder α] {key : β → α} (hkey : Function.Injective key) (v w : β) : (if key v ≤ key w then w else v) = if key v < key w then w else v := by
  obtain h | h | h := lt_trichotomy (key v) (key w)
  · rw [if_pos h.le, if_pos h]
  · rw [hkey h, ite_self, ite_self]
  · rw [if_neg h.not_ge, if_neg h.not_gt]

theorem toInt_injective : Function.Injective (BitVec.toInt : Word → Int) := fun _ _ => BitVec.eq_of_toInt_eq

theorem toNat_injective : Function.Injective (BitVec.toNat : Word → Nat) := fun _ _ => BitVec.eq_of_toNat_eq

theorem registerForms_give : registerFormsGiveTheirResults := by
  refine ⟨fun s ha => exec_of_slotA (fun _ => rfl) ha, fun f => ?_⟩
  refine ⟨gives_of_slotA (fun _ => rfl) (fun _ => rfl), gives_of_slotA (fun _ => rfl) (fun _ => rfl), gives_of_slotA (fun _ => rfl) (fun s => congrArg (s.result f.xd) (mul_eq_extract _ _)),
    gives_of_slotA (fun _ => rfl) (fun s => congrArg (s.result f.xd) (mulh_eq_extract _ _)), gives_of_slotA (fun _ => rfl) (fun s => congrArg (s.result f.xd) (mulhu_eq_extract _ _)),
    gives_of_slotA (fun _ => rfl) (fun _ => rfl), gives_of_slotA (fun _ => rfl) (fun _ => rfl), gives_of_slotA (fun _ => rfl) (fun _ => rfl),
    gives_of_slotA (fun _ => rfl) (fun _ => rfl), gives_of_slotA (fun _ => rfl) (fun _ => rfl),
    gives_of_slotA (fun _ => rfl) (fun s => congrArg (s.result f.xd) (shl_eq _ _)), ?_, ?_, gives_of_slotA (fun _ => rfl) (fun s => congrArg (s.result f.xd) (rotlWord_eq _ _)),
    gives_of_slotA (fun _ => rfl) (fun s => congrArg (s.result f.xd) (least_eq BitVec.toInt _ _)), gives_of_slotA (fun _ => rfl) (fun s => congrArg (s.result f.xd) (greatest_eq toInt_injective _ _)),
    gives_of_slotA (fun _ => rfl) (fun s => congrArg (s.result f.xd) (least_eq BitVec.toNat _ _)), gives_of_slotA (fun _ => rfl) (fun s => congrArg (s.result f.xd) (greatest_eq toNat_injective _ _)), ?_, ?_, ?_, ?_,
    gives_of_slotA (fun _ => rfl) (fun s => congrArg (s.result f.xd) (sextWord_eq_extract (by decide) _)),
    gives_of_slotA (fun _ => rfl) (fun s => congrArg (s.result f.xd) (sextWord_eq_extract (by decide) _)),
    gives_of_slotA (fun _ => rfl) (fun s => congrArg (s.result f.xd) (sextWord_eq_extract (by decide) _)),
    gives_of_slotA (fun _ => rfl) (fun s => congrArg (s.result f.xd) (and_ones_eq_extract (n := 8) (by decide) _)),
    gives_of_slotA (fun _ => rfl) (fun s => congrArg (s.result f.xd) (and_ones_eq_extract (n := 16) (by decide) _)),
    gives_of_slotA (fun _ => rfl) (fun s => congrArg (s.result f.xd) (and_ones_eq_extract (n := 32) (by decide) _))⟩
  · exact gives_of_slotA (fun _ => rfl) (fun s => congrArg (s.result f.xd) (by rw [bitsOf_eq, shiftRight_eq]))
  · exact gives_of_slotA (fun _ => rfl) (fun s => congrArg (s.result f.xd) (by rw [bitsOf_eq, sshiftRight_eq]))
  · exact gives_of_slotBinary (fun _ => rfl) rfl (fun s => congrArg (s.result f.xd) (wordOfBool_decide _))
  · exact gives_of_slotBinary (fun _ => rfl) rfl (fun s => congrArg (s.result f.xd) (wordOfBool_decide _))
  · exact gives_of_slotBinary (fun _ => rfl) rfl (fun s => congrArg (s.result f.xd) (wordOfBool_decide _))
  · exact gives_of_slotA (fun _ => rfl) (fun s => congrArg (s.result f.xd) (ite_not _ _ _).symm)

theorem bitCounts_and_byteSwap : bitCountsAndByteSwap := by
  intro f s a
  refine ⟨fun ha => ?_, fun ha => ?_, fun ha => ?_, fun ha => ?_⟩
  · obtain ⟨hle, hzero, hone⟩ := countLeading_spec a
    exact ⟨_, hle, exec_of_slotA (fun _ => rfl) ha, hzero, hone⟩
  · obtain ⟨hle, hzero, hone⟩ := trailingGo_spec 64 a.toNat
    exact ⟨_, hle, exec_of_slotA (fun _ => rfl) ha, hzero, hone⟩
  · refine (exec_of_slotA (fun _ => rfl) ha).trans ?_
    rw [State.result_eq, popCount_eq_filter]
    rfl
  · exact ⟨_, exec_of_slotA (fun _ => rfl) ha, fun i hi => byteSwap_bytes a hi⟩

/-- Settles O9: each form by the equation of its value. -/
theorem registerFormsGiveTheirValues : Obligations.RegisterFormsGiveTheirValues := ⟨registerForms_give, bitCounts_and_byteSwap⟩

/-! ### Division (R298) -/

/-- A division traps on a zero divisor where its form asks for it, and otherwise gives its value. -/
theorem exec_division {i : Instr} {f : FmtAR} {s : State} {op : Word → Word → Word} (hi : ∀ s, exec i s = s.slotA i (fun s => s.divide f op)) (ha : s.accepts i) {v : Word}
    (hv : op (s.x f.xa) (s.x f.xb) = v) : exec i s = if s.x f.xb = 0 ∧ f.tr = 1 then s.faultA .intDivzero else .next ((s.setX f.xd v).fall) := by
  rw [hi, State.slotA_of_accepts ha, State.divide, hv, State.result_eq]

/-- The corner of the quotient of -2^63 by -1 wraps to the dividend. -/
theorem divSigned_eq (a b : Word) : divSigned a b =
    if b = 0 then BitVec.ofNat 64 (2 ^ 64 - 1) else if a.toInt = -2 ^ 63 ∧ b.toInt = -1 then a else BitVec.ofInt 64 (a.toInt.tdiv b.toInt) := by
  unfold divSigned
  split
  · rfl
  · split
    next h =>
      obtain ⟨hx, hy⟩ := h
      have ha : a = BitVec.ofInt 64 a.toInt := a.ofInt_toInt.symm
      rw [ha, hx, hy]
      decide
    · rfl

theorem remSigned_eq (a b : Word) : remSigned a b =
    if b = 0 then a else if a.toInt = -2 ^ 63 ∧ b.toInt = -1 then 0 else BitVec.ofInt 64 (a.toInt - b.toInt * a.toInt.tdiv b.toInt) := by
  unfold remSigned
  split
  · rfl
  · split
    next h =>
      obtain ⟨hx, hy⟩ := h
      rw [hx, hy]
      decide
    · rfl

/-- Settles O10: the four divisions by their values. -/
theorem divisionFollowsItsCorners : Obligations.DivisionFollowsItsCorners := by
  intro f s a b
  exact ⟨fun ha => exec_division (fun _ => rfl) ha (divSigned_eq a b), fun ha => exec_division (fun _ => rfl) ha (remSigned_eq a b),
    fun ha => exec_division (fun _ => rfl) ha rfl, fun ha => exec_division (fun _ => rfl) ha rfl, rfl⟩

/-! ### The immediate forms (R279, R281, R299) -/

theorem shiftLeft_eq (a : Word) (n : Nat) : a <<< n = BitVec.ofNat 64 (a.toNat * 2 ^ n) :=
  BitVec.eq_of_toNat_eq (by rw [BitVec.toNat_shiftLeft, BitVec.toNat_ofNat, Nat.shiftLeft_eq])

theorem lih_eq (imm : BitVec 19) (x : Word) : (imm ++ x.extractLsb' 0 13 : BitVec 32) = BitVec.ofNat 32 (imm.toNat * 2 ^ 13 + x.toNat % 2 ^ 13) := by
  refine BitVec.eq_of_toNat_eq ?_
  have hlow : x.toNat % 2 ^ 13 < 2 ^ 13 := Nat.mod_lt _ (by decide)
  rw [BitVec.toNat_append, BitVec.toNat_ofNat, BitVec.extractLsb'_toNat, Nat.shiftRight_zero, Nat.shiftLeft_eq, Nat.mul_comm, ← Nat.two_pow_add_eq_or_of_lt hlow,
    Nat.mod_eq_of_lt (show 2 ^ 13 * imm.toNat + x.toNat % 2 ^ 13 < 2 ^ 32 by omega)]

theorem liDHi_eq {imml : BitVec 32} (h : imml.toNat < 2 ^ 16) (x : Word) :
    (imml.extractLsb' 0 16 ++ x.extractLsb' 0 48 : Word) = BitVec.ofNat 64 (imml.toNat * 2 ^ 48 + x.toNat % 2 ^ 48) := by
  refine BitVec.eq_of_toNat_eq ?_
  have hlow : x.toNat % 2 ^ 48 < 2 ^ 48 := Nat.mod_lt _ (by decide)
  rw [BitVec.toNat_append, BitVec.toNat_ofNat, BitVec.extractLsb'_toNat, BitVec.extractLsb'_toNat, Nat.shiftRight_zero, Nat.shiftRight_zero, Nat.mod_eq_of_lt h, Nat.shiftLeft_eq,
    Nat.mul_comm, ← Nat.two_pow_add_eq_or_of_lt hlow, Nat.mod_eq_of_lt (show 2 ^ 48 * imml.toNat + x.toNat % 2 ^ 48 < 2 ^ 64 by omega)]

theorem accepts_liDHi_iff {f : FmtWL} {s : State} : s.accepts (.liDHi f) ↔ f.immh = 0 ∧ f.imml.toNat < 2 ^ 16 := by
  have hr : reservedOk (.liDHi f) = (decide (f.immh = 0) && decide (f.imml.toNat < 2 ^ 16)) := rfl
  rw [State.accepts_iff, check_eq_none_iff, hr, Bool.and_eq_true, decide_eq_true_iff, decide_eq_true_iff]
  exact ⟨fun h => h.1.1, fun h => ⟨⟨h, rfl, rfl⟩, rfl⟩⟩

/-- A shift form is refused for its amount alone. -/
theorem slotCause_shift {f : FmtAI} {i : Instr} (h : i = .shli f ∨ i = .shri f ∨ i = .srai f) (s : State) :
    slotCause i s.cx.long s.level = if f.imm.toNat < 64 then none else some Cause.immRange := by
  have hi : reservedOk i = true ∧ registersOk i = true ∧ immediatesOk i = decide (f.imm.toNat < 64) ∧ formCause i s.cx.long s.level = none := by
    obtain rfl | rfl | rfl := h <;> exact ⟨rfl, rfl, rfl, rfl⟩
  obtain ⟨hr, hg, him, hf⟩ := hi
  by_cases hn : f.imm.toNat < 64 <;> simp [slotCause, check, hr, hg, him, hf, hn]

theorem accepts_immediate {f : FmtAI} {i : Instr} (h : i = .addi f ∨ i = .andi f ∨ i = .ori f ∨ i = .xori f) (s : State) : s.accepts i := by
  rw [State.accepts_iff, check_eq_none_iff]
  obtain rfl | rfl | rfl | rfl := h <;> exact ⟨⟨rfl, rfl, rfl⟩, rfl⟩

/-- Settles O11: each form by the equation of its value, and the amounts of the shifts by the check of their range. -/
theorem immediateFormsGiveTheirResults : Obligations.ImmediateFormsGiveTheirResults := by
  refine ⟨fun f => ⟨?_, ?_, ?_, ?_, ?_, ?_, ?_, fun i hi => slotCause_shift hi, fun i hi => accepts_immediate hi, rfl⟩, fun f => ⟨?_, ?_⟩, fun f => ⟨?_, ?_, fun s => accepts_liDHi_iff⟩⟩
  · exact gives_of_slotA (fun _ => rfl) (fun _ => rfl)
  · exact gives_of_slotA (fun _ => rfl) (fun _ => rfl)
  · exact gives_of_slotA (fun _ => rfl) (fun _ => rfl)
  · exact gives_of_slotA (fun _ => rfl) (fun _ => rfl)
  · exact gives_of_slotA (fun _ => rfl) (fun s => congrArg (s.result f.xd) (shiftLeft_eq _ _))
  · exact gives_of_slotA (fun _ => rfl) (fun s => congrArg (s.result f.xd) (shiftRight_eq _ _))
  · exact gives_of_slotA (fun _ => rfl) (fun s => congrArg (s.result f.xd) (sshiftRight_eq _ _))
  · exact gives_of_slotA (fun _ => rfl) (fun _ => rfl)
  · exact gives_of_slotA (fun _ => rfl) (fun s => congrArg (fun v : BitVec 32 => s.result f.xd (v.signExtend 64)) (lih_eq f.imm _))
  · exact gives_of_slotC (fun _ => rfl) (fun _ => rfl)
  · intro s ha
    exact (exec_of_slotC (fun _ => rfl) ha).trans (congrArg (s.result f.xd) (liDHi_eq (accepts_liDHi_iff.1 ha).2 _))

end Sys2Proof.Machine
end

section
/-! SUPPORT. The scalar float forms: R264, R267, R268, R300 to R302. -/

namespace Sys2Proof.Machine

/-! ### The generator (R267) -/

theorem srNext_eq (w : Word) : BitVec.ofNat 64 (srNext w.toNat) = drawState w := by
  have hl : ∀ (v : Word) (n : Nat), v.toNat * 2 ^ n % 2 ^ 64 = (v <<< n).toNat := fun v n => by rw [BitVec.toNat_shiftLeft, Nat.shiftLeft_eq]
  have hr : ∀ (v : Word) (n : Nat), v.toNat / 2 ^ n = (v >>> n).toNat := fun v n => by rw [BitVec.toNat_ushiftRight, Nat.shiftRight_eq_div_pow]
  refine BitVec.eq_of_toNat_eq ?_
  simp only [srNext, drawState, hl, hr, ← BitVec.toNat_xor, BitVec.toNat_ofNat, BitVec.toNat_mod_cancel]

theorem srNext_lt (n : Nat) : srNext n < 2 ^ 64 := Nat.mod_lt _ (by decide)

theorem srNext_toNat (w : Word) : srNext w.toNat = (drawState w).toNat := by
  rw [← srNext_eq, BitVec.toNat_ofNat, Nat.mod_eq_of_lt (srNext_lt _)]

theorem srValue_srNext (w : Word) : srValue (srNext w.toNat) = drawValue w := by
  have h : (drawState w * 0x2545F4914F6CDD1D).toNat < 2 ^ 64 := BitVec.isLt _
  rw [srNext_toNat, srValue, drawValue, BitVec.extractLsb'_toNat, Nat.shiftRight_eq_div_pow, ← show (drawState w * 0x2545F4914F6CDD1D).toNat = (drawState w).toNat * 0x2545F4914F6CDD1D % 2 ^ 64 from BitVec.toNat_mul _ _]
  omega

theorem State.seed_eq_zero_iff {s : State} : s.seed = 0 ↔ s.core.seed = 0 :=
  ⟨fun h => BitVec.eq_of_toNat_eq h, fun h => congrArg BitVec.toNat h⟩

/-! ### Forms that round (R264, R300, R301) -/

section
variable {i : Instr} {F : FloatFmt} {xd : BitVec 5} {rm : State → RoundMode} {v : State → XNum}

/-- A form that rounds its value into XD draws under SR once, and faults on a generator of zero. -/
theorem roundsTo_of_slotA (hi : ∀ s, exec i s = s.slotA i (fun s => s.roundResult F xd (rm s) (v s))) : RoundsTo i F xd rm v := by
  intro s ha
  rw [exec_of_slotA hi ha, State.roundResult]
  refine ⟨fun h => if_neg h, fun h h0 => ?_, fun h h0 => ?_⟩
  · rw [if_pos h, if_pos (State.seed_eq_zero_iff.2 h0)]
  · rw [if_pos h, if_neg (fun hs => h0 (State.seed_eq_zero_iff.1 hs)), h, State.result_eq]
    show Host.Outcome.next (((s.updCurCore (fun k => { k with seed := BitVec.ofNat 64 (srNext s.core.seed.toNat) })).setX xd
      (BitVec.ofNat 64 (F.round (v s) .sr (srValue (srNext s.core.seed.toNat))))).fall) = _
    rw [srNext_eq, srValue_srNext]

end

/-- Settles O13: every rounding form rounds one exact value, and `fcvt.w.s` by its checks. -/
theorem floatFormsRoundOnce : Obligations.FloatFormsRoundOnce := by
  intro f rm down a b c
  have hint : ∀ s : State, sextNat 32 (s.x f.xa).toNat = ((s.x f.xa).extractLsb' 0 32).toInt := fun s => by
    rw [sextNat_eq_toInt (by decide)]
    simp [BitVec.extractLsb']
  refine ⟨roundsTo_of_slotA fun _ => rfl, roundsTo_of_slotA fun _ => rfl, roundsTo_of_slotA fun _ => rfl, roundsTo_of_slotA fun _ => rfl, roundsTo_of_slotA fun _ => rfl,
    roundsTo_of_slotA fun _ => rfl, roundsTo_of_slotA fun _ => rfl, roundsTo_of_slotA fun _ => rfl, roundsTo_of_slotA fun s => ?_, roundsTo_of_slotA fun _ => rfl, fun s ha => ?_⟩
  · simp only [← hint]
    rfl
  · rw [exec_of_slotA (k := fun s => if rm s = .sr then s.faultA .rmUnsupported else if f.tr = 1 ∧ intOverflows (a fp32 s) 32 (rm s) then s.faultA .cvtOverflow
      else s.result f.xd (wordOf (roundInt (a fp32 s) 32 (rm s)))) (fun _ => rfl) ha]
    refine ⟨fun h => if_pos h, fun h ht ho => ?_, fun h ht => ?_⟩
    · rw [if_neg h, if_pos ⟨ht, ho⟩]
    · rw [if_neg h, if_neg]
      · rfl
      · rintro ⟨ht1, ho⟩
        obtain h0 | h0 := ht
        · rw [h0] at ht1
          exact absurd ht1 (by decide)
        · rw [h0] at ho
          exact absurd ho (by decide)

/-! ### Codes of a format with infinities (R256, R264) -/

/-- The formats whose largest exponent field stands for the infinities and NaN. -/
structure FloatFmt.Ieee (F : FloatFmt) : Prop where
  hasInf : F.hasInf = true
  hasNan : F.hasNan = true
  topM : F.topM = 2 ^ (F.m + 1) - 1
  topE : F.topE = 2 ^ F.e - 2 - F.bias
  two_lt : 2 < 2 ^ F.e
  m_pos : 0 < F.m

theorem ieee_of_format {F : FloatFmt} (h : F = fp32 ∨ F = bf16 ∨ F = fp16 ∨ F = e5m2) : F.Ieee := by
  obtain rfl | rfl | rfl | rfl := h <;> exact ⟨rfl, rfl, rfl, rfl, by decide, by decide⟩

/-- A code from its sign, exponent field and mantissa field. -/
def FloatFmt.code (F : FloatFmt) (neg : Bool) (e m : Nat) : Nat := (if neg then 2 ^ (F.e + F.m) else 0) + e * 2 ^ F.m + m

/-- Every code of the format has its three fields. -/
theorem FloatFmt.exists_code (F : FloatFmt) {c : Nat} (h : c < 2 ^ (1 + F.e + F.m)) : ∃ neg e m, e < 2 ^ F.e ∧ m < 2 ^ F.m ∧ c = F.code neg e m := by
  have hpos := Nat.two_pow_pos F.m
  have hlow : c % 2 ^ (F.e + F.m) = c / 2 ^ F.m % 2 ^ F.e * 2 ^ F.m + c % 2 ^ F.m := by
    rw [pow_add, Nat.mul_comm, Nat.mod_mul]
    ring
  have hsign : c / 2 ^ (F.e + F.m) < 2 := Nat.div_lt_of_lt_mul (by rwa [← pow_succ, show F.e + F.m + 1 = 1 + F.e + F.m by ring])
  refine ⟨decide (c / 2 ^ (F.e + F.m) = 1), c / 2 ^ F.m % 2 ^ F.e, c % 2 ^ F.m, Nat.mod_lt _ (Nat.two_pow_pos _), Nat.mod_lt _ hpos, ?_⟩
  rw [FloatFmt.code, Nat.add_assoc, ← hlow]
  conv_lhs => rw [← Nat.div_add_mod c (2 ^ (F.e + F.m))]
  obtain h0 | h1 := Nat.lt_succ_iff_lt_or_eq.1 hsign
  · simp [Nat.lt_one_iff.1 h0]
  · simp [h1]

section
variable {F : FloatFmt} {neg : Bool} {e m : Nat} (he : e < 2 ^ F.e) (hm : m < 2 ^ F.m)
include he hm

theorem FloatFmt.fields_lt : e * 2 ^ F.m + m < 2 ^ (F.e + F.m) := by
  have h : (e + 1) * 2 ^ F.m ≤ 2 ^ F.e * 2 ^ F.m := Nat.mul_le_mul_right _ he
  rw [pow_add]
  linarith [Nat.succ_mul e (2 ^ F.m)]

theorem FloatFmt.code_lt : F.code neg e m < 2 ^ (1 + F.e + F.m) := by
  have h := FloatFmt.fields_lt he hm
  have hpow : 2 ^ (1 + F.e + F.m) = 2 * 2 ^ (F.e + F.m) := by ring
  unfold FloatFmt.code
  split <;> omega

theorem FloatFmt.code_parts : F.code neg e m / 2 ^ (F.e + F.m) = (if neg then 1 else 0) ∧ F.code neg e m / 2 ^ F.m % 2 ^ F.e = e ∧ F.code neg e m % 2 ^ F.m = m := by
  have h := FloatFmt.fields_lt he hm
  have hpos := Nat.two_pow_pos F.m
  have hmul : F.code neg e m = ((if neg then 2 ^ F.e else 0) + e) * 2 ^ F.m + m := by
    unfold FloatFmt.code
    split <;> ring
  refine ⟨?_, ?_, ?_⟩
  · unfold FloatFmt.code
    rw [Nat.add_assoc]
    split
    · rw [Nat.add_div_left _ (Nat.two_pow_pos _), Nat.div_eq_of_lt h]
    · rw [Nat.zero_add, Nat.div_eq_of_lt h]
  · rw [hmul, Nat.mul_comm, Nat.mul_add_div hpos, Nat.div_eq_of_lt hm, Nat.add_zero]
    split
    · rw [Nat.add_mod_left, Nat.mod_eq_of_lt he]
    · rw [Nat.zero_add, Nat.mod_eq_of_lt he]
  · rw [hmul, Nat.mul_comm, Nat.mul_add_mod, Nat.mod_eq_of_lt hm]

/-- What a code of such a format stands for, by its fields. -/
theorem FloatFmt.decode_code (hF : F.Ieee) : F.decode (F.code neg e m) =
    if e = 2 ^ F.e - 1 then (if m = 0 then .inf neg else .nan) else if e = 0 then .fin neg m (1 - F.bias - F.m) else .fin neg (2 ^ F.m + m) ((e : Int) - F.bias - F.m) := by
  obtain ⟨hs, hE, hM⟩ := FloatFmt.code_parts (neg := neg) he hm
  have hneg : decide ((if neg then 1 else 0) % 2 = 1) = neg := by cases neg <;> rfl
  rw [FloatFmt.decode, hs, hE, hM, hneg, hF.hasInf]
  simp

end

/-! ### A value that the format holds (R264) -/

theorem roundUnits_self (neg : Bool) (m : Nat) (e : Int) (rm : RoundMode) (r : Nat) : roundUnits neg m e e rm r = m := by
  simp [roundUnits]

/-- A count of units that is no more than the largest, at an exponent that is no more than the largest, does not overflow. -/
theorem cmp_fin_ne_one {a b : Nat} {u t : Int} (hab : a ≤ b) (hut : u ≤ t) : XNum.cmp (.fin false a u) (.fin false b t) ≠ 1 := by
  have hle : (a : Int) ≤ ((b * 2 ^ (t - u).toNat : Nat) : Int) := Int.ofNat_le.2 (hab.trans (Nat.le_mul_of_pos_right _ (Nat.two_pow_pos _)))
  have hcmp : XNum.cmp (.fin false a u) (.fin false b t) = ((a : Int) - ((b * 2 ^ (t - u).toNat : Nat) : Int)).sign := by
    simp [XNum.cmp, signedAt, hut]
  rw [hcmp, Ne, Int.sign_eq_one_iff_pos]
  omega

/-- A number whose exponent is the unit that the format has around it is a count of these units, and rounds to their code in every mode. -/
theorem FloatFmt.round_of_unit {F : FloatFmt} {neg : Bool} {m : Nat} {e : Int} (hF : F.Ieee) (hm0 : m ≠ 0) (hu : F.unit m e = e) (hm : m ≤ 2 ^ (F.m + 1) - 1)
    (he : e + F.m ≤ 2 ^ F.e - 2 - F.bias) (rm : RoundMode) (r : Nat) :
    F.round (.fin neg m e) rm r = (if neg then 2 ^ (F.e + F.m) else 0) + ((e + F.m + F.bias - 1).toNat * 2 ^ F.m + m) := by
  have hover : F.overflows (.fin neg m e) rm r = false := by
    simp only [FloatFmt.overflows, if_neg hm0, hu, roundUnits_self, hF.topM, hF.topE]
    exact decide_eq_false (cmp_fin_ne_one hm (by omega))
  simp only [FloatFmt.round, if_neg hm0, hover, hu, roundUnits_self, Bool.false_eq_true, if_false]

theorem FloatFmt.round_decode {F : FloatFmt} (hF : F.Ieee) (rm : RoundMode) (r : Nat) {c : Nat} (hc : c < 2 ^ (1 + F.e + F.m)) (hn : (F.decode c).isNan = false) :
    F.round (F.decode c) rm r = c := by
  obtain ⟨neg, e, m, he, hm, rfl⟩ := F.exists_code hc
  rw [FloatFmt.decode_code he hm hF] at hn ⊢
  have hpos := Nat.two_pow_pos F.m
  have hpow : (2 : Nat) ^ (F.m + 1) = 2 * 2 ^ F.m := pow_succ' _ _
  have htwo := hF.two_lt
  have hcast : ((2 ^ F.e : Nat) : Int) = 2 ^ F.e := by push_cast; rfl
  have hthree : (3 : Int) ≤ 2 ^ F.e := by exact_mod_cast htwo
  split at hn
  next h1 =>
    split at hn
    next h0 => simp [FloatFmt.round, hF.hasInf, FloatFmt.code, h1, h0]
    next => cases hn
  next h1 =>
    rw [if_neg h1]
    split
    next h0 =>
      by_cases hm0 : m = 0
      · simp [FloatFmt.round, FloatFmt.code, h0, hm0]
      · have hlog : Nat.log2 m < F.m := (Nat.log2_lt hm0).2 hm
        have hu : F.unit m (1 - F.bias - F.m) = 1 - F.bias - F.m := by
          unfold FloatFmt.unit
          omega
        have hcount : m ≤ 2 ^ (F.m + 1) - 1 := by omega
        rw [FloatFmt.round_of_unit hF hm0 hu hcount (by omega), FloatFmt.code, h0, show ((1 : Int) - F.bias - F.m + F.m + F.bias - 1).toNat = 0 by omega]
        ring
    next h0 =>
      have hlog : Nat.log2 (2 ^ F.m + m) = F.m := (Nat.log2_eq_iff (by omega)).2 ⟨by omega, by omega⟩
      have hu : F.unit (2 ^ F.m + m) ((e : Int) - F.bias - F.m) = (e : Int) - F.bias - F.m := by
        unfold FloatFmt.unit
        rw [hlog]
        omega
      rw [FloatFmt.round_of_unit hF (by omega) hu (by omega) (by omega), FloatFmt.code, show ((e : Int) - F.bias - F.m + F.m + F.bias - 1).toNat = e - 1 by omega]
      obtain ⟨k, rfl⟩ : ∃ k, e = k + 1 := ⟨e - 1, by omega⟩
      rw [Nat.add_sub_cancel]
      ring

/-- Settles O15: a value of the format is a count of its own units. -/
theorem representableValuesRoundToThemselves : Obligations.RepresentableValuesRoundToThemselves := by
  intro F hF rm r c hc
  refine ⟨fun hn => ?_, fun hn => FloatFmt.round_decode (ieee_of_format hF) rm r hc hn⟩
  cases h : F.decode c with
  | nan => simp [FloatFmt.round, (ieee_of_format hF).hasNan]
  | inf neg => rw [h] at hn; cases hn
  | fin neg m e => rw [h] at hn; cases hn

/-! ### Comparisons, picks and classes (R268, R301, R302) -/

theorem signInject_eq (F : FloatFmt) (a b : Word) {n : Nat} (hn : F.e + F.m = n) (h : n < 64) :
    signInject F a b = (b.extractLsb' n 1 ++ a.extractLsb' 0 n : BitVec (1 + n)).setWidth 64 := by
  have hlow : a.toNat % 2 ^ n < 2 ^ n := Nat.mod_lt _ (Nat.two_pow_pos n)
  have hbit : b.toNat / 2 ^ n % 2 < 2 := Nat.mod_lt _ (by decide)
  have hpow : 2 ^ (n + 1) ≤ 2 ^ 64 := Nat.pow_le_pow_right (by decide) h
  refine BitVec.eq_of_toNat_eq ?_
  rw [signInject, hn, BitVec.toNat_setWidth, BitVec.toNat_append, BitVec.extractLsb'_toNat, BitVec.extractLsb'_toNat, Nat.shiftRight_zero, Nat.shiftRight_eq_div_pow, Nat.shiftLeft_eq,
    bitsAt, Nat.add_sub_cancel_left, Nat.mul_comm _ (2 ^ n), ← Nat.two_pow_add_eq_or_of_lt hlow, BitVec.toNat_ofNat, Nat.add_comm]

theorem floatTests_and_picks : floatTestsAndPicks := by
  intro f num test
  refine ⟨gives_of_slotA (fun _ => rfl) fun _ => rfl, gives_of_slotA (fun _ => rfl) fun _ => rfl, gives_of_slotBinary (fun _ => rfl) rfl fun _ => rfl,
    gives_of_slotBinary (fun _ => rfl) rfl fun _ => rfl, gives_of_slotA (fun _ => rfl) fun _ => rfl, gives_of_slotA (fun _ => rfl) fun _ => rfl,
    gives_of_slotA (fun _ => rfl) fun _ => rfl, gives_of_slotBinary (fun _ => rfl) rfl fun _ => rfl, gives_of_slotBinary (fun _ => rfl) rfl fun _ => rfl,
    gives_of_slotBinary (fun _ => rfl) rfl fun _ => rfl, gives_of_slotA (fun _ => rfl) fun s => congrArg (s.result f.xd) (signInject_eq fp32 _ _ rfl (by decide)),
    gives_of_slotBinary (fun _ => rfl) rfl fun s => congrArg (s.result f.xd) (signInject_eq bf16 _ _ rfl (by decide)), gives_of_slotA (fun _ => rfl) fun _ => rfl,
    gives_of_slotA (fun _ => rfl) fun _ => rfl, gives_of_slotA (fun _ => rfl) fun _ => rfl⟩

theorem bitAt_mod {c i n : Nat} (h : i < n) : bitAt (c % 2 ^ n) i = bitAt c i := by
  rw [bitAt_eq_testBit, bitAt_eq_testBit, Nat.testBit_mod_two_pow, decide_eq_true h, Bool.true_and]

theorem class_of_everyCode : classOfEveryCode := by
  intro F h
  have hF : F.Ieee := ieee_of_format (h.elim .inl (fun h => .inr (.inl h)))
  have hpos := hF.m_pos
  refine ⟨fun c => ?_, fun neg e m he hm => ?_⟩
  · rw [classBit, classBit, Nat.mod_mod, bitAt_mod (by omega), bitAt_mod (by omega)]
  · obtain ⟨hs, -, hM⟩ := FloatFmt.code_parts (F := F) (neg := neg) he hm
    have hneg : bitAt (F.code neg e m) (F.e + F.m) = neg := by
      rw [bitAt, hs]
      cases neg <;> rfl
    have hquiet : bitAt (F.code neg e m) (F.m - 1) = decide (2 ^ (F.m - 1) ≤ m) := by
      have hsplit : (2 : Nat) ^ F.m = 2 * 2 ^ (F.m - 1) := by rw [← pow_succ', Nat.sub_add_cancel hpos]
      rw [← bitAt_mod (show F.m - 1 < F.m by omega), hM, bitAt]
      by_cases hle : 2 ^ (F.m - 1) ≤ m
      · rw [Nat.div_eq_of_lt_le (by omega) (by omega) (k := 1)]
        simp [hle]
      · rw [Nat.div_eq_of_lt (by omega)]
        simp [hle]
    show classBit F (F.code neg e m) = _
    rw [classBit, Nat.mod_eq_of_lt (FloatFmt.code_lt he hm), FloatFmt.decode_code he hm hF, hneg, hquiet]
    by_cases h1 : e = 2 ^ F.e - 1
    · by_cases h0 : m = 0
      · simp [h1, h0]
      · by_cases hq : m < 2 ^ (F.m - 1)
        · simp [h1, h0, hq]
        · simp [h1, h0, hq, Nat.not_lt.1 hq]
    · by_cases h0 : e = 0
      · rw [if_neg h1, if_neg h1, if_pos h0, if_pos h0]
        simp [hm]
      · simp [h1, h0]

/-- Settles O14: the tests and picks by their arms, and the class of a code by its fields. -/
theorem comparisonsPicksAndClasses : Obligations.ComparisonsPicksAndClasses := ⟨floatTests_and_picks, class_of_everyCode⟩

end Sys2Proof.Machine
end

section
/-! SUPPORT. Branches, calls and jumps: R282, R304, R305. -/

namespace Sys2Proof.Machine

/-- A branch goes where its condition on the registers before the bundle says. -/
theorem branches_of_slotC {i : Instr} {n : Nat} {off : BitVec n} {taken : State → Prop} {c : State → Bool} (hi : ∀ s, exec i s = s.slotC i (fun s => s.branchIf (c s) (s.target off)))
    (hc : ∀ s, c s = true ↔ taken s) : Branches i off taken := by
  intro s ha
  rw [exec_of_slotC hi ha, State.branchIf]
  exact ⟨fun h => if_pos ((hc s).2 h), fun h => if_neg (fun ht => h ((hc s).1 ht))⟩

theorem accepts_farBz_iff {f : FmtWB} {s : State} : s.accepts (.farBz f) ↔ f.xb = 0 := by
  have hr : reservedOk (.farBz f) = decide (f.xb = 0) := rfl
  rw [State.accepts_iff, check_eq_none_iff, hr, decide_eq_true_iff]
  exact ⟨fun h => h.1.1, fun h => ⟨⟨h, rfl, rfl⟩, rfl⟩⟩

theorem branches_go : branchesGoWhereTheirConditionSays := by
  refine ⟨fun f s ha => ⟨fun _ => exec_of_slotC (fun _ => rfl) ha, fun h => absurd trivial h⟩, fun f => ⟨?_, ?_, ?_, ?_, ?_, ?_⟩, fun f => ⟨?_, ?_⟩,
    fun f => ⟨?_, ?_, ?_, ?_, ?_, ?_, ?_, ?_, fun s => accepts_farBz_iff⟩⟩
  all_goals exact branches_of_slotC (fun _ => rfl) (fun _ => decide_eq_true_iff)

/-- A jump to a target on the bundle grid writes its link, if it has one, and goes there. -/
theorem State.jump_eq (s : State) (target : Word) (link : Option (BitVec 5)) (loops : Bool) : s.jump target link loops =
    if target.toNat % 8 = 0 then
      .next (if loops then (link.elim s (fun xd => s.setX xd (s.cx.pc + 8))).branch target else (link.elim s (fun xd => s.setX xd (s.cx.pc + 8))).retire target)
    else s.faultC .targetAlign := by
  by_cases h : target.toNat % 8 = 0
  · cases link <;> cases loops <;> simp [State.jump, h]
  · simp [State.jump, h]

theorem calls_and_jumps : callsLinkAndJumpsAlign := by
  intro s
  refine ⟨fun f ha => exec_of_slotC (fun _ => rfl) ha, fun f ha => ?_, fun f ha => ?_, fun ha => ?_, fun ha => exec_of_slotC (fun _ => rfl) ha⟩
  · exact (exec_of_slotC (fun _ => rfl) ha).trans (s.jump_eq (s.x f.xa) (some f.xd) false)
  · exact (exec_of_slotC (fun _ => rfl) ha).trans (s.jump_eq (s.x f.xa) none true)
  · exact (exec_of_slotC (fun _ => rfl) ha).trans (s.jump_eq (s.x 31) none false)

/-- Settles O16: each branch by its condition, each jump by where it goes. -/
theorem branchesCallsAndJumps : Obligations.BranchesCallsAndJumps := ⟨branches_go, calls_and_jumps⟩

end Sys2Proof.Machine
end

section
/-! SUPPORT. Scalar loads: R312 to R314, R317. -/

namespace Sys2Proof.Machine

section
variable {s : State}

/-- The context that has sent an access and holds for its reply. -/
theorem State.cx_holdFor (s : State) (a : Access) :
    (s.holdFor a).cx = { s.cx with hold := some s.nextAcc, stall := some ((s.cx.stall.map (fun p => p.1)).getD s.rtime, 0) } := by
  let u := (s.launchAccess a).upd (fun c => { c with hold := some s.nextAcc })
  have hu : u.cx = { s.cx with hold := some s.nextAcc } := State.cx_upd _ _
  exact (u.cx_stallOn 0).trans (by rw [hu]; rfl)

theorem State.net_holdFor (s : State) (a : Access) : ∃ b, (s.holdFor a).net = s.net ++ [b] ∧ b.id = s.nextAcc ∧ b.kind = a.kind ∧ b.gpa = a.gpa ∧ b.va = a.va ∧ b.size = a.size ∧
    b.more = a.more ∧ b.firing = s.cx.firing ∧ b.result = a.result :=
  ⟨_, rfl, rfl, rfl, rfl, rfl, rfl, rfl, rfl, rfl⟩

section
variable {va size align : Nat} {vector : Bool} {kind : AccKind} {k : Nat → Out}

theorem loadBytes_failed {c : Cause} {n : Nat} (hreply : s.cx.reply = some (.failed c n)) :
    s.loadBytes va size align vector kind k = s.faultC c va (accSyndrome c .read size 0) := by
  simp only [State.loadBytes, State.holding, hreply]

variable (hreply : s.cx.reply = none)
include hreply

theorem loadBytes_waits (hhold : s.cx.hold.isSome) : s.loadBytes va size align vector kind k = .next (s.stallOn 0) := by
  obtain ⟨id, hid⟩ := Option.isSome_iff_exists.1 hhold
  simp only [State.loadBytes, State.holding, hreply, hid]

variable (hhold : s.cx.hold = none)
include hhold

theorem loadBytes_refused {c : Cause} {y : Nat} (hbad : s.checkAccess s.cur va size align .read vector = .bad c y) :
    s.loadBytes va size align vector kind k = s.faultC c va y := by
  simp only [State.loadBytes, State.holding, hreply, hhold, hbad]

/-- A load that passes its checks is one access of the bytes that were checked. -/
theorem loadBytes_holds {g : Nat} {e : Pte} (hok : s.checkAccess s.cur va size align .read vector = .ok g e) : ∃ a : Access, s.loadBytes va size align vector kind k = .next (s.holdFor a) ∧
    a.kind = kind ∧ a.va = va ∧ a.gpa = g ∧ a.size + (a.more.map (fun p => p.2)).sum = size ∧ a.result = none := by
  obtain ⟨m, r, hpieces, hsum⟩ := s.piecesOf_parts va size g .read
  obtain ⟨n, hcount⟩ := s.withCount_eq { kind := kind, va := va, gpa := g, size := m, more := r }
  refine ⟨{ kind := kind, va := va, gpa := g, size := m, more := r, snap := n }, ?_, rfl, rfl, rfl, hsum, rfl⟩
  rw [← hcount]
  simp only [State.loadBytes, State.holding, hreply, hhold, hok, hpieces]

end

/-! ### The forms (R314) -/

/-- A loaded number is extended from the bytes of its form. -/
theorem extended_eq {size : Nat} (h : size ≤ 8) (signed : Bool) (v : Nat) : (if signed then sextWord (8 * size) v else BitVec.ofNat 64 v) = extended size signed v := by
  rw [extended, sextWord_low (by omega)]

theorem exec_load {i : Instr} {rt : BitVec 5} {va : State → Nat} {size : Nat} {signed : Bool} (hi : ∀ s, exec i s = s.slotC i (fun s => s.load rt (va s) size signed)) (hsize : size ≤ 8)
    (ha : s.accepts i) : exec i s = s.loadBytes (va s) size size false .load (fun v => s.result rt (extended size signed v)) := by
  rw [exec_of_slotC hi ha, State.load]
  simp only [extended_eq hsize]

/-- The loads differ in their form alone. -/
theorem exec_loadForm {i : Instr} {l : LoadForm} (h : loadForm i s = some l) (ha : s.accepts i) :
    exec i s = s.loadBytes l.va l.size l.size false l.kind (fun v => s.result l.rt (extended l.size l.signed v)) := by
  unfold loadForm at h
  simp only at h
  split at h
  case h_16 => cases h
  case h_15 f =>
    cases h
    have hsize : sizeOfSz f.sz ≤ 8 := (sizeOfSz_cases f.sz).elim (fun h => h ▸ by decide) (fun h => h ▸ le_rfl)
    have haddr : s.addrCMS f = (s.x f.base + BitVec.ofNat 64 (sizeOfSz f.sz) * f.disp.signExtend 64).toNat := by
      unfold State.addrCMS sizeOfSz
      split <;> rfl
    have hexec : exec (.ldAcq f) s = s.loadBytes (s.addrCMS f) (sizeOfSz f.sz) (sizeOfSz f.sz) false (.acquire f.sc.toNat) (fun v => s.result f.rt (sextWord (8 * sizeOfSz f.sz) v)) :=
      exec_of_slotC (fun _ => rfl) ha
    have hext : ∀ v, sextWord (8 * sizeOfSz f.sz) v = extended (sizeOfSz f.sz) true v := fun v => extended_eq hsize true v
    rw [hexec, haddr]
    simp only [hext]
    rfl
  all_goals
    cases h
    exact (exec_load (fun _ => rfl) (by decide) ha :)

end

/-- Settles O18: a load answers, fails, waits, is refused or is sent, by what its context and its checks give. -/
theorem loadsHoldForTheirReplyAndWriteIt : Obligations.LoadsHoldForTheirReplyAndWriteIt := by
  intro i s l hl ha
  rw [exec_loadForm hl ha]
  refine ⟨fun v hv _ => (loadBytes_value hv).trans (s.result_eq _ _), fun c n hc => loadBytes_failed hc, fun hr hh => loadBytes_waits hr hh, fun hr hh =>
    ⟨fun c y hbad => loadBytes_refused hr hh hbad, fun g e hok => ?_⟩⟩
  obtain ⟨a, hsend, hkind, hva, hg, hsize, hres⟩ := loadBytes_holds (kind := l.kind) (k := fun v => s.result l.rt (extended l.size l.signed v)) hr hh hok
  obtain ⟨b, hnet, hid, hbk, hbg, hbva, hbsize, hbmore, hbf, hbr⟩ := s.net_holdFor a
  have hcx := s.cx_holdFor a
  refine ⟨_, b, hsend, hnet, hid, hbk.trans hkind, hbg.trans hg, hbva.trans hva, hbf, hbr.trans hres, ?_, by rw [hcx], by rw [hcx], fun r => ?_, fun _ => rfl⟩
  · rw [hbsize, hbmore, hsize]
  · exact State.x_of_regs (by rw [hcx]) r

end Sys2Proof.Machine
end

section
/-! SUPPORT. Vector registers as they are written, in either mode: R180, R201, R347. -/

namespace Sys2Proof.Machine

/-! ### Long registers (R201) -/

/-- The words of engine state that hold a long register. -/
theorem Engine.word_setLong (e : Engine) (r v k : Nat) :
    (e.setLong r v).mem.get 0 k = if 64 * r ≤ k ∧ k < 64 * r + 64 then BitVec.ofNat 32 (v / 2 ^ (32 * (k - 64 * r))) else e.mem.get 0 k := by
  have hprefix : ∀ n, KMap.get 0 ((List.range n).foldl (fun m i => m.put (64 * r + i) (BitVec.ofNat 32 (v / 2 ^ (32 * i)))) e.mem) k =
      if 64 * r ≤ k ∧ k < 64 * r + n then BitVec.ofNat 32 (v / 2 ^ (32 * (k - 64 * r))) else e.mem.get 0 k := by
    intro n
    induction n with
    | zero => exact (if_neg (by omega)).symm
    | succ n ih =>
      rw [List.range_succ, List.foldl_append, List.foldl_cons, List.foldl_nil, KMap.get_put, ih]
      by_cases hk : k = 64 * r + n
      · rw [if_pos hk, if_pos (by omega), hk, Nat.add_sub_cancel_left]
      · rw [if_neg hk]
        exact if_congr (by omega) rfl rfl
  simpa only [Engine.setLong] using hprefix 64

theorem Engine.longReg_setLong (e : Engine) (r v q : Nat) : (e.setLong r v).longReg q = if q = r then v % 2 ^ (32 * 64) else e.longReg q := by
  split
  next h =>
    subst q
    refine Eq.trans ?_ ((sum_lanes_eq_packLanes 32 64 (fun i => laneAt 32 v i)).trans (packLanes_unpackLanes 32 64 v))
    refine congrArg List.sum (List.map_congr_left fun i hi => ?_)
    have hi : i < 64 := List.mem_range.1 hi
    rw [Engine.word_setLong, if_pos (by omega), Nat.add_sub_cancel_left, BitVec.toNat_ofNat, laneAt, Nat.mod_mod]
  next h =>
    refine congrArg List.sum (List.map_congr_left fun i hi => ?_)
    have hi : i < 64 := List.mem_range.1 hi
    rw [Engine.word_setLong, if_neg (by omega)]

theorem Engine.longReg_lt (e : Engine) (r : Nat) : e.longReg r < 2 ^ (32 * 64) := by
  have h := packLanes_lt 32 ((List.range 64).map (fun i => (e.mem.get 0 (64 * r + i)).toNat))
  rw [← sum_lanes_eq_packLanes, List.length_map, List.length_range] at h
  refine lt_of_eq_of_lt (congrArg List.sum (List.map_congr_left fun i _ => ?_)) h
  rw [Nat.mod_eq_of_lt (BitVec.isLt _)]

/-! ### What is the same after vector registers have been written -/

/-- Between two states vector registers and the generator alone have changed, as far as programs see it. -/
structure VecKept (s t : State) : Prop where
  cur : t.cur = s.cur
  cx : ({ t.cx with v := s.cx.v } : Ctx) = s.cx
  others : ∀ i, i ≠ s.cur → t.ctxOf i = s.ctxOf i
  core : ({ t.core with seed := s.core.seed } : Core) = s.core
  mem : t.mem = s.mem
  net : t.net = s.net

namespace VecKept
variable {s t u : State}

theorem refl (s : State) : VecKept s s := ⟨rfl, rfl, fun _ _ => rfl, rfl, rfl, rfl⟩

theorem trans (h : VecKept s t) (h' : VecKept t u) : VecKept s u where
  cur := h'.cur.trans h.cur
  cx := (congrArg (fun c : Ctx => { c with v := s.cx.v }) h'.cx :).trans h.cx
  others := fun i hi => (h'.others i (h.cur ▸ hi)).trans (h.others i hi)
  core := (congrArg (fun c : Core => { c with seed := s.core.seed }) h'.core :).trans h.core
  mem := h'.mem.trans h.mem
  net := h'.net.trans h.net

/-- A part of the context other than the vector registers. -/
theorem part {α : Type} (h : VecKept s t) (p : Ctx → α) (hp : ∀ (c : Ctx) (l : KMap (BitVec 256)), p { c with v := l } = p c) : p t.cx = p s.cx :=
  (hp t.cx s.cx.v).symm.trans (congrArg p h.cx)

theorem long (h : VecKept s t) : t.cx.long = s.cx.long := h.part Ctx.long (fun _ _ => rfl)

theorem x (h : VecKept s t) (r : BitVec 5) : t.x r = s.x r := State.x_of_regs (h.part Ctx.x (fun _ _ => rfl)) r

theorem k (h : VecKept s t) (r : BitVec 3) : t.k r = s.k r := by rw [State.k, State.k, h.part Ctx.k (fun _ _ => rfl)]

theorem streams (h : VecKept s t) : t.core.streams = s.core.streams := (congrArg Core.streams h.core :)

theorem streamOf (h : VecKept s t) (r : Nat) : t.streamOf r = s.streamOf r :=
  State.streamOf_congr_at h.long (h.part Ctx.firing (fun _ _ => rfl)) (fun _ => by rw [Core.streamAt, Core.streamAt, h.streams])

theorem vecBytes (h : VecKept s t) : t.vecBytes = s.vecBytes := by rw [State.vecBytes, State.vecBytes, h.long]

end VecKept

/-- A bundle that falls through from such a state has written nothing but vector registers. -/
theorem vecFrame_of_kept {s t : State} {dest : Nat → Prop} (h : VecKept s t) (hv : ∀ r, ¬dest r → t.ownVec r = s.ownVec r) : vecFrame s t.fall dest := by
  refine ⟨fun r => (t.x_fall r).trans (h.x r), fun r => (t.k_fall r).trans (h.k r), fun r hr => (t.ownVec_of_fall r).trans (hv r hr), State.pc_fall_of_flow (h.part Ctx.flow (fun _ _ => rfl)),
    (t.cxPart_fall Ctx.fstat (fun _ => rfl)).trans (h.part Ctx.fstat (fun _ _ => rfl)), (t.cxPart_fall Ctx.st (fun _ => rfl)).trans (h.part Ctx.st (fun _ _ => rfl)), fun i hi => ?_, ?_,
    fun a => congrArg (Memory.read · a) h.mem⟩
  · exact (t.ctxOf_retire_other _ (h.cur ▸ hi)).trans (h.others i hi)
  · rw [State.core_fall]
    exact h.streams

section
variable {s : State} {r : Nat}

theorem State.vecKept_setVec (h : s.streamOf r = none) (v : Nat) : VecKept s (s.setVec r v) := by
  by_cases hl : s.cx.long = true
  · have heq : s.setVec r v = s.updEng (fun e => e.setLong r v) := if_pos hl
    rw [heq]
    exact ⟨rfl, rfl, fun _ _ => rfl, rfl, rfl, rfl⟩
  · rw [State.setVec_of_unbound (eq_false_of_ne_true hl) h]
    refine ⟨rfl, ?_, fun i hi => State.ctxOf_updCtx_other _ _ hi, rfl, rfl, rfl⟩
    rw [State.cx_upd]

/-- A written register holds the value, cut to the register's bytes; the others hold what they held. -/
theorem State.ownVec_setVec (h : s.streamOf r = none) (v q : Nat) : (s.setVec r v).ownVec q = if q = r then v % 2 ^ (8 * s.vecBytes) else s.ownVec q := by
  have hlong := (s.vecKept_setVec h v).long
  by_cases hl : s.cx.long = true
  · have heq : s.setVec r v = s.updEng (fun e => e.setLong r v) := if_pos hl
    rw [State.ownVec, hlong, if_pos hl, heq, State.eng_updEng, Engine.longReg_setLong, State.ownVec, if_pos hl, State.vecBytes, if_pos hl]
  · rw [State.ownVec, hlong, if_neg hl, State.setVec_of_unbound (eq_false_of_ne_true hl) h, State.cx_upd, KMap.get_put, State.ownVec, if_neg hl, State.vecBytes, if_neg hl]
    split
    · exact BitVec.toNat_ofNat _ _
    · rfl

theorem State.ownVec_lt_bytes (s : State) (r : Nat) : s.ownVec r < 2 ^ (8 * s.vecBytes) := by
  unfold State.ownVec State.vecBytes
  split
  · have h := s.eng.longReg_lt r
    rwa [show 32 * 64 = 8 * 256 from rfl] at h
  · exact (s.cx.v.get 0 r).isLt

end

end Sys2Proof.Machine
end

section
/-! SUPPORT. Stores of several pieces, and vector loads and stores: R187, R312 to R315. -/

namespace Sys2Proof.Machine

/-! ### Stores that leave (R187, R314) -/

/-- Between two states stores of the issuing context have left: they are in flight and counted in UNACK. -/
structure StoresLeft (kind : AccKind) (s t : State) (l : List Access) : Prop where
  cur : t.cur = s.cur
  sent : sentBy s t kind l
  cx : ({ t.cx with unFld := s.cx.unFld, unWaf := s.cx.unWaf, unDom := s.cx.unDom } : Ctx) = s.cx
  others : ∀ i, i ≠ s.cur → t.ctxOf i = s.ctxOf i
  core : t.core = s.core
  mem : t.mem = s.mem
  eng : t.eng = s.eng

namespace StoresLeft
variable {kind : AccKind} {s t u : State} {l l' : List Access}

theorem refl (kind : AccKind) (s : State) : StoresLeft kind s s [] where
  cur := rfl
  sent := ⟨(List.append_nil _).symm, fun _ h => absurd h List.not_mem_nil⟩
  cx := rfl
  others := fun _ _ => rfl
  core := rfl
  mem := rfl
  eng := rfl

/-- A part of the context that does not count stores. -/
theorem part {α : Type} (h : StoresLeft kind s t l) (p : Ctx → α) (hp : ∀ (c : Ctx) (a b d : Nat), p { c with unFld := a, unWaf := b, unDom := d } = p c) : p t.cx = p s.cx :=
  (hp t.cx _ _ _).symm.trans (congrArg p h.cx)

theorem trans (h : StoresLeft kind s t l) (h' : StoresLeft kind t u l') : StoresLeft kind s u (l ++ l') where
  cur := h'.cur.trans h.cur
  sent := by
    obtain ⟨hnet, hall⟩ := h.sent
    obtain ⟨hnet', hall'⟩ := h'.sent
    rw [h.part Ctx.firing (fun _ _ _ _ => rfl), h.cur] at hall'
    exact ⟨by rw [hnet', hnet, List.append_assoc], fun a ha => (List.mem_append.1 ha).elim (hall a) (hall' a)⟩
  cx := (congrArg (fun c : Ctx => { c with unFld := s.cx.unFld, unWaf := s.cx.unWaf, unDom := s.cx.unDom }) h'.cx :).trans h.cx
  others := fun i hi => (h'.others i (h.cur ▸ hi)).trans (h.others i hi)
  core := h'.core.trans h.core
  mem := h'.mem.trans h.mem
  eng := h'.eng.trans h.eng

theorem isQuiet (h : StoresLeft kind s t l) : quiet s t :=
  quiet_of_seen (h.part Ctx.seen (fun _ _ _ _ => rfl)) (fun _ => h.eng) (othersKept_of h.others) h.mem

theorem streamOf (h : StoresLeft kind s t l) (r : Nat) : t.streamOf r = s.streamOf r :=
  State.streamOf_congr (h.part Ctx.long (fun _ _ _ _ => rfl)) (h.part Ctx.firing (fun _ _ _ _ => rfl)) h.core r

/-- The bundle that sent them falls through. -/
theorem falls (h : StoresLeft kind s t l) : sentBy s t.fall kind l ∧ t.fall.cx.pc = s.fall.cx.pc ∧ quiet s t.fall :=
  ⟨h.sent, State.pc_fall_of_flow (h.part Ctx.flow (fun _ _ _ _ => rfl)), quiet_fall h.cur h.isQuiet⟩

end StoresLeft

theorem storesLeft_issueStore (s : State) (a : Access) (hr : a.result = none) : StoresLeft a.kind s (s.issueStore a) [s.flightOf a] where
  cur := rfl
  sent := sentBy_flightOf rfl hr
  cx := by
    rw [State.cx_issueStore]
    exact s.cx.unackUp_keeps (s.reachGpa a.gpa)
  others := fun _ hi => State.ctxOf_updCtx_other (s.launchAccess a) _ hi
  core := rfl
  mem := rfl
  eng := rfl

/-- The pieces of a store leave one after another, the least significant bytes first. -/
theorem State.issuePieces_leave (s : State) (kind : AccKind) (ps : List (Nat × Nat × Nat)) (data : Nat) :
    ∃ l, StoresLeft kind s (s.issuePieces kind ps data) l ∧ l.map (fun a => (a.va, a.gpa, a.size)) = ps ∧ accessData l = data % 2 ^ (8 * (ps.map (fun q => q.2.2)).sum) := by
  induction ps generalizing s data with
  | nil => exact ⟨[], .refl kind s, rfl, (Nat.mod_one data).symm⟩
  | cons p ps ih =>
    obtain ⟨va, g, n⟩ := p
    let a : Access := { kind := kind, va := va, gpa := g, size := n, data := data % 2 ^ (8 * n) }
    obtain ⟨l, hleft, hplaces, hdata⟩ := ih (s.issueStore a) (data / 2 ^ (8 * n))
    refine ⟨s.flightOf a :: l, (storesLeft_issueStore s a rfl).trans hleft, congrArg ((va, g, n) :: ·) hplaces, ?_⟩
    have hfirst : accessData (s.flightOf a :: l) = data % 2 ^ (8 * n) % 2 ^ (8 * n) + 2 ^ (8 * n) * accessData l := rfl
    rw [hfirst, hdata, Nat.mod_mod, List.map_cons, List.sum_cons, Nat.mul_add, Nat.pow_add, Nat.mod_mul]

/-! ### Loads and stores of one register (R315) -/

section
variable {s : State} {rt : BitVec 5} {va : Nat}

theorem State.loadVec_of_unbound (h : s.streamOf rt.toNat = none) :
    s.loadVec rt va = s.loadBytes va s.vecBytes 32 true .load (fun v => .next (s.setVec rt.toNat v).fall) :=
  State.withVecs_of_unbound (by simpa using h) _

theorem State.storeVec_of_unbound (h : s.streamOf rt.toNat = none) :
    s.storeVec rt va = s.storeBytes va s.vecBytes 32 (s.ownVec rt.toNat) true .store (fun s => .next (s.popStreams [rt.toNat]).fall) :=
  State.withVecs_of_unbound (by simpa using h) _

theorem exec_vecForm {i : Instr} {ld : Bool} (h : vecForm i s = some (ld, rt, va)) (ha : s.accepts i) : exec i s = if ld then s.loadVec rt va else s.storeVec rt va := by
  unfold vecForm at h
  split at h
  case h_5 => cases h
  all_goals
    cases h
    exact exec_of_slotC (fun _ => rfl) ha

/-- A loaded register holds the bytes that came back (R315). -/
theorem State.setVec_fall_reads {v : Nat} (h : s.streamOf rt.toNat = none) (hv : v < 2 ^ (8 * s.vecBytes)) :
    let t := (s.setVec rt.toNat v).fall
    t.ownVec rt.toNat = v ∧ vecFrame s t (fun r => r = rt.toNat) := by
  refine ⟨?_, vecFrame_of_kept (s.vecKept_setVec h v) fun r hr => ?_⟩
  · rw [State.ownVec_of_fall, State.ownVec_setVec h, if_pos rfl, Nat.mod_eq_of_lt hv]
  · rw [State.ownVec_setVec h, if_neg hr]

/-- A store that has room leaves in its pieces. -/
theorem State.storeBytes_leaves {size align g data : Nat} {e : Pte} {vector : Bool} {k : State → Out} (hreply : s.cx.reply = none) (hhold : s.cx.hold = none)
    (hok : s.checkAccess s.cur va size align .write vector = .ok g e) (hatt : isDbgAttach g = false) (hroom : (s.vaPieces va size g .write).any (fun p => s.unackFull p.2.1) = false) :
    s.storeBytes va size align data vector .store k = k (s.issuePieces .store (s.vaPieces va size g .write) data) := by
  simp only [State.storeBytes, hreply, hhold, hok, hatt, hroom]
  rfl

end

/-- Settles O27: a load by its reply, its check and its one access, a store by the pieces that leave. -/
theorem vectorLoadsAndStoresMoveBytes : Obligations.VectorLoadsAndStoresMoveBytes := by
  unfold Obligations.VectorLoadsAndStoresMoveBytes
  intro i s ld rt va hi ha hs n
  have hn : s.vecBytes = n := rfl
  rw [exec_vecForm hi ha, State.loadVec_of_unbound hs, State.storeVec_of_unbound hs, hn]
  refine ⟨fun hr hh c y hbad => ?_, ?_, ?_⟩
  · cases ld with
    | true => exact (if_pos rfl).trans (loadBytes_refused hr hh hbad)
    | false => exact (if_neg Bool.false_ne_true).trans (State.storeBytes_refused hr hh hbad)
  · rintro rfl
    refine ⟨fun v hv hlt => ?_, fun g e hr hh hok => ?_⟩
    · obtain ⟨hread, hx, hk, hothers, hpc, -, -, -, -, hmem⟩ := State.setVec_fall_reads hs hlt
      exact ⟨_, loadBytes_value hv, hread, hothers, hx, hk, hpc, hmem⟩
    · obtain ⟨a, hload, hkind, -, hg, hsize, hres⟩ := loadBytes_holds (kind := .load) (k := fun v => .next (s.setVec rt.toNat v).fall) hr hh hok
      obtain ⟨hsent, hheld, hpc, hquiet⟩ := holdFor_sends (s := s) hres
      rw [hkind] at hsent
      exact ⟨_, s.flightOf a, hload, hsent, hg, hsize, hheld, hpc, hquiet⟩
  · rintro rfl g e hr hh hok hatt hroom
    obtain ⟨m, r, hpieces, hsum⟩ := s.piecesOf_parts va n g .write
    obtain ⟨l, hleft, hplaces, hdata⟩ := s.issuePieces_leave .store (s.vaPieces va n g .write) (s.ownVec rt.toNat)
    have hpop := State.popStreams_of_unbound (rs := [rt.toNat]) (s := s.issuePieces .store (s.vaPieces va n g .write) (s.ownVec rt.toNat)) (by simpa [hleft.streamOf] using hs)
    obtain ⟨hsent, hpc, hquiet⟩ := hleft.falls
    refine ⟨_, l, (if_neg Bool.false_ne_true).trans ((State.storeBytes_leaves hr hh hok hatt ?_).trans (by rw [hpop])), hsent, ?_, ?_, hpc, hquiet⟩
    · simpa [State.piecesOf] using hroom
    · rw [State.piecesOf, ← hplaces, List.map_map]
      rfl
    · have hlen : ((s.vaPieces va n g .write).map (fun q => q.2.2)).sum = n := by
        have hall : ((s.piecesOf va n g .write).map (fun p => p.2)).sum = n := by rw [hpieces]; exact hsum
        rwa [State.piecesOf, List.map_map] at hall
      rw [hdata, hlen]

end Sys2Proof.Machine
end

section
/-! SUPPORT. The codes that a rounding gives, and what a draw has to do with them: R264, R267, R269. -/

namespace Sys2Proof.Machine

/-! ### A draw matters under SR alone (R264, R267) -/

section
variable {rm : RoundMode} (hrm : rm ≠ .sr)
include hrm

theorem roundUnits_draw (neg : Bool) (m : Nat) (e u : Int) (r r' : Nat) : roundUnits neg m e u rm r = roundUnits neg m e u rm r' := by
  cases rm
  case sr => exact absurd rfl hrm
  all_goals rfl

theorem FloatFmt.round_draw (F : FloatFmt) (x : XNum) (r r' : Nat) : F.round x rm r = F.round x rm r' := by
  cases x with
  | nan => rfl
  | inf n => rfl
  | fin neg m e => simp only [FloatFmt.round, FloatFmt.overflows, roundUnits_draw hrm neg m e (F.unit m e) r r']

theorem roundInt_draw (x : XNum) (n r r' : Nat) : roundInt x n rm r = roundInt x n rm r' := by
  cases x with
  | nan => rfl
  | inf n => rfl
  | fin neg m e => simp only [roundInt, roundUnits_draw hrm neg m e 0 r r']

theorem intOverflows_draw (x : XNum) (n r r' : Nat) : intOverflows x n rm r = intOverflows x n rm r' := by
  cases x with
  | nan => rfl
  | inf n => rfl
  | fin neg m e => simp only [intOverflows, roundUnits_draw hrm neg m e 0 r r']

end

/-! ### A rounded value is a code of its format (R264) -/

/-- The units that a rounding counts lie at the quotient or one above it. -/
theorem roundUnits_of_lt {neg : Bool} {m : Nat} {e u : Int} {rm : RoundMode} {r : Nat} (h : e < u) :
    m / 2 ^ (u - e).toNat ≤ roundUnits neg m e u rm r ∧ roundUnits neg m e u rm r ≤ m / 2 ^ (u - e).toNat + 1 := by
  unfold roundUnits
  rw [if_neg (by omega)]
  simp only
  split
  · omega
  · split
    case h_2 => omega
    all_goals split_ifs <;> omega

section
variable {F : FloatFmt} {m : Nat} {e : Int}

/-- A number has at most 2^(M + 1) of its units. -/
theorem FloatFmt.units_le (neg : Bool) (rm : RoundMode) (r : Nat) : roundUnits neg m e (F.unit m e) rm r ≤ 2 ^ (F.m + 1) := by
  have hlt : m < 2 ^ (Nat.log2 m + 1) := Nat.lt_log2_self
  have hu : (Nat.log2 m : Int) + e ≤ F.unit m e + F.m := by
    unfold FloatFmt.unit
    omega
  by_cases h : F.unit m e ≤ e
  · rw [roundUnits, if_pos h]
    calc m * 2 ^ (e - F.unit m e).toNat ≤ 2 ^ (Nat.log2 m + 1) * 2 ^ (e - F.unit m e).toNat := Nat.mul_le_mul_right _ hlt.le
      _ = 2 ^ (Nat.log2 m + 1 + (e - F.unit m e).toNat) := (pow_add _ _ _).symm
      _ ≤ 2 ^ (F.m + 1) := Nat.pow_le_pow_right two_pos (by omega)
  · have hdiv : m / 2 ^ (F.unit m e - e).toNat < 2 ^ (F.m + 1) := by
      rw [Nat.div_lt_iff_lt_mul (Nat.two_pow_pos _), ← pow_add]
      exact lt_of_lt_of_le hlt (Nat.pow_le_pow_right two_pos (by omega))
    have hr := (roundUnits_of_lt (neg := neg) (m := m) (rm := rm) (r := r) (not_le.1 h)).2
    omega

variable (hm : m ≠ 0)
include hm

/-- Above the smallest exponent it has at least 2^M. -/
theorem FloatFmt.le_units (hu : 1 - F.bias - F.m < F.unit m e) (neg : Bool) (rm : RoundMode) (r : Nat) : 2 ^ F.m ≤ roundUnits neg m e (F.unit m e) rm r := by
  have hle : 2 ^ Nat.log2 m ≤ m := Nat.log2_self_le hm
  have hunit : F.unit m e = Nat.log2 m + e - F.m := by
    unfold FloatFmt.unit at hu ⊢
    omega
  by_cases h : F.unit m e ≤ e
  · rw [roundUnits, if_pos h]
    calc 2 ^ F.m = 2 ^ Nat.log2 m * 2 ^ (e - F.unit m e).toNat := by rw [← pow_add]; congr 1; omega
      _ ≤ m * 2 ^ (e - F.unit m e).toNat := Nat.mul_le_mul_right _ hle
  · refine le_trans ?_ (roundUnits_of_lt (neg := neg) (m := m) (rm := rm) (r := r) (not_le.1 h)).1
    rw [Nat.le_div_iff_mul_le (Nat.two_pow_pos _), ← pow_add]
    exact le_trans (Nat.pow_le_pow_right two_pos (by omega)) hle

/-- A number whose unit lies above the largest exponent overflows. -/
theorem FloatFmt.overflows_of_unit (hF : F.Ieee) (hu : F.topE - F.m < F.unit m e) (neg : Bool) (rm : RoundMode) (r : Nat) : F.overflows (.fin neg m e) rm r = true := by
  have htwo : (3 : Int) ≤ 2 ^ F.e := by exact_mod_cast hF.two_lt
  have hmin : 1 - F.bias - F.m < F.unit m e := by
    rw [hF.topE] at hu
    omega
  have hn := FloatFmt.le_units hm hmin neg rm r
  have htop : F.topM < roundUnits neg m e (F.unit m e) rm r * 2 ^ (F.unit m e - (F.topE - F.m)).toNat := by
    have hpos := Nat.two_pow_pos F.m
    have hpow : 2 ^ 1 ≤ 2 ^ (F.unit m e - (F.topE - F.m)).toNat := Nat.pow_le_pow_right two_pos (by omega)
    calc F.topM < 2 ^ F.m * 2 ^ 1 := by rw [hF.topM, pow_succ, pow_one]; omega
      _ ≤ _ := Nat.mul_le_mul hn hpow
  simp only [FloatFmt.overflows, if_neg hm]
  simp only [XNum.cmp, signedAt, Bool.false_eq_true, if_false, decide_eq_true_eq, Int.sign_eq_one_iff_pos, min_eq_right hu.le, sub_self, Int.toNat_zero, pow_zero, Nat.mul_one, sub_pos]
  exact_mod_cast htop

end

theorem FloatFmt.round_lt {F : FloatFmt} (hF : F.Ieee) (hq : F.qnan < 2 ^ (1 + F.e + F.m)) (x : XNum) (rm : RoundMode) (r : Nat) : F.round x rm r < 2 ^ (1 + F.e + F.m) := by
  have htwo := hF.two_lt
  have hthree : (3 : Int) ≤ 2 ^ F.e := by exact_mod_cast htwo
  have hcast : ((2 ^ F.e : Nat) : Int) = 2 ^ F.e := by push_cast; rfl
  have hpow : 2 ^ (1 + F.e + F.m) = 2 ^ (F.e + F.m) + 2 ^ (F.e + F.m) := by rw [Nat.add_assoc, pow_add, pow_one, two_mul]
  have hpos := Nat.two_pow_pos F.m
  have hinf : (2 ^ F.e - 1) * 2 ^ F.m < 2 ^ (F.e + F.m) := by
    rw [pow_add]
    exact Nat.mul_lt_mul_of_pos_right (by omega) hpos
  have htop : (2 ^ F.e - 3) * 2 ^ F.m + 2 ^ (F.m + 1) = (2 ^ F.e - 1) * 2 ^ F.m := by
    rw [pow_succ', ← Nat.add_mul]
    congr 1
    omega
  have hmax : (F.topE + F.bias - 1).toNat * 2 ^ F.m + F.topM < 2 ^ (F.e + F.m) := by
    rw [hF.topE, hF.topM, show ((2 : Int) ^ F.e - 2 - F.bias + F.bias - 1).toNat = 2 ^ F.e - 3 by omega]
    omega
  have hsign : ∀ (neg : Bool) {v : Nat}, v < 2 ^ (F.e + F.m) → (if neg then 2 ^ (F.e + F.m) else 0) + v < 2 ^ (1 + F.e + F.m) := fun neg v hv => by
    rw [hpow]
    split <;> omega
  cases x with
  | nan =>
    simp only [FloatFmt.round, hF.hasNan, if_true]
    exact hq
  | inf neg =>
    simp only [FloatFmt.round, hF.hasInf, if_true]
    exact hsign neg hinf
  | fin neg m e =>
    by_cases hm : m = 0
    · simp only [FloatFmt.round, if_pos hm]
      exact hsign neg (v := 0) (Nat.two_pow_pos _)
    by_cases hover : F.overflows (.fin neg m e) rm r = true
    · simp only [FloatFmt.round, if_neg hm, hover, if_true]
      refine hsign neg ?_
      rw [hF.hasInf]
      cases rm <;> cases neg <;> simp only [Bool.not_true, Bool.false_eq_true, if_false, if_true] <;> assumption
    · simp only [FloatFmt.round, if_neg hm, if_neg hover]
      refine hsign neg ?_
      have hunit : F.unit m e ≤ F.topE - F.m := not_lt.1 fun hu => hover (FloatFmt.overflows_of_unit hm hF hu neg rm r)
      have hn := F.units_le (m := m) (e := e) neg rm r
      have hexp : (F.unit m e + F.m + F.bias - 1).toNat ≤ 2 ^ F.e - 3 := by
        rw [hF.topE] at hunit
        omega
      have hmul := Nat.mul_le_mul_right (2 ^ F.m) hexp
      omega

/-! ### The lane formats, and the special functions (R269, R347) -/

theorem floatLane_iff {t : BitVec 2} : floatLane t = true ↔ t = 0 ∨ t = 1 := by
  revert t
  decide

theorem laneFmt_cases (t : BitVec 2) : laneFmt t = fp32 ∨ laneFmt t = bf16 := by
  unfold laneFmt
  split
  · exact .inl rfl
  · exact .inr rfl

/-- A lane of a float type has the bits of its format. -/
theorem laneFmt_width {t : BitVec 2} (h : floatLane t = true) : 1 + (laneFmt t).e + (laneFmt t).m = laneBits t := by
  revert t
  decide

theorem laneFmt_ieee (t : BitVec 2) : (laneFmt t).Ieee :=
  ieee_of_format ((laneFmt_cases t).elim .inl (fun h => .inr (.inl h)))

theorem laneFmt_qnan (t : BitVec 2) : (laneFmt t).qnan < 2 ^ (1 + (laneFmt t).e + (laneFmt t).m) := by
  revert t
  decide

theorem laneFmt_round_lt {t : BitVec 2} (h : floatLane t = true) (x : XNum) (rm : RoundMode) (r : Nat) : (laneFmt t).round x rm r < 2 ^ laneBits t := by
  rw [← laneFmt_width h]
  exact FloatFmt.round_lt (laneFmt_ieee t) (laneFmt_qnan t) x rm r

theorem ite_lt_of_lt {c : Prop} [Decidable c] {a b n : Nat} (ha : a < n) (hb : b < n) : (if c then a else b) < n := by
  split
  · exact ha
  · exact hb

section
variable {F : FloatFmt} {n : Nat} {rm : RoundMode} (hround : ∀ x, F.round x rm < n)
include hround

theorem ziv_lt (hn : 0 < n) (bounds : Nat → XNum × XNum) (ps : List Nat) : ziv F rm bounds ps < n := by
  induction ps with
  | nil => exact hn
  | cons p ps ih =>
    unfold ziv
    simp only
    split
    · exact hround _
    · exact ih

theorem exp2Round_lt (hn : 0 < n) (neg : Bool) (m : Nat) (e : Int) : exp2Round F rm neg m e < n :=
  ite_lt_of_lt (hround _) (ite_lt_of_lt (hround _) (ite_lt_of_lt (hround _) (ziv_lt hround hn _ _)))

theorem log2Round_lt (hn : 0 < n) (m : Nat) (e : Int) : log2Round F rm m e < n := ite_lt_of_lt (hround _) (ziv_lt hround hn _ _)

theorem tanhRound_lt (hn : 0 < n) (neg : Bool) (m : Nat) (e : Int) : tanhRound F rm neg m e < n :=
  ite_lt_of_lt (hround _) (ite_lt_of_lt (hround _) (ziv_lt hround hn _ _))

theorem specialValue_lt (hq : F.qnan < n) (fn : SpecialFn) (x : XNum) : specialValue fn F rm x < n := by
  have hn : 0 < n := Nat.zero_lt_of_lt hq
  cases x with
  | nan => cases fn <;> exact hq
  | inf neg =>
    cases fn with
    | exp2 => exact hround _
    | rcp => exact hround (.zero neg)
    | tanh => exact hround (.fin neg 1 0)
    | log2 => exact ite_lt_of_lt hq (hround _)
    | rsqrt => exact ite_lt_of_lt hq (hround _)
    | sqrt => exact ite_lt_of_lt hq (hround _)
  | fin neg m e =>
    cases fn with
    | exp2 => exact ite_lt_of_lt (hround _) (exp2Round_lt hround hn neg m e)
    | rcp => exact ite_lt_of_lt (hround _) (hround _)
    | tanh => exact ite_lt_of_lt (hround _) (tanhRound_lt hround hn neg m e)
    | log2 => exact ite_lt_of_lt (hround _) (ite_lt_of_lt hq (log2Round_lt hround hn m e))
    | rsqrt => exact ite_lt_of_lt (hround _) (ite_lt_of_lt hq (hround _))
    | sqrt => exact ite_lt_of_lt (hround _) (ite_lt_of_lt hq (hround _))

end

end Sys2Proof.Machine
end

section
/-! SUPPORT. The issue of a vector instruction, its lanes in ascending order, and what it writes: R50, R267, R347, R348, R351, R352, R369. -/

namespace Sys2Proof.Machine

/-! ### A state that programs see as another (R50) -/

/-- Two states with the same contexts, cores, memory and engine of the issuing tile: NEXTOK may differ. -/
structure SameView (s u : State) : Prop where
  cur : u.cur = s.cur
  ctxs : u.ctxs = s.ctxs
  cores : u.cores = s.cores
  eng : u.eng = s.eng
  mem : u.mem = s.mem
  net : u.net = s.net

namespace SameView
variable {s u : State} (h : SameView s u)

theorem refl (s : State) : SameView s s := ⟨rfl, rfl, rfl, rfl, rfl, rfl⟩

include h

theorem cx : u.cx = s.cx := by rw [State.cx, State.cx, State.ctxOf_congr h.ctxs, h.cur]

theorem core : u.core = s.core := by rw [State.core, State.core, State.coreOf, State.coreOf, h.cores, h.cur]

theorem x (r : BitVec 5) : u.x r = s.x r := State.x_of_regs (congrArg Ctx.x h.cx) r

theorem k (r : BitVec 3) : u.k r = s.k r := by rw [State.k, State.k, h.cx]

theorem seed : u.seed = s.seed := by rw [State.seed, State.seed, h.core]

theorem ownVec (r : Nat) : u.ownVec r = s.ownVec r := by rw [State.ownVec, State.ownVec, h.cx, h.eng]

theorem streamOf (r : Nat) : u.streamOf r = s.streamOf r := State.streamOf_congr (by rw [h.cx]) (by rw [h.cx]) h.core r

theorem roundMode (rm : BitVec 3) : u.roundMode rm = s.roundMode rm := by rw [State.roundMode, State.roundMode, h.cx]

theorem kept : VecKept s u := ⟨h.cur, by rw [h.cx], fun i _ => State.ctxOf_congr h.ctxs i, by rw [h.core], h.mem, h.net⟩

theorem enabled (me : BitVec 1) (km : BitVec 3) (t : BitVec 2) : laneEnabled me km t u = laneEnabled me km t s := by
  funext l
  rw [laneEnabled, laneEnabled, h.k, h.cx]

end SameView

/-- The model's mask is the one of R348. -/
theorem State.laneOn_eq (s : State) (me : BitVec 1) (km : BitVec 3) (t : BitVec 2) : s.laneOn me km (lanesOf s.cx.long t) = laneEnabled me km t s := by
  funext l
  rw [State.laneOn, bitAt_toNat, laneEnabled]

/-! ### Issue (R50, R351) -/

/-- A vector instruction that is ready issues: outside long mode at once, in long mode with NEXTOK set. -/
theorem State.vecIssue_of_ready {s : State} {regs : List Nat} (hr : vecReady s regs) :
    ∃ u, SameView s u ∧ ∀ k v, k u = .next v → (v.ctxOf s.cur).stall = none → s.vecIssue k = .next v := by
  obtain ⟨hlong, -⟩ := hr
  by_cases hl : s.cx.long = true
  · obtain ⟨hclaim, hh, hok⟩ := hlong hl
    refine ⟨s.updCurTile (fun t => { t with
      nextok := s.cyc + issueInterval s.tile.h (fullRate (tileKind (tileOfCtx s.cur))) / 4, lastPaced := s.rtime }), ⟨rfl, rfl, rfl, ?_, rfl, rfl⟩, fun k v hk hv => ?_⟩
    · rw [State.eng, State.tile_updCurTile, State.eng]
    · rw [State.vecIssue, if_pos hl, if_neg (ne_true_of_eq_false hclaim), State.pace]
      simp only [if_neg hh, if_neg (not_lt.2 hok), hk, State.unpaced, hv]
      rfl
  · exact ⟨s, .refl s, fun k v hk _ => (if_neg hl).trans hk⟩

/-- A bundle that falls through waits for nothing. -/
theorem State.stall_fall (s : State) : s.fall.cx.stall = none := by
  rw [State.fall_eq, State.cx_retire]

/-! ### A fault of the A slot (R235) -/

theorem State.eng_freeze (s : State) (i : Nat) (e : FaultAt) : (s.freeze i e).eng = s.eng := by
  have htiles : ∀ (u : State) (n : Nat), (u.leaveBarriers n).tiles = u.tiles := fun u n => by
    unfold State.leaveBarriers
    split <;> rfl
  have hleave : ∀ (u : State) (j : Nat), ((u.leaveSemQueues i).tileOf j).eng = (u.tileOf j).eng := fun u j => by
    rw [State.leaveSemQueues, State.tileOf, htiles, ← State.tileOf, State.tileOf_updTile]
    split
    · subst j
      rfl
    · rfl
  rw [State.eng, State.tile, s.cur_freeze]
  unfold State.freeze
  simp only
  rw [State.tileOf, State.tiles_postFreeze]
  split
  · exact hleave _ _
  · exact hleave _ _

/-- The context freezes with the cause; vector registers and memory stay. -/
theorem State.faultA_freezes (s : State) (c : Cause) (a y : Nat) : ∃ v, s.faultA c a y = .next v ∧ v.cur = s.cur ∧ v.cx.st = 1 ∧ v.cx.cause = c ∧ v.cx.stall = none ∧
    (∀ r, v.ownVec r = s.ownVec r) ∧ v.mem = s.mem := by
  let e : FaultAt := { cause := c, slotA := true, addr := a, synd := y }
  have hcx : (s.freeze s.cur e).cx = { s.cx.frozen c with haltAt := s.rtime } := s.cx_freeze e
  refine ⟨s.freeze s.cur e, rfl, s.cur_freeze _ e, by rw [hcx]; rfl, by rw [hcx]; rfl, by rw [hcx]; rfl, fun r => ?_, (s.faultTaken_freeze s.cur e).part State.mem (fun _ => rfl)⟩
  rw [State.ownVec, State.ownVec, State.eng_freeze, hcx]
  rfl

/-- A vector instruction that is ready and then faults. -/
theorem State.vecIssue_faults {s : State} {regs : List Nat} (hr : vecReady s regs) {k : State → Out} {c : Cause} (hk : ∀ u, SameView s u → k u = u.faultA c) :
    ∃ v, s.vecIssue k = .next v ∧ v.cx.st = 1 ∧ v.cx.cause = c ∧ (∀ r, v.ownVec r = s.ownVec r) ∧ ∀ a, v.mem.read a = s.mem.read a := by
  obtain ⟨u, hu, hissue⟩ := State.vecIssue_of_ready hr
  obtain ⟨v, hv, hcur, hst, hcause, hstall, hvec, hmem⟩ := u.faultA_freezes c 0 0
  refine ⟨v, hissue k v ((hk u hu).trans hv) ?_, hst, hcause, fun r => (hvec r).trans (hu.ownVec r), fun a => by rw [hmem, hu.mem]⟩
  rwa [← hu.cur, ← hcur]

/-! ### The lanes of a result in ascending order (R267, R348, R369) -/

theorem drawAt_add (w : Word) (m n : Nat) : drawAt w (m + n) = drawAt (drawAt w m) n := by
  induction n with
  | zero => rfl
  | succ n ih => exact congrArg drawState ih

theorem onCount_succ (on : Nat → Bool) (n : Nat) : onCount on (n + 1) = onCount on n + if on n then 1 else 0 := by
  rw [onCount, onCount, List.range_succ, List.filter_append, List.length_append]
  congr 1
  by_cases h : on n = true <;> simp [h]

/-- The generator after n lanes have drawn. -/
def seedAfter (sr : Bool) (w : Word) (n : Nat) : Word := if sr then drawAt w n else w

/-- The draw of a lane after n lanes have drawn. -/
def drawFor (sr : Bool) (w : Word) (n : Nat) : Nat := if sr then drawValue (drawAt w n) else 0

@[simp] theorem seedAfter_true (w : Word) (n : Nat) : seedAfter true w n = drawAt w n := if_pos rfl

@[simp] theorem seedAfter_false (w : Word) (n : Nat) : seedAfter false w n = w := if_neg Bool.false_ne_true

@[simp] theorem drawFor_true (w : Word) (n : Nat) : drawFor true w n = drawValue (drawAt w n) := if_pos rfl

@[simp] theorem drawFor_false (w : Word) (n : Nat) : drawFor false w n = 0 := if_neg Bool.false_ne_true

theorem drawFor_seedAfter (sr : Bool) (w : Word) (m n : Nat) : drawFor sr (seedAfter sr w m) n = drawFor sr w (m + n) := by
  cases sr with
  | false => rw [drawFor_false, drawFor_false]
  | true => rw [drawFor_true, drawFor_true, seedAfter_true, drawAt_add]

theorem seedAfter_add (sr : Bool) (w : Word) (m n : Nat) : seedAfter sr w (m + n) = seedAfter sr (seedAfter sr w m) n := by
  cases sr with
  | false => rw [seedAfter_false, seedAfter_false, seedAfter_false]
  | true => rw [seedAfter_true, seedAfter_true, seedAfter_true, drawAt_add]

/-- The model's draw, on numbers, is the generator's step. -/
theorem seed_drawn (sr : Bool) (w : Word) (n : Nat) : (if sr then srNext (seedAfter sr w n).toNat else (seedAfter sr w n).toNat) = (seedAfter sr w (n + 1)).toNat := by
  cases sr with
  | false => rw [if_neg Bool.false_ne_true, seedAfter_false, seedAfter_false]
  | true => rw [if_pos rfl, seedAfter_true, seedAfter_true, srNext_toNat, drawAt]

theorem value_drawn (sr : Bool) (w : Word) (n : Nat) : (if sr then srValue (seedAfter sr w (n + 1)).toNat else 0) = drawFor sr w n := by
  cases sr with
  | false => rw [if_neg Bool.false_ne_true, drawFor_false]
  | true => rw [if_pos rfl, seedAfter_true, drawFor_true, drawAt, ← srNext_toNat, srValue_srNext]

theorem seedAfter_zero (sr : Bool) (w : Word) : seedAfter sr w 0 = w := by
  cases sr <;> rfl

/-- What a lane function answers for a value, or for the lack of one. -/
def laneResult (c : Cause) : Option Nat → Except Cause Nat
  | none => .error c
  | some v => .ok v

section
variable {sr : Bool} {on : Nat → Bool} {old : Nat → Nat} {g : Nat → Nat → Except Cause Nat} {c : Cause} {val : Nat → Nat → Option Nat} {w : Word}
  (hg : ∀ l r, g l r = laneResult c (val l (if sr then r else 0)))
include hg

/-- The first of the remaining lanes. -/
theorem runLanes_first (a : Nat) (is : List Nat) :
    runLanes sr on old g (a :: is) (seedAfter sr w (onCount on a)).toNat =
      match if on a then val a (drawFor sr w (onCount on a)) else some (old a) with
      | none => .error c
      | some v => match runLanes sr on old g is (seedAfter sr w (onCount on (a + 1))).toNat with
        | .error c => .error c
        | .ok (vs, t) => .ok (v :: vs, t) := by
  rw [onCount_succ]
  by_cases hon : on a = true
  · simp only [runLanes, hon, if_true, seed_drawn, hg, value_drawn]
    cases val a (drawFor sr w (onCount on a)) <;> rfl
  · rw [if_neg hon, if_neg hon, Nat.add_zero, runLanes, if_neg hon] <;> rfl

theorem runLanes_values : ∀ n a, (∀ l, a ≤ l → l < a + n → on l = true → (val l (drawFor sr w (onCount on l))).isSome) →
    runLanes sr on old g (List.range' a n) (seedAfter sr w (onCount on a)).toNat =
      .ok ((List.range' a n).map (fun l => (if on l then val l (drawFor sr w (onCount on l)) else some (old l)).getD 0), (seedAfter sr w (onCount on (a + n))).toNat)
  | 0, _, _ => rfl
  | n + 1, a, h => by
    obtain ⟨v, hv⟩ : ∃ v, (if on a then val a (drawFor sr w (onCount on a)) else some (old a)) = some v := by
      split
      · exact Option.isSome_iff_exists.1 (h a le_rfl (by omega) ‹_›)
      · exact ⟨_, rfl⟩
    rw [List.range'_succ, runLanes_first hg, hv, runLanes_values n (a + 1) (fun l hl hn => h l (by omega) (by omega)), List.map_cons, hv, Nat.add_right_comm]
    rfl

theorem runLanes_fails : ∀ n a, (∃ l, a ≤ l ∧ l < a + n ∧ on l = true ∧ val l (drawFor sr w (onCount on l)) = none) →
    runLanes sr on old g (List.range' a n) (seedAfter sr w (onCount on a)).toNat = .error c
  | 0, a, ⟨l, hl, hn, _⟩ => by omega
  | n + 1, a, ⟨l, hl, hn, hon, hnone⟩ => by
    rw [List.range'_succ, runLanes_first hg]
    split
    · rfl
    next v hv =>
      have hne : a ≠ l := by
        rintro rfl
        rw [if_pos hon, hnone] at hv
        cases hv
      rw [runLanes_fails n (a + 1) ⟨l, by omega, by omega, hon, hnone⟩]

end

/-! ### Registers of lanes (R347) -/

theorem laneBits_mul_lanesOf (s : State) (t : BitVec 2) : laneBits t * lanesOf s.cx.long t = 8 * s.vecBytes := by
  unfold lanesOf State.vecBytes
  split
  · rw [Nat.mul_left_comm, laneBits_mul_lanesShort]
  · exact laneBits_mul_lanesShort t

theorem laneAt_lt (b v i : Nat) : laneAt b v i < 2 ^ b := Nat.mod_lt _ (Nat.two_pow_pos b)

/-- Lanes that have been packed, one by one. -/
theorem laneAt_packLanes {b n l : Nat} {f : Nat → Nat} (hl : l < n) (hf : f l < 2 ^ b) : laneAt b (packLanes b ((List.range n).map f)) l = f l := by
  rw [laneAt, packLanes_lane, List.getD_eq_getElem _ _ (by simpa using hl), List.getElem_map, List.getElem_range, Nat.mod_eq_of_lt hf]

theorem packLanes_lt_bytes (s : State) (t : BitVec 2) (f : Nat → Nat) : packLanes (laneBits t) ((List.range (lanesOf s.cx.long t)).map f) < 2 ^ (8 * s.vecBytes) := by
  have h := packLanes_lt (laneBits t) ((List.range (lanesOf s.cx.long t)).map f)
  rwa [List.length_map, List.length_range, laneBits_mul_lanesOf] at h

/-- Lanes written to a register that is bound to no stream. -/
theorem State.ownVec_setLanes {s : State} {r : Nat} (h : s.streamOf r = none) (t : BitVec 2) (f : Nat → Nat) (q : Nat) :
    (s.setVec r (packLanes (laneBits t) ((List.range (lanesOf s.cx.long t)).map f))).ownVec q =
      if q = r then packLanes (laneBits t) ((List.range (lanesOf s.cx.long t)).map f) else s.ownVec q := by
  rw [State.ownVec_setVec h, Nat.mod_eq_of_lt (packLanes_lt_bytes s t f)]

theorem State.core_setVec {s : State} {r : Nat} (h : s.streamOf r = none) (v : Nat) : (s.setVec r v).core = s.core := by
  by_cases hl : s.cx.long = true
  · have heq : s.setVec r v = s.updEng (fun e => e.setLong r v) := if_pos hl
    rw [heq]
    rfl
  · rw [State.setVec_of_unbound (eq_false_of_ne_true hl) h]
    rfl

/-- In long mode no register is bound to a stream (R190). -/
theorem State.streamOf_of_long {s : State} (h : s.cx.long = true) (r : Nat) : s.streamOf r = none := by
  simp [State.streamOf, h]

/-- The generator and the lanes of one register. -/
theorem State.setSeed_setVec_writes {s : State} {r : Nat} (h : s.streamOf r = none) (t : BitVec 2) (f : Nat → Nat) (w : Word) :
    let u := (s.setSeed w.toNat).setVec r (packLanes (laneBits t) ((List.range (lanesOf s.cx.long t)).map f))
    VecKept s u ∧ u.core.seed = w ∧ ∀ q, u.ownVec q = if q = r then packLanes (laneBits t) ((List.range (lanesOf s.cx.long t)).map f) else s.ownVec q := by
  have hcore : (s.setSeed w.toNat).core = { s.core with seed := w } := by
    rw [State.setSeed, State.core_updCurCore, BitVec.ofNat_toNat, BitVec.setWidth_eq]
  have hkept : VecKept s (s.setSeed w.toNat) := ⟨rfl, rfl, fun _ _ => rfl, by rw [hcore], rfl, rfl⟩
  have hbound : (s.setSeed w.toNat).streamOf r = none := (hkept.streamOf r).trans h
  refine ⟨hkept.trans (State.vecKept_setVec hbound _), ?_, fun q => State.ownVec_setLanes hbound t f q⟩
  rw [State.core_setVec hbound, hcore]

/-! ### A lane-wise instruction (R347, R348, R352, R369) -/

section
variable {s : State} {vd : Nat} {ins : List Nat} {ty : BitVec 2} {pair sr : Bool} {on : Nat → Bool} {g : Nat → List Nat → Nat → Except Cause Nat} {c : Cause}
  {val : Nat → Nat → Nat → Option Nat}

/-- What a lane function has to do with the values of its instruction, for the registers and for the next ones of a paired form. -/
structure LaneValues (s : State) (vd : Nat) (ins : List Nat) (ty : BitVec 2) (pair sr : Bool) (g : Nat → List Nat → Nat → Except Cause Nat) (c : Cause)
    (val : Nat → Nat → Nat → Option Nat) : Prop where
  /-- The operands are followed by a place for the destination, except in the second half of a pair. -/
  value : ∀ e z l r, e < (if pair then 2 else 1) → z = [] ∨ z = [0] → g l ((ins.map (· + e)).map s.ownVec ++ z) r = laneResult c (val e l (if sr then r else 0))
  bound : ∀ e l r v, val e l r = some v → v < 2 ^ laneBits ty
  long : pair = true → s.cx.long = true
  unbound : ∀ r ∈ ins ++ [vd], s.streamOf r = none

/-- The lanes that half `e` of an instruction leaves in its register, after `all` draws in each half before. -/
def halfLanes (s : State) (vd : Nat) (ty : BitVec 2) (sr : Bool) (on : Nat → Bool) (val : Nat → Nat → Nat → Option Nat) (all e l : Nat) : Nat :=
  (if on l then val e l (drawFor sr s.core.seed (e * all + onCount on l)) else some (laneOf s ty (vd + e) l)).getD 0

variable (h : LaneValues s vd ins ty pair sr g c val)
include h

theorem LaneValues.withVecs (k : List Nat → Out) : s.withVecs true ins [vd] k = k ((ins.map (· + 0)).map s.ownVec ++ [0]) := by
  rw [State.withVecs_of_unbound h.unbound]
  simp

theorem LaneValues.pairReads (hp : pair = true) : gatherReads ((ins.map (· + 1)).map s.vecIn) = .ok ((ins.map (· + 1)).map s.ownVec ++ []) := by
  have hin : s.vecIn = fun r => .ok (s.ownVec r) := funext fun r => by rw [State.vecIn, State.ownVec, if_pos (h.long hp), if_pos (h.long hp)]
  rw [hin, List.append_nil, ← gatherReads_ok, List.map_map, List.map_map, List.map_map]
  rfl

theorem halfLanes_lt (all e l : Nat) : halfLanes s vd ty sr on val all e l < 2 ^ laneBits ty := by
  unfold halfLanes
  split
  · cases hv : val e l (drawFor sr s.core.seed (e * all + onCount on l)) with
    | none => exact Nat.two_pow_pos _
    | some v => exact h.bound _ _ _ _ hv
  · exact laneAt_lt _ _ _

section
variable {e : Nat} {z : List Nat} (he : e < (if pair then 2 else 1)) (hz : z = [] ∨ z = [0])
include he hz

/-- The lanes of half `e`, when each lane that takes part has a value. -/
theorem LaneValues.run (hall : ∀ l, l < lanesOf s.cx.long ty → on l = true → (val e l (drawFor sr s.core.seed (e * onCount on (lanesOf s.cx.long ty) + onCount on l))).isSome) :
    runLanes sr on (laneAt (laneBits ty) (s.ownVec (vd + e))) (fun i r => g i ((ins.map (· + e)).map s.ownVec ++ z) r) (List.range (lanesOf s.cx.long ty))
        (seedAfter sr s.core.seed (e * onCount on (lanesOf s.cx.long ty))).toNat =
      .ok ((List.range (lanesOf s.cx.long ty)).map (halfLanes s vd ty sr on val (onCount on (lanesOf s.cx.long ty)) e),
        (seedAfter sr s.core.seed ((e + 1) * onCount on (lanesOf s.cx.long ty))).toNat) := by
  have hrun := runLanes_values (w := seedAfter sr s.core.seed (e * onCount on (lanesOf s.cx.long ty))) (old := laneAt (laneBits ty) (s.ownVec (vd + e))) (on := on)
    (fun l r => h.value e z l r he hz) (lanesOf s.cx.long ty) 0 (fun l _ hl hon => by rw [drawFor_seedAfter]; exact hall l (by omega) hon)
  rw [Nat.zero_add, show onCount on 0 = 0 from rfl, seedAfter_zero, ← seedAfter_add, ← Nat.succ_mul, ← List.range_eq_range'] at hrun
  simp only [drawFor_seedAfter] at hrun
  exact hrun

theorem LaneValues.run_fails (hfail : ∃ l, l < lanesOf s.cx.long ty ∧ on l = true ∧ val e l (drawFor sr s.core.seed (e * onCount on (lanesOf s.cx.long ty) + onCount on l)) = none) :
    runLanes sr on (laneAt (laneBits ty) (s.ownVec (vd + e))) (fun i r => g i ((ins.map (· + e)).map s.ownVec ++ z) r) (List.range (lanesOf s.cx.long ty))
        (seedAfter sr s.core.seed (e * onCount on (lanesOf s.cx.long ty))).toNat = .error c := by
  obtain ⟨l, hl, hon, hnone⟩ := hfail
  have hrun := runLanes_fails (w := seedAfter sr s.core.seed (e * onCount on (lanesOf s.cx.long ty))) (old := laneAt (laneBits ty) (s.ownVec (vd + e))) (on := on)
    (fun l r => h.value e z l r he hz) (lanesOf s.cx.long ty) 0 ⟨l, Nat.zero_le l, by omega, hon, by rw [drawFor_seedAfter]; exact hnone⟩
  rwa [show onCount on 0 = 0 from rfl, seedAfter_zero, ← List.range_eq_range'] at hrun

end

/-- Under SR a generator of zero faults if a lane takes part. -/
theorem LaneValues.faults_seed (hsr : sr = true) (hw : s.core.seed = 0) (hon : onCount on (lanesOf s.cx.long ty) ≠ 0) : s.lanewise vd ins ty pair sr on g = s.faultA .srSeed := by
  obtain ⟨l, hl⟩ := List.exists_mem_of_length_pos (Nat.pos_of_ne_zero hon)
  have hany : (List.range (lanesOf s.cx.long ty)).any on = true := List.any_eq_true.2 ⟨l, List.mem_filter.1 hl⟩
  rw [State.lanewise, h.withVecs, if_pos]
  simp [hsr, State.seed_eq_zero_iff.2 hw, hany]

variable (hseed : sr = false ∨ s.core.seed ≠ 0)
include hseed

/-- The instruction computes the lanes of its first half, and then those of its second. -/
theorem LaneValues.lanewise_eq : s.lanewise vd ins ty pair sr on g =
    match runLanes sr on (laneAt (laneBits ty) (s.ownVec (vd + 0))) (fun i r => g i ((ins.map (· + 0)).map s.ownVec ++ [0]) r) (List.range (lanesOf s.cx.long ty))
        (seedAfter sr s.core.seed (0 * onCount on (lanesOf s.cx.long ty))).toNat with
    | .error c => s.faultA c
    | .ok (ls, seed) =>
      if pair then
        match runLanes sr on (laneAt (laneBits ty) (s.ownVec (vd + 1))) (fun i r => g i ((ins.map (· + 1)).map s.ownVec ++ []) r) (List.range (lanesOf s.cx.long ty)) seed with
        | .error c => s.faultA c
        | .ok (ls', seed') => .next (((s.setSeed seed').setVec vd (packLanes (laneBits ty) ls)).setVec (vd + 1) (packLanes (laneBits ty) ls')).fall
      else .next ((s.setSeed seed).setVec vd (packLanes (laneBits ty) ls)).fall := by
  have hcond : ¬(sr && s.seed = 0 && (List.range (lanesOf s.cx.long ty)).any on) = true := by
    intro hc
    obtain ⟨⟨hsr, hs⟩, -⟩ : (sr = true ∧ s.seed = 0) ∧ _ := by simpa only [Bool.and_eq_true, decide_eq_true_eq] using hc
    exact hseed.elim (fun h0 => Bool.false_ne_true (h0.symm.trans hsr)) (fun hw => hw (State.seed_eq_zero_iff.1 hs))
  have hpop : s.popStreams ins = s := State.popStreams_of_unbound fun r hr => h.unbound r (List.mem_append_left _ hr)
  have hzero : (seedAfter sr s.core.seed (0 * onCount on (lanesOf s.cx.long ty))).toNat = s.seed := by
    rw [Nat.zero_mul, seedAfter_zero]
    rfl
  rw [State.lanewise, h.withVecs, if_neg hcond, hzero, Nat.add_zero, hpop]
  by_cases hp : pair = true
  · simp only [hp, if_true, h.pairReads hp]
    rfl
  · simp only [hp, if_false, Bool.false_eq_true]
    rfl

/-- A lane without a value faults. -/
theorem LaneValues.faults (hfail : ∃ e l, e < (if pair then 2 else 1) ∧ l < lanesOf s.cx.long ty ∧ on l = true ∧
    val e l (drawFor sr s.core.seed (e * onCount on (lanesOf s.cx.long ty) + onCount on l)) = none) : s.lanewise vd ins ty pair sr on g = s.faultA c := by
  obtain ⟨e, l, he, hlane⟩ := hfail
  have hzero : 0 < (if pair then 2 else 1) := Nat.zero_lt_of_lt he
  rw [h.lanewise_eq hseed]
  by_cases hfirst : ∃ l, l < lanesOf s.cx.long ty ∧ on l = true ∧ val 0 l (drawFor sr s.core.seed (0 * onCount on (lanesOf s.cx.long ty) + onCount on l)) = none
  · rw [h.run_fails hzero (.inr rfl) hfirst]
  · have hall : ∀ l, l < lanesOf s.cx.long ty → on l = true → (val 0 l (drawFor sr s.core.seed (0 * onCount on (lanesOf s.cx.long ty) + onCount on l))).isSome := fun l hl hon =>
      Option.isSome_iff_ne_none.2 fun hnone => hfirst ⟨l, hl, hon, hnone⟩
    have hp : pair = true := by
      by_contra hp
      rw [if_neg hp, Nat.lt_one_iff] at he
      subst he
      exact hfirst ⟨l, hlane⟩
    rw [if_pos hp] at he
    obtain rfl : e = 1 := by
      have hne : e ≠ 0 := by
        rintro rfl
        exact hfirst ⟨l, hlane⟩
      omega
    rw [h.run hzero (.inr rfl) hall]
    simp only [hp, if_true]
    rw [h.run_fails (by rw [if_pos hp]; decide) (.inl rfl) ⟨l, hlane⟩]

/-- The instruction writes its register, and the next one in a paired form, and the generator. -/
theorem LaneValues.writes (hall : ∀ e l, e < (if pair then 2 else 1) → l < lanesOf s.cx.long ty → on l = true →
      (val e l (drawFor sr s.core.seed (e * onCount on (lanesOf s.cx.long ty) + onCount on l))).isSome) :
    ∃ t, s.lanewise vd ins ty pair sr on g = .next t.fall ∧ VecKept s t ∧ t.core.seed = seedAfter sr s.core.seed ((if pair then 2 else 1) * onCount on (lanesOf s.cx.long ty)) ∧
      ∀ r, t.ownVec r = if vd ≤ r ∧ r < vd + (if pair then 2 else 1) then
        packLanes (laneBits ty) ((List.range (lanesOf s.cx.long ty)).map (halfLanes s vd ty sr on val (onCount on (lanesOf s.cx.long ty)) (r - vd))) else s.ownVec r := by
  have hzero : 0 < (if pair then 2 else 1) := by split <;> decide
  have hvd : s.streamOf vd = none := h.unbound vd (List.mem_append_right _ (List.mem_singleton_self vd))
  rw [h.lanewise_eq hseed, h.run hzero (.inr rfl) (fun l => hall 0 l hzero)]
  by_cases hp : pair = true
  · simp only [hp, if_true]
    have hone : 1 < (if pair then 2 else 1) := by
      rw [if_pos hp]
      decide
    rw [h.run hone (.inl rfl) (fun l => hall 1 l hone)]
    obtain ⟨hkept, hcore, hvec⟩ := State.setSeed_setVec_writes hvd ty (halfLanes s vd ty sr on val (onCount on (lanesOf s.cx.long ty)) 0)
      (seedAfter sr s.core.seed (2 * onCount on (lanesOf s.cx.long ty)))
    have hbound := (hkept.streamOf (vd + 1)).trans (State.streamOf_of_long (h.long hp) _)
    refine ⟨_, rfl, hkept.trans (State.vecKept_setVec hbound _), ?_, fun r => ?_⟩
    · exact (congrArg Core.seed (State.core_setVec hbound _)).trans hcore
    · have hlanes := State.ownVec_setLanes hbound ty (halfLanes s vd ty sr on val (onCount on (lanesOf s.cx.long ty)) 1) r
      rw [hkept.long] at hlanes
      rw [hlanes, hvec]
      by_cases hr1 : r = vd + 1
      · rw [if_pos hr1, if_pos (by omega), hr1, Nat.add_sub_cancel_left]
      · rw [if_neg hr1]
        by_cases hr : r = vd
        · rw [if_pos hr, if_pos (by omega), hr, Nat.sub_self]
        · rw [if_neg hr, if_neg (by omega)]
  · simp only [hp, if_false, Bool.false_eq_true]
    obtain ⟨hkept, hcore, hvec⟩ := State.setSeed_setVec_writes hvd ty (halfLanes s vd ty sr on val (onCount on (lanesOf s.cx.long ty)) 0)
      (seedAfter sr s.core.seed (1 * onCount on (lanesOf s.cx.long ty)))
    refine ⟨_, rfl, hkept, hcore, fun r => ?_⟩
    rw [hvec]
    by_cases hr : r = vd
    · rw [if_pos hr, if_pos (by omega), hr, Nat.sub_self]
    · rw [if_neg hr, if_neg (by omega)]

end

/-! ### The results of `VecGives` -/

/-- An instruction that issues as a lane-wise one. -/
def LaneForm (s : State) (i : Instr) (vd : Nat) (ins : List Nat) (ty : BitVec 2) (pair sr : Bool) (on : Nat → Bool) (g : Nat → List Nat → Nat → Except Cause Nat) : Prop :=
  ∃ k, exec i s = s.vecIssue k ∧ ∀ u, SameView s u → k u = u.lanewise vd ins ty pair sr on g

theorem vecGives_of_laneForm {i : Instr} {vd : Nat} {ins : List Nat} {ty : BitVec 2} {pair : Bool} {c : Cause} {ok : State → Prop} {sr : State → Bool} {on : State → Nat → Bool}
    {val : State → Nat → Nat → Nat → Option Nat} {g : State → Nat → List Nat → Nat → Except Cause Nat}
    (hform : ∀ s, s.accepts i → ok s → LaneForm s i vd ins ty pair (sr s) (on s) (g s))
    (hvalue : ∀ s, s.accepts i → ∀ e z l r, e < (if pair then 2 else 1) → z = [] ∨ z = [0] → g s l ((ins.map (· + e)).map s.ownVec ++ z) r = laneResult c (val s e l (if sr s then r else 0)))
    (hbound : ∀ s, s.accepts i → ∀ e l r v, val s e l r = some v → v < 2 ^ laneBits ty) (hlong : ∀ s : State, s.accepts i → pair = true → s.cx.long = true) :
    VecGives i vd ins ty pair c ok sr on val := by
  intro s ha hready hok n parts all draw
  obtain ⟨k, hexec, hk⟩ := hform s ha hok
  have hvals : ∀ u, SameView s u → LaneValues u vd ins ty pair (sr s) (g s) c (val s) := fun u hu =>
    { value := fun e z l r he hz => by rw [funext hu.ownVec]; exact hvalue s ha e z l r he hz
      bound := hbound s ha
      long := fun hp => by rw [hu.cx]; exact hlong s ha hp
      unbound := fun r hr => (hu.streamOf r).trans (hready.2 r hr) }
  have hdraw : ∀ {u}, SameView s u → ∀ e l, drawFor (sr s) u.core.seed (e * onCount (on s) (lanesOf u.cx.long ty) + onCount (on s) l) = draw e l := fun hu e l => by rw [hu.core, hu.cx]; rfl
  have hn : ∀ {u}, SameView s u → lanesOf u.cx.long ty = n := fun hu => by rw [hu.cx]
  refine ⟨fun hsr hw hon => ?_, fun hseed => ⟨fun hfail => ?_, fun hall => ?_⟩⟩
  · obtain ⟨v, hv, hst, hcause, -⟩ := State.vecIssue_faults hready fun u hu =>
      (hk u hu).trans ((hvals u hu).faults_seed hsr (by rw [hu.core]; exact hw) (by rw [hn hu]; exact hon))
    exact ⟨v, hexec.trans hv, hst, hcause⟩
  · obtain ⟨e, l, he, hl, hon, hnone⟩ := hfail
    obtain ⟨v, hv, hfrozen⟩ := State.vecIssue_faults hready fun u hu =>
      (hk u hu).trans ((hvals u hu).faults (by rw [hu.core]; exact hseed) ⟨e, l, he, by rwa [hn hu], hon, by rwa [hdraw hu]⟩)
    exact ⟨v, hexec.trans hv, hfrozen⟩
  · obtain ⟨u, hu, hissue⟩ := State.vecIssue_of_ready hready
    obtain ⟨t, ht, hkept, hcore, hvec⟩ := (hvals u hu).writes (by rw [hu.core]; exact hseed) (fun e l he hl hon => by rw [hdraw hu]; exact hall e l he (by rwa [← hn hu]) hon)
    refine ⟨t.fall, hexec.trans (hissue k _ ((hk u hu).trans ht) ?_), fun e l he hl => ?_, vecFrame_of_kept (hu.kept.trans hkept) fun r hr => ?_, ?_⟩
    · have hcur : s.cur = t.fall.cur := (hkept.cur.trans hu.cur).symm
      rw [hcur]
      exact t.stall_fall
    · have hlanes := hvec (vd + e)
      rw [if_pos ⟨Nat.le_add_right _ _, Nat.add_lt_add_left he vd⟩, Nat.add_sub_cancel_left] at hlanes
      rw [laneOf, State.ownVec_of_fall, hlanes, laneAt_packLanes (by rwa [hn hu]) (halfLanes_lt (hvals u hu) _ _ _), halfLanes, hdraw hu]
      split
      next hon =>
        obtain ⟨v, hv⟩ := Option.isSome_iff_exists.1 (hall e l he hl hon)
        rw [hv, Option.getD_some]
      next =>
        rw [laneOf, hu.ownVec, Option.getD_some]
        rfl
    · rw [hvec, if_neg hr, hu.ownVec]
    · rw [State.core_fall]
      refine hcore.trans ?_
      rw [hu.core, hn hu]
      rfl

/-- The same for a form without a second half. -/
theorem vecGives_single {i : Instr} {vd : Nat} {ins : List Nat} {ty : BitVec 2} {c : Cause} {ok : State → Prop} {sr : State → Bool} {on : State → Nat → Bool}
    {val : State → Nat → Nat → Option Nat} {g : State → Nat → List Nat → Nat → Except Cause Nat}
    (hform : ∀ s, s.accepts i → ok s → LaneForm s i vd ins ty false (sr s) (on s) (g s))
    (hvalue : ∀ s, s.accepts i → ∀ z l r, g s l (ins.map s.ownVec ++ z) r = laneResult c (val s l (if sr s then r else 0)))
    (hbound : ∀ s, s.accepts i → ∀ l r v, val s l r = some v → v < 2 ^ laneBits ty) : VecGives i vd ins ty false c ok sr on (fun s _ l r => val s l r) :=
  vecGives_of_laneForm hform (fun s ha e z l r he _ => by
    obtain rfl : e = 0 := Nat.lt_one_iff.1 he
    rw [← hvalue s ha z l r]
    simp) (fun s ha _ => hbound s ha) (fun _ _ h => absurd h Bool.false_ne_true)

end Sys2Proof.Machine
end

section
/-! SUPPORT. Lane arithmetic by its values: R277, R347 to R354. -/

namespace Sys2Proof.Machine

/-! ### Integer lanes (R354) -/

theorem wrapInt_eq (n : Nat) (v : Int) : wrapInt n v = (BitVec.ofInt n v).toNat := by
  rw [wrapInt, BitVec.toNat_ofInt]
  push_cast
  rfl

theorem laneBits_pos (t : BitVec 2) : 0 < laneBits t := by
  revert t
  decide

theorem laneBits_le (t : BitVec 2) : laneBits t ≤ 64 := by
  revert t
  decide

theorem intLane_eq {t : BitVec 2} (mod : BitVec 3) (v : Nat) : intLane (laneBits t) mod v = intValue (laneBits t) mod v := by
  have hu : mod.toNat / 2 % 2 = 1 ↔ mod.getLsbD 1 = true := by
    revert mod
    decide
  rw [intLane, intValue, sextNat_eq_toInt (laneBits_pos t)]
  exact if_congr hu rfl rfl

theorem satLane_eq (b : Nat) (mod : BitVec 3) (r : Int) : satLane b mod r = laneResult .vecSat (satValue b mod r) := by
  have hs : mod.toNat % 2 = 0 ↔ mod.getLsbD 0 = false := by
    revert mod
    decide
  have hu : mod.toNat / 2 % 2 = 1 ↔ mod.getLsbD 1 = true := by
    revert mod
    decide
  have htr : mod.toNat / 4 = 1 ↔ mod.getLsbD 2 = true := by
    revert mod
    decide
  simp only [satLane, satValue, hs, hu, htr, wrapInt_eq]
  generalize (if mod.getLsbD 1 = true then (0 : Int) else -2 ^ (b - 1)) = lo
  generalize (if mod.getLsbD 1 = true then (2 : Int) ^ b - 1 else 2 ^ (b - 1) - 1) = hi
  by_cases hwrap : mod.getLsbD 0 = false
  · rw [if_pos hwrap, if_pos (.inl hwrap)]
    rfl
  · rw [if_neg hwrap]
    by_cases hin : lo ≤ r ∧ r ≤ hi
    · rw [if_neg (by omega), if_pos (.inr hin)]
      rfl
    · rw [if_pos (show r < lo ∨ r > hi by omega), if_neg (not_or.2 ⟨hwrap, hin⟩)]
      split <;> rfl

theorem satValue_lt {b : Nat} {mod : BitVec 3} {r : Int} {v : Nat} (h : satValue b mod r = some v) : v < 2 ^ b := by
  simp only [satValue] at h
  split_ifs at h <;> (cases h; exact BitVec.isLt _)

/-! ### One lane of addition, subtraction, multiplication and fused multiply-add (R353) -/

section
variable {t : BitVec 2} {mod : BitVec 3} {rm : RoundMode} {fop : Bool → XNum → XNum → XNum → XNum} {iop : Int → Int → Int → Int} {a b d r : Nat}

theorem arithLane_eq {sr : Bool} (hsr : sr = decide ((t = 0 ∨ t = 1) ∧ rm = .sr)) : arithLane t mod rm fop iop a b d r = laneResult .vecSat (arithValue t mod rm fop iop a b d (if sr then r else 0)) := by
  unfold arithLane arithValue
  by_cases hf : floatLane t = true
  · rw [if_pos hf, if_pos (floatLane_iff.1 hf)]
    by_cases hrm : rm = .sr
    · rw [if_pos (hsr.trans (decide_eq_true ⟨floatLane_iff.1 hf, hrm⟩))]
      rfl
    · simp only [FloatFmt.round_draw hrm _ _ r (if sr then r else 0)]
      rfl
  · rw [if_neg hf, if_neg (fun h => hf (floatLane_iff.2 h))]
    simp only [intLane_eq, satLane_eq]

theorem arithValue_lt {v : Nat} (h : arithValue t mod rm fop iop a b d r = some v) : v < 2 ^ laneBits t := by
  unfold arithValue at h
  split at h
  next hf =>
    cases h
    exact laneFmt_round_lt (floatLane_iff.2 hf) _ _ _
  next => exact satValue_lt h

/-- An operation of two operands reads no third. -/
theorem arithValue_third (hf : ∀ dn x y z z', fop dn x y z = fop dn x y z') (hi : ∀ x y z z', iop x y z = iop x y z') (d' : Nat) :
    arithValue t mod rm fop iop a b d r = arithValue t mod rm fop iop a b d' r := by
  simp only [arithValue, hf _ _ _ _ (XNum.nan), hi _ _ _ 0]

end

/-! ### The forms (R349, R350, R352) -/

/-- A paired form is accepted in long mode alone (R352). -/
theorem long_of_pairedForm {long p : Bool} (h : pairedForm long p = none) (hp : p = true) : long = true := by
  subst hp
  cases long
  · cases h
  · rfl

section
variable {i : Instr} {acc : Bool} {fop : Bool → XNum → XNum → XNum → XNum} {iop : Int → Int → Int → Int} (hacc : acc = false → (∀ dn x y z z', fop dn x y z = fop dn x y z') ∧ ∀ x y z z', iop x y z = iop x y z')
include hacc

theorem vecGives_arith {f : FmtAV} (hi : ∀ s, exec i s = s.slotA i (fun s => s.vecArith f acc fop iop)) (hform : ∀ long level, formCause i long level = pairedForm long (f.sub.toNat % 2 = 1)) :
    VecGives i f.vd.toNat ([f.va.toNat, f.vb.toNat] ++ if acc then [f.vd.toNat] else []) f.t (decide (f.sub = 1)) .vecSat (fun _ => True)
      (fun s => decide ((f.t = 0 ∨ f.t = 1) ∧ RoundMode.ofCode s.cx.rm f.mod.toNat = .sr)) (laneEnabled f.me f.km f.t)
      (fun s e l r => arithValue f.t f.mod (RoundMode.ofCode s.cx.rm f.mod.toNat) fop iop (laneOf s f.t (f.va.toNat + e) l) (laneOf s f.t (f.vb.toNat + e) l) (laneOf s f.t (f.vd.toNat + e) l) r) := by
  refine vecGives_of_laneForm (g := fun s i l r => arithLane f.t f.mod (RoundMode.ofCode s.cx.rm f.mod.toNat) fop iop (laneAt (laneBits f.t) (l.getD 0 0) i)
    (laneAt (laneBits f.t) (l.getD 1 0) i) (laneAt (laneBits f.t) (l.getD 2 0) i) r) (fun s ha _ => ⟨_, exec_of_slotA hi ha, fun u hu => ?_⟩)
    (fun s _ e z l r _ hz => ?_) (fun s _ e l r v => arithValue_lt) (fun s ha hp => long_of_pairedForm ((hform _ _).symm.trans (State.formCause_of_accepts ha)) ?_)
  · have hmode : u.roundMode f.mod = RoundMode.ofCode s.cx.rm f.mod.toNat := hu.roundMode f.mod
    have hsr : (floatLane f.t && decide (RoundMode.ofCode s.cx.rm f.mod.toNat = .sr)) = decide ((f.t = 0 ∨ f.t = 1) ∧ RoundMode.ofCode s.cx.rm f.mod.toNat = .sr) := by
      rw [Bool.decide_and, ← Bool.decide_congr floatLane_iff, Bool.decide_eq_true]
    simp only [hmode, hsr, State.laneOn_eq, hu.enabled]
  · refine (arithLane_eq rfl).trans (congrArg _ ?_)
    cases acc with
    | true => rfl
    | false =>
      obtain ⟨hf, hi⟩ := hacc rfl
      exact arithValue_third hf hi _
  · rw [of_decide_eq_true hp]
    rfl

theorem vecGives_arithScalar {f : FmtAVX} (hi : ∀ s, exec i s = s.slotA i (fun s => s.vecArithX f acc fop iop)) (hform : ∀ long level, formCause i long level = pairedForm long (f.sub.toNat % 2 = 1)) :
    VecGives i f.vd.toNat ([f.va.toNat] ++ if acc then [f.vd.toNat] else []) f.t (decide (f.sub = 1)) .vecSat (fun _ => True)
      (fun s => decide ((f.t = 0 ∨ f.t = 1) ∧ RoundMode.ofCode s.cx.rm f.mod.toNat = .sr)) (laneEnabled f.me f.km f.t)
      (fun s e l r => arithValue f.t f.mod (RoundMode.ofCode s.cx.rm f.mod.toNat) fop iop (laneOf s f.t (f.va.toNat + e) l) ((s.x f.xb).toNat % 2 ^ laneBits f.t) (laneOf s f.t (f.vd.toNat + e) l) r) := by
  refine vecGives_of_laneForm (g := fun s i l r => arithLane f.t f.mod (RoundMode.ofCode s.cx.rm f.mod.toNat) fop iop (laneAt (laneBits f.t) (l.getD 0 0) i)
    ((s.x f.xb).toNat % 2 ^ laneBits f.t) (laneAt (laneBits f.t) (l.getD 1 0) i) r) (fun s ha _ => ⟨_, exec_of_slotA hi ha, fun u hu => ?_⟩)
    (fun s _ e z l r _ hz => ?_) (fun s _ e l r v => arithValue_lt) (fun s ha hp => long_of_pairedForm ((hform _ _).symm.trans (State.formCause_of_accepts ha)) ?_)
  · have hmode : u.roundMode f.mod = RoundMode.ofCode s.cx.rm f.mod.toNat := hu.roundMode f.mod
    have hsr : (floatLane f.t && decide (RoundMode.ofCode s.cx.rm f.mod.toNat = .sr)) = decide ((f.t = 0 ∨ f.t = 1) ∧ RoundMode.ofCode s.cx.rm f.mod.toNat = .sr) := by
      rw [Bool.decide_and, ← Bool.decide_congr floatLane_iff, Bool.decide_eq_true]
    simp only [hmode, hsr, State.laneOn_eq, hu.enabled, hu.x]
  · refine (arithLane_eq rfl).trans (congrArg _ ?_)
    cases acc with
    | true => rfl
    | false =>
      obtain ⟨hf, hi⟩ := hacc rfl
      exact arithValue_third hf hi _
  · rw [of_decide_eq_true hp]
    rfl

end

/-- Settles O22: each form is the one lane arithmetic with its operation. -/
theorem vectorArithmeticByLanes : Obligations.VectorArithmeticByLanes := by
  refine ⟨fun f => ⟨?_, ?_, ?_, ?_⟩, fun f => ⟨?_, ?_, ?_, ?_⟩⟩
  · exact vecGives_arith (acc := false) (fun _ => ⟨fun _ _ _ _ _ => rfl, fun _ _ _ _ => rfl⟩) (fun _ => rfl) (fun _ _ => rfl)
  · exact vecGives_arith (acc := false) (fun _ => ⟨fun _ _ _ _ _ => rfl, fun _ _ _ _ => rfl⟩) (fun _ => rfl) (fun _ _ => rfl)
  · exact vecGives_arith (acc := false) (fun _ => ⟨fun _ _ _ _ _ => rfl, fun _ _ _ _ => rfl⟩) (fun _ => rfl) (fun _ _ => rfl)
  · exact vecGives_arith (acc := true) (fun h => absurd h (by decide)) (fun _ => rfl) (fun _ _ => rfl)
  · exact vecGives_arithScalar (acc := false) (fun _ => ⟨fun _ _ _ _ _ => rfl, fun _ _ _ _ => rfl⟩) (fun _ => rfl) (fun _ _ => rfl)
  · exact vecGives_arithScalar (acc := false) (fun _ => ⟨fun _ _ _ _ _ => rfl, fun _ _ _ _ => rfl⟩) (fun _ => rfl) (fun _ _ => rfl)
  · exact vecGives_arithScalar (acc := false) (fun _ => ⟨fun _ _ _ _ _ => rfl, fun _ _ _ _ => rfl⟩) (fun _ => rfl) (fun _ _ => rfl)
  · exact vecGives_arithScalar (acc := true) (fun h => absurd h (by decide)) (fun _ => rfl) (fun _ _ => rfl)

end Sys2Proof.Machine
end

section
/-! SUPPORT. Lane functions that do not round, by their values: R350, R353 to R357, R359, R364. -/

namespace Sys2Proof.Machine

/-! ### The functions on lanes of b bits -/

section
variable {b a c : Nat}

theorem shlLane_eq : shlLane b a c = a * 2 ^ c % 2 ^ b := by
  unfold shlLane
  split
  next h => rw [← Nat.sub_add_cancel h, pow_add, ← Nat.mul_assoc, Nat.mul_mod_left]
  next => rfl

/-- The sign alone is left of a number that is shifted by its width or more. -/
theorem div_pow_of_width {x : Int} (hlo : -2 ^ b ≤ x) (hhi : x < 2 ^ b) (h : b ≤ c) : x / 2 ^ c = x / 2 ^ b := by
  have hpow : (2 : Int) ^ b ≤ 2 ^ c := pow_le_pow_right₀ (by decide) h
  by_cases hx : 0 ≤ x
  · rw [Int.ediv_eq_zero_of_lt hx hhi, Int.ediv_eq_zero_of_lt hx (lt_of_lt_of_le hhi hpow)]
  · rw [Int.ediv_eq_neg_one_of_neg_of_le (by omega) (by omega), Int.ediv_eq_neg_one_of_neg_of_le (by omega) (by omega)]

theorem sraLane_eq (hb : 0 < b) : sraLane b a c = (BitVec.ofInt b ((BitVec.ofNat b a).toInt / 2 ^ c)).toNat := by
  rw [sraLane, wrapInt_eq, sextNat_eq_toInt hb]
  have hpow : (2 : Int) ^ (b - 1) ≤ 2 ^ b := pow_le_pow_right₀ (by decide) (Nat.sub_le b 1)
  have hlo := BitVec.le_toInt (BitVec.ofNat b a)
  have hhi := BitVec.toInt_lt (x := BitVec.ofNat b a)
  obtain h | h := Nat.le_total c b
  · rw [Nat.min_eq_left h]
  · rw [Nat.min_eq_right h, div_pow_of_width (b := b) (by omega) (by omega) h]

section
variable (ha : a < 2 ^ b)
include ha

theorem shrLane_eq : shrLane b a c = a / 2 ^ c := by
  unfold shrLane
  split
  next h => exact (Nat.div_eq_of_lt (lt_of_lt_of_le ha (Nat.pow_le_pow_right two_pos h))).symm
  next => rfl

/-- Adding the sign bit of a lane flips it. -/
theorem add_signBit (hb : 0 < b) : (a + 2 ^ (b - 1)) % 2 ^ b = a ^^^ 2 ^ (b - 1) := by
  refine Nat.eq_of_testBit_eq fun j => ?_
  rw [Nat.testBit_mod_two_pow, Nat.testBit_xor, Nat.testBit_two_pow, Nat.add_comm]
  obtain hj | rfl | hj := lt_trichotomy j (b - 1)
  · rw [Nat.testBit_two_pow_add_gt hj, decide_eq_true (show j < b by omega), decide_eq_false (show ¬b - 1 = j by omega), Bool.true_and, Bool.xor_false]
  · rw [Nat.testBit_two_pow_add_eq, decide_eq_true (show b - 1 < b by omega), decide_eq_true rfl, Bool.true_and, Bool.xor_true]
  · rw [decide_eq_false (show ¬j < b by omega), decide_eq_false (show ¬b - 1 = j by omega), Bool.false_and, Bool.xor_false,
      Nat.testBit_lt_two_pow (lt_of_lt_of_le ha (Nat.pow_le_pow_right two_pos (by omega)))]

end
end

section
variable {t : BitVec 2} {mod : BitVec 3} {wantMax : Bool} {a b : Nat}

theorem minMaxLane_eq : minMaxLane t mod wantMax a b = pickValue t mod wantMax a b := by
  unfold minMaxLane pickValue
  by_cases hf : floatLane t = true
  · rw [if_pos hf, if_pos (floatLane_iff.1 hf)]
    cases wantMax <;> rfl
  · rw [if_neg hf, if_neg (fun h => hf (floatLane_iff.2 h))]
    simp only [intLane_eq]
    by_cases hle : intValue (laneBits t) mod a ≤ intValue (laneBits t) mod b <;> cases wantMax <;> simp [hle]

theorem pickValue_lt (ha : a < 2 ^ laneBits t) (hb : b < 2 ^ laneBits t) : pickValue t mod wantMax a b < 2 ^ laneBits t := by
  unfold pickValue
  split
  next hf => exact laneFmt_round_lt (floatLane_iff.2 hf) _ _ _
  next => exact ite_lt_of_lt (ite_lt_of_lt hb ha) (ite_lt_of_lt ha hb)

end

/-- The four products of bytes (R357). -/
theorem dot4Lane_eq (mod : BitVec 3) (a b d : Nat) : dot4Lane mod a b d = dotValue mod a b d := by
  have hs : mod.toNat % 2 = 1 ↔ mod.getLsbD 0 = true := by
    revert mod
    decide
  have ha : mod.toNat / 2 % 2 = 1 ↔ mod.getLsbD 1 = true := by
    revert mod
    decide
  have hb : mod.toNat / 4 % 2 = 1 ↔ mod.getLsbD 2 = true := by
    revert mod
    decide
  have hlane : ∀ v j, laneAt 8 v j = v / 256 ^ j % 256 := fun v j => by
    rw [laneAt, Nat.pow_mul]
    rfl
  have hbyte : ∀ v j, sextNat 8 (v / 256 ^ j % 256) = (BitVec.ofNat 8 (v / 256 ^ j)).toInt := fun v j => by
    rw [sextNat_eq_toInt (by decide)]
    exact congrArg BitVec.toInt (BitVec.eq_of_toNat_eq (Nat.mod_mod _ _))
  have hsat : ∀ r : Int, min (2 ^ 31 - 1) (max (-2 ^ 31) r) = max (-2 ^ 31) (min (2 ^ 31 - 1) r) := fun r => by omega
  have hsum : ∀ p : Nat → Int, ((List.range 4).map p).sum = p 0 + p 1 + p 2 + p 3 := fun p => by
    simp only [List.range_succ, List.range_zero, List.nil_append, List.cons_append, List.map_cons, List.map_nil, List.sum_cons, List.sum_nil]
    ring
  simp only [dot4Lane, dotValue, wrapInt_eq, hlane, hbyte, hsat, hsum, decide_eq_true_eq, hs, ha, hb, sextNat_eq_toInt (show 0 < 32 by decide)]

/-! ### Forms of one and of two sources -/

section
variable {i : Instr} {c : Cause}

theorem vecGives_bits {f : FmtAV} (g g' : Nat → Nat → Nat) (hi : ∀ s, exec i s = s.slotA i (fun s => s.vecBits f g))
    (hg : ∀ a b, a < 2 ^ laneBits f.t → b < 2 ^ laneBits f.t → g a b = g' a b ∧ g' a b < 2 ^ laneBits f.t) :
    VecGives i f.vd.toNat [f.va.toNat, f.vb.toNat] f.t false c (fun _ => True) (fun _ => false) (laneEnabled f.me f.km f.t)
      (fun s _ l _ => some (g' (laneOf s f.t f.va.toNat l) (laneOf s f.t f.vb.toNat l))) := by
  refine vecGives_single (val := fun s l _ => some (g' (laneOf s f.t f.va.toNat l) (laneOf s f.t f.vb.toNat l))) (fun s ha _ => ⟨_, exec_of_slotA hi ha, fun u hu => ?_⟩) (fun s _ z l r => ?_) (fun s _ l r v hv => ?_)
    (g := fun _ i l _ => .ok (g (laneAt (laneBits f.t) (l.getD 0 0) i) (laneAt (laneBits f.t) (l.getD 1 0) i)))
  · simp only [State.laneOn_eq, hu.enabled]
  · exact congrArg Except.ok (hg _ _ (laneAt_lt _ _ _) (laneAt_lt _ _ _)).1
  · cases hv
    exact (hg _ _ (laneAt_lt _ _ _) (laneAt_lt _ _ _)).2

theorem vecGives_bitsScalar {f : FmtAVX} (y : State → Nat) (g g' : Nat → Nat → Nat) (hi : ∀ s, exec i s = s.slotA i (fun s => s.vecBitsX f (y s) g))
    (hg : ∀ s a, a < 2 ^ laneBits f.t → g a (y s) = g' a (y s) ∧ g' a (y s) < 2 ^ laneBits f.t) :
    VecGives i f.vd.toNat [f.va.toNat] f.t false c (fun _ => True) (fun _ => false) (laneEnabled f.me f.km f.t) (fun s _ l _ => some (g' (laneOf s f.t f.va.toNat l) (y s))) := by
  refine vecGives_single (val := fun s l _ => some (g' (laneOf s f.t f.va.toNat l) (y s))) (fun s ha _ => ⟨_, exec_of_slotA hi ha, fun u hu => ?_⟩) (fun s _ z l r => ?_) (fun s _ l r v hv => ?_)
    (g := fun s i l _ => .ok (g (laneAt (laneBits f.t) (l.getD 0 0) i) (y s)))
  · simp only [State.laneOn_eq, hu.enabled]
  · exact congrArg Except.ok (hg s _ (laneAt_lt _ _ _)).1
  · cases hv
    exact (hg s _ (laneAt_lt _ _ _)).2

theorem vecGives_unary {f : FmtAV} (g : Nat → Except Cause Nat) (g' : Nat → Option Nat) (hi : ∀ s, exec i s = s.slotA i (fun s => s.vecUnary f g))
    (hg : ∀ a, a < 2 ^ laneBits f.t → g a = laneResult c (g' a) ∧ ∀ v, g' a = some v → v < 2 ^ laneBits f.t) :
    VecGives i f.vd.toNat [f.va.toNat] f.t false c (fun _ => True) (fun _ => false) (laneEnabled f.me f.km f.t) (fun s _ l _ => g' (laneOf s f.t f.va.toNat l)) := by
  refine vecGives_single (val := fun s l _ => g' (laneOf s f.t f.va.toNat l)) (fun s ha _ => ⟨_, exec_of_slotA hi ha, fun u hu => ?_⟩) (fun s _ z l r => ?_) (fun s _ l r => ?_)
    (g := fun _ i l _ => g (laneAt (laneBits f.t) (l.getD 0 0) i))
  · simp only [State.vecUnaryRaw, State.laneOn_eq, hu.enabled]
  · exact (hg _ (laneAt_lt _ _ _)).1
  · exact (hg _ (laneAt_lt _ _ _)).2

end

/-! ### The forms (R350, R353 to R357, R359, R364) -/

section
variable {s : State} {f : FmtAVX} (ha : s.accepts (.vdot4Scalar f))
include ha

theorem vdot4Scalar_lanes : f.t = 3 := by
  have hform : (if f.t = 3 then none else some Cause.typeForm) = none := State.formCause_of_accepts ha
  by_contra h
  rw [if_neg h] at hform
  cases hform

theorem exec_vdot4Scalar : exec (.vdot4Scalar f) s = s.vecIssue (fun s => s.lanewise f.vd.toNat [f.va.toNat, f.vd.toNat] f.t false false (s.laneOn f.me f.km (lanesOf s.cx.long f.t))
    (fun i l _ => .ok (dot4Lane f.mod (laneAt 32 (l.getD 0 0) i) (s.bcast f.xb f.t) (laneAt 32 (l.getD 1 0) i)))) := by
  have hr : (maskField f.me f.km && decide (f.sub = 0)) = true := State.reservedOk_of_accepts ha
  refine (show exec (.vdot4Scalar f) s = execVdot4Scalar f s from rfl).trans ?_
  rw [execVdot4Scalar, State.slotDot4, if_neg (by rw [hr]; decide), if_neg (not_not.2 (vdot4Scalar_lanes ha))]

end

section
variable (f : FmtAV)

/-- The forms of two vector sources. -/
theorem vector_binaryForms :
    let two := fun (i : Instr) (g : Nat → Nat → Nat) =>
      VecGives i f.vd.toNat [f.va.toNat, f.vb.toNat] f.t false 0 (fun _ => True) (fun _ => false) (laneEnabled f.me f.km f.t)
        (fun s _ l _ => some (g (laneOf s f.t f.va.toNat l) (laneOf s f.t f.vb.toNat l)))
    two (.vmin f) (pickValue f.t f.mod false) ∧ two (.vmax f) (pickValue f.t f.mod true) ∧ two (.vand f) (fun a c => a &&& c) ∧ two (.vor f) (fun a c => a ||| c) ∧
    two (.vxor f) (fun a c => a ^^^ c) ∧ two (.vshl f) (fun a c => a * 2 ^ c % 2 ^ laneBits f.t) ∧ two (.vshr f) (fun a c => a / 2 ^ c) ∧
    two (.vsra f) (fun a c => (BitVec.ofInt (laneBits f.t) ((BitVec.ofNat (laneBits f.t) a).toInt / 2 ^ c)).toNat) := by
  refine ⟨?_, ?_, ?_, ?_, ?_, ?_, ?_, ?_⟩
  · exact vecGives_bits (minMaxLane f.t f.mod false) _ (fun _ => rfl) fun x y hx hy => ⟨minMaxLane_eq, pickValue_lt hx hy⟩
  · exact vecGives_bits (minMaxLane f.t f.mod true) _ (fun _ => rfl) fun x y hx hy => ⟨minMaxLane_eq, pickValue_lt hx hy⟩
  · exact vecGives_bits (fun a c => a &&& c) (fun a c => a &&& c) (fun _ => rfl) fun x y hx hy => ⟨rfl, Nat.and_lt_two_pow x hy⟩
  · exact vecGives_bits (fun a c => a ||| c) (fun a c => a ||| c) (fun _ => rfl) fun x y hx hy => ⟨rfl, Nat.or_lt_two_pow hx hy⟩
  · exact vecGives_bits (fun a c => a ^^^ c) (fun a c => a ^^^ c) (fun _ => rfl) fun x y hx hy => ⟨rfl, Nat.xor_lt_two_pow hx hy⟩
  · exact vecGives_bits (shlLane (laneBits f.t)) (fun a c => a * 2 ^ c % 2 ^ laneBits f.t) (fun _ => rfl) fun x y hx hy => ⟨shlLane_eq, Nat.mod_lt _ (Nat.two_pow_pos _)⟩
  · exact vecGives_bits (shrLane (laneBits f.t)) (fun a c => a / 2 ^ c) (fun _ => rfl) fun x y hx hy => ⟨shrLane_eq hx, lt_of_le_of_lt (Nat.div_le_self _ _) hx⟩
  · exact vecGives_bits (sraLane (laneBits f.t)) (fun a c => (BitVec.ofInt (laneBits f.t) ((BitVec.ofNat (laneBits f.t) a).toInt / 2 ^ c)).toNat) (fun _ => rfl) fun x y hx hy =>
      ⟨sraLane_eq (laneBits_pos f.t), BitVec.isLt _⟩

/-- A function that leaves float lanes and integer lanes their own rules (R354). -/
theorem signLane_eq {p q : Nat} {x y : Int} (hp : p = q) (hx : x = y) (hq : q < 2 ^ laneBits f.t) :
    (if floatLane f.t then Except.ok p else satLane (laneBits f.t) f.mod x) = laneResult .vecSat (if f.t = 0 ∨ f.t = 1 then some q else satValue (laneBits f.t) f.mod y) ∧
      ∀ v, (if f.t = 0 ∨ f.t = 1 then some q else satValue (laneBits f.t) f.mod y) = some v → v < 2 ^ laneBits f.t := by
  subst hp hx
  by_cases hf : floatLane f.t = true
  · rw [if_pos hf, if_pos (floatLane_iff.1 hf)]
    exact ⟨rfl, fun v hv => Option.some.inj hv ▸ hq⟩
  · rw [if_neg hf, if_neg (fun h => hf (floatLane_iff.2 h))]
    exact ⟨satLane_eq _ _ _, fun v => satValue_lt⟩

/-- The forms of one vector source. -/
theorem vector_unaryForms :
    let one := fun (i : Instr) (g : Nat → Option Nat) =>
      VecGives i f.vd.toNat [f.va.toNat] f.t false .vecSat (fun _ => True) (fun _ => false) (laneEnabled f.me f.km f.t) (fun s _ l _ => g (laneOf s f.t f.va.toNat l))
    one (.vabs f) (fun a => if f.t = 0 ∨ f.t = 1 then some (a % 2 ^ (laneBits f.t - 1)) else satValue (laneBits f.t) f.mod |(BitVec.ofNat (laneBits f.t) a).toInt|) ∧
    one (.vneg f) (fun a => if f.t = 0 ∨ f.t = 1 then some (a ^^^ 2 ^ (laneBits f.t - 1)) else satValue (laneBits f.t) f.mod (-(BitVec.ofNat (laneBits f.t) a).toInt)) ∧
    one (.vmov f) some ∧ one (.vpopc f) (fun a => some ((List.range (laneBits f.t)).filter (fun j => a.testBit j)).length) := by
  have hpos := laneBits_pos f.t
  have hhalf : 2 ^ (laneBits f.t - 1) < 2 ^ laneBits f.t := Nat.pow_lt_pow_right (by decide) (Nat.sub_lt hpos one_pos)
  refine ⟨?_, ?_, ?_, ?_⟩
  · have habs : ∀ a, ((sextNat (laneBits f.t) a).natAbs : Int) = |(BitVec.ofNat (laneBits f.t) a).toInt| := fun a => by rw [Int.natCast_natAbs, sextNat_eq_toInt hpos]
    exact vecGives_unary (fun a => if floatLane f.t then .ok (a % 2 ^ (laneBits f.t - 1)) else satLane (laneBits f.t) f.mod (sextNat (laneBits f.t) a).natAbs) _ (fun _ => rfl)
      fun a _ => signLane_eq f rfl (habs a) ((Nat.mod_lt _ (Nat.two_pow_pos _)).trans hhalf)
  · exact vecGives_unary (fun a => if floatLane f.t then .ok ((a + 2 ^ (laneBits f.t - 1)) % 2 ^ laneBits f.t) else satLane (laneBits f.t) f.mod (-sextNat (laneBits f.t) a)) _ (fun _ => rfl)
      fun a ha => signLane_eq f (add_signBit ha hpos) (congrArg Neg.neg (sextNat_eq_toInt hpos a)) (Nat.xor_lt_two_pow ha hhalf)
  · exact vecGives_unary .ok some (fun _ => rfl) fun a ha => ⟨rfl, fun v hv => Option.some.inj hv ▸ ha⟩
  · refine vecGives_unary (fun a => .ok (popCount (laneBits f.t) a)) (fun a => some ((List.range (laneBits f.t)).filter (fun j => a.testBit j)).length) (fun _ => rfl) fun a _ =>
      ⟨congrArg Except.ok (popCount_eq_filter _ _), fun v hv => ?_⟩
    cases hv
    exact lt_of_le_of_lt ((List.length_filter_le _ _).trans_eq List.length_range) Nat.lt_two_pow_self

/-- The forms that move lanes, and the dot product. -/
theorem vector_movingForms :
    let on := laneEnabled f.me f.km f.t
    VecGives (.vdot4 f) f.vd.toNat [f.va.toNat, f.vb.toNat, f.vd.toNat] f.t false 0 (fun _ => True) (fun _ => false) on
      (fun s _ l _ => some (dotValue f.mod (laneOf s f.t f.va.toNat l) (laneOf s f.t f.vb.toNat l) (laneOf s f.t f.vd.toNat l))) ∧
    VecGives (.vsel f) f.vd.toNat [f.va.toNat, f.vb.toNat] f.t false 0 (fun _ => True) (fun _ => false) (fun _ _ => true)
      (fun s _ l _ => some (if on s l then laneOf s f.t f.va.toNat l else laneOf s f.t f.vb.toNat l)) ∧
    VecGives (.vperm f) f.vd.toNat [f.va.toNat, f.vb.toNat] f.t false 0 (fun _ => True) (fun _ => false) on
      (fun s _ l _ => let j := laneOf s f.t f.vb.toNat l; some (if j < lanesOf s.cx.long f.t then laneOf s f.t f.va.toNat j else 0)) := by
  intro on
  refine ⟨?_, ?_, ?_⟩
  · have ht : ∀ s : State, s.accepts (.vdot4 f) → laneBits f.t = 32 := fun s ha => by
      have hform : (if f.t = 3 then none else some Cause.typeForm) = none := State.formCause_of_accepts ha
      by_cases h3 : f.t = 3
      · rw [h3]
        rfl
      · rw [if_neg h3] at hform
        cases hform
    refine vecGives_single (val := fun s l _ => some (dotValue f.mod (laneOf s f.t f.va.toNat l) (laneOf s f.t f.vb.toNat l) (laneOf s f.t f.vd.toNat l)))
      (g := fun _ i l _ => .ok (dot4Lane f.mod (laneAt 32 (l.getD 0 0) i) (laneAt 32 (l.getD 1 0) i) (laneAt 32 (l.getD 2 0) i)))
      (fun s ha _ => ⟨_, exec_of_slotA (fun _ => rfl) ha, fun u hu => ?_⟩) (fun s ha z l r => ?_) (fun s ha l r v hv => ?_)
    · simp only [State.laneOn_eq, hu.enabled, on]
    · rw [laneOf, laneOf, laneOf, ht s ha]
      exact congrArg Except.ok (dot4Lane_eq _ _ _ _)
    · cases hv
      rw [ht s ha]
      exact BitVec.isLt _
  · refine vecGives_single (val := fun s l _ => some (if on s l then laneOf s f.t f.va.toNat l else laneOf s f.t f.vb.toNat l))
      (g := fun s i l _ => .ok (laneAt (laneBits f.t) (if on s i then l.getD 0 0 else l.getD 1 0) i))
      (fun s ha _ => ⟨_, exec_of_slotA (fun _ => rfl) ha, fun u hu => ?_⟩) (fun s ha z l r => ?_) (fun s ha l r v hv => ?_)
    · simp only [State.laneOn_eq, hu.enabled, on]
    · exact congrArg Except.ok (apply_ite (fun v => laneAt (laneBits f.t) v l) _ _ _)
    · cases hv
      exact ite_lt_of_lt (laneAt_lt _ _ _) (laneAt_lt _ _ _)
  · refine vecGives_single (val := fun s l _ => some (if laneOf s f.t f.vb.toNat l < lanesOf s.cx.long f.t then laneOf s f.t f.va.toNat (laneOf s f.t f.vb.toNat l) else 0))
      (g := fun s i l _ => .ok (if laneAt (laneBits f.t) (l.getD 1 0) i ≥ lanesOf s.cx.long f.t then 0 else laneAt (laneBits f.t) (l.getD 0 0) (laneAt (laneBits f.t) (l.getD 1 0) i)))
      (fun s ha _ => ⟨_, exec_of_slotA (fun _ => rfl) ha, fun u hu => ?_⟩) (fun s ha z l r => ?_) (fun s ha l r v hv => ?_)
    · simp only [State.laneOn_eq, hu.enabled, on]
      simp only [hu.cx]
    · exact congrArg Except.ok ((ite_congr (propext not_lt.symm) (fun _ => rfl) (fun _ => rfl)).trans (ite_not _ _ _))
    · cases hv
      exact ite_lt_of_lt (laneAt_lt _ _ _) (Nat.two_pow_pos _)

end

section
variable (f : FmtAVX)

/-- The forms of a vector and a scalar source. -/
theorem vector_scalarForms :
    let y := fun s : State => (s.x f.xb).toNat % 2 ^ laneBits f.t
    let two := fun (i : Instr) (c : State → Nat) (g : Nat → Nat → Nat) =>
      VecGives i f.vd.toNat [f.va.toNat] f.t false 0 (fun _ => True) (fun _ => false) (laneEnabled f.me f.km f.t) (fun s _ l _ => some (g (laneOf s f.t f.va.toNat l) (c s)))
    two (.vminScalar f) y (pickValue f.t f.mod false) ∧ two (.vmaxScalar f) y (pickValue f.t f.mod true) ∧ two (.vandScalar f) y (fun a c => a &&& c) ∧
    two (.vorScalar f) y (fun a c => a ||| c) ∧ two (.vxorScalar f) y (fun a c => a ^^^ c) ∧ two (.vshlScalar f) (fun s => (s.x f.xb).toNat) (fun a c => a * 2 ^ c % 2 ^ laneBits f.t) ∧
    two (.vshrScalar f) (fun s => (s.x f.xb).toNat) (fun a c => a / 2 ^ c) ∧
    two (.vsraScalar f) (fun s => (s.x f.xb).toNat) (fun a c => (BitVec.ofInt (laneBits f.t) ((BitVec.ofNat (laneBits f.t) a).toInt / 2 ^ c)).toNat) := by
  intro y two
  have hy : ∀ s, y s < 2 ^ laneBits f.t := fun s => Nat.mod_lt _ (Nat.two_pow_pos _)
  refine ⟨?_, ?_, ?_, ?_, ?_, ?_, ?_, ?_⟩
  · exact vecGives_bitsScalar y (minMaxLane f.t f.mod false) _ (fun _ => rfl) fun s x hx => ⟨minMaxLane_eq, pickValue_lt hx (hy s)⟩
  · exact vecGives_bitsScalar y (minMaxLane f.t f.mod true) _ (fun _ => rfl) fun s x hx => ⟨minMaxLane_eq, pickValue_lt hx (hy s)⟩
  · exact vecGives_bitsScalar y (fun a c => a &&& c) (fun a c => a &&& c) (fun _ => rfl) fun s x hx => ⟨rfl, Nat.and_lt_two_pow x (hy s)⟩
  · exact vecGives_bitsScalar y (fun a c => a ||| c) (fun a c => a ||| c) (fun _ => rfl) fun s x hx => ⟨rfl, Nat.or_lt_two_pow hx (hy s)⟩
  · exact vecGives_bitsScalar y (fun a c => a ^^^ c) (fun a c => a ^^^ c) (fun _ => rfl) fun s x hx => ⟨rfl, Nat.xor_lt_two_pow hx (hy s)⟩
  · exact vecGives_bitsScalar (fun s => (s.x f.xb).toNat) (shlLane (laneBits f.t)) (fun a c => a * 2 ^ c % 2 ^ laneBits f.t) (fun _ => rfl) fun s x hx =>
      ⟨shlLane_eq, Nat.mod_lt _ (Nat.two_pow_pos _)⟩
  · exact vecGives_bitsScalar (fun s => (s.x f.xb).toNat) (shrLane (laneBits f.t)) (fun a c => a / 2 ^ c) (fun _ => rfl) fun s x hx =>
      ⟨shrLane_eq hx, lt_of_le_of_lt (Nat.div_le_self _ _) hx⟩
  · exact vecGives_bitsScalar (fun s => (s.x f.xb).toNat) (sraLane (laneBits f.t)) (fun a c => (BitVec.ofInt (laneBits f.t) ((BitVec.ofNat (laneBits f.t) a).toInt / 2 ^ c)).toNat)
      (fun _ => rfl) fun s x hx => ⟨sraLane_eq (laneBits_pos f.t), BitVec.isLt _⟩

/-- The scalar forms that move lanes, and the dot product with a scalar. -/
theorem vector_scalarMovingForms :
    let on := laneEnabled f.me f.km f.t
    let y := fun s : State => (s.x f.xb).toNat % 2 ^ laneBits f.t
    VecGives (.vdot4Scalar f) f.vd.toNat [f.va.toNat, f.vd.toNat] f.t false 0 (fun _ => True) (fun _ => false) on
      (fun s _ l _ => some (dotValue f.mod (laneOf s f.t f.va.toNat l) (y s) (laneOf s f.t f.vd.toNat l))) ∧
    VecGives (.vselScalar f) f.vd.toNat [f.va.toNat] f.t false 0 (fun _ => True) (fun _ => false) (fun _ _ => true)
      (fun s _ l _ => some (if on s l then laneOf s f.t f.va.toNat l else y s)) ∧
    VecGives (.vbcast f) f.vd.toNat [] f.t false 0 (fun _ => True) (fun _ => false) on (fun s _ _ _ => some (y s)) := by
  intro on y
  have hy : ∀ s, y s < 2 ^ laneBits f.t := fun s => Nat.mod_lt _ (Nat.two_pow_pos _)
  have hbcast : ∀ {s u : State}, SameView s u → u.bcast f.xb f.t = y s := fun hu => by rw [State.bcast, hu.x]
  refine ⟨?_, ?_, ?_⟩
  · refine vecGives_single (val := fun s l _ => some (dotValue f.mod (laneOf s f.t f.va.toNat l) (y s) (laneOf s f.t f.vd.toNat l)))
      (g := fun s i l _ => .ok (dot4Lane f.mod (laneAt 32 (l.getD 0 0) i) (y s) (laneAt 32 (l.getD 1 0) i)))
      (fun s ha _ => ⟨_, exec_vdot4Scalar ha, fun u hu => ?_⟩) (fun s ha z l r => ?_) (fun s ha l r v hv => ?_)
    · simp only [State.laneOn_eq, hu.enabled, on, hbcast hu]
    · rw [laneOf, laneOf, show laneBits f.t = 32 by rw [vdot4Scalar_lanes ha]; rfl]
      exact congrArg Except.ok (dot4Lane_eq _ _ _ _)
    · cases hv
      rw [vdot4Scalar_lanes ha]
      exact BitVec.isLt _
  · refine vecGives_single (val := fun s l _ => some (if on s l then laneOf s f.t f.va.toNat l else y s))
      (g := fun s i l _ => .ok (if on s i then laneAt (laneBits f.t) (l.getD 0 0) i else y s))
      (fun s ha _ => ⟨_, exec_of_slotA (fun _ => rfl) ha, fun u hu => ?_⟩) (fun s ha z l r => rfl) (fun s ha l r v hv => ?_)
    · simp only [State.laneOn_eq, hu.enabled, on, hbcast hu]
    · cases hv
      exact ite_lt_of_lt (laneAt_lt _ _ _) (hy s)
  · refine vecGives_single (val := fun s _ _ => some (y s)) (g := fun s _ _ _ => .ok (y s)) (fun s ha _ => ⟨_, exec_of_slotA (fun _ => rfl) ha, fun u hu => ?_⟩) (fun s ha z l r => rfl)
      (fun s ha l r v hv => ?_)
    · simp only [State.laneOn_eq, hu.enabled, on, hbcast hu]
    · cases hv
      exact hy s

end

theorem vector_insertion (f : FmtAVI) : VecGives (.vins f) f.vd.toNat [f.va.toNat] f.t false 0 (fun _ => True) (fun _ => false) (fun _ _ => true)
    (fun s _ l _ => some (if l = f.imm.toNat then (s.x f.xb).toNat % 2 ^ laneBits f.t else laneOf s f.t f.va.toNat l)) := by
  refine vecGives_single (val := fun s l _ => some (if l = f.imm.toNat then (s.x f.xb).toNat % 2 ^ laneBits f.t else laneOf s f.t f.va.toNat l))
    (g := fun s i l _ => .ok (if i = f.imm.toNat then (s.x f.xb).toNat % 2 ^ laneBits f.t else laneAt (laneBits f.t) (l.getD 0 0) i))
    (fun s ha _ => ⟨_, exec_of_slotA (fun _ => rfl) ha, fun u hu => ?_⟩) (fun s ha z l r => rfl) (fun s ha l r v hv => ?_)
  · simp only [State.bcast, hu.x]
  · cases hv
    exact ite_lt_of_lt (Nat.mod_lt _ (Nat.two_pow_pos _)) (laneAt_lt _ _ _)

/-- Settles O23: each form by its function of one lane. -/
theorem vectorLaneFunctions : Obligations.VectorLaneFunctions := by
  refine ⟨fun f => ?_, fun f => ?_, vector_insertion⟩
  · obtain ⟨hmin, hmax, hand, hor, hxor, hshl, hshr, hsra⟩ := vector_binaryForms f
    obtain ⟨habs, hneg, hmov, hpopc⟩ := vector_unaryForms f
    exact ⟨hmin, hmax, hand, hor, hxor, hshl, hshr, hsra, habs, hneg, hmov, hpopc, vector_movingForms f⟩
  · obtain ⟨hmin, hmax, hand, hor, hxor, hshl, hshr, hsra⟩ := vector_scalarForms f
    exact ⟨hmin, hmax, hand, hor, hxor, hshl, hshr, hsra, vector_scalarMovingForms f⟩

end Sys2Proof.Machine
end

section
/-! SUPPORT. Vector compares and extracts: R350, R358, R364. -/

namespace Sys2Proof.Machine

/-! ### Results in scalar registers, and in mask registers -/

namespace SameView
variable {s u : State} (h : SameView s u)
include h

/-- A result in XD: no other register changes. -/
theorem result (xd : BitVec 5) (w : Word) : ∃ v, u.result xd w = .next v ∧ (v.ctxOf s.cur).stall = none ∧ v.x xd = (if xd = 0 then 0 else w) ∧ (∀ r, r ≠ xd → v.x r = s.x r) ∧
    (∀ r, v.k r = s.k r) ∧ (∀ r, v.ownVec r = s.ownVec r) ∧ v.mem = s.mem := by
  have hkeeps := u.setX_keeps xd w
  have hcur : (u.setX xd w).cur = s.cur := (congrArg State.cur hkeeps :).trans h.cur
  have heng : (u.setX xd w).eng = u.eng := (congrArg State.eng hkeeps :)
  refine ⟨_, rfl, ?_, ?_, fun r hr => ?_, fun r => ?_, fun r => ?_, (congrArg State.mem hkeeps :).trans h.mem⟩
  · rw [← hcur]
    exact (u.setX xd w).stall_fall
  · rw [State.x_fall, State.x_setX, if_pos rfl]
  · rw [State.x_fall, State.x_setX, if_neg hr, h.x]
  · rw [State.k_fall, State.k, State.cxPart_setX u xd w Ctx.k (fun _ _ => rfl), h.cx, State.k]
  · rw [State.ownVec_of_fall, State.ownVec, heng, State.cxPart_setX u xd w Ctx.long (fun _ _ => rfl), State.cxPart_setX u xd w Ctx.v (fun _ _ => rfl), h.cx, h.eng, State.ownVec]

/-- A mask register that takes a value: but for it the bundle has written nothing. -/
theorem setK (kd : Nat) (w : Word) :
    let v := (u.setK kd w).fall
    (v.ctxOf s.cur).stall = none ∧ v.cx.k = s.cx.k.put kd w ∧ vecFrame s { v with ctxs := v.ctxs.put s.cur { v.cx with k := s.cx.k } } (fun _ => False) := by
  intro v
  let t := u.setK kd w
  have hcur : v.cur = s.cur := h.cur
  have ht : t.cx = { s.cx with k := s.cx.k.put kd w } := (State.cx_upd u _).trans (by rw [h.cx])
  let c : Ctx := { v.cx with k := s.cx.k }
  let y : State := { v with ctxs := v.ctxs.put s.cur c }
  have hpart : ∀ {α : Type} (p : Ctx → α), (∀ d : Ctx, p d.unretired = p d) → (∀ (d : Ctx) (l : KMap Word), p { d with k := l } = p d) → p c = p s.cx := fun p hp hk => by
    rw [hk v.cx, t.cxPart_fall p hp, ht, hk]
  have hself : y.cx = c := by
    rw [State.cx, State.ctxOf, show y.cur = s.cur from hcur]
    exact KMap.get_put_self _ _ _ _
  have hother : ∀ i, i ≠ s.cur → y.ctxOf i = v.ctxOf i := fun i hi => KMap.get_put_other _ _ _ hi
  have hflow : t.cx.flow = s.cx.flow := by rw [ht]; rfl
  refine ⟨?_, ?_, fun r => ?_, fun r => ?_, fun r _ => ?_, ?_, ?_, ?_, fun i hi => ?_, ?_, fun a => congrArg (Memory.read · a) h.mem⟩
  · rw [← hcur]
    exact t.stall_fall
  · rw [t.cxPart_fall Ctx.k (fun _ => rfl), ht]
  · exact State.x_of_regs (by rw [hself, hpart Ctx.x (fun _ => rfl) (fun _ _ => rfl)]) r
  · rw [State.k, State.k, hself]
  · have heng : y.eng = s.eng := h.eng
    rw [State.ownVec, State.ownVec, hself, heng, hpart Ctx.long (fun _ => rfl) (fun _ _ => rfl), hpart Ctx.v (fun _ => rfl) (fun _ _ => rfl)]
  · rw [hself]
    exact State.pc_fall_of_flow hflow
  · rw [hself, hpart Ctx.fstat (fun _ => rfl) (fun _ _ => rfl)]
  · rw [hself, hpart Ctx.st (fun _ => rfl) (fun _ _ => rfl)]
  · rw [hother i hi]
    exact (t.ctxOf_retire_other _ (by rw [show t.cur = s.cur from h.cur]; exact hi)).trans ((State.ctxOf_updCtx_other u _ (h.cur ▸ hi)).trans (State.ctxOf_congr h.ctxs i))
  · have hcore : y.core = v.core := rfl
    have hset : t.core = s.core := h.core
    rw [hcore, State.core_fall, hset]

end SameView

/-! ### The conditions (R358) -/

theorem condLane_iff {t : BitVec 2} {c a b : Nat} : condLane t c a b = true ↔ condHolds t c a b := by
  unfold condLane condHolds
  by_cases hf : floatLane t = true
  · rw [if_pos hf, if_pos (floatLane_iff.1 hf)]
    rcases c with _ | _ | _ | _ | _ | c <;> simp [XNum.le, laneFmt]
  · rw [if_neg hf, if_neg (fun h => hf (floatLane_iff.2 h))]
    simp only [sextNat_eq_toInt (laneBits_pos t)]
    rcases c with _ | _ | _ | _ | _ | _ | _ | c <;> simp

/-- A bit of a mask that has been packed from bits. -/
theorem maskBit {n j : Nat} (p : Nat → Bool) (hj : j < 64) :
    (BitVec.ofNat 64 (packLanes 1 ((List.range n).map (fun i => if p i then 1 else 0)))).getLsbD j = true ↔ j < n ∧ p j = true := by
  have hlane := packLanes_lane 1 j ((List.range n).map (fun i => if p i then 1 else 0))
  rw [BitVec.getLsbD_ofNat, decide_eq_true hj, Bool.true_and, Nat.testBit_eq_decide_div_mod_eq, decide_eq_true_eq]
  rw [Nat.one_mul, pow_one] at hlane
  rw [hlane]
  by_cases hn : j < n
  · rw [List.getD_eq_getElem _ _ (by simpa using hn), List.getElem_map, List.getElem_range]
    cases p j <;> simp [hn]
  · rw [List.getD_eq_default _ _ (by simpa using hn)]
    simp [hn]

/-- A compare writes the lanes that take part and meet the condition (R358). -/
theorem vecCompare_writes {i : Instr} {s : State} {kd : BitVec 4} {ins : List Nat} {t : BitVec 2} {me : BitVec 1} {km : BitVec 3} {test : Nat → List Nat → Bool} (hi : exec i s = s.vecCompare kd ins t me km test)
    (hready : vecReady s ins) (hkd : kd.toNat < 8) : ∃ u, exec i s = .next u ∧
      (∀ j, j < 64 → ((u.cx.k.get 0 kd.toNat).getLsbD j = true ↔ j < lanesOf s.cx.long t ∧ laneEnabled me km t s j = true ∧ test j (ins.map s.ownVec) = true)) ∧
      (∀ r, r ≠ kd.toNat → u.cx.k.get 0 r = s.cx.k.get 0 r) ∧ vecFrame s { u with ctxs := u.ctxs.put s.cur { u.cx with k := s.cx.k } } (fun _ => False) := by
  obtain ⟨u, hu, hissue⟩ := State.vecIssue_of_ready hready
  let w : Word := BitVec.ofNat 64 (packLanes 1 ((List.range (lanesOf s.cx.long t)).map (fun i => if laneEnabled me km t s i && test i (ins.map s.ownVec) then 1 else 0)))
  obtain ⟨hstall, hk, hframe⟩ := hu.setK kd.toNat w
  have hbound : ∀ r ∈ ins, u.streamOf r = none := fun r hr => (hu.streamOf r).trans (hready.2 r hr)
  refine ⟨_, hi.trans (hissue _ _ ?_ hstall), fun j hj => ?_, fun r hr => ?_, hframe⟩
  · rw [State.withVecs_of_unbound (by simpa using hbound), State.popStreams_of_unbound hbound, Nat.mod_eq_of_lt hkd, State.laneOn_eq, hu.enabled, hu.cx, funext hu.ownVec, List.map_nil, List.append_nil]
  · rw [hk, KMap.get_put_self, maskBit _ hj, Bool.and_eq_true]
  · rw [hk, KMap.get_put_other _ _ _ hr]

theorem vext_gives (f : FmtAVS) (s : State) (ha : s.accepts (.vext f)) (hready : vecReady s [f.va.toNat]) :
    let v := laneOf s f.t f.va.toNat f.imm.toNat
    ∃ u, exec (.vext f) s = .next u ∧ (f.xd ≠ 0 → u.x f.xd = if f.t = 0 ∨ f.t = 1 then BitVec.ofNat 64 v else (BitVec.ofNat (laneBits f.t) v).signExtend 64) ∧
      (∀ r, r ≠ f.xd → u.x r = s.x r) ∧ u.x 0 = 0 ∧ (∀ r, u.k r = s.k r) ∧ (∀ r, u.ownVec r = s.ownVec r) ∧ ∀ a, u.mem.read a = s.mem.read a := by
  intro v
  obtain ⟨u, hu, hissue⟩ := State.vecIssue_of_ready hready
  have hbound : ∀ r ∈ [f.va.toNat], u.streamOf r = none := fun r hr => (hu.streamOf r).trans (hready.2 r hr)
  obtain ⟨t, ht, hstall, hxd, hx, hk, hv, hmem⟩ := hu.result f.xd (if floatLane f.t then BitVec.ofNat 64 v else sextWord (laneBits f.t) v)
  have hexec : exec (.vext f) s = _ := exec_of_slotA (fun _ => rfl) ha
  refine ⟨t, hexec.trans (hissue _ t ?_ hstall), fun h0 => ?_, hx, rfl, hk, hv, fun a => by rw [hmem]⟩
  · refine (State.withVecs_of_unbound (by simpa using hbound) _).trans (Eq.trans ?_ ht)
    rw [State.popStreams_of_unbound hbound, funext hu.ownVec]
    rfl
  · rw [hxd, if_neg h0, sextWord_low (laneBits_le f.t)]
    exact if_congr floatLane_iff rfl rfl

/-- Settles O24: a compare by the bits of its mask, an extract by its lane. -/
theorem vectorComparesAndExtracts : Obligations.VectorComparesAndExtracts := by
  refine ⟨fun f s ha hready => ?_, fun f s ha hready => ?_, vext_gives⟩
  · have hkd : decide (f.vd.toNat < 8) = true := (check_eq_none_iff.1 (State.accepts_iff.1 ha).1).2.1
    obtain ⟨u, hu, hbits, hother, hframe⟩ := vecCompare_writes (exec_of_slotA (fun _ => rfl) ha) hready (of_decide_eq_true hkd)
    exact ⟨u, hu, fun j hj => (hbits j hj).trans (and_congr_right fun _ => and_congr_right fun _ => condLane_iff), hother, hframe⟩
  · have hkd : decide (f.vd.toNat < 8) = true := (check_eq_none_iff.1 (State.accepts_iff.1 ha).1).2.1
    obtain ⟨u, hu, hbits, hother, hframe⟩ := vecCompare_writes (exec_of_slotA (fun _ => rfl) ha) hready (of_decide_eq_true hkd)
    exact ⟨u, hu, fun j hj => (hbits j hj).trans (and_congr_right fun _ => and_congr_right fun _ => condLane_iff), hother, hframe⟩

end Sys2Proof.Machine
end

section
/-! SUPPORT. Vector conversions and special functions: R269, R355, R360, R361. -/

namespace Sys2Proof.Machine

/-! ### Conversions of one lane (R360) -/

theorem convertRounds_iff {t d : BitVec 2} :
    convertRounds t d = true ↔ (t = 0 ∧ d = 1) ∨ ((t = 0 ∨ t = 1) ∧ (d = 2 ∨ d = 3)) ∨ (t = 3 ∧ (d = 0 ∨ d = 1)) := by
  revert t d
  decide

section
variable {t d : BitVec 2} {tr : Bool} {rm : RoundMode} {a r : Nat}

theorem convertLane_eq : convertLane t d tr rm a r = laneResult .cvtOverflow (convertValue t d tr rm a (if rm = .sr then r else 0)) := by
  have hround : ∀ (F : FloatFmt) (x : XNum), F.round x rm r = F.round x rm (if rm = .sr then r else 0) := fun F x => by
    by_cases h : rm = .sr
    · rw [if_pos h]
    · exact F.round_draw h x _ _
  have hint : ∀ (x : XNum) (n : Nat), roundInt x n rm r = roundInt x n rm (if rm = .sr then r else 0) ∧ intOverflows x n rm r = intOverflows x n rm (if rm = .sr then r else 0) := fun x n => by
    by_cases h : rm = .sr
    · rw [if_pos h]
      exact ⟨rfl, rfl⟩
    · exact ⟨roundInt_draw h x n _ _, intOverflows_draw h x n _ _⟩
  unfold convertLane convertValue
  simp only [← Bool.decide_congr floatLane_iff, Bool.decide_eq_true, hround _ _, (hint _ _).1, (hint _ _).2, sextNat_eq_toInt (laneBits_pos t), wrapInt_eq]
  generalize (if rm = .sr then r else 0) = r'
  cases floatLane t <;> cases floatLane d <;> simp only [Bool.false_eq_true, if_true, if_false]
  case false.false =>
    generalize (BitVec.ofNat (laneBits t) a).toInt = v
    have hpow : (0 : Int) < 2 ^ (laneBits d - 1) := by positivity
    have hfit : min (2 ^ (laneBits d - 1) - 1) (max (-2 ^ (laneBits d - 1)) v) = max (-2 ^ (laneBits d - 1)) (min (2 ^ (laneBits d - 1) - 1) v) := by omega
    have hout : min (2 ^ (laneBits d - 1) - 1) (max (-2 ^ (laneBits d - 1)) v) ≠ v ↔ v < -2 ^ (laneBits d - 1) ∨ 2 ^ (laneBits d - 1) - 1 < v := by omega
    rw [Bool.decide_congr hout, hfit]
    split <;> rfl
  case false.true => rfl
  case true.false => split <;> rfl
  case true.true => rfl

theorem convertValue_lt {v : Nat} (h : convertValue t d tr rm a r = some v) : v < 2 ^ laneBits d := by
  unfold convertValue at h
  simp only at h
  split at h
  next hd =>
    cases h
    exact laneFmt_round_lt (floatLane_iff.2 (of_decide_eq_true hd)) _ _ _
  next =>
    split at h
    · cases h
    · cases h
      exact BitVec.isLt _
  next hd =>
    cases h
    exact laneFmt_round_lt (floatLane_iff.2 (of_decide_eq_true hd)) _ _ _
  next =>
    split at h
    · cases h
    · cases h
      exact BitVec.isLt _

end

/-- Part j of the destination when it narrows, part j of the source when it widens (R360). -/
theorem vector_conversion (f : FmtAV) :
    let d : BitVec 2 := f.sub.extractLsb' 0 2
    let j := f.vb.toNat
    let lt := fun s : State => lanesOf s.cx.long f.t
    let ld := fun s : State => lanesOf s.cx.long d
    let rounds := (f.t = 0 ∧ d = 1) ∨ ((f.t = 0 ∨ f.t = 1) ∧ (d = 2 ∨ d = 3)) ∨ (f.t = 3 ∧ (d = 0 ∨ d = 1))
    let rm := fun s : State => if rounds then RoundMode.ofCode s.cx.rm f.mod.toNat else .rne
    VecGives (.vcvt f) f.vd.toNat [f.va.toNat] d false .cvtOverflow (fun _ => True) (fun s => decide (rm s = .sr))
      (fun s l => laneEnabled f.me f.km d s l && (decide (ld s < lt s) || decide (j * lt s ≤ l ∧ l < (j + 1) * lt s)))
      (fun s _ l r => convertValue f.t d (decide (4 ≤ f.sub.toNat)) (rm s) (laneOf s f.t f.va.toNat (if ld s < lt s then j * ld s + l else l - j * lt s)) r) := by
  intro d j lt ld rounds rm
  have hrm : ∀ {s u : State}, SameView s u → (if convertRounds f.t d then u.roundMode f.mod else .rne) = rm s := fun {s u} hu =>
    (if_congr convertRounds_iff (hu.roundMode f.mod) rfl)
  refine vecGives_single (val := fun s l r => convertValue f.t d (decide (4 ≤ f.sub.toNat)) (rm s) (laneOf s f.t f.va.toNat (if ld s < lt s then j * ld s + l else l - j * lt s)) r)
    (g := fun s i l r => convertLane f.t d (decide (4 ≤ f.sub.toNat)) (rm s) (laneAt (laneBits f.t) (l.getD 0 0) (if ld s < lt s then j * ld s + i else i - j * lt s)) r)
    (fun s ha _ => ⟨_, exec_of_slotA (fun _ => rfl) ha, fun u hu => ?_⟩) (fun s _ z l r => ?_) (fun s _ l r v => convertValue_lt)
  · have hld : ld u = ld s := by simp only [ld, hu.cx]
    have hlt : lt u = lt s := by simp only [lt, hu.cx]
    have hon : (fun i => u.laneOn f.me f.km (ld u) i && (!decide (ld u ≥ lt u) || (decide (j * lt u ≤ i) && decide (i < (j + 1) * lt u)))) =
        fun l => laneEnabled f.me f.km d s l && (decide (ld s < lt s) || decide (j * lt s ≤ l ∧ l < (j + 1) * lt s)) := funext fun i => by
      rw [State.laneOn_eq, hu.enabled, hld, hlt, Bool.decide_and, ← decide_not, Bool.decide_congr (not_le (a := lt s) (b := ld s))]
    have hat : ∀ i, (if decide (ld u ≥ lt u) = true then i - j * lt u else j * ld u + i) = if ld s < lt s then j * ld s + i else i - j * lt s := fun i => by
      rw [hld, hlt]
      by_cases h : ld s < lt s
      · rw [if_pos h, if_neg (by simpa using h)]
      · rw [if_neg h, if_pos (by simpa using h)]
    show u.lanewise f.vd.toNat [f.va.toNat] d false (decide ((if convertRounds f.t d then u.roundMode f.mod else .rne) = .sr))
      (fun i => u.laneOn f.me f.km (ld u) i && (!decide (ld u ≥ lt u) || (decide (j * lt u ≤ i) && decide (i < (j + 1) * lt u))))
      (fun i l r => convertLane f.t d (decide (4 ≤ f.sub.toNat)) (if convertRounds f.t d then u.roundMode f.mod else .rne)
        (laneAt (laneBits f.t) (l.getD 0 0) (if decide (ld u ≥ lt u) = true then i - j * lt u else j * ld u + i)) r) = _
    rw [hon, hrm hu]
    simp only [hat]
  · have hsr : (if decide (rm s = .sr) = true then r else 0) = if rm s = .sr then r else 0 := if_congr decide_eq_true_iff rfl rfl
    rw [hsr]
    exact convertLane_eq

/-! ### Special functions (R269, R361) -/

theorem specialDomain_iff {g : SpecialFn} {x : XNum} : specialDomain g x = true ↔ (g = .log2 ∨ g = .rsqrt ∨ g = .sqrt) ∧ x.isNan = false ∧ x.isZero = false ∧ x.sign = true := by
  have hbelow : belowZero x = true ↔ x.isNan = false ∧ x.isZero = false ∧ x.sign = true := by
    unfold belowZero
    cases x.isNan <;> cases x.isZero <;> cases x.sign <;> decide
  cases g <;> simp [specialDomain, hbelow]

section
variable {f : FmtAV} {i : Instr} {g : SpecialFn} (hi : ∀ s, exec i s = s.slotA i (fun s => s.vecSpecial f g))
include hi

theorem special_unsupported (s : State) (ha : s.accepts i) (hready : vecReady s [f.va.toNat, f.vd.toNat]) (hrm : RoundMode.ofCode s.cx.rm f.mod.toNat = .sr) :
    ∃ u, exec i s = .next u ∧ u.cx.st = 1 ∧ u.cx.cause = Cause.rmUnsupported := by
  obtain ⟨v, hv, hst, hcause, -⟩ := State.vecIssue_faults hready (k := fun s =>
    let rm := s.roundMode f.mod
    if rm = .sr then s.faultA .rmUnsupported
    else s.vecUnaryRaw f (fun a =>
      let x := (laneFmt f.t).decode a
      if f.sub = 1 && specialDomain g x then .error .spfnDomain else .ok (specialValue g (laneFmt f.t) rm x))) fun u hu => if_pos ((hu.roundMode f.mod).trans hrm)
  exact ⟨v, (exec_of_slotA hi ha).trans hv, hst, hcause⟩

theorem special_gives (hform : ∀ long level, formCause i long level = if floatLane f.t then none else some .typeForm) :
    VecGives i f.vd.toNat [f.va.toNat] f.t false .spfnDomain (fun s => RoundMode.ofCode s.cx.rm f.mod.toNat ≠ .sr) (fun _ => false) (laneEnabled f.me f.km f.t)
      (fun s _ l _ =>
        let F := if f.t = 0 then fp32 else bf16
        let x := F.decode (laneOf s f.t f.va.toNat l)
        if f.sub = 1 ∧ (g = .log2 ∨ g = .rsqrt ∨ g = .sqrt) ∧ x.isNan = false ∧ x.isZero = false ∧ x.sign = true then none
        else some (specialValue g F (RoundMode.ofCode s.cx.rm f.mod.toNat) x)) := by
  refine vecGives_single (val := fun s l _ =>
      if f.sub = 1 ∧ (g = .log2 ∨ g = .rsqrt ∨ g = .sqrt) ∧ ((laneFmt f.t).decode (laneOf s f.t f.va.toNat l)).isNan = false ∧ ((laneFmt f.t).decode (laneOf s f.t f.va.toNat l)).isZero = false ∧
        ((laneFmt f.t).decode (laneOf s f.t f.va.toNat l)).sign = true then none
      else some (specialValue g (laneFmt f.t) (RoundMode.ofCode s.cx.rm f.mod.toNat) ((laneFmt f.t).decode (laneOf s f.t f.va.toNat l))))
    (g := fun s i l _ =>
      if f.sub = 1 && specialDomain g ((laneFmt f.t).decode (laneAt (laneBits f.t) (l.getD 0 0) i)) then .error .spfnDomain
      else .ok (specialValue g (laneFmt f.t) (RoundMode.ofCode s.cx.rm f.mod.toNat) ((laneFmt f.t).decode (laneAt (laneBits f.t) (l.getD 0 0) i))))
    (fun s ha hrm => ⟨_, exec_of_slotA hi ha, fun u hu => ?_⟩) (fun s _ z l r => ?_) (fun s ha l r v hv => ?_)
  · have hmode : u.roundMode f.mod = RoundMode.ofCode s.cx.rm f.mod.toNat := hu.roundMode f.mod
    simp only [hmode, if_neg hrm, State.vecUnaryRaw, State.laneOn_eq, hu.enabled]
  · rw [apply_ite (laneResult _)]
    exact if_congr (by rw [Bool.and_eq_true, decide_eq_true_iff, specialDomain_iff]; rfl) rfl rfl
  · have hfloat : floatLane f.t = true := by
      have h := (hform _ _).symm.trans (State.formCause_of_accepts ha)
      by_contra hf
      rw [if_neg hf] at h
      cases h
    split at hv
    · cases hv
    · cases hv
      have hq := laneFmt_qnan f.t
      rw [laneFmt_width hfloat] at hq
      exact specialValue_lt (fun x => laneFmt_round_lt hfloat x _ _) hq _ _

end

/-- Settles O25: one lane of a conversion or of a function, and the form that applies it. -/
theorem vectorConversionsAndFunctions : Obligations.VectorConversionsAndFunctions := fun f =>
  ⟨vector_conversion f, ⟨special_unsupported (fun _ => rfl), special_gives (fun _ => rfl) (fun _ _ => rfl)⟩, ⟨special_unsupported (fun _ => rfl), special_gives (fun _ => rfl) (fun _ _ => rfl)⟩,
    ⟨special_unsupported (fun _ => rfl), special_gives (fun _ => rfl) (fun _ _ => rfl)⟩, ⟨special_unsupported (fun _ => rfl), special_gives (fun _ => rfl) (fun _ _ => rfl)⟩,
    ⟨special_unsupported (fun _ => rfl), special_gives (fun _ => rfl) (fun _ _ => rfl)⟩, ⟨special_unsupported (fun _ => rfl), special_gives (fun _ => rfl) (fun _ _ => rfl)⟩⟩

end Sys2Proof.Machine
end

section
/-! SUPPORT. Reductions and scans: R273, R362, R363. -/

namespace Sys2Proof.Machine

/-! ### The pairwise tree (R273) -/

/-- A value of the tree stands for the lanes below it: it is absent where none takes part, and otherwise has the property of their list. -/
def StandsFor (P : List Nat → Nat → Prop) : Option Nat → List Nat → Prop
  | none, l => l = []
  | some v, l => l ≠ [] ∧ P l v

theorem pairUp_single (op : Nat → Nat → Nat) (a : Option Nat) : pairUp op [a] = [a] := by
  cases a <;> rfl

section
variable {P : List Nat → Nat → Prop} {op : Nat → Nat → Nat} (hop : ∀ l m x y, l ≠ [] → m ≠ [] → P l x → P m y → P (l ++ m) (op x y))
include hop

/-- One level joins neighbours, in their order. -/
theorem pairUp_standsFor : ∀ (l : List (Option Nat)) (segs : List (List Nat)), List.Forall₂ (StandsFor P) l segs →
    ∃ segs', List.Forall₂ (StandsFor P) (pairUp op l) segs' ∧ segs'.flatten = segs.flatten ∧ (pairUp op l).length = (l.length + 1) / 2
  | [], segs, h => by
    cases h
    exact ⟨[], .nil, rfl, rfl⟩
  | [a], segs, h => ⟨segs, by rwa [pairUp_single], rfl, by simp [pairUp_single]⟩
  | a :: b :: r, segs, h => by
    obtain ⟨x, tail, ha, htail, rfl⟩ := List.forall₂_cons_left_iff.1 h
    obtain ⟨y, rest, hb, hr, rfl⟩ := List.forall₂_cons_left_iff.1 htail
    obtain ⟨segs', hrest, hflat, hlen⟩ := pairUp_standsFor r rest hr
    refine ⟨(x ++ y) :: segs', .cons ?_ hrest, by simp [hflat], by simp only [pairUp, List.length_cons, hlen]; omega⟩
    cases a with
    | none =>
      obtain rfl : x = [] := ha
      exact hb
    | some v =>
      obtain ⟨hx, hpx⟩ := ha
      cases b with
      | none =>
        obtain rfl : y = [] := hb
        rw [List.append_nil]
        exact ⟨hx, hpx⟩
      | some w => exact ⟨List.append_ne_nil_of_left_ne_nil hx y, hop x y v w hx hb.1 hpx hb.2⟩

/-- The root stands for all the lanes. -/
theorem pairTree_standsFor : ∀ (n : Nat) (l : List (Option Nat)) (segs : List (List Nat)), l.length ≤ 2 ^ n → List.Forall₂ (StandsFor P) l segs →
    StandsFor P (pairTree op n l) segs.flatten
  | 0, l, segs, hlen, h => by
    cases h with
    | nil => exact rfl
    | cons ha hr =>
      have hnil := List.length_eq_zero_iff.1 (Nat.le_zero.1 (Nat.le_of_succ_le_succ hlen))
      subst hnil
      cases hr
      rw [List.flatten_cons, List.flatten_nil, List.append_nil]
      exact ha
  | n + 1, l, segs, hlen, h => by
    obtain ⟨segs', h', hflat, hhalf⟩ := pairUp_standsFor hop l segs h
    rw [← hflat]
    refine pairTree_standsFor n _ segs' ?_ h'
    rw [hhalf]
    rw [pow_succ] at hlen
    omega

/-- The tree over the lanes of a register that take part. -/
theorem pairTree_lanes {n : Nat} (on : Nat → Bool) (x : Nat → Nat) (hn : n ≤ 2 ^ 8) (hone : ∀ i, i < n → P [x i] (x i)) :
    StandsFor P (pairTree op 8 ((List.range n).map (fun i => if on i then some (x i) else none))) (((List.range n).filter on).map x) := by
  have hsegs : List.Forall₂ (StandsFor P) ((List.range n).map (fun i => if on i then some (x i) else none)) ((List.range n).map (fun i => if on i then [x i] else [])) := by
    rw [List.forall₂_map_left_iff, List.forall₂_map_right_iff, List.forall₂_same]
    intro i hi
    by_cases hon : on i = true
    · rw [if_pos hon, if_pos hon]
      exact ⟨List.cons_ne_nil _ _, hone i (List.mem_range.1 hi)⟩
    · rw [if_neg hon, if_neg hon]
      exact rfl
  have hflat : ∀ l : List Nat, (l.map (fun i => if on i then [x i] else [])).flatten = (l.filter on).map x := fun l => by
    induction l with
    | nil => rfl
    | cons i l ih =>
      rw [List.map_cons, List.flatten_cons, ih, List.filter_cons]
      split <;> rfl
  rw [← hflat]
  exact pairTree_standsFor hop 8 _ _ (by simpa using hn) hsegs

end

/-! ### The integer reductions (R362) -/

/-- The sum, the bits and the parities of lists are those of their parts. -/
theorem sum_step (l m : List Nat) (x y : Nat) (hx : x = l.sum % 2 ^ 64) (hy : y = m.sum % 2 ^ 64) : (x + y) % 2 ^ 64 = (l ++ m).sum % 2 ^ 64 := by
  rw [hx, hy, List.sum_append, ← Nat.add_mod]

/-- A choice between two keeps a choice that is least by a key. -/
theorem least_step {α : Type} [LinearOrder α] (key : Nat → α) {l m : List Nat} {x y : Nat} (hx : x ∈ l ∧ ∀ z ∈ l, key x ≤ key z) (hy : y ∈ m ∧ ∀ z ∈ m, key y ≤ key z) :
    (if key x ≤ key y then x else y) ∈ l ++ m ∧ ∀ z ∈ l ++ m, key (if key x ≤ key y then x else y) ≤ key z := by
  obtain ⟨hxl, hxle⟩ := hx
  obtain ⟨hym, hyle⟩ := hy
  by_cases h : key x ≤ key y
  · rw [if_pos h]
    exact ⟨List.mem_append_left _ hxl, fun z hz => (List.mem_append.1 hz).elim (hxle z) (fun hz => h.trans (hyle z hz))⟩
  · rw [if_neg h]
    exact ⟨List.mem_append_right _ hym, fun z hz => (List.mem_append.1 hz).elim (fun hz => (le_of_not_ge h).trans (hxle z hz)) (hyle z)⟩

/-- The same for a choice that is greatest. -/
theorem greatest_step {α : Type} [LinearOrder α] (key : Nat → α) {l m : List Nat} {x y : Nat} (hx : x ∈ l ∧ ∀ z ∈ l, key z ≤ key x) (hy : y ∈ m ∧ ∀ z ∈ m, key z ≤ key y) :
    (if key x ≤ key y then y else x) ∈ l ++ m ∧ ∀ z ∈ l ++ m, key z ≤ key (if key x ≤ key y then y else x) := by
  obtain ⟨hxl, hxle⟩ := hx
  obtain ⟨hym, hyle⟩ := hy
  by_cases h : key x ≤ key y
  · rw [if_pos h]
    exact ⟨List.mem_append_right _ hym, fun z hz => (List.mem_append.1 hz).elim (fun hz => (hxle z hz).trans h) (hyle z)⟩
  · rw [if_neg h]
    exact ⟨List.mem_append_left _ hxl, fun z hz => (List.mem_append.1 hz).elim (hxle z) (fun hz => (hyle z hz).trans (le_of_not_ge h))⟩

theorem parity_step {p q : Nat} {x y : Bool} (hx : x = decide (p % 2 = 1)) (hy : y = decide (q % 2 = 1)) : (x ^^ y) = decide ((p + q) % 2 = 1) := by
  subst hx hy
  obtain hp | hp := Nat.mod_two_eq_zero_or_one p <;> obtain hq | hq := Nat.mod_two_eq_zero_or_one q <;> simp [Nat.add_mod, hp, hq]

/-- What an operation number means for the value of a list (R362). -/
def ReduceValue (op : Nat) (l : List Nat) (v : Nat) : Prop :=
  match op with
  | 0 => v = l.sum % 2 ^ 64
  | 1 => v ∈ l ∧ ∀ x ∈ l, (BitVec.ofNat 64 v).toInt ≤ (BitVec.ofNat 64 x).toInt
  | 2 => v ∈ l ∧ ∀ x ∈ l, (BitVec.ofNat 64 x).toInt ≤ (BitVec.ofNat 64 v).toInt
  | 3 => v ∈ l ∧ ∀ x ∈ l, v ≤ x
  | 4 => v ∈ l ∧ ∀ x ∈ l, x ≤ v
  | 5 => ∀ j, v.testBit j = l.all (fun x => x.testBit j)
  | 6 => ∀ j, v.testBit j = l.any (fun x => x.testBit j)
  | _ => ∀ j, v.testBit j = decide ((l.filter (fun x => x.testBit j)).length % 2 = 1)

theorem reduceValue_one (op : Nat) {x : Nat} (hx : x < 2 ^ 64) : ReduceValue op [x] x := by
  unfold ReduceValue
  split
  · exact (Nat.mod_eq_of_lt hx).symm
  case h_6 => simp
  case h_7 => simp
  case h_8 =>
    intro j
    cases h : x.testBit j <;> simp [h]
  all_goals simp

theorem reduceValue_step {t : BitVec 2} (ht : floatLane t = false) (op : Nat) (rm : RoundMode) (l m : List Nat) (x y : Nat) (hx : ReduceValue op l x) (hy : ReduceValue op m y) :
    ReduceValue op (l ++ m) (reduceStep t op rm 64 x y) := by
  have hkey : ∀ v, sextNat 64 v = (BitVec.ofNat 64 v).toInt := sextNat_eq_toInt (by decide)
  unfold reduceStep
  rw [if_neg (ne_true_of_eq_false ht)]
  rcases op with _ | _ | _ | _ | _ | _ | _ | op
  · exact sum_step l m x y hx hy
  · simp only [hkey]
    exact least_step (fun v => (BitVec.ofNat 64 v).toInt) hx hy
  · simp only [hkey]
    exact greatest_step (fun v => (BitVec.ofNat 64 v).toInt) hx hy
  · exact least_step id hx hy
  · exact greatest_step id hx hy
  · intro j
    exact (Nat.testBit_and x y j).trans (by rw [hx j, hy j, List.all_append])
  · intro j
    exact (Nat.testBit_or x y j).trans (by rw [hx j, hy j, List.any_append])
  · intro j
    rw [List.filter_append, List.length_append, ← parity_step (hx j) (hy j)]
    exact Nat.testBit_xor _ _ _

/-! ### `vred` (R362) -/

theorem lanesOf_le (long : Bool) (t : BitVec 2) : lanesOf long t ≤ 2 ^ 8 := by
  revert long t
  decide

section
variable {s : State} {f : FmtAVS}

/-- The code that a reduction of an accepted instruction writes. -/
def State.reduced (s : State) (f : FmtAVS) (rm : RoundMode) : Nat :=
  (pairTree (reduceStep f.t f.imm.toNat rm 64) 8 ((List.range (lanesOf s.cx.long f.t)).map (fun l =>
    if laneEnabled f.me f.km f.t s l then some (extendLane f.t f.imm.toNat (laneOf s f.t f.va.toNat l)) else none))).getD 0

theorem vred_unsupported (ha : s.accepts (.vred f)) (hready : vecReady s [f.va.toNat]) (h : (f.t = 0 ∨ f.t = 1) ∧ f.imm.toNat = 0 ∧ RoundMode.ofCode s.cx.rm f.mod.toNat = .sr) :
    ∃ u, exec (.vred f) s = .next u ∧ u.cx.st = 1 ∧ u.cx.cause = Cause.rmUnsupported := by
  obtain ⟨hf, hop, hrm⟩ := h
  have hexec : exec (.vred f) s = s.vecIssue _ := exec_of_slotA (fun _ => rfl) ha
  rw [hexec]
  refine Exists.imp (fun v ⟨hv, hst, hcause, _⟩ => ⟨hv, hst, hcause⟩) (State.vecIssue_faults hready fun u hu => if_pos ?_)
  simp [floatLane_iff.2 hf, hop, (hu.roundMode f.mod).trans hrm]

theorem vred_writes (ha : s.accepts (.vred f)) (hready : vecReady s [f.va.toNat])
    (h : ¬((f.t = 0 ∨ f.t = 1) ∧ f.imm.toNat = 0 ∧ RoundMode.ofCode s.cx.rm f.mod.toNat = .sr)) :
    ∃ u, exec (.vred f) s = .next u ∧ u.x f.xd = (if f.xd = 0 then 0 else BitVec.ofNat 64 (s.reduced f (RoundMode.ofCode s.cx.rm f.mod.toNat))) ∧ (∀ r, r ≠ f.xd → u.x r = s.x r) ∧
      (∀ r, u.k r = s.k r) ∧ (∀ r, u.ownVec r = s.ownVec r) ∧ ∀ a, u.mem.read a = s.mem.read a := by
  have hexec : exec (.vred f) s = s.vecIssue _ := exec_of_slotA (fun _ => rfl) ha
  obtain ⟨u, hu, hissue⟩ := State.vecIssue_of_ready hready
  have hbound : ∀ r ∈ [f.va.toNat], u.streamOf r = none := fun r hr => (hu.streamOf r).trans (hready.2 r hr)
  obtain ⟨t, ht, hstall, hxd, hx, hk, hv, hmem⟩ := hu.result f.xd (BitVec.ofNat 64 (s.reduced f (RoundMode.ofCode s.cx.rm f.mod.toNat)))
  refine ⟨t, hexec.trans (hissue _ t ?_ hstall), hxd, hx, hk, hv, fun a => by rw [hmem]⟩
  have hmode : u.roundMode f.mod = RoundMode.ofCode s.cx.rm f.mod.toNat := hu.roundMode f.mod
  have hcond : ¬(floatLane f.t && decide (f.imm.toNat = 0) && decide (RoundMode.ofCode s.cx.rm f.mod.toNat = .sr)) = true := by
    rw [Bool.and_eq_true, Bool.and_eq_true, decide_eq_true_iff, decide_eq_true_iff, floatLane_iff, and_assoc]
    exact h
  simp only [hmode, if_neg hcond]
  rw [State.withVecs_of_unbound (by simpa using hbound), State.popStreams_of_unbound hbound, State.laneOn_eq, hu.enabled, hu.cx, funext hu.ownVec, ← ht]
  rfl

/-- The codes of the lanes that take part, as an operation reads them. -/
def State.reducedLanes (s : State) (f : FmtAVS) : List Nat :=
  ((List.range (lanesOf s.cx.long f.t)).filter (laneEnabled f.me f.km f.t s)).map (fun l => extendLane f.t f.imm.toNat (laneOf s f.t f.va.toNat l))

theorem extendLane_lt {t : BitVec 2} (op : Nat) {v : Nat} (hv : v < 2 ^ laneBits t) : extendLane t op v < 2 ^ 64 := by
  unfold extendLane
  split
  · exact lt_of_lt_of_le hv (Nat.pow_le_pow_right two_pos (laneBits_le t))
  · exact BitVec.isLt _

/-- An integer reduction, by its operation number: 0 where no lane takes part. -/
theorem reduced_integer (ht : floatLane f.t = false) (rm : RoundMode) :
    (s.reducedLanes f = [] ∧ s.reduced f rm = 0) ∨ (s.reducedLanes f ≠ [] ∧ ReduceValue f.imm.toNat (s.reducedLanes f) (s.reduced f rm)) := by
  have htree := pairTree_lanes (P := ReduceValue f.imm.toNat) (op := reduceStep f.t f.imm.toNat rm 64) (fun l m x y _ _ => reduceValue_step ht _ rm l m x y)
    (laneEnabled f.me f.km f.t s) (fun l => extendLane f.t f.imm.toNat (laneOf s f.t f.va.toNat l)) (lanesOf_le s.cx.long f.t)
    (fun i _ => reduceValue_one _ (extendLane_lt _ (laneAt_lt _ _ _)))
  rw [State.reduced, State.reducedLanes]
  generalize pairTree (reduceStep f.t f.imm.toNat rm 64) 8 _ = o at htree ⊢
  cases o with
  | none => exact .inl ⟨htree, rfl⟩
  | some v => exact .inr htree

end

/-- What each operation gives of a list of codes. -/
theorem reduceValue_claims {op : Nat} {l : List Nat} {v : Nat} (h : (l = [] ∧ v = 0) ∨ (l ≠ [] ∧ ReduceValue op l v)) :
    (op = 0 → v = l.sum % 2 ^ 64) ∧ (op = 1 → ∀ x ∈ l, (BitVec.ofNat 64 v).toInt ≤ (BitVec.ofNat 64 x).toInt) ∧ (op = 1 → l ≠ [] → v ∈ l) ∧
    (op = 2 → ∀ x ∈ l, (BitVec.ofNat 64 x).toInt ≤ (BitVec.ofNat 64 v).toInt) ∧ (op = 2 → l ≠ [] → v ∈ l) ∧
    (op = 3 → ∀ x ∈ l, v ≤ x) ∧ (op = 3 → l ≠ [] → v ∈ l) ∧ (op = 4 → ∀ x ∈ l, x ≤ v) ∧ (op = 4 → l ≠ [] → v ∈ l) ∧
    (op = 5 → l ≠ [] → ∀ j, v.testBit j = l.all (fun x => x.testBit j)) ∧ (op = 6 → ∀ j, v.testBit j = l.any (fun x => x.testBit j)) ∧
    (op = 7 → ∀ j, v.testBit j = decide ((l.filter (fun x => x.testBit j)).length % 2 = 1)) ∧ (l = [] → v = 0) := by
  obtain ⟨rfl, rfl⟩ | ⟨hne, hv⟩ := h
  · simp
  · refine ⟨?_, ?_, ?_, ?_, ?_, ?_, ?_, ?_, ?_, ?_, ?_, ?_, fun h => absurd h hne⟩ <;> rintro rfl
    · exact hv
    · exact hv.2
    · exact fun _ => hv.1
    · exact hv.2
    · exact fun _ => hv.1
    · exact hv.2
    · exact fun _ => hv.1
    · exact hv.2
    · exact fun _ => hv.1
    · exact fun _ => hv
    · exact hv
    · exact hv

theorem reductions_of_lanes (f : FmtAVS) (s : State) (ha : s.accepts (.vred f)) (hready : vecReady s [f.va.toNat]) :
    let op := f.imm.toNat
    let n := lanesOf s.cx.long f.t
    let rm := RoundMode.ofCode s.cx.rm f.mod.toNat
    let b := laneBits f.t
    let sx := fun v : Nat => ((BitVec.ofNat b v).signExtend 64).toNat
    ¬ ((f.t = 0 ∨ f.t = 1) ∧ op = 0 ∧ rm = .sr) → ∃ u v, exec (.vred f) s = .next u ∧ (∀ r, r ≠ f.xd → u.x r = s.x r) ∧ u.x f.xd = (if f.xd = 0 then 0 else BitVec.ofNat 64 v) ∧
      (∀ r, u.k r = s.k r) ∧ (∀ r, u.ownVec r = s.ownVec r) ∧ (∀ a, u.mem.read a = s.mem.read a) ∧
      ((f.t = 0 ∨ f.t = 1) → v = (pairTree (reduceStep f.t op rm 64) 8 ((List.range n).map (fun l => if laneEnabled f.me f.km f.t s l then some (laneOf s f.t f.va.toNat l) else none))).getD 0) ∧
      ((f.t = 2 ∨ f.t = 3) →
        let raw := enabledLanes (f.me, f.km) f.t s f.va.toNat n id
        let low := enabledLanes (f.me, f.km) f.t s f.va.toNat n sx
        (op = 0 → v = low.sum % 2 ^ 64) ∧
        (op = 1 → ∀ x ∈ low, (BitVec.ofNat 64 v).toInt ≤ (BitVec.ofNat 64 x).toInt) ∧ (op = 1 → low ≠ [] → v ∈ low) ∧
        (op = 2 → ∀ x ∈ low, (BitVec.ofNat 64 x).toInt ≤ (BitVec.ofNat 64 v).toInt) ∧ (op = 2 → low ≠ [] → v ∈ low) ∧
        (op = 3 → ∀ x ∈ raw, v ≤ x) ∧ (op = 3 → raw ≠ [] → v ∈ raw) ∧ (op = 4 → ∀ x ∈ raw, x ≤ v) ∧ (op = 4 → raw ≠ [] → v ∈ raw) ∧
        (op = 5 → raw ≠ [] → ∀ j, v.testBit j = raw.all (fun x => x.testBit j)) ∧ (op = 6 → ∀ j, v.testBit j = raw.any (fun x => x.testBit j)) ∧
        (op = 7 → ∀ j, v.testBit j = decide ((raw.filter (fun x => x.testBit j)).length % 2 = 1)) ∧ (raw = [] → v = 0)) := by
  intro op n rm b sx hsr
  obtain ⟨u, hu, hxd, hx, hk, hv, hmem⟩ := vred_writes ha hready hsr
  refine ⟨u, s.reduced f rm, hu, hx, hxd, hk, hv, hmem, fun hf => ?_, fun hi => ?_⟩
  · have hext : extendLane f.t f.imm.toNat = id := funext fun v => if_pos (by rw [floatLane_iff.2 hf, Bool.true_or])
    rw [State.reduced, hext]
    rfl
  · intro raw low
    have hft : floatLane f.t = false := by
      obtain h | h := hi <;> rw [h] <;> rfl
    have hempty : raw = [] ↔ low = [] := List.map_eq_nil_iff.trans List.map_eq_nil_iff.symm
    by_cases hop : op < 3
    · have hext : extendLane f.t f.imm.toNat = sx := funext fun v => by
        rw [extendLane, hft, if_neg (by simpa using hop), sextWord_low (laneBits_le f.t)]
      have hlow : s.reducedLanes f = low := by
        rw [State.reducedLanes, hext]
        rfl
      obtain ⟨h0, h1, h1m, h2, h2m, -, -, -, -, -, -, -, hnil⟩ := reduceValue_claims (hlow ▸ reduced_integer (s := s) hft rm)
      exact ⟨h0, h1, h1m, h2, h2m, by omega, by omega, by omega, by omega, by omega, by omega, by omega, fun h => hnil (hempty.1 h)⟩
    · have hext : extendLane f.t f.imm.toNat = id := funext fun v => if_pos (by simpa [hft] using hop)
      have hraw : s.reducedLanes f = raw := by
        rw [State.reducedLanes, hext]
        rfl
      obtain ⟨-, -, -, -, -, h3, h3m, h4, h4m, h5, h6, h7, hnil⟩ := reduceValue_claims (hraw ▸ reduced_integer (s := s) hft rm)
      exact ⟨by omega, by omega, by omega, by omega, by omega, h3, h3m, h4, h4m, h5, h6, h7, hnil⟩

/-! ### `vscan` (R363) -/

/-- The chain of the lanes below a lane that take part. -/
def chainBelow (op : Nat → Nat → Nat) (on : Nat → Bool) (a : Nat → Nat) : Nat → Option Nat
  | 0 => none
  | l + 1 => if on l then some (match chainBelow op on a l with
      | none => a l
      | some x => op x (a l)) else chainBelow op on a l

section
variable {op : Nat → Nat → Nat} {on : Nat → Bool} {a old : Nat → Nat}

theorem chainBelow_none {l : Nat} (h : onCount on l = 0) : chainBelow op on a l = none := by
  induction l with
  | zero => rfl
  | succ l ih =>
    rw [onCount_succ] at h
    have hoff : ¬on l = true := fun hon => by
      rw [if_pos hon] at h
      omega
    rw [chainBelow, if_neg hoff, ih (by omega)]

theorem chainBelow_between {p l : Nat} (hp : p < l) (hoff : ∀ q, p < q → q < l → on q = false) : chainBelow op on a l = chainBelow op on a (p + 1) := by
  induction l with
  | zero => omega
  | succ l ih =>
    by_cases hl : p = l
    · rw [hl]
    · rw [chainBelow, hoff l (by omega) (by omega), if_neg Bool.false_ne_true, ih (by omega) (fun q h h' => hoff q h (by omega))]

/-- A scan leaves in each lane that takes part the chain up to it. -/
theorem scanLanes_eq : ∀ n k, scanLanes op on a old (List.range' k n) (chainBelow op on a k) = (List.range' k n).map (fun l => if on l then (chainBelow op on a (l + 1)).getD 0 else old l)
  | 0, _ => rfl
  | n + 1, k => by
    have ih := scanLanes_eq n (k + 1)
    rw [List.range'_succ, List.map_cons, ← ih]
    have hfirst : ∀ p, scanLanes op on a old (k :: List.range' (k + 1) n) p = if on k then _ else _ := fun _ => rfl
    by_cases hon : on k = true
    · rw [hfirst, if_pos hon, if_pos hon, chainBelow, if_pos hon]
      rfl
    · rw [hfirst, if_neg hon, if_neg hon, chainBelow, if_neg hon]

theorem chainBelow_lt {n : Nat} (ha : ∀ l, a l < n) (hop : ∀ x y, x < n → y < n → op x y < n) : ∀ l v, chainBelow op on a l = some v → v < n
  | 0, _, h => by cases h
  | l + 1, v, h => by
    rw [chainBelow] at h
    split at h
    · cases hc : chainBelow op on a l with
      | none =>
        rw [hc] at h
        exact Option.some.inj h ▸ ha l
      | some x =>
        rw [hc] at h
        exact Option.some.inj h ▸ hop _ _ (chainBelow_lt ha hop l x hc) (ha l)
    · exact chainBelow_lt ha hop l v h

end

theorem reduceStep_lt {t : BitVec 2} (op : Nat) (rm : RoundMode) {x y : Nat} (hx : x < 2 ^ laneBits t) (hy : y < 2 ^ laneBits t) : reduceStep t op rm (laneBits t) x y < 2 ^ laneBits t := by
  unfold reduceStep
  split
  next hf => split <;> exact laneFmt_round_lt hf _ _ _
  next =>
    split
    · exact Nat.mod_lt _ (Nat.two_pow_pos _)
    · exact ite_lt_of_lt hx hy
    · exact ite_lt_of_lt hy hx
    · exact lt_of_le_of_lt (Nat.min_le_left _ _) hx
    · exact max_lt hx hy
    · exact Nat.and_lt_two_pow _ hy
    · exact Nat.or_lt_two_pow hx hy
    · exact Nat.xor_lt_two_pow hx hy

section
variable {s : State} {f : FmtAV}

/-- Lane l of a scan. -/
def State.scanned (s : State) (f : FmtAV) (rm : RoundMode) (l : Nat) : Nat :=
  if laneEnabled f.me f.km f.t s l then (chainBelow (reduceStep f.t f.sub.toNat rm (laneBits f.t)) (laneEnabled f.me f.km f.t s) (laneOf s f.t f.va.toNat) (l + 1)).getD 0
  else laneOf s f.t f.vd.toNat l

theorem State.scanned_lt (rm : RoundMode) (l : Nat) : s.scanned f rm l < 2 ^ laneBits f.t := by
  refine ite_lt_of_lt ?_ (laneAt_lt _ _ _)
  cases h : chainBelow (reduceStep f.t f.sub.toNat rm (laneBits f.t)) (laneEnabled f.me f.km f.t s) (laneOf s f.t f.va.toNat) (l + 1) with
  | none => exact Nat.two_pow_pos _
  | some v => exact chainBelow_lt (fun _ => laneAt_lt _ _ _) (fun x y hx hy => reduceStep_lt _ _ hx hy) _ v h

theorem vscan_writes (ha : s.accepts (.vscan f)) (hready : vecReady s [f.va.toNat, f.vd.toNat])
    (h : ¬((f.t = 0 ∨ f.t = 1) ∧ f.sub.toNat = 0 ∧ RoundMode.ofCode s.cx.rm f.mod.toNat = .sr)) :
    ∃ u, exec (.vscan f) s = .next u ∧ vecFrame s u (fun r => r = f.vd.toNat) ∧
      ∀ l, l < lanesOf s.cx.long f.t → laneOf u f.t f.vd.toNat l = s.scanned f (RoundMode.ofCode s.cx.rm f.mod.toNat) l := by
  have hexec : exec (.vscan f) s = s.vecIssue _ := exec_of_slotA (fun _ => rfl) ha
  obtain ⟨u, hu, hissue⟩ := State.vecIssue_of_ready hready
  have hbound : ∀ r ∈ [f.va.toNat, f.vd.toNat], u.streamOf r = none := fun r hr => (hu.streamOf r).trans (hready.2 r hr)
  have hvd : u.streamOf f.vd.toNat = none := hbound _ (by simp)
  let rm := RoundMode.ofCode s.cx.rm f.mod.toNat
  let t := u.setVec f.vd.toNat (packLanes (laneBits f.t) ((List.range (lanesOf u.cx.long f.t)).map (s.scanned f rm)))
  have hkept : VecKept u t := State.vecKept_setVec hvd _
  have hvec : ∀ q, t.ownVec q = if q = f.vd.toNat then packLanes (laneBits f.t) ((List.range (lanesOf u.cx.long f.t)).map (s.scanned f rm)) else u.ownVec q :=
    State.ownVec_setLanes hvd f.t _
  refine ⟨t.fall, hexec.trans (hissue _ t.fall ?_ ?_), vecFrame_of_kept (hu.kept.trans hkept) fun r hr => ?_, fun l hl => ?_⟩
  · have hmode : u.roundMode f.mod = rm := hu.roundMode f.mod
    have hcond : ¬(floatLane f.t && decide (f.sub.toNat = 0) && decide (rm = .sr)) = true := by
      rw [Bool.and_eq_true, Bool.and_eq_true, decide_eq_true_iff, decide_eq_true_iff, floatLane_iff, and_assoc]
      exact h
    simp only [hmode, if_neg hcond]
    have hscan := scanLanes_eq (op := reduceStep f.t f.sub.toNat rm (laneBits f.t)) (on := laneEnabled f.me f.km f.t s) (a := laneOf s f.t f.va.toNat) (old := laneOf s f.t f.vd.toNat)
      (lanesOf s.cx.long f.t) 0
    rw [← List.range_eq_range'] at hscan
    rw [State.withVecs_of_unbound (by simpa using hbound), State.popStreams_of_unbound (fun r hr => hbound r (by simp at hr; simp [hr])), State.laneOn_eq, hu.enabled]
    refine congrArg (fun ls => Host.Outcome.next (u.setVec f.vd.toNat (packLanes (laneBits f.t) ls)).fall) (Eq.trans ?_ (hscan.trans ?_))
    · rw [hu.cx, funext hu.ownVec]
      rfl
    · rw [hu.cx]
      rfl
  · have hcur : s.cur = t.fall.cur := (hkept.cur.trans hu.cur).symm
    rw [hcur]
    exact t.stall_fall
  · rw [hvec, if_neg hr, hu.ownVec]
  · rw [laneOf, State.ownVec_of_fall, hvec, if_pos rfl, laneAt_packLanes (by rwa [hu.cx]) (State.scanned_lt _ _)]

theorem scan_of_lanes (f : FmtAV) (s : State) (ha : s.accepts (.vscan f)) (hready : vecReady s [f.va.toNat, f.vd.toNat]) :
    let op := f.sub.toNat
    let n := lanesOf s.cx.long f.t
    let rm := RoundMode.ofCode s.cx.rm f.mod.toNat
    let on := laneEnabled f.me f.km f.t s
    let src := laneOf s f.t f.va.toNat
    ¬ ((f.t = 0 ∨ f.t = 1) ∧ op = 0 ∧ rm = .sr) → ∃ u, exec (.vscan f) s = .next u ∧ vecFrame s u (fun r => r = f.vd.toNat) ∧
      (∀ l, l < n → on l = false → laneOf u f.t f.vd.toNat l = laneOf s f.t f.vd.toNat l) ∧
      (∀ l, l < n → on l = true → onCount on l = 0 → laneOf u f.t f.vd.toNat l = src l) ∧
      (∀ l p, l < n → p < l → on l = true → on p = true → (∀ q, p < q → q < l → on q = false) →
        laneOf u f.t f.vd.toNat l = reduceStep f.t op rm (laneBits f.t) (laneOf u f.t f.vd.toNat p) (src l)) := by
  intro op n rm on src hsr
  obtain ⟨u, hu, hframe, hlanes⟩ := vscan_writes ha hready hsr
  refine ⟨u, hu, hframe, fun l hl hoff => ?_, fun l hl hon hfirst => ?_, fun l p hl hp hon honp hbetween => ?_⟩
  · rw [hlanes l hl]
    exact if_neg (ne_true_of_eq_false hoff)
  · rw [hlanes l hl, State.scanned, if_pos hon, chainBelow, if_pos hon, chainBelow_none hfirst]
    rfl
  · have hchain : ∃ x, chainBelow (reduceStep f.t op rm (laneBits f.t)) on src (p + 1) = some x := by
      rw [chainBelow, if_pos honp]
      exact ⟨_, rfl⟩
    obtain ⟨x, hx⟩ := hchain
    have hat : laneOf u f.t f.vd.toNat p = x := by
      rw [hlanes p (hp.trans hl), State.scanned, if_pos honp, hx]
      rfl
    rw [hat, hlanes l hl, State.scanned, if_pos hon, chainBelow, if_pos hon, chainBelow_between hp hbetween, hx]
    rfl

end

/-- Settles O26: the tree stands for the lanes that take part, and the scan is their chain. -/
theorem reductionsAndScans : Obligations.ReductionsAndScans :=
  ⟨fun _ _ ha hready h => vred_unsupported ha hready h, reductions_of_lanes, scan_of_lanes⟩

end Sys2Proof.Machine
end

section
/-! SUPPORT. Typed vector loads and stores: R256 to R259, R365 to R369. -/

namespace Sys2Proof.Machine

/-! ### Lanes of a typed load (R367) -/

section
variable {h : TypedHold} {ty : BitVec 2} {n v l : Nat}

theorem fmtBits_pos (fmt : Nat) : 0 < fmtBits fmt := by
  unfold fmtBits
  split <;> decide

theorem splitElems_code {w d k : Nat} (hl : l < n) : (splitElems w n d k v).codes.getD l 0 = v / 2 ^ (w * l) % 2 ^ w := by
  have hlen : l < (unpackLanes w n v).length := by simpa [unpackLanes] using hl
  refine (List.getD_eq_getElem _ _ hlen).trans ?_
  simp [unpackLanes, laneAt]

theorem splitElems_scale {w d k i : Nat} (hi : i < k) : (splitElems w n d k v).scales.getD i 127 = v / 2 ^ (8 * (d + i)) % 256 := by
  have hlen : i < ((List.range k).map (fun i => v / 2 ^ (8 * (d + i)) % 256)).length := by simpa using hi
  refine (List.getD_eq_getElem _ _ hlen).trans ?_
  simp

theorem scaledValue_one (fmt : Nat) (lut : Nat → Int) (c : Nat) : scaledValue fmt lut 127 c = decodeElem fmt lut c := by
  rw [scaledValue, if_neg (by decide)]
  cases decodeElem fmt lut c with
  | fin neg m e => exact congrArg (XNum.fin neg m) (add_zero e)
  | inf neg => rfl
  | nan => rfl

/-- Lane l of a page that is not raw. -/
def TypedHold.lane (h : TypedHold) (ty : BitVec 2) (n v l : Nat) : Nat :=
  if floatLane ty then
    (laneFmt ty).round (scaledValue h.fmt (lutOf h.lutlo h.luthi)
      (if h.geo = 0 then 127 else (splitElems (fmtBits h.fmt) n h.dataLen h.nscales v).scales.getD (l / 32) 127) ((splitElems (fmtBits h.fmt) n h.dataLen h.nscales v).codes.getD l 0)) .rne
  else
    wrapInt (laneBits ty) (min (2 ^ (laneBits ty - 1) - 1) (max (-2 ^ (laneBits ty - 1))
      (if h.fmt = 0x0D then lutOf h.lutlo h.luthi ((splitElems (fmtBits h.fmt) n h.dataLen h.nscales v).codes.getD l 0 % 16)
        else sextNat (fmtBits h.fmt) ((splitElems (fmtBits h.fmt) n h.dataLen h.nscales v).codes.getD l 0))))

theorem TypedHold.lanes_eq (hf : h.fmt ≠ 0) : h.lanes ty n v = packLanes (laneBits ty) ((List.range n).map (h.lane ty n v)) := if_neg hf

theorem TypedHold.lane_lt : h.lane ty n v l < 2 ^ laneBits ty := by
  unfold TypedHold.lane
  split
  next hf => exact laneFmt_round_lt hf _ _ _
  next =>
    rw [wrapInt_eq]
    exact BitVec.isLt _

theorem TypedHold.lane_float (hf : ty = 0 ∨ ty = 1) (hgeo : h.geo = 0) (hl : l < n) :
    h.lane ty n v l = (laneFmt ty).round (decodeElem h.fmt (lutOf h.lutlo h.luthi) (v / 2 ^ (fmtBits h.fmt * l) % 2 ^ fmtBits h.fmt)) .rne := by
  rw [TypedHold.lane, if_pos (floatLane_iff.2 hf), if_pos hgeo, splitElems_code hl, scaledValue_one]

theorem TypedHold.lane_scaled (hf : ty = 0 ∨ ty = 1) (hgeo : h.geo ≠ 0) (hl : l < n) (hs : l / 32 < h.nscales) :
    h.lane ty n v l = (laneFmt ty).round (scaledValue h.fmt (lutOf h.lutlo h.luthi) (v / 2 ^ (8 * (h.dataLen + l / 32)) % 256)
      (v / 2 ^ (fmtBits h.fmt * l) % 2 ^ fmtBits h.fmt)) .rne := by
  rw [TypedHold.lane, if_pos (floatLane_iff.2 hf), if_neg hgeo, splitElems_code hl, splitElems_scale hs]

theorem TypedHold.lane_integer (hi : ty = 2 ∨ ty = 3) (hlut : h.fmt ≠ 0x0D) (hl : l < n) :
    h.lane ty n v l = (BitVec.ofInt (laneBits ty) (max (-2 ^ (laneBits ty - 1)) (min (2 ^ (laneBits ty - 1) - 1)
      (BitVec.ofNat (fmtBits h.fmt) (v / 2 ^ (fmtBits h.fmt * l) % 2 ^ fmtBits h.fmt)).toInt))).toNat := by
  have hft : ¬floatLane ty = true := by
    obtain rfl | rfl := hi <;> decide
  have hpow : (0 : Int) < 2 ^ (laneBits ty - 1) := by positivity
  rw [TypedHold.lane, if_neg hft, if_neg hlut, splitElems_code hl, wrapInt_eq, sextNat_eq_toInt (fmtBits_pos _), max_min_distrib_left]
  congr 2
  omega

end

/-- The lanes of a number that has been cut to the lanes' bytes. -/
theorem laneAt_mod {b n l v : Nat} (hl : l < n) : laneAt b (v % 2 ^ (b * n)) l = laneAt b v l := by
  have hsplit : b * n = b * l + b * (n - l) := by rw [← Nat.mul_add, Nat.add_sub_cancel' hl.le]
  have hdvd : 2 ^ b ∣ 2 ^ (b * (n - l)) := pow_dvd_pow 2 (Nat.le_mul_of_pos_right b (Nat.sub_pos_of_lt hl))
  rw [laneAt, laneAt, hsplit, pow_add, Nat.mod_mul_right_div_self, Nat.mod_mod_of_dvd _ hdvd]

/-! ### The forms (R316) -/

section
variable {s : State} {rt : BitVec 5} {ty : BitVec 2} {va : Nat}

theorem exec_typedForm {i : Instr} {ld : Bool} (h : typedForm i s = some (ld, rt, ty, va)) (ha : s.accepts i) : exec i s = if ld then s.typedLoad rt ty va else s.typedStore rt ty va := by
  unfold typedForm at h
  split at h
  case h_5 => cases h
  all_goals
    cases h
    exact exec_of_slotC (fun _ => rfl) ha

section
variable (hs : s.streamOf rt.toNat = none)
include hs

theorem State.typedLoad_of_unbound : s.typedLoad rt ty va =
    s.holding va (fun c => accSyndrome c .read 1 0)
      (fun s => s.orHalt (s.typedPlan s.cur va (lanesOf s.cx.long ty) ty s.vecBytes false) fun p =>
        match s.homeRuns (p.pieces.map (fun x => (x.gpa, x.len))) with
        | [] => .next (s.stallOn 0)
        | q :: qs => .next ((s.upd (fun c => { c with typed := p.held s.core })).holdFor { kind := .load, va := va, gpa := q.1, size := q.2, more := qs }))
      (fun v => .next (s.setVec rt.toNat (s.cx.typed.lanes ty (lanesOf s.cx.long ty) v)).fall) :=
  State.withVecs_of_unbound (by simpa using hs) _

theorem State.typedStore_of_unbound : s.typedStore rt ty va =
    s.orHalt (s.typedPlan s.cur va (lanesOf s.cx.long ty) ty s.vecBytes true) fun p =>
      match typedBytes p ty (RoundMode.ofCode s.cx.rm s.cx.rm) (lanesOf s.cx.long ty) s.seed (s.ownVec rt.toNat) with
      | none => s.faultC .srSeed
      | some (v, seed) =>
        let ps := s.homeCuts (p.pieces.map (fun q => (q.va, q.gpa, q.len)))
        if ps.any (fun q => s.unackFull q.2.1) then .next (s.stallOn 0)
        else
          let s1 := s.issuePieces .store ps v
          .next ((s1.popStreams [rt.toNat]).setSeed seed).fall :=
  State.withVecs_of_unbound (by simpa using hs) _

/-- A typed load whose plan is good sends its pieces, and keeps what its page was. -/
theorem typedLoad_sends {p : TypedPlan} (hplan : s.typedPlan s.cur va (lanesOf s.cx.long ty) ty s.vecBytes false = .ok p) (hreply : s.cx.reply = none) (hhold : s.cx.hold = none)
    (hruns : s.homeRuns (p.pieces.map (fun q => (q.gpa, q.len))) ≠ []) :
    ∃ t a, s.typedLoad rt ty va = .next t ∧ sentBy s t .load [a] ∧ a.runs = s.homeRuns (p.pieces.map (fun q => (q.gpa, q.len))) ∧ t.cx.hold = some a.id ∧ t.cx.typed = p.held s.core ∧
      t.cx.pc = s.cx.pc ∧ quiet s t := by
  rw [State.typedLoad_of_unbound hs]
  cases hq : s.homeRuns (p.pieces.map (fun q => (q.gpa, q.len))) with
  | nil => exact absurd hq hruns
  | cons q qs =>
    let u := s.upd (fun c => { c with typed := p.held s.core })
    let a : Access := { kind := .load, va := va, gpa := q.1, size := q.2, more := qs }
    have hu : u.cx = { s.cx with typed := p.held s.core } := State.cx_upd _ _
    obtain ⟨⟨hnet, hsent⟩, hheld, hpc, -⟩ := holdFor_sends (s := u) (a := a) rfl
    refine ⟨u.holdFor a, u.flightOf a, ?_, ⟨hnet, fun b hb => ?_⟩, rfl, hheld, ?_, hpc.trans (by rw [hu]), ?_⟩
    · simp only [State.holding, hreply, hhold, State.orHalt, hplan, hq]
      rfl
    · obtain ⟨hkind, hfiring, hctx, hres⟩ := hsent b hb
      exact ⟨hkind, hfiring.trans (by rw [hu]), hctx, hres⟩
    · rw [State.cx_holdFor, hu]
    · refine quiet_of_seen ?_ (fun _ => rfl) (othersKept_of fun i hi => ?_) rfl
      · rw [State.cx_holdFor, hu]
        rfl
      · have hothers : u.ctxOf i = s.ctxOf i := State.ctxOf_updCtx_other s _ hi
        exact (State.ctxOf_updCtx_other ((u.launchAccess a).upd (fun c => { c with hold := some u.nextAcc })) _ hi).trans
          ((State.ctxOf_updCtx_other (u.launchAccess a) _ hi).trans hothers)

/-- A typed load that has its bytes writes its lanes. -/
theorem typedLoad_writes {v : Nat} (hreply : s.cx.reply = some (.value v)) :
    ∃ t, s.typedLoad rt ty va = .next t ∧ vecFrame s t (fun r => r = rt.toNat) ∧
      ∀ l, l < lanesOf s.cx.long ty → laneOf t ty rt.toNat l = laneAt (laneBits ty) (s.cx.typed.lanes ty (lanesOf s.cx.long ty) v % 2 ^ (8 * s.vecBytes)) l := by
  rw [State.typedLoad_of_unbound hs]
  refine ⟨(s.setVec rt.toNat (s.cx.typed.lanes ty (lanesOf s.cx.long ty) v)).fall, by simp only [State.holding, hreply], vecFrame_of_kept (s.vecKept_setVec hs _) fun r hr => ?_, fun l _ => ?_⟩
  · rw [State.ownVec_setVec hs, if_neg hr]
  · rw [laneOf, State.ownVec_of_fall, State.ownVec_setVec hs, if_pos rfl]

/-- A typed store that has room leaves in its pieces, and keeps the generator that its roundings left. -/
theorem typedStore_leaves {p : TypedPlan} {v seed : Nat} (hplan : s.typedPlan s.cur va (lanesOf s.cx.long ty) ty s.vecBytes true = .ok p)
    (hbytes : typedBytes p ty (RoundMode.ofCode s.cx.rm s.cx.rm) (lanesOf s.cx.long ty) s.seed (s.ownVec rt.toNat) = some (v, seed))
    (hroom : (s.homeCuts (p.pieces.map (fun q => (q.va, q.gpa, q.len)))).any (fun q => s.unackFull q.2.1) = false) :
    ∃ t l, s.typedStore rt ty va = .next t ∧ sentBy s t .store l ∧ l.map (fun a => (a.va, a.gpa, a.size)) = s.homeCuts (p.pieces.map (fun q => (q.va, q.gpa, q.len))) ∧
      accessData l = v % 2 ^ (8 * ((s.homeCuts (p.pieces.map (fun q => (q.va, q.gpa, q.len)))).map (fun q => q.2.2)).sum) ∧ t.core.seed = BitVec.ofNat 64 seed ∧ t.cx.pc = s.fall.cx.pc ∧ quiet s t := by
  rw [State.typedStore_of_unbound hs]
  obtain ⟨l, hleft, hplaces, hdata⟩ := s.issuePieces_leave .store (s.homeCuts (p.pieces.map (fun q => (q.va, q.gpa, q.len)))) v
  let s1 := s.issuePieces .store (s.homeCuts (p.pieces.map (fun q => (q.va, q.gpa, q.len)))) v
  have hpop : s1.popStreams [rt.toNat] = s1 := State.popStreams_of_unbound (by simpa [s1, hleft.streamOf] using hs)
  obtain ⟨hsent, -, -⟩ := hleft.falls
  refine ⟨(s1.setSeed seed).fall, l, ?_, hsent, hplaces, hdata, ?_, State.pc_fall_of_flow (hleft.part Ctx.flow (fun _ _ _ _ => rfl)),
    quiet_fall hleft.cur (quiet_updCurCore hleft.isQuiet _)⟩
  · simp only [State.orHalt, hplan, hbytes, hroom]
    rw [if_neg Bool.false_ne_true, hpop]
  · rw [State.core_fall, State.setSeed, State.core_updCurCore]

end
end

theorem laneFmt_qnan_of_nan (t : BitVec 2) (rm : RoundMode) : (laneFmt t).round .nan rm = (laneFmt t).qnan := by
  obtain h | h := laneFmt_cases t <;> rw [h] <;> rfl

theorem typedBytes_raw {p : TypedPlan} {t : BitVec 2} {rm : RoundMode} {n seed w v seed' : Nat} (hp : p.fmt = 0) (h : typedBytes p t rm n seed w = some (v, seed')) : v = w ∧ seed' = seed := by
  rw [typedBytes, if_pos hp] at h
  cases h
  exact ⟨rfl, rfl⟩

/-- Settles O28: a load by its plan, its wait and the lanes of its bytes, a store by the bytes that leave. -/
theorem typedAccessesConvertElements : Obligations.TypedAccessesConvertElements := by
  unfold Obligations.TypedAccessesConvertElements
  intro i s ld rt ty va hi ha hs n b plan
  rw [exec_typedForm hi ha]
  refine ⟨fun c a y hplan hready => ?_, ?_, ?_⟩
  · cases ld with
    | true =>
      obtain ⟨hr, hh⟩ := hready rfl
      rw [if_pos rfl, State.typedLoad_of_unbound hs]
      simp only [State.holding, hr, hh, State.orHalt, show s.typedPlan s.cur va (lanesOf s.cx.long ty) ty s.vecBytes false = _ from hplan]
    | false =>
      rw [if_neg Bool.false_ne_true, State.typedStore_of_unbound hs]
      simp only [State.orHalt, show s.typedPlan s.cur va (lanesOf s.cx.long ty) ty s.vecBytes true = _ from hplan]
  · rintro rfl
    rw [if_pos rfl]
    refine ⟨fun hr hh => ?_, fun p hplan hr hh hruns => typedLoad_sends hs hplan hr hh hruns, ?_⟩
    · obtain ⟨id, hid⟩ := Option.isSome_iff_exists.1 hh
      rw [State.typedLoad_of_unbound hs]
      simp only [State.holding, hr, hid]
    · intro v hv h value
      obtain ⟨t, ht, ⟨hx, -, hothers, hpc, -, -, -, -, hmem⟩, hlanes⟩ := typedLoad_writes (ty := ty) (va := va) hs hv
      have hwidth : laneBits ty * n = 8 * s.vecBytes := laneBits_mul_lanesOf s ty
      have hlane : h.fmt ≠ 0 → ∀ l, l < n → laneOf t ty rt.toNat l = h.lane ty n v l := fun hf l hl => by
        rw [hlanes l hl, TypedHold.lanes_eq hf, Nat.mod_eq_of_lt (packLanes_lt_bytes s ty _), laneAt_packLanes hl TypedHold.lane_lt]
      refine ⟨t, ht, hothers, hx, hpc, hmem, fun hf l hl => ?_, fun hf hgeo l hl => ⟨fun hfl => ?_, fun hil hlut => ?_⟩, fun hf hgeo hfl l hl hs32 => ⟨fun h255 => ?_, fun h255 => ?_⟩⟩
      · have hraw : s.cx.typed.lanes ty (lanesOf s.cx.long ty) v = v := if_pos hf
        rw [hlanes l hl, hraw, ← hwidth]
        exact laneAt_mod hl
      · exact (hlane hf l hl).trans (TypedHold.lane_float hfl hgeo hl)
      · exact (hlane hf l hl).trans (TypedHold.lane_integer hil hlut hl)
      · rw [hlane hf l hl, TypedHold.lane_scaled hfl hgeo hl hs32, scaledValue, if_pos h255]
        exact laneFmt_qnan_of_nan ty _
      · rw [hlane hf l hl, TypedHold.lane_scaled hfl hgeo hl hs32, scaledValue, if_neg h255]
        rfl
  · rintro rfl p hplan ps bytes
    rw [if_neg Bool.false_ne_true]
    refine ⟨fun hnone => ?_, fun v seed hsome => ⟨fun hfull => ?_, fun hroom => ?_⟩⟩
    · rw [State.typedStore_of_unbound hs]
      simp only [State.orHalt, show s.typedPlan s.cur va (lanesOf s.cx.long ty) ty s.vecBytes true = _ from hplan,
        show typedBytes p ty (RoundMode.ofCode s.cx.rm s.cx.rm) (lanesOf s.cx.long ty) s.seed (s.ownVec rt.toNat) = _ from hnone]
    · rw [State.typedStore_of_unbound hs]
      simp only [State.orHalt, show s.typedPlan s.cur va (lanesOf s.cx.long ty) ty s.vecBytes true = _ from hplan,
        show typedBytes p ty (RoundMode.ofCode s.cx.rm s.cx.rm) (lanesOf s.cx.long ty) s.seed (s.ownVec rt.toNat) = _ from hsome]
      exact if_pos hfull
    · obtain ⟨t, l, ht, hsent, hplaces, hdata, hseed, hpc, hquiet⟩ := typedStore_leaves hs hplan hsome hroom
      exact ⟨t, l, ht, hsent, hplaces, hdata, hseed, hpc, hquiet, fun hp => typedBytes_raw hp hsome⟩

end Sys2Proof.Machine
end

section
/-! SUPPORT. The operations of the machine that leave memory as it is (R314): what a state, an outcome or an item of an operation has in memory, and one
fact for every operation on the state that writes no byte. -/

namespace Sys2Proof.Machine

/-- Memory meets P in the state that an outcome goes on in. -/
def HoldsAfter (P : Memory → Prop) : Out → Prop
  | .next t => P t.mem
  | _ => True

/-- Memory meets P in the state that an operation answers, where it answers one. -/
def HoldsIf (P : Memory → Prop) : Option State → Prop
  | some t => P t.mem
  | none => True

/-- Memory meets P in the state that an item of an operation answers or leaves behind. -/
def HoldsIn (P : Memory → Prop) {α : Type} (f : α → State) : Except OpStop α → Prop
  | .ok a => P (f a).mem
  | .error (.part _ _ t) => P t.mem
  | .error _ => True

section
variable {P : Memory → Prop}

@[simp] theorem holdsAfter_next (t : State) : HoldsAfter P (.next t) ↔ P t.mem := Iff.rfl
@[simp] theorem holdsAfter_fault (e : Fault) : HoldsAfter P (.fault e) := trivial
@[simp] theorem holdsAfter_refused (r : Refusal) : HoldsAfter P (.refused r) := trivial
@[simp] theorem holdsAfter_ite (c : Prop) [Decidable c] (a b : Out) : HoldsAfter P (if c then a else b) ↔ (c → HoldsAfter P a) ∧ (¬c → HoldsAfter P b) := by
  split <;> simp_all
@[simp] theorem holdsIf_some (t : State) : HoldsIf P (some t) ↔ P t.mem := Iff.rfl
@[simp] theorem holdsIf_none : HoldsIf P none := trivial
@[simp] theorem holdsIf_ite (c : Prop) [Decidable c] (a b : Option State) : HoldsIf P (if c then a else b) ↔ (c → HoldsIf P a) ∧ (¬c → HoldsIf P b) := by
  split <;> simp_all

theorem HoldsIf.bind {o : Option State} {k : State → Option State} (h : HoldsIf P o) (hk : ∀ u, P u.mem → HoldsIf P (k u)) : HoldsIf P (o.bind k) := by
  cases o
  · trivial
  · exact hk _ h

theorem HoldsIf.map {o : Option State} {g : State → State} (h : HoldsIf P o) (hg : ∀ u, P u.mem → P (g u).mem) : HoldsIf P (o.map g) := by
  cases o
  · trivial
  · exact hg _ h

theorem HoldsIf.getD {o : Option State} {u : State} (h : HoldsIf P o) (hu : P u.mem) : P (o.getD u).mem := by
  cases o
  · exact hu
  · exact h

theorem HoldsAfter.of_eq {o : Out} {t : State} (h : HoldsAfter P o) (ho : o = .next t) : P t.mem := by rwa [ho] at h
theorem HoldsIf.of_eq {o : Option State} {t : State} (h : HoldsIf P o) (ho : o = some t) : P t.mem := by rwa [ho] at h

theorem HoldsIn.ok {α : Type} {f : α → State} {r : Except OpStop α} {a : α} (h : HoldsIn P f r) (hr : r = .ok a) : P (f a).mem := by rwa [hr] at h
/-- What stops one part of an item stops the item. -/
theorem HoldsIn.error {α β : Type} {f : α → State} {g : β → State} {r : Except OpStop α} {e : OpStop} (h : HoldsIn P f r) (hr : r = .error e) :
    HoldsIn P g (.error e) := by
  rw [hr] at h
  cases e <;> exact h

end

/-! ### States -/

@[simp] theorem State.mem_ite (c : Prop) [Decidable c] (a b : State) : (if c then a else b).mem = if c then a.mem else b.mem := apply_ite _ _ _ _

/-- A fold of steps that leave memory leaves memory. -/
@[simp] theorem State.mem_foldl {α : Type} {g : State → α → State} (hg : ∀ s a, (g s a).mem = s.mem) (l : List α) (s : State) : (l.foldl g s).mem = s.mem := by
  induction l generalizing s with
  | nil => rfl
  | cons a l ih => rw [List.foldl_cons, ih, hg]

/-- A fold of steps that keep a property of memory keeps it. -/
theorem State.holds_foldl {P : Memory → Prop} {α : Type} {g : State → α → State} (hg : ∀ s a, P s.mem → P (g s a).mem) (l : List α) {s : State} (hs : P s.mem) :
    P (l.foldl g s).mem :=
  List.foldlRecOn (motive := fun u : State => P u.mem) l g hs fun u hu a _ => hg u a hu

theorem Told.mem {s t : State} (h : Told s t) : t.mem = s.mem := h.part State.mem (fun _ => rfl)

section
variable (s : State) {P : Memory → Prop}

@[simp] theorem State.mem_takeSeq (f : Nat) : (s.takeSeq f).2.mem = s.mem := (s.told_takeSeq f).mem
@[simp] theorem State.mem_report (f : Nat) (cause : Cause) (tag : Nat) (items tags : List Nat) : (s.report f cause tag items tags).mem = s.mem :=
  (s.told_report f cause tag items tags).mem
@[simp] theorem State.mem_reportTo (f : Nat) (cause : Cause) (tag : Nat) (items : List Nat) : (s.reportTo f cause tag items).mem = s.mem :=
  (s.told_reportTo f cause tag items).mem
@[simp] theorem State.mem_reportField (f : Nat) (cause : Cause) (items : List Nat) : (s.reportField f cause items).mem = s.mem :=
  (s.told_reportField f cause items).mem
@[simp] theorem State.mem_reportRail (a : Nat) (cause : Cause) : (s.reportRail a cause).mem = s.mem := (s.told_reportRail a cause).mem
@[simp] theorem State.mem_wrapMessage (kind unit n : Nat) (c : Counter) : (s.wrapMessage kind unit n c).mem = s.mem :=
  (s.told_wrapMessage kind unit n c).mem
@[simp] theorem State.mem_powerMessage (t cls reason oldh newh hclass effect : Nat) : (s.powerMessage t cls reason oldh newh hclass effect).mem = s.mem :=
  (s.told_powerMessage t cls reason oldh newh hclass effect).mem

/-! ### Machine/Ops -/

@[simp] theorem State.mem_updFiring (n : Nat) (f : Ctx → Ctx) : (s.updFiring n f).mem = s.mem := by simp [State.updFiring]
@[simp] theorem State.mem_setK (r : Nat) (v : Word) : (s.setK r v).mem = s.mem := by simp [State.setK]
@[simp] theorem State.mem_retire (npc : Word) : (s.retire npc).mem = s.mem := by simp [State.retire]
@[simp] theorem State.mem_fall : s.fall.mem = s.mem := by simp [State.fall]
@[simp] theorem State.mem_branch (target : Word) : (s.branch target).mem = s.mem := by simp [State.branch]
@[simp] theorem State.mem_stallOn (wait : Cause) : (s.stallOn wait).mem = s.mem := by simp [State.stallOn]
@[simp] theorem State.mem_updActor (core a : Nat) (f : Actor → Actor) : (s.updActor core a f).mem = s.mem := by simp [State.updActor]
@[simp] theorem State.mem_updPort (core a p : Nat) (f : Port → Port) : (s.updPort core a p f).mem = s.mem := by simp [State.updPort]
@[simp] theorem State.mem_postHw (f : Nat) (m : Msg) : (s.postHw f m).mem = s.mem := by simp [State.postHw]
@[simp] theorem State.mem_keepRecent (m : Msg) : (s.keepRecent m).mem = s.mem := by simp [State.keepRecent]
@[simp] theorem State.mem_toFirmware (m : Msg) : (s.toFirmware m).mem = s.mem := by simp [State.toFirmware]
@[simp] theorem State.mem_toPlatform (m : Msg) : (s.toPlatform m).mem = s.mem := by simp [State.toPlatform]
@[simp] theorem State.mem_eventFrame (tags body : List Nat) : (s.eventFrame tags body).mem = s.mem := by simp [State.eventFrame]
@[simp] theorem State.mem_postFor (i : Nat) (c : Ctx) (kind : Nat) (cause : Cause) (slotA gpa : Bool) (op : Nat) (pc : Word) (addr synd cursor : Nat) :
    (s.postFor i c kind cause slotA gpa op pc addr synd cursor).mem = s.mem := by
  unfold State.postFor
  repeat' split
  all_goals simp

@[simp] theorem State.mem_postPacket (i kind : Nat) (cause : Cause) (slotA : Bool) (op : Nat) (pc : Word) (addr synd cursor : Nat) (gpa : Bool) :
    (s.postPacket i kind cause slotA op pc addr synd cursor gpa).mem = s.mem := by
  simp [State.postPacket]
@[simp] theorem State.mem_postFreeze (i : Nat) (c : Ctx) (cause : Cause) (slotA gpa : Bool) (addr synd : Nat) :
    (s.postFreeze i c cause slotA gpa addr synd).mem = s.mem := by
  simp [State.postFreeze]
@[simp] theorem State.mem_leaveBarriers (n : Nat) : (s.leaveBarriers n).mem = s.mem := by simp [State.leaveBarriers]
@[simp] theorem State.mem_leaveSemQueues (i : Nat) : (s.leaveSemQueues i).mem = s.mem := by simp [State.leaveSemQueues]
@[simp] theorem State.mem_freeze (s0 : State) (i : Nat) (e : FaultAt) : (s0.freeze i e).mem = s0.mem := by simp [State.freeze]

/-! ### Machine/Count -/

@[simp] theorem State.mem_countCore (core : Nat) (c : Option Nat) (ev n : Nat) : (s.countCore core c ev n).mem = s.mem := by simp [State.countCore]
@[simp] theorem State.mem_countSlice (tile tag ev n : Nat) : (s.countSlice tile tag ev n).mem = s.mem := by simp [State.countSlice]
@[simp] theorem State.mem_countFabric (f ev n : Nat) : (s.countFabric f ev n).mem = s.mem := by simp [State.countFabric]
@[simp] theorem State.mem_updCounter (kind unit n : Nat) (g : Counter → Counter) : (s.updCounter kind unit n g).mem = s.mem := by
  unfold State.updCounter; split <;> simp
@[simp] theorem State.mem_wrapCounter (kind unit : Nat) (s : State) (n : Nat) : (State.wrapCounter kind unit s n).mem = s.mem := by
  simp [State.wrapCounter]
@[simp] theorem State.mem_wrapAll : s.wrapAll.mem = s.mem := by simp [State.wrapAll]

/-! ### Machine/Translate -/

@[simp] theorem State.mem_fieldView (core : Nat) : (s.fieldView core).mem = s.mem := by simp [State.fieldView]

/-! ### Machine/Operands -/

@[simp] theorem State.mem_popStreams (rs : List Nat) : (s.popStreams rs).mem = s.mem :=
  State.mem_foldl (fun _ _ => by
    split
    · rfl
    · split <;> simp) _ _

@[simp] theorem State.mem_setVec (r v : Nat) : (s.setVec r v).mem = s.mem := by
  unfold State.setVec
  repeat' split
  all_goals simp
@[simp] theorem State.mem_setSeed (v : Nat) : (s.setSeed v).mem = s.mem := by simp [State.setSeed]

/-! ### Machine/Pace -/

@[simp] theorem State.mem_heldByPace (wait : Cause) : (s.heldByPace wait).mem = s.mem := by simp [State.heldByPace]

/-! ### Machine/Access -/

@[simp] theorem State.mem_startMisses (tag : Nat) (ls : List Nat) : (s.startMisses tag ls).mem = s.mem := by simp [State.startMisses]
@[simp] theorem State.mem_countHome (tag g : Nat) (ms : List Nat) : (s.countHome tag g ms).mem = s.mem := by unfold State.countHome; split <;> simp
@[simp] theorem State.mem_endMiss (l : Nat) : (s.endMiss l).mem = s.mem := by simp [State.endMiss]
@[simp] theorem State.mem_launchAccess (a : Access) : (s.launchAccess a).mem = s.mem := by simp [State.launchAccess]
@[simp] theorem State.mem_holdFor (a : Access) : (s.holdFor a).mem = s.mem := by simp [State.holdFor]
@[simp] theorem State.mem_issueStore (a : Access) : (s.issueStore a).mem = s.mem := by simp [State.issueStore]
@[simp] theorem State.mem_issuePieces (kind : AccKind) : ∀ (ps : List (Nat × Nat × Nat)) (v : Nat) (s : State), (s.issuePieces kind ps v).mem = s.mem
  | [], _, _ => rfl
  | _ :: ps, _, _ => by rw [State.issuePieces, State.mem_issuePieces kind ps, State.mem_issueStore]
@[simp] theorem State.mem_countScope (scope : Nat) : (s.countScope scope).mem = s.mem := by simp [State.countScope]
@[simp] theorem State.mem_noteRead (src tag : Nat) (raw : Bool) (s : State) (p : Nat × Nat) : (State.noteRead src tag raw s p).mem = s.mem := by
  unfold State.noteRead
  repeat' split
  all_goals simp
@[simp] theorem State.mem_noteReads (src tag : Nat) (runs : List (Nat × Nat)) (raw : Bool) : (s.noteReads src tag runs raw).mem = s.mem := by
  simp [State.noteReads]
@[simp] theorem State.mem_pairPost (n ch : Nat) (s : State) (r : Nat × Nat × Nat) : (State.pairPost n ch s r).mem = s.mem := by
  simp only [State.pairPost]
  repeat' split
  all_goals simp
@[simp] theorem State.mem_pairRuns (n ch src : Nat) (runs : List (Nat × Nat)) (v : Nat) : (s.pairRuns n ch src runs v).2.mem = s.mem := by
  unfold State.pairRuns
  split
  · rfl
  · exact List.foldlRecOn (motive := fun p : Nat × Nat × State => p.2.2.mem = s.mem) runs _ rfl (fun p hp g _ => by
      simp only
      split
      · exact (State.mem_pairPost _ _ _ _).trans hp
      · exact hp)

@[simp] theorem State.mem_ownPosts (runs : List (Nat × Nat)) : (s.ownPosts runs).mem = s.mem := by simp [State.ownPosts]
@[simp] theorem State.mem_afterRead (va size : Nat) : (s.afterRead va size).mem = s.mem := by
  unfold State.afterRead
  repeat' split
  all_goals simp
@[simp] theorem State.mem_dropAcc (id : Nat) : (s.dropAcc id).mem = s.mem := by simp [State.dropAcc]

/-! ### Machine/Message -/

@[simp] theorem State.mem_toParkArea (i : Nat) : (s.toParkArea i).mem = s.mem := by simp [State.toParkArea]
@[simp] theorem State.mem_parkFiring (reason : Cause) : (s.parkFiring reason).mem = s.mem := by simp [State.parkFiring]
@[simp] theorem State.mem_updOwnPort (p : Nat) (f : Port → Port) : (s.updOwnPort p f).mem = s.mem := by simp [State.updOwnPort]
@[simp] theorem State.mem_enqueue (vn : Nat) (declared : Bool) (m : Msg) : (s.enqueue vn declared m).mem = s.mem := by simp [State.enqueue]
@[simp] theorem State.mem_spillPorts : s.spillPorts.mem = s.mem := by simp [State.spillPorts]

/-! ### Machine/Header -/

@[simp] theorem State.mem_updLaunch (id : Nat) (g : Launch → Launch) : (s.updLaunch id g).mem = s.mem := by unfold State.updLaunch; split <;> simp
@[simp] theorem State.mem_freeLaunch (id : Nat) : (s.freeLaunch id).mem = s.mem := by simp [State.freeLaunch]
@[simp] theorem State.mem_acceptLaunch (f : Nat) (h : Header) (mask : List Nat) (depth level : Nat) (by_ : Issuer) (shared : Bool) :
    (s.acceptLaunch f h mask depth level by_ shared).2.mem = s.mem := by
  simp [State.acceptLaunch]
@[simp] theorem State.mem_tellParent (e : Launch) (cls : Nat) (words : List Word) : (s.tellParent e cls words).mem = s.mem := by
  unfold State.tellParent; extract_lets
  repeat' split
  all_goals simp +zetaDelta
@[simp] theorem State.mem_endItem (id wid : Nat) (fail : Option Nat) : (s.endItem id wid fail).mem = s.mem := by
  unfold State.endItem
  repeat' split
  all_goals simp
@[simp] theorem State.mem_endHalf (id item wid : Nat) (fail : Option Nat) : (s.endHalf id item wid fail).mem = s.mem := by
  unfold State.endHalf; split <;> simp
@[simp] theorem State.mem_failLaunch (id cause : Nat) : (s.failLaunch id cause).mem = s.mem := by unfold State.failLaunch; split <;> simp

/-! ### Machine/System -/

@[simp] theorem State.mem_cleanLine (l : Nat) : (s.cleanLine l).mem = s.mem := by unfold State.cleanLine; split <;> simp
@[simp] theorem State.mem_dropFetchLine (l va : Nat) : (s.dropFetchLine l va).mem = s.mem := by unfold State.dropFetchLine; split <;> simp
@[simp] theorem State.mem_freeLong (tile firing : Nat) : (s.freeLong tile firing).mem = s.mem := by simp [State.freeLong]

/-! ### Machine/Firing -/

@[simp] theorem State.mem_releaseFoot (tile id : Nat) : (s.releaseFoot tile id).mem = s.mem := by
  unfold State.releaseFoot; extract_lets; split <;> simp +zetaDelta
@[simp] theorem State.mem_leaveWaiters (f n : Nat) : (s.leaveWaiters f n).mem = s.mem := by simp [State.leaveWaiters]
@[simp] theorem State.mem_endCommon (core : Nat) (c : Ctx) : (s.endCommon core c).mem = s.mem := by simp [State.endCommon]
@[simp] theorem State.mem_endFiring (i : Nat) (fail : Option Nat) : (s.endFiring i fail).mem = s.mem := by
  unfold State.endFiring; extract_lets
  repeat' split
  all_goals simp +zetaDelta
@[simp] theorem State.mem_endParked (core key : Nat) (fail : Option Nat) : (s.endParked core key fail).mem = s.mem := by
  unfold State.endParked; extract_lets
  repeat' split
  all_goals simp +zetaDelta

/-! ### Machine/Actor -/

@[simp] theorem State.mem_bounceAt (m : Msg) (cause core : Nat) : (s.bounceAt m cause core).mem = s.mem := by simp [State.bounceAt]
@[simp] theorem State.mem_orphan (core : Nat) (s : State) (m : Msg) : (State.orphan core s m).mem = s.mem := by simp [State.orphan]
@[simp] theorem State.mem_deleteActor (core a : Nat) : (s.deleteActor core a).mem = s.mem := by simp [State.deleteActor]

/-! ### Machine/Pip -/

@[simp] theorem State.mem_makeLease (lender borrower count dur src start : Nat) : (s.makeLease lender borrower count dur src start).mem = s.mem := by
  unfold State.makeLease; split <;> simp
@[simp] theorem State.mem_noticeTile (t newh reason : Nat) (forReq : Option Nat) : (s.noticeTile t newh reason forReq).mem = s.mem := by
  simp [State.noticeTile]
@[simp] theorem State.mem_revoke (f n reason below : Nat) (skip : Option Nat) : (s.revoke f n reason below skip).mem = s.mem := by simp [State.revoke]
@[simp] theorem State.mem_setHolding (t h : Nat) : (s.setHolding t h).mem = s.mem := by simp [State.setHolding]
@[simp] theorem State.mem_recallLease (lender i st : Nat) (forReq : Option Nat) : (s.recallLease lender i st forReq).mem = s.mem := by
  simp [State.recallLease]
@[simp] theorem State.mem_forgetFor (t : Nat) : (s.forgetFor t).mem = s.mem := by simp [State.forgetFor]

/-! ### Machine/Clock -/

@[simp] theorem State.mem_passTime (u : Nat) : (s.passTime u).mem = s.mem := by simp [State.passTime]
@[simp] theorem State.mem_settle (f n : Nat) : (s.settle f n).mem = s.mem := by simp [State.settle]
@[simp] theorem State.mem_restartStalls (f : Nat) : (s.restartStalls f).mem = s.mem := by simp [State.restartStalls]
@[simp] theorem State.mem_relock (f n : Nat) : (s.relock f n).mem = s.mem := by simp [State.relock]
@[simp] theorem State.mem_setClock (f n : Nat) : (s.setClock f n).mem = s.mem := by simp [State.setClock]
@[simp] theorem State.mem_newnWrite (f n : Nat) : (s.newnWrite f n).mem = s.mem := by simp [State.newnWrite]
@[simp] theorem State.mem_fclkctlWrite (f v : Nat) : (s.fclkctlWrite f v).mem = s.mem := by simp [State.fclkctlWrite]
@[simp] theorem State.mem_railvWrite (a v : Nat) : (s.railvWrite a v).mem = s.mem := by simp [State.railvWrite]
@[simp] theorem State.mem_railswWrite (f v : Nat) : (s.railswWrite f v).mem = s.mem := by simp [State.railswWrite]
@[simp] theorem State.mem_stopBallast : s.stopBallast.mem = s.mem := by simp [State.stopBallast]
@[simp] theorem State.mem_revokeAll (n : Nat) : (s.revokeAll n).mem = s.mem := by simp [State.revokeAll]
@[simp] theorem State.mem_measure (a p c : Nat) : (s.measure a p c).mem = s.mem := by simp [State.measure]

/-! ### Machine/Gating -/

@[simp] theorem State.mem_queueWake (t cls : Nat) : (s.queueWake t cls).mem = s.mem := by simp [State.queueWake]
@[simp] theorem State.mem_noteActor (core a : Nat) : (s.noteActor core a).mem = s.mem := by simp [State.noteActor]
@[simp] theorem State.mem_noteActors : s.noteActors.mem = s.mem := by simp [State.noteActors]
@[simp] theorem State.mem_noteIdle : s.noteIdle.mem = s.mem := by simp [State.noteIdle]
@[simp] theorem State.mem_tilepwrWrite (t v : Nat) : (s.tilepwrWrite t v).mem = s.mem := by simp [State.tilepwrWrite]

/-! ### Machine/Elements -/

@[simp] theorem State.mem_operandHold : s.operandHold.mem = s.mem := by simp [State.operandHold]

/-! ### Machine/Atlas -/

@[simp] theorem State.mem_putNode (f n : Nat) (new : AtlasRec) : (s.putNode f n new).mem = s.mem := by simp [State.putNode]
@[simp] theorem State.mem_setNode (f n : Nat) (g : AtlasRec → AtlasRec) : (s.setNode f n g).mem = s.mem := by simp [State.setNode]
@[simp] theorem State.mem_testResult (f n fails bits : Nat) (src : Nat) (restored : Bool) : (s.testResult f n fails bits src restored).mem = s.mem := by
  simp [State.testResult]
theorem holds_execAtlasStatusWrite (hs : P s.mem) : HoldsAfter P (execAtlasStatusWrite s) := by
  simp only [execAtlasStatusWrite]
  split
  · simp [hs]
  · split <;> simp [hs]

@[simp] theorem State.mem_rookAdvance (f : Nat) : (s.rookAdvance f).mem = s.mem := by
  unfold State.rookAdvance
  repeat' split
  all_goals simp
@[simp] theorem State.mem_retestCore (k : Nat) : (s.retestCore k).mem = s.mem := by simp [State.retestCore]
@[simp] theorem State.mem_rooksAdvance : s.rooksAdvance.mem = s.mem := by simp [State.rooksAdvance]
@[simp] theorem State.mem_dropLoad (c : Ctx) : (s.dropLoad c).mem = s.mem := by unfold State.dropLoad; split <;> simp
@[simp] theorem State.mem_preemptNow (i reason : Nat) : (s.preemptNow i reason).mem = s.mem := by simp [State.preemptNow]
@[simp] theorem State.mem_preemptCtx (i reason : Nat) : (s.preemptCtx i reason).mem = s.mem := by simp [State.preemptCtx]
@[simp] theorem State.mem_requeueItem (id item wid lead : Nat) : (s.requeueItem id item wid lead).mem = s.mem := by
  unfold State.requeueItem; split <;> simp
@[simp] theorem State.mem_dropFiring (i : Nat) : (s.dropFiring i).mem = s.mem := by simp only [State.dropFiring]; split <;> simp

/-! ### Machine/Rows -/

@[simp] theorem State.mem_storeRows : ∀ (rs : List (List Piece)) (vs : List Nat) (s : State), (s.storeRows rs vs).mem = s.mem
  | [], _, _ => rfl
  | _ :: rs, _, _ => by rw [State.storeRows, State.mem_storeRows rs, State.mem_issuePieces]

/-! ### Machine/Barrier -/

@[simp] theorem State.mem_updBar (f b : Nat) (g : Barrier → Barrier) : (s.updBar f b g).mem = s.mem := by simp [State.updBar]
@[simp] theorem State.mem_releaseWaiters (f b ply st : Nat) : (s.releaseWaiters f b ply st).mem = s.mem := by simp [State.releaseWaiters]
@[simp] theorem State.mem_tryComplete (f b : Nat) : ∀ (n : Nat) (s : State), (State.tryComplete f b n s).mem = s.mem
  | 0, _ => rfl
  | n + 1, s => by
    simp only [State.tryComplete]
    split
    · rfl
    · simp [State.mem_tryComplete f b n, apply_ite State.mem]

@[simp] theorem State.mem_arrive (f b m e tag field : Nat) : (s.arrive f b m e tag field).2.mem = s.mem := by simp [State.arrive, apply_ite Prod.snd]
@[simp] theorem State.mem_deliver (f b p n tag : Nat) : (s.deliver f b p n tag).2.mem = s.mem := by simp [State.deliver, apply_ite Prod.snd]

/-! ### Machine/Bank -/

@[simp] theorem State.mem_coverByRevoking (f n : Nat) : (s.coverByRevoking f n).mem = s.mem := by unfold State.coverByRevoking; split <;> simp
@[simp] theorem State.mem_endAlone (f j : Nat) (l : Lease) : (s.endAlone f j l).mem = s.mem := by simp [State.endAlone]
@[simp] theorem State.mem_fillShare (f k : Nat) (o : PaceShare) : (s.fillShare f k o).mem = s.mem := by
  unfold State.fillShare
  repeat' split
  all_goals simp
@[simp] theorem State.mem_fillShares (f : Nat) : ∀ (os : List PaceShare) (n : Nat) (s : State), (State.fillShares f n os s).1.mem = s.mem
  | [], _, _ => rfl
  | o :: os, n, s => by
    simp only [State.fillShares, State.mem_fillShares f os]
    split
    · rfl
    · exact State.mem_fillShare _ _ _ _

@[simp] theorem State.mem_payShares (f n : Nat) : (s.payShares f n).mem = s.mem := by simp [State.payShares]
@[simp] theorem State.mem_noticePays (f n reason : Nat) : (s.noticePays f n reason).mem = s.mem := by simp [State.noticePays]
@[simp] theorem State.mem_movingEffect (t : Nat) : (s.movingEffect t).mem = s.mem := by unfold State.movingEffect; split <;> simp
@[simp] theorem State.mem_pshareWrite (p v : Nat) : (s.pshareWrite p v).mem = s.mem := by simp [State.pshareWrite]
@[simp] theorem State.mem_bkshareWrite (f v : Nat) : (s.bkshareWrite f v).mem = s.mem := by simp [State.bkshareWrite]
@[simp] theorem State.mem_bkgshareWrite (f i v : Nat) : (s.bkgshareWrite f i v).mem = s.mem := by simp [State.bkgshareWrite]
@[simp] theorem State.mem_rampwWrite (v : Nat) : (s.rampwWrite v).mem = s.mem := by simp [State.rampwWrite]
@[simp] theorem State.mem_floorwWrite (v : Nat) : (s.floorwWrite v).mem = s.mem := by simp [State.floorwWrite]
@[simp] theorem State.mem_paceLend (f n dur : Nat) (stragglers : List Nat) : (s.paceLend f n dur stragglers).mem = s.mem := by simp [State.paceLend]
@[simp] theorem State.mem_paceField (f amax arr t0 : Nat) : (s.paceField f amax arr t0).1.mem = s.mem := by simp [State.paceField]
@[simp] theorem State.mem_tellPacer (r : PlyReport) (dev : Nat) : (s.tellPacer r dev).mem = s.mem := by simp [State.tellPacer]
@[simp] theorem State.mem_pacePly (r : PlyReport) : (s.pacePly r).mem = s.mem := by
  unfold State.pacePly
  simp only
  split
  · rfl
  · rw [State.mem_foldl (fun _ _ => State.mem_paceLend _ _ _ _ _)]
    exact List.foldlRecOn (motive := fun p : State × List (Nat × Nat) => p.1.mem = s.mem) _ _ rfl (fun p hp e _ => (State.mem_paceField _ _ _ _ _).trans hp)

@[simp] theorem State.mem_reportFrom (dev bar ply : Nat) (fields : List (List Nat)) : (s.reportFrom dev bar ply fields).mem = s.mem := by
  unfold State.reportFrom; extract_lets
  repeat' split
  all_goals simp +zetaDelta

/-! ### Machine/Dense -/

@[simp] theorem State.mem_ringSend (j : Nat) : (s.ringSend j).mem = s.mem := by simp [State.ringSend]

/-! ### Machine/Delivery -/

@[simp] theorem State.mem_popQueue (k vn : Nat) : (s.popQueue k vn).mem = s.mem := by simp [State.popQueue]
@[simp] theorem State.mem_lookUp (t : Nat) (lo : Word) : (s.lookUp t lo).mem = s.mem := by
  unfold State.lookUp
  repeat' split
  all_goals simp
@[simp] theorem State.mem_mergeReds (x y : Access) (u : Nat) : (s.mergeReds x y u).mem = s.mem := by simp [State.mergeReds]
@[simp] theorem State.mem_leaveDevice (i t : Nat) (m : Msg) (p : Nat) : (s.leaveDevice i t m p).mem = s.mem := by simp [State.leaveDevice]
@[simp] theorem State.mem_wakeFirings (core : Nat) (hit : Ctx → Bool) : (s.wakeFirings core hit).mem = s.mem := by simp [State.wakeFirings]
@[simp] theorem State.mem_hwDelivered (f : Nat) (m : Msg) : (s.hwDelivered f m).mem = s.mem := by simp [State.hwDelivered]
@[simp] theorem State.mem_hwHold (s0 : State) (f : Nat) (m0 : Msg) : (s0.hwHold f m0).mem = s0.mem := by simp [State.hwHold]
@[simp] theorem State.mem_overflowPacket (f tag n : Nat) : (s.overflowPacket f tag n).mem = s.mem := by simp [State.overflowPacket]
@[simp] theorem State.mem_queueOverflow (f : Nat) : (s.queueOverflow f).mem = s.mem := by simp [State.queueOverflow]
@[simp] theorem State.mem_applyCtl (k : Nat) (c : CtlPkt) : (s.applyCtl k c).mem = s.mem := by simp [State.applyCtl]
@[simp] theorem State.mem_deliverCtl (i : Nat) (wake : Bool) : (s.deliverCtl i wake).mem = s.mem := by
  simp only [State.deliverCtl]
  repeat' split
  all_goals simp

/-! ### Machine/Start -/

@[simp] theorem State.mem_startAt (i : Nat) (c : Ctx) : (s.startAt i c).mem = s.mem := by simp [State.startAt]
@[simp] theorem State.mem_startActor (i a : Nat) : (s.startActor i a).mem = s.mem := by
  simp only [State.startActor]
  repeat' split
  all_goals simp
@[simp] theorem State.mem_startItem (k id item : Nat) : (s.startItem k id item).mem = s.mem := by unfold State.startItem; split <;> simp
@[simp] theorem State.mem_popTask (k : Nat) : (s.popTask k).mem = s.mem := by simp [State.popTask]
@[simp] theorem State.mem_takeWork (k : Nat) (w : Launch × List Nat × Launch) : (s.takeWork k w).mem = s.mem := by simp [State.takeWork]
@[simp] theorem State.mem_moveFiring (n i : Nat) : (s.moveFiring n i).mem = s.mem := by simp [State.moveFiring]

/-! ### Machine/Regs -/

@[simp] theorem State.holds_dqcfgWrite (k v : Nat) (hs : P s.mem) : HoldsIf P (s.dqcfgWrite k v) := by simp [State.dqcfgWrite, hs]
@[simp] theorem State.holds_actcfgWrite (k v : Nat) (hs : P s.mem) : HoldsIf P (s.actcfgWrite k v) := by simp [State.actcfgWrite, hs]
@[simp] theorem State.holds_parkcfgWrite (k v : Nat) (hs : P s.mem) : HoldsIf P (s.parkcfgWrite k v) := by simp [State.parkcfgWrite, hs]
@[simp] theorem State.mem_updOp (t j : Nat) (g : Op → Op) : (s.updOp t j g).mem = s.mem := by simp [State.updOp]
@[simp] theorem State.mem_opcmd (t j v : Nat) : (s.opcmd t j v).mem = s.mem := by
  unfold State.opcmd; extract_lets
  repeat' split
  all_goals simp +zetaDelta
@[simp] theorem State.holds_tileCtlWrite (t o v tag : Nat) (hs : P s.mem) : HoldsIf P (s.tileCtlWrite t o v tag) := by simp [State.tileCtlWrite, hs]
@[simp] theorem State.mem_tlbLowWrite (f v tag : Nat) : (s.tlbLowWrite f v tag).mem = s.mem := by simp [State.tlbLowWrite]
@[simp] theorem State.mem_tlbHighWrite (f va tag : Nat) : (s.tlbHighWrite f va tag).mem = s.mem := by simp [State.tlbHighWrite]
@[simp] theorem State.mem_joinGroups (p : Nat) : (s.joinGroups p).mem = s.mem := by simp [State.joinGroups]
@[simp] theorem State.mem_leaveGroups (p : Nat) : (s.leaveGroups p).mem = s.mem := by simp [State.leaveGroups]
@[simp] theorem State.mem_partWrite (p i v : Nat) : (s.partWrite p i v).mem = s.mem := by
  unfold State.partWrite
  repeat' split
  all_goals simp
@[simp] theorem State.mem_atlasStatus (n v : Nat) : (s.atlasStatus n v).mem = s.mem := by
  unfold State.atlasStatus
  split
  · rename_i h
    have hleft := holds_execAtlasStatusWrite (P := (· = s.mem)) { s with arg := { unit := s.atlasHub n, other := n, value := v % 8 } } rfl
    rw [h] at hleft
    exact hleft
  · rfl

/-! ### Machine/Debug -/

@[simp] theorem State.mem_updPlace (i : Nat) (p : Place) (g : Ctx → Ctx) : (s.updPlace i p g).mem = s.mem := by unfold State.updPlace; split <;> simp
@[simp] theorem State.mem_killOps (t n : Nat) : (s.killOps t n).mem = s.mem := by simp [State.killOps]
@[simp] theorem State.mem_finishKill (i : Nat) (p : Place) (c : Ctx) : (s.finishKill i p c).mem = s.mem := by unfold State.finishKill; split <;> simp
@[simp] theorem State.mem_killWith (i : Nat) (p : Place) (c : Ctx) (cause : Nat) : (s.killWith i p c cause).mem = s.mem := by simp [State.killWith]
@[simp] theorem State.mem_killFiring (i : Nat) (p : Place) (c : Ctx) : (s.killFiring i p c).mem = s.mem := by simp [State.killFiring]
@[simp] theorem State.mem_finishKills (n : Nat) : (s.finishKills n).mem = s.mem := by
  unfold State.finishKills
  repeat' split
  all_goals simp
@[simp] theorem State.mem_stopCtx (i : Nat) : (s.stopCtx i).mem = s.mem := by simp [State.stopCtx]
@[simp] theorem State.mem_settlePreempt (i : Nat) : (s.settlePreempt i).mem = s.mem := by simp [State.settlePreempt]
@[simp] theorem State.mem_dbgResult (i code result : Nat) : (s.dbgResult i code result).mem = s.mem := by simp [State.dbgResult]
@[simp] theorem State.mem_refetch (core n : Nat) : (s.refetch core n).mem = s.mem := by simp [State.refetch]
@[simp] theorem State.mem_dbgApply (s0 : State) (i code : Nat) : (s0.dbgApply i code).mem = s0.mem := by
  simp only [State.dbgApply]
  repeat' split
  all_goals simp
@[simp] theorem State.mem_dbgCommand (i v writer : Nat) : (s.dbgCommand i v writer).mem = s.mem := by simp [State.dbgCommand]
@[simp] theorem State.mem_attach (i writer : Nat) (hi : Word) (tag : Nat) : (s.attach i writer hi tag).1.mem = s.mem := by
  unfold State.attach; extract_lets
  repeat' split
  all_goals simp +zetaDelta

/-! ### Machine/Ring -/

@[simp] theorem State.mem_updLatch (t j : Nat) (g : Latch → Latch) : (s.updLatch t j g).mem = s.mem := by simp [State.updLatch]
@[simp] theorem State.mem_eventFragments (tag : Nat) (bodies : List (List Nat)) : (s.eventFragments tag bodies).mem = s.mem := by
  simp [State.eventFragments]
@[simp] theorem State.mem_launchEvent (e : Launch) : (s.launchEvent e).mem = s.mem := by simp [State.launchEvent]

/-! ### Machine/Frame -/

@[simp] theorem State.mem_passOn (b : List Nat) : (s.passOn b).mem = s.mem := by
  unfold State.passOn
  repeat' split
  all_goals simp
@[simp] theorem State.mem_updSession (n : Nat) (g : Session → Session) : (s.updSession n g).mem = s.mem := by simp [State.updSession]
@[simp] theorem State.mem_sendFrames (fs : List Frame) : (s.sendFrames fs).mem = s.mem := by simp [State.sendFrames]
@[simp] theorem State.mem_answerOnly (session seq op status : Nat) (body : List Nat) : (s.answerOnly session seq op status body).mem = s.mem := by
  simp [State.answerOnly]
@[simp] theorem State.mem_replyAll (session seq op status : Nat) (bodies : List (List Nat)) : (s.replyAll session seq op status bodies).mem = s.mem := by
  simp [State.replyAll]
@[simp] theorem State.mem_reply (session seq op status : Nat) (body : List Nat) : (s.reply session seq op status body).mem = s.mem := by
  simp [State.reply]
@[simp] theorem State.mem_replyFailed (session seq op cause : Nat) (rest : List Nat) : (s.replyFailed session seq op cause rest).mem = s.mem := by
  simp [State.replyFailed]

/-! ### Machine/StartUp -/

@[simp] theorem State.mem_deriveKeys : s.deriveKeys.mem = s.mem := by simp [State.deriveKeys]
@[simp] theorem State.mem_fieldDark (f : Nat) : (s.fieldDark f).mem = s.mem := by simp [State.fieldDark]
@[simp] theorem State.mem_resetDark (f : Nat) : (s.resetDark f).mem = s.mem := by simp [State.resetDark]
@[simp] theorem State.mem_seedAtlas (f : Nat) (seeds : List (Nat × Nat × Nat)) : (s.seedAtlas f seeds).mem = s.mem := by simp [State.seedAtlas]
@[simp] theorem State.mem_recordGen (f g : Nat) : (s.recordGen f g).mem = s.mem := by simp [State.recordGen]
@[simp] theorem State.mem_checkPorts (f : Nat) : (s.checkPorts f).mem = s.mem := by simp [State.checkPorts]
@[simp] theorem State.mem_applyGen (fs : List Nat) (g : Nat) : (s.applyGen fs g).mem = s.mem := by simp [State.applyGen]
@[simp] theorem State.mem_startupResults (f : Nat) (fails : List (Nat × Nat × Nat)) : (s.startupResults f fails).mem = s.mem := by
  simp [State.startupResults]

/-! ### Machine/Sem -/

@[simp] theorem State.mem_dropStream (core n : Nat) : (s.dropStream core n).mem = s.mem := by simp [State.dropStream]

/-! ### Machine/Window -/

@[simp] theorem State.mem_openWord : (s.openWord).2.mem = s.mem := by simp [State.openWord]
@[simp] theorem State.mem_imageAt (i o : Nat) : (s.imageAt i o).2.mem = s.mem := by simp [State.imageAt, apply_ite Prod.snd]
@[simp] theorem State.mem_dbgDword (i o : Nat) : (s.dbgDword i o).2.mem = s.mem := by simp [State.dbgDword, apply_ite Prod.snd]
@[simp] theorem State.mem_windowDword (t o : Nat) : (s.windowDword t o).2.mem = s.mem := by
  unfold State.windowDword
  repeat' split
  all_goals simp
@[simp] theorem State.holds_imageStore (i o lo n v : Nat) (hs : P s.mem) : HoldsIf P (s.imageStore i o lo n v) := by
  unfold State.imageStore
  repeat' split
  all_goals simp [hs]
@[simp] theorem State.holds_dbgStore (i o lo n v : Nat) (w : Writer) (hs : P s.mem) : HoldsIf P (s.dbgStore i o lo n v w) := by
  simp [State.dbgStore, hs]
@[simp] theorem State.mem_windowDwords (t : Nat) : ∀ (n o : Nat) (s : State), (s.windowDwords t n o).2.mem = s.mem
  | 0, _, _ => rfl
  | n + 1, o, s => by rw [State.windowDwords, State.mem_windowDwords t n, State.mem_windowDword]
@[simp] theorem State.mem_readHome (g size level : Nat) : (s.readHome g size level).2.mem = s.mem := by
  simp only [State.readHome]
  repeat' split
  all_goals simp

/-! ### Machine/Flip -/

@[simp] theorem State.mem_stageEntry (f t e v : Nat) : (s.stageEntry f t e v).mem = s.mem := by simp [State.stageEntry]
@[simp] theorem State.mem_doRouteStage (session seq : Nat) (body : List Nat) : (s.doRouteStage session seq body).mem = s.mem := by
  simp [State.doRouteStage]
@[simp] theorem State.mem_flipFailed (session seq : Nat) : (s.flipFailed session seq).mem = s.mem := by simp [State.flipFailed]
@[simp] theorem State.mem_doRouteFlip (session seq : Nat) (body : List Nat) : (s.doRouteFlip session seq body).mem = s.mem := by
  unfold State.doRouteFlip
  simp only
  split
  · rw [State.mem_flipFailed, State.mem_foldl (fun _ _ => by split <;> simp)]
  · simp

@[simp] theorem State.mem_finishFlip (p : Flip) : (s.finishFlip p).mem = s.mem := by simp [State.finishFlip]
@[simp] theorem State.mem_abandonFlip (p : Flip) : (s.abandonFlip p).mem = s.mem := by simp [State.abandonFlip]

/-! ### Machine/Perform -/

@[simp] theorem State.mem_resultOf (ids : List Nat) (r : AccResult) : (s.resultOf ids r).mem = s.mem := by simp [State.resultOf]
@[simp] theorem State.mem_readRuns (level : Nat) : ∀ (ps : List (Nat × Nat)) (s : State), (s.readRuns level ps).2.mem = s.mem
  | [], _ => rfl
  | (g, n) :: ps, s => by
    simp only [State.readRuns]
    split <;> simp [State.mem_readRuns level ps]

@[simp] theorem State.mem_countAccess (a : Access) (misses : List Nat) : (s.countAccess a misses).mem = s.mem := by
  unfold State.countAccess
  repeat' split
  all_goals simp
@[simp] theorem State.mem_countRequest (a : Access) : (s.countRequest a).mem = s.mem := by simp [State.countRequest]
@[simp] theorem State.mem_countReply (a : Access) : (s.countReply a).mem = s.mem := by
  unfold State.countReply
  repeat' split
  all_goals simp
@[simp] theorem State.mem_answer (a : Access) (r : AccResult) : (s.answer a r).mem = s.mem := by
  unfold State.answer; extract_lets
  repeat' split
  all_goals simp +zetaDelta
@[simp] theorem State.mem_streamView (t : Stream) : (s.streamView t).mem = s.mem := by simp [State.streamView]
theorem State.mem_of_inputStep (core n : Nat) (t : Stream) {r : Except (Cause × Nat) Nat} {u : State} (h : s.inputStep core n t = some (r, u)) :
    u.mem = s.mem := by
  unfold State.inputStep at h
  simp only at h
  repeat' split at h
  all_goals cases h <;> simp

@[simp] theorem State.mem_streamPieces (core n : Nat) (t : Stream) :
    ∀ (ps : List (Nat × Nat × Nat)) (v : Nat) (s : State), (s.streamPieces core n t ps v).mem = s.mem
  | [], _, _ => rfl
  | _ :: ps, _, _ => by simp only [State.streamPieces, State.mem_streamPieces core n t ps, State.mem_countCore, State.mem_updFiring]
@[simp] theorem State.mem_poisonLine (l : Nat) : (s.poisonLine l).mem = s.mem := by simp [State.poisonLine]

/-! ### Machine/OpRun -/

@[simp] theorem State.mem_opView (t : Nat) (o : Op) : (s.opView t o).mem = s.mem := by simp [State.opView]
theorem State.holds_opMap (t : Nat) (o : Op) (va n : Nat) (acc : Acc) (hs : P s.mem) : HoldsIn P (fun _ => s) (s.opMap t o va n acc) := by
  unfold State.opMap opStop
  simp only
  repeat' split
  all_goals trivial

theorem State.holds_opRead (t : Nat) (o : Op) (va n : Nat) (hs : P s.mem) : HoldsIn P (fun r => r.2.2) (s.opRead t o va n) := by
  unfold State.opRead
  split
  · exact (s.holds_opMap t o va n .read hs).error ‹_›
  · simp only
    split
    · trivial
    · simpa [HoldsIn] using hs

@[simp] theorem State.mem_markAway (t : Nat) (o : Op) : (s.markAway t o).mem = s.mem := by simp [State.markAway]
theorem State.holds_bagRow (t : Nat) (o : Op) (va dim : Nat) (hs : P s.mem) : HoldsIn P (fun r => r.2.2.2) (s.bagRow t o va dim) := by
  unfold State.bagRow
  split
  · exact (s.holds_opMap t o va 1 .read hs).error ‹_›
  · simp only
    split
    · trivial
    · split
      · exact (s.holds_opRead t o va _ hs).error ‹_›
      · exact (s.holds_opRead t o va _ hs).ok ‹_›

theorem State.holds_bagSamples (t : Nat) (o : Op) (rb : Nat) :
    ∀ (n q : Nat) (m : KMap (List Nat)) (tier : Bool) (s : State), P s.mem → HoldsIn P (fun r => r.2.2) (s.bagSamples t o rb n q m tier)
  | 0, _, _, _, _, hs => hs
  | n + 1, q, m, tier, s, hs => by
    have hread := s.holds_opRead t o (descVa (o.desc.getD 1 0) + (if bitAt (o.desc.getD 1 0).toNat 60 then 8 else 4) * q) (if bitAt (o.desc.getD 1 0).toNat 60 then 8 else 4) hs
    unfold State.bagSamples
    simp only
    split
    · exact hread.error ‹_›
    · rename_i r ps s1 h1
      split
      · trivial
      · have hrow := s1.holds_bagRow t o (descVa (o.desc.getD 0 0) + r * rb) (embDim o.desc) (hread.ok h1)
        split
        · exact hrow.error ‹_›
        · rename_i e v ps2 s2 h2
          have hs2 : P s2.mem := hrow.ok h2
          have hweight := s2.holds_opRead t o (descVa (o.desc.getD 3 0) + 4 * q) 4 hs2
          split
          · trivial
          · trivial
          · split
            · rename_i hw
              split at hw
              · split at hw
                · cases hw
                  exact hweight.error ‹_›
                · cases hw
              · cases hw
            · rename_i hw
              refine State.holds_bagSamples t o rb n _ _ _ _ ?_
              split at hw
              · split at hw
                · cases hw
                · cases hw
                  exact hweight.ok ‹_›
              · cases hw
                exact hs2

@[simp] theorem State.mem_suspendOp (t j cause addr synd : Nat) : (s.suspendOp t j cause addr synd).mem = s.mem := by simp [State.suspendOp]
@[simp] theorem State.mem_failOp (t j cause : Nat) : (s.failOp t j cause).mem = s.mem := by simp [State.failOp]
@[simp] theorem State.mem_opDeliver (t j n : Nat) : (s.opDeliver t j n).2.mem = s.mem := by simp [State.opDeliver, apply_ite Prod.snd]
theorem State.holds_takeItem (t j : Nat) (r : OpItem) (hs : P s.mem) (hr : HoldsIn P Prod.fst r) : P (s.takeItem t j r).mem := by
  unfold State.takeItem
  split
  · rename_i s1 n bytes
    have hs1 : P s1.mem := hr
    have hs2 : P (s1.opDeliver t j bytes).2.mem := by simpa using hs1
    simp only
    split
    · simpa using hs1
    · split
      all_goals
        rename_i h
        rw [h] at hs2
        simpa using hs2
  · simpa using hs
  · simpa using hs
  · rename_i s1
    have hs1 : P s1.mem := hr
    simpa using hs1
  · exact hs
  · simpa using hs
  · simpa using hs

@[simp] theorem State.mem_freeOp (t j : Nat) : (s.freeOp t j).mem = s.mem := by simp [State.freeOp]

/-! ### Machine/Migrate -/

@[simp] theorem State.mem_setCtt (tag kind idx : Nat) (w : Word) : (s.setCtt tag kind idx w).mem = s.mem := by unfold State.setCtt; split <;> simp
@[simp] theorem State.mem_holdActors (tile tag : Nat) (held : Bool) : (s.holdActors tile tag held).mem = s.mem := by simp [State.holdActors]
@[simp] theorem State.mem_beginMigration (g : Migration) : (s.beginMigration g).mem = s.mem := by simp [State.beginMigration]
@[simp] theorem State.mem_renameRunner (tag t u : Nat) : (s.renameRunner tag t u).mem = s.mem := by simp [State.renameRunner]
@[simp] theorem State.mem_setMig (i : Nat) (g : Migration) : (s.setMig i g).mem = s.mem := by simp [State.setMig]
@[simp] theorem State.mem_dropTranslations (g : Migration) : (s.dropTranslations g).mem = s.mem := by simp [State.dropTranslations]
@[simp] theorem State.mem_shuffleLease (lender borrower count key : Nat) : (s.shuffleLease lender borrower count key).mem = s.mem := by
  simp [State.shuffleLease]
@[simp] theorem State.mem_endTileLease (key : Nat) : (s.endTileLease key).mem = s.mem := by simp [State.endTileLease]
@[simp] theorem State.holds_moveHolding (src dst h key : Nat) (hs : P s.mem) : HoldsIf P (s.moveHolding src dst h key) := by
  simp only [State.moveHolding]
  repeat' split
  all_goals simp [hs]
@[simp] theorem State.holds_placeCtx (t : Nat) (dbgs : KMap Dbg) (e : Nat × Ctx) (hs : P s.mem) : HoldsIf P (s.placeCtx t dbgs e) := by
  unfold State.placeCtx; split <;> simp [hs]
theorem State.holds_placeCtxs (t : Nat) (dbgs : KMap Dbg) : ∀ (es : List (Nat × Ctx)) (s : State), P s.mem → HoldsIf P (s.placeCtxs t dbgs es)
  | [], _, h => h
  | e :: es, s, h => by
    unfold State.placeCtxs
    split
    · exact State.holds_placeCtxs t dbgs es _ ((s.holds_placeCtx t dbgs e h).of_eq ‹_›)
    · trivial

@[simp] theorem State.mem_forwardStub (i : Nat) (g : Migration) : (s.forwardStub i g).mem = s.mem := by simp [State.forwardStub]
@[simp] theorem State.mem_askMigration (p lt new : Nat) : (s.askMigration p lt new).mem = s.mem := by simp [State.askMigration]
@[simp] theorem State.mem_noteMoved (tag t : Nat) : (s.noteMoved tag t).mem = s.mem := by simp [State.noteMoved]

/-! ### Machine/Switch -/

@[simp] theorem State.mem_beginSwitch (f incoming : Nat) : (s.beginSwitch f incoming).mem = s.mem := by
  unfold State.beginSwitch; extract_lets; split <;> simp +zetaDelta
@[simp] theorem State.mem_beginSwitches (fs : List Nat) (incoming : Nat) : (s.beginSwitches fs incoming).mem = s.mem := by simp [State.beginSwitches]
@[simp] theorem State.mem_switchOut (i : Nat) : (s.switchOut i).mem = s.mem := by simp [State.switchOut]
@[simp] theorem State.mem_saveFails (f i : Nat) : (s.saveFails f i).mem = s.mem := by
  unfold State.saveFails
  repeat' split
  all_goals simp
@[simp] theorem State.mem_evictLines (f tag : Nat) : (s.evictLines f tag).mem = s.mem := by simp [State.evictLines]
@[simp] theorem State.mem_swapTag (f p q : Nat) : (s.swapTag f p q).mem = s.mem := by simp [State.swapTag]
@[simp] theorem State.mem_pendCommands (f tag : Nat) : (s.pendCommands f tag).mem = s.mem :=
  State.mem_foldl (fun _ _ => by split <;> simp) _ _
@[simp] theorem State.mem_switchReplies (f : Nat) : (s.switchReplies f).mem = s.mem := by simp [State.switchReplies]
@[simp] theorem State.mem_doPartSwitch (session seq : Nat) (body : List Nat) : (s.doPartSwitch session seq body).mem = s.mem := by
  simp [State.doPartSwitch]
@[simp] theorem State.mem_bindTiles (b : PartBody) : (s.bindTiles b).mem = s.mem := by simp [State.bindTiles]
@[simp] theorem State.mem_writePart (b : PartBody) : (s.writePart b).mem = s.mem := by simp [State.writePart]
@[simp] theorem State.mem_joinField (b : PartBody) (f : Nat) : (s.joinField b f).mem = s.mem := by simp [State.joinField]
@[simp] theorem State.mem_makePart (b : PartBody) : (s.makePart b).mem = s.mem := by simp [State.makePart]
@[simp] theorem State.mem_doPartCreate (session seq : Nat) (body : List Nat) : (s.doPartCreate session seq body).mem = s.mem := by
  unfold State.doPartCreate; extract_lets; split <;> simp +zetaDelta

/-! ### Machine/Command -/

theorem State.holds_queueLaunch (f session tag : Nat) (h : Header) (mask : List Nat) (hs : P s.mem) :
    HoldsIf P ((s.queueLaunch f session tag h mask).map Prod.snd) := by
  unfold State.queueLaunch
  simp only
  split
  · cases (s.hubOf f).launchRoom 0 <;> simp [hs]
  · rw [Option.map_map]
    cases ((s.updHub f _).hubOf f).launchRoom 0 <;> simp [hs]

@[simp] theorem State.mem_placeRack (id tag : Nat) : (s.placeRack id tag).mem = s.mem := by
  unfold State.placeRack; extract_lets; split <;> simp +zetaDelta
@[simp] theorem State.mem_doLaunch (session seq flags : Nat) (body : List Nat) : (s.doLaunch session seq flags body).mem = s.mem := by
  unfold State.doLaunch
  simp only
  split
  · simp
  · split
    · simp
    · split
      · simp
      · split
        · simp
        · rename_i id u hu
          have hmem := s.holds_queueLaunch (P := (· = s.mem)) ((fieldSet (leAt body 0x40 16)).headD 0) session (s.sessionOf session).tag (bodyHeader body) (fieldSet (leAt body 0x40 16)) rfl
          rw [hu] at hmem
          change u.mem = s.mem at hmem
          simp [hmem]

@[simp] theorem State.mem_doQuery (session seq : Nat) : (s.doQuery session seq).mem = s.mem := by simp [State.doQuery]
@[simp] theorem State.mem_doResync (session seq : Nat) : (s.doResync session seq).mem = s.mem := by simp [State.doResync]
@[simp] theorem State.mem_doAtlasRead (session seq : Nat) (body : List Nat) : (s.doAtlasRead session seq body).mem = s.mem := by
  simp [State.doAtlasRead]
@[simp] theorem State.mem_failHeld (k : Nat) : (s.failHeld k).mem = s.mem := by
  simp only [State.failHeld, State.updCore_fields]
  rw [State.mem_foldl (fun _ _ => by split <;> simp), State.mem_foldl (fun _ _ => by split <;> simp)]
@[simp] theorem State.mem_failQueues (k : Nat) : (s.failQueues k).mem = s.mem := by simp [State.failQueues]
@[simp] theorem State.mem_failMessages (f : Nat) : (s.failMessages f).mem = s.mem := by simp [State.failMessages]
@[simp] theorem State.mem_killField (f : Nat) : (s.killField f).mem = s.mem := by simp [State.killField]
@[simp] theorem State.mem_doFieldReset (session seq : Nat) (body : List Nat) : (s.doFieldReset session seq body).mem = s.mem := by
  unfold State.doFieldReset; extract_lets
  repeat' split
  all_goals simp +zetaDelta
@[simp] theorem State.mem_doAttest (session seq : Nat) (body : List Nat) : (s.doAttest session seq body).mem = s.mem := by
  unfold State.doAttest; split <;> simp
@[simp] theorem State.mem_noteGap (session before : Nat) : (s.noteGap session before).mem = s.mem := by simp [State.noteGap]

/-! ### Machine/Loith -/

@[simp] theorem State.mem_goSilent : s.goSilent.mem = s.mem := by simp [State.goSilent]
@[simp] theorem State.mem_hubDark (f : Nat) : (s.hubDark f).mem = s.mem := by simp [State.hubDark]

/-! ### Machine/Sparse -/

@[simp] theorem State.mem_storeVa (va n v : Nat) : (s.storeVa va n v).mem = s.mem := by unfold State.storeVa; split <;> simp
@[simp] theorem State.mem_selectRow (va mva size k : Nat) (vals : List XNum) (mask : Nat) (drop : Bool) :
    (s.selectRow va mva size k vals mask drop).mem = s.mem := by
  simp [State.selectRow]

/-! ### Machine/Issue -/

@[simp] theorem State.mem_withA (old new base : State) : (old.withA new base).mem = base.mem := by simp [State.withA]
@[simp] theorem State.mem_endStep (s s' : State) : (s.endStep s').mem = s'.mem := by unfold State.endStep; split <;> simp
@[simp] theorem State.mem_countIssue (d : Nat) (s' : State) : (s.countIssue d s').mem = s'.mem := by simp [State.countIssue]
@[simp] theorem State.mem_issuedBy (core i : Nat) (s' : State) : (s.issuedBy core i s').mem = s'.mem := by simp [State.issuedBy]

/-! ### Machine/Run -/

@[simp] theorem State.mem_noted : s.noted.mem = s.mem := by simp [State.noted]

end
end Sys2Proof.Machine
end

section
/-! SUPPORT. The operations that take what follows as an argument (R298, R312, R314): an instruction that ends, faults, waits or goes on with what follows keeps a
property of memory that what follows keeps. -/

namespace Sys2Proof.Machine

section
variable {P : Memory → Prop} {s : State}

/-! ### Outcomes that end an instruction -/

@[simp] theorem State.holds_faultC (c : Cause) (a y : Nat) : HoldsAfter P (s.faultC c a y) ↔ P s.mem := by simp [State.faultC]
@[simp] theorem State.holds_faultA (c : Cause) (a y : Nat) : HoldsAfter P (s.faultA c a y) ↔ P s.mem := by simp [State.faultA]
@[simp] theorem State.holds_result (xd : BitVec 5) (v : Word) : HoldsAfter P (s.result xd v) ↔ P s.mem := by simp [State.result]
@[simp] theorem State.holds_resultCap (xd : BitVec 5) (lo : Word) : HoldsAfter P (s.resultCap xd lo) ↔ P s.mem := by simp [State.resultCap]
@[simp] theorem State.holds_branchIf (taken : Bool) (target : Word) : HoldsAfter P (s.branchIf taken target) ↔ P s.mem := by
  cases taken <;> simp [State.branchIf]
@[simp] theorem State.holds_engineDone (e : Engine) (n : Nat) (hold : Bool) : HoldsAfter P (s.engineDone e n hold) ↔ P s.mem := by
  cases hold <;> simp [State.engineDone]
@[simp] theorem State.holds_engineHalt (c : Cause) (bit va : Nat) : HoldsAfter P (s.engineHalt c bit va) ↔ P s.mem := by simp [State.engineHalt]
@[simp] theorem State.holds_readStop (ps : List Piece) (va n : Nat) : HoldsAfter P (s.readStop ps va n) ↔ P s.mem := by
  unfold State.readStop
  split <;> simp
@[simp] theorem State.holds_engineStop (ps : List Piece) (bit va : Nat) : HoldsAfter P (s.engineStop ps bit va) ↔ P s.mem := by
  unfold State.engineStop
  split <;> simp
@[simp] theorem State.holds_roundResult (F : FloatFmt) (xd : BitVec 5) (rm : RoundMode) (v : XNum) : HoldsAfter P (s.roundResult F xd rm v) ↔ P s.mem := by
  unfold State.roundResult
  split
  · split <;> simp
  · simp
@[simp] theorem holds_notePieces (ps : List Piece) (o : Out) : HoldsAfter P (State.notePieces ps o) ↔ HoldsAfter P o := by
  cases o
  case next t =>
    simp only [State.notePieces]
    split <;> simp
  all_goals rfl
@[simp] theorem State.holds_unpaced (o : Out) : HoldsAfter P (s.unpaced o) ↔ HoldsAfter P o := by
  cases o
  case next t =>
    simp only [State.unpaced]
    split <;> simp
  all_goals rfl

/-! ### Operations that go on with what follows, when nothing stops the instruction -/

section
variable (hs : P s.mem)
include hs

@[simp] theorem State.holds_orHalt {α : Type} {r : Except Halt α} {k : α → Out} (hk : ∀ a, HoldsAfter P (k a)) : HoldsAfter P (s.orHalt r k) := by
  unfold State.orHalt
  split
  · simp [hs]
  · simp [hs]
  · exact hk _

@[simp] theorem State.holds_orEngineHalt {α : Type} {r : Except Halt α} {k : α → Out} (hk : ∀ a, HoldsAfter P (k a)) : HoldsAfter P (s.orEngineHalt r k) := by
  unfold State.orEngineHalt
  split
  · simp [hs]
  · simp [hs]
  · exact hk _

@[simp] theorem State.holds_reading {α : Type} {va : Nat} {r : Except ReadStop α} {k : α → Out} (hk : ∀ a, HoldsAfter P (k a)) : HoldsAfter P (s.reading va r k) := by
  unfold State.reading
  split
  · simp [hs]
  · simp [hs]
  · exact hk _

@[simp] theorem State.holds_readingDesc {va n : Nat} {k : State → List Word → Out} (hk : ∀ u d, P u.mem → HoldsAfter P (k u d)) : HoldsAfter P (s.readingDesc va n k) :=
  State.holds_reading hs fun d => hk _ d (by simpa using hs)

@[simp] theorem State.holds_orCause {c : Option Cause} {k : Unit → Out} (hk : HoldsAfter P (k ())) : HoldsAfter P (s.orCause c k) := by
  unfold State.orCause
  split
  · simp [hs]
  · exact hk

@[simp] theorem State.holds_orFirst {cs : List (Nat × Option Cause)} {k : Unit → Out} (hk : HoldsAfter P (k ())) : HoldsAfter P (s.orFirst cs k) := by
  unfold State.orFirst
  split
  · simp [hs]
  · exact hk

@[simp] theorem State.holds_unlessPoisoned {offs : List Nat} {va : Nat} {k : Unit → Out} (hk : HoldsAfter P (k ())) : HoldsAfter P (s.unlessPoisoned offs va k) := by
  unfold State.unlessPoisoned
  split
  · simp [hs]
  · exact hk

@[simp] theorem State.holds_withPort {p : Nat} {k : Port → Out} (hk : ∀ q, HoldsAfter P (k q)) : HoldsAfter P (s.withPort p k) := by
  unfold State.withPort
  split
  · simp [hs]
  · exact hk _

@[simp] theorem State.holds_withVecs {slotA : Bool} {ins outs : List Nat} {k : List Nat → Out} (hk : ∀ vs, HoldsAfter P (k vs)) :
    HoldsAfter P (s.withVecs slotA ins outs k) := by
  unfold State.withVecs
  split
  · split <;> simp [hs]
  · simp [hs]
  · exact hk _

@[simp] theorem State.holds_withRaw {va n : Nat} {k : Nat → Out} (hk : ∀ v, HoldsAfter P (k v)) : HoldsAfter P (s.withRaw va n k) :=
  State.holds_orHalt hs fun ps => by
    split
    · exact (holds_notePieces ps _).2 (hk _)
    · simpa using hs

@[simp] theorem State.holds_withDesc32 {va : Nat} {k : List Word → Out} (hk : ∀ d, HoldsAfter P (k d)) : HoldsAfter P (s.withDesc32 va k) :=
  State.holds_withRaw hs fun _ => hk _

@[simp] theorem State.holds_withRows {va pitch rows bit : Nat} {elems : Nat → Nat} {accepts : Nat → Nat → Option Cause} {late : Option Cause} {k : RowPlan → List Row → Out}
    (hk : ∀ p rs, HoldsAfter P (k p rs)) : HoldsAfter P (s.withRows va pitch rows elems accepts late bit k) :=
  State.holds_orHalt hs fun p => by
    split
    · exact (holds_notePieces _ _).2 (hk p _)
    · simpa using hs

@[simp] theorem State.holds_lineOp {va : Nat} {k : Nat → Pte → State → Out} (hk : ∀ g e, HoldsAfter P (k g e s)) : HoldsAfter P (s.lineOp va k) := by
  unfold State.lineOp
  split
  · simp [hs]
  · simp [hs]
  · exact hk _ _

@[simp] theorem State.holds_holding {va : Nat} {synd : Cause → Nat} {start : State → Out} {k : Nat → Out} (hstart : HoldsAfter P (start s)) (hk : ∀ v, HoldsAfter P (k v)) :
    HoldsAfter P (s.holding va synd start k) := by
  unfold State.holding
  split
  · exact hk _
  · simp [hs]
  · split
    · simp [hs]
    · exact hstart

@[simp] theorem State.holds_loadBytes {va size align : Nat} {vector : Bool} {kind : AccKind} {k : Nat → Out} (hk : ∀ v, HoldsAfter P (k v)) :
    HoldsAfter P (s.loadBytes va size align vector kind k) := by
  refine State.holds_holding hs ?_ hk
  split
  · simp [hs]
  · simp [hs]
  · split <;> simp [hs]

@[simp] theorem State.holds_askDevice {dev size : Nat} {cap : Word} {k : Nat → Out} (hk : ∀ v, HoldsAfter P (k v)) : HoldsAfter P (s.askDevice dev size cap k) := by
  refine State.holds_holding hs ?_ hk
  split <;> simp [hs]

section
variable {k : State → Out} (hk : ∀ u, P u.mem → HoldsAfter P (k u))
include hk

@[simp] theorem State.holds_slotC {i : Instr} : HoldsAfter P (s.slotC i k) := by
  unfold State.slotC
  split
  · simp [hs]
  · exact hk s hs

@[simp] theorem State.holds_slotA {i : Instr} : HoldsAfter P (s.slotA i k) := by
  unfold State.slotA
  split
  · simp [hs]
  · exact hk s hs

@[simp] theorem State.holds_slotBinary {f : FmtAR} : HoldsAfter P (s.slotBinary f k) := by
  unfold State.slotBinary
  split
  · exact hk s hs
  · simpa using hs

@[simp] theorem State.holds_slotDot4 {f : FmtAVX} : HoldsAfter P (s.slotDot4 f k) := by
  unfold State.slotDot4
  split
  · simpa using hs
  · split
    · simpa using hs
    · exact hk s hs

@[simp] theorem State.holds_afterOwnStores : HoldsAfter P (s.afterOwnStores k) := by
  unfold State.afterOwnStores
  split
  · simpa using hs
  · exact hk s hs

@[simp] theorem State.holds_afterOccupancy : HoldsAfter P (s.afterOccupancy k) := by
  unfold State.afterOccupancy
  split
  · simpa using hs
  · exact hk s hs

@[simp] theorem State.holds_pace {w : Weight} : HoldsAfter P (s.pace w k) := by
  unfold State.pace
  simp only
  split
  · simpa using hs
  · split
    · simpa using hs
    · exact (State.holds_unpaced _).2 (hk _ (by simpa using hs))

@[simp] theorem State.holds_vecIssue : HoldsAfter P (s.vecIssue k) := by
  unfold State.vecIssue
  split
  · split
    · simpa using hs
    · exact State.holds_pace hs hk
  · exact hk s hs

@[simp] theorem State.holds_sparseIssue : HoldsAfter P (s.sparseIssue k) := by
  unfold State.sparseIssue
  split
  · simpa using hs
  · exact State.holds_afterOccupancy hs fun _ hu => State.holds_pace hu hk

@[simp] theorem State.holds_attIssue {states : List Nat} {reads : BitVec 4} : HoldsAfter P (s.attIssue states reads k) := by
  unfold State.attIssue
  split
  · simpa using hs
  · split
    · simpa using hs
    · split
      · simpa using hs
      · exact State.holds_afterOccupancy hs fun _ hu => State.holds_pace hu hk

@[simp] theorem State.holds_releaseThen {scope need : Nat} {wait : Cause} : HoldsAfter P (s.releaseThen scope need wait k) := by
  unfold State.releaseThen
  simp only
  split
  · exact hk _ (by simpa using hs)
  · simpa using hs

@[simp] theorem State.holds_storeBytes {va size align data : Nat} {vector : Bool} {kind : AccKind} : HoldsAfter P (s.storeBytes va size align data vector kind k) := by
  unfold State.storeBytes
  split
  · exact hk s hs
  · simpa using hs
  · split
    · simpa using hs
    · split
      · simpa using hs
      · simpa using hs
      · split
        · simpa using hs
        · simp only
          split
          · simpa using hs
          · exact hk _ (by simpa using hs)

end

@[simp] theorem State.holds_withWorkList {va : Nat} {writes : Bool} {k : State → WorkList → Nat → Out} (hk : ∀ u w g, P u.mem → HoldsAfter P (k u w g)) :
    HoldsAfter P (s.withWorkList va writes k) := by
  refine State.holds_afterOwnStores hs fun u hu => State.holds_orHalt hu fun ps => ?_
  split
  · simpa using hu
  · split
    · simpa using hu
    · split
      · simpa using hu
      · refine State.holds_orHalt hu fun _ => ?_
        simp only
        split
        · simpa using hu
        · split
          · simpa using hu
          · split
            · simpa using hu
            · exact hk u _ _ hu

end
end

end Sys2Proof.Machine
end

section
/-! SUPPORT. The instructions and events that write no byte of memory themselves (R314): whatever memory has when one begins, it has in the state that the outcome
goes on in. -/

namespace Sys2Proof.Machine

section
variable {P : Memory → Prop} {s : State}

theorem State.mem_of_fetch {s u : State} {d : Nat} (h : s.fetch = .ok d u) : u.mem = s.mem := by
  unfold State.fetch at h
  extract_lets c lines s1 pc at h
  have h1 : s1.mem = s.mem := by simp [s1]
  clear_value s1
  split at h
  · cases h
  · split at h
    · cases h
    · cases h
    · simp only at h
      split at h
      · cases h
        exact h1
      · split at h
        · cases h
        · cases h
          simpa using h1

variable (hs : P s.mem)
include hs

/-! ### Machine/Count -/

theorem holds_execCounterOverflow : HoldsAfter P (execCounterOverflow s) := by simp [execCounterOverflow, hs]

/-! ### Machine/Cap -/

theorem holds_execCapMint (f : FmtCR) : HoldsAfter P (execCapMint f s) := by simp +contextual [execCapMint, hs]
theorem holds_execCapNarrow (f : FmtCR) : HoldsAfter P (execCapNarrow f s) := by simp +contextual [execCapNarrow, hs]
theorem holds_execCapSelf (f : FmtCR) : HoldsAfter P (execCapSelf f s) := by simp [execCapSelf, hs]
@[simp] theorem State.holds_control (xb : BitVec 5) (wake : Bool) : HoldsAfter P (s.control xb wake) := by
  unfold State.control
  repeat' split
  all_goals simp [hs]
theorem holds_execWake (f : FmtCR) : HoldsAfter P (execWake f s) := by simp +contextual [execWake, hs]
theorem holds_execHalt (f : FmtCR) : HoldsAfter P (execHalt f s) := by simp +contextual [execHalt, hs]

/-! ### Machine/Message -/

theorem holds_execPeek (f : FmtCR) : HoldsAfter P (execPeek f s) := by simp +contextual [execPeek, hs]
theorem holds_execMcnt (f : FmtCR) : HoldsAfter P (execMcnt f s) := by simp +contextual [execMcnt, hs]
theorem holds_execMdrop (f : FmtCR) : HoldsAfter P (execMdrop f s) := by simp +contextual [execMdrop, hs]
theorem holds_execMtake (f : FmtCR) : HoldsAfter P (execMtake f s) :=
  State.holds_slotC hs fun u hu => State.holds_withPort hu fun _ => State.holds_withVecs hu fun _ => by
    split
    · split <;> simpa using hu
    · simpa using hu

theorem State.holds_sendQueue {s0 : State} (hs0 : P s0.mem) (f : FmtCR) (form : SendForm) (vn port rtag : Nat) (lo : Word) (rq : Bool) (words : List Word) :
    HoldsAfter P (s0.sendQueue s f form vn port rtag lo rq words) := by
  unfold State.sendQueue
  simp only
  split
  · split
    · simpa using hs0
    · simpa using hs
    · split
      · simpa using hs0
      · simpa using hs0
  · simpa using hs

theorem State.holds_sendAny (f : FmtCR) (form : SendForm) : HoldsAfter P (s.sendAny f form) := by
  have hfault := fun (c : Cause) (a y : Nat) => (State.holds_faultC (P := P) (s := s) c a y).2 hs
  have hqueue := fun (u : State) (hu : P u.mem) (rs : List Nat) => (u.mem_popStreams rs).symm ▸ hu
  refine State.holds_withVecs hs fun _ => ?_
  extract_lets
  split
  · exact hfault _ _ _
  · refine State.holds_withVecs hs fun _ => ?_
    extract_lets
    split
    extract_lets
    split
    · exact hfault _ _ _
    · split
      · exact hfault _ _ _
      · split
        · exact hfault _ _ _
        · split
          · exact hfault _ _ _
          · split
            · exact hfault _ _ _
            · split
              · exact State.holds_sendQueue (hqueue _ hs _) hs _ _ _ _ _ _ _ _
              · exact State.holds_releaseThen hs fun _ hu => State.holds_sendQueue (hqueue _ hu _) hs _ _ _ _ _ _ _ _

theorem holds_execSend (f : FmtCR) : HoldsAfter P (execSend f s) :=
  State.holds_slotC hs fun _ hu => State.holds_sendAny hu _ _
theorem holds_execSendr (f : FmtCR) : HoldsAfter P (execSendr f s) :=
  State.holds_slotC hs fun _ hu => State.holds_sendAny hu _ _
theorem holds_execSendSys (f : FmtCR) : HoldsAfter P (execSendSys f s) :=
  State.holds_slotC hs fun _ hu => State.holds_sendAny hu _ _

/-! ### Machine/System -/

theorem holds_execTrap (f : FmtCU) : HoldsAfter P (execTrap f s) := by simp [execTrap, hs]
theorem holds_execBrk (f : FmtCU) : HoldsAfter P (execBrk f s) := by simp [execBrk, hs]
theorem holds_execCln (f : FmtCR) : HoldsAfter P (execCln f s) := by simp +contextual [execCln, hs]
theorem holds_execInv (f : FmtCR) : HoldsAfter P (execInv f s) := by simp +contextual [execInv, hs]
theorem holds_execLutLd (f : FmtCR) : HoldsAfter P (execLutLd f s) := by simp +contextual [execLutLd, hs]
theorem holds_execModeL : HoldsAfter P (execModeL s) :=
  State.holds_slotC hs fun u hu => by
    split
    · simpa using hu
    · split
      · simpa using hu
      · split
        · simpa using hu
        · split
          · split <;> simpa using hu
          · simpa using hu

theorem holds_execModeS : HoldsAfter P (execModeS s) := by simp +contextual [execModeS, hs]

/-! ### Machine/Firing -/

theorem holds_execDone : HoldsAfter P (execDone s) := by simp +contextual [execDone, hs]
theorem holds_execPark : HoldsAfter P (execPark s) := by simp +contextual [execPark, hs]
theorem holds_execNpOn : HoldsAfter P (execNpOn s) := by simp +contextual [execNpOn, hs]
theorem holds_execNpOff : HoldsAfter P (execNpOff s) := by simp +contextual [execNpOff, hs]

/-! ### Machine/Actor -/

theorem holds_execActDel (f : FmtCR) : HoldsAfter P (execActDel f s) :=
  State.holds_slotC hs fun u hu => by
    simp only
    split
    · simpa using hu
    · split
      · simpa using hu
      · split
        · simpa using hu
        · split
          · simpa using hu
          · simpa using hu
          · exact State.holds_askDevice hu fun _ => by simpa using hu
          · split
            · simpa using hu
            · split
              · simpa using hu
              · split <;> simpa using hu

theorem holds_execLaunch (f : FmtWE) : HoldsAfter P (execLaunch f s) :=
  State.holds_slotC hs fun u hu => by
    simp only
    split
    · simpa using hu
    · refine State.holds_readingDesc hu fun w d hw => ?_
      split
      · simpa using hw
      · split
        · simpa using hw
        · split
          · simpa using hw
          · split
            · simpa using hw
            · simpa using hw

/-! ### Machine/Pip -/

theorem holds_execPipReq (f : FmtCR) : HoldsAfter P (execPipReq f s) := by simp +contextual [execPipReq, hs]
theorem holds_execPipRel (f : FmtCR) : HoldsAfter P (execPipRel f s) := by simp +contextual [execPipRel, hs]
theorem holds_execPipLend (f : FmtCR) : HoldsAfter P (execPipLend f s) :=
  State.holds_slotC hs fun u hu => by
    simp only
    split
    · simpa using hu
    · split
      · simp [hu]
      · simpa using hu

theorem holds_execPipStat (f : FmtCR) : HoldsAfter P (execPipStat f s) := by simp [execPipStat, hs]

/-! ### Machine/Clock -/

theorem holds_execFclkctlWrite : HoldsAfter P (execFclkctlWrite s) := by simp [execFclkctlWrite, hs]
theorem holds_execRelockEnd : HoldsAfter P (execRelockEnd s) := by
  simp only [execRelockEnd]
  repeat' split
  all_goals simp [hs]
theorem holds_execRailvWrite : HoldsAfter P (execRailvWrite s) := by simp [execRailvWrite, hs]
theorem holds_execRailSlewEnd : HoldsAfter P (execRailSlewEnd s) := by simp [execRailSlewEnd, hs]
theorem holds_execRailswMove : HoldsAfter P (execRailswMove s) := by simp [execRailswMove, hs]
theorem holds_execPkgPowerLimit : HoldsAfter P (execPkgPowerLimit s) := by simp [execPkgPowerLimit, hs]
theorem holds_execPowerLimitClear : HoldsAfter P (execPowerLimitClear s) := by simp [execPowerLimitClear, hs]
theorem holds_execThermalLimit : HoldsAfter P (execThermalLimit s) := by simp [execThermalLimit, hs]
theorem holds_execRailOvercurrent : HoldsAfter P (execRailOvercurrent s) := by simp [execRailOvercurrent, hs]

/-! ### Machine/Gating -/

theorem holds_execTileIdleGate : HoldsAfter P (execTileIdleGate s) := by simp [execTileIdleGate, hs]
theorem holds_execGatingHoldEnd : HoldsAfter P (execGatingHoldEnd s) := by simp [execGatingHoldEnd, hs]
theorem holds_execTilepwrWakeWrite : HoldsAfter P (execTilepwrWakeWrite s) := by simp [execTilepwrWakeWrite, hs]
theorem holds_execWakePromotion : HoldsAfter P (execWakePromotion s) := by simp [execWakePromotion, hs]
theorem holds_execWakeStart : HoldsAfter P (execWakeStart s) := by simp only [execWakeStart]; split <;> simp [hs]
theorem holds_execWakeComplete : HoldsAfter P (execWakeComplete s) := by simp [execWakeComplete, hs]

/-! ### Machine/Memory -/

@[simp] theorem State.holds_load (xd : BitVec 5) (va size : Nat) (signed : Bool) : HoldsAfter P (s.load xd va size signed) := by simp [State.load, hs]
@[simp] theorem State.holds_store (xt : BitVec 5) (va size : Nat) : HoldsAfter P (s.store xt va size) := by simp [State.store, hs]
@[simp] theorem State.holds_loadVec (rt : BitVec 5) (va : Nat) : HoldsAfter P (s.loadVec rt va) := by simp [State.loadVec, hs]
@[simp] theorem State.holds_storeVec (rt : BitVec 5) (va : Nat) : HoldsAfter P (s.storeVec rt va) := by simp [State.storeVec, hs]
theorem holds_execLdB (f : FmtCM) : HoldsAfter P (execLdB f s) := by simp +contextual [execLdB, hs]
theorem holds_execLdBIndexed (f : FmtCX) : HoldsAfter P (execLdBIndexed f s) := by simp +contextual [execLdBIndexed, hs]
theorem holds_execLdBu (f : FmtCM) : HoldsAfter P (execLdBu f s) := by simp +contextual [execLdBu, hs]
theorem holds_execLdBuIndexed (f : FmtCX) : HoldsAfter P (execLdBuIndexed f s) := by simp +contextual [execLdBuIndexed, hs]
theorem holds_execLdH (f : FmtCM) : HoldsAfter P (execLdH f s) := by simp +contextual [execLdH, hs]
theorem holds_execLdHIndexed (f : FmtCX) : HoldsAfter P (execLdHIndexed f s) := by simp +contextual [execLdHIndexed, hs]
theorem holds_execLdHu (f : FmtCM) : HoldsAfter P (execLdHu f s) := by simp +contextual [execLdHu, hs]
theorem holds_execLdHuIndexed (f : FmtCX) : HoldsAfter P (execLdHuIndexed f s) := by simp +contextual [execLdHuIndexed, hs]
theorem holds_execLdW (f : FmtCM) : HoldsAfter P (execLdW f s) := by simp +contextual [execLdW, hs]
theorem holds_execLdWIndexed (f : FmtCX) : HoldsAfter P (execLdWIndexed f s) := by simp +contextual [execLdWIndexed, hs]
theorem holds_execLdWu (f : FmtCM) : HoldsAfter P (execLdWu f s) := by simp +contextual [execLdWu, hs]
theorem holds_execLdWuIndexed (f : FmtCX) : HoldsAfter P (execLdWuIndexed f s) := by simp +contextual [execLdWuIndexed, hs]
theorem holds_execLdD (f : FmtCM) : HoldsAfter P (execLdD f s) := by simp +contextual [execLdD, hs]
theorem holds_execLdDIndexed (f : FmtCX) : HoldsAfter P (execLdDIndexed f s) := by simp +contextual [execLdDIndexed, hs]
theorem holds_execStB (f : FmtCM) : HoldsAfter P (execStB f s) := by simp +contextual [execStB, hs]
theorem holds_execStBIndexed (f : FmtCX) : HoldsAfter P (execStBIndexed f s) := by simp +contextual [execStBIndexed, hs]
theorem holds_execStH (f : FmtCM) : HoldsAfter P (execStH f s) := by simp +contextual [execStH, hs]
theorem holds_execStHIndexed (f : FmtCX) : HoldsAfter P (execStHIndexed f s) := by simp +contextual [execStHIndexed, hs]
theorem holds_execStW (f : FmtCM) : HoldsAfter P (execStW f s) := by simp +contextual [execStW, hs]
theorem holds_execStWIndexed (f : FmtCX) : HoldsAfter P (execStWIndexed f s) := by simp +contextual [execStWIndexed, hs]
theorem holds_execStD (f : FmtCM) : HoldsAfter P (execStD f s) := by simp +contextual [execStD, hs]
theorem holds_execStDIndexed (f : FmtCX) : HoldsAfter P (execStDIndexed f s) := by simp +contextual [execStDIndexed, hs]
theorem holds_execLdV (f : FmtCM) : HoldsAfter P (execLdV f s) := by simp +contextual [execLdV, hs]
theorem holds_execLdVIndexed (f : FmtCX) : HoldsAfter P (execLdVIndexed f s) := by simp +contextual [execLdVIndexed, hs]
theorem holds_execStV (f : FmtCM) : HoldsAfter P (execStV f s) := by simp +contextual [execStV, hs]
theorem holds_execStVIndexed (f : FmtCX) : HoldsAfter P (execStVIndexed f s) := by simp +contextual [execStVIndexed, hs]
theorem holds_execLdAcq (f : FmtCMS) : HoldsAfter P (execLdAcq f s) := by simp +contextual [execLdAcq, hs]
theorem holds_execStRel (f : FmtCMS) : HoldsAfter P (execStRel f s) :=
  State.holds_slotC hs fun _ hu => by
    simp only
    split
    · simpa using hu
    · simpa using hu
    · split
      · simpa using hu
      · exact State.holds_releaseThen hu fun _ hv => State.holds_storeBytes hv fun _ hw => by simpa using hw

theorem holds_execPf (f : FmtCM) : HoldsAfter P (execPf f s) :=
  State.holds_slotC hs fun _ hu => by
    simp only
    split <;> simpa using hu
theorem holds_execFence (f : FmtCF) : HoldsAfter P (execFence f s) := by simp +contextual [execFence, hs]
theorem holds_execWait (f : FmtCR) : HoldsAfter P (execWait f s) := by simp +contextual [execWait, hs]

/-! ### Machine/Scalar -/

@[simp] theorem State.holds_divide (f : FmtAR) (op : Word → Word → Word) : HoldsAfter P (s.divide f op) := by simp [State.divide, hs]
theorem holds_execNopA : HoldsAfter P (execNopA s) := by simp [execNopA, hs]
theorem holds_execAdd (f : FmtAR) : HoldsAfter P (execAdd f s) := by simp [execAdd, hs]
theorem holds_execSub (f : FmtAR) : HoldsAfter P (execSub f s) := by simp [execSub, hs]
theorem holds_execMul (f : FmtAR) : HoldsAfter P (execMul f s) := by simp [execMul, hs]
theorem holds_execMulh (f : FmtAR) : HoldsAfter P (execMulh f s) := by simp [execMulh, hs]
theorem holds_execMulhu (f : FmtAR) : HoldsAfter P (execMulhu f s) := by simp [execMulhu, hs]
theorem holds_execDiv (f : FmtAR) : HoldsAfter P (execDiv f s) := by simp +contextual [execDiv, hs]
theorem holds_execDivu (f : FmtAR) : HoldsAfter P (execDivu f s) := by simp +contextual [execDivu, hs]
theorem holds_execRem (f : FmtAR) : HoldsAfter P (execRem f s) := by simp +contextual [execRem, hs]
theorem holds_execRemu (f : FmtAR) : HoldsAfter P (execRemu f s) := by simp +contextual [execRemu, hs]
theorem holds_execAnd (f : FmtAR) : HoldsAfter P (execAnd f s) := by simp [execAnd, hs]
theorem holds_execOr (f : FmtAR) : HoldsAfter P (execOr f s) := by simp [execOr, hs]
theorem holds_execXor (f : FmtAR) : HoldsAfter P (execXor f s) := by simp [execXor, hs]
theorem holds_execAndn (f : FmtAR) : HoldsAfter P (execAndn f s) := by simp [execAndn, hs]
theorem holds_execOrn (f : FmtAR) : HoldsAfter P (execOrn f s) := by simp [execOrn, hs]
theorem holds_execShl (f : FmtAR) : HoldsAfter P (execShl f s) := by simp [execShl, hs]
theorem holds_execShr (f : FmtAR) : HoldsAfter P (execShr f s) := by simp [execShr, hs]
theorem holds_execSra (f : FmtAR) : HoldsAfter P (execSra f s) := by simp [execSra, hs]
theorem holds_execRol (f : FmtAR) : HoldsAfter P (execRol f s) := by simp [execRol, hs]
theorem holds_execMin (f : FmtAR) : HoldsAfter P (execMin f s) := by simp [execMin, hs]
theorem holds_execMax (f : FmtAR) : HoldsAfter P (execMax f s) := by simp [execMax, hs]
theorem holds_execMinu (f : FmtAR) : HoldsAfter P (execMinu f s) := by simp [execMinu, hs]
theorem holds_execMaxu (f : FmtAR) : HoldsAfter P (execMaxu f s) := by simp [execMaxu, hs]
theorem holds_execSlt (f : FmtAR) : HoldsAfter P (execSlt f s) := by simp [execSlt, hs]
theorem holds_execSltu (f : FmtAR) : HoldsAfter P (execSltu f s) := by simp [execSltu, hs]
theorem holds_execSeq (f : FmtAR) : HoldsAfter P (execSeq f s) := by simp [execSeq, hs]
theorem holds_execSel (f : FmtAR) : HoldsAfter P (execSel f s) := by simp [execSel, hs]
theorem holds_execClz (f : FmtAR) : HoldsAfter P (execClz f s) := by simp [execClz, hs]
theorem holds_execCtz (f : FmtAR) : HoldsAfter P (execCtz f s) := by simp [execCtz, hs]
theorem holds_execPopc (f : FmtAR) : HoldsAfter P (execPopc f s) := by simp [execPopc, hs]
theorem holds_execBswap (f : FmtAR) : HoldsAfter P (execBswap f s) := by simp [execBswap, hs]
theorem holds_execSextB (f : FmtAR) : HoldsAfter P (execSextB f s) := by simp [execSextB, hs]
theorem holds_execSextH (f : FmtAR) : HoldsAfter P (execSextH f s) := by simp [execSextH, hs]
theorem holds_execSextW (f : FmtAR) : HoldsAfter P (execSextW f s) := by simp [execSextW, hs]
theorem holds_execZextB (f : FmtAR) : HoldsAfter P (execZextB f s) := by simp [execZextB, hs]
theorem holds_execZextH (f : FmtAR) : HoldsAfter P (execZextH f s) := by simp [execZextH, hs]
theorem holds_execZextW (f : FmtAR) : HoldsAfter P (execZextW f s) := by simp [execZextW, hs]
theorem holds_execAddi (f : FmtAI) : HoldsAfter P (execAddi f s) := by simp [execAddi, hs]
theorem holds_execAndi (f : FmtAI) : HoldsAfter P (execAndi f s) := by simp [execAndi, hs]
theorem holds_execOri (f : FmtAI) : HoldsAfter P (execOri f s) := by simp [execOri, hs]
theorem holds_execXori (f : FmtAI) : HoldsAfter P (execXori f s) := by simp [execXori, hs]
theorem holds_execShli (f : FmtAI) : HoldsAfter P (execShli f s) := by simp [execShli, hs]
theorem holds_execShri (f : FmtAI) : HoldsAfter P (execShri f s) := by simp [execShri, hs]
theorem holds_execSrai (f : FmtAI) : HoldsAfter P (execSrai f s) := by simp [execSrai, hs]
theorem holds_execLi (f : FmtAL) : HoldsAfter P (execLi f s) := by simp [execLi, hs]
theorem holds_execLih (f : FmtAL) : HoldsAfter P (execLih f s) := by simp [execLih, hs]
theorem holds_execLiD (f : FmtWL) : HoldsAfter P (execLiD f s) := by simp [execLiD, hs]
theorem holds_execLiDHi (f : FmtWL) : HoldsAfter P (execLiDHi f s) := by simp [execLiDHi, hs]

/-! ### Machine/Float -/

@[simp] theorem State.holds_floatAdd (F : FloatFmt) (f : FmtAR) : HoldsAfter P (s.floatAdd F f) := by simp [State.floatAdd, hs]
@[simp] theorem State.holds_floatSub (F : FloatFmt) (f : FmtAR) : HoldsAfter P (s.floatSub F f) := by simp [State.floatSub, hs]
@[simp] theorem State.holds_floatMul (F : FloatFmt) (f : FmtAR) : HoldsAfter P (s.floatMul F f) := by simp [State.floatMul, hs]
@[simp] theorem State.holds_floatFma (F : FloatFmt) (f : FmtAR) : HoldsAfter P (s.floatFma F f) := by simp [State.floatFma, hs]
@[simp] theorem State.holds_floatPick (F : FloatFmt) (f : FmtAR) (op : XNum → XNum → XNum) : HoldsAfter P (s.floatPick F f op) := by
  simp [State.floatPick, hs]
@[simp] theorem State.holds_floatTest (F : FloatFmt) (f : FmtAR) (op : XNum → XNum → Bool) : HoldsAfter P (s.floatTest F f op) := by
  simp [State.floatTest, hs]
@[simp] theorem State.holds_floatClass (F : FloatFmt) (f : FmtAR) : HoldsAfter P (s.floatClass F f) := by simp [State.floatClass, hs]
theorem holds_execFaddS (f : FmtAR) : HoldsAfter P (execFaddS f s) := by simp +contextual [execFaddS, hs]
theorem holds_execFsubS (f : FmtAR) : HoldsAfter P (execFsubS f s) := by simp +contextual [execFsubS, hs]
theorem holds_execFmulS (f : FmtAR) : HoldsAfter P (execFmulS f s) := by simp +contextual [execFmulS, hs]
theorem holds_execFmaS (f : FmtAR) : HoldsAfter P (execFmaS f s) := by simp +contextual [execFmaS, hs]
theorem holds_execFminS (f : FmtAR) : HoldsAfter P (execFminS f s) := by simp +contextual [execFminS, hs]
theorem holds_execFmaxS (f : FmtAR) : HoldsAfter P (execFmaxS f s) := by simp +contextual [execFmaxS, hs]
theorem holds_execFeqS (f : FmtAR) : HoldsAfter P (execFeqS f s) := by simp +contextual [execFeqS, hs]
theorem holds_execFltS (f : FmtAR) : HoldsAfter P (execFltS f s) := by simp +contextual [execFltS, hs]
theorem holds_execFleS (f : FmtAR) : HoldsAfter P (execFleS f s) := by simp +contextual [execFleS, hs]
theorem holds_execFsgnjS (f : FmtAR) : HoldsAfter P (execFsgnjS f s) := by simp [execFsgnjS, hs]
theorem holds_execFclassS (f : FmtAR) : HoldsAfter P (execFclassS f s) := by simp +contextual [execFclassS, hs]
theorem holds_execFaddH (f : FmtAR) : HoldsAfter P (execFaddH f s) := by simp +contextual [execFaddH, hs]
theorem holds_execFsubH (f : FmtAR) : HoldsAfter P (execFsubH f s) := by simp +contextual [execFsubH, hs]
theorem holds_execFmulH (f : FmtAR) : HoldsAfter P (execFmulH f s) := by simp +contextual [execFmulH, hs]
theorem holds_execFmaH (f : FmtAR) : HoldsAfter P (execFmaH f s) := by simp +contextual [execFmaH, hs]
theorem holds_execFminH (f : FmtAR) : HoldsAfter P (execFminH f s) := by simp +contextual [execFminH, hs]
theorem holds_execFmaxH (f : FmtAR) : HoldsAfter P (execFmaxH f s) := by simp +contextual [execFmaxH, hs]
theorem holds_execFeqH (f : FmtAR) : HoldsAfter P (execFeqH f s) := by simp +contextual [execFeqH, hs]
theorem holds_execFltH (f : FmtAR) : HoldsAfter P (execFltH f s) := by simp +contextual [execFltH, hs]
theorem holds_execFleH (f : FmtAR) : HoldsAfter P (execFleH f s) := by simp +contextual [execFleH, hs]
theorem holds_execFsgnjH (f : FmtAR) : HoldsAfter P (execFsgnjH f s) := by simp [execFsgnjH, hs]
theorem holds_execFclassH (f : FmtAR) : HoldsAfter P (execFclassH f s) := by simp +contextual [execFclassH, hs]
theorem holds_execFcvtSW (f : FmtAR) : HoldsAfter P (execFcvtSW f s) := by simp [execFcvtSW, hs]
theorem holds_execFcvtWS (f : FmtAR) : HoldsAfter P (execFcvtWS f s) := by simp +contextual [execFcvtWS, hs]
theorem holds_execFcvtSH (f : FmtAR) : HoldsAfter P (execFcvtSH f s) := by simp [execFcvtSH, hs]
theorem holds_execFcvtHS (f : FmtAR) : HoldsAfter P (execFcvtHS f s) := by simp [execFcvtHS, hs]

/-! ### Machine/Vector -/

theorem State.holds_lanewise (vd : Nat) (ins : List Nat) (t : BitVec 2) (pair sr : Bool) (on : Nat → Bool) (g : Nat → List Nat → Nat → Except Cause Nat) :
    HoldsAfter P (s.lanewise vd ins t pair sr on g) :=
  State.holds_withVecs hs fun vals => by
    split
    · simpa using hs
    · split
      · simpa using hs
      · split
        · split
          · simpa using hs
          · split
            · simpa using hs
            · simpa using hs
        · simpa using hs

theorem State.holds_vecArith (f : FmtAV) (acc : Bool) (fop : Bool → XNum → XNum → XNum → XNum) (iop : Int → Int → Int → Int) :
    HoldsAfter P (s.vecArith f acc fop iop) :=
  State.holds_vecIssue hs fun _ hu => State.holds_lanewise hu _ _ _ _ _ _ _
theorem State.holds_vecArithX (f : FmtAVX) (acc : Bool) (fop : Bool → XNum → XNum → XNum → XNum) (iop : Int → Int → Int → Int) :
    HoldsAfter P (s.vecArithX f acc fop iop) :=
  State.holds_vecIssue hs fun _ hu => State.holds_lanewise hu _ _ _ _ _ _ _
theorem State.holds_vecBits (f : FmtAV) (g : Nat → Nat → Nat) : HoldsAfter P (s.vecBits f g) :=
  State.holds_vecIssue hs fun _ hu => State.holds_lanewise hu _ _ _ _ _ _ _
theorem State.holds_vecBitsX (f : FmtAVX) (y : Nat) (g : Nat → Nat → Nat) : HoldsAfter P (s.vecBitsX f y g) :=
  State.holds_vecIssue hs fun _ hu => State.holds_lanewise hu _ _ _ _ _ _ _
theorem State.holds_vecUnaryRaw (f : FmtAV) (g : Nat → Except Cause Nat) : HoldsAfter P (s.vecUnaryRaw f g) :=
  State.holds_lanewise hs _ _ _ _ _ _ _
theorem State.holds_vecUnary (f : FmtAV) (g : Nat → Except Cause Nat) : HoldsAfter P (s.vecUnary f g) :=
  State.holds_vecIssue hs fun _ hu => State.holds_vecUnaryRaw hu _ _
@[simp] theorem State.holds_vecCompare (kd : BitVec 4) (ins : List Nat) (t : BitVec 2) (me : BitVec 1) (km : BitVec 3) (test : Nat → List Nat → Bool) :
    HoldsAfter P (s.vecCompare kd ins t me km test) := by
  simp +contextual [State.vecCompare, hs]
theorem holds_execVadd (f : FmtAV) : HoldsAfter P (execVadd f s) :=
  State.holds_slotA hs fun _ hu => State.holds_vecArith hu _ _ _ _
theorem holds_execVsub (f : FmtAV) : HoldsAfter P (execVsub f s) :=
  State.holds_slotA hs fun _ hu => State.holds_vecArith hu _ _ _ _
theorem holds_execVmul (f : FmtAV) : HoldsAfter P (execVmul f s) :=
  State.holds_slotA hs fun _ hu => State.holds_vecArith hu _ _ _ _
theorem holds_execVfma (f : FmtAV) : HoldsAfter P (execVfma f s) :=
  State.holds_slotA hs fun _ hu => State.holds_vecArith hu _ _ _ _
theorem holds_execVmin (f : FmtAV) : HoldsAfter P (execVmin f s) :=
  State.holds_slotA hs fun _ hu => State.holds_vecBits hu _ _
theorem holds_execVmax (f : FmtAV) : HoldsAfter P (execVmax f s) :=
  State.holds_slotA hs fun _ hu => State.holds_vecBits hu _ _
theorem holds_execVabs (f : FmtAV) : HoldsAfter P (execVabs f s) :=
  State.holds_slotA hs fun _ hu => State.holds_vecUnary hu _ _
theorem holds_execVneg (f : FmtAV) : HoldsAfter P (execVneg f s) :=
  State.holds_slotA hs fun _ hu => State.holds_vecUnary hu _ _
theorem holds_execVand (f : FmtAV) : HoldsAfter P (execVand f s) :=
  State.holds_slotA hs fun _ hu => State.holds_vecBits hu _ _
theorem holds_execVor (f : FmtAV) : HoldsAfter P (execVor f s) :=
  State.holds_slotA hs fun _ hu => State.holds_vecBits hu _ _
theorem holds_execVxor (f : FmtAV) : HoldsAfter P (execVxor f s) :=
  State.holds_slotA hs fun _ hu => State.holds_vecBits hu _ _
theorem holds_execVshl (f : FmtAV) : HoldsAfter P (execVshl f s) :=
  State.holds_slotA hs fun _ hu => State.holds_vecBits hu _ _
theorem holds_execVshr (f : FmtAV) : HoldsAfter P (execVshr f s) :=
  State.holds_slotA hs fun _ hu => State.holds_vecBits hu _ _
theorem holds_execVsra (f : FmtAV) : HoldsAfter P (execVsra f s) :=
  State.holds_slotA hs fun _ hu => State.holds_vecBits hu _ _
theorem holds_execVcmp (f : FmtAV) : HoldsAfter P (execVcmp f s) := by simp +contextual [execVcmp, hs]
theorem holds_execVsel (f : FmtAV) : HoldsAfter P (execVsel f s) :=
  State.holds_slotA hs fun _ hs => State.holds_vecIssue hs fun _ hu => State.holds_lanewise hu _ _ _ _ _ _ _
theorem holds_execVaddScalar (f : FmtAVX) : HoldsAfter P (execVaddScalar f s) :=
  State.holds_slotA hs fun _ hu => State.holds_vecArithX hu _ _ _ _
theorem holds_execVsubScalar (f : FmtAVX) : HoldsAfter P (execVsubScalar f s) :=
  State.holds_slotA hs fun _ hu => State.holds_vecArithX hu _ _ _ _
theorem holds_execVmulScalar (f : FmtAVX) : HoldsAfter P (execVmulScalar f s) :=
  State.holds_slotA hs fun _ hu => State.holds_vecArithX hu _ _ _ _
theorem holds_execVfmaScalar (f : FmtAVX) : HoldsAfter P (execVfmaScalar f s) :=
  State.holds_slotA hs fun _ hu => State.holds_vecArithX hu _ _ _ _
theorem holds_execVminScalar (f : FmtAVX) : HoldsAfter P (execVminScalar f s) :=
  State.holds_slotA hs fun _ hu => State.holds_vecBitsX hu _ _ _
theorem holds_execVmaxScalar (f : FmtAVX) : HoldsAfter P (execVmaxScalar f s) :=
  State.holds_slotA hs fun _ hu => State.holds_vecBitsX hu _ _ _
theorem holds_execVandScalar (f : FmtAVX) : HoldsAfter P (execVandScalar f s) :=
  State.holds_slotA hs fun _ hu => State.holds_vecBitsX hu _ _ _
theorem holds_execVorScalar (f : FmtAVX) : HoldsAfter P (execVorScalar f s) :=
  State.holds_slotA hs fun _ hu => State.holds_vecBitsX hu _ _ _
theorem holds_execVxorScalar (f : FmtAVX) : HoldsAfter P (execVxorScalar f s) :=
  State.holds_slotA hs fun _ hu => State.holds_vecBitsX hu _ _ _
theorem holds_execVshlScalar (f : FmtAVX) : HoldsAfter P (execVshlScalar f s) :=
  State.holds_slotA hs fun _ hu => State.holds_vecBitsX hu _ _ _
theorem holds_execVshrScalar (f : FmtAVX) : HoldsAfter P (execVshrScalar f s) :=
  State.holds_slotA hs fun _ hu => State.holds_vecBitsX hu _ _ _
theorem holds_execVsraScalar (f : FmtAVX) : HoldsAfter P (execVsraScalar f s) :=
  State.holds_slotA hs fun _ hu => State.holds_vecBitsX hu _ _ _
theorem holds_execVcmpScalar (f : FmtAVX) : HoldsAfter P (execVcmpScalar f s) := by simp +contextual [execVcmpScalar, hs]
theorem holds_execVselScalar (f : FmtAVX) : HoldsAfter P (execVselScalar f s) :=
  State.holds_slotA hs fun _ hs => State.holds_vecIssue hs fun _ hu => State.holds_lanewise hu _ _ _ _ _ _ _
theorem holds_execVdot4 (f : FmtAV) : HoldsAfter P (execVdot4 f s) :=
  State.holds_slotA hs fun _ hs => State.holds_vecIssue hs fun _ hu => State.holds_lanewise hu _ _ _ _ _ _ _
theorem holds_execVdot4Scalar (f : FmtAVX) : HoldsAfter P (execVdot4Scalar f s) :=
  State.holds_slotDot4 hs fun _ hs => State.holds_vecIssue hs fun _ hu => State.holds_lanewise hu _ _ _ _ _ _ _
theorem holds_execVbcast (f : FmtAVX) : HoldsAfter P (execVbcast f s) :=
  State.holds_slotA hs fun _ hs => State.holds_vecIssue hs fun _ hu => State.holds_lanewise hu _ _ _ _ _ _ _
theorem holds_execVperm (f : FmtAV) : HoldsAfter P (execVperm f s) :=
  State.holds_slotA hs fun _ hs => State.holds_vecIssue hs fun _ hu => State.holds_lanewise hu _ _ _ _ _ _ _
theorem holds_execVins (f : FmtAVI) : HoldsAfter P (execVins f s) :=
  State.holds_slotA hs fun _ hs => State.holds_vecIssue hs fun _ hu => State.holds_lanewise hu _ _ _ _ _ _ _
theorem holds_execVext (f : FmtAVS) : HoldsAfter P (execVext f s) :=
  State.holds_slotA hs fun _ hs => State.holds_vecIssue hs fun _ hu => State.holds_withVecs hu fun _ => by simpa using hu
theorem holds_execVmov (f : FmtAV) : HoldsAfter P (execVmov f s) :=
  State.holds_slotA hs fun _ hu => State.holds_vecUnary hu _ _
theorem holds_execVpopc (f : FmtAV) : HoldsAfter P (execVpopc f s) :=
  State.holds_slotA hs fun _ hu => State.holds_vecUnary hu _ _

/-! ### Machine/TypedMem -/

theorem State.holds_typedLoad (rt : BitVec 5) (t : BitVec 2) (va : Nat) : HoldsAfter P (s.typedLoad rt t va) :=
  State.holds_withVecs hs fun _ => State.holds_holding hs (State.holds_orHalt hs fun _ => by split <;> simpa using hs) fun _ => by simpa using hs
theorem State.holds_typedStore (rt : BitVec 5) (t : BitVec 2) (va : Nat) : HoldsAfter P (s.typedStore rt t va) :=
  State.holds_withVecs hs fun _ => State.holds_orHalt hs fun _ => by
    split
    · simpa using hs
    · simp only
      split <;> simpa using hs

theorem holds_execLdVt (f : FmtCM) : HoldsAfter P (execLdVt f s) :=
  State.holds_slotC hs fun _ hu => State.holds_typedLoad hu _ _ _
theorem holds_execLdVtIndexed (f : FmtCX) : HoldsAfter P (execLdVtIndexed f s) :=
  State.holds_slotC hs fun _ hu => State.holds_typedLoad hu _ _ _
theorem holds_execStVt (f : FmtCM) : HoldsAfter P (execStVt f s) :=
  State.holds_slotC hs fun _ hu => State.holds_typedStore hu _ _ _
theorem holds_execStVtIndexed (f : FmtCX) : HoldsAfter P (execStVtIndexed f s) :=
  State.holds_slotC hs fun _ hu => State.holds_typedStore hu _ _ _

/-! ### Machine/Atlas -/

theorem holds_execLinkRetryLimit : HoldsAfter P (execLinkRetryLimit s) := by simp [execLinkRetryLimit, hs]
theorem holds_execSliceGoesDark : HoldsAfter P (execSliceGoesDark s) := by simp [execSliceGoesDark, hs]
theorem holds_execUalinkPortDark : HoldsAfter P (execUalinkPortDark s) := by simp [execUalinkPortDark, hs]
theorem holds_execFabricInterfaceDark : HoldsAfter P (execFabricInterfaceDark s) := by simp [execFabricInterfaceDark, hs]
theorem holds_execRookPassStart : HoldsAfter P (execRookPassStart s) := by simp [execRookPassStart, hs]
theorem holds_execRookPreempt : HoldsAfter P (execRookPreempt s) := by
  simp only [execRookPreempt]
  repeat' split
  all_goals simp [hs]
theorem holds_execRookTestDone : HoldsAfter P (execRookTestDone s) := by simp [execRookTestDone, hs]
theorem holds_execDoublesMismatch : HoldsAfter P (execDoublesMismatch s) := by
  simp only [execDoublesMismatch]
  repeat' split
  all_goals simp [hs]

/-! ### Machine/Atomic -/

theorem State.holds_atomic (f : FmtCA) (op : AmoOp) (signed : Bool) : HoldsAfter P (s.atomic f op signed) := by
  unfold State.atomic
  refine State.holds_holding hs ?_ fun _ => (State.holds_result _ _).2 hs
  split <;> simp [hs]
@[simp] theorem State.holds_reduce (f : FmtCA) (op : AmoOp) : HoldsAfter P (s.reduce f op) := by simp only [State.reduce]; split <;> simp [hs]
theorem holds_execAmoAdd (f : FmtCA) : HoldsAfter P (execAmoAdd f s) :=
  State.holds_slotC hs fun _ hu => State.holds_atomic hu _ _ _
theorem holds_execAmoAnd (f : FmtCA) : HoldsAfter P (execAmoAnd f s) :=
  State.holds_slotC hs fun _ hu => State.holds_atomic hu _ _ _
theorem holds_execAmoOr (f : FmtCA) : HoldsAfter P (execAmoOr f s) :=
  State.holds_slotC hs fun _ hu => State.holds_atomic hu _ _ _
theorem holds_execAmoXor (f : FmtCA) : HoldsAfter P (execAmoXor f s) :=
  State.holds_slotC hs fun _ hu => State.holds_atomic hu _ _ _
theorem holds_execAmoMin (f : FmtCA) : HoldsAfter P (execAmoMin f s) :=
  State.holds_slotC hs fun _ hu => State.holds_atomic hu _ _ _
theorem holds_execAmoMax (f : FmtCA) : HoldsAfter P (execAmoMax f s) :=
  State.holds_slotC hs fun _ hu => State.holds_atomic hu _ _ _
theorem holds_execAmoMinu (f : FmtCA) : HoldsAfter P (execAmoMinu f s) :=
  State.holds_slotC hs fun _ hu => State.holds_atomic hu _ _ _
theorem holds_execAmoMaxu (f : FmtCA) : HoldsAfter P (execAmoMaxu f s) :=
  State.holds_slotC hs fun _ hu => State.holds_atomic hu _ _ _
theorem holds_execAmoSwap (f : FmtCA) : HoldsAfter P (execAmoSwap f s) :=
  State.holds_slotC hs fun _ hu => State.holds_atomic hu _ _ _
theorem holds_execAmoCas (f : FmtCA) : HoldsAfter P (execAmoCas f s) :=
  State.holds_slotC hs fun _ hu => State.holds_atomic hu _ _ _
theorem holds_execAmoFaddS (f : FmtCA) : HoldsAfter P (execAmoFaddS f s) :=
  State.holds_slotC hs fun _ hu => State.holds_atomic hu _ _ _
theorem holds_execRedAdd (f : FmtCA) : HoldsAfter P (execRedAdd f s) := by simp +contextual [execRedAdd, hs]
theorem holds_execRedFaddS (f : FmtCA) : HoldsAfter P (execRedFaddS f s) := by simp +contextual [execRedFaddS, hs]
theorem holds_execRedFaddH (f : FmtCA) : HoldsAfter P (execRedFaddH f s) := by simp +contextual [execRedFaddH, hs]

/-! ### Machine/Special -/

theorem holds_execMfs (f : FmtCS) : HoldsAfter P (execMfs f s) :=
  State.holds_slotC hs fun _ hu => by split <;> simpa using hu
@[simp] theorem State.holds_writeMode (a : Word) : HoldsAfter P (s.writeMode a) := by simp [State.writeMode, hs]
@[simp] theorem State.holds_writeAccst (a : Word) : HoldsAfter P (s.writeAccst a) := by simp [State.writeAccst, hs]
@[simp] theorem State.holds_writePromo (a : Word) : HoldsAfter P (s.writePromo a) := by unfold State.writePromo; split <;> simp [hs]
theorem holds_execMts (f : FmtCS) : HoldsAfter P (execMts f s) := by unfold execMts; split <;> simp +contextual [hs]

/-! ### Machine/VFunc -/

theorem holds_execVcvt (f : FmtAV) : HoldsAfter P (execVcvt f s) :=
  State.holds_slotA hs fun _ hs => State.holds_vecIssue hs fun _ hu => State.holds_lanewise hu _ _ _ _ _ _ _
theorem State.holds_vecSpecial (f : FmtAV) (fn : SpecialFn) : HoldsAfter P (s.vecSpecial f fn) :=
  State.holds_vecIssue hs fun _ hu => by
    simp only
    split
    · simpa using hu
    · exact State.holds_vecUnaryRaw hu _ _

theorem holds_execVexp2 (f : FmtAV) : HoldsAfter P (execVexp2 f s) :=
  State.holds_slotA hs fun _ hu => State.holds_vecSpecial hu _ _
theorem holds_execVlog2 (f : FmtAV) : HoldsAfter P (execVlog2 f s) :=
  State.holds_slotA hs fun _ hu => State.holds_vecSpecial hu _ _
theorem holds_execVrcp (f : FmtAV) : HoldsAfter P (execVrcp f s) :=
  State.holds_slotA hs fun _ hu => State.holds_vecSpecial hu _ _
theorem holds_execVrsqrt (f : FmtAV) : HoldsAfter P (execVrsqrt f s) :=
  State.holds_slotA hs fun _ hu => State.holds_vecSpecial hu _ _
theorem holds_execVsqrt (f : FmtAV) : HoldsAfter P (execVsqrt f s) :=
  State.holds_slotA hs fun _ hu => State.holds_vecSpecial hu _ _
theorem holds_execVtanh (f : FmtAV) : HoldsAfter P (execVtanh f s) :=
  State.holds_slotA hs fun _ hu => State.holds_vecSpecial hu _ _
theorem holds_execVred (f : FmtAVS) : HoldsAfter P (execVred f s) :=
  State.holds_slotA hs fun _ hs => State.holds_vecIssue hs fun _ hu => by
    simp only
    split
    · simpa using hu
    · exact State.holds_withVecs hu fun _ => by simpa using hu

theorem holds_execVscan (f : FmtAV) : HoldsAfter P (execVscan f s) :=
  State.holds_slotA hs fun _ hs => State.holds_vecIssue hs fun _ hu => by
    simp only
    split
    · simpa using hu
    · exact State.holds_withVecs hu fun _ => by simpa using hu

/-! ### Machine/Attention -/

theorem holds_execAttQk (f : FmtWE) : HoldsAfter P (execAttQk f s) :=
  State.holds_slotC hs fun _ hs => State.holds_attIssue hs fun u hu => State.holds_orHalt hu fun _ => State.holds_orHalt hu fun _ =>
    State.holds_orFirst hu <| State.holds_orHalt hu fun _ => State.holds_orHalt hu fun _ => by simp [hu]
theorem holds_execAttSm (f : FmtWE) : HoldsAfter P (execAttSm f s) := by simp +contextual [execAttSm, hs]
theorem holds_execAttPv (f : FmtWE) : HoldsAfter P (execAttPv f s) :=
  State.holds_slotC hs fun _ hs => State.holds_attIssue hs fun u hu => State.holds_withRows hu fun _ _ => by simpa using hu
theorem holds_execAttFin (f : FmtWE) : HoldsAfter P (execAttFin f s) :=
  State.holds_slotC hs fun _ hs => State.holds_attIssue hs fun u hu => State.holds_orHalt hu fun _ => State.holds_orHalt hu fun _ =>
    State.holds_orFirst hu <| State.holds_orHalt hu fun _ => State.holds_orHalt hu fun _ => by
      simp only
      split
      · simpa using hu
      · simpa using hu

/-! ### Machine/Barrier -/

@[simp] theorem State.holds_barArrive (xd : BitVec 5) (ref member : Word) (e : Nat) : HoldsAfter P (s.barArrive xd ref member e) := by
  unfold State.barArrive; split <;> simp [hs]
theorem holds_execBarArr (f : FmtCR) : HoldsAfter P (execBarArr f s) := by simp +contextual [execBarArr, hs]
theorem holds_execBarArrx (f : FmtCR) : HoldsAfter P (execBarArrx f s) := by simp +contextual [execBarArrx, hs]
@[simp] theorem State.holds_barWait (f : FmtCR) (waits : Bool) : HoldsAfter P (s.barWait f waits) := by
  simp only [State.barWait]
  repeat' split
  all_goals simp [hs]
theorem holds_execBarWt (f : FmtCR) : HoldsAfter P (execBarWt f s) := by simp +contextual [execBarWt, hs]
theorem holds_execBarTst (f : FmtCR) : HoldsAfter P (execBarTst f s) := by simp +contextual [execBarTst, hs]
theorem holds_execBarInit (f : FmtWE) : HoldsAfter P (execBarInit f s) :=
  State.holds_slotC hs fun u hu => by
    simp only
    split
    · simpa using hu
    · split
      · simpa using hu
      · simpa using hu

/-! ### Machine/Bank -/

theorem holds_execBankerGrant : HoldsAfter P (execBankerGrant s) := by simp only [execBankerGrant]; split <;> simp [hs]
theorem holds_execShortfallCover : HoldsAfter P (execShortfallCover s) := by simp only [execShortfallCover]; split <;> simp [hs]
theorem holds_execLeaseRequest : HoldsAfter P (execLeaseRequest s) := by
  simp only [execLeaseRequest]
  repeat' split
  all_goals simp [hs]
theorem holds_execLeaseAnswer : HoldsAfter P (execLeaseAnswer s) := by
  simp only [execLeaseAnswer]
  repeat' split
  all_goals simp [hs]
theorem holds_execLeaseRenewal : HoldsAfter P (execLeaseRenewal s) := by
  simp only [execLeaseRenewal]
  repeat' split
  all_goals simp [hs]
theorem holds_execLeaseEnd : HoldsAfter P (execLeaseEnd s) := by
  simp only [execLeaseEnd]
  repeat' split
  all_goals simp [hs]
theorem holds_execRevocationEffect : HoldsAfter P (execRevocationEffect s) := by simp only [execRevocationEffect]; split <;> simp [hs]
theorem holds_execPshareWrite : HoldsAfter P (execPshareWrite s) := by simp [execPshareWrite, hs]
theorem holds_execBkshareWrite : HoldsAfter P (execBkshareWrite s) := by simp [execBkshareWrite, hs]
theorem holds_execBkgshareWrite : HoldsAfter P (execBkgshareWrite s) := by simp [execBkgshareWrite, hs]
theorem holds_execRampwWrite : HoldsAfter P (execRampwWrite s) := by simp [execRampwWrite, hs]
theorem holds_execFloorwWrite : HoldsAfter P (execFloorwWrite s) := by simp [execFloorwWrite, hs]
theorem holds_execBallastUpdate : HoldsAfter P (execBallastUpdate s) := by simp [execBallastUpdate, hs]
theorem holds_execPacerReport : HoldsAfter P (execPacerReport s) := by
  unfold execPacerReport
  repeat' split
  all_goals simp [hs]

/-! ### Machine/Branch -/

theorem holds_execBr (f : FmtCJ) : HoldsAfter P (execBr f s) := by simp [execBr, hs]
theorem holds_execBeq (f : FmtCB) : HoldsAfter P (execBeq f s) := by simp [execBeq, hs]
theorem holds_execBne (f : FmtCB) : HoldsAfter P (execBne f s) := by simp [execBne, hs]
theorem holds_execBlt (f : FmtCB) : HoldsAfter P (execBlt f s) := by simp [execBlt, hs]
theorem holds_execBge (f : FmtCB) : HoldsAfter P (execBge f s) := by simp [execBge, hs]
theorem holds_execBltu (f : FmtCB) : HoldsAfter P (execBltu f s) := by simp [execBltu, hs]
theorem holds_execBgeu (f : FmtCB) : HoldsAfter P (execBgeu f s) := by simp [execBgeu, hs]
theorem holds_execBz (f : FmtCZ) : HoldsAfter P (execBz f s) := by simp [execBz, hs]
theorem holds_execBnz (f : FmtCZ) : HoldsAfter P (execBnz f s) := by simp [execBnz, hs]
theorem holds_execFarBeq (f : FmtWB) : HoldsAfter P (execFarBeq f s) := by simp [execFarBeq, hs]
theorem holds_execFarBne (f : FmtWB) : HoldsAfter P (execFarBne f s) := by simp [execFarBne, hs]
theorem holds_execFarBlt (f : FmtWB) : HoldsAfter P (execFarBlt f s) := by simp [execFarBlt, hs]
theorem holds_execFarBge (f : FmtWB) : HoldsAfter P (execFarBge f s) := by simp [execFarBge, hs]
theorem holds_execFarBltu (f : FmtWB) : HoldsAfter P (execFarBltu f s) := by simp [execFarBltu, hs]
theorem holds_execFarBgeu (f : FmtWB) : HoldsAfter P (execFarBgeu f s) := by simp [execFarBgeu, hs]
theorem holds_execFarBz (f : FmtWB) : HoldsAfter P (execFarBz f s) := by simp [execFarBz, hs]
theorem holds_execFarBnz (f : FmtWB) : HoldsAfter P (execFarBnz f s) := by simp [execFarBnz, hs]
theorem holds_execCall (f : FmtCJ) : HoldsAfter P (execCall f s) := by simp [execCall, hs]
@[simp] theorem State.holds_jump (target : Word) (link : Option (BitVec 5)) (loops : Bool) : HoldsAfter P (s.jump target link loops) := by
  unfold State.jump
  repeat' split
  all_goals simp [hs]
theorem holds_execCallr (f : FmtCR) : HoldsAfter P (execCallr f s) := by simp +contextual [execCallr, hs]
theorem holds_execJr (f : FmtCR) : HoldsAfter P (execJr f s) := by simp +contextual [execJr, hs]
theorem holds_execRet : HoldsAfter P (execRet s) := by simp +contextual [execRet, hs]
@[simp] theorem State.holds_startLoop (lenm1 count : Nat) : HoldsAfter P (s.startLoop lenm1 count) := by simp [State.startLoop, hs]
theorem holds_execLoop (f : FmtCL) : HoldsAfter P (execLoop f s) := by simp +contextual [execLoop, hs]
theorem holds_execLoopi (f : FmtCLI) : HoldsAfter P (execLoopi f s) := by simp +contextual [execLoopi, hs]
theorem holds_execLbrk : HoldsAfter P (execLbrk s) := by simp [execLbrk, hs]
theorem holds_execNopC : HoldsAfter P (execNopC s) := by simp [execNopC, hs]

/-! ### Machine/Bundle -/

theorem holds_execNpTooLong : HoldsAfter P (execNpTooLong s) := by simp [execNpTooLong, hs]
theorem holds_execIllegalOpcode : HoldsAfter P (execIllegalOpcode s) := by
  simp only [execIllegalOpcode]
  split
  · rename_i h
    have hu := (State.mem_of_fetch h).symm ▸ hs
    split
    · simp [hs, hu]
    · exact hs
  · exact hs

theorem holds_execCodeFetchFault : HoldsAfter P (execCodeFetchFault s) := by
  simp only [execCodeFetchFault]
  repeat' split
  all_goals simp [hs]

/-! ### Machine/Dense -/

theorem State.holds_denseMul (f : FmtWE) (ring : Bool) : HoldsAfter P (s.denseMul f ring) := by
  unfold State.denseMul
  simp only
  split
  · simpa using hs
  · split
    · simpa using hs
    · split
      · simpa using hs
      · split
        · simpa using hs
        · exact State.holds_afterOccupancy hs fun _ hu => State.holds_pace hu fun v hv => State.holds_withRows hv fun _ _ => State.holds_orCause hv (by simpa using hv)

theorem holds_execMma (f : FmtWE) : HoldsAfter P (execMma f s) :=
  State.holds_slotC hs fun _ hu => State.holds_denseMul hu _ _
theorem holds_execMmaRing (f : FmtWE) : HoldsAfter P (execMmaRing f s) :=
  State.holds_slotC hs fun _ hu => State.holds_denseMul hu _ _
theorem holds_execMxLdb (f : FmtWE) : HoldsAfter P (execMxLdb f s) :=
  State.holds_slotC hs fun u hu => by
    simp only
    split
    · simpa using hu
    · split
      · simpa using hu
      · refine State.holds_afterOccupancy hu fun v hv => State.holds_orHalt hv fun _ => ?_
        split
        · simpa using hv
        · simpa using hv

theorem holds_execAccZero (f : FmtWE) : HoldsAfter P (execAccZero f s) :=
  State.holds_slotC hs fun u hu => by
    simp only
    split
    · simpa using hu
    · exact State.holds_afterOccupancy hu fun _ hv => (State.holds_engineDone _ _ _).2 hv

theorem holds_execAccLd (f : FmtWE) : HoldsAfter P (execAccLd f s) :=
  State.holds_slotC hs fun u hu => by
    simp only
    split
    · simpa using hu
    · refine State.holds_afterOccupancy hu fun v hv => State.holds_orHalt hv fun _ => ?_
      split
      · simpa using hv
      · simpa using hv

theorem holds_execAccSt (f : FmtWE) : HoldsAfter P (execAccSt f s) :=
  State.holds_slotC hs fun u hu => by
    simp only
    split
    · simpa using hu
    · split
      · simpa using hu
      · refine State.holds_afterOccupancy hu fun v hv => State.holds_orHalt hv fun _ => ?_
        split
        · simpa using hv
        · refine State.holds_orCause hv ?_
          split
          · simpa using hv
          · simpa using hv

theorem holds_execAccProm (f : FmtWE) : HoldsAfter P (execAccProm f s) :=
  State.holds_slotC hs fun u hu => by
    simp only
    split
    · simpa using hu
    · split
      · simpa using hu
      · exact State.holds_afterOccupancy hu fun v hv => State.holds_orCause hv (by simpa using hv)

/-! ### Machine/Operation -/

theorem State.holds_issueOp (f : FmtWE) (kind : Nat) (check : State → List Word → Option Cause) : HoldsAfter P (s.issueOp f kind check) := by
  refine State.holds_reading hs fun d => ?_
  simp only
  split
  · simpa using hs
  · refine State.holds_orHalt (by simpa using hs) fun _ => ?_
    split
    · simpa using hs
    · split
      · simpa using hs
      · split
        · simpa using hs
        · simpa using hs

theorem holds_execGath (f : FmtWE) : HoldsAfter P (execGath f s) :=
  State.holds_slotC hs fun _ hu => State.holds_issueOp hu _ _ _
theorem holds_execGathIx (f : FmtWE) : HoldsAfter P (execGathIx f s) :=
  State.holds_slotC hs fun _ hu => State.holds_issueOp hu _ _ _
theorem holds_execScat (f : FmtWE) : HoldsAfter P (execScat f s) :=
  State.holds_slotC hs fun _ hu => State.holds_issueOp hu _ _ _
theorem holds_execEmbBag (f : FmtWE) : HoldsAfter P (execEmbBag f s) :=
  State.holds_slotC hs fun _ hu => State.holds_issueOp hu _ _ _
theorem holds_execCp (f : FmtWE) : HoldsAfter P (execCp f s) :=
  State.holds_slotC hs fun _ hu => State.holds_issueOp hu _ _ _
theorem holds_execCpMc (f : FmtWE) : HoldsAfter P (execCpMc f s) :=
  State.holds_slotC hs fun _ hu => State.holds_issueOp hu _ _ _

/-! ### Machine/Delivery -/

theorem holds_execMessageInject : HoldsAfter P (execMessageInject s) := by
  simp only [execMessageInject]
  repeat' split
  all_goals simp [hs]
theorem holds_execRoutePacket : HoldsAfter P (execRoutePacket s) := by
  simp only [execRoutePacket]
  repeat' split
  all_goals simp [hs]
theorem holds_execWakeDelivery : HoldsAfter P (execWakeDelivery s) := by simp [execWakeDelivery, hs]
theorem holds_execHaltDelivery : HoldsAfter P (execHaltDelivery s) := by simp [execHaltDelivery, hs]

/-! ### Machine/Start -/

theorem holds_execFiringStart : HoldsAfter P (execFiringStart s) := by unfold execFiringStart; split <;> simp [hs]
theorem holds_execPoolFiringStart : HoldsAfter P (execPoolFiringStart s) := by unfold execPoolFiringStart; split <;> simp [hs]
theorem holds_execTaskStart : HoldsAfter P (execTaskStart s) := by simp only [execTaskStart]; split <;> simp [hs]
theorem holds_execTicketPull : HoldsAfter P (execTicketPull s) := by unfold execTicketPull; split <;> simp [hs]
theorem holds_execTicketSteal : HoldsAfter P (execTicketSteal s) := by unfold execTicketSteal; split <;> simp [hs]
theorem holds_execTaskSteal : HoldsAfter P (execTaskSteal s) := by
  simp only [execTaskSteal]
  repeat' split
  all_goals simp [hs]
theorem holds_execRookTestAbandon : HoldsAfter P (execRookTestAbandon s) := by simp [execRookTestAbandon, hs]
theorem holds_execParkResume : HoldsAfter P (execParkResume s) := by
  simp only [execParkResume]
  repeat' split
  all_goals simp [hs]

/-! ### Machine/Regs -/

theorem holds_execCntcfgWrite : HoldsAfter P (execCntcfgWrite s) := by simp [execCntcfgWrite, hs]
theorem holds_execDqcfgWrite : HoldsAfter P (execDqcfgWrite s) :=
  (State.holds_dqcfgWrite s _ _ hs).getD hs
theorem holds_execActcfgWrite : HoldsAfter P (execActcfgWrite s) :=
  (State.holds_actcfgWrite s _ _ hs).getD hs
theorem holds_execParkcfgWrite : HoldsAfter P (execParkcfgWrite s) :=
  (State.holds_parkcfgWrite s _ _ hs).getD hs
theorem holds_execOpcmdResume : HoldsAfter P (execOpcmdResume s) := by simp [execOpcmdResume, hs]
theorem holds_execOpcmdFail : HoldsAfter P (execOpcmdFail s) := by simp [execOpcmdFail, hs]
theorem holds_execOpcmdBad : HoldsAfter P (execOpcmdBad s) := by simp [execOpcmdBad, hs]
theorem holds_execTlbinvLowWrite : HoldsAfter P (execTlbinvLowWrite s) := by simp [execTlbinvLowWrite, hs]
theorem holds_execTlbinvHighWrite : HoldsAfter P (execTlbinvHighWrite s) := by simp [execTlbinvHighWrite, hs]
theorem holds_execTlbinvDone : HoldsAfter P (execTlbinvDone s) := by simp only [execTlbinvDone]; split <;> simp [hs]

/-! ### Machine/Debug -/

@[simp] theorem State.holds_dbgEvent (code : Nat) : HoldsAfter P (s.dbgEvent code) := by simp [State.dbgEvent, hs]
theorem holds_execDbgStop : HoldsAfter P (execDbgStop s) := by simp [execDbgStop, hs]
theorem holds_execDbgResume : HoldsAfter P (execDbgResume s) := by simp [execDbgResume, hs]
theorem holds_execDbgRestart : HoldsAfter P (execDbgRestart s) := by simp [execDbgRestart, hs]
theorem holds_execDbgSkip : HoldsAfter P (execDbgSkip s) := by simp [execDbgSkip, hs]
theorem holds_execDbgStep : HoldsAfter P (execDbgStep s) := by simp [execDbgStep, hs]
theorem holds_execDbgKill : HoldsAfter P (execDbgKill s) := by simp [execDbgKill, hs]
theorem holds_execDbgCmdBad : HoldsAfter P (execDbgCmdBad s) := by simp [execDbgCmdBad, hs]
theorem holds_execDbgAttach : HoldsAfter P (execDbgAttach s) := by simp [execDbgAttach, hs]

/-! ### Machine/Ring -/

theorem holds_execEngineOccupancyEnd : HoldsAfter P (execEngineOccupancyEnd s) := by simp [execEngineOccupancyEnd, hs]
theorem holds_execRingTransfer : HoldsAfter P (execRingTransfer s) := by
  simp only [execRingTransfer]
  repeat' split
  all_goals simp [hs]
theorem holds_execWdogReport : HoldsAfter P (execWdogReport s) := by simp [execWdogReport, hs]
theorem holds_execCoreHang : HoldsAfter P (execCoreHang s) := by simp [execCoreHang, hs]
theorem holds_execLaunchComplete : HoldsAfter P (execLaunchComplete s) := by
  simp only [execLaunchComplete]
  repeat' split
  all_goals simp [hs]

/-! ### Machine/StartUp -/

theorem holds_execStartupRailsStable : HoldsAfter P (execStartupRailsStable s) := by simp [execStartupRailsStable, hs]
theorem holds_execImageVerify : HoldsAfter P (execImageVerify s) := by unfold execImageVerify; split <;> simp [hs]
theorem holds_execStartupIdentityAtlas : HoldsAfter P (execStartupIdentityAtlas s) := by simp [execStartupIdentityAtlas, hs]
theorem holds_execRookStartupPass : HoldsAfter P (execRookStartupPass s) := by
  simp only [execRookStartupPass]
  repeat' split
  all_goals simp [hs]
theorem holds_execStartupLinksUp : HoldsAfter P (execStartupLinksUp s) := by simp [execStartupLinksUp, hs]
theorem holds_execDeviceReady : HoldsAfter P (execDeviceReady s) := by simp [execDeviceReady, hs]

/-! ### Machine/Sem -/

theorem holds_execSemPost (f : FmtCR) : HoldsAfter P (execSemPost f s) := by simp +contextual [execSemPost, hs]
theorem holds_execSemWt (f : FmtCR) : HoldsAfter P (execSemWt f s) := by simp +contextual [execSemWt, hs]
theorem holds_execStrBind (f : FmtCR) : HoldsAfter P (execStrBind f s) := by simp +contextual [execStrBind, hs]
theorem holds_execStrFree (f : FmtCR) : HoldsAfter P (execStrFree f s) := by simp +contextual [execStrFree, hs]
theorem holds_execStrStat (f : FmtCR) : HoldsAfter P (execStrStat f s) := by simp [execStrStat, hs]

/-! ### Machine/Perform -/

theorem holds_execAccessReply : HoldsAfter P (execAccessReply s) := by
  unfold execAccessReply
  repeat' split
  all_goals simp [hs]
theorem holds_execRespTimeout : HoldsAfter P (execRespTimeout s) := by unfold execRespTimeout; split <;> simp [hs]
theorem holds_execStoreAck : HoldsAfter P (execStoreAck s) := by
  unfold execStoreAck
  repeat' split
  all_goals simp [hs]
theorem holds_execSliceFill : HoldsAfter P (execSliceFill s) := by simp only [execSliceFill]; split <;> simp [hs]
theorem holds_execPageWalk : HoldsAfter P (execPageWalk s) := by
  simp only [execPageWalk]
  repeat' split
  all_goals simp [hs]
theorem holds_execSyncRecordClear : HoldsAfter P (execSyncRecordClear s) := by simp [execSyncRecordClear, hs]
theorem holds_execStreamInputFill : HoldsAfter P (execStreamInputFill s) := by
  simp only [execStreamInputFill]
  split
  · exact hs
  · split
    · exact hs
    · rename_i h
      simpa [State.mem_of_inputStep _ _ _ _ h] using hs
    · rename_i h
      simpa [State.mem_of_inputStep _ _ _ _ h] using hs

theorem holds_execStreamOutputStore : HoldsAfter P (execStreamOutputStore s) := by simp only [execStreamOutputStore]; split <;> simp [hs]
theorem holds_execBarrierArrival : HoldsAfter P (execBarrierArrival s) := by
  simp only [execBarrierArrival]
  repeat' split
  all_goals simp [hs]
theorem holds_execBarrierTimeout : HoldsAfter P (execBarrierTimeout s) := by simp [execBarrierTimeout, hs]
theorem holds_execUeDetect : HoldsAfter P (execUeDetect s) := by
  simp only [execUeDetect]
  repeat' split
  all_goals simp [hs]

/-! ### Machine/OpRun -/

theorem holds_execOffloadTimeout : HoldsAfter P (execOffloadTimeout s) := by simp [execOffloadTimeout, hs]
theorem holds_execBarrierDelivery : HoldsAfter P (execBarrierDelivery s) := by simp only [execBarrierDelivery]; split <;> simp [hs]
theorem holds_execDormantStart : HoldsAfter P (execDormantStart s) := by
  simp only [execDormantStart]
  repeat' split
  all_goals simp [hs]

/-! ### Machine/Migrate -/

theorem holds_execShuffleStep : HoldsAfter P (execShuffleStep s) := by simp [execShuffleStep, hs]
theorem holds_execMigrationMarker : HoldsAfter P (execMigrationMarker s) := by unfold execMigrationMarker; split <;> simp [hs]
theorem holds_execMigrationRelease : HoldsAfter P (execMigrationRelease s) := by unfold execMigrationRelease; split <;> simp [hs]

/-! ### Machine/Switch -/

theorem holds_execQuantumEnd : HoldsAfter P (execQuantumEnd s) := by simp only [execQuantumEnd]; split <;> simp [hs]
theorem holds_execQlimExpiry : HoldsAfter P (execQlimExpiry s) := by simp [execQlimExpiry, hs]

/-! ### Machine/Loith -/

theorem holds_execSequenceGapTimeout : HoldsAfter P (execSequenceGapTimeout s) := by simp [execSequenceGapTimeout, hs]
theorem holds_execTimeExchange : HoldsAfter P (execTimeExchange s) := by simp [execTimeExchange, hs]
theorem holds_execRtimeSyncLost : HoldsAfter P (execRtimeSyncLost s) := by simp [execRtimeSyncLost, hs]
theorem holds_execHub89Dark : HoldsAfter P (execHub89Dark s) := by simp [execHub89Dark, hs]
theorem holds_execBridgeTakeover : HoldsAfter P (execBridgeTakeover s) := by simp [execBridgeTakeover, hs]

/-! ### Machine/Sparse -/

theorem holds_execSpMm (f : FmtWE) : HoldsAfter P (execSpMm f s) :=
  State.holds_slotC hs fun _ hs => State.holds_sparseIssue hs fun u hu => State.holds_withDesc32 hu fun _ => by
    simp only
    split
    · simpa using hu
    · refine State.holds_withRaw hu fun _ => State.holds_orEngineHalt hu fun _ => State.holds_orHalt hu fun _ => State.holds_orHalt hu fun _ =>
        State.holds_orFirst hu <| State.holds_orEngineHalt hu fun _ => ?_
      split
      · exact State.holds_orCause hu (by simpa using hu)
      · refine State.holds_orHalt hu fun _ => State.holds_orCause hu ?_
        split
        · simpa using hu
        · split
          · simpa using hu
          · simpa using hu

theorem holds_execSpBm (f : FmtWE) : HoldsAfter P (execSpBm f s) :=
  State.holds_slotC hs fun _ hs => State.holds_sparseIssue hs fun u hu => State.holds_withDesc32 hu fun _ => State.holds_orHalt hu fun _ =>
    State.holds_orHalt hu fun _ => State.holds_orHalt hu fun _ => State.holds_orFirst hu <| State.holds_orHalt hu fun _ => State.holds_orHalt hu fun _ => by
      simp only
      split
      · simpa using hu
      · split
        · simpa using hu
        · split
          · simpa using hu
          · split
            · simpa using hu
            · simpa using hu

theorem State.holds_sparseSelect (f : FmtWE) (drop : Bool) : HoldsAfter P (s.sparseSelect f drop) :=
  State.holds_sparseIssue hs fun u hu => State.holds_orHalt hu fun _ => State.holds_orHalt hu fun _ => State.holds_orHalt hu fun _ =>
    State.holds_orHalt hu fun _ => State.holds_orHalt hu fun _ => State.holds_orHalt hu fun _ => by
      split
      · simpa using hu
      · split
        · simpa using hu
        · split
          · simpa using hu
          · simpa using hu

theorem holds_execSpDrop (f : FmtWE) : HoldsAfter P (execSpDrop f s) :=
  State.holds_slotC hs fun _ hu => State.holds_sparseSelect hu _ _
theorem holds_execSpGrow (f : FmtWE) : HoldsAfter P (execSpGrow f s) :=
  State.holds_slotC hs fun _ hu => State.holds_sparseSelect hu _ _
theorem holds_execSpCnt (f : FmtWE) : HoldsAfter P (execSpCnt f s) :=
  State.holds_slotC hs fun u hu => by
    simp only
    split
    · simpa using hu
    · exact State.holds_afterOccupancy hu fun v hv => by simpa using hv

/-! ### Machine/WorkList -/

theorem holds_execWlStat (f : FmtCR) : HoldsAfter P (execWlStat f s) := by simp +contextual [execWlStat, hs]

end
end Sys2Proof.Machine
end

section
/-! SUPPORT. The writers of memory keep its canonical form (R314, log 3): stores, registers whose write touches memory, capability stripes, the passing of
time, work lists, actors and messages. -/

namespace Sys2Proof.Machine

/-- Memory in its canonical form (log 3). -/
def Memory.Canonical (m : Memory) : Prop := m.wf = true

theorem Memory.Canonical.writeLE {m : Memory} (h : m.Canonical) (a n v : Nat) : (m.writeLE a n v).Canonical := Memory.writeLE_wf a n v h

section
variable {s : State}

/-! ### Stores to registers and to memory -/

theorem State.canonical_capstripeWrite (i v : Nat) (hs : s.mem.Canonical) : (s.capstripeWrite i v).mem.Canonical := by
  simp only [State.capstripeWrite]
  split
  · exact hs
  · exact State.restripe_mem_wf _ _

theorem State.canonical_hubWrite (f o v tag : Nat) (hs : s.mem.Canonical) : (s.hubWrite f o v tag).mem.Canonical := by
  have hstripe := fun i => State.canonical_capstripeWrite i v hs
  simp [State.hubWrite, apply_ite Memory.Canonical, hs, hstripe]

theorem State.canonical_hubStore (f o n v tag level : Nat) (hs : s.mem.Canonical) : (s.hubStore f o n v tag level).mem.Canonical := by
  unfold State.hubStore
  split
  · exact State.holds_foldl (fun _ _ h => by simpa using h) _ hs
  · split
    · exact hs
    · split
      · split <;> exact hs
      · split
        · split
          · simpa using hs
          · exact hs
        · exact State.canonical_hubWrite _ _ _ _ hs

theorem State.canonical_windowPut (t o lo n v : Nat) (w : Writer) (hs : s.mem.Canonical) : HoldsIf Memory.Canonical (s.windowPut t o lo n v w) := by
  unfold State.windowPut
  split
  · exact hs.writeLE _ _ _
  · exact State.holds_imageStore _ _ _ _ _ _ hs
  · split
    · trivial
    · simpa using hs
  · simp [hs]
  · exact State.holds_dbgStore _ _ _ _ _ _ _ hs
  · trivial

theorem State.canonical_windowWrite (t : Nat) (w : Writer) : ∀ (fuel o n v : Nat) (r : State × Bool), r.1.mem.Canonical → (State.windowWrite t w fuel o n v r).1.mem.Canonical
  | 0, _, _, _, _, hr => hr
  | fuel + 1, o, n, v, (s, bad), hr => by
    unfold State.windowWrite
    split
    · exact hr
    · simp only
      split
      · exact State.canonical_windowWrite t w fuel _ _ _ _ ((State.canonical_windowPut _ _ _ _ _ _ hr).of_eq ‹_›)
      · exact State.canonical_windowWrite t w fuel _ _ _ _ hr

theorem State.canonical_writeHome (g size v : Nat) (w : Writer) (hs : s.mem.Canonical) : (s.writeHome g size v w).1.mem.Canonical := by
  unfold State.writeHome
  split
  · simp only
    split
    · exact hs.writeLE _ _ _
    · exact State.canonical_windowWrite _ _ _ _ _ _ _ hs
  · exact State.canonical_hubStore _ _ _ _ _ _ hs
  · exact hs.writeLE _ _ _

theorem State.canonical_writeLines (w : Writer) : ∀ (fuel g n v : Nat) (r : State × Nat), r.1.mem.Canonical → (State.writeLines w fuel g n v r).1.mem.Canonical
  | 0, _, _, _, _, hr => hr
  | fuel + 1, g, n, v, (s, bad), hr => by
    unfold State.writeLines
    split
    · exact hr
    · refine State.canonical_writeLines w fuel _ _ _ _ ?_
      split
      · exact hr
      · exact State.canonical_writeHome _ _ _ _ hr

theorem State.canonical_storeAt (g n v : Nat) (w : Writer) (uncached : Bool) (hs : s.mem.Canonical) : (s.storeAt g n v w uncached).1.mem.Canonical := by
  have hstored : (if s.runPoisoned (g, n) then State.writeLines w (n / 128 + 2) g n v (s, 0)
      else ((s.writeHome g n v w).1, if (s.writeHome g n v w).2 then 1 else 0)).1.mem.Canonical := by
    split
    · exact State.canonical_writeLines _ _ _ _ _ _ hs
    · exact State.canonical_writeHome _ _ _ _ hs
  simp only [State.storeAt]
  split
  · simpa using hstored
  · exact hstored

theorem State.canonical_perform (a : Access) (hs : s.mem.Canonical) : (s.perform a).mem.Canonical := by
  have hstore := fun {u : State} (hu : u.mem.Canonical) (v : Nat) (w : Writer) => State.canonical_storeAt a.gpa a.size v w a.uncached hu
  have hcount := fun ls => (s.mem_countAccess a ls).symm ▸ hs
  unfold State.perform
  extract_lets w poisoned readBack write combine
  have hread : (readBack s).mem.Canonical := by
    simp only [readBack]
    split <;> simpa [State.mem_finishAcc, State.mem_awaitFills] using hs
  have hwrite : (write s).mem.Canonical := by simpa [write, State.mem_finishAcc] using hstore (hcount _) _ _
  have hcombine : ∀ op fail, (combine s op fail).mem.Canonical := by
    intro op fail
    simp only [combine]
    split
    · simpa [State.mem_finishAcc] using hs
    · simpa [State.mem_finishAcc, State.mem_awaitFills] using hstore (by simpa using hs) _ _
  split
  · exact hread
  · split
    · simpa [State.mem_finishAcc] using hs
    · exact hread
  · split
    · simpa [State.mem_finishAcc] using hs
    · exact hwrite
  · rw [State.mem_addSync]
    exact hwrite
  · exact hcombine _ _
  · exact hcombine _ _
  · exact hs

theorem State.canonical_settleOwn (u : Nat) (hs : s.mem.Canonical) : (s.settleOwn u).mem.Canonical :=
  State.holds_foldl (fun v a hv => by
    split
    · split
      · exact State.canonical_perform _ hv
      · exact hv
    · exact hv) _ hs

theorem State.canonical_advance (u : Nat) (hs : s.mem.Canonical) : (s.advance u).mem.Canonical := by
  have hsettled : (if s.net.isEmpty then s else s.settleOwn u).mem.Canonical := by
    split
    · exact hs
    · exact State.canonical_settleOwn u hs
  refine State.holds_foldl (fun v e hv => ?_) _ (by simpa using hsettled)
  simp only
  repeat' split
  all_goals simpa using hv

end

section
variable {s : State}

/-! ### Work lists, tasks and actors -/

theorem State.canonical_setLocal (off v : Nat) (hs : s.mem.Canonical) : (s.setLocal off v).mem.Canonical := State.setLocal_mem_wf s off v hs
theorem State.canonical_putObject (g : Nat) (w : WorkList) (hs : s.mem.Canonical) : (s.putObject g w).mem.Canonical := State.putObject_mem_wf s g w hs

theorem State.canonical_putSpill (ps : List Piece) (v : Nat) (hs : s.mem.Canonical) : (s.putSpill ps v).mem.Canonical := by
  unfold State.putSpill
  split
  · split
    · exact State.putDouble_mem_wf _ _ _ hs
    · simpa using hs
  · simpa using hs

theorem State.canonical_setDedup (w : WorkList) (vs : List Nat) (hs : s.mem.Canonical) : (s.setDedup w vs).mem.Canonical :=
  State.holds_foldl (fun _ _ h => State.canonical_setLocal _ _ h) _ hs

theorem State.canonical_wlAppend (f : FmtWE) (w : WorkList) (g : Nat) (dedup : Bool) (hs : s.mem.Canonical) : HoldsAfter Memory.Canonical (s.wlAppend f w g dedup) := by
  have hput := fun (v : Nat) => show (if dedup then s.setLocal (w.dtab + 8 * w.dcnt) v else s).mem.Canonical by
    split
    · exact State.canonical_setLocal _ _ hs
    · exact hs
  unfold State.wlAppend
  simp only
  split
  · simp [hs]
  · refine State.holds_orHalt hs fun _ => ?_
    split
    · simpa using hs
    · split
      · exact (State.holds_result _ _).2 (State.canonical_putObject _ _ (State.canonical_putSpill _ _ (hput _)))
      · exact (State.holds_result _ _).2 (State.canonical_putObject _ _ (State.canonical_setLocal _ _ (hput _)))

theorem canonical_execWlPush (f : FmtWE) (s : State) (hs : s.mem.Canonical) : HoldsAfter Memory.Canonical (execWlPush f s) :=
  State.holds_slotC hs fun _ hu => State.holds_withWorkList hu fun _ _ _ hv => State.canonical_wlAppend _ _ _ _ hv

theorem canonical_execWlInsd (f : FmtWE) (s : State) (hs : s.mem.Canonical) : HoldsAfter Memory.Canonical (execWlInsd f s) :=
  State.holds_slotC hs fun _ hu => State.holds_withWorkList hu fun v _ _ hv => by
    split
    · simpa using hv
    · refine State.holds_unlessPoisoned hv ?_
      split
      · simpa using hv
      · exact State.canonical_wlAppend _ _ _ _ hv

theorem canonical_execWlPopb (f : FmtWE) (s : State) (hs : s.mem.Canonical) : HoldsAfter Memory.Canonical (execWlPopb f s) :=
  State.holds_slotC hs fun _ hu => State.holds_withWorkList hu fun v _ _ hv => by
    simp only
    split
    · simpa using hv
    · split
      · simpa using hv
      · split
        · simpa using hv
        · refine State.holds_orHalt hv fun _ => State.holds_orHalt hv fun _ => ?_
          split
          · simpa using hv
          · split
            · simpa using hv
            · refine State.holds_unlessPoisoned hv ((State.holds_result _ _).2 ?_)
              rw [State.mem_issuePieces]
              exact State.canonical_putObject _ _ (State.canonical_setDedup _ _ (State.holds_foldl (fun _ _ h => State.canonical_setLocal _ _ h) _ hv))

theorem State.canonical_writeRing (k n : Nat) (hs : s.mem.Canonical) : (s.writeRing k n).mem.Canonical :=
  State.holds_foldl (fun _ _ h => h.writeLE _ _ _) _ hs

theorem canonical_execSpawn (f : FmtCR) (s : State) (hs : s.mem.Canonical) : HoldsAfter Memory.Canonical (execSpawn f s) :=
  State.holds_slotC hs fun u hu => State.holds_withVecs hu fun _ => by
    have hgo : ∀ (v : State) (k : Core) (n : Nat) (rs : List Nat), v.mem.Canonical →
        (((v.updCurCore (fun _ => k)).writeRing (coreOfCtx v.cur) n).popStreams rs).mem.Canonical := fun v k n rs hv => by
      rw [State.mem_popStreams]
      exact State.canonical_writeRing _ _ (by simpa using hv)
    simp only
    split
    · simpa using hu
    · split
      · simpa using hu
      · split
        · split <;> simpa using hgo u _ _ [f.xa.toNat] hu
        · refine State.holds_releaseThen hu fun v hv => ?_
          split <;> simpa using hgo v _ _ [f.xa.toNat] hv

theorem State.canonical_newActor (xd : BitVec 5) (core cap : Nat) (d : List Word) (hs : s.mem.Canonical) : HoldsAfter Memory.Canonical (s.newActor xd core cap d) := by
  have hreg : (s.registerActor core (s.coreOf core).freeActor d).mem.Canonical := by simpa [State.registerActor] using hs.writeLE _ _ _
  unfold State.newActor
  simp only
  split
  · simpa using hs
  · split
    · simpa using hs
    · simpa using hreg

theorem canonical_execActNew (f : FmtCR) (s : State) (hs : s.mem.Canonical) : HoldsAfter Memory.Canonical (execActNew f s) :=
  State.holds_slotC hs fun u hu => by
    simp only
    split
    · simpa using hu
    · split
      · simpa using hu
      · split
        · simpa using hu
        · refine State.holds_readingDesc hu fun v d hv => ?_
          split
          · exact State.canonical_newActor _ _ _ _ hv
          · split
            · simpa using hv
            · simpa using hu
            · exact State.canonical_newActor _ _ _ _ hv
            · exact State.holds_askDevice hv fun _ => by simpa using hv

/-! ### Events that write registers, and accesses -/

theorem canonical_execCapstripeWrite (s : State) (hs : s.mem.Canonical) : HoldsAfter Memory.Canonical (execCapstripeWrite s) :=
  State.canonical_capstripeWrite _ _ hs

theorem canonical_execRegisterWrite (s : State) (hs : s.mem.Canonical) : HoldsAfter Memory.Canonical (execRegisterWrite s) := by
  simp only [execRegisterWrite]
  split
  · exact hs
  · exact State.canonical_writeHome _ _ _ _ hs

theorem canonical_execAccessPerformed (s : State) (hs : s.mem.Canonical) : HoldsAfter Memory.Canonical (execAccessPerformed s) := by
  unfold execAccessPerformed
  split
  · exact hs
  · split
    · exact hs
    · split
      · simpa [State.mem_finishAcc] using hs
      · split
        · exact hs
        · exact State.canonical_perform _ (by simpa using hs)

/-! ### Messages -/

theorem Memory.Canonical.keepOq {m : Memory} (h : m.Canonical) (c : Core) (k a p : Nat) (spilt : Bool) : (c.keepOq m k a p spilt).Canonical :=
  Core.keepOq_wf c k a p spilt h

theorem State.canonical_keepSaved (c : Core) (member k : Nat) (place : Option (Nat × Nat)) (spilt : Bool) (hs : s.mem.Canonical) :
    (c.keepSaved s member k place spilt).Canonical := Core.keepSaved_wf c s member k place spilt hs

theorem State.canonical_putHw (k a p owner : Nat) (m : Msg) (hs : s.mem.Canonical) : HoldsIf Memory.Canonical (s.putHw k a p owner m) := by
  unfold State.putHw
  simp only
  split
  · trivial
  · split
    · split
      · trivial
      · simpa using hs.keepOq _ _ _ _ _
    · split
      · trivial
      · split
        · simpa using State.canonical_keepSaved _ _ _ _ _ hs
        · trivial

theorem State.canonical_hwDeliver (f : Nat) (m : Msg) (hs : s.mem.Canonical) : HoldsIf Memory.Canonical (s.hwDeliver f m) := by
  unfold State.hwDeliver
  split
  · trivial
  · split
    · simpa using hs
    · exact (State.canonical_putHw _ _ _ _ _ hs).map fun _ h => by simpa using h

theorem State.canonical_hwArrive (m : Msg) (hs : s.mem.Canonical) : (s.hwArrive m).mem.Canonical := by
  simp only [State.hwArrive]
  split
  · simpa using hs
  · exact (State.canonical_hwDeliver _ _ hs).getD (by simpa using hs)

theorem State.canonical_deliverAt (k : Nat) (m : Msg) (hs : s.mem.Canonical) : HoldsIf Memory.Canonical (s.deliverAt k m) := by
  unfold State.deliverAt
  extract_lets f owner
  clear_value owner
  simp only
  split
  · exact hs
  · split
    · simpa using hs
    · split
      · trivial
      · split
        · split
          · simp [hs]
          · split
            · trivial
            · simpa using hs
            · simp only [holdsIf_some]
              split
              · simpa using hs.keepOq _ _ _ _ _
              · simpa using hs
        · split
          · simpa using hs
          · split
            · simpa using State.canonical_keepSaved _ _ _ _ _ hs
            · trivial

theorem canonical_execFaultQueueDrain (s : State) (hs : s.mem.Canonical) : HoldsAfter Memory.Canonical (execFaultQueueDrain s) := by
  simp only [execFaultQueueDrain]
  split
  · exact hs
  · split
    · exact hs
    · split
      · exact hs
      · simpa using (State.canonical_hwDeliver _ _ hs).of_eq ‹_›

theorem canonical_execHwMessageDeferred (s : State) (hs : s.mem.Canonical) : HoldsAfter Memory.Canonical (execHwMessageDeferred s) := by
  simp only [execHwMessageDeferred]
  split
  · exact hs
  · split
    · exact hs
    · split
      · exact hs
      · simpa using (State.canonical_hwDeliver _ _ hs).of_eq ‹_›

theorem canonical_execBounceQueueDeliver (s : State) (hs : s.mem.Canonical) : HoldsAfter Memory.Canonical (execBounceQueueDeliver s) := by
  simp only [execBounceQueueDeliver]
  split
  · exact hs
  · split
    · exact hs
    · split
      · simpa using hs
      · split
        · exact hs
        · split
          · exact hs
          · simpa using (State.canonical_putHw _ _ _ _ _ hs).of_eq ‹_›

theorem canonical_execMessageArrival (s : State) (hs : s.mem.Canonical) : HoldsAfter Memory.Canonical (execMessageArrival s) := by
  simp only [execMessageArrival]
  split
  · split
    · exact hs
    · split <;> exact hs
  · split
    · exact hs
    · rename_i m _
      have hleft : ({ s with flying := setAt s.flying s.arg.value none } : State).mem.Canonical := hs
      split
      · exact hs
      · split
        · simp only [holdsAfter_next]
          split
          · exact hs
          · exact State.canonical_hwArrive _ hleft
        · exact (State.canonical_deliverAt _ _ hleft).getD hs
end

end Sys2Proof.Machine
end

section
/-! SUPPORT. Operations, copies, commands, switches, migrations and power-on keep the canonical form of memory. -/

namespace Sys2Proof.Machine

section
variable {s : State}

/-! ### Operations -/

theorem State.canonical_opWriteGo (w : Writer) (here : Piece → Bool) : ∀ (ps : List Piece) (v : Nat) (s : State), s.mem.Canonical → (State.opWriteGo w here s ps v).1.mem.Canonical
  | [], _, _, hs => hs
  | p :: ps, v, s, hs => by
    unfold State.opWriteGo
    split
    · exact State.canonical_opWriteGo w here ps _ s hs
    · exact State.canonical_opWriteGo w here ps _ _ (State.canonical_storeAt _ _ _ _ _ hs)

theorem State.canonical_opWrite (t : Nat) (o : Op) (ps : List Piece) (v : Nat) (hs : s.mem.Canonical) : HoldsIn Memory.Canonical id (s.opWrite t o ps v) := by
  have hput := fun w here => State.canonical_opWriteGo w here ps v s hs
  unfold State.opWrite
  simp only
  split
  · trivial
  · split
    · simpa [HoldsIn] using hput _ _
    · simpa [HoldsIn] using hput _ _

theorem State.canonical_opPut (t : Nat) (o : Op) (ps : List Piece) (v : Nat) (hs : s.mem.Canonical) : HoldsIn Memory.Canonical id (s.opPut t o ps v) := by
  have hput := State.canonical_opWrite t o ps v hs
  have hfold := fun (u : State) l ch => State.mem_foldl (fun s a => State.mem_pairPost o.firing ch s a) l u
  unfold State.opPut
  simp only
  split
  · exact hput
  · split
    · split
      · rename_i h
        have hu := hput.ok h
        simpa [HoldsIn, hfold] using hu
      · exact hput
    · split
      · trivial
      · split
        · trivial
        · exact State.canonical_opWrite _ _ _ _ ((hfold s _ _).symm ▸ hs)

theorem State.canonical_moveRow (t : Nat) (o : Op) (src dst n : Nat) (sent : Bool) (hs : s.mem.Canonical) : HoldsIn Memory.Canonical Prod.fst (s.moveRow t o src dst n sent) := by
  have hread := State.holds_opRead s t o src n hs
  have hmap := State.holds_opMap s t o dst n .write hs
  unfold State.moveRow
  simp only
  split
  · rename_i h
    split at h
    · exact hmap.error h
    · cases h
  · split
    · exact hread.error ‹_›
    · rename_i v sp s1 h1
      have hs1 : s1.mem.Canonical := hread.ok h1
      split
      · exact (State.holds_opMap s1 t o dst n .write hs1).error ‹_›
      · split
        · trivial
        · split
          · exact (State.canonical_opPut _ _ _ _ hs1).error ‹_›
          · exact (State.canonical_opPut _ _ _ _ hs1).ok ‹_›

theorem State.canonical_gathItem (t : Nat) (o : Op) (sent : Bool) (hs : s.mem.Canonical) : HoldsIn Memory.Canonical Prod.fst (s.gathItem t o sent) := by
  unfold State.gathItem
  simp only
  split
  · exact (State.holds_opRead s t o _ _ hs).error ‹_›
  · rename_i x ps s1 h1
    have hs1 : s1.mem.Canonical := (State.holds_opRead s t o _ _ hs).ok h1
    split
    · split
      · trivial
      · exact State.canonical_moveRow _ _ _ _ _ _ hs1
    · split
      · trivial
      · split
        · exact (State.holds_opRead s1 t o _ _ hs1).error ‹_›
        · rename_i e ps2 s2 h2
          have hs2 : s2.mem.Canonical := (State.holds_opRead s1 t o _ _ hs1).ok h2
          split
          · trivial
          · exact State.canonical_moveRow _ _ _ _ _ _ hs2
    · split
      · trivial
      · exact State.canonical_moveRow _ _ _ _ _ _ hs1

theorem State.canonical_bagItem (t : Nat) (o : Op) (sent : Bool) (hs : s.mem.Canonical) : HoldsIn Memory.Canonical Prod.fst (s.bagItem t o sent) := by
  unfold State.bagItem
  simp only
  split
  · exact (State.holds_opMap s t o _ _ _ hs).error ‹_›
  · exact (State.holds_opRead s t o _ _ hs).error ‹_›
  · rename_i ts offs qs s1 _ h1
    have hs1 : s1.mem.Canonical := (State.holds_opRead s t o _ _ hs).ok h1
    split
    · trivial
    · split
      · trivial
      · split
        · exact (State.holds_bagSamples t o _ _ _ _ _ s1 hs1).error ‹_›
        · rename_i parts tier s2 h2
          have hs2 : s2.mem.Canonical := (State.holds_bagSamples t o _ _ _ _ _ s1 hs1).ok h2
          split
          · trivial
          · split
            · exact (State.holds_opMap s2 t o _ _ _ hs2).error ‹_›
            · split
              · trivial
              · split
                · exact (State.holds_opMap s2 t o _ _ _ hs2).error ‹_›
                · split
                  · exact (State.canonical_opPut _ _ _ _ hs2).error ‹_›
                  · exact (State.canonical_opPut _ _ _ _ hs2).ok ‹_›

theorem State.canonical_copyItem (t : Nat) (o : Op) (hs : s.mem.Canonical) : HoldsIn Memory.Canonical Prod.fst (s.copyItem t o) := by
  unfold State.copyItem
  simp only
  split
  · exact (State.holds_opRead s t o _ _ hs).error ‹_›
  · rename_i v ps s1 h1
    have hs1 : s1.mem.Canonical := (State.holds_opRead s t o _ _ hs).ok h1
    split
    · exact (State.holds_opMap s1 t o _ _ _ hs1).error ‹_›
    · split
      · exact (State.canonical_opPut _ _ _ _ hs1).error ‹_›
      · exact (State.canonical_opPut _ _ _ _ hs1).ok ‹_›

theorem State.canonical_mcastItem (t : Nat) (o : Op) (hs : s.mem.Canonical) : HoldsIn Memory.Canonical Prod.fst (s.mcastItem t o) := by
  unfold State.mcastItem
  simp only
  split
  · trivial
  · split
    · exact (State.holds_opRead s t o _ _ hs).error ‹_›
    · rename_i v ps s1 h1
      have hs1 : s1.mem.Canonical := (State.holds_opRead s t o _ _ hs).ok h1
      split
      · exact (State.canonical_opPut _ _ _ _ hs1).error ‹_›
      · exact (State.canonical_opPut _ _ _ _ hs1).ok ‹_›
      · exact (State.canonical_opPut _ _ _ _ hs1).ok ‹_›

theorem State.canonical_opItem (t : Nat) (o : Op) (sent : Bool) (hs : s.mem.Canonical) : HoldsIn Memory.Canonical Prod.fst (s.opItem t o sent) := by
  unfold State.opItem
  split
  · exact State.canonical_bagItem _ _ _ hs
  · exact State.canonical_copyItem _ _ hs
  · exact State.canonical_mcastItem _ _ hs
  · exact State.canonical_gathItem _ _ _ hs

theorem canonical_execOperationPiece (s : State) (hs : s.mem.Canonical) : HoldsAfter Memory.Canonical (execOperationPiece s) := by
  unfold execOperationPiece
  extract_lets t j o dark s1 r
  have hs1 : s1.mem.Canonical := by simpa [s1] using hs
  split
  · exact hs
  · simp only [holdsAfter_next]
    split
    · exact hs
    · exact State.holds_takeItem _ _ _ _ hs1 (State.canonical_opItem _ _ _ hs1)

theorem canonical_execOffloadReply (s : State) (hs : s.mem.Canonical) : HoldsAfter Memory.Canonical (execOffloadReply s) := by
  simp only [execOffloadReply]
  split
  · exact hs
  · split
    · simpa using hs
    · split
      · exact hs
      · exact State.holds_takeItem _ _ _ _ hs (State.canonical_opItem _ _ _ hs)

theorem State.canonical_writeRecord (t j : Nat) (hs : s.mem.Canonical) : HoldsIf Memory.Canonical (s.writeRecord t j) := by
  unfold State.writeRecord
  simp only
  split
  · exact hs
  · split
    · trivial
    · simpa using hs
    · split
      · exact (State.canonical_opWrite _ _ _ _ hs).ok ‹_›
      · simpa using hs

theorem State.canonical_sendCompletion (t j : Nat) (m : Msg) (hs : s.mem.Canonical) : (s.sendCompletion t j m).mem.Canonical := by
  unfold State.sendCompletion
  extract_lets core gone
  have hgone : gone.mem.Canonical := by simpa [gone] using hs
  split
  · split
    · split
      · simpa using hgone
      · split
        · exact hs
        · exact hgone
    · exact hgone
    · simpa using hgone
  · split
    · simpa using hgone
    · extract_lets n
      split
      · exact hs
      · split
        · exact hs
        · simpa using hgone
        · split
          · split
            · simpa using hgone
            · split
              · exact hs
              · split
                · exact (State.canonical_deliverAt _ _ hgone).of_eq ‹_›
                · exact hs
          · exact hgone

theorem canonical_execOperationComplete (s : State) (hs : s.mem.Canonical) : HoldsAfter Memory.Canonical (execOperationComplete s) := by
  have hput := fun t j => State.canonical_writeRecord (s := s.updOp t j (fun o => { o with state := 3 })) t j (by simpa using hs)
  simp only [execOperationComplete]
  split
  · exact hs
  · split
    · split
      · exact hs
      · exact State.canonical_sendCompletion _ _ _ hs
    · split
      · exact hs
      · split
        · exact hs
        · simpa using (hput _ _).of_eq ‹_›
        · rename_i s1 w h _
          have hs1 := (hput _ _).of_eq h
          simp only [holdsAfter_next]
          split
          · simpa using hs1
          · exact State.canonical_sendCompletion _ _ _ (by simpa using hs1)

theorem State.canonical_copyRun (core tag level : Nat) : ∀ (fuel va dst n : Nat) (m m' : Memory), m.Canonical → s.copyRun core tag level fuel va dst n m = .ok m' → m'.Canonical
  | 0, _, _, _, _, _, hm, h => Except.ok.inj h ▸ hm
  | fuel + 1, va, dst, n, m, m', hm, h => by
    unfold State.copyRun at h
    split at h
    · exact Except.ok.inj h ▸ hm
    · simp only at h
      split at h
      · cases h
      · cases h
      · split at h
        · cases h
        · cases h
        · split at h
          · cases h
          · exact State.canonical_copyRun core tag level fuel _ _ _ _ m' (hm.writeLE _ _ _) h

theorem canonical_execFootprintCopy (s : State) (hs : s.mem.Canonical) : HoldsAfter Memory.Canonical (execFootprintCopy s) := by
  simp only [execFootprintCopy]
  split
  · exact hs
  · split
    · exact hs
    · split
      · exact hs
      · split
        · rename_i h
          simpa using State.canonical_copyRun _ _ _ _ _ _ _ _ _ hs h
        · exact hs
        · simpa using hs
end

section
variable {s : State}

/-! ### Copies and commands -/

theorem State.canonical_copyLines (tag : Nat) : ∀ (fuel src : Nat) (dst : Option Nat) (n done : Nat) (s : State), s.mem.Canonical →
    (State.copyLines tag fuel src dst n done s).1.mem.Canonical
  | 0, _, _, _, _, _, hs => hs
  | fuel + 1, src, dst, n, done, s, hs => by
    unfold State.copyLines
    split
    · exact hs
    · extract_lets k level
      clear_value k level
      split
      · exact hs
      · have hread : (s.readRuns level [(src, k)]).2.mem.Canonical := by simpa using hs
        generalize s.readRuns level [(src, k)] = r at hread ⊢
        obtain ⟨v, s1⟩ := r
        have hstore := fun d w => State.canonical_storeAt d k v w false hread
        simp only
        split
        · exact State.canonical_copyLines tag fuel _ _ _ _ _ hread
        · split
          · exact hread
          · split
            · exact State.canonical_copyLines tag fuel _ _ _ _ _ hread
            · split
              · exact hstore _ _
              · exact State.canonical_copyLines tag fuel _ _ _ _ _ (hstore _ _)

theorem State.canonical_runCopy (session seq src dst n ep : Nat) (hs : s.mem.Canonical) : (s.runCopy session seq src dst n ep).mem.Canonical := by
  have hcopied := fun tag fuel to_ => State.canonical_copyLines tag fuel src to_ n 0 s hs
  simp only [State.runCopy]
  split
  · simpa using hcopied _ _ _
  · split <;> simpa using hcopied _ _ _

theorem State.canonical_resumeCopies (hs : s.mem.Canonical) : s.resumeCopies.mem.Canonical :=
  State.holds_foldl (fun _ _ h => State.canonical_runCopy _ _ _ _ _ _ h) _ hs

theorem State.canonical_doCopy (session seq : Nat) (body : List Nat) (hs : s.mem.Canonical) : (s.doCopy session seq body).mem.Canonical := by
  simp only [State.doCopy]
  split
  · simpa using hs
  · split
    · simpa using hs
    · split
      · exact hs
      · exact State.canonical_runCopy _ _ _ _ _ _ hs

theorem State.canonical_policyEntry (r : List Nat) (hs : s.mem.Canonical) : (s.policyEntry r).1.mem.Canonical := by
  simp only [State.policyEntry]
  split
  · exact State.canonical_hubStore _ _ _ _ _ _ hs
  · exact hs

theorem State.canonical_doPipPolicy (session seq : Nat) (body : List Nat) (hs : s.mem.Canonical) : (s.doPipPolicy session seq body).mem.Canonical := by
  simp only [State.doPipPolicy, State.mem_reply]
  exact List.foldlRecOn (motive := fun p : State × List Nat => p.1.mem.Canonical) _ _ hs fun _ hp _ _ => State.canonical_policyEntry _ hp

theorem State.canonical_execute (session seq : Nat) (b : List Nat) (hs : s.mem.Canonical) : (s.execute session seq b).mem.Canonical := by
  simp only [State.execute]
  split
  · simpa using hs
  · split
    · simpa using hs
    · split
      · simpa using hs
      · exact State.canonical_doCopy _ _ _ hs
      · simpa using hs
      · simpa using hs
      · simpa using hs
      · simpa using hs
      · simpa using hs
      · simpa using hs
      · simpa using hs
      · exact State.canonical_doPipPolicy _ _ _ hs
      · simpa using hs
      · simpa using hs
      · exact hs

theorem State.canonical_runHeld (session : Nat) : ∀ (fuel : Nat) (s : State), s.mem.Canonical → (State.runHeld session fuel s).mem.Canonical
  | 0, _, hs => hs
  | fuel + 1, s, hs => by
    simp only [State.runHeld]
    split
    · exact hs
    · split
      · exact hs
      · exact State.canonical_runHeld session fuel _ (State.canonical_execute _ _ _ (by simpa using hs))

theorem State.canonical_sequenced (session : Nat) (b : List Nat) (hs : s.mem.Canonical) : (s.sequenced session b).mem.Canonical := by
  simp only [State.sequenced]
  split
  · split <;> simpa using hs
  · split
    · exact hs
    · split
      · simpa using hs
      · rw [State.mem_noteGap]
        exact State.canonical_runHeld _ _ _ (by simpa using hs)

theorem State.canonical_receive (endpoint : Nat) (b : List Nat) (hs : s.mem.Canonical) : (s.receive endpoint b).mem.Canonical := by
  simp only [State.receive]
  split
  · exact hs
  · split
    · exact hs
    · split
      · simpa using hs
      · split
        · exact hs
        · split
          · split
            · simpa using hs
            · split <;> simpa using hs
          · split
            · exact hs
            · split
              · simpa using hs
              · exact State.canonical_sequenced _ _ hs

theorem State.canonical_onFrame (op : Nat) (hs : s.mem.Canonical) : HoldsAfter Memory.Canonical (s.onFrame op) := by
  simp only [State.onFrame, holdsAfter_next]
  split
  · exact hs
  · exact State.canonical_receive _ _ hs

theorem canonical_execLoithBadCommand (s : State) (hs : s.mem.Canonical) : HoldsAfter Memory.Canonical (execLoithBadCommand s) := by
  simp only [execLoithBadCommand, holdsAfter_next]
  split
  · exact State.canonical_receive _ _ hs
  · exact hs

theorem canonical_execHub0Takeover (s : State) (hs : s.mem.Canonical) : HoldsAfter Memory.Canonical (execHub0Takeover s) := by
  simp only [execHub0Takeover]
  split
  · exact hs
  · split
    · simpa using hs
    · split
      · exact hs
      · exact State.holds_foldl (fun _ _ h => State.canonical_receive _ _ h) _ (by simpa using hs)

theorem State.canonical_wakeCommands (hs : s.mem.Canonical) : s.wakeCommands.mem.Canonical :=
  State.holds_foldl (fun _ _ h => by
    rw [State.mem_noteGap]
    exact State.canonical_runHeld _ _ _ h) _ hs

theorem canonical_execRouteDrainTimeout (s : State) (hs : s.mem.Canonical) : HoldsAfter Memory.Canonical (execRouteDrainTimeout s) := by
  unfold execRouteDrainTimeout
  split
  · exact hs
  · simp only [holdsAfter_next]
    split
    · exact State.canonical_wakeCommands (by simpa using hs)
    · exact hs

theorem canonical_execRouteDrainComplete (s : State) (hs : s.mem.Canonical) : HoldsAfter Memory.Canonical (execRouteDrainComplete s) := by
  unfold execRouteDrainComplete
  split
  · exact hs
  · simp only [holdsAfter_next]
    split
    · exact State.canonical_wakeCommands (by simpa using hs)
    · exact hs

/-! ### Partition switches -/

theorem State.canonical_loadImage (f : Nat) (m : FieldImage) (store : Memory) (hs : s.mem.Canonical) : (s.loadImage f m store).mem.Canonical :=
  State.loadImage_mem_wf s f m store hs

theorem State.canonical_saveStores (f p : Nat) (hs : s.mem.Canonical) : (s.saveStores f p).mem.Canonical := State.saveStores_mem_wf s f p hs

theorem State.canonical_restoreField (f : Nat) (hs : s.mem.Canonical) : (s.restoreField f).mem.Canonical := by
  have hload := fun m store => State.canonical_loadImage f m store hs
  simpa [State.restoreField] using hload _ _

theorem canonical_execSwitchRestoreEnd (s : State) (hs : s.mem.Canonical) : HoldsAfter Memory.Canonical (execSwitchRestoreEnd s) := by
  simp only [execSwitchRestoreEnd, holdsAfter_next]
  split
  · exact State.canonical_resumeCopies (by simpa using State.canonical_restoreField _ hs)
  · exact hs

theorem canonical_execQuiesceEnd (s : State) (hs : s.mem.Canonical) : HoldsAfter Memory.Canonical (execQuiesceEnd s) := by
  simp only [execQuiesceEnd]
  split
  · exact hs
  · split
    · exact hs
    · simp only [holdsAfter_next, State.mem_swapTag]
      exact State.canonical_loadImage _ _ _ (State.canonical_saveStores _ _ (by simpa using hs))

/-! ### Migrations -/

theorem State.canonical_putImage (g : Migration) (t : Nat) (m : Moved) (hs : s.mem.Canonical) : HoldsIf Memory.Canonical (s.putImage g t m) := by
  refine (State.holds_moveHolding _ _ _ _ _ hs).bind fun u hu => ?_
  have hput := fun (d : Memory) => show (putStore u.mem t d).Canonical from putStore_wf t d hu
  refine HoldsIf.map (P := Memory.Canonical) (State.holds_placeCtxs _ _ _ _ ?_) fun _ h => by simpa using h
  simpa using hput m.store

theorem State.canonical_clearTile (t tag : Nat) (hs : s.mem.Canonical) : (s.clearTile t tag).mem.Canonical := by
  have hdrop : (dropStore s.mem t).Canonical := dropStore_wf t hs
  simpa [State.clearTile] using hdrop

theorem State.canonical_install (i : Nat) (g : Migration) (m : Moved) (hs : s.mem.Canonical) : (s.install i g m).mem.Canonical := by
  unfold State.install
  split
  · simpa using hs
  · split
    · exact hs
    · split
      · exact hs
      · simpa using (State.canonical_putImage _ _ _ hs).of_eq ‹_›

theorem State.canonical_takeOut (i : Nat) (g : Migration) (hs : s.mem.Canonical) : (s.takeOut i g).mem.Canonical := by
  simpa [State.takeOut] using State.canonical_clearTile g.oldTile g.tag (by simpa using hs)

theorem State.canonical_goBack (i : Nat) (g : Migration) (hs : s.mem.Canonical) : (s.goBack i g).mem.Canonical := by
  simp only [State.goBack]
  split
  · exact hs
  · cases g.image with
    | some m =>
      simp only
      split
      · exact hs
      · simpa using (State.canonical_putImage _ _ _ hs).of_eq ‹_›
    | none =>
      have hclear : ((s.clearTile g.newTile g.tag).renameRunner g.tag g.newTile (g.oldTile + 10800)).mem.Canonical := by
        simpa using State.canonical_clearTile _ _ hs
      simp only
      split
      · exact hs
      · simpa using (State.canonical_putImage _ _ _ hclear).of_eq ‹_›

theorem canonical_execMigrationCopy (s : State) (hs : s.mem.Canonical) : HoldsAfter Memory.Canonical (execMigrationCopy s) := by
  simp only [execMigrationCopy]
  split
  · simpa using hs
  · split
    · exact hs
    · split
      · exact hs
      · split
        · split <;> simpa using hs
        · split
          · split
            · exact hs
            · exact State.canonical_takeOut _ _ hs
          · split
            · exact State.canonical_goBack _ _ hs
            · split
              · split
                · exact hs
                · exact State.canonical_install _ _ _ hs
              · simp only [holdsAfter_next]
                split <;> simpa using hs

theorem canonical_execPowerOnReset (s : State) : HoldsAfter Memory.Canonical (execPowerOnReset s) := State.reset_mem_wf
end

end Sys2Proof.Machine
end

section
/-! SUPPORT. Every instruction and event, and so every step, keeps the canonical form of memory. -/

namespace Sys2Proof.Machine

/-- Every instruction and every event keeps the canonical form of memory. -/
theorem canonical_exec : ∀ (i : Instr) (s : State), s.mem.Canonical → HoldsAfter Memory.Canonical (exec i s)
  | .powerOnReset, s, _ => canonical_execPowerOnReset s
  | .startupRailsStable, _, hs => holds_execStartupRailsStable hs
  | .imageVerify, _, hs => holds_execImageVerify hs
  | .startupIdentityAtlas, _, hs => holds_execStartupIdentityAtlas hs
  | .rookStartupPass, _, hs => holds_execRookStartupPass hs
  | .startupLinksUp, _, hs => holds_execStartupLinksUp hs
  | .deviceReady, _, hs => holds_execDeviceReady hs
  | .fclkctlWrite, _, hs => holds_execFclkctlWrite hs
  | .relockEnd, _, hs => holds_execRelockEnd hs
  | .railvWrite, _, hs => holds_execRailvWrite hs
  | .railSlewEnd, _, hs => holds_execRailSlewEnd hs
  | .railswMove, _, hs => holds_execRailswMove hs
  | .pkgPowerLimit, _, hs => holds_execPkgPowerLimit hs
  | .powerLimitClear, _, hs => holds_execPowerLimitClear hs
  | .atlasStatusWrite, s, hs => holds_execAtlasStatusWrite s hs
  | .linkRetryLimit, _, hs => holds_execLinkRetryLimit hs
  | .routePacket, _, hs => holds_execRoutePacket hs
  | .routeDrainComplete, s, hs => canonical_execRouteDrainComplete s hs
  | .routeDrainTimeout, s, hs => canonical_execRouteDrainTimeout s hs
  | .rookPassStart, _, hs => holds_execRookPassStart hs
  | .rookPreempt, _, hs => holds_execRookPreempt hs
  | .rookTestDone, _, hs => holds_execRookTestDone hs
  | .rookTestAbandon, _, hs => holds_execRookTestAbandon hs
  | .doublesMismatch, _, hs => holds_execDoublesMismatch hs
  | .bankerGrant, _, hs => holds_execBankerGrant hs
  | .shortfallCover, _, hs => holds_execShortfallCover hs
  | .revocationEffect, _, hs => holds_execRevocationEffect hs
  | .leaseRequest, _, hs => holds_execLeaseRequest hs
  | .leaseAnswer, _, hs => holds_execLeaseAnswer hs
  | .leaseRenewal, _, hs => holds_execLeaseRenewal hs
  | .leaseEnd, _, hs => holds_execLeaseEnd hs
  | .pshareWrite, _, hs => holds_execPshareWrite hs
  | .bkshareWrite, _, hs => holds_execBkshareWrite hs
  | .bkgshareWrite, _, hs => holds_execBkgshareWrite hs
  | .rampwWrite, _, hs => holds_execRampwWrite hs
  | .floorwWrite, _, hs => holds_execFloorwWrite hs
  | .ballastUpdate, _, hs => holds_execBallastUpdate hs
  | .tileIdleGate, _, hs => holds_execTileIdleGate hs
  | .gatingHoldEnd, _, hs => holds_execGatingHoldEnd hs
  | .tilepwrWakeWrite, _, hs => holds_execTilepwrWakeWrite hs
  | .wakePromotion, _, hs => holds_execWakePromotion hs
  | .wakeStart, _, hs => holds_execWakeStart hs
  | .wakeComplete, _, hs => holds_execWakeComplete hs
  | .pacerReport, _, hs => holds_execPacerReport hs
  | .shuffleStep, _, hs => holds_execShuffleStep hs
  | .migrationCopy, s, hs => canonical_execMigrationCopy s hs
  | .migrationMarker, _, hs => holds_execMigrationMarker hs
  | .migrationRelease, _, hs => holds_execMigrationRelease hs
  | .timeExchange, _, hs => holds_execTimeExchange hs
  | .rtimeSyncLost, _, hs => holds_execRtimeSyncLost hs
  | .hub0Takeover, s, hs => canonical_execHub0Takeover s hs
  | .bridgeTakeover, _, hs => holds_execBridgeTakeover hs
  | .loithLaunch, _, hs => State.canonical_onFrame _ hs
  | .copy, _, hs => State.canonical_onFrame _ hs
  | .query, _, hs => State.canonical_onFrame _ hs
  | .resync, _, hs => State.canonical_onFrame _ hs
  | .atlasRead, _, hs => State.canonical_onFrame _ hs
  | .routeStage, _, hs => State.canonical_onFrame _ hs
  | .routeFlip, _, hs => State.canonical_onFrame _ hs
  | .partCreate, _, hs => State.canonical_onFrame _ hs
  | .partSwitch, _, hs => State.canonical_onFrame _ hs
  | .pipPolicy, _, hs => State.canonical_onFrame _ hs
  | .fieldReset, _, hs => State.canonical_onFrame _ hs
  | .attest, _, hs => State.canonical_onFrame _ hs
  | .loithBadCommand, s, hs => canonical_execLoithBadCommand s hs
  | .sequenceGapTimeout, _, hs => holds_execSequenceGapTimeout hs
  | .quantumEnd, _, hs => holds_execQuantumEnd hs
  | .qlimExpiry, _, hs => holds_execQlimExpiry hs
  | .quiesceEnd, s, hs => canonical_execQuiesceEnd s hs
  | .switchRestoreEnd, s, hs => canonical_execSwitchRestoreEnd s hs
  | .messageInject, _, hs => holds_execMessageInject hs
  | .messageArrival, s, hs => canonical_execMessageArrival s hs
  | .bounceQueueDeliver, s, hs => canonical_execBounceQueueDeliver s hs
  | .hwMessageDeferred, s, hs => canonical_execHwMessageDeferred s hs
  | .firingStart, _, hs => holds_execFiringStart hs
  | .parkResume, _, hs => holds_execParkResume hs
  | .poolFiringStart, _, hs => holds_execPoolFiringStart hs
  | .taskStart, _, hs => holds_execTaskStart hs
  | .dormantStart, _, hs => holds_execDormantStart hs
  | .ticketPull, _, hs => holds_execTicketPull hs
  | .ticketSteal, _, hs => holds_execTicketSteal hs
  | .taskSteal, _, hs => holds_execTaskSteal hs
  | .footprintCopy, s, hs => canonical_execFootprintCopy s hs
  | .launchComplete, _, hs => holds_execLaunchComplete hs
  | .npTooLong, _, hs => holds_execNpTooLong hs
  | .wdogReport, _, hs => holds_execWdogReport hs
  | .counterOverflow, _, hs => holds_execCounterOverflow hs
  | .streamInputFill, _, hs => holds_execStreamInputFill hs
  | .streamOutputStore, _, hs => holds_execStreamOutputStore hs
  | .engineOccupancyEnd, _, hs => holds_execEngineOccupancyEnd hs
  | .ringTransfer, _, hs => holds_execRingTransfer hs
  | .operationPiece, s, hs => canonical_execOperationPiece s hs
  | .operationComplete, s, hs => canonical_execOperationComplete s hs
  | .offloadReply, s, hs => canonical_execOffloadReply s hs
  | .offloadTimeout, _, hs => holds_execOffloadTimeout hs
  | .barrierArrival, _, hs => holds_execBarrierArrival hs
  | .barrierDelivery, _, hs => holds_execBarrierDelivery hs
  | .barrierTimeout, _, hs => holds_execBarrierTimeout hs
  | .accessPerformed, s, hs => canonical_execAccessPerformed s hs
  | .accessReply, _, hs => holds_execAccessReply hs
  | .respTimeout, _, hs => holds_execRespTimeout hs
  | .storeAck, _, hs => holds_execStoreAck hs
  | .sliceFill, _, hs => holds_execSliceFill hs
  | .pageWalk, _, hs => holds_execPageWalk hs
  | .syncRecordClear, _, hs => holds_execSyncRecordClear hs
  | .ueDetect, _, hs => holds_execUeDetect hs
  | .faultQueueDrain, s, hs => canonical_execFaultQueueDrain s hs
  | .wakeDelivery, _, hs => holds_execWakeDelivery hs
  | .haltDelivery, _, hs => holds_execHaltDelivery hs
  | .coreHang, _, hs => holds_execCoreHang hs
  | .registerWrite, s, hs => canonical_execRegisterWrite s hs
  | .dqcfgWrite, _, hs => holds_execDqcfgWrite hs
  | .actcfgWrite, _, hs => holds_execActcfgWrite hs
  | .parkcfgWrite, _, hs => holds_execParkcfgWrite hs
  | .cntcfgWrite, _, hs => holds_execCntcfgWrite hs
  | .capstripeWrite, s, hs => canonical_execCapstripeWrite s hs
  | .tlbinvLowWrite, _, hs => holds_execTlbinvLowWrite hs
  | .tlbinvHighWrite, _, hs => holds_execTlbinvHighWrite hs
  | .tlbinvDone, _, hs => holds_execTlbinvDone hs
  | .opcmdResume, _, hs => holds_execOpcmdResume hs
  | .opcmdFail, _, hs => holds_execOpcmdFail hs
  | .opcmdBad, _, hs => holds_execOpcmdBad hs
  | .dbgAttach, _, hs => holds_execDbgAttach hs
  | .dbgStop, _, hs => holds_execDbgStop hs
  | .dbgResume, _, hs => holds_execDbgResume hs
  | .dbgRestart, _, hs => holds_execDbgRestart hs
  | .dbgSkip, _, hs => holds_execDbgSkip hs
  | .dbgStep, _, hs => holds_execDbgStep hs
  | .dbgKill, _, hs => holds_execDbgKill hs
  | .dbgCmdBad, _, hs => holds_execDbgCmdBad hs
  | .nopC, _, hs => holds_execNopC hs
  | .br f, _, hs => holds_execBr hs f
  | .beq f, _, hs => holds_execBeq hs f
  | .bne f, _, hs => holds_execBne hs f
  | .blt f, _, hs => holds_execBlt hs f
  | .bge f, _, hs => holds_execBge hs f
  | .bltu f, _, hs => holds_execBltu hs f
  | .bgeu f, _, hs => holds_execBgeu hs f
  | .bz f, _, hs => holds_execBz hs f
  | .bnz f, _, hs => holds_execBnz hs f
  | .call f, _, hs => holds_execCall hs f
  | .callr f, _, hs => holds_execCallr hs f
  | .jr f, _, hs => holds_execJr hs f
  | .ret, _, hs => holds_execRet hs
  | .loop f, _, hs => holds_execLoop hs f
  | .loopi f, _, hs => holds_execLoopi hs f
  | .lbrk, _, hs => holds_execLbrk hs
  | .wait f, _, hs => holds_execWait hs f
  | .done, _, hs => holds_execDone hs
  | .park, _, hs => holds_execPark hs
  | .npOn, _, hs => holds_execNpOn hs
  | .npOff, _, hs => holds_execNpOff hs
  | .ldB f, _, hs => holds_execLdB hs f
  | .ldBu f, _, hs => holds_execLdBu hs f
  | .ldH f, _, hs => holds_execLdH hs f
  | .ldHu f, _, hs => holds_execLdHu hs f
  | .ldW f, _, hs => holds_execLdW hs f
  | .ldWu f, _, hs => holds_execLdWu hs f
  | .ldD f, _, hs => holds_execLdD hs f
  | .stB f, _, hs => holds_execStB hs f
  | .stH f, _, hs => holds_execStH hs f
  | .stW f, _, hs => holds_execStW hs f
  | .stD f, _, hs => holds_execStD hs f
  | .ldAcq f, _, hs => holds_execLdAcq hs f
  | .stRel f, _, hs => holds_execStRel hs f
  | .ldV f, _, hs => holds_execLdV hs f
  | .stV f, _, hs => holds_execStV hs f
  | .ldVt f, _, hs => holds_execLdVt hs f
  | .stVt f, _, hs => holds_execStVt hs f
  | .pf f, _, hs => holds_execPf hs f
  | .fence f, _, hs => holds_execFence hs f
  | .mfs f, _, hs => holds_execMfs hs f
  | .mts f, _, hs => holds_execMts hs f
  | .ldBIndexed f, _, hs => holds_execLdBIndexed hs f
  | .ldBuIndexed f, _, hs => holds_execLdBuIndexed hs f
  | .ldHIndexed f, _, hs => holds_execLdHIndexed hs f
  | .ldHuIndexed f, _, hs => holds_execLdHuIndexed hs f
  | .ldWIndexed f, _, hs => holds_execLdWIndexed hs f
  | .ldWuIndexed f, _, hs => holds_execLdWuIndexed hs f
  | .ldDIndexed f, _, hs => holds_execLdDIndexed hs f
  | .stBIndexed f, _, hs => holds_execStBIndexed hs f
  | .stHIndexed f, _, hs => holds_execStHIndexed hs f
  | .stWIndexed f, _, hs => holds_execStWIndexed hs f
  | .stDIndexed f, _, hs => holds_execStDIndexed hs f
  | .ldVIndexed f, _, hs => holds_execLdVIndexed hs f
  | .stVIndexed f, _, hs => holds_execStVIndexed hs f
  | .ldVtIndexed f, _, hs => holds_execLdVtIndexed hs f
  | .stVtIndexed f, _, hs => holds_execStVtIndexed hs f
  | .barArr f, _, hs => holds_execBarArr hs f
  | .barArrx f, _, hs => holds_execBarArrx hs f
  | .barWt f, _, hs => holds_execBarWt hs f
  | .barTst f, _, hs => holds_execBarTst hs f
  | .semPost f, _, hs => holds_execSemPost hs f
  | .semWt f, _, hs => holds_execSemWt hs f
  | .amoAdd f, _, hs => holds_execAmoAdd hs f
  | .amoAnd f, _, hs => holds_execAmoAnd hs f
  | .amoOr f, _, hs => holds_execAmoOr hs f
  | .amoXor f, _, hs => holds_execAmoXor hs f
  | .amoMin f, _, hs => holds_execAmoMin hs f
  | .amoMax f, _, hs => holds_execAmoMax hs f
  | .amoMinu f, _, hs => holds_execAmoMinu hs f
  | .amoMaxu f, _, hs => holds_execAmoMaxu hs f
  | .amoSwap f, _, hs => holds_execAmoSwap hs f
  | .amoCas f, _, hs => holds_execAmoCas hs f
  | .amoFaddS f, _, hs => holds_execAmoFaddS hs f
  | .redAdd f, _, hs => holds_execRedAdd hs f
  | .redFaddS f, _, hs => holds_execRedFaddS hs f
  | .redFaddH f, _, hs => holds_execRedFaddH hs f
  | .send f, _, hs => holds_execSend hs f
  | .sendr f, _, hs => holds_execSendr hs f
  | .sendSys f, _, hs => holds_execSendSys hs f
  | .peek f, _, hs => holds_execPeek hs f
  | .mtake f, _, hs => holds_execMtake hs f
  | .mcnt f, _, hs => holds_execMcnt hs f
  | .mdrop f, _, hs => holds_execMdrop hs f
  | .capMint f, _, hs => holds_execCapMint hs f
  | .capNarrow f, _, hs => holds_execCapNarrow hs f
  | .capSelf f, _, hs => holds_execCapSelf hs f
  | .wake f, _, hs => holds_execWake hs f
  | .halt f, _, hs => holds_execHalt hs f
  | .actNew f, s, hs => canonical_execActNew f s hs
  | .actDel f, _, hs => holds_execActDel hs f
  | .spawn f, s, hs => canonical_execSpawn f s hs
  | .strBind f, _, hs => holds_execStrBind hs f
  | .strFree f, _, hs => holds_execStrFree hs f
  | .strStat f, _, hs => holds_execStrStat hs f
  | .pipReq f, _, hs => holds_execPipReq hs f
  | .pipRel f, _, hs => holds_execPipRel hs f
  | .pipLend f, _, hs => holds_execPipLend hs f
  | .pipStat f, _, hs => holds_execPipStat hs f
  | .trap f, _, hs => holds_execTrap hs f
  | .brk f, _, hs => holds_execBrk hs f
  | .cln f, _, hs => holds_execCln hs f
  | .inv f, _, hs => holds_execInv hs f
  | .lutLd f, _, hs => holds_execLutLd hs f
  | .modeL, _, hs => holds_execModeL hs
  | .modeS, _, hs => holds_execModeS hs
  | .wlStat f, _, hs => holds_execWlStat hs f
  | .nopA, _, hs => holds_execNopA hs
  | .add f, _, hs => holds_execAdd hs f
  | .sub f, _, hs => holds_execSub hs f
  | .mul f, _, hs => holds_execMul hs f
  | .mulh f, _, hs => holds_execMulh hs f
  | .mulhu f, _, hs => holds_execMulhu hs f
  | .div f, _, hs => holds_execDiv hs f
  | .divu f, _, hs => holds_execDivu hs f
  | .rem f, _, hs => holds_execRem hs f
  | .remu f, _, hs => holds_execRemu hs f
  | .and f, _, hs => holds_execAnd hs f
  | .or f, _, hs => holds_execOr hs f
  | .xor f, _, hs => holds_execXor hs f
  | .andn f, _, hs => holds_execAndn hs f
  | .orn f, _, hs => holds_execOrn hs f
  | .shl f, _, hs => holds_execShl hs f
  | .shr f, _, hs => holds_execShr hs f
  | .sra f, _, hs => holds_execSra hs f
  | .rol f, _, hs => holds_execRol hs f
  | .min f, _, hs => holds_execMin hs f
  | .max f, _, hs => holds_execMax hs f
  | .minu f, _, hs => holds_execMinu hs f
  | .maxu f, _, hs => holds_execMaxu hs f
  | .slt f, _, hs => holds_execSlt hs f
  | .sltu f, _, hs => holds_execSltu hs f
  | .seq f, _, hs => holds_execSeq hs f
  | .sel f, _, hs => holds_execSel hs f
  | .clz f, _, hs => holds_execClz hs f
  | .ctz f, _, hs => holds_execCtz hs f
  | .popc f, _, hs => holds_execPopc hs f
  | .bswap f, _, hs => holds_execBswap hs f
  | .sextB f, _, hs => holds_execSextB hs f
  | .sextH f, _, hs => holds_execSextH hs f
  | .sextW f, _, hs => holds_execSextW hs f
  | .zextB f, _, hs => holds_execZextB hs f
  | .zextH f, _, hs => holds_execZextH hs f
  | .zextW f, _, hs => holds_execZextW hs f
  | .addi f, _, hs => holds_execAddi hs f
  | .andi f, _, hs => holds_execAndi hs f
  | .ori f, _, hs => holds_execOri hs f
  | .xori f, _, hs => holds_execXori hs f
  | .shli f, _, hs => holds_execShli hs f
  | .shri f, _, hs => holds_execShri hs f
  | .srai f, _, hs => holds_execSrai hs f
  | .li f, _, hs => holds_execLi hs f
  | .lih f, _, hs => holds_execLih hs f
  | .faddS f, _, hs => holds_execFaddS hs f
  | .fsubS f, _, hs => holds_execFsubS hs f
  | .fmulS f, _, hs => holds_execFmulS hs f
  | .fmaS f, _, hs => holds_execFmaS hs f
  | .fminS f, _, hs => holds_execFminS hs f
  | .fmaxS f, _, hs => holds_execFmaxS hs f
  | .feqS f, _, hs => holds_execFeqS hs f
  | .fltS f, _, hs => holds_execFltS hs f
  | .fleS f, _, hs => holds_execFleS hs f
  | .fsgnjS f, _, hs => holds_execFsgnjS hs f
  | .fclassS f, _, hs => holds_execFclassS hs f
  | .fcvtSW f, _, hs => holds_execFcvtSW hs f
  | .fcvtWS f, _, hs => holds_execFcvtWS hs f
  | .fcvtSH f, _, hs => holds_execFcvtSH hs f
  | .fcvtHS f, _, hs => holds_execFcvtHS hs f
  | .faddH f, _, hs => holds_execFaddH hs f
  | .fsubH f, _, hs => holds_execFsubH hs f
  | .fmulH f, _, hs => holds_execFmulH hs f
  | .fmaH f, _, hs => holds_execFmaH hs f
  | .fminH f, _, hs => holds_execFminH hs f
  | .fmaxH f, _, hs => holds_execFmaxH hs f
  | .feqH f, _, hs => holds_execFeqH hs f
  | .fltH f, _, hs => holds_execFltH hs f
  | .fleH f, _, hs => holds_execFleH hs f
  | .fsgnjH f, _, hs => holds_execFsgnjH hs f
  | .fclassH f, _, hs => holds_execFclassH hs f
  | .vadd f, _, hs => holds_execVadd hs f
  | .vsub f, _, hs => holds_execVsub hs f
  | .vmul f, _, hs => holds_execVmul hs f
  | .vfma f, _, hs => holds_execVfma hs f
  | .vmin f, _, hs => holds_execVmin hs f
  | .vmax f, _, hs => holds_execVmax hs f
  | .vabs f, _, hs => holds_execVabs hs f
  | .vneg f, _, hs => holds_execVneg hs f
  | .vand f, _, hs => holds_execVand hs f
  | .vor f, _, hs => holds_execVor hs f
  | .vxor f, _, hs => holds_execVxor hs f
  | .vshl f, _, hs => holds_execVshl hs f
  | .vshr f, _, hs => holds_execVshr hs f
  | .vsra f, _, hs => holds_execVsra hs f
  | .vcmp f, _, hs => holds_execVcmp hs f
  | .vsel f, _, hs => holds_execVsel hs f
  | .vcvt f, _, hs => holds_execVcvt hs f
  | .vred f, _, hs => holds_execVred hs f
  | .vscan f, _, hs => holds_execVscan hs f
  | .vbcast f, _, hs => holds_execVbcast hs f
  | .vperm f, _, hs => holds_execVperm hs f
  | .vins f, _, hs => holds_execVins hs f
  | .vext f, _, hs => holds_execVext hs f
  | .vdot4 f, _, hs => holds_execVdot4 hs f
  | .vexp2 f, _, hs => holds_execVexp2 hs f
  | .vlog2 f, _, hs => holds_execVlog2 hs f
  | .vrcp f, _, hs => holds_execVrcp hs f
  | .vrsqrt f, _, hs => holds_execVrsqrt hs f
  | .vsqrt f, _, hs => holds_execVsqrt hs f
  | .vtanh f, _, hs => holds_execVtanh hs f
  | .vmov f, _, hs => holds_execVmov hs f
  | .vpopc f, _, hs => holds_execVpopc hs f
  | .vaddScalar f, _, hs => holds_execVaddScalar hs f
  | .vsubScalar f, _, hs => holds_execVsubScalar hs f
  | .vmulScalar f, _, hs => holds_execVmulScalar hs f
  | .vfmaScalar f, _, hs => holds_execVfmaScalar hs f
  | .vminScalar f, _, hs => holds_execVminScalar hs f
  | .vmaxScalar f, _, hs => holds_execVmaxScalar hs f
  | .vandScalar f, _, hs => holds_execVandScalar hs f
  | .vorScalar f, _, hs => holds_execVorScalar hs f
  | .vxorScalar f, _, hs => holds_execVxorScalar hs f
  | .vshlScalar f, _, hs => holds_execVshlScalar hs f
  | .vshrScalar f, _, hs => holds_execVshrScalar hs f
  | .vsraScalar f, _, hs => holds_execVsraScalar hs f
  | .vcmpScalar f, _, hs => holds_execVcmpScalar hs f
  | .vselScalar f, _, hs => holds_execVselScalar hs f
  | .vdot4Scalar f, _, hs => holds_execVdot4Scalar hs f
  | .liD f, _, hs => holds_execLiD hs f
  | .liDHi f, _, hs => holds_execLiDHi hs f
  | .farBeq f, _, hs => holds_execFarBeq hs f
  | .farBne f, _, hs => holds_execFarBne hs f
  | .farBlt f, _, hs => holds_execFarBlt hs f
  | .farBge f, _, hs => holds_execFarBge hs f
  | .farBltu f, _, hs => holds_execFarBltu hs f
  | .farBgeu f, _, hs => holds_execFarBgeu hs f
  | .farBz f, _, hs => holds_execFarBz hs f
  | .farBnz f, _, hs => holds_execFarBnz hs f
  | .mma f, _, hs => holds_execMma hs f
  | .mmaRing f, _, hs => holds_execMmaRing hs f
  | .mxLdb f, _, hs => holds_execMxLdb hs f
  | .accZero f, _, hs => holds_execAccZero hs f
  | .accLd f, _, hs => holds_execAccLd hs f
  | .accSt f, _, hs => holds_execAccSt hs f
  | .accProm f, _, hs => holds_execAccProm hs f
  | .attQk f, _, hs => holds_execAttQk hs f
  | .attSm f, _, hs => holds_execAttSm hs f
  | .attPv f, _, hs => holds_execAttPv hs f
  | .attFin f, _, hs => holds_execAttFin hs f
  | .spMm f, _, hs => holds_execSpMm hs f
  | .spBm f, _, hs => holds_execSpBm hs f
  | .spDrop f, _, hs => holds_execSpDrop hs f
  | .spGrow f, _, hs => holds_execSpGrow hs f
  | .spCnt f, _, hs => holds_execSpCnt hs f
  | .gath f, _, hs => holds_execGath hs f
  | .gathIx f, _, hs => holds_execGathIx hs f
  | .scat f, _, hs => holds_execScat hs f
  | .embBag f, _, hs => holds_execEmbBag hs f
  | .cp f, _, hs => holds_execCp hs f
  | .cpMc f, _, hs => holds_execCpMc hs f
  | .wlPush f, s, hs => canonical_execWlPush f s hs
  | .wlPopb f, s, hs => canonical_execWlPopb f s hs
  | .wlInsd f, s, hs => canonical_execWlInsd f s hs
  | .launch f, _, hs => holds_execLaunch hs f
  | .barInit f, _, hs => holds_execBarInit hs f
  | .illegalOpcode, _, hs => holds_execIllegalOpcode hs
  | .codeFetchFault, _, hs => holds_execCodeFetchFault hs
  | .thermalLimit, _, hs => holds_execThermalLimit hs
  | .railOvercurrent, _, hs => holds_execRailOvercurrent hs
  | .ualinkPortDark, _, hs => holds_execUalinkPortDark hs
  | .fabricInterfaceDark, _, hs => holds_execFabricInterfaceDark hs
  | .sliceGoesDark, _, hs => holds_execSliceGoesDark hs
  | .hub89Dark, _, hs => holds_execHub89Dark hs

section
variable {s : State}

/-! ### A step -/

theorem canonical_runSlot (slotA : Bool) (r : Except Cause Instr) (s : State) (hs : s.mem.Canonical) : HoldsAfter Memory.Canonical (runSlot slotA r s) := by
  unfold runSlot
  split
  · exact canonical_exec _ _ hs
  · split <;> simpa using hs

theorem State.canonical_slotPair (wc wa : Nat) (hs : s.mem.Canonical) : HoldsAfter Memory.Canonical (s.slotPair wc wa) := by
  have hC := canonical_runSlot false (decodeC wc) s hs
  have hA := fun (u : State) (hu : u.mem.Canonical) => canonical_runSlot true (decodeA wa) u hu
  unfold State.slotPair runA
  simp only
  split
  · rename_i sC h
    have hsC := hC.of_eq h
    split
    · exact hsC
    · split
      · rename_i sA h'
        have hsA := (hA _ (by split <;> simpa using hs)).of_eq h'
        split
        · simpa using hsA
        · split
          · exact hsC
          · simpa using hsC
      · exact hA _ (by split <;> simpa using hs)
  · exact hC

theorem State.canonical_endPair (wc wa : Nat) (hs : s.mem.Canonical) : HoldsAfter Memory.Canonical (s.endPair wc wa) := by
  have hC := fun (u : State) (hu : u.mem.Canonical) => canonical_runSlot false (decodeC wc) u hu
  have hA := canonical_runSlot true (decodeA wa) s hs
  unfold State.endPair runA
  simp only
  split
  · exact hC s hs
  · split
    · rename_i sA h
      have hsA := hA.of_eq h
      split
      · split
        · split
          · exact (hC s hs).of_eq ‹_›
          · exact hsA
        · exact hC s hs
      · split
        · exact hsA
        · have hbase := hC ((s.withA sA s).upd (fun c => { c with aDone := true })) (by simpa using hs)
          split
          · split
            · exact hC s hs
            · exact hbase.of_eq ‹_›
          · exact hbase
    · exact hA

theorem State.canonical_runBundle (d : Nat) (hs : s.mem.Canonical) : HoldsAfter Memory.Canonical (s.runBundle d) := by
  unfold State.runBundle
  split
  · simpa using hs
  · simp only
    split
    · exact canonical_runSlot _ _ _ hs
    · split
      · exact State.canonical_endPair _ _ hs
      · exact State.canonical_slotPair _ _ hs

theorem State.canonical_issueCtx (i : Nat) (hs : s.mem.Canonical) : HoldsAfter Memory.Canonical (s.issueCtx i) := by
  have hcur : ({ s with cur := i } : State).mem.Canonical := hs
  unfold State.issueCtx
  generalize ({ s with cur := i } : State) = u at hcur
  simp only
  split
  · simpa using hcur
  · split
    · simpa using hcur
    · split
      · simpa using hcur
      · simpa using hcur
      · rename_i d v hf
        have hrun := State.canonical_runBundle d ((State.mem_of_fetch hf).symm ▸ hcur)
        split
        · simpa using hrun.of_eq ‹_›
        · exact hrun

theorem State.canonical_issueFirst (core : Nat) : ∀ (is : List Nat) (s : State), s.mem.Canonical → HoldsAfter Memory.Canonical (State.issueFirst core is s)
  | [], _, hs => hs
  | i :: is, s, hs => by
    have hissue := State.canonical_issueCtx i hs
    unfold State.issueFirst
    split
    · exact State.canonical_issueFirst core is s hs
    · split
      · have hs' := hissue.of_eq ‹_›
        split
        · exact State.canonical_issueFirst core is _ hs'
        · simpa using hs'
      · exact hissue

theorem State.canonical_issueCore (core : Nat) (hs : s.mem.Canonical) : HoldsAfter Memory.Canonical (s.issueCore core) := by
  unfold State.issueCore
  split
  · exact hs
  · exact State.canonical_issueFirst _ _ _ hs

theorem State.canonical_turn (hs : s.mem.Canonical) : HoldsAfter Memory.Canonical s.turn := by
  have hissue := State.canonical_issueCore s.focus hs
  unfold State.turn
  split
  · have hs1 := hissue.of_eq ‹_›
    simp only [holdsAfter_next]
    split
    · exact State.canonical_advance _ hs1
    · exact hs1
  · exact hissue

theorem State.canonical_happen (i : Instr) (a : EvArg) (hs : s.mem.Canonical) : HoldsAfter Memory.Canonical (s.happen i a) := by
  unfold State.happen
  split
  · exact hs
  · split
    · exact canonical_exec _ _ hs
    · trivial

theorem State.canonical_move (hs : s.mem.Canonical) : HoldsAfter Memory.Canonical s.move := by
  unfold State.move
  split
  · exact State.canonical_happen _ _ hs
  · split
    · exact State.canonical_issueCore _ hs
    · trivial
  · exact State.canonical_advance _ hs
  · split
    · simpa using hs
    · trivial
  · split
    · exact State.canonical_happen _ _ hs
    · exact State.canonical_turn hs

theorem canonical_step (s : State) (hs : s.mem.Canonical) : HoldsAfter Memory.Canonical (step s) := by
  have hmove := State.canonical_move hs
  unfold step State.stepOnce
  split
  · simpa using hmove.of_eq ‹_›
  · exact hmove
end

/-- Settles O6: every step of the machine is an event, an issue or a pass of time, and each of them writes memory only through operations that keep its form. -/
theorem stepsKeepMemoryCanonical : Obligations.StepsKeepMemoryCanonical := fun s _ hs h => (canonical_step s hs).of_eq h

end Sys2Proof.Machine
end
